-- ==== Sys2Proof/Word.lean ====
section
/-! DEFINITION. The word types of the register map and of memory (R6, R12, spec/00_scope.md). -/
namespace Sys2Proof

/-- A 32-bit register word (R6). -/
abbrev Word := BitVec 32

/-- One byte of memory (R12). -/
abbrev Byte := BitVec 8

/-- A register: block number × 0x10000 + offset, the low 21 bits of its address (R6). -/
abbrev Reg := Nat

/-- A sparse table: keys strictly rising, a key that is not listed has the table's default. -/
abbrev Store (α : Type) := List (Nat × α)

end Sys2Proof
end

