-- ==== Sys2Proof/Syntax.lean ====
section
/-! DEFINITION. The commands of the block, one constructor per row of spec/opcode_table.json in its order, and the data
their operands carry. `t` is a station time in 2^−16 ns (R14); log entry 1 says which operands the model adds; `room` is the sender's
word on an egress buffer, which State holds itself: it is not read (log entry 31). -/
namespace Sys2Proof

/-- The contents of a bell word (R18, R130). `txoff` is in 2^−5 ns. -/
structure BellWord where
  index : Nat
  t0Sec : Nat
  t0Ns : Nat
  dNs : Nat
  dFrac : Nat
  stop : Bool
  refState : Nat
  txoff : Int
deriving DecidableEq, Repr

/-- The HELLO payload (R122). -/
structure Hello where
  serial : Nat
  pitch : Nat
  lead : Bool
  parked : Bool
  port : Nat
  aligned : Bool
  conflict : Bool
  pitched : Bool
  topo : Nat
  xm1 : Nat
  ym1 : Nat
  schedId : Nat
  leadSerial : Nat
deriving DecidableEq, Repr

/-- The CAST payload (R131, R148): CKIND 1 CAPTURE, 2 JOIN, 3 PARK. -/
structure Cast where
  ckind : Nat
  origin : Nat
  cseq : Nat
  bell : Nat
  source : Nat
  pre : Nat
  post : Nat
  tag : Nat
deriving DecidableEq, Repr

/-- What a canopy packet carries beyond its header (R118, R129 to R131). -/
inductive Body where
  | data (payload : List Byte)
  | bell (w : BellWord)
  | probe (t1 : Nat)
  | probeReply (t1 t2 t3 : Nat)
  | hello (h : Hello)
  | cast (c : Cast)
  | credit
  | unknown (kind : Nat) (payload : List Byte)
deriving DecidableEq, Repr

/-- The header fields of a canopy packet (R118). -/
structure Packet where
  body : Body
  dest : Nat := 0
  xdir : Nat := 0
  ydir : Nat := 0
  src : Nat := 0
  channel : Nat := 0
  q4 : Bool := false
  inputs : Nat := 0
  m0 : Nat := 0
  ibase : Nat := 0
  seq : Nat := 0
deriving DecidableEq, Repr

/-- The trailer fields of a canopy packet (R119); `cred` lists (VOQ, COUNT), at most three. -/
structure Trailer where
  nak : Bool
  ack : Nat
  cred : List (Nat × Nat)
deriving DecidableEq, Repr

/-- One word on PITCH_IN (R110): its 16 data bits and whether its framing is intact. -/
structure PitchWord where
  word : Nat
  framed : Bool
deriving DecidableEq, Repr

/-- What one lane of a group carried as one sample frame (R48, R51): the lane stayed LOCKED, the block time at which its start
block came, its start, index, data and end bytes, and whether no other block stood between its parts. -/
structure LaneFrame where
  locked : Bool
  startAt : Nat
  start : List Byte
  index : List Byte
  data : List Byte
  fin : List Byte
  clean : Bool
deriving DecidableEq, Repr

/-- How long a schedule entry was active in a slot on engines that a rail feeds (R376): cycles. -/
structure Active where
  entry : Nat
  rail : Nat
  cycles : Nat
deriving DecidableEq, Repr

/-- One command (spec/opcode_table.json). -/
inductive Instr where
  /-- REGISTER_WRITE (R6). -/
  | registerWrite (m r : Nat) (v : Word) (t : Nat)
  /-- READ_CLEAR (R9). -/
  | readClear (m r t : Nat)
  /-- LATCHING_READ (R323). -/
  | latchingRead (m r t : Nat)
  /-- FABRIC_TRANSACTION (R424). -/
  | fabricTransaction (m : Nat) (write : Bool) (a n be : Nat) (data : List Byte) (answered : Bool) (t : Nat)
  /-- TARGET_TIMEOUT (R429). -/
  | targetTimeout (k : Nat) (performed : Bool) (t : Nat)
  /-- ERR_ADDR_READ (R429). -/
  | errAddrRead (master : Nat)
  /-- BELL_RING (R13). -/
  | bellRing (t : Nat)
  /-- SLOT_BOUNDARY (R14). -/
  | slotBoundary (slot t : Nat)
  /-- SCHEDULE_ITEM_START (R28). -/
  | scheduleItemStart (k t : Nat)
  /-- SCHEDULE_ITEM_CUTOFF (R28). -/
  | scheduleItemCutoff (k t : Nat)
  /-- STALL_OVERRUN (R34). -/
  | stallOverrun (t : Nat)
  /-- BELL_RUN_SET (R17). -/
  | bellRunSet (t : Nat)
  /-- BELL_RUN_CLEAR (R25). -/
  | bellRunClear (t : Nat)
  /-- REFUSED_EXIT (R22). -/
  | refusedExit
  /-- T0_WRITE (R16). -/
  | t0Write (which : Nat) (v : Word)
  /-- BELL_WORD_RX (R22). -/
  | bellWordRx (port : Nat) (p : Packet) (tr : Trailer) (crcOk : Bool) (rx t : Nat)
  /-- BELL_WORD_MISSING (R20). -/
  | bellWordMissing
  /-- BELL_LOST (R22). -/
  | bellLost (t : Nat)
  /-- NO_LEAD (R22). -/
  | noLead (t : Nat)
  /-- LANE_CDR_LOCK (R41). -/
  | laneCdrLock (lane t : Nat)
  /-- LANE_BLOCK_RX (R41). -/
  | laneBlockRx (lane hdr payload : Nat)
  /-- LOCK_GAINED (R41). -/
  | lockGained (lane : Nat)
  /-- LOCK_LOSS (R41). -/
  | lockLoss (lane : Nat)
  /-- LANE_POWER_WRITE (R43). -/
  | lanePowerWrite (lane : Nat) (v : Word)
  /-- READAPT (R40). -/
  | readapt (lane : Nat)
  /-- ADAPTATION_DONE (R40). -/
  | adaptationDone (lane peak t : Nat)
  /-- GROUP_ENABLE (R45). -/
  | groupEnable (g : Nat) (v : Word)
  /-- SAMPLE_FRAME_RX (R51). -/
  | sampleFrameRx (g t : Nat) (lanes : List LaneFrame)
  /-- SAMPLE_RELEASE (R55). -/
  | sampleRelease (k : Nat)
  /-- EPOCH_MESSAGE_TX (R58). -/
  | epochMessageTx (g te t : Nat)
  /-- ACK_MESSAGE_TX (R58). -/
  | ackMessageTx (g t : Nat)
  /-- DC_CLEAR (R63). -/
  | dcClear (g : Nat)
  /-- NCO_ARM (R66). -/
  | ncoArm (t : Nat)
  /-- NCO_PHASE_RESET (R66). -/
  | ncoPhaseReset (k : Nat)
  /-- RESAMPLER_OUTPUT (R74). -/
  | resamplerOutput (n : Nat)
  /-- POLY_COMMIT (R78). -/
  | polyCommit (v : Word) (t : Nat)
  /-- POLY_PAGE_CHANGE (R79). -/
  | polyPageChange (f : Nat)
  /-- POLY_EXPIRED (R79). -/
  | polyExpired (f : Nat)
  /-- COEF_DATA_ACCESS (R80). -/
  | coefDataAccess (write : Bool) (v : Word)
  /-- BANK_SWAP_CMD (R81). -/
  | bankSwapCmd (v : Word)
  /-- BANK_SWAP_DONE (R82). -/
  | bankSwapDone (g : Nat)
  /-- THRESHOLD_EVENT (R84). -/
  | thresholdEvent (input : Nat)
  /-- SPECTRUM_COMPLETE (R107). -/
  | spectrumComplete (m : Nat)
  /-- WINDOW_DATA_ACCESS (R92). -/
  | windowDataAccess (write : Bool) (v : Word)
  /-- WINDOW_SWAP_CMD (R93). -/
  | windowSwapCmd (t : Nat)
  /-- WINDOW_SWAP (R93). -/
  | windowSwap (m : Nat)
  /-- FRINGE_COMMIT (R100). -/
  | fringeCommit (v : Word) (t : Nat)
  /-- FRINGE_PAGE_CHANGE (R100). -/
  | fringePageChange (f : Nat)
  /-- FRINGE_EXPIRED (R100). -/
  | fringeExpired (f : Nat)
  /-- SCALE_DATA_ACCESS (R104). -/
  | scaleDataAccess (write : Bool) (v : Word)
  /-- SCALE_COMMIT (R105). -/
  | scaleCommit (v : Word) (t : Nat)
  /-- SCALE_BANK_CHANGE (R105). -/
  | scaleBankChange (f : Nat)
  /-- PWRGOOD_RISE (R363). -/
  | pwrgoodRise (straps : Nat)
  /-- PWRGOOD_FALL (R465). -/
  | pwrgoodFall (t : Nat)
  /-- PITCH_WORD_TX (R110). -/
  | pitchWordTx (t : Nat)
  /-- PITCH_WORD_RX (R111). -/
  | pitchWordRx (w : PitchWord)
  /-- ORPHAN (R111). -/
  | orphan (t : Nat)
  /-- PITCH_RECALL (R111). -/
  | pitchRecall (t : Nat)
  /-- PITCH_ASSIGN (R113). -/
  | pitchAssign (v : Word)
  /-- ASSIGNMENT_FRAME_RX (R113). -/
  | assignmentFrameRx (port : Nat) (frame : List Byte) (room : Bool)
  /-- CAN_PORT_POWER_WRITE (R116). -/
  | canPortPowerWrite (port : Nat) (v : Word)
  /-- PORT_ENABLE (R122). -/
  | portEnable (port : Nat)
  /-- PORT_DISABLE (R122). -/
  | portDisable (port : Nat)
  /-- PORT_TRAINED (R122). -/
  | portTrained (port t : Nat)
  /-- HELLO_TX (R122). -/
  | helloTx (port : Nat)
  /-- HELLO_RX (R122). -/
  | helloRx (port : Nat) (p : Packet) (tr : Trailer) (crcOk : Bool) (t : Nat)
  /-- PORT_DOWN (R122). -/
  | portDown (port lanes : Nat)
  /-- HELLO_TIMEOUT (R122). -/
  | helloTimeout (port t : Nat)
  /-- DATA_PACKET_RX (R125). -/
  | dataPacketRx (port : Nat) (p : Packet) (tr : Trailer) (crcOk : Bool) (t : Nat)
  /-- CREDIT_PACKET_RX (R120). -/
  | creditPacketRx (port : Nat) (p : Packet) (tr : Trailer) (crcOk : Bool) (t : Nat)
  /-- UNKNOWN_KIND_PACKET_RX (R118). -/
  | unknownKindPacketRx (port : Nat) (p : Packet) (tr : Trailer) (crcOk : Bool) (t : Nat)
  /-- ACK_TX (R120). -/
  | ackTx (port : Nat)
  /-- REPLAY_TIMEOUT (R120). -/
  | replayTimeout (port t : Nat)
  /-- REPLAY_LIMIT (R120). -/
  | replayLimit (port : Nat)
  /-- PORT_TRANSMIT (R121). -/
  | portTransmit (port t : Nat)
  /-- VOQ_STARVE (R128). -/
  | voqStarve (port voq t : Nat)
  /-- PROBE_TX (R129). -/
  | probeTx (port t : Nat)
  /-- PROBE_RX (R129). -/
  | probeRx (port : Nat) (p : Packet) (tr : Trailer) (crcOk : Bool) (rx t : Nat)
  /-- PROBE_REPLY_RX (R129). -/
  | probeReplyRx (port : Nat) (p : Packet) (tr : Trailer) (crcOk : Bool) (rx t : Nat)
  /-- CAPTURE_CAST_RX (R148). -/
  | captureCastRx (port : Nat) (p : Packet) (tr : Trailer) (crcOk : Bool) (t : Nat)
  /-- JOIN_CAST_RX (R133). -/
  | joinCastRx (port : Nat) (p : Packet) (tr : Trailer) (crcOk : Bool) (t : Nat)
  /-- PARK_CAST_RX (R132). -/
  | parkCastRx (port : Nat) (p : Packet) (tr : Trailer) (crcOk : Bool) (t : Nat)
  /-- PARK_SET (R132). -/
  | parkSet (t : Nat)
  /-- PARK_CLEAR (R133). -/
  | parkClear (t : Nat)
  /-- RING_CELL_STORE (R138). -/
  | ringCellStore (voq t : Nat)
  /-- RING_FRAME_CLOSE (R138). -/
  | ringFrameClose (t : Nat)
  /-- HOST_TRIGGER (R143). -/
  | hostTrigger (t : Nat)
  /-- CAPTURE_TRIGGER (R146). -/
  | captureTrigger (t : Nat)
  /-- CAPTURE_RELEASE_REQUEST (R151). -/
  | captureReleaseRequest (v : Word)
  /-- READOUT_START (R150). -/
  | readoutStart (v : Word) (t : Nat)
  /-- READOUT_ABORT (R150). -/
  | readoutAbort (t : Nat)
  /-- CAPTURE_PACKET (R246). -/
  | capturePacket (t : Nat)
  /-- READOUT_DONE (R150). -/
  | readoutDone (t : Nat)
  /-- WINDOW_LOAD_START (R158). -/
  | windowLoadStart (die t : Nat)
  /-- WINDOW_BLOCK_LOADED (R158). -/
  | windowBlockLoaded (die t : Nat)
  /-- TILE_CHANNEL_START (R162). -/
  | tileChannelStart (die t : Nat)
  /-- TILE_CHANNEL_END (R164). -/
  | tileChannelEnd (die t : Nat)
  /-- PARTIAL_SUM_RETIRE (R168). -/
  | partialSumRetire (die : Nat) (intact : Bool) (t : Nat)
  /-- DSEQ_READ (R175). -/
  | dseqRead (master : Nat)
  /-- AISLE_PASS_START (R183). -/
  | aislePassStart (die t : Nat)
  /-- AISLE_PASS_END (R182). -/
  | aislePassEnd (die t : Nat)
  /-- GAIN_COMMIT (R188). -/
  | gainCommit (v : Word)
  /-- CONTEXT_COMMIT (R192). -/
  | contextCommit (v : Word) (t : Nat)
  /-- BEAM_ADD (R193). -/
  | beamAdd (v : Word)
  /-- CROWN_PUBLISH (R206). -/
  | crownPublish (t : Nat)
  /-- CROWN_PARTIAL_TX (R208). -/
  | crownPartialTx (t : Nat)
  /-- CROWN_PARTIAL_RX (R208). -/
  | crownPartialRx (port : Nat) (frame : List Byte) (room : Bool) (t : Nat)
  /-- CROWN_CANOPY_RANK (R209). -/
  | crownCanopyRank (t : Nat)
  /-- CAL_CHANNEL_END (R223). -/
  | calChannelEnd (t : Nat)
  /-- MAILBOX_HEAD_READ (R445). -/
  | mailboxHeadRead (b m t : Nat)
  /-- OUTPUT_PORT_UP (R232). -/
  | outputPortUp (port lock : Nat) (align fec : Bool)
  /-- OUTPUT_PORT_DOWN (R232). -/
  | outputPortDown (port lock : Nat) (align fec : Bool)
  /-- OUTPUT_RX_DISCARD (R231). -/
  | outputRxDiscard (port frames cor unc : Nat)
  /-- STREAM_ENABLE (R233). -/
  | streamEnable (v : Word)
  /-- DUMP_FORMAT_WRITE (R237). -/
  | dumpFormatWrite (v : Word)
  /-- OUTPUT_PACKET_TX (R236). -/
  | outputPacketTx (port t : Nat)
  /-- DUMP_PACKET (R239). -/
  | dumpPacket (t : Nat)
  /-- MANIFEST_PACKET (R241). -/
  | manifestPacket (t : Nat)
  /-- MANIFEST_SIGNATURE_PACKET (R241). -/
  | manifestSignaturePacket (t : Nat)
  /-- BEAMV_PACKET (R242). -/
  | beamvPacket (t : Nat)
  /-- BEAMD_PACKET (R243). -/
  | beamdPacket (t : Nat)
  /-- EVENT_PACKET (R245). -/
  | eventPacket (t : Nat)
  /-- DRAM_INIT_DONE (R249). -/
  | dramInitDone (failed t : Nat)
  /-- DRAM_ENABLE (R252). -/
  | dramEnable (v : Word)
  /-- DRAM_RETRAIN (R265). -/
  | dramRetrain (failed t : Nat)
  /-- DRAM_READ (R261). -/
  | dramRead (req addr hint t : Nat)
  /-- DRAM_WRITE (R262). -/
  | dramWrite (req addr hint be t : Nat) (data : List Byte)
  /-- DRAM_REFRESH (R250). -/
  | dramRefresh (bank t : Nat)
  /-- REQUEST_AGE_UP (R254). -/
  | requestAgeUp (t : Nat)
  /-- ROW_CLOSE_TIMER (R255). -/
  | rowCloseTimer (bank t : Nat)
  /-- ROW_HAMMER_THRESHOLD (R257). -/
  | rowHammerThreshold (bank : Nat)
  /-- ROW_HAMMER_WINDOW_END (R257). -/
  | rowHammerWindowEnd (t : Nat)
  /-- PATROL_SCRUB (R263). -/
  | patrolScrub (t : Nat)
  /-- CA_PARITY_ERROR (R264). -/
  | caParityError (ch sc replayed : Nat) (again : Bool) (t : Nat)
  /-- UE_ADDR_READ (R261). -/
  | ueAddrRead (master : Nat)
  /-- NOP (R277). -/
  | nop (core dc : Nat)
  /-- BR (R278). -/
  | br (core dc : Nat)
  /-- BRCC (R278). -/
  | brcc (core dc : Nat)
  /-- CALL (R278). -/
  | call (core dc : Nat)
  /-- RET (R278). -/
  | ret (core dc : Nat)
  /-- RTI (R284). -/
  | rti (core dc : Nat)
  /-- LOOP (R281). -/
  | loop (core dc : Nat)
  /-- WAIT (R289). -/
  | wait (core dc : Nat)
  /-- HALT (R277). -/
  | halt (core dc : Nat)
  /-- FENCE (R287). -/
  | fence (core dc : Nat)
  /-- MPY (R272). -/
  | mpy (core dc : Nat)
  /-- MAC (R272). -/
  | mac (core dc : Nat)
  /-- MSU (R272). -/
  | msu (core dc : Nat)
  /-- DUAL_FETCH (R277). -/
  | dualFetch (core dc : Nat)
  /-- ACC_ADD (R277). -/
  | accAdd (core dc : Nat)
  /-- ACC_SUB (R277). -/
  | accSub (core dc : Nat)
  /-- NEG (R277). -/
  | neg (core dc : Nat)
  /-- ABS (R277). -/
  | abs (core dc : Nat)
  /-- CLR (R277). -/
  | clr (core dc : Nat)
  /-- ASL (R277). -/
  | asl (core dc : Nat)
  /-- ASR (R277). -/
  | asr (core dc : Nat)
  /-- CMP (R277). -/
  | cmp (core dc : Nat)
  /-- ADDD (R277). -/
  | addd (core dc : Nat)
  /-- DIVS (R276). -/
  | divs (core dc : Nat)
  /-- AND (R277). -/
  | and (core dc : Nat)
  /-- OR (R277). -/
  | or (core dc : Nat)
  /-- XOR (R277). -/
  | xor (core dc : Nat)
  /-- ADD16 (R277). -/
  | add16 (core dc : Nat)
  /-- SUB16 (R277). -/
  | sub16 (core dc : Nat)
  /-- MOV (R270). -/
  | mov (core dc : Nat)
  /-- LD (R271). -/
  | ld (core dc : Nat)
  /-- ST (R271). -/
  | st (core dc : Nat)
  /-- LD2 (R271). -/
  | ld2 (core dc : Nat)
  /-- ST2 (R271). -/
  | st2 (core dc : Nat)
  /-- LDI (R277). -/
  | ldi (core dc : Nat)
  /-- FLD (R287). -/
  | fld (core dc : Nat)
  /-- FST (R287). -/
  | fst (core dc : Nat)
  /-- FSTA (R287). -/
  | fsta (core dc : Nat)
  /-- FAR_STORE_COMPLETE (R287). -/
  | farStoreComplete (core fail t : Nat)
  /-- FAR_LOAD_COMPLETE (R287). -/
  | farLoadComplete (core fail t : Nat)
  /-- INTERRUPT_ENTRY (R284). -/
  | interruptEntry (core : Nat)
  /-- CORE_WAKE (R289). -/
  | coreWake (core : Nat)
  /-- TIMER_EXPIRE (R283). -/
  | timerExpire (core dc : Nat)
  /-- DOORBELL_WRITE (R283). -/
  | doorbellWrite (core : Nat) (v : Word)
  /-- LOCAL_MEMORY_ACCESS (R269). -/
  | localMemoryAccess (write : Bool) (v : Word)
  /-- CORE_RUN (R289). -/
  | coreRun (core : Nat) (v : Word)
  /-- CORE_HALT (R289). -/
  | coreHalt (core : Nat) (v : Word)
  /-- JOB_PUSH (R291). -/
  | jobPush (k t : Nat)
  /-- JOBQ_POP (R291). -/
  | jobqPop (core dc : Nat)
  /-- JOB_DONE (R291). -/
  | jobDone (core dc : Nat)
  /-- JOB_LATE (R291). -/
  | jobLate (k t : Nat)
  /-- FLAGS_SET (R292). -/
  | flagsSet (v : Word)
  /-- FLAGS_CLR (R292). -/
  | flagsClr (v : Word)
  /-- TOD_MESSAGE_RX (R295). -/
  | todMessageRx (r : Nat) (msg : List Byte) (after t : Nat)
  /-- ESMC_PDU_RX (R296). -/
  | esmcPduRx (port : Nat) (event : Bool) (ql t : Nat)
  /-- ESMC_TIMEOUT (R296). -/
  | esmcTimeout (port t : Nat)
  /-- ESMC_PDU_TX (R296). -/
  | esmcPduTx (port t : Nat)
  /-- REF_DISQUALIFY (R298). -/
  | refDisqualify (r cause t : Nat)
  /-- REF_AVAILABLE (R299). -/
  | refAvailable (r t : Nat)
  /-- REF_SELECT_EVAL (R300). -/
  | refSelectEval (t : Nat)
  /-- SWITCH_SETTLED (R301). -/
  | switchSettled (t : Nat)
  /-- DISAGREE_CHECK (R303). -/
  | disagreeCheck (foff toff : List Int) (t : Nat)
  /-- DPLL_LOCK (R305). -/
  | dpllLock (t : Nat)
  /-- FORCE_HOLDOVER (R310). -/
  | forceHoldover (v : Word) (t : Nat)
  /-- HOLDOVER_EXPIRED (R308). -/
  | holdoverExpired (t : Nat)
  /-- OSC_LOST (R309). -/
  | oscLost (t : Nat)
  /-- OSC_RESTORED (R309). -/
  | oscRestored (t : Nat)
  /-- TAKEOVER (R313). -/
  | takeover (t : Nat)
  /-- MELIER_MISMATCH (R314). -/
  | melierMismatch (t : Nat)
  /-- TIME_CORE_FAULT (R318). -/
  | timeCoreFault (t : Nat)
  /-- PLANNED_SWAP (R316). -/
  | plannedSwap (v : Word) (t : Nat)
  /-- SWAP_MONITOR_END (R316). -/
  | swapMonitorEnd (mismatch : Bool) (t : Nat)
  /-- RESYNC (R317). -/
  | resync (v : Word) (t : Nat)
  /-- RESYNC_DONE (R317). -/
  | resyncDone (t : Nat)
  /-- PAIR_RST (R319). -/
  | pairRst (v : Word) (t : Nat)
  /-- MELIER_STARTUP_DONE (R312). -/
  | melierStartupDone (t : Nat)
  /-- STAMP_EDGE (R326). -/
  | stampEdge (src : Nat) (fall : Bool) (t : Nat)
  /-- TIME_SET_CMD (R322). -/
  | timeSetCmd (v : Word) (t : Nat)
  /-- NOW_READ (R323). -/
  | nowRead (master t : Nat)
  /-- STAMP_QUEUE_POP (R327). -/
  | stampQueuePop (master : Nat)
  /-- SVC_FRAME_RX (R329). -/
  | svcFrameRx (port : Nat) (frame : List Byte) (fcsOk room : Bool) (tx t : Nat)
  /-- PTP_MESSAGE_RX (R332). -/
  | ptpMessageRx (port : Nat) (frame : List Byte) (room : Bool) (tx t : Nat)
  /-- TWO_STEP_ENTRY_TIMEOUT (R333). -/
  | twoStepEntryTimeout (t : Nat)
  /-- PDELAY_REQ_TX (R335). -/
  | pdelayReqTx (port t : Nat)
  /-- PDELAY_REQ_RX (R335). -/
  | pdelayReqRx (port : Nat) (frame : List Byte) (tx t : Nat)
  /-- PDELAY_RESP_RX (R335). -/
  | pdelayRespRx (port : Nat) (frame : List Byte) (t : Nat)
  /-- PD_FAIL (R335). -/
  | pdFail (port t : Nat)
  /-- SLAVE_ENABLE (R336). -/
  | slaveEnable (v : Word) (t : Nat)
  /-- ANNOUNCE_RX (R336). -/
  | announceRx (frame : List Byte) (t : Nat)
  /-- ANNOUNCE_TIMEOUT (R336). -/
  | announceTimeout (t : Nat)
  /-- SYNC_RX (R337). -/
  | syncRx (frame : List Byte) (t : Nat)
  /-- DELAY_REQ_TX (R336). -/
  | delayReqTx (t : Nat)
  /-- DELAY_RESP_RX (R336). -/
  | delayRespRx (frame : List Byte) (t : Nat)
  /-- SVC_LINK_UP (R328). -/
  | svcLinkUp (port t : Nat)
  /-- SVC_LINK_DOWN (R336). -/
  | svcLinkDown (port t : Nat)
  /-- SLAVE_FAULT_RECOVER (R336). -/
  | slaveFaultRecover (t : Nat)
  /-- INPUT_DELAY_COMMIT (R339). -/
  | inputDelayCommit (v : Word) (t : Nat)
  /-- XTAL_STABLE (R340). -/
  | xtalStable
  /-- XTAL_FAIL (R340). -/
  | xtalFail
  /-- XTAL_LOST (R341). -/
  | xtalLost
  /-- XTAL_RESTART (R341). -/
  | xtalRestart (v : Word)
  /-- PLL_ENABLE (R345). -/
  | pllEnable (k : Nat) (v : Word)
  /-- PLL_CONFIG_WRITE (R345). -/
  | pllConfigWrite (k : Nat) (ctrl : Bool) (v : Word)
  /-- PLL_LOCK (R343). -/
  | pllLock (k : Nat)
  /-- PLL_UNLOCK (R344). -/
  | pllUnlock (k : Nat)
  /-- CLOCK_SOURCE_WRITE (R346). -/
  | clockSourceWrite (k : Nat) (v : Word)
  /-- SW_DONE (R347). -/
  | swDone (k : Nat)
  /-- FORCED_SWITCH (R348). -/
  | forcedSwitch (k : Nat)
  /-- GATE_CLOSE (R352). -/
  | gateClose (v : Word) (quiet : Bool)
  /-- GATE_OPEN (R352). -/
  | gateOpen (v : Word)
  /-- GATE_CLOSE_DONE (R353). -/
  | gateCloseDone (g : Nat)
  /-- GATE_CLOSE_TIMEOUT (R353). -/
  | gateCloseTimeout (g : Nat)
  /-- VOTE_WRITE (R358). -/
  | voteWrite (d master : Nat) (v : Word) (t : Nat)
  /-- DOMAIN_POWER_UP (R359). -/
  | domainPowerUp (d t : Nat)
  /-- DOMAIN_POWER_DOWN (R359). -/
  | domainPowerDown (d t : Nat)
  /-- DOMAIN_DRAIN_TIMEOUT (R359). -/
  | domainDrainTimeout (d t : Nat)
  /-- THERMAL_VOTE_RELEASE (R358). -/
  | thermalVoteRelease (d t : Nat)
  /-- DEEP_ENTRY_REQUEST (R363). -/
  | deepEntryRequest (v : Word) (t : Nat)
  /-- DEEP_ENTRY_COMPLETE (R364). -/
  | deepEntryComplete (t : Nat)
  /-- WAKE_EDGE (R363). -/
  | wakeEdge (t : Nat)
  /-- BROWNOUT (R366). -/
  | brownout (straps : Nat)
  /-- POWER_UP_STEP_DONE (R367). -/
  | powerUpStepDone (geom upset t : Nat)
  /-- POWER_UP_STEP_TIMEOUT (R368). -/
  | powerUpStepTimeout (t : Nat)
  /-- POWER_UP_RETRY (R368). -/
  | powerUpRetry (t : Nat)
  /-- RETENTION_BAD_CLEAR (R371). -/
  | retentionBadClear (v : Word) (t : Nat)
  /-- PMBUS_READ (R373). -/
  | pmbusRead (rail raw : Nat) (valid : Bool) (t : Nat)
  /-- CORRECTION_UPDATE (R373). -/
  | correctionUpdate (rail t : Nat)
  /-- PMB_LOST (R373). -/
  | pmbLost (rail t : Nat)
  /-- METER_REQUEST (R376). -/
  | meterRequest (v : Word) (t : Nat)
  /-- LEDGER_PLAN (R377). -/
  | ledgerPlan (t : Nat)
  /-- LEDGER_SLOT_END (R379). -/
  | ledgerSlotEnd (rails : List Nat) (active : List Active) (t : Nat)
  /-- LEDGER_REPORT (R380). -/
  | ledgerReport (t : Nat)
  /-- SENSOR_CONVERSION (R381). -/
  | sensorConversion (sensor : Nat) (v : Int) (t : Nat)
  /-- SENSOR_SILENT (R382). -/
  | sensorSilent (sensor t : Nat)
  /-- THERMAL_TICK (R383). -/
  | thermalTick (t : Nat)
  /-- THERMAL_TRIP (R384). -/
  | thermalTrip (sensor t : Nat)
  /-- TRIP_ACK (R386). -/
  | tripAck (v : Word) (t : Nat)
  /-- IMAGE_LOAD (R400). -/
  | imageLoad (v : Word) (t : Nat)
  /-- DIE_CLOSE_NOIMG (R402). -/
  | dieCloseNoimg (v : Word) (t : Nat)
  /-- IMAGE_VERIFIED (R391). -/
  | imageVerified (t : Nat)
  /-- IMAGE_APPLY (R393). -/
  | imageApply (t : Nat)
  /-- FLASH_BOOT_READ (R396). -/
  | flashBootRead (t : Nat)
  /-- CAST_SEND (R397). -/
  | castSend (v : Word) (t : Nat)
  /-- CAST_FRAME_TX (R397). -/
  | castFrameTx (t : Nat)
  /-- CAST_FRAME_RX (R397). -/
  | castFrameRx (port : Nat) (frame : List Byte) (room : Bool) (t : Nat)
  /-- BOOT_LOCK_CLOSE (R399). -/
  | bootLockClose (v : Word) (t : Nat)
  /-- STALL_RELOAD_DONE (R402). -/
  | stallReloadDone (t : Nat)
  /-- STALL_RELOAD_FAIL (R405). -/
  | stallReloadFail (t : Nat)
  /-- DIE_OPEN (R402). -/
  | dieOpen (v : Word) (t : Nat)
  /-- CLERK_LOAD_DONE (R406). -/
  | clerkLoadDone (t : Nat)
  /-- PROVISION (R414). -/
  | provision (t : Nat)
  /-- SETROOT (R418). -/
  | setroot (t : Nat)
  /-- SETKEY (R418). -/
  | setkey (slot t : Nat)
  /-- CERT (R418). -/
  | cert (len t : Nat)
  /-- SEAL (R414). -/
  | seal (t : Nat)
  /-- SEAL_COMPLETE (R415). -/
  | sealComplete (ok : Bool) (t : Nat)
  /-- ATTEST (R416). -/
  | attest (t : Nat)
  /-- EPOCH (R413). -/
  | epoch (v : Word) (t : Nat)
  /-- ERASE (R420). -/
  | erase (v : Word) (t : Nat)
  /-- SIGNATURE_COMPLETE (R417). -/
  | signatureComplete (t : Nat)
  /-- VIOLATION_SENSOR_FIRE (R419). -/
  | violationSensorFire (sensors t : Nat)
  /-- POLICY_WRITE (R419). -/
  | policyWrite (v : Word) (t : Nat)
  /-- MASTER_RESET (R430). -/
  | masterReset (v : Word) (t : Nat)
  /-- MASTER_DRAINED (R431). -/
  | masterDrained (m left t : Nat)
  /-- MASTER_RELEASE (R431). -/
  | masterRelease (v : Word) (t : Nat)
  /-- PCIE_LINK_UP (R451). -/
  | pcieLinkUp (speed width t : Nat)
  /-- PCIE_LINK_DOWN (R430). -/
  | pcieLinkDown (t : Nat)
  /-- FUNCTION_LEVEL_RESET (R430). -/
  | functionLevelReset (left t : Nat)
  /-- D2D_FLIT_ERROR (R433). -/
  | d2dFlitError (n : Nat) (again : Bool) (t : Nat)
  /-- D2D_LINK_RETRAIN (R433). -/
  | d2dLinkRetrain (n t : Nat)
  /-- FLASH_DATA_READ (R434). -/
  | flashDataRead (m t : Nat)
  /-- FLASH_DATA_WRITE (R434). -/
  | flashDataWrite (m : Nat) (v : Word) (t : Nat)
  /-- FLASH_ERASE (R434). -/
  | flashErase (m t : Nat)
  /-- FLASH_ERASE_DONE (R434). -/
  | flashEraseDone (t : Nat)
  /-- PORTER_ENABLE (R437). -/
  | porterEnable (c m t : Nat)
  /-- PORTER_DISABLE (R440). -/
  | porterDisable (c n m t : Nat)
  /-- PORTER_TRIGGER (R437). -/
  | porterTrigger (t : Nat)
  /-- PORTER_DESCRIPTOR_END (R437). -/
  | porterDescriptorEnd (c t : Nat)
  /-- PORTER_XFER_ERR (R439). -/
  | porterXferErr (c n t : Nat)
  /-- EVENT_ROUTE_WRITE (R441). -/
  | eventRouteWrite (m d : Nat) (v : Word) (t : Nat)
  /-- MSIX_UNMASK (R443). -/
  | msixUnmask (vec : Nat) (mask : Bool) (t : Nat)
  /-- PMC_SNAPSHOT (R449). -/
  | pmcSnapshot (prompt : Bool) (t : Nat)
  /-- REF_QUALIFY (R299). -/
  | refQualify (r t : Nat)
  /-- VIOLATION_SENSOR_CLEAR (R419). -/
  | violationSensorClear (sensors t : Nat)
deriving DecidableEq, Repr

end Sys2Proof
end

