-- ==== Sys2Proof/Config.lean ====
section
/-! DEFINITION. What an implementation fixes and the free values: opaque constants with no body, so no proof can rest on
a value of them. Each is named in a row of notes/assumptions/. -/
namespace Sys2Proof

/-- A fresh value the spec leaves open, drawn by the step's plain counter `State.free` (log entry 5). -/
opaque Config.freeNat : Nat → Nat

/-- Where the spec gives an exact quotient and a register or time of a coarser unit, and no rounding: is num / den rounded up
in the place that rule number `rule` describes? (log entry 7). -/
opaque Config.roundUp (rule : Nat) (num den : Int) : Bool

/-- How far an evaluation of rule `rule` on these operands lies from the exact value, in the unit of the place that uses it;
each use holds it to the bound the spec states (log entry 8). -/
opaque Config.error (rule : Nat) (operands : List Int) : Int

/-- Where a rule's arithmetic leaves a choice of structure that changes no more than the last bits: does the implementation
take the first of the two structures named at the place of use? (log entry 8). -/
opaque Config.structure1 (rule : Nat) : Bool

/-- Whether a schedule entry of engine `engine` with this KIND and ARG places the work item that `work` names (a tile-channel, an
aisle pass, a channel of a solve, a product): the layouts of KIND and ARG are not stated (log entry 10). -/
opaque Config.itemOf (engine kind arg : Nat) (work : List Nat) : Bool

/-- Whether the entry with the fields `later` (ENGINE, KIND, ARG) depends on the one with the fields `earlier` (R28); what depends
on what is not stated (log entry 10). -/
opaque Config.itemAfter (later earlier : List Nat) : Bool

/-- The 10 check bits of SECDED(266,256) over the 32 bytes of a half: R259 names the code and not its matrix (log entry 36). -/
opaque Config.secded (half : List Nat) : Nat

/-- The activations of a bank after which the DDR5 standard asks for a refresh-management command, where the SPD says that the DRAM
requires it (R250, log entry 36). -/
opaque Config.raaimt : Nat

/-- The sign and fraction of the NaN that operation `op` gives on these operands: the spec names float32 and binary16 and not
the bits of a NaN (log entry 56). -/
opaque Config.nan (op : Nat) (operands : List Nat) : Nat

/-- Byte k of what a cryptographic or physical unit gives for an input, by unit: signatures, wrapping, the PUF, the random
number generator (log entry 9). -/
opaque Config.cryptoByte (unit : Nat) (input : List Nat) (k : Nat) : Nat

/-- Whether a signature or wrapped blob is authentic under a key (log entry 9). -/
opaque Config.authentic (unit : Nat) (input : List Nat) : Bool

end Sys2Proof
end

