-- ==== Sys2Proof/Machine/Bits.lean ====
section
/-! DEFINITION. Bit fields, two's complement, clamping, byte order (R12) and the CRCs of the spec, on Nat and Int. -/
namespace Sys2Proof.Machine

/-- Bits [lo + wid − 1 : lo] of x. -/
def bits (x lo wid : Nat) : Nat := (x >>> lo) % 2 ^ wid

/-- Bit k of x. -/
def bitAt (x k : Nat) : Bool := x.testBit k

/-- x with bits [lo + wid − 1 : lo] replaced by v mod 2^wid. -/
def putBits (x lo wid v : Nat) : Nat :=
  x - (bits x lo wid) <<< lo + (v % 2 ^ wid) <<< lo

def boolNat (b : Bool) : Nat := if b then 1 else 0

/-- The w-bit word x read as two's complement. -/
def toSigned (w x : Nat) : Int :=
  let y := x % 2 ^ w
  if y < 2 ^ (w - 1) then (y : Int) else (y : Int) - (2 ^ w : Nat)

/-- The w-bit two's complement word of i. -/
def ofSigned (w : Nat) (i : Int) : Nat := (i % ((2 ^ w : Nat) : Int)).toNat

/-- i held to lo ≤ i ≤ hi. -/
def clampI (lo hi i : Int) : Int := if i < lo then lo else if hi < i then hi else i

def clampN (lo hi n : Nat) : Nat := if n < lo then lo else if hi < n then hi else n

/-- A 32-bit counter that saturates at 0xFFFF_FFFF. -/
def satAdd32 (a b : Nat) : Nat := if a + b < 2 ^ 32 then a + b else 2 ^ 32 - 1

/-- ⌈a / b⌉. -/
def ceilDiv (a b : Nat) : Nat := (a + b - 1) / b

/-- The little-endian bytes of n (R12). -/
def toBytes : Nat → Nat → List Byte
  | 0, _ => []
  | k + 1, n => BitVec.ofNat 8 n :: toBytes k (n / 256)

/-- The number of little-endian bytes (R12). -/
def ofBytes : List Byte → Nat
  | [] => 0
  | b :: l => b.toNat + 256 * ofBytes l

/-- Network byte order (R12): most significant byte first. -/
def toBytesBE (k n : Nat) : List Byte := (toBytes k n).reverse

def ofBytesBE (l : List Byte) : Nat := ofBytes l.reverse

/-- `n` bytes of `l` from offset `o` as a little-endian number; bytes past the end read 0. -/
def leAt (l : List Byte) (o n : Nat) : Nat := ofBytes ((l.drop o).take n)

def beAt (l : List Byte) (o n : Nat) : Nat := ofBytesBE ((l.drop o).take n)

/-- The bits of x, bit k first, whose index is set, below w. -/
def setBits (w x : Nat) : List Nat := (List.range w).filter (fun k => x.testBit k)

/-- The number of set bits of x below w. -/
def popCount (w x : Nat) : Nat := (setBits w x).length

/-- x with bit k set to b. -/
def setBit (x k : Nat) (b : Bool) : Nat := putBits x k 1 (boolNat b)

/-- One bit of a reflected CRC with reversed polynomial `p`. -/
def crcBit (p c : Nat) : Nat := if c % 2 = 1 then (c / 2) ^^^ p else c / 2

def crcByte (p c : Nat) (b : Byte) : Nat :=
  let c := c ^^^ b.toNat
  crcBit p (crcBit p (crcBit p (crcBit p (crcBit p (crcBit p (crcBit p (crcBit p c)))))))

/-- The IEEE 802.3 CRC-32 of R119: reflected, initial value and final exclusive-or 0xFFFF_FFFF. -/
def crc32 (l : List Byte) : Nat := l.foldl (crcByte 0xEDB88320) 0xFFFFFFFF ^^^ 0xFFFFFFFF

/-- CRC-32C (Castagnoli), reflected, initial value and final exclusive-or 0xFFFF_FFFF. -/
def crc32c (l : List Byte) : Nat := l.foldl (crcByte 0x82F63B78) 0xFFFFFFFF ^^^ 0xFFFFFFFF

/-- Number k lies in one of the runs (first, last). -/
def inRuns (l : List (Nat × Nat)) (k : Nat) : Bool := l.any (fun r => decide (r.1 ≤ k ∧ k ≤ r.2))

/-- Number k joins the runs; one that follows a run lengthens it. -/
def addRun (k : Nat) : List (Nat × Nat) → List (Nat × Nat)
  | [] => [(k, k)]
  | r :: l => if r.1 ≤ k ∧ k ≤ r.2 + 1 then (r.1, max r.2 k) :: l else r :: addRun k l

/-- The numbers a to b join the runs: every run that meets or touches them merges into one. -/
def addSpan (a b : Nat) (l : List (Nat × Nat)) : List (Nat × Nat) :=
  let meets (r : Nat × Nat) : Bool := decide (r.1 ≤ b + 1 ∧ a ≤ r.2 + 1)
  let m := (l.filter meets).foldl (fun (x : Nat × Nat) r => (min x.1 r.1, max x.2 r.2)) (a, b)
  m :: l.filter (fun r => !(meets r))

/-- The runs without the numbers from k on. -/
def runsBelow (k : Nat) (l : List (Nat × Nat)) : List (Nat × Nat) :=
  (l.filter (fun r => decide (r.1 < k))).map (fun r => (r.1, min r.2 (k - 1)))

/-- How many of the numbers a to b lie in the runs, which do not overlap. -/
def runsIn (a b : Nat) (l : List (Nat × Nat)) : Nat :=
  (l.map (fun r => min b r.2 + 1 - max a r.1)).sum

/-- The list with element k replaced (unchanged past the end). -/
def setAt {α : Type} : List α → Nat → α → List α
  | [], _, _ => []
  | _ :: l, 0, a => a :: l
  | x :: l, k + 1, a => x :: setAt l k a

/-- Element k, or the default. -/
def atD {α : Type} : List α → Nat → α → α
  | [], _, d => d
  | x :: _, 0, _ => x
  | _ :: l, k + 1, d => atD l k d

end Sys2Proof.Machine
end

