-- ==== Sys2Proof/Machine/Store.lean ====
section
/-! DEFINITION. The sparse table behind the register file, memory and every other keyed store of State: a list of
(key, value) pairs with strictly rising keys. -/
namespace Sys2Proof.Machine

/-- The value listed for k. -/
def Store.get? {α : Type} : Store α → Nat → Option α
  | [], _ => none
  | (a, v) :: l, k => if a = k then some v else if k < a then none else Store.get? l k

/-- The value for k, d where none is listed. -/
def Store.getD {α : Type} (l : Store α) (k : Nat) (d : α) : α := (Store.get? l k).getD d

/-- k's entry put at its place, replacing one already there. -/
def Store.put {α : Type} : Store α → Nat → α → Store α
  | [], k, v => [(k, v)]
  | (a, w) :: l, k, v =>
    if k < a then (k, v) :: (a, w) :: l
    else if k = a then (k, v) :: l
    else (a, w) :: Store.put l k v

/-- k's entry removed. -/
def Store.del {α : Type} : Store α → Nat → Store α
  | [], _ => []
  | (a, w) :: l, k => if a = k then l else if k < a then (a, w) :: l else (a, w) :: Store.del l k

/-- The canonical write: a value equal to the default d removes the entry. -/
def Store.set {α : Type} [DecidableEq α] (d : α) (l : Store α) (k : Nat) (v : α) : Store α :=
  if v = d then Store.del l k else Store.put l k v

/-- Keys strictly rising, every key above `b` when `b` is given. -/
def Store.rising {α : Type} : Option Nat → Store α → Bool
  | _, [] => true
  | none, (a, _) :: l => Store.rising (some a) l
  | some b, (a, _) :: l => decide (b < a) && Store.rising (some a) l

/-- The canonical form: keys strictly rising and no entry equal to the default d. -/
def Store.wf {α : Type} [DecidableEq α] (d : α) (l : Store α) : Bool :=
  Store.rising none l && l.all (fun p => decide (p.2 ≠ d))

/-- Membership in a set of keys. -/
def Store.has {α : Type} (l : Store α) (k : Nat) : Bool := (Store.get? l k).isSome

end Sys2Proof.Machine
end

