-- ==== Sys2Proof/Machine/State.lean ====
section
/-! DEFINITION. Everything the spec gives the machine to hold, as plain data: the register file, memory, the hidden state
of each unit (INVENTORY.md lists every piece with its rule), what has left the device (`sent`), and the queue of waiting
commands. -/
namespace Sys2Proof.Machine

/-- One row of a block's register table: `count` registers from `off`, `stride` apart, the bits of each access code
(RW, RWL, W1C, W1S, RC, WO; a bit in no mask is RO or reserved), and the reset value. -/
structure RegRow where
  off : Nat
  stride : Nat
  count : Nat
  rw : Nat
  rwl : Nat
  w1c : Nat
  w1s : Nat
  rc : Nat
  wo : Nat
  reset : Nat
deriving DecidableEq, Repr

/-- A field of a register: bits [lo + wid − 1 : lo]. -/
structure Fld where
  reg : Reg
  lo : Nat
  wid : Nat
deriving DecidableEq, Repr

/-- The two parts (spec/00_scope.md, Parts and dies). -/
inductive Part where
  | iz8
  | iz4
deriving DecidableEq, Repr

/-- What has left the device or been answered to a master, newest first in `State.sent`. -/
inductive Out where
  | readData (master : Nat) (v : Nat)
  | bytes (master : Nat) (l : List Byte)
  | writeDone (master : Nat)
  | errResp (master addr : Nat) (write : Bool)
  | msix (vector : Nat)
  | bellOut (index pol widthUs : Nat)
  | pitchWord (word : Nat)
  | canopy (port : Nat) (p : Packet) (t : Trailer)
  | align (port : Nat)
  | laneMsg (lane kind : Nat) (body : List Nat) (blocks : List (Nat × Nat))
  | svcFrame (port : Nat) (frame : List Byte)
  | product (port : Nat) (kind : Nat) (frame : List Byte)
  | dram (req addr : Nat) (data : List Byte) (errHalves : Nat)
  | dramCmd (kind bank : Nat)
  | pmbus (addr page command : Nat)
deriving DecidableEq, Repr

/-- A phase step waiting for the next bell (R22, R24): how far bells move later, in 2^−34 ns, the index and T0 to adopt, and
whether it came in ALIGNED or FLYWHEEL. -/
structure BellStep where
  by_ : Int
  index : Nat
  word : BellWord
deriving DecidableEq, Repr

/-- The bell engine beyond its registers (R13 to R26). Instants are in 2^−16 ns of station time, `baseFine` in 2^−34 ns. -/
structure BellEng where
  /-- A follower's timebase: bell k rings at baseFine + (k − baseIdx) × (D + freq). -/
  ticking : Bool
  baseIdx : Nat
  baseFine : Int
  freq : Int
  /-- The next bell to ring. -/
  nextIdx : Nat
  /-- The first bell rung since the engine started (R23). -/
  firstIdx : Nat
  /-- The bells rung since the engine started, newest first, at most three: (index, instant). -/
  rungs : List (Nat × Nat)
  /-- Offsets within 1 ns counted in ACQUIRE, and missing bell words in a row (R22). -/
  acq : Nat
  miss : Nat
  /-- A bell word was taken since the last bell tick. -/
  heard : Bool
  pend : Option BellStep
  /-- Bell words with STOP that the lead still sends, and STOP words a follower has rung (R22). -/
  stopLeft : Nat
  stopWords : Nat
  /-- The last bell word taken carried STOP. -/
  stopHeard : Bool
  /-- Bells still to ring since RUN was cleared on this follower (R25). -/
  clearCnt : Option Nat
  waitSince : Nat
  noLeadRaised : Bool
deriving DecidableEq, Repr

/-- One ingest lane beyond its registers (R39 to R41): whether its CDR runs (HUNT or LOCKED), the valid headers counted,
blocks since LOCKED and the numbers of those with an invalid header among the last 1,024, the descrambler's last 58 bits,
whether a sample frame is under way, whether an adaptation is due at lock or running, the sample frame being received and the one
received last (R48), and the scrambler's last 58 bits with the instant of the message that left them (R39). -/
structure IngLane where
  on : Bool
  count : Nat
  blocks : Nat
  bad : List Nat
  scramble : Nat
  inFrame : Bool
  adaptDue : Bool
  adapting : Bool
  rx : Option LaneFrame
  got : Option LaneFrame
  tx : Option (Nat × Nat)
deriving DecidableEq, Repr

/-- A good, used sample frame that waits for release (R54, R55): its first time step, its steps, its lanes' payloads. -/
structure SampFrame where
  s0 : Nat
  steps : Nat
  nd : Bool
  lanes : List (List Byte)
deriving DecidableEq, Repr

/-- One lane group beyond its registers: frames that wait, counts since the last ACK, the last EPOCH and ACK sent. -/
structure IngGroup where
  frames : List SampFrame
  ackGood : Nat
  ackBad : Nat
  used : Bool
  lastEpoch : Option Nat
  lastAck : Option Nat
deriving DecidableEq, Repr

structure Ingest where
  lanes : List IngLane
  groups : List IngGroup
  /-- The newest released time step (R55). -/
  newest : Option Nat
deriving DecidableEq, Repr

/-- A complex sample with its flag (R62). -/
structure Samp where
  re : Int
  im : Int
  flag : Bool
deriving DecidableEq, Repr

/-- A detector window that met a threshold and waits for its decision (R84): its last buffer sample, the exponent J then in
force, the threshold (false A), the sum and the count of valid samples. -/
structure ThrEvent where
  last : Nat
  j : Nat
  thrB : Bool
  sum : Nat
  cnt : Nat
deriving DecidableEq, Repr

/-- One input's front filter chain beyond its registers (R63 to R85). -/
structure FrontIn where
  /-- FW, PHASE0 and the index of the last reset, in force (R65, R66). -/
  fw : Nat
  phase0 : Nat
  sr : Nat
  integ : List (Int × Int)
  comb : List (Int × Int)
  /-- The newest flagged mixer output, for the CIC's support (R62). -/
  lastFlag : Option Nat
  /-- The last 62 buffer-rate samples ahead of the compensator, newest first. -/
  taps : List Samp
  /-- The delay buffer by buffer-sample index (R71). -/
  buf : Store Samp
  /-- The newest buffer sample written, the buffer samples that the resampler has read, as runs (R85), and the last j (R82). -/
  newest : Option Nat
  reads : List (Nat × Nat)
  lastJ : Option Nat
  /-- The detector window being summed, its first sample and its exponent J, with its sum and its valid samples (R83). -/
  win : Option (Nat × Nat)
  sum : Nat
  cnt : Nat
  /-- Buffer samples below this index that HOLD still flags (R85). -/
  holdTo : Nat
  events : List ThrEvent
  /-- The output samples handed to the channeliser that a spectrum may still use, newest first: (n, z). -/
  out : List (Nat × Samp)
deriving DecidableEq, Repr

/-- A page or bank hand-off (R78, R79, R100, R105, R192): the page in use with its frame, the accepted commit. -/
structure Page where
  active : Nat
  frame : Option Nat
  /-- Accepted commits: page ↦ frame. -/
  pend : Store Nat
  stale : Bool
  expired : Bool
  /-- The last frame at whose start the change was decided. -/
  decided : Option Nat
deriving DecidableEq, Repr

structure Front where
  ins : List FrontIn
  ncoPend : Option Nat
  poly : Page
  /-- Pending swap of each group: s_w and the kinds (R81). -/
  swaps : Store (Nat × Bool × Bool)
  /-- Coefficients by group × 2^17 + kind × 2^16 + bank × 2^15 + word (R80). -/
  coef : Store Nat
  newestOut : Option Nat
deriving DecidableEq, Repr

/-- The channeliser beyond its registers (R87 to R107). -/
structure Channelizer where
  poly : Page
  scale : Page
  /-- Window words by bank × 2^17 + word (R92), scale words by bank × 2^22 + word (R104). -/
  win : Store Nat
  scales : Store Nat
  swap : Option Nat
  newestSpec : Option Nat
deriving DecidableEq, Repr

/-- An entry of the event FIFO (R245): ingest index, input, threshold, ACT, mean power as float32, when it was added. -/
structure EvtEntry where
  index : Nat
  input : Nat
  thrB : Bool
  act : Nat
  power : Nat
  at_ : Nat
deriving DecidableEq, Repr

/-- One entry of the frame schedule (spec/01_the_bell.md). -/
structure SchedEntry where
  engine : Nat
  kind : Nat
  start : Nat
  endSlot : Nat
  cls : Nat
  rank : Nat
  arg : Nat
deriving DecidableEq, Repr

/-- The pitch call beyond PIT's registers (R111). -/
structure PitchCall where
  timerAt : Nat
  timerOn : Bool
  lastWord : Option Nat
  armed : Bool
deriving DecidableEq, Repr

/-- A DATA packet waiting in a virtual output queue (R126): `src` is the port it came in on, none for the device's own. -/
structure VPkt where
  pkt : Packet
  from? : Option Nat
  since : Nat
  starved : Bool
deriving DecidableEq, Repr

/-- One lane of an Ehrah port (R39 to R42, R116): OFF where not `on`, else in HUNT or LOCKED; when its last ALIGN block came;
its adaptation and its peaking. -/
structure CanLane where
  on : Bool
  locked : Bool
  /-- How many blocks have come since the last ALIGN block, none before the first since lock. -/
  align : Option Nat
  count : Nat
  blocks : Nat
  bad : List Nat
  slip : Nat
  scramble : Nat
  adaptDue : Bool
  adapting : Bool
  adapted : Bool
  peak : Nat
deriving DecidableEq, Repr

/-- One Ehrah port beyond its registers (R116 to R129); `credMax` is the credit count it took as it entered UP (R126). -/
structure CanPort where
  hello : Option Hello
  helloAt : Nat
  txSeq : Nat
  rxSeq : Nat
  held : List (Packet × Trailer)
  replay : List (Packet × Trailer)
  rounds : Nat
  progressAt : Nat
  nakSent : Bool
  nakOwed : Bool
  ackOwed : Bool
  ctl : List Packet
  rtts : List Int
  credMax : Nat
  credUsed : Store Nat
  credOwed : Store Nat
  rr : Nat
deriving DecidableEq, Repr

/-- A DATA packet being filled for a channel (R124): its M0 and the spectra so far, each its samples as bytes. -/
structure Filling where
  m0 : Nat
  spectra : List (List Byte)
deriving DecidableEq, Repr

/-- The canopy beyond the CAN and PIT registers. -/
structure Canopy where
  ports : List CanPort
  /-- Lane k of port p at 32p + k. -/
  lanes : List CanLane
  voqs : Store (List VPkt)
  filling : Store Filling
  castsSeen : List (Nat × Nat × Nat)
  cseq : Nat
  leadSerial : Nat
  conflict : Bool
  /-- Parked pitches: (pitch, first frame), frame 0 for a park at once (R132). -/
  parked : List (Nat × Nat)
  /-- Rejoining pitches: (pitch, J) (R133). -/
  joining : List (Nat × Nat)
  parkAt : Option Nat
  parkSent : Bool
  rejoin : Bool
  joinAt : Option Nat
  /-- The frames [lo, P) that a park at bell P leaves to be sourced (R132). -/
  tail : Option (Nat × Nat)
deriving DecidableEq, Repr

/-- One slot of the reorder ring (R134 to R137): the frame it holds, whether that is open, its ordinal among the frames placed in the
ring (0 where empty), the records that freeze it (bit n for record n), the pitches whose inputs are flag codes in it (R132). -/
structure RingSlot where
  frame : Option Nat
  isOpen : Bool
  ord : Nat
  held : Nat
  parked : List Nat
deriving DecidableEq, Repr

/-- One capture record (R146, R147): st 0 FREE, 1 PENDING, 2 HELD, 3 READING; `later` holds the kept frames still to come. -/
structure CapRec where
  st : Nat
  srcs : Nat
  origin : Nat
  bell : Nat
  pre : Nat
  post : Nat
  tag : Nat
  first : Nat
  frames : List Nat
  later : List Nat
  short : Bool
  echoed : Bool
deriving DecidableEq, Repr

/-- A capture trigger on its way to the capture engine (R143). -/
structure Trigger where
  source : Nat
  tag : Nat
  bell : Nat
  pre : Nat
  post : Nat
  origin : Nat
deriving DecidableEq, Repr

/-- A result mailbox (R445): the SEQ of the newest published record, that record, and whether HEAD has not been read since. -/
structure Mailbox where
  seq : Nat
  newest : List Nat
  unread : Bool
deriving DecidableEq, Repr

/-- The ring writer and capture engine beyond RRG's registers. -/
structure Ring where
  slots : List RingSlot
  /-- The ordinal of the newest frame placed in the ring. -/
  ord : Nat
  /-- The frame numbers that have closed, as runs (lowest, highest). -/
  closed : List (Nat × Nat)
  recs : List CapRec
  relReq : Nat
  /-- A readout under way: the record, the frames left, the next cell of the first of them. -/
  reading : Option (Nat × List Nat × Nat)
  mb : Mailbox
  /-- Bytes waiting in the real-time write buffer (R140, R256). -/
  rtFill : Nat
  /-- When the readout's rate lets its next packet go (R150). -/
  rdAt : Nat
deriving DecidableEq, Repr

/-- A request that waits in a bank queue of the DRAM controller (R254): class 0 RT, 1 HIGH, 2 NORMAL, 3 LOW. -/
structure DramReq where
  req : Nat
  cls : Nat
  since : Nat
  addr : Nat
  hint : Nat
  write : Bool
  data : List Byte
  /-- Byte enables, bit k for byte k of the burst. -/
  be : Nat
deriving DecidableEq, Repr

/-- The row open in a bank (R255). -/
structure OpenRow where
  row : Nat
  opened : Nat
  last : Nat
  hint : Nat
deriving DecidableEq, Repr

/-- A command issued to a channel (R264): kind 0 an access, 1 a same-bank refresh, 2 refresh management; an access with its row, its
requester and the hint it was issued with. -/
structure DramCmd where
  kind : Nat
  bank : Nat
  row : Nat
  req : Nat
  hint : Nat
deriving DecidableEq, Repr

/-- The DRAM controller beyond its registers (R254 to R266). Bank number: ((channel × 2 + sub-channel) × 2 + rank) × 32 +
BG × 4 + BA. -/
structure Dram where
  /-- Halves and 256-bit words with an error, by address / 32, in any memory: true uncorrectable, false one bit. -/
  errs : Store Bool
  /-- The two copies of the address tag stored with a burst, by address / 64 (R259, R260); a burst not listed carries its own tag
  in both. -/
  tags : Store (Nat × Nat)
  queue : List DramReq
  rows : Store OpenRow
  /-- Activations in this refresh window by bank × 16 + requester, the crossings of THRESH answered by bank, the throttled
  requesters by bank × 16 + requester with their last activation (R257). -/
  acts : Store Nat
  crossed : Store Nat
  throttle : Store Nat
  /-- The last 64 commands of each channel, newest first (R264). -/
  cmds : Store (List DramCmd)
  /-- Consecutive replays at which the parity error came again, by sub-channel (R265). -/
  parity : Store Nat
  ueArmed : Bool
  scrub : Nat
  scrubAt : Nat
  panicSince : Nat
  /-- DDR_RESET_N is driven high (R456). -/
  resetN : Bool
  /-- The SPD states that the DRAM requires refresh management, and the activations of each bank since its last (R250). -/
  rfm : Bool
  raa : Store Nat
  /-- The segments that self-refresh keeps, taken at its entry, bit s for segment s (R266). -/
  srKept : Nat
deriving DecidableEq, Repr

/-- A product packet that is numbered, dealt to a port and ready, with the stream entry in force when it was formed (R232 to R236). -/
structure ProdPkt where
  kind : Nat
  stream : Nat
  pseq : Nat
  port : Nat
  ext : List Byte
  data : List Byte
  entry : List Byte
deriving DecidableEq, Repr

/-- The descriptor of a dump (R177) with what was sampled at its event (R237, R241). -/
structure Dump where
  q : Nat
  first : Nat
  nfr : Nat
  forced : Bool
  short : Bool
  skip : Nat
  stale : Bool
  step : Bool
  poison : Bool
  isFirst : Bool
  dieOut : Bool
  fmt : Nat
  corr : Bool
  manif : Bool
  dbank : Nat
deriving DecidableEq, Repr

/-- A manifest under way (R241): its dump, what it covers, its body, the bytes of the body sent, when its body was sent. -/
structure Manifest where
  q : Nat
  trunc : Bool
  body : List Byte
  sent : Nat
deriving DecidableEq, Repr

/-- The output engine beyond OUT's registers. -/
structure Outs where
  /-- Copied stream entries (R233). -/
  entries : Store (List Byte)
  pseq : Store Nat
  ready : List ProdPkt
  /-- The port that stream s dealt to last (R232). -/
  dealt : Store Nat
  /-- Complete dumps, oldest first; the first is being sent: records sent, its digests, when the next packet may leave. -/
  dumps : List Dump
  nextRec : Nat
  digests : List (List Byte)
  dumpAt : Nat
  manifests : List Manifest
  /-- FEC as it took effect at the last rise of EN, by port (PORTp_CTRL.FEC). -/
  fec : Store Nat
deriving DecidableEq, Repr

/-- The partial sums of one tile-channel on their way to the trunk (R164): (record number c × B + k, real, imaginary, count). -/
structure TileSums where
  chan : Nat
  tile : Nat
  begun : Bool
  sums : List (Nat × Int × Int × Nat)
deriving DecidableEq, Repr

/-- One stall die beyond its registers (R153 to R185): windows of the frame by k ↦ blocks loaded, the next or running
tile-channel (k, tile) with its start, the end of the last one, cycles of tile work and idle cycles in the frame, partial sums
on their way, gain words by k, the aisle pass (k, index among the beam tiles) next or running, and the passes ended or cut. -/
structure StallDie where
  closed : Bool
  wins : Store Nat
  k : Nat
  tile : Nat
  running : Option Nat
  ended : Option Nat
  busy : Nat
  wait : Nat
  out : List TileSums
  gains : Store (List Nat)
  /-- Contexts loaded in the strip for the running pass, its start; passes done and cut: k × 8 + g. -/
  pass : Option (Nat × Nat × Nat)
  done : List Nat
  cut : List Nat
  /-- The sequencer program (R390). -/
  code : List Byte
deriving DecidableEq, Repr

/-- Integration, runs and dumps on the trunk (R167 to R178). -/
structure Corr where
  dies : List StallDie
  /-- The frame whose stall and aisle work runs. -/
  frame : Option Nat
  /-- The next frame correlated begins a run under R174. -/
  fresh : Bool
  runFirst : Nat
  runFrames : List Nat
  /-- The dump header flags of the run's frames (R177). -/
  runFlags : Nat
  isFirst : Bool
  /-- The frame's tile-channels replace records; the dump being filled and whether its half has been written to yet; the
  records replaced so far, and those poisoned whose count is still owed (R170). -/
  replacing : Bool
  filling : Option Dump
  begun : Bool
  got : List Nat
  owed : List Nat
  /-- The feed of the filling dump is written (R211). -/
  feed : Bool
  nextQ : Nat
  last : Option Dump
deriving DecidableEq, Repr

/-- A BEAMV packet that waits to be numbered (R242). -/
structure BeamPkt where
  beam : Nat
  chan : Nat
  first : Nat
  samples : List Byte
  cut : Bool
  stale : Bool
deriving DecidableEq, Repr

/-- The detected records of a published frame that are not yet sent (R243): (beam, group, time sample, record), with the beam registers
in force for it. -/
structure DetFrame where
  frame : Nat
  stale : Bool
  cfg : Store Word
  recs : List (Nat × Nat × Nat × Nat)
deriving DecidableEq, Repr

/-- The aisles beyond AIS's registers (R182 to R202). -/
structure Aisle where
  /-- Context pages (R192) and directories: page × 256 + beam ↦ NIN. -/
  page : Page
  nin : Store Nat
  gpend : Option Nat
  /-- Beam and watch registers as sampled at the last bell (R202, R210). -/
  cfg : Store Word
  /-- Terms of the frame by beam × 2^14 + local channel, a flagged sample being none; records by beam × 2^14 + group. -/
  terms : Store (List (Option Nat))
  recs : Store (List Nat)
  beamv : List BeamPkt
  beamd : List DetFrame
deriving DecidableEq, Repr

/-- The crown beyond CRN's registers (R203 to R209). -/
structure Crown where
  seq : Nat
  mb : Mailbox
  published : Bool
  ranked : Bool
  partSent : Bool
  /-- Device values at the lead: (watch × 64 + pitch) ↦ records by candidate index; a candidate that is not listed has not
  arrived. -/
  parts : Store (Store Nat)
  /-- Canopy-wide sums by watch: (position, record), with the pitches whose values entered. -/
  sums : Store (List (Nat × Nat) × Nat)
deriving DecidableEq, Repr

/-- The calibration engine beyond CAL's registers (R211 to R229): the solve under way (its dump, its next channel, the controls
sampled at its first bell), its sequence number, channel counts, the solves since each channel's last status OK (none listed:
never solved), and the summary mailbox. -/
structure CalEng where
  active : Bool
  q : Nat
  next : Nat
  cfg : Store Word
  seq : Nat
  good : Nat
  failed : Nat
  age : Store Nat
  /-- The double buffer of feed and model words in calibration SRAM, by channel loaded (R213): words by baseline index. -/
  bufs : Store (Store (Nat × Nat) × Store (Nat × Nat))
  mb : Mailbox
deriving DecidableEq, Repr

/-- Clock source switches in flight, by domain: the target (R347). -/
structure Clk where
  target : Store Nat
  /-- Domain clocks that have stopped with the source in use, bit k for domain k (R341, R344, R349). -/
  stopped : Nat
deriving DecidableEq, Repr

/-- The Melier pair beyond MEL's registers (R293 to R319). Instants are in `State.up`. -/
structure MelEng where
  /-- The start-up check has passed. -/
  started : Bool
  /-- By candidate: since when it is qualified; whether it ever was since reset. -/
  qualSince : Store Nat
  everQual : List Nat
  /-- By REF_A to REF_C: the SEC of the last valid message and its time; the SEC and the PPS edge of the predecessor that the next message
  follows (R295). -/
  todSec : Store Nat
  todAt : Store Nat
  todPred : Store (Nat × Nat)
  /-- By service port: the last information PDU, and whether its QL is QL-FAILED (R296). -/
  esmcAt : Store Nat
  esmcFailed : List Nat
  /-- When acquiring began; the lock under way, the frequencies measured in it with their times, the frequency the OCXO is steered to, the
  holdover frequency (10^−12 against OSC_IN), when the selected candidate was lost (R305, R307), the holdover timer. -/
  acqSince : Option Nat
  lockSince : Option Nat
  freqs : List (Nat × Int)
  steer : Int
  hoFreq : Option Int
  lostAt : Option Nat
  hoStart : Option Nat
  /-- A planned swap being monitored since, a resync in flight (R316, R317). -/
  swapAt : Option Nat
  resync : Bool
  /-- Disagreements without arbiter, and candidates disqualified under DISAG with the one they disagree with (R303). -/
  pairs : List (Nat × Nat)
  disagBy : Store Nat
  /-- What station time has still to gain on device time, in 2^−16 ns, and the slew in ns per second (R306). -/
  offset : Int
  slew : Nat
  /-- The gap [from, to) of station time in which the outputs hold their values (R309, R313). -/
  gapFrom : Nat
  gapTo : Nat
deriving DecidableEq, Repr

/-- An entry of the stamp queue (R327). -/
structure Stamp where
  src : Nat
  fall : Bool
  fr : Nat
  ovf : Bool
deriving DecidableEq, Repr

/-- The egress of a service port (R329): the device time at which the frame being sent ends, the forwarded frames that wait, oldest
first. -/
structure SvcOut where
  freeAt : Nat
  frames : List (List Byte)
deriving DecidableEq, Repr

/-- An entry of the two-step table (R333). -/
structure TcEntry where
  domain : Nat
  seq : Nat
  spi : Nat
  out : Nat
  sum : Int
  since : Nat
deriving DecidableEq, Repr

/-- Peer delay on one service port (R335): the last request and its stamp, requests since the last response, whether PD_FAIL was
raised for them, a two-step response that waits (t2, correction, t4), the last values, the exchanges completed. -/
structure PdPort where
  seq : Nat
  req : Option (Nat × Int)
  sentAt : Option Nat
  unanswered : Nat
  failed : Bool
  resp : Option (Int × Int × Int)
  vals : List Int
  cnt : Nat
deriving DecidableEq, Repr

/-- A master heard on SVC0 (R336): its port identity, its data set, its announce interval, its last two Announce messages. -/
structure PtpMaster where
  spi : Nat
  prio1 : Nat
  cls : Nat
  accuracy : Nat
  variance : Nat
  prio2 : Nat
  gm : Nat
  steps : Nat
  logAnn : Int
  last : Nat
  prev : Option Nat
deriving DecidableEq, Repr

/-- Station time and PTP beyond PTP's registers (R320 to R339). Stamps are in 2^−16 ns of station time, instants in `State.up`. -/
structure PtpEng where
  /-- The last stamped edge by source, the stamp queue, whether the next entry carries OVF (R326, R327). -/
  lastEdge : Store Nat
  queue : List Stamp
  ovf : Bool
  tc : List TcEntry
  pd : List PdPort
  masters : List PtpMaster
  sel : Option Nat
  /-- Consecutive offsets, the SEQ of the last Sync measured, a two-step Sync that waits (SEQ, stamp, correction). -/
  offsets : Nat
  lastSeq : Option Nat
  sync : Option (Nat × Int × Int)
  /-- The last Sync's stamp minus master time, the Delay_Req that is out (SEQ, stamp), its number, when, its interval, MPD. -/
  msDelay : Option Int
  delayReq : Option (Nat × Int)
  delaySeq : Nat
  delayAt : Option Nat
  logDelay : Int
  mpd : Int
  faultAt : Nat
  upAt : Store Nat
  rxErr : Nat
  /-- Master time at the last Sync, and device time then (R337); device time at the GO of a pending MODE 0 load (R322). -/
  masterAt : Option (Nat × Nat)
  tsetGo : Nat
  /-- By service port: when its transmitter is free, and the frames that wait for it (R329). -/
  egress : List SvcOut
  /-- The input-delay bank of a pending change (R339). -/
  cdBank : Nat
  /-- The seconds of a pending MODE 0 load of station time (R322). -/
  tset : Nat
deriving DecidableEq, Repr

/-- The plan of a frame (R377): C in 1/16 W, budget, limit and plan in µJ, what it sheds and defers. -/
structure FramePlan where
  frame : Nat
  c16 : Nat
  step : Nat
  budget : Int
  plan : Nat
  deficit : Bool
  shed : List Nat
  deferred : List Nat
deriving DecidableEq, Repr

/-- A frame report that waits to be written (R380): its frame, flags and bytes 8 to 55. -/
structure FrameReport where
  frame : Nat
  deficit : Bool
  brake : Bool
  body : List Byte
deriving DecidableEq, Repr

/-- PMBus telemetry of one rail (R373): its readings (power in 2^−16 W) and the sensor's energy (µJ) since the last correction,
and the last valid reply. -/
structure RailMeter where
  watts : List Int
  sensed : Nat
  replyAt : Nat
  lost : Bool
deriving DecidableEq, Repr

/-- The ledger beyond LED's registers (R372 to R380). Energies are in 2^−14 µJ. -/
structure Ledger where
  next : Option FramePlan
  cur : Option FramePlan
  spent : Nat
  slots : Nat
  brakeAt : Option Nat
  /-- A metering frame is requested, the running frame is one, the energy given to each entry and to the base. -/
  meterReq : Bool
  metering : Bool
  attr : Store Nat
  base : Nat
  rails : List RailMeter
  due : List FrameReport
  seq : Nat
  mb : Mailbox
deriving DecidableEq, Repr

/-- One junction sensor (R381, R382): its reading in 1/16 °C, when it last changed and last converted, conversions in a row at
135 °C or more, the other sensors' readings when it last changed, whether one has moved by 2 °C since. -/
structure Sensor where
  val : Int
  changedAt : Nat
  lastAt : Nat
  hot : Nat
  others : Store Int
  moved : Bool
deriving DecidableEq, Repr

/-- The keys of R408. -/
structure KeyStore where
  seed : List Byte
  root : Option (List Byte)
  keys : Store (List Byte)
  cert : List Byte
deriving DecidableEq, Repr

/-- A programmed helper slot (R409): its kill fuse, and the one blob that unwraps under it with what that blob holds. -/
structure Helper where
  killed : Bool
  blob : List Byte
  keys : KeyStore
deriving DecidableEq, Repr

/-- What is one-time-programmable: helper slots, the security epoch, the event log of R385 (64-bit entries). -/
structure Otp where
  helpers : List Helper
  epoch : Nat
  log : List Nat
deriving DecidableEq, Repr

/-- A signature the signer makes (R417). -/
inductive SignJob where
  | manifest (q : Nat)
  | attest
deriving DecidableEq, Repr

/-- The security processor beyond SEC's registers (R408 to R421). -/
structure SecEng where
  keys : KeyStore
  /-- The helper slot in use; a SEAL under way. -/
  slot : Option Nat
  sealing : Bool
  signing : Option SignJob
  manifests : List Nat
  attWait : Bool
  /-- Finished manifest signatures by dump. -/
  sigs : Store (List Byte)
  report : List Byte
  /-- The violation-log ring (SENSOR, POLICY, FR) and the SEC_ALARM_N pin. -/
  vlog : Store (Nat × Nat × Nat)
  alarm : Bool
deriving DecidableEq, Repr

/-- A load being verified (R391): its source (STATUS.SRC), its image's place, length and KIND, the LOAD fields. -/
structure LoadJob where
  src : Nat
  base : Nat
  len : Nat
  kind : Nat
  takeover : Bool
  hold : Bool
  pcycle : Bool
  /-- A wake that re-checks the staged digests only (R398). -/
  recheck : Bool
deriving DecidableEq, Repr

/-- A stall-die or clerk change (R401 to R406): phase 0 waits for its bell, 1 reloads or loads, 2 waits for the bell of reopening
or restart, 3 held or closed without an image; `handDue` is a takeover that still waits for the change bell while the reload of a die
closed before runs. -/
structure Change where
  clerk : Bool
  die : Nat
  cores : Nat
  noimg : Bool
  takeover : Bool
  hold : Bool
  pcycle : Bool
  handDue : Bool
  bell : Nat
  phase : Nat
  base : Nat
  len : Nat
deriving DecidableEq, Repr

/-- A cast image being received (R397): SCHED_ID, LENGTH, the runs of offsets that have arrived. -/
structure CastRx where
  sched : Nat
  len : Nat
  got : List (Nat × Nat)
deriving DecidableEq, Repr

/-- The configuration loader beyond CFG's registers (R387 to R407). -/
structure Loader where
  job : Option LoadJob
  /-- An accepted full image that waits to be applied. -/
  accepted : Option LoadJob
  change : Option Change
  /-- The flash slot the boot reads next. -/
  flashSlot : Nat
  rx : Option CastRx
  rejected : List Nat
  castOff : Nat
  castLen : Nat
  /-- The full image in force: its place and length. -/
  full : Option (Nat × Nat)
  /-- Its source (CFG.STATUS.SRC). -/
  src : Nat
  digFull : List Byte
  digStall : Store (List Byte)
  digCoef : List Byte
  digClerk : Store (List Byte)
deriving DecidableEq, Repr

/-- What device consumers keep in their retention banks through a deep state (R369): the holdover frequency, the lanes'
adapted peaking, the ledger's SCHED_ID, base and coefficients, the loader's record of the image. -/
structure Saved where
  holdover : Option Int
  peaks : List (Nat × Nat)
  sched : Nat
  base : Nat
  coefs : List Nat
  image : Loader
  /-- What training keeps in bank 0 (R249): the geometry, bit 4 that no segment can be masked, bit 5 that refresh management is
  required. -/
  geom : Nat
deriving DecidableEq, Repr

/-- The power sequencer beyond PWR's registers (R356 to R371). Instants are in `State.up`. -/
structure Power where
  /-- The step of a power-up or wake sequence under way, 0 none; attempts by step; when its last step was undone. -/
  step : Nat
  attempts : List Nat
  undoneAt : Option Nat
  /-- The sequence is a wake; a WAKE edge is held through ENTERING. -/
  waking : Bool
  wakeHeld : Bool
  /-- When a die core domain powered up: its thermal vote stands (R358). -/
  trimAt : Store Nat
  /-- With the log full, an ACK of index 255 has ended the hold of this power-up (R386). -/
  holdEnded : Bool
  /-- Banks that passed the check of the last wake (R371). -/
  banksOk : Nat
  /-- THERM_TRIP_N is low (R384); PWRGOOD is high; when the step began; what the consumers of the retention banks saved. -/
  tripPin : Bool
  pwrGood : Bool
  stepAt : Nat
  saved : Saved
deriving DecidableEq, Repr

/-- A transaction outstanding in the matrix (R427). -/
structure Txn where
  master : Nat
  write : Bool
  addr : Nat
  len : Nat
  be : Nat
  data : List Byte
  issuedAt : Nat
  /-- It waits for its target; the bytes that its performed chunks have moved, what they read, and whether one failed (R425). -/
  waits : Bool
  moved : Nat
  got : List Byte
  failed : Bool
deriving DecidableEq, Repr

/-- The fast matrix beyond MTX's registers (R422 to R434): outstanding transactions, the error-address latch armed, a full pool
noted, bytes below 64 of each counted unit by block × 256 + code, the first error address since the latch was read (address,
master, write), the sector of an erase that runs, the replays of the flit in error by die-to-die link (R433): 9 once the eighth
has failed. -/
structure Matrix where
  out : List Txn
  err : Option (Nat × Nat × Bool)
  fullNoted : Bool
  rem : Store Nat
  erasing : Option Nat
  d2d : Store Nat
  /-- WIN.SIZE as sampled when the PCIe link came up (R451). -/
  winSize : Nat
  /-- The master whose chunk each target took last (R426). -/
  granted : Store Nat
deriving DecidableEq, Repr

/-- A porter descriptor (R435). -/
structure Desc where
  src : Nat
  dst : Nat
  len : Nat
  sw : Nat
  dw : Nat
  sfix : Bool
  dfix : Bool
  ev : Bool
  chain : Bool
  wait : Bool
  hint : Nat
  next : Nat
deriving DecidableEq, Repr

/-- A porter channel (R437): st 0 stopped, 1 waits for a trigger, 2 moves data, 3 chain
finished, 4 the load of its descriptor waits; its descriptor, bytes read and
written, the holding register; CNT is undefined since a disable (R440). -/
structure Porter where
  st : Nat
  desc : Desc
  read : Nat
  written : Nat
  held : List Byte
  cntOpen : Bool
deriving DecidableEq, Repr

/-- The counter reader (R449): its 64-bit SEQ, and the record that has still to be written with its address. -/
structure Pmc where
  seq : Nat
  held : Option (List Byte × Nat)
deriving DecidableEq, Repr

/-- One clerk core (R268 to R291). `r` holds its registers by move code, and the accumulators whole at 0x100 + a;
a register that is not listed is 0 (R270). st: 0 RESET, 1 HALTED, 2 RUN, 3 WAIT, 4 FAULT, 5 STALL. -/
structure Core where
  st : Nat
  pc : Nat
  r : Store Nat
  pm : Store Nat
  xm : Store Nat
  ym : Store Nat
  /-- Words with an ECC error by memory × 0x8000 + address (0 PM, 1 XM, 2 YM): true uncorrectable, false correctable. -/
  errs : Store Bool
  /-- Writes of the last instruction that the next one does not see yet (R278): (register, value), in order. -/
  delayed : List (Nat × Nat)
  /-- The accumulator result that R279 forwards: (accumulator, value). -/
  fwd : Option (Nat × Nat)
  /-- The last instruction was a load or an accumulator write (R280). -/
  noInt : Bool
  /-- A branch in its delay slots: target, slots left, RTI. -/
  branch : Option (Nat × Nat × Bool)
  storeQ : List (Nat × Nat)
  /-- A far load issued and not yet answered: address. -/
  farLoad : Option Nat
  /-- The core stops once its far stores have completed: 0 no, 1 HALTED, 2 + code FAULT. -/
  stopping : Nat
  fault : Nat
  werr : Bool
  faddr : Nat
  jobq : List Nat
  /-- Jobs reported done since they were pushed. -/
  done : List Nat
  startBell : Bool
  haltBell : Bool
  haltNow : Bool
  busyNow : Nat
deriving DecidableEq, Repr

/-- Why a command stops the machine. No meaning of this model ends in a fault: an access the spec gives an error response
is answered with it, as R5 and R424 say. The one constructor is kept for the closed interface of the host. -/
inductive Fault where
  /-- Raised by nothing (safe): the spec names no event that stops the block. -/
  | none
deriving DecidableEq, Repr

/-- Why a command has no outcome. -/
inductive Refusal where
  /-- Raised by the arm of a command that has no meaning yet (safe). -/
  | notModelled (mnemonic : String)
deriving DecidableEq, Repr

/-- The machine. -/
structure State where
  /-- The part, fixed for a device (R1, R2). -/
  part : Part
  /-- The device serial number (PIT.SERIAL). -/
  serial : Nat
  /-- Station time, 2^−16 ns (R14, R321). -/
  now : Nat
  /-- Device time since reset, 2^−16 ns: it runs on where a load moves station time (R321, R322). -/
  up : Nat
  /-- The register file: a register that is not listed holds its reset value (log entry 3). -/
  regs : Store Word
  /-- Memory by byte address (R5): an unlisted byte reads 0 (log entry 4). -/
  mem : List Host.Cell
  /-- What has left the device, newest first. -/
  sent : List Out
  /-- How many free values have been drawn (log entry 5); the model's own field. -/
  free : Nat
  bell : BellEng
  /-- High words frozen by a read of their low words (LATCHING_READ). -/
  latch : Store Word
  /-- Dump header flags of frames not yet correlated: frame ↦ 1 POLY_STALE, 2 BELL_STEP, 4 DIE_OUT (R177). -/
  frameFlags : Store Nat
  /-- Tile-channels skipped: by die of the frame being correlated, and under 8 those of the run's frames before it (R36, R177). -/
  skips : Store Nat
  /-- The event FIFO, oldest first, and whether an event was lost since the last packet (R245). -/
  evts : List EvtEntry
  evtLoss : Bool
  ing : Ingest
  front : Front
  chan : Channelizer
  schedule : List SchedEntry
  pit : PitchCall
  can : Canopy
  ring : Ring
  dram : Dram
  outs : Outs
  corr : Corr
  aisle : Aisle
  crown : Crown
  cal : CalEng
  clk : Clk
  mel : MelEng
  ptp : PtpEng
  pwr : Power
  led : Ledger
  thm : List Sensor
  otp : Otp
  sec : SecEng
  cfg : Loader
  mtx : Matrix
  /-- The SPI flash by byte address; an unlisted byte is erased, 0xFF. -/
  flash : Store Nat
  por : List Porter
  pmc : Pmc
  /-- Schedule entries that the ledger sheds and defers in the running frame, by their index (R377). -/
  shed : List Nat
  deferred : List Nat
  cores : List Core
  /-- Schedule items of the running frame, by index: started; over; jobs pushed (R28, R291). -/
  started : List Nat
  ended : List Nat
  pushed : List Nat
  /-- Capture triggers on their way to the capture engine, oldest first (R143). -/
  trigQ : List Trigger
  msixMask : Nat
  msixPend : Nat
  /-- Trigger pulses owed to porter channels (R441), oldest first. -/
  porTrig : List Nat
  /-- ALERT_N asserted directly by a sequence (R368, R396, R444). -/
  alertDirect : Bool
  /-- Commands waiting, first in first out. -/
  pending : List Instr
deriving DecidableEq, Repr

def BellEng.reset : BellEng :=
  { ticking := false, baseIdx := 0, baseFine := 0, freq := 0, nextIdx := 0, firstIdx := 0, rungs := [], acq := 0, miss := 0, heard := false,
    pend := none, stopLeft := 0, stopWords := 0, stopHeard := false, clearCnt := none, waitSince := 0,
    noLeadRaised := false }

/-- A lane after reset is OFF, in Deep, with an adaptation due at its first lock (R40, R43). -/
def Ingest.reset : Ingest :=
  { lanes := List.replicate 80 { on := false, count := 0, blocks := 0, bad := [], scramble := 0, inFrame := false,
                                 adaptDue := true, adapting := false, rx := none, got := none, tx := none },
    groups := List.replicate 32 { frames := [], ackGood := 0, ackBad := 0, used := false, lastEpoch := none, lastAck := none },
    newest := none }

def FrontIn.reset : FrontIn :=
  { fw := 0, phase0 := 0, sr := 0, integ := [], comb := [], lastFlag := none, taps := [], buf := [], newest := none,
    reads := [], lastJ := none, win := none, sum := 0, cnt := 0, holdTo := 0, events := [], out := [] }

def Page.reset : Page := { active := 0, frame := none, pend := [], stale := false, expired := false, decided := none }

def Front.reset : Front :=
  { ins := List.replicate 128 FrontIn.reset, ncoPend := none, poly := Page.reset, swaps := [], coef := [], newestOut := none }

def Channelizer.reset : Channelizer :=
  { poly := Page.reset, scale := Page.reset, win := [], scales := [], swap := none, newestSpec := none }

def PitchCall.reset : PitchCall :=
  { timerAt := 0, timerOn := false, lastWord := none, armed := false }

/-- A lane of a port after reset: in Deep (R116), its adaptation due (R40). -/
def CanLane.reset : CanLane :=
  { on := false, locked := false, align := none, count := 0, blocks := 0, bad := [], slip := 0, scramble := 0, adaptDue := true,
    adapting := false, adapted := false, peak := 0 }

def CanPort.reset : CanPort :=
  { hello := none, helloAt := 0, txSeq := 0, rxSeq := 0, held := [], replay := [], rounds := 0, progressAt := 0,
    nakSent := false, nakOwed := false, ackOwed := false, ctl := [], rtts := [], credMax := 0, credUsed := [], credOwed := [], rr := 0 }

def Canopy.reset : Canopy :=
  { ports := List.replicate 4 CanPort.reset, lanes := List.replicate 128 CanLane.reset, voqs := [], filling := [], castsSeen := [], cseq := 0, leadSerial := 0,
    conflict := false, parked := [], joining := [], parkAt := none, parkSent := false, rejoin := false, joinAt := none, tail := none }

def CapRec.free : CapRec :=
  { st := 0, srcs := 0, origin := 0, bell := 0, pre := 0, post := 0, tag := 0, first := 0, frames := [], later := [], short := false,
    echoed := false }

def Mailbox.reset : Mailbox := { seq := 0, newest := [], unread := false }

def Ring.reset : Ring :=
  { slots := List.replicate 64 { frame := none, isOpen := false, ord := 0, held := 0, parked := [] }, ord := 0, closed := [],
    recs := List.replicate 4 CapRec.free, relReq := 0, reading := none, mb := Mailbox.reset, rtFill := 0, rdAt := 0 }

def Dram.reset : Dram :=
  { errs := [], tags := [], queue := [], rows := [], acts := [], crossed := [], throttle := [], cmds := [], parity := [],
    ueArmed := true, scrub := 0, scrubAt := 0, panicSince := 0, resetN := false, rfm := false, raa := [], srKept := 0 }

def Outs.reset : Outs :=
  { entries := [], pseq := [], ready := [], dealt := [], dumps := [], nextRec := 0, digests := [], dumpAt := 0,
    manifests := [], fec := [] }

/-- A die after reset: no window, every pass and tile-channel of no frame (R158, R162). -/
def StallDie.reset : StallDie :=
  { closed := false, wins := [], k := 0, tile := 0, running := none, ended := none, busy := 0, wait := 0, out := [], gains := [],
    pass := none, done := [], cut := [], code := [] }

def Corr.reset : Corr :=
  { dies := List.replicate 6 StallDie.reset, frame := none, fresh := true, runFirst := 0, runFrames := [], runFlags := 0, isFirst := false,
    replacing := false, filling := none, begun := false, got := [], owed := [], feed := false, nextQ := 0, last := none }

def Aisle.reset : Aisle :=
  { page := Page.reset, nin := [], gpend := none, cfg := [], terms := [], recs := [], beamv := [], beamd := [] }

def Crown.reset : Crown :=
  { seq := 0, mb := Mailbox.reset, published := false, ranked := false, partSent := false, parts := [], sums := [] }

def CalEng.reset : CalEng :=
  { active := false, q := 0, next := 0, cfg := [], seq := 0, good := 0, failed := 0, age := [], bufs := [], mb := Mailbox.reset }

/-- The pair before its start-up check has passed: MEL.STATUS reads its reset value. -/
def MelEng.reset : MelEng :=
  { started := false, qualSince := [], everQual := [], todSec := [], todAt := [], todPred := [], esmcAt := [], esmcFailed := [],
    acqSince := none, lockSince := none, freqs := [], steer := 0, hoFreq := none, lostAt := none, hoStart := none, swapAt := none,
    resync := false, pairs := [], disagBy := [], offset := 0, slew := 0, gapFrom := 0, gapTo := 0 }

def PdPort.reset : PdPort :=
  { seq := 0, req := none, sentAt := none, unanswered := 0, failed := false, resp := none, vals := [], cnt := 0 }

def PtpEng.reset : PtpEng :=
  { lastEdge := [], queue := [], ovf := false, tc := [], pd := [PdPort.reset, PdPort.reset], masters := [], sel := none, offsets := 0,
    lastSeq := none, sync := none, msDelay := none, delayReq := none, delaySeq := 0, delayAt := none, logDelay := 0, mpd := 0,
    faultAt := 0, upAt := [], rxErr := 0, masterAt := none, tsetGo := 0,
    egress := [{ freeAt := 0, frames := [] }, { freeAt := 0, frames := [] }], cdBank := 0, tset := 0 }

def RailMeter.reset : RailMeter := { watts := [], sensed := 0, replyAt := 0, lost := false }

def Ledger.reset : Ledger :=
  { next := none, cur := none, spent := 0, slots := 0, brakeAt := none, meterReq := false, metering := false, attr := [], base := 0,
    rails := List.replicate 13 RailMeter.reset, due := [], seq := 0, mb := Mailbox.reset }

def Sensor.reset : Sensor := { val := 0, changedAt := 0, lastAt := 0, hot := 0, others := [], moved := false }

def KeyStore.empty : KeyStore := { seed := [], root := none, keys := [], cert := [] }

def SecEng.reset : SecEng :=
  { keys := KeyStore.empty, slot := none, sealing := false, signing := none, manifests := [], attWait := false, sigs := [], report := [],
    vlog := [], alarm := false }

def Loader.reset : Loader :=
  { job := none, accepted := none, change := none, flashSlot := 0, rx := none, rejected := [], castOff := 0, castLen := 0, full := none,
    src := 0, digFull := [], digStall := [], digCoef := [], digClerk := [] }

def Power.reset : Power :=
  { step := 0, attempts := [0, 0, 0, 0], undoneAt := none, waking := false, wakeHeld := false, trimAt := [], holdEnded := false,
    banksOk := 0, tripPin := false, pwrGood := true, stepAt := 0,
    saved := { holdover := none, peaks := [], sched := 0, base := 0, coefs := [], image := Loader.reset, geom := 0 } }

def Matrix.reset : Matrix := { out := [], err := none, fullNoted := false, rem := [], erasing := none, d2d := [], winSize := 28, granted := [] }

def Desc.none : Desc :=
  { src := 0, dst := 0, len := 0, sw := 0, dw := 0, sfix := false, dfix := false, ev := false, chain := false, wait := false, hint := 0,
    next := 0 }

def Porter.reset : Porter := { st := 0, desc := Desc.none, read := 0, written := 0, held := [], cntOpen := false }

/-- A core after reset: every register 0, its PC at the reset ENTRY, 128 (R270, COREn_CTRL). -/
def Core.reset : Core :=
  { st := 0, pc := 128, r := [], pm := [], xm := [], ym := [], errs := [], delayed := [], fwd := none, noInt := false,
    branch := none, storeQ := [], farLoad := none, stopping := 0, fault := 0, werr := false, faddr := 0, jobq := [],
    done := [], startBell := false, haltBell := false, haltNow := false, busyNow := 0 }

/-- The machine right after reset: every register at its reset value, nothing listed in memory, no command waiting. -/
def State.reset : State :=
  { part := .iz8, serial := 0, now := 0, up := 0, regs := [], mem := [], sent := [], free := 0, bell := BellEng.reset,
    latch := [], frameFlags := [], skips := [], evts := [], evtLoss := false, ing := Ingest.reset, front := Front.reset, chan := Channelizer.reset,
    schedule := [],
    pit := PitchCall.reset, can := Canopy.reset, ring := Ring.reset, dram := Dram.reset, outs := Outs.reset, corr := Corr.reset, aisle := Aisle.reset, crown := Crown.reset, cal := CalEng.reset, clk := { target := [], stopped := 0 }, mel := MelEng.reset, ptp := PtpEng.reset,
    pwr := Power.reset, led := Ledger.reset, thm := List.replicate 28 Sensor.reset, otp := { helpers := [], epoch := 0, log := [] },
    sec := SecEng.reset, cfg := Loader.reset, mtx := Matrix.reset, flash := [], por := List.replicate 32 Porter.reset,
    pmc := { seq := 0, held := none }, shed := [], deferred := [], cores := List.replicate 16 Core.reset, started := [], ended := [], pushed := [], trigQ := [],
    msixMask := 2 ^ 64 - 1, msixPend := 0, porTrig := [], alertDirect := false, pending := [] }

end Sys2Proof.Machine
end

