-- ==== Sys2Proof/Machine/Regs.lean ====
section
/-! DEFINITION. The register map of R6 and the register tables that end each section of spec/: the address of every
register (block number × 0x10000 + offset), the fields the meanings name, and for each block its table of rows with the
access masks of each field (Access codes, spec/00_scope.md) and the reset value. Written from the register tables. -/
namespace Sys2Proof.Machine

namespace BEL
/-- W1C STAT: Bell events (01_the_bell.md). -/
abbrev STAT : Reg := 0x000000
abbrev STAT_FRAME_SHORT : Fld := ⟨STAT, 0, 1⟩
abbrev STAT_POLY_LATE : Fld := ⟨STAT, 1, 1⟩
abbrev STAT_CTX_LATE : Fld := ⟨STAT, 2, 1⟩
abbrev STAT_RING_LATE : Fld := ⟨STAT, 3, 1⟩
abbrev STAT_BELL_LOST : Fld := ⟨STAT, 4, 1⟩
abbrev STAT_BELL_STEP : Fld := ⟨STAT, 5, 1⟩
abbrev STAT_NO_LEAD : Fld := ⟨STAT, 6, 1⟩
abbrev STAT_CONFLICT : Fld := ⟨STAT, 7, 1⟩
abbrev STAT_ALIGNED : Fld := ⟨STAT, 8, 1⟩
abbrev STAT_STOPPED : Fld := ⟨STAT, 9, 1⟩
abbrev STAT_FLEN_MISMATCH : Fld := ⟨STAT, 10, 1⟩
abbrev STAT_RUN_REJ : Fld := ⟨STAT, 11, 1⟩
/-- RW CTRL: Run control (01_the_bell.md). -/
abbrev CTRL : Reg := 0x000010
abbrev CTRL_RUN : Fld := ⟨CTRL, 0, 1⟩
/-- RO STATUS: State, role, slot, parent port (01_the_bell.md). -/
abbrev STATUS : Reg := 0x000014
abbrev STATUS_STATE : Fld := ⟨STATUS, 0, 3⟩
abbrev STATUS_LEAD : Fld := ⟨STATUS, 3, 1⟩
abbrev STATUS_SLOT : Fld := ⟨STATUS, 4, 10⟩
abbrev STATUS_HOPS : Fld := ⟨STATUS, 14, 4⟩
abbrev STATUS_PARENT : Fld := ⟨STATUS, 18, 2⟩
/-- RW T0_NS: T0 nanoseconds (01_the_bell.md). -/
abbrev T0_NS : Reg := 0x000018
abbrev T0_NS_NS : Fld := ⟨T0_NS, 0, 30⟩
/-- RW T0_SEC_LO: T0 seconds [31:0] (01_the_bell.md). -/
abbrev T0_SEC_LO : Reg := 0x00001c
/-- RW T0_SEC_HI: T0 seconds [47:32] (01_the_bell.md). -/
abbrev T0_SEC_HI : Reg := 0x000020
abbrev T0_SEC_HI_SEC : Fld := ⟨T0_SEC_HI, 0, 16⟩
/-- RWL FLEN_FRAC: D, fraction of a nanosecond (01_the_bell.md). -/
abbrev FLEN_FRAC : Reg := 0x000024
abbrev FLEN_FRAC_FRAC : Fld := ⟨FLEN_FRAC, 0, 16⟩
/-- RWL FLEN_LO: D, nanoseconds [31:0] (01_the_bell.md). -/
abbrev FLEN_LO : Reg := 0x000028
/-- RWL FLEN_HI: D, nanoseconds [47:32] (01_the_bell.md). -/
abbrev FLEN_HI : Reg := 0x00002c
abbrev FLEN_HI_NS : Fld := ⟨FLEN_HI, 0, 16⟩
/-- RO BELL_LO: Current bell index [31:0] (01_the_bell.md). -/
abbrev BELL_LO : Reg := 0x000030
/-- RO BELL_HI: Current bell index [63:32] (01_the_bell.md). -/
abbrev BELL_HI : Reg := 0x000034
/-- RO OFFSET: Last measured bell offset (01_the_bell.md). -/
abbrev OFFSET : Reg := 0x000038
/-- RW LOOP: Alignment loop settings (01_the_bell.md). -/
abbrev LOOP : Reg := 0x00003c
abbrev LOOP_BW : Fld := ⟨LOOP, 0, 4⟩
abbrev LOOP_STEP_NS : Fld := ⟨LOOP, 4, 8⟩
abbrev LOOP_LOST : Fld := ⟨LOOP, 12, 4⟩
/-- RW BELL_OUT: BELL_OUT pin control (01_the_bell.md). -/
abbrev BELL_OUT : Reg := 0x000040
abbrev BELL_OUT_EN : Fld := ⟨BELL_OUT, 0, 1⟩
abbrev BELL_OUT_POL : Fld := ⟨BELL_OUT, 1, 1⟩
abbrev BELL_OUT_WIDTH : Fld := ⟨BELL_OUT, 2, 10⟩
/-- RC SHORT_CNT: Frames with skipped work (01_the_bell.md). -/
abbrev SHORT_CNT : Reg := 0x000044
/-- RC SKIP0 to SKIP5: Tile-channels skipped, stall die 0 (01_the_bell.md). -/
abbrev SKIP (n : Nat) : Reg := 0x000048 + 0x4 * n
/-- RO SCHED_ID: Identifier of the loaded schedule (01_the_bell.md). -/
abbrev SCHED_ID : Reg := 0x000060
end BEL

namespace ING
/-- W1C STAT: Ingest events (02_ingest_lanes.md). -/
abbrev STAT : Reg := 0x040000
abbrev STAT_LOCK_LOSS : Fld := ⟨STAT, 0, 1⟩
abbrev STAT_CRC_FAIL : Fld := ⟨STAT, 1, 1⟩
abbrev STAT_ISID_MISMATCH : Fld := ⟨STAT, 2, 1⟩
abbrev STAT_FORMAT : Fld := ⟨STAT, 3, 1⟩
abbrev STAT_DESKEW_FAIL : Fld := ⟨STAT, 4, 1⟩
abbrev STAT_LATE : Fld := ⟨STAT, 5, 1⟩
abbrev STAT_EARLY : Fld := ⟨STAT, 6, 1⟩
abbrev STAT_DIG_UNLOCKED : Fld := ⟨STAT, 7, 1⟩
abbrev STAT_REFUSED : Fld := ⟨STAT, 8, 1⟩
abbrev STAT_LOCK_GAINED : Fld := ⟨STAT, 9, 1⟩
/-- RW CTRL: Return channel control (02_ingest_lanes.md). -/
abbrev CTRL : Reg := 0x040010
abbrev CTRL_RET_EN : Fld := ⟨CTRL, 0, 1⟩
abbrev CTRL_ACK_EN : Fld := ⟨CTRL, 1, 1⟩
/-- RWL RATE: Sample rate in Hz (02_ingest_lanes.md). -/
abbrev RATE : Reg := 0x040014
/-- RWL EPOCH_NS: E, nanoseconds (02_ingest_lanes.md). -/
abbrev EPOCH_NS : Reg := 0x040018
abbrev EPOCH_NS_NS : Fld := ⟨EPOCH_NS, 0, 30⟩
/-- RWL EPOCH_SEC_LO: E, seconds [31:0] (02_ingest_lanes.md). -/
abbrev EPOCH_SEC_LO : Reg := 0x04001c
/-- RWL EPOCH_SEC_HI: E, seconds [47:32] (02_ingest_lanes.md). -/
abbrev EPOCH_SEC_HI : Reg := 0x040020
abbrev EPOCH_SEC_HI_SEC : Fld := ⟨EPOCH_SEC_HI, 0, 16⟩
/-- RWL LATENCY: Release latency (02_ingest_lanes.md). -/
abbrev LATENCY : Reg := 0x040024
abbrev LATENCY_NS : Fld := ⟨LATENCY, 0, 15⟩
/-- RO LOCK0: Lock, lanes 31 to 0 (02_ingest_lanes.md). -/
abbrev LOCK0 : Reg := 0x040030
/-- RO LOCK1: Lock, lanes 63 to 32 (02_ingest_lanes.md). -/
abbrev LOCK1 : Reg := 0x040034
/-- RO LOCK2: Lock, lanes 79 to 64 (02_ingest_lanes.md). -/
abbrev LOCK2 : Reg := 0x040038
/-- RO GRP_FLAG: Groups releasing flag codes (02_ingest_lanes.md). -/
abbrev GRP_FLAG : Reg := 0x04003c
abbrev GRP_FLAG_GROUPS : Fld := ⟨GRP_FLAG, 0, 32⟩
/-- RW LANEn_CTRL: Lane n control, n = 0 to 79 (02_ingest_lanes.md). -/
abbrev LANE_CTRL (n : Nat) : Reg := 0x040100 + 0x10 * n
abbrev LANE_CTRL_PWR (n : Nat) : Fld := ⟨LANE_CTRL n, 0, 2⟩
abbrev LANE_CTRL_ADAPT (n : Nat) : Fld := ⟨LANE_CTRL n, 2, 1⟩
abbrev LANE_CTRL_PEAK (n : Nat) : Fld := ⟨LANE_CTRL n, 3, 4⟩
abbrev LANE_CTRL_RX_INV (n : Nat) : Fld := ⟨LANE_CTRL n, 7, 1⟩
abbrev LANE_CTRL_TX_INV (n : Nat) : Fld := ⟨LANE_CTRL n, 8, 1⟩
/-- RO LANEn_STATUS: Lane n status (02_ingest_lanes.md). -/
abbrev LANE_STATUS (n : Nat) : Reg := 0x040104 + 0x10 * n
abbrev LANE_STATUS_PWR_NOW (n : Nat) : Fld := ⟨LANE_STATUS n, 0, 2⟩
abbrev LANE_STATUS_LOCK (n : Nat) : Fld := ⟨LANE_STATUS n, 2, 1⟩
abbrev LANE_STATUS_ADAPTED (n : Nat) : Fld := ⟨LANE_STATUS n, 3, 1⟩
abbrev LANE_STATUS_PEAK_NOW (n : Nat) : Fld := ⟨LANE_STATUS n, 4, 4⟩
abbrev LANE_STATUS_SLIP (n : Nat) : Fld := ⟨LANE_STATUS n, 8, 7⟩
/-- RC LANEn_ERR: Lane n invalid headers and stray blocks (02_ingest_lanes.md). -/
abbrev LANE_ERR (n : Nat) : Reg := 0x040108 + 0x10 * n
/-- RWL GRPg_CFG: Group g layout, g = 0 to 31 (02_ingest_lanes.md). -/
abbrev GRP_CFG (n : Nat) : Reg := 0x040800 + 0x20 * n
abbrev GRP_CFG_FIRST (n : Nat) : Fld := ⟨GRP_CFG n, 0, 7⟩
abbrev GRP_CFG_LANES (n : Nat) : Fld := ⟨GRP_CFG n, 7, 3⟩
abbrev GRP_CFG_INPUTS (n : Nat) : Fld := ⟨GRP_CFG n, 10, 4⟩
abbrev GRP_CFG_BASE (n : Nat) : Fld := ⟨GRP_CFG n, 14, 7⟩
abbrev GRP_CFG_ISID (n : Nat) : Fld := ⟨GRP_CFG n, 21, 8⟩
/-- RW GRPg_CTRL: Group g control (02_ingest_lanes.md). -/
abbrev GRP_CTRL (n : Nat) : Reg := 0x040804 + 0x20 * n
abbrev GRP_CTRL_EN (n : Nat) : Fld := ⟨GRP_CTRL n, 0, 1⟩
abbrev GRP_CTRL_FLAG_UNLOCK (n : Nat) : Fld := ⟨GRP_CTRL n, 1, 1⟩
abbrev GRP_CTRL_FLAG_OVR (n : Nat) : Fld := ⟨GRP_CTRL n, 2, 1⟩
/-- RC GRPg_GOOD: Good sample frames used (02_ingest_lanes.md). -/
abbrev GRP_GOOD (n : Nat) : Reg := 0x040808 + 0x20 * n
/-- RC GRPg_BAD: Bad or dropped sample frames (02_ingest_lanes.md). -/
abbrev GRP_BAD (n : Nat) : Reg := 0x04080c + 0x20 * n
/-- RC GRPg_FLAGGED: Time steps released as flag codes (02_ingest_lanes.md). -/
abbrev GRP_FLAGGED (n : Nat) : Reg := 0x040810 + 0x20 * n
/-- RO GRPg_LAST_LO: s0 of last used sample frame [31:0] (02_ingest_lanes.md). -/
abbrev GRP_LAST_LO (n : Nat) : Reg := 0x040814 + 0x20 * n
/-- RO GRPg_LAST_HI: s0 of last used sample frame [63:32] (02_ingest_lanes.md). -/
abbrev GRP_LAST_HI (n : Nat) : Reg := 0x040818 + 0x20 * n
/-- RWL GRPg_LEN: DBLK of group g (02_ingest_lanes.md). -/
abbrev GRP_LEN (n : Nat) : Reg := 0x04081c + 0x20 * n
abbrev GRP_LEN_DBLK (n : Nat) : Fld := ⟨GRP_LEN n, 0, 13⟩
end ING

namespace FFL
/-- W1C STAT: Filter events (03_front_filters.md). -/
abbrev STAT : Reg := 0x050000
abbrev STAT_SAT : Fld := ⟨STAT, 0, 1⟩
abbrev STAT_RANGE : Fld := ⟨STAT, 1, 1⟩
abbrev STAT_POLY_LATE : Fld := ⟨STAT, 2, 1⟩
abbrev STAT_POLY_EXPIRED : Fld := ⟨STAT, 3, 1⟩
abbrev STAT_COMMIT_REJ : Fld := ⟨STAT, 4, 1⟩
abbrev STAT_BANK_WR : Fld := ⟨STAT, 5, 1⟩
abbrev STAT_SWAP_LATE : Fld := ⟨STAT, 6, 1⟩
abbrev STAT_SWAP_BUSY : Fld := ⟨STAT, 7, 1⟩
abbrev STAT_SWAPPED : Fld := ⟨STAT, 8, 1⟩
abbrev STAT_THR_A : Fld := ⟨STAT, 9, 1⟩
abbrev STAT_THR_B : Fld := ⟨STAT, 10, 1⟩
abbrev STAT_NCO_LATE : Fld := ⟨STAT, 11, 1⟩
abbrev STAT_NCO_RST : Fld := ⟨STAT, 12, 1⟩
abbrev STAT_ESCAPE : Fld := ⟨STAT, 13, 1⟩
abbrev STAT_POLY_WR : Fld := ⟨STAT, 14, 1⟩
/-- RWL LAG: Output latency L (03_front_filters.md). -/
abbrev LAG : Reg := 0x050010
abbrev LAG_NS : Fld := ⟨LAG, 0, 18⟩
/-- RW DET: Detector window, hold and actions (03_front_filters.md). -/
abbrev DET : Reg := 0x050014
abbrev DET_J : Fld := ⟨DET, 0, 5⟩
abbrev DET_HOLD : Fld := ⟨DET, 5, 8⟩
abbrev DET_ACT_A : Fld := ⟨DET, 13, 4⟩
abbrev DET_ACT_B : Fld := ⟨DET, 17, 4⟩
abbrev DET_DIR_A : Fld := ⟨DET, 21, 1⟩
abbrev DET_DIR_B : Fld := ⟨DET, 22, 1⟩
/-- RW NCO_RST_LO: Reset index s_r [31:0] (03_front_filters.md). -/
abbrev NCO_RST_LO : Reg := 0x050018
/-- RW NCO_RST_HI: Reset index s_r [63:32] (03_front_filters.md). -/
abbrev NCO_RST_HI : Reg := 0x05001c
/-- RW NCO_CMD: Phase reset arm and status (03_front_filters.md). -/
abbrev NCO_CMD : Reg := 0x050020
abbrev NCO_CMD_PEND : Fld := ⟨NCO_CMD, 1, 1⟩
abbrev NCO_CMD_DONE : Fld := ⟨NCO_CMD, 2, 1⟩
/-- WO PCOMMIT: Polynomial page commit (03_front_filters.md). -/
abbrev PCOMMIT : Reg := 0x050024
/-- RO PSTATUS: Polynomial page status (03_front_filters.md). -/
abbrev PSTATUS : Reg := 0x050028
/-- RW SWAP_LO: Swap index s_w [31:0] (03_front_filters.md). -/
abbrev SWAP_LO : Reg := 0x05002c
/-- RW SWAP_HI: Swap index s_w [63:32] (03_front_filters.md). -/
abbrev SWAP_HI : Reg := 0x050030
/-- RW SWAP_CMD: Bank swap command (03_front_filters.md). -/
abbrev SWAP_CMD : Reg := 0x050034
/-- RW CSEL: Coefficient bank select (03_front_filters.md). -/
abbrev CSEL : Reg := 0x050038
abbrev CSEL_GROUP : Fld := ⟨CSEL, 0, 5⟩
abbrev CSEL_KIND : Fld := ⟨CSEL, 5, 1⟩
abbrev CSEL_BANK : Fld := ⟨CSEL, 6, 1⟩
/-- RW CADDR: Coefficient word address (03_front_filters.md). -/
abbrev CADDR : Reg := 0x05003c
abbrev CADDR_ADDR : Fld := ⟨CADDR, 0, 15⟩
/-- RW CDATA: Coefficient data (03_front_filters.md). -/
abbrev CDATA : Reg := 0x050040
abbrev CDATA_COEF : Fld := ⟨CDATA, 0, 18⟩
/-- RC SAT_CNT: Saturated samples (03_front_filters.md). -/
abbrev SAT_CNT : Reg := 0x050044
/-- RC RANGE_CNT: Outputs flagged under R74 (03_front_filters.md). -/
abbrev RANGE_CNT : Reg := 0x050048
/-- RC ESC_CNT: Samples not flagged under R85 (03_front_filters.md). -/
abbrev ESC_CNT : Reg := 0x05004c
/-- RO EVT_IN: Input and threshold of the last IRQ event (03_front_filters.md). -/
abbrev EVT_IN : Reg := 0x050050
/-- RO EVT_LO: Index of the last IRQ event [31:0] (03_front_filters.md). -/
abbrev EVT_LO : Reg := 0x050054
/-- RO EVT_HI: Index of the last IRQ event [63:32] (03_front_filters.md). -/
abbrev EVT_HI : Reg := 0x050058
/-- RWL GRPg_CHAIN: Group g order, DEC and bypass (03_front_filters.md). -/
abbrev GRP_CHAIN (n : Nat) : Reg := 0x050400 + 0x10 * n
abbrev GRP_CHAIN_ORDER (n : Nat) : Fld := ⟨GRP_CHAIN n, 0, 2⟩
abbrev GRP_CHAIN_DEC (n : Nat) : Fld := ⟨GRP_CHAIN n, 2, 7⟩
abbrev GRP_CHAIN_COMP_BYP (n : Nat) : Fld := ⟨GRP_CHAIN n, 9, 1⟩
/-- RWL GRPg_RATIO: Group g resampler ratio (03_front_filters.md). -/
abbrev GRP_RATIO (n : Nat) : Reg := 0x050404 + 0x10 * n
abbrev GRP_RATIO_PM1 (n : Nat) : Fld := ⟨GRP_RATIO n, 0, 16⟩
abbrev GRP_RATIO_QM1 (n : Nat) : Fld := ⟨GRP_RATIO n, 16, 16⟩
/-- RO GRPg_BANK: Group g banks in use (03_front_filters.md). -/
abbrev GRP_BANK (n : Nat) : Reg := 0x050408 + 0x10 * n
abbrev GRP_BANK_COMP (n : Nat) : Fld := ⟨GRP_BANK n, 0, 1⟩
abbrev GRP_BANK_RES (n : Nat) : Fld := ⟨GRP_BANK n, 1, 1⟩
abbrev GRP_BANK_PEND (n : Nat) : Fld := ⟨GRP_BANK n, 2, 1⟩
/-- RW GRPg_DC: Group g DC blocker control (03_front_filters.md). -/
abbrev GRP_DC (n : Nat) : Reg := 0x05040c + 0x10 * n
abbrev GRP_DC_FREEZE (n : Nat) : Fld := ⟨GRP_DC n, 0, 1⟩
abbrev GRP_DC_AUTO_ND (n : Nat) : Fld := ⟨GRP_DC n, 1, 1⟩
/-- RW INi_FW: Input i frequency word, shadowed (03_front_filters.md). -/
abbrev IN_FW (n : Nat) : Reg := 0x051000 + 0x20 * n
/-- RW INi_PHASE0: Input i reset phase, shadowed (03_front_filters.md). -/
abbrev IN_PHASE0 (n : Nat) : Reg := 0x051004 + 0x20 * n
/-- RW INi_CFG: Input i blocker constant and detector enable (03_front_filters.md). -/
abbrev IN_CFG (n : Nat) : Reg := 0x051008 + 0x20 * n
abbrev IN_CFG_K (n : Nat) : Fld := ⟨IN_CFG n, 0, 5⟩
abbrev IN_CFG_DET_EN (n : Nat) : Fld := ⟨IN_CFG n, 5, 1⟩
/-- RW INi_THA: Threshold A (03_front_filters.md). -/
abbrev IN_THA (n : Nat) : Reg := 0x05100c + 0x20 * n
/-- RW INi_THB: Threshold B (03_front_filters.md). -/
abbrev IN_THB (n : Nat) : Reg := 0x051010 + 0x20 * n
/-- RC INi_CNTA: Threshold A events (03_front_filters.md). -/
abbrev IN_CNTA (n : Nat) : Reg := 0x051014 + 0x20 * n
/-- RC INi_CNTB: Threshold B events (03_front_filters.md). -/
abbrev IN_CNTB (n : Nat) : Reg := 0x051018 + 0x20 * n
/-- RO INi_MEAN: Blocker mean m (03_front_filters.md). -/
abbrev IN_MEAN (n : Nat) : Reg := 0x05101c + 0x20 * n
/-- RW Page 0: Position polynomials (R77) (03_front_filters.md). -/
abbrev PAGE0 (n : Nat) : Reg := 0x054000 + 0x4 * n
/-- RW Page 1: Position polynomials (R77) (03_front_filters.md). -/
abbrev PAGE1 (n : Nat) : Reg := 0x056000 + 0x4 * n
end FFL

namespace CHN
/-- W1C STAT: Channeliser events (04_channelizer.md). -/
abbrev STAT : Reg := 0x060000
abbrev STAT_FFT_SAT : Fld := ⟨STAT, 0, 1⟩
abbrev STAT_CLIP : Fld := ⟨STAT, 1, 1⟩
abbrev STAT_POLY_LATE : Fld := ⟨STAT, 2, 1⟩
abbrev STAT_POLY_EXPIRED : Fld := ⟨STAT, 3, 1⟩
abbrev STAT_COMMIT_REJ : Fld := ⟨STAT, 4, 1⟩
abbrev STAT_POLY_WR : Fld := ⟨STAT, 5, 1⟩
abbrev STAT_SCALE_LATE : Fld := ⟨STAT, 6, 1⟩
abbrev STAT_SCALE_REJ : Fld := ⟨STAT, 7, 1⟩
abbrev STAT_SCALE_WR : Fld := ⟨STAT, 8, 1⟩
abbrev STAT_WIN_WR : Fld := ⟨STAT, 9, 1⟩
abbrev STAT_SWAP_LATE : Fld := ⟨STAT, 10, 1⟩
abbrev STAT_SWAP_BUSY : Fld := ⟨STAT, 11, 1⟩
abbrev STAT_SWAPPED : Fld := ⟨STAT, 12, 1⟩
/-- RWL CTRL: Length, sample mode, fringe mode, flag tolerance (04_channelizer.md). -/
abbrev CTRL : Reg := 0x060010
abbrev CTRL_NSEL : Fld := ⟨CTRL, 0, 2⟩
abbrev CTRL_RQ4 : Fld := ⟨CTRL, 2, 1⟩
abbrev CTRL_FMODE : Fld := ⟨CTRL, 3, 1⟩
abbrev CTRL_FLAGTOL : Fld := ⟨CTRL, 4, 8⟩
/-- RWL FFT: Per-stage FFT shifts (04_channelizer.md). -/
abbrev FFT : Reg := 0x060014
abbrev FFT_ST (k : Nat) : Fld := ⟨FFT, 2 * k, 2⟩
/-- RW RQ: Requantisation shift (04_channelizer.md). -/
abbrev RQ : Reg := 0x060018
abbrev RQ_SHIFT : Fld := ⟨RQ, 0, 5⟩
/-- WO PCOMMIT: Fringe page commit (04_channelizer.md). -/
abbrev PCOMMIT : Reg := 0x06001c
/-- RO PSTATUS: Fringe page status (04_channelizer.md). -/
abbrev PSTATUS : Reg := 0x060020
/-- WO SCOMMIT: Scale bank commit (04_channelizer.md). -/
abbrev SCOMMIT : Reg := 0x060024
/-- RO SSTATUS: Scale bank status (04_channelizer.md). -/
abbrev SSTATUS : Reg := 0x060028
/-- RW SSEL: Scale bank select (04_channelizer.md). -/
abbrev SSEL : Reg := 0x06002c
abbrev SSEL_BANK : Fld := ⟨SSEL, 0, 1⟩
/-- RW SADDR: Scale word address (04_channelizer.md). -/
abbrev SADDR : Reg := 0x060030
abbrev SADDR_ADDR : Fld := ⟨SADDR, 0, 22⟩
/-- RW SDATA: Scale data (04_channelizer.md). -/
abbrev SDATA : Reg := 0x060034
abbrev SDATA_SCALE : Fld := ⟨SDATA, 0, 16⟩
/-- RW WSEL: Window bank select (04_channelizer.md). -/
abbrev WSEL : Reg := 0x060038
abbrev WSEL_BANK : Fld := ⟨WSEL, 0, 1⟩
/-- RW WADDR: Window word address (04_channelizer.md). -/
abbrev WADDR : Reg := 0x06003c
abbrev WADDR_ADDR : Fld := ⟨WADDR, 0, 17⟩
/-- RW WDATA: Window data (04_channelizer.md). -/
abbrev WDATA : Reg := 0x060040
abbrev WDATA_COEF : Fld := ⟨WDATA, 0, 18⟩
/-- RW SWAP_LO: Swap index s_w [31:0] (04_channelizer.md). -/
abbrev SWAP_LO : Reg := 0x060044
/-- RW SWAP_HI: Swap index s_w [63:32] (04_channelizer.md). -/
abbrev SWAP_HI : Reg := 0x060048
/-- RW SWAP_CMD: Window swap command and status (04_channelizer.md). -/
abbrev SWAP_CMD : Reg := 0x06004c
abbrev SWAP_CMD_PEND : Fld := ⟨SWAP_CMD, 1, 1⟩
abbrev SWAP_CMD_BANK : Fld := ⟨SWAP_CMD, 2, 1⟩
abbrev SWAP_CMD_READY : Fld := ⟨SWAP_CMD, 3, 1⟩
/-- RC FFT_SAT_CNT: Saturated FFT values (04_channelizer.md). -/
abbrev FFT_SAT_CNT : Reg := 0x060050
/-- RC CLIP_TOT: Clipped components, all inputs (04_channelizer.md). -/
abbrev CLIP_TOT : Reg := 0x060054
/-- RC FLAG_SPEC: Input-spectra flagged under R95 (04_channelizer.md). -/
abbrev FLAG_SPEC : Reg := 0x060058
/-- RC INi_CLIP: Clipped components, input i (04_channelizer.md). -/
abbrev IN_CLIP (n : Nat) : Reg := 0x061000 + 0x4 * n
/-- RW Page 0: Fringe polynomials (R99) (04_channelizer.md). -/
abbrev PAGE0 (n : Nat) : Reg := 0x064000 + 0x4 * n
/-- RW Page 1: Fringe polynomials (R99) (04_channelizer.md). -/
abbrev PAGE1 (n : Nat) : Reg := 0x066000 + 0x4 * n
end CHN

namespace CAN
/-- W1C STAT: Canopy events (05_canopy.md). -/
abbrev STAT : Reg := 0x070000
abbrev STAT_PORT_UP : Fld := ⟨STAT, 0, 1⟩
abbrev STAT_PORT_DOWN : Fld := ⟨STAT, 1, 1⟩
abbrev STAT_MISMATCH : Fld := ⟨STAT, 2, 1⟩
abbrev STAT_CANOPY_CONFLICT : Fld := ⟨STAT, 3, 1⟩
abbrev STAT_REPLAY : Fld := ⟨STAT, 4, 1⟩
abbrev STAT_STARVE : Fld := ⟨STAT, 5, 1⟩
abbrev STAT_STALE_DROP : Fld := ⟨STAT, 6, 1⟩
abbrev STAT_ROUTE_DROP : Fld := ⟨STAT, 7, 1⟩
abbrev STAT_PARK_DROP : Fld := ⟨STAT, 8, 1⟩
abbrev STAT_POOL_EMPTY : Fld := ⟨STAT, 9, 1⟩
abbrev STAT_CAST_RX : Fld := ⟨STAT, 10, 1⟩
abbrev STAT_REFUSED : Fld := ⟨STAT, 11, 1⟩
/-- RWL SHAPE: Topology and size (05_canopy.md). -/
abbrev SHAPE : Reg := 0x070010
abbrev SHAPE_TOPO : Fld := ⟨SHAPE, 0, 2⟩
abbrev SHAPE_XM1 : Fld := ⟨SHAPE, 2, 4⟩
abbrev SHAPE_YM1 : Fld := ⟨SHAPE, 6, 3⟩
/-- RO STATUS: Lead, ports, coordinates (05_canopy.md). -/
abbrev STATUS : Reg := 0x070014
/-- RWL CRED: Credits per VOQ per port (05_canopy.md). -/
abbrev CRED : Reg := 0x070018
abbrev CRED_COUNT : Fld := ⟨CRED, 0, 3⟩
/-- RWL IBASE: Canopy number of local input 0 (05_canopy.md). -/
abbrev IBASE : Reg := 0x07001c
abbrev IBASE_BASE : Fld := ⟨IBASE, 0, 13⟩
/-- RWL TXPOOL: Transmit pool, cells (05_canopy.md). -/
abbrev TXPOOL : Reg := 0x070020
abbrev TXPOOL_CELLS : Fld := ⟨TXPOOL, 0, 17⟩
/-- RO LEAD_SER_LO: LEAD_SERIAL [31:0] (05_canopy.md). -/
abbrev LEAD_SER_LO : Reg := 0x070024
/-- RO LEAD_SER_HI: LEAD_SERIAL [63:32] (05_canopy.md). -/
abbrev LEAD_SER_HI : Reg := 0x070028
/-- RW STARVE: Starvation threshold (05_canopy.md). -/
abbrev STARVE : Reg := 0x07002c
abbrev STARVE_US : Fld := ⟨STARVE, 0, 16⟩
/-- RO BUF_USE: Cells in use (05_canopy.md). -/
abbrev BUF_USE : Reg := 0x070030
/-- RC BUF_PEAK: Most cells in use since read (05_canopy.md). -/
abbrev BUF_PEAK : Reg := 0x070034
abbrev BUF_PEAK_CELLS : Fld := ⟨BUF_PEAK, 0, 17⟩
/-- RC STALE_CNT: Packets dropped under R128 (05_canopy.md). -/
abbrev STALE_CNT : Reg := 0x070038
/-- RC ROUTE_CNT: Packets dropped under R125 (05_canopy.md). -/
abbrev ROUTE_CNT : Reg := 0x07003c
/-- RC PARK_CNT: Packets discarded under R132 (05_canopy.md). -/
abbrev PARK_CNT : Reg := 0x070040
/-- RC STARVE_CNT: Starvation waits (05_canopy.md). -/
abbrev STARVE_CNT : Reg := 0x070044
/-- RC POOL_CNT: Packets not sent under R127 (05_canopy.md). -/
abbrev POOL_CNT : Reg := 0x070048
/-- RW PORTp_CTRL: Port p control (05_canopy.md). -/
abbrev PORT_CTRL (n : Nat) : Reg := 0x070100 + 0x40 * n
abbrev PORT_CTRL_PWR (n : Nat) : Fld := ⟨PORT_CTRL n, 0, 2⟩
abbrev PORT_CTRL_ADAPT (n : Nat) : Fld := ⟨PORT_CTRL n, 2, 1⟩
abbrev PORT_CTRL_PEAK (n : Nat) : Fld := ⟨PORT_CTRL n, 3, 4⟩
abbrev PORT_CTRL_EN (n : Nat) : Fld := ⟨PORT_CTRL n, 7, 1⟩
/-- RO PORTp_STATUS: Port p state (05_canopy.md). -/
abbrev PORT_STATUS (n : Nat) : Reg := 0x070104 + 0x40 * n
abbrev PORT_STATUS_STATE (n : Nat) : Fld := ⟨PORT_STATUS n, 0, 3⟩
abbrev PORT_STATUS_LOCKED (n : Nat) : Fld := ⟨PORT_STATUS n, 3, 6⟩
abbrev PORT_STATUS_NBR (n : Nat) : Fld := ⟨PORT_STATUS n, 9, 6⟩
abbrev PORT_STATUS_NBR_ALIGNED (n : Nat) : Fld := ⟨PORT_STATUS n, 15, 1⟩
abbrev PORT_STATUS_NBR_PARKED (n : Nat) : Fld := ⟨PORT_STATUS n, 16, 1⟩
/-- RW PORTp_ASYM: Asymmetry A, signed ps (05_canopy.md). -/
abbrev PORT_ASYM (n : Nat) : Reg := 0x070108 + 0x40 * n
/-- RO PORTp_RTT: Mean RTT, 2^−5 ns (05_canopy.md). -/
abbrev PORT_RTT (n : Nat) : Reg := 0x07010c + 0x40 * n
/-- RO PORTp_DIN: d_in, 2^−5 ns (05_canopy.md). -/
abbrev PORT_DIN (n : Nat) : Reg := 0x070110 + 0x40 * n
/-- RC PORTp_REPLAY: Packets resent (05_canopy.md). -/
abbrev PORT_REPLAY (n : Nat) : Reg := 0x070118 + 0x40 * n
/-- RC PORTp_CRCERR: Packets failing CRC (05_canopy.md). -/
abbrev PORT_CRCERR (n : Nat) : Reg := 0x07011c + 0x40 * n
/-- RC PORTp_LOST: Packets discarded at port down (05_canopy.md). -/
abbrev PORT_LOST (n : Nat) : Reg := 0x070120 + 0x40 * n
/-- RWL CHMAP: Word w holds channels 4w to 4w + 3 in bytes 0 to 3, for channels 0 to 32,767 (R123); bytes of channels at or above N read 0 and are ignored (05_canopy.md). -/
abbrev CHMAP (n : Nat) : Reg := 0x078000 + 0x4 * n
end CAN

namespace PIT
/-- W1C STAT: Pitch events (05_canopy.md). -/
abbrev STAT : Reg := 0x030000
abbrev STAT_PITCHED : Fld := ⟨STAT, 0, 1⟩
abbrev STAT_ORPHAN : Fld := ⟨STAT, 1, 1⟩
abbrev STAT_PITCH_RANGE : Fld := ⟨STAT, 2, 1⟩
abbrev STAT_PITCH_MISMATCH : Fld := ⟨STAT, 3, 1⟩
abbrev STAT_ASSIGN_REJ : Fld := ⟨STAT, 4, 1⟩
abbrev STAT_PARKED : Fld := ⟨STAT, 5, 1⟩
abbrev STAT_JOINED : Fld := ⟨STAT, 6, 1⟩
/-- RW CTRL: Park and recall (05_canopy.md). -/
abbrev CTRL : Reg := 0x030010
abbrev CTRL_PARK : Fld := ⟨CTRL, 0, 1⟩
/-- RO STATUS: Pitch state (05_canopy.md). -/
abbrev STATUS : Reg := 0x030014
abbrev STATUS_STATE : Fld := ⟨STATUS, 0, 3⟩
abbrev STATUS_PITCH : Fld := ⟨STATUS, 3, 6⟩
abbrev STATUS_SRC : Fld := ⟨STATUS, 9, 2⟩
abbrev STATUS_PARKED : Fld := ⟨STATUS, 11, 1⟩
/-- WO ASSIGN: Host assignment (R113) (05_canopy.md). -/
abbrev ASSIGN : Reg := 0x030018
/-- RO RXWORD: Last valid word on PITCH_IN (05_canopy.md). -/
abbrev RXWORD : Reg := 0x030024
abbrev RXWORD_WORD : Fld := ⟨RXWORD, 0, 16⟩
/-- RO JOIN_LO: Join bell J [31:0]; a read latches JOIN_HI (05_canopy.md). -/
abbrev JOIN_LO : Reg := 0x030028
/-- RO JOIN_HI: Join bell J [63:32], as latched (05_canopy.md). -/
abbrev JOIN_HI : Reg := 0x03002c
end PIT

namespace RRG
/-- W1C STAT: Ring and capture events (06_reorder_capture.md). -/
abbrev STAT : Reg := 0x110000
abbrev STAT_RING_LATE : Fld := ⟨STAT, 0, 1⟩
abbrev STAT_FOREIGN : Fld := ⟨STAT, 1, 1⟩
abbrev STAT_DUP : Fld := ⟨STAT, 2, 1⟩
abbrev STAT_ECC : Fld := ⟨STAT, 3, 1⟩
abbrev STAT_FROZEN : Fld := ⟨STAT, 4, 1⟩
abbrev STAT_CAP_BUSY : Fld := ⟨STAT, 5, 1⟩
abbrev STAT_CAP_FULL : Fld := ⟨STAT, 6, 1⟩
abbrev STAT_CAP_LATE : Fld := ⟨STAT, 7, 1⟩
abbrev STAT_SHORT : Fld := ⟨STAT, 8, 1⟩
abbrev STAT_RD_DONE : Fld := ⟨STAT, 9, 1⟩
abbrev STAT_RD_ABORT : Fld := ⟨STAT, 10, 1⟩
abbrev STAT_RD_REFUSED : Fld := ⟨STAT, 11, 1⟩
abbrev STAT_RELEASED : Fld := ⟨STAT, 12, 1⟩
abbrev STAT_NO_BELL : Fld := ⟨STAT, 13, 1⟩
/-- RW CTRL: CAST acceptance, auto release (06_reorder_capture.md). -/
abbrev CTRL : Reg := 0x110010
abbrev CTRL_CAST_EN : Fld := ⟨CTRL, 0, 1⟩
abbrev CTRL_AUTO_REL : Fld := ⟨CTRL, 1, 1⟩
/-- RWL SLOTS: F (06_reorder_capture.md). -/
abbrev SLOTS : Reg := 0x110014
abbrev SLOTS_F : Fld := ⟨SLOTS, 0, 7⟩
/-- RWL BASE_LO: Ring base [31:0] (06_reorder_capture.md). -/
abbrev BASE_LO : Reg := 0x110018
/-- RWL BASE_HI: Ring base [47:32] (06_reorder_capture.md). -/
abbrev BASE_HI : Reg := 0x11001c
abbrev BASE_HI_ADDR : Fld := ⟨BASE_HI, 0, 16⟩
/-- RWL MAP_LO: Presence map base [31:0] (06_reorder_capture.md). -/
abbrev MAP_LO : Reg := 0x110020
/-- RWL MAP_HI: Presence map base [47:32] (06_reorder_capture.md). -/
abbrev MAP_HI : Reg := 0x110024
abbrev MAP_HI_ADDR : Fld := ⟨MAP_HI, 0, 16⟩
/-- RWL GEOM: Cell and slot geometry (06_reorder_capture.md). -/
abbrev GEOM : Reg := 0x110028
abbrev GEOM_CELLW : Fld := ⟨GEOM, 0, 6⟩
/-- RW TRIG: Source enables and echo (06_reorder_capture.md). -/
abbrev TRIG : Reg := 0x11002c
abbrev TRIG_EN : Fld := ⟨TRIG, 0, 5⟩
abbrev TRIG_ECHO : Fld := ⟨TRIG, 5, 4⟩
/-- RW PIN: EVT pin triggers (06_reorder_capture.md). -/
abbrev PIN : Reg := 0x110030
abbrev PIN_EN : Fld := ⟨PIN, 0, 8⟩
abbrev PIN_FALL : Fld := ⟨PIN, 8, 8⟩
/-- WO HOST_TRIG: Host trigger (06_reorder_capture.md). -/
abbrev HOST_TRIG : Reg := 0x110034
/-- RW HOST_TAG_LO: Host TAG [31:0] (06_reorder_capture.md). -/
abbrev HOST_TAG_LO : Reg := 0x110038
/-- RW HOST_TAG_HI: Host TAG [63:32] (06_reorder_capture.md). -/
abbrev HOST_TAG_HI : Reg := 0x11003c
/-- RW SRCs_WIN: PRE and POST of source s (06_reorder_capture.md). -/
abbrev SRC_WIN (n : Nat) : Reg := 0x110040 + 0x4 * n
abbrev SRC_WIN_PRE (n : Nat) : Fld := ⟨SRC_WIN n, 0, 6⟩
abbrev SRC_WIN_POST (n : Nat) : Fld := ⟨SRC_WIN n, 8, 6⟩
/-- W1S CAP_REL: Release records (06_reorder_capture.md). -/
abbrev CAP_REL : Reg := 0x110050
/-- RW RD_CMD: Readout command (06_reorder_capture.md). -/
abbrev RD_CMD : Reg := 0x110054
abbrev RD_CMD_CAP : Fld := ⟨RD_CMD, 0, 2⟩
abbrev RD_CMD_BUSY : Fld := ⟨RD_CMD, 4, 1⟩
/-- RW RD_CH_LO: First local channel read out (06_reorder_capture.md). -/
abbrev RD_CH_LO : Reg := 0x110058
abbrev RD_CH_LO_CH : Fld := ⟨RD_CH_LO, 0, 14⟩
/-- RW RD_CH_HI: Last local channel read out (06_reorder_capture.md). -/
abbrev RD_CH_HI : Reg := 0x11005c
abbrev RD_CH_HI_CH : Fld := ⟨RD_CH_HI, 0, 14⟩
/-- RW RD_RATE: Readout rate limit (06_reorder_capture.md). -/
abbrev RD_RATE : Reg := 0x110060
abbrev RD_RATE_RATE : Fld := ⟨RD_RATE, 0, 9⟩
/-- RO RD_PROG: Cells sent by the current or last readout (06_reorder_capture.md). -/
abbrev RD_PROG : Reg := 0x110064
/-- RO FROZEN: Frozen and live slots (06_reorder_capture.md). -/
abbrev FROZEN : Reg := 0x110068
/-- RO MB_HEAD: Capture status mailbox head (06_reorder_capture.md). -/
abbrev MB_HEAD : Reg := 0x110070
/-- RO MB_BELL_LO: Bell of the latched record [31:0] (06_reorder_capture.md). -/
abbrev MB_BELL_LO : Reg := 0x110074
/-- RO MB_BELL_HI: Bell of the latched record [63:32] (06_reorder_capture.md). -/
abbrev MB_BELL_HI : Reg := 0x110078
/-- RC MISS_CNT: Cells missing at close (06_reorder_capture.md). -/
abbrev MISS_CNT : Reg := 0x110080
/-- RC LATE_CNT: Cells after close (06_reorder_capture.md). -/
abbrev LATE_CNT : Reg := 0x110084
/-- RC FOREIGN_CNT: Cells of frames not open (06_reorder_capture.md). -/
abbrev FOREIGN_CNT : Reg := 0x110088
/-- RC DUP_CNT: Duplicate cells (06_reorder_capture.md). -/
abbrev DUP_CNT : Reg := 0x11008c
/-- RC ECC_CNT: Cells flagged on read error (06_reorder_capture.md). -/
abbrev ECC_CNT : Reg := 0x110090
/-- RC REFUSE_CNT: Refused triggers (06_reorder_capture.md). -/
abbrev REFUSE_CNT : Reg := 0x110094
/-- RO CAPn_STATE: Record n state (06_reorder_capture.md). -/
abbrev CAP_STATE (n : Nat) : Reg := 0x110100 + 0x20 * n
/-- RO CAPn_BELL_LO: B [31:0]; a read latches CAPn_BELL_HI (06_reorder_capture.md). -/
abbrev CAP_BELL_LO (n : Nat) : Reg := 0x110104 + 0x20 * n
/-- RO CAPn_BELL_HI: B [63:32], as latched (06_reorder_capture.md). -/
abbrev CAP_BELL_HI (n : Nat) : Reg := 0x110108 + 0x20 * n
/-- RO CAPn_FIRST_LO: FIRST [31:0]; a read latches CAPn_FIRST_HI (06_reorder_capture.md). -/
abbrev CAP_FIRST_LO (n : Nat) : Reg := 0x11010c + 0x20 * n
/-- RO CAPn_FIRST_HI: FIRST [63:32], as latched (06_reorder_capture.md). -/
abbrev CAP_FIRST_HI (n : Nat) : Reg := 0x110110 + 0x20 * n
/-- RO CAPn_NFR: Frames in the record (06_reorder_capture.md). -/
abbrev CAP_NFR (n : Nat) : Reg := 0x110114 + 0x20 * n
/-- RO CAPn_TAG_LO: TAG [31:0] (06_reorder_capture.md). -/
abbrev CAP_TAG_LO (n : Nat) : Reg := 0x110118 + 0x20 * n
/-- RO CAPn_TAG_HI: TAG [63:32] (06_reorder_capture.md). -/
abbrev CAP_TAG_HI (n : Nat) : Reg := 0x11011c + 0x20 * n
/-- RO SLOTn: Slot n contents (06_reorder_capture.md). -/
abbrev SLOT (n : Nat) : Reg := 0x110200 + 0x4 * n
end RRG

namespace STL
/-- W1C STAT: Correlation events (07_correlation.md). -/
abbrev STAT (d : Nat) : Reg := 0x080000 + 0x10000 * d
abbrev STAT_WAIT (d : Nat) : Fld := ⟨STAT d, 0, 1⟩
abbrev STAT_WS_CERR (d : Nat) : Fld := ⟨STAT d, 1, 1⟩
abbrev STAT_WS_UERR (d : Nat) : Fld := ⟨STAT d, 2, 1⟩
abbrev STAT_LINK_LOSS (d : Nat) : Fld := ⟨STAT d, 3, 1⟩
abbrev STAT_CLOSED (d : Nat) : Fld := ⟨STAT d, 4, 1⟩
abbrev STAT_OPENED (d : Nat) : Fld := ⟨STAT d, 5, 1⟩
abbrev STAT_DUMP (d : Nat) : Fld := ⟨STAT d, 8, 1⟩
abbrev STAT_FORCED (d : Nat) : Fld := ⟨STAT d, 9, 1⟩
abbrev STAT_POISON (d : Nat) : Fld := ⟨STAT d, 10, 1⟩
abbrev STAT_DBUF_OVR (d : Nat) : Fld := ⟨STAT d, 11, 1⟩
abbrev STAT_FIRST (d : Nat) : Fld := ⟨STAT d, 12, 1⟩
/-- RWL CTRL: Sample mode (07_correlation.md). -/
abbrev CTRL (d : Nat) : Reg := 0x080010 + 0x10000 * d
abbrev CTRL_MODE4 (d : Nat) : Fld := ⟨CTRL d, 0, 1⟩
/-- RWL CFG: Logical position and first local channel (07_correlation.md). -/
abbrev CFG (d : Nat) : Reg := 0x080014 + 0x10000 * d
abbrev CFG_LPOS (d : Nat) : Fld := ⟨CFG d, 0, 3⟩
abbrev CFG_FIRST (d : Nat) : Fld := ⟨CFG d, 3, 14⟩
/-- RWL CHCNT: Local channels on this die (07_correlation.md). -/
abbrev CHCNT (d : Nat) : Reg := 0x080018 + 0x10000 * d
abbrev CHCNT_COUNT (d : Nat) : Fld := ⟨CHCNT d, 0, 15⟩
/-- RO STATUS: Engine state, channel, tile (07_correlation.md). -/
abbrev STATUS (d : Nat) : Reg := 0x08001c + 0x10000 * d
abbrev STATUS_STATE (d : Nat) : Fld := ⟨STATUS d, 0, 2⟩
/-- RO BUSY: Tile cycles in the last frame (07_correlation.md). -/
abbrev BUSY (d : Nat) : Reg := 0x080020 + 0x10000 * d
/-- RO WAIT: Idle cycles waiting in the last frame (07_correlation.md). -/
abbrev WAIT (d : Nat) : Reg := 0x080024 + 0x10000 * d
/-- RC TC_DONE: Tile-channels completed (07_correlation.md). -/
abbrev TC_DONE (d : Nat) : Reg := 0x080028 + 0x10000 * d
/-- RC WS_CERR: Corrected window-store errors (07_correlation.md). -/
abbrev WS_CERR (d : Nat) : Reg := 0x08002c + 0x10000 * d
/-- RC WS_UERR: Uncorrectable window-store errors (07_correlation.md). -/
abbrev WS_UERR (d : Nat) : Reg := 0x080030 + 0x10000 * d
/-- RC LINK_CNT: Tile-channels lost on the link (R166) (07_correlation.md). -/
abbrev LINK_CNT (d : Nat) : Reg := 0x080034 + 0x10000 * d
/-- RWL ICFG: Window, inputs, layout shape (07_correlation.md). -/
abbrev ICFG (d : Nat) : Reg := 0x080100 + 0x10000 * d
abbrev ICFG_WLOG (d : Nat) : Fld := ⟨ICFG d, 0, 5⟩
abbrev ICFG_INPUTS (d : Nat) : Fld := ⟨ICFG d, 5, 13⟩
abbrev ICFG_SHAPE (d : Nat) : Fld := ⟨ICFG d, 18, 2⟩
/-- RWL DUMP_N: Dump interval N (07_correlation.md). -/
abbrev DUMP_N (d : Nat) : Reg := 0x080104 + 0x10000 * d
abbrev DUMP_N_N (d : Nat) : Fld := ⟨DUMP_N d, 0, 24⟩
/-- RO FMAX: F_max (R171) (07_correlation.md). -/
abbrev FMAX (d : Nat) : Reg := 0x080108 + 0x10000 * d
/-- RWL IST_LO: Integration store base [31:0] (07_correlation.md). -/
abbrev IST_LO (d : Nat) : Reg := 0x08010c + 0x10000 * d
/-- RWL IST_HI: Integration store base [47:32] (07_correlation.md). -/
abbrev IST_HI (d : Nat) : Reg := 0x080110 + 0x10000 * d
abbrev IST_HI_ADDR (d : Nat) : Fld := ⟨IST_HI d, 0, 16⟩
/-- RWL DBUF_LO: Dump buffer base [31:0] (07_correlation.md). -/
abbrev DBUF_LO (d : Nat) : Reg := 0x080114 + 0x10000 * d
/-- RWL DBUF_HI: Dump buffer base [47:32] (07_correlation.md). -/
abbrev DBUF_HI (d : Nat) : Reg := 0x080118 + 0x10000 * d
abbrev DBUF_HI_ADDR (d : Nat) : Fld := ⟨DBUF_HI d, 0, 16⟩
/-- RWL DBUF_HALF: Half size, 4 KiB units (07_correlation.md). -/
abbrev DBUF_HALF (d : Nat) : Reg := 0x08011c + 0x10000 * d
/-- RO RUN: Frames in the current run (07_correlation.md). -/
abbrev RUN (d : Nat) : Reg := 0x080120 + 0x10000 * d
/-- RO DSEQ: Sequence number of the last dump (07_correlation.md). -/
abbrev DSEQ (d : Nat) : Reg := 0x080124 + 0x10000 * d
/-- RO DFIRST_LO: First frame of the last dump [31:0] (07_correlation.md). -/
abbrev DFIRST_LO (d : Nat) : Reg := 0x080128 + 0x10000 * d
/-- RO DFIRST_HI: First frame of the last dump [63:32] (07_correlation.md). -/
abbrev DFIRST_HI (d : Nat) : Reg := 0x08012c + 0x10000 * d
/-- RO DINFO: Frames and flags of the last dump (07_correlation.md). -/
abbrev DINFO (d : Nat) : Reg := 0x080130 + 0x10000 * d
/-- RO DSKIP: Skip count of the last dump (07_correlation.md). -/
abbrev DSKIP (d : Nat) : Reg := 0x080134 + 0x10000 * d
/-- RC POISON_CNT: Records poisoned (R170) (07_correlation.md). -/
abbrev POISON_CNT (d : Nat) : Reg := 0x080138 + 0x10000 * d
/-- RC DBUF_OVR_CNT: Dumps cut short (R176) (07_correlation.md). -/
abbrev DBUF_OVR_CNT (d : Nat) : Reg := 0x08013c + 0x10000 * d
/-- RO DBUF_STAT: Dump buffer halves in use (07_correlation.md). -/
abbrev DBUF_STAT (d : Nat) : Reg := 0x080140 + 0x10000 * d
end STL

namespace AIS
/-- W1C STAT: Aisle events (08_aisles_crown.md). -/
abbrev STAT : Reg := 0x0e0000
abbrev STAT_CTX_LATE : Fld := ⟨STAT, 0, 1⟩
abbrev STAT_CTX_REJ : Fld := ⟨STAT, 1, 1⟩
abbrev STAT_CTX_WR : Fld := ⟨STAT, 2, 1⟩
abbrev STAT_CTX_FULL : Fld := ⟨STAT, 3, 1⟩
abbrev STAT_CTX_BUSY : Fld := ⟨STAT, 4, 1⟩
abbrev STAT_CTX_IGN : Fld := ⟨STAT, 5, 1⟩
abbrev STAT_GSAT : Fld := ⟨STAT, 6, 1⟩
abbrev STAT_BSAT : Fld := ⟨STAT, 7, 1⟩
abbrev STAT_AISLE_CUT : Fld := ⟨STAT, 8, 1⟩
abbrev STAT_LONG : Fld := ⟨STAT, 9, 1⟩
abbrev STAT_CANC : Fld := ⟨STAT, 10, 1⟩
abbrev STAT_GCMT_REJ : Fld := ⟨STAT, 11, 1⟩
abbrev STAT_GAIN_SWAP : Fld := ⟨STAT, 12, 1⟩
abbrev STAT_MEM_ERR : Fld := ⟨STAT, 13, 1⟩
/-- RW CTRL: Gain shift (08_aisles_crown.md). -/
abbrev CTRL : Reg := 0x0e0010
abbrev CTRL_GSH : Fld := ⟨CTRL, 0, 3⟩
/-- WO PCOMMIT: Context page commit (08_aisles_crown.md). -/
abbrev PCOMMIT : Reg := 0x0e0014
/-- RO PSTATUS: Context page status (08_aisles_crown.md). -/
abbrev PSTATUS : Reg := 0x0e0018
/-- RW BADD: Beam add, change or removal (08_aisles_crown.md). -/
abbrev BADD : Reg := 0x0e001c
/-- RO BADD_RES: Outcome of the last BADD (08_aisles_crown.md). -/
abbrev BADD_RES : Reg := 0x0e0020
/-- RO CTX_FREE: Free contexts, page not in use (08_aisles_crown.md). -/
abbrev CTX_FREE : Reg := 0x0e0024
/-- RWL GTAB_LO: Gain table base [31:0] (08_aisles_crown.md). -/
abbrev GTAB_LO : Reg := 0x0e0028
/-- RWL GTAB_HI: Gain table base [47:32] (08_aisles_crown.md). -/
abbrev GTAB_HI : Reg := 0x0e002c
abbrev GTAB_HI_ADDR : Fld := ⟨GTAB_HI, 0, 16⟩
/-- RWL GTAB_HALF: Bank size, 4 KiB units (08_aisles_crown.md). -/
abbrev GTAB_HALF : Reg := 0x0e0030
/-- WO GCOMMIT: Software gain bank change (08_aisles_crown.md). -/
abbrev GCOMMIT : Reg := 0x0e0034
/-- RO GSTATUS: Gain bank in use (08_aisles_crown.md). -/
abbrev GSTATUS : Reg := 0x0e0038
abbrev GSTATUS_BANK : Fld := ⟨GSTATUS, 0, 1⟩
abbrev GSTATUS_PEND : Fld := ⟨GSTATUS, 1, 1⟩
/-- RC GSAT_CNT: Gain-stage saturations (08_aisles_crown.md). -/
abbrev GSAT_CNT : Reg := 0x0e003c
/-- RC BSAT_CNT: Voltage requantisation saturations (08_aisles_crown.md). -/
abbrev BSAT_CNT : Reg := 0x0e0040
/-- RC CTX_IGN: Contexts ignored (R191) (08_aisles_crown.md). -/
abbrev CTX_IGN : Reg := 0x0e0044
/-- RC CUT_CNT: Passes cut or not started (08_aisles_crown.md). -/
abbrev CUT_CNT : Reg := 0x0e0048
/-- RC LONG_CNT: Outputs marked LONG (08_aisles_crown.md). -/
abbrev LONG_CNT : Reg := 0x0e004c
/-- RC CANC_CNT: Outputs marked CANC (08_aisles_crown.md). -/
abbrev CANC_CNT : Reg := 0x0e0050
/-- RC MEM_CNT: Gain or context read errors (08_aisles_crown.md). -/
abbrev MEM_CNT : Reg := 0x0e0054
/-- RW BEAMb_CFG: Beam b outputs and MINV (08_aisles_crown.md). -/
abbrev BEAM_CFG (n : Nat) : Reg := 0x0e1000 + 0x10 * n
abbrev BEAM_CFG_OUTV (n : Nat) : Fld := ⟨BEAM_CFG n, 0, 1⟩
abbrev BEAM_CFG_DETEN (n : Nat) : Fld := ⟨BEAM_CFG n, 1, 1⟩
abbrev BEAM_CFG_DMODE (n : Nat) : Fld := ⟨BEAM_CFG n, 2, 1⟩
abbrev BEAM_CFG_MINV (n : Nat) : Fld := ⟨BEAM_CFG n, 3, 13⟩
/-- RW BEAMb_SCALE: Beam b voltage scale (08_aisles_crown.md). -/
abbrev BEAM_SCALE (n : Nat) : Reg := 0x0e1004 + 0x10 * n
abbrev BEAM_SCALE_S (n : Nat) : Fld := ⟨BEAM_SCALE n, 0, 16⟩
abbrev BEAM_SCALE_SH (n : Nat) : Fld := ⟨BEAM_SCALE n, 16, 5⟩
/-- RWL BEAMb_DET: Beam b channel group (08_aisles_crown.md). -/
abbrev BEAM_DET (n : Nat) : Reg := 0x0e1008 + 0x10 * n
abbrev BEAM_DET_GCM1 (n : Nat) : Fld := ⟨BEAM_DET n, 0, 14⟩
/-- RW BEAMb_TS: Beam b time scrunch (08_aisles_crown.md). -/
abbrev BEAM_TS (n : Nat) : Reg := 0x0e100c + 0x10 * n
abbrev BEAM_TS_TSLOG (n : Nat) : Fld := ⟨BEAM_TS n, 0, 5⟩
/-- RO BEAMb_INFO: Beam b directory, page in use (08_aisles_crown.md). -/
abbrev BEAM_INFO (n : Nat) : Reg := 0x0e2000 + 0x4 * n
end AIS

namespace CRN
/-- W1C STAT: Crown events (08_aisles_crown.md). -/
abbrev STAT : Reg := 0x0f0000
abbrev STAT_DONE : Fld := ⟨STAT, 0, 1⟩
abbrev STAT_TRIG : Fld := ⟨STAT, 1, 1⟩
abbrev STAT_PART : Fld := ⟨STAT, 2, 1⟩
abbrev STAT_LATE : Fld := ⟨STAT, 3, 1⟩
/-- RWL RBASE_LO: Result region base [31:0] (08_aisles_crown.md). -/
abbrev RBASE_LO : Reg := 0x0f0010
/-- RWL RBASE_HI: Result region base [47:32] (08_aisles_crown.md). -/
abbrev RBASE_HI : Reg := 0x0f0014
abbrev RBASE_HI_ADDR : Fld := ⟨RBASE_HI, 0, 16⟩
/-- RO MB_HEAD: Crown result mailbox head (08_aisles_crown.md). -/
abbrev MB_HEAD : Reg := 0x0f0018
/-- RO MB_FRAME_LO: Frame of the latched record [31:0] (08_aisles_crown.md). -/
abbrev MB_FRAME_LO : Reg := 0x0f001c
/-- RO MB_FRAME_HI: Frame of the latched record [63:32] (08_aisles_crown.md). -/
abbrev MB_FRAME_HI : Reg := 0x0f0020
/-- RC TRIG_CNT: Capture triggers sent (R207) (08_aisles_crown.md). -/
abbrev TRIG_CNT : Reg := 0x0f0024
/-- RC PART_CNT: Candidates marked PART (08_aisles_crown.md). -/
abbrev PART_CNT : Reg := 0x0f0028
/-- RC LATE_CNT: Crown partial frames discarded (08_aisles_crown.md). -/
abbrev LATE_CNT : Reg := 0x0f002c
/-- RW WATCHw_CFG: Watch w control (08_aisles_crown.md). -/
abbrev WATCH_CFG (n : Nat) : Reg := 0x0f1000 + 0x20 * n
abbrev WATCH_CFG_EN (n : Nat) : Fld := ⟨WATCH_CFG n, 0, 1⟩
abbrev WATCH_CFG_SCOPE (n : Nat) : Fld := ⟨WATCH_CFG n, 1, 1⟩
abbrev WATCH_CFG_KM1 (n : Nat) : Fld := ⟨WATCH_CFG n, 2, 4⟩
abbrev WATCH_CFG_TRIG (n : Nat) : Fld := ⟨WATCH_CFG n, 6, 1⟩
abbrev WATCH_CFG_EXCL_CANC (n : Nat) : Fld := ⟨WATCH_CFG n, 7, 1⟩
abbrev WATCH_CFG_EXCL_LONG (n : Nat) : Fld := ⟨WATCH_CFG n, 8, 1⟩
abbrev WATCH_CFG_GROUP (n : Nat) : Fld := ⟨WATCH_CFG n, 9, 14⟩
/-- RW WATCHw_BEAMS: Beam range (08_aisles_crown.md). -/
abbrev WATCH_BEAMS (n : Nat) : Reg := 0x0f1004 + 0x20 * n
abbrev WATCH_BEAMS_FIRST (n : Nat) : Fld := ⟨WATCH_BEAMS n, 0, 8⟩
abbrev WATCH_BEAMS_LAST (n : Nat) : Fld := ⟨WATCH_BEAMS n, 8, 8⟩
/-- RW WATCHw_TH: Candidate threshold, float32 (08_aisles_crown.md). -/
abbrev WATCH_TH (n : Nat) : Reg := 0x0f1008 + 0x20 * n
abbrev WATCH_TH_VALUE (n : Nat) : Fld := ⟨WATCH_TH n, 0, 32⟩
/-- RW WATCHw_TTH: Trigger threshold, float32 (08_aisles_crown.md). -/
abbrev WATCH_TTH (n : Nat) : Reg := 0x0f100c + 0x20 * n
abbrev WATCH_TTH_VALUE (n : Nat) : Fld := ⟨WATCH_TTH n, 0, 32⟩
/-- RW WATCHw_MIN: Minimum count (08_aisles_crown.md). -/
abbrev WATCH_MIN (n : Nat) : Reg := 0x0f1010 + 0x20 * n
abbrev WATCH_MIN_COUNT (n : Nat) : Fld := ⟨WATCH_MIN n, 0, 25⟩
end CRN

namespace CAL
/-- W1C STAT: Calibration events (09_calibration.md). -/
abbrev STAT : Reg := 0x100000
abbrev STAT_SOLVED : Fld := ⟨STAT, 0, 1⟩
abbrev STAT_NOCONV : Fld := ⟨STAT, 1, 1⟩
abbrev STAT_FAIL : Fld := ⟨STAT, 2, 1⟩
abbrev STAT_UNFINISHED : Fld := ⟨STAT, 3, 1⟩
abbrev STAT_WEAK : Fld := ⟨STAT, 4, 1⟩
abbrev STAT_GCLIP : Fld := ⟨STAT, 5, 1⟩
abbrev STAT_MEM_ERR : Fld := ⟨STAT, 6, 1⟩
abbrev STAT_INST_SKIP : Fld := ⟨STAT, 7, 1⟩
abbrev STAT_REFMOVED : Fld := ⟨STAT, 8, 1⟩
abbrev STAT_ABANDONED : Fld := ⟨STAT, 9, 1⟩
/-- RW CTRL: Enable, feedback, model, start (09_calibration.md). -/
abbrev CTRL : Reg := 0x100010
abbrev CTRL_EN : Fld := ⟨CTRL, 0, 1⟩
abbrev CTRL_AISLE_FB : Fld := ⟨CTRL, 1, 1⟩
abbrev CTRL_DCOR : Fld := ⟨CTRL, 2, 1⟩
abbrev CTRL_MODEL : Fld := ⟨CTRL, 3, 1⟩
abbrev CTRL_INIT : Fld := ⟨CTRL, 4, 1⟩
/-- RW ITER: MAXIT, MININ, MINBL (09_calibration.md). -/
abbrev ITER : Reg := 0x100014
abbrev ITER_MAXIT : Fld := ⟨ITER, 0, 7⟩
abbrev ITER_MININ : Fld := ⟨ITER, 7, 13⟩
abbrev ITER_MINBL : Fld := ⟨ITER, 20, 12⟩
/-- RW TOL: Convergence tolerance, float32 (09_calibration.md). -/
abbrev TOL : Reg := 0x100018
/-- RW RESMAX: Residual limit, float32 (09_calibration.md). -/
abbrev RESMAX : Reg := 0x10001c
/-- RW GNORM: Aisle gain level, float32 (09_calibration.md). -/
abbrev GNORM : Reg := 0x100020
/-- RW MINCNT: Minimum count for a feed entry (09_calibration.md). -/
abbrev MINCNT : Reg := 0x100024
/-- RW REFIN: Phase reference input (09_calibration.md). -/
abbrev REFIN : Reg := 0x100028
abbrev REFIN_INPUT : Fld := ⟨REFIN, 0, 13⟩
/-- RO STATUS: Engine state, channel, banks (09_calibration.md). -/
abbrev STATUS : Reg := 0x10002c
abbrev STATUS_STATE : Fld := ⟨STATUS, 0, 2⟩
abbrev STATUS_CHAN : Fld := ⟨STATUS, 2, 14⟩
abbrev STATUS_DBANK : Fld := ⟨STATUS, 16, 1⟩
abbrev STATUS_FB_ARMED : Fld := ⟨STATUS, 17, 1⟩
abbrev STATUS_DC_ARMED : Fld := ⟨STATUS, 18, 1⟩
/-- RO PROG: Channels ended in the current solve (09_calibration.md). -/
abbrev PROG : Reg := 0x100030
/-- RO SEQ: SEQ of the last published solve [31:0] (09_calibration.md). -/
abbrev SEQ : Reg := 0x100034
/-- RWL FEED_LO: Feed base [31:0] (09_calibration.md). -/
abbrev FEED_LO : Reg := 0x100040
/-- RWL FEED_HI: Feed base [47:32] (09_calibration.md). -/
abbrev FEED_HI : Reg := 0x100044
abbrev FEED_HI_ADDR : Fld := ⟨FEED_HI, 0, 16⟩
/-- RWL MBASE_LO: Model base [31:0] (09_calibration.md). -/
abbrev MBASE_LO : Reg := 0x100048
/-- RWL MBASE_HI: Model base [47:32] (09_calibration.md). -/
abbrev MBASE_HI : Reg := 0x10004c
abbrev MBASE_HI_ADDR : Fld := ⟨MBASE_HI, 0, 16⟩
/-- RWL SOL_LO: Solution table base [31:0] (09_calibration.md). -/
abbrev SOL_LO : Reg := 0x100050
/-- RWL SOL_HI: Solution table base [47:32] (09_calibration.md). -/
abbrev SOL_HI : Reg := 0x100054
abbrev SOL_HI_ADDR : Fld := ⟨SOL_HI, 0, 16⟩
/-- RWL GST_LO: Solution gain store base [31:0] (09_calibration.md). -/
abbrev GST_LO : Reg := 0x100058
/-- RWL GST_HI: Solution gain store base [47:32] (09_calibration.md). -/
abbrev GST_HI : Reg := 0x10005c
abbrev GST_HI_ADDR : Fld := ⟨GST_HI, 0, 16⟩
/-- RWL DCOR_LO: Dump correction table base [31:0] (09_calibration.md). -/
abbrev DCOR_LO : Reg := 0x100060
/-- RWL DCOR_HI: Dump correction table base [47:32] (09_calibration.md). -/
abbrev DCOR_HI : Reg := 0x100064
abbrev DCOR_HI_ADDR : Fld := ⟨DCOR_HI, 0, 16⟩
/-- RWL DCOR_HALF: Correction bank size, 4 KiB units (09_calibration.md). -/
abbrev DCOR_HALF : Reg := 0x100068
/-- RO MB_HEAD: Calibration summary mailbox head (09_calibration.md). -/
abbrev MB_HEAD : Reg := 0x100070
/-- RO MB_DSEQ: Dump solved, latched (09_calibration.md). -/
abbrev MB_DSEQ : Reg := 0x100074
/-- RO MB_CONV: Channels OK, latched (09_calibration.md). -/
abbrev MB_CONV : Reg := 0x100078
/-- RO MB_FAIL: Channels failed, latched (09_calibration.md). -/
abbrev MB_FAIL : Reg := 0x10007c
/-- RC NOCONV_CNT: Channels NOCONV (09_calibration.md). -/
abbrev NOCONV_CNT : Reg := 0x100080
/-- RC FAIL_CNT: Channels RESID, FEW or NONFINITE (09_calibration.md). -/
abbrev FAIL_CNT : Reg := 0x100084
/-- RC UNFIN_CNT: Channels UNFINISHED (09_calibration.md). -/
abbrev UNFIN_CNT : Reg := 0x100088
/-- RC WEAK_CNT: Weak inputs (09_calibration.md). -/
abbrev WEAK_CNT : Reg := 0x10008c
/-- RC GCLIP_CNT: Saturated aisle-word parts (09_calibration.md). -/
abbrev GCLIP_CNT : Reg := 0x100090
/-- RC MEM_CNT: Feed or model read errors (09_calibration.md). -/
abbrev MEM_CNT : Reg := 0x100094
/-- RW INMASK_w: Input mask, inputs 32w to 32w + 31 (09_calibration.md). -/
abbrev INMASK (n : Nat) : Reg := 0x101000 + 0x4 * n
end CAL

namespace OUT
/-- W1C STAT: Output events (10_outputs.md). -/
abbrev STAT : Reg := 0x130000
abbrev STAT_DUMP_START : Fld := ⟨STAT, 0, 1⟩
abbrev STAT_DUMP_SENT : Fld := ⟨STAT, 1, 1⟩
abbrev STAT_MANIF_SENT : Fld := ⟨STAT, 2, 1⟩
abbrev STAT_SIGN_FAIL : Fld := ⟨STAT, 3, 1⟩
abbrev STAT_BV_DROP : Fld := ⟨STAT, 4, 1⟩
abbrev STAT_EVT_DROP : Fld := ⟨STAT, 5, 1⟩
abbrev STAT_CF16_SAT : Fld := ⟨STAT, 6, 1⟩
abbrev STAT_LINK_UP : Fld := ⟨STAT, 7, 1⟩
abbrev STAT_LINK_DOWN : Fld := ⟨STAT, 8, 1⟩
abbrev STAT_PORT_DROP : Fld := ⟨STAT, 9, 1⟩
abbrev STAT_FMT_REJ : Fld := ⟨STAT, 10, 1⟩
abbrev STAT_STRM_DROP : Fld := ⟨STAT, 11, 1⟩
abbrev STAT_STRM_REJ : Fld := ⟨STAT, 12, 1⟩
/-- RW DUMP: Format, correction, manifest (10_outputs.md). -/
abbrev DUMP : Reg := 0x130010
abbrev DUMP_FMT : Fld := ⟨DUMP, 0, 2⟩
abbrev DUMP_CORR : Fld := ⟨DUMP, 2, 1⟩
abbrev DUMP_MANIF : Fld := ⟨DUMP, 3, 1⟩
abbrev DUMP_FMTMAX : Fld := ⟨DUMP, 4, 2⟩
/-- RW DRATE: Dump rate limit (10_outputs.md). -/
abbrev DRATE : Reg := 0x130014
abbrev DRATE_RATE : Fld := ⟨DRATE, 0, 9⟩
/-- RW STREN: Stream enables (10_outputs.md). -/
abbrev STREN : Reg := 0x130018
abbrev STREN_EN : Fld := ⟨STREN, 0, 16⟩
/-- RW PRODMAP: Kind-to-stream map (10_outputs.md). -/
abbrev PRODMAP : Reg := 0x13001c
abbrev PRODMAP_STREAM (k : Nat) : Fld := ⟨PRODMAP, 4 * (k - 1), 4⟩
/-- RW PRODEN: Kind enables (10_outputs.md). -/
abbrev PRODEN : Reg := 0x130020
abbrev PRODEN_EN : Fld := ⟨PRODEN, 0, 7⟩
/-- RO MSEQ: q of the last manifest sent (10_outputs.md). -/
abbrev MSEQ : Reg := 0x130024
/-- RC BV_DROP: BEAMV packets dropped (10_outputs.md). -/
abbrev BV_DROP : Reg := 0x130028
/-- RC EVT_DROP: Events dropped (10_outputs.md). -/
abbrev EVT_DROP : Reg := 0x13002c
/-- RC CF16_SAT: CF16 saturations (10_outputs.md). -/
abbrev CF16_SAT : Reg := 0x130030
/-- RC RX_DISC: Received frames discarded (10_outputs.md). -/
abbrev RX_DISC : Reg := 0x130034
/-- RC STRM_DROP: Packets to disabled streams (10_outputs.md). -/
abbrev STRM_DROP : Reg := 0x130038
/-- RW PORTp_CTRL: Port p control (10_outputs.md). -/
abbrev PORT_CTRL (n : Nat) : Reg := 0x130100 + 0x20 * n
abbrev PORT_CTRL_EN (n : Nat) : Fld := ⟨PORT_CTRL n, 0, 1⟩
/-- RO PORTp_STATUS: Port p state (10_outputs.md). -/
abbrev PORT_STATUS (n : Nat) : Reg := 0x130104 + 0x20 * n
abbrev PORT_STATUS_UP (n : Nat) : Fld := ⟨PORT_STATUS n, 0, 1⟩
/-- RC PORTp_TXPKT: Packets sent (10_outputs.md). -/
abbrev PORT_TXPKT (n : Nat) : Reg := 0x130108 + 0x20 * n
/-- RC PORTp_DROP: Packets discarded (R232) (10_outputs.md). -/
abbrev PORT_DROP (n : Nat) : Reg := 0x13010c + 0x20 * n
/-- RC PORTp_FECCOR: RS-FEC codewords corrected (10_outputs.md). -/
abbrev PORT_FECCOR (n : Nat) : Reg := 0x130110 + 0x20 * n
/-- RC PORTp_FECUNC: RS-FEC codewords uncorrectable (10_outputs.md). -/
abbrev PORT_FECUNC (n : Nat) : Reg := 0x130114 + 0x20 * n
end OUT

namespace DMC
/-- W1C STAT: Controller events (11_dram.md). -/
abbrev STAT : Reg := 0x120000
abbrev STAT_TRAIN_FAIL : Fld := ⟨STAT, 0, 1⟩
abbrev STAT_MAP_BAD : Fld := ⟨STAT, 1, 1⟩
abbrev STAT_PANIC : Fld := ⟨STAT, 2, 1⟩
abbrev STAT_RT_FULL : Fld := ⟨STAT, 3, 1⟩
abbrev STAT_RH_THROTTLE : Fld := ⟨STAT, 4, 1⟩
abbrev STAT_RH_RT : Fld := ⟨STAT, 5, 1⟩
abbrev STAT_CE : Fld := ⟨STAT, 6, 1⟩
abbrev STAT_UE : Fld := ⟨STAT, 7, 1⟩
abbrev STAT_TAG_CE : Fld := ⟨STAT, 8, 1⟩
abbrev STAT_MISDIR : Fld := ⟨STAT, 9, 1⟩
abbrev STAT_RMW_UE : Fld := ⟨STAT, 10, 1⟩
abbrev STAT_CAPAR : Fld := ⟨STAT, 11, 1⟩
abbrev STAT_CH_FAIL : Fld := ⟨STAT, 12, 1⟩
abbrev STAT_RETRAIN_REJ : Fld := ⟨STAT, 13, 1⟩
abbrev STAT_READY : Fld := ⟨STAT, 14, 1⟩
/-- RW CTRL: Enable and retrain (11_dram.md). -/
abbrev CTRL : Reg := 0x120010
abbrev CTRL_EN : Fld := ⟨CTRL, 0, 1⟩
/-- RO STATUS: Readiness and panic (11_dram.md). -/
abbrev STATUS : Reg := 0x120014
abbrev STATUS_READY : Fld := ⟨STATUS, 0, 1⟩
abbrev STATUS_PANIC : Fld := ⟨STATUS, 1, 1⟩
abbrev STATUS_SELFREF : Fld := ⟨STATUS, 2, 1⟩
/-- RWL GEOM: Expected DIMM geometry and speed (11_dram.md). -/
abbrev GEOM : Reg := 0x120018
abbrev GEOM_SIZE : Fld := ⟨GEOM, 0, 2⟩
/-- RO CHSTAT: Trained and failed channels (11_dram.md). -/
abbrev CHSTAT : Reg := 0x12001c
abbrev CHSTAT_TRAINED : Fld := ⟨CHSTAT, 0, 16⟩
abbrev CHSTAT_FAILED : Fld := ⟨CHSTAT, 16, 16⟩
/-- RW PAGE: Page timers and ageing (11_dram.md). -/
abbrev PAGE : Reg := 0x120020
abbrev PAGE_IDLE : Fld := ⟨PAGE, 0, 16⟩
abbrev PAGE_OPEN_MAX : Fld := ⟨PAGE, 16, 8⟩
abbrev PAGE_AGE : Fld := ⟨PAGE, 24, 8⟩
/-- RW RH: Row-disturbance threshold and gap (11_dram.md). -/
abbrev RH : Reg := 0x120024
abbrev RH_THRESH : Fld := ⟨RH, 0, 16⟩
abbrev RH_GAP : Fld := ⟨RH, 16, 16⟩
/-- RO RH_LAST: Last throttled bank and requester (11_dram.md). -/
abbrev RH_LAST : Reg := 0x120028
/-- RW SR: Segments kept in self-refresh (11_dram.md). -/
abbrev SR : Reg := 0x12002c
abbrev SR_KEEP : Fld := ⟨SR, 0, 8⟩
abbrev SR_NOPASR : Fld := ⟨SR, 8, 1⟩
/-- RW SCRUB: Patrol scrub period (11_dram.md). -/
abbrev SCRUB : Reg := 0x120030
abbrev SCRUB_HOURS : Fld := ⟨SCRUB, 0, 8⟩
/-- RO RTBUF: Real-time buffer occupancy (11_dram.md). -/
abbrev RTBUF : Reg := 0x120034
abbrev RTBUF_BYTES : Fld := ⟨RTBUF, 0, 23⟩
/-- RC PANIC_CNT: Panic assertions (11_dram.md). -/
abbrev PANIC_CNT : Reg := 0x120038
/-- RC PANIC_TIME: Microseconds under panic (11_dram.md). -/
abbrev PANIC_TIME : Reg := 0x12003c
/-- RC CE_CNT: Corrected halves (11_dram.md). -/
abbrev CE_CNT : Reg := 0x120040
/-- RC UE_CNT: Uncorrectable halves (11_dram.md). -/
abbrev UE_CNT : Reg := 0x120044
/-- RC TAG_CE_CNT: Single tag copies corrected (11_dram.md). -/
abbrev TAG_CE_CNT : Reg := 0x120048
/-- RC MISDIR_CNT: Misdirected bursts (11_dram.md). -/
abbrev MISDIR_CNT : Reg := 0x12004c
/-- RC CAPAR_CNT: Parity replays (11_dram.md). -/
abbrev CAPAR_CNT : Reg := 0x120050
/-- RC RH_CNT: Row-disturbance throttles (11_dram.md). -/
abbrev RH_CNT : Reg := 0x120054
/-- RC UE_ADDR_LO: Latched address [31:0] (11_dram.md). -/
abbrev UE_ADDR_LO : Reg := 0x120058
/-- RO UE_ADDR_HI: Latched address [47:32] and cause (11_dram.md). -/
abbrev UE_ADDR_HI : Reg := 0x12005c
/-- RWL HASHm_LO: Mask of hashed bit m, A[31:0] (11_dram.md). -/
abbrev HASH_LO (n : Nat) : Reg := 0x120100 + 0x8 * n
/-- RWL HASHm_HI: Mask of hashed bit m, A[40:32] (11_dram.md). -/
abbrev HASH_HI (n : Nat) : Reg := 0x120104 + 0x8 * n
abbrev HASH_HI_MASK (n : Nat) : Fld := ⟨HASH_HI n, 0, 9⟩
/-- RW REQr_CFG: Class and hint override of requester r (11_dram.md). -/
abbrev REQ_CFG (n : Nat) : Reg := 0x120200 + 0x4 * n
abbrev REQ_CFG_CLASS (n : Nat) : Fld := ⟨REQ_CFG n, 0, 2⟩
abbrev REQ_CFG_HOVR (n : Nat) : Fld := ⟨REQ_CFG n, 2, 2⟩
end DMC

namespace CLE
/-- W1C STAT: Clerk events (12_clerks.md). -/
abbrev STAT : Reg := 0x140000
abbrev STAT_CORE_FAULT : Fld := ⟨STAT, 0, 1⟩
abbrev STAT_JOB_LATE : Fld := ⟨STAT, 1, 1⟩
abbrev STAT_JOB_OVF : Fld := ⟨STAT, 2, 1⟩
abbrev STAT_PM_WR : Fld := ⟨STAT, 3, 1⟩
abbrev STAT_FAR_ERR : Fld := ⟨STAT, 4, 1⟩
abbrev STAT_HALTED : Fld := ⟨STAT, 5, 1⟩
abbrev STAT_ECC_CE : Fld := ⟨STAT, 6, 1⟩
/-- RW FLAGS: Shared flag bits (12_clerks.md). -/
abbrev FLAGS : Reg := 0x140010
/-- W1S FLAGS_SET: Sets FLAGS bits; reads FLAGS (12_clerks.md). -/
abbrev FLAGS_SET : Reg := 0x140014
/-- W1C FLAGS_CLR: Clears FLAGS bits; reads FLAGS (12_clerks.md). -/
abbrev FLAGS_CLR : Reg := 0x140018
/-- RW MSEL: Local memory select (R269) (12_clerks.md). -/
abbrev MSEL : Reg := 0x14001c
abbrev MSEL_CORE : Fld := ⟨MSEL, 0, 4⟩
abbrev MSEL_MEM : Fld := ⟨MSEL, 4, 2⟩
/-- RW MADDR: Local memory word address (12_clerks.md). -/
abbrev MADDR : Reg := 0x140020
abbrev MADDR_ADDR : Fld := ⟨MADDR, 0, 15⟩
/-- RW MDATA: Local memory data (12_clerks.md). -/
abbrev MDATA : Reg := 0x140024
/-- RC ECC_CNT: Corrected local-memory errors (12_clerks.md). -/
abbrev ECC_CNT : Reg := 0x140028
/-- RC JOB_OVF_CNT: Jobs dropped on full queues (12_clerks.md). -/
abbrev JOB_OVF_CNT : Reg := 0x14002c
/-- RW COREn_CTRL: Core n run control (12_clerks.md). -/
abbrev CORE_CTRL (n : Nat) : Reg := 0x140100 + 0x20 * n
abbrev CORE_CTRL_RSTART (n : Nat) : Fld := ⟨CORE_CTRL n, 2, 1⟩
abbrev CORE_CTRL_ENTRY (n : Nat) : Fld := ⟨CORE_CTRL n, 4, 15⟩
/-- RO COREn_STATUS: Core n state (12_clerks.md). -/
abbrev CORE_STATUS (n : Nat) : Reg := 0x140104 + 0x20 * n
/-- RO COREn_FPC: PC of the last fault (12_clerks.md). -/
abbrev CORE_FPC (n : Nat) : Reg := 0x140108 + 0x20 * n
/-- RO COREn_FADDR_LO: Failed far store address [31:0] (12_clerks.md). -/
abbrev CORE_FADDR_LO (n : Nat) : Reg := 0x14010c + 0x20 * n
/-- RO COREn_FADDR_HI: Failed far store address [47:32] (12_clerks.md). -/
abbrev CORE_FADDR_HI (n : Nat) : Reg := 0x140110 + 0x20 * n
/-- RO COREn_BUSY: Cycles not in WAIT or HALTED, last frame (12_clerks.md). -/
abbrev CORE_BUSY (n : Nat) : Reg := 0x140114 + 0x20 * n
/-- RC COREn_LATE: Jobs not done by their END slot (12_clerks.md). -/
abbrev CORE_LATE (n : Nat) : Reg := 0x140118 + 0x20 * n
/-- RC COREn_SKIP: Jobs shed or deferred (12_clerks.md). -/
abbrev CORE_SKIP (n : Nat) : Reg := 0x14011c + 0x20 * n
/-- WO COREn_DBELL: Doorbell of core n (12_clerks.md). -/
abbrev CORE_DBELL (n : Nat) : Reg := 0x140400 + 0x4 * n
end CLE

namespace MEL
/-- W1C STAT: Time-core events (13_references.md). -/
abbrev STAT : Reg := 0x150000
abbrev STAT_LOCKED : Fld := ⟨STAT, 0, 1⟩
abbrev STAT_SWITCH : Fld := ⟨STAT, 1, 1⟩
abbrev STAT_SWITCH_DONE : Fld := ⟨STAT, 2, 1⟩
abbrev STAT_HOLDOVER : Fld := ⟨STAT, 3, 1⟩
abbrev STAT_HOLDOVER_OOS : Fld := ⟨STAT, 4, 1⟩
abbrev STAT_REF_DISAGREE : Fld := ⟨STAT, 5, 1⟩
abbrev STAT_REF_LOST : Fld := ⟨STAT, 6, 1⟩
abbrev STAT_REF_AVAIL : Fld := ⟨STAT, 7, 1⟩
abbrev STAT_TOD_ERR : Fld := ⟨STAT, 8, 1⟩
abbrev STAT_ESMC_TO : Fld := ⟨STAT, 9, 1⟩
abbrev STAT_TOFF_BIG : Fld := ⟨STAT, 10, 1⟩
abbrev STAT_TAKEOVER : Fld := ⟨STAT, 11, 1⟩
abbrev STAT_MISMATCH : Fld := ⟨STAT, 12, 1⟩
abbrev STAT_SWAP_OK : Fld := ⟨STAT, 13, 1⟩
abbrev STAT_SWAP_FAIL : Fld := ⟨STAT, 14, 1⟩
abbrev STAT_SWAP_REJ : Fld := ⟨STAT, 15, 1⟩
abbrev STAT_RESYNC_DONE : Fld := ⟨STAT, 16, 1⟩
abbrev STAT_CORE_FAULT : Fld := ⟨STAT, 17, 1⟩
abbrev STAT_RST_REJ : Fld := ⟨STAT, 18, 1⟩
abbrev STAT_OSC_LOST : Fld := ⟨STAT, 19, 1⟩
abbrev STAT_OSC_BACK : Fld := ⟨STAT, 20, 1⟩
/-- RW CTRL: Revert, forced holdover, pair control (13_references.md). -/
abbrev CTRL : Reg := 0x150010
abbrev CTRL_REVERT : Fld := ⟨CTRL, 0, 1⟩
abbrev CTRL_FORCE_HO : Fld := ⟨CTRL, 1, 1⟩
/-- RO STATUS: State, references, cores (13_references.md). -/
abbrev STATUS : Reg := 0x150014
abbrev STATUS_STATE : Fld := ⟨STATUS, 0, 3⟩
abbrev STATUS_ACTIVE : Fld := ⟨STATUS, 3, 3⟩
abbrev STATUS_TARGET : Fld := ⟨STATUS, 6, 3⟩
abbrev STATUS_CORE : Fld := ⟨STATUS, 9, 1⟩
abbrev STATUS_A_OK : Fld := ⟨STATUS, 10, 1⟩
abbrev STATUS_B_OK : Fld := ⟨STATUS, 11, 1⟩
abbrev STATUS_A_LAT : Fld := ⟨STATUS, 12, 1⟩
abbrev STATUS_B_LAT : Fld := ⟨STATUS, 13, 1⟩
abbrev STATUS_TFLY : Fld := ⟨STATUS, 14, 1⟩
abbrev STATUS_OOS : Fld := ⟨STATUS, 15, 1⟩
abbrev STATUS_OSC : Fld := ⟨STATUS, 16, 1⟩
/-- RW REFCFG: Candidate enables and clock rates (13_references.md). -/
abbrev REFCFG : Reg := 0x150018
abbrev REFCFG_EN : Fld := ⟨REFCFG, 0, 6⟩
/-- RW PRIO: Priorities (R300) (13_references.md). -/
abbrev PRIO : Reg := 0x15001c
/-- RW QLMAP_LO: Rank of QL codes 0 to 7 (13_references.md). -/
abbrev QLMAP_LO : Reg := 0x150020
/-- RW QLMAP_HI: Rank of QL codes 8 to 15 (13_references.md). -/
abbrev QLMAP_HI : Reg := 0x150024
/-- RW QUAL: First qualification and wait-to-restore (13_references.md). -/
abbrev QUAL : Reg := 0x150028
abbrev QUAL_QUAL_S : Fld := ⟨QUAL, 0, 12⟩
abbrev QUAL_WTR : Fld := ⟨QUAL, 16, 12⟩
/-- RW DISAG: Disagreement threshold (13_references.md). -/
abbrev DISAG : Reg := 0x15002c
abbrev DISAG_THR : Fld := ⟨DISAG, 0, 16⟩
/-- RW DPLL: Bandwidth, slew, holdover averaging (13_references.md). -/
abbrev DPLL : Reg := 0x150030
abbrev DPLL_BW : Fld := ⟨DPLL, 0, 3⟩
abbrev DPLL_SLEW : Fld := ⟨DPLL, 4, 8⟩
abbrev DPLL_HAVG : Fld := ⟨DPLL, 16, 12⟩
/-- RW HO_E0: E0, ns (13_references.md). -/
abbrev HO_E0 : Reg := 0x150034
/-- RW HO_Y0: y0, units of 10^−13 (13_references.md). -/
abbrev HO_Y0 : Reg := 0x150038
/-- RW HO_AGE: Ageing, units of 10^−13 per day (13_references.md). -/
abbrev HO_AGE : Reg := 0x15003c
/-- RW HO_LIM: Time-error limit, ns (13_references.md). -/
abbrev HO_LIM : Reg := 0x150040
/-- RO HO_TIME: Seconds on the holdover timer (13_references.md). -/
abbrev HO_TIME : Reg := 0x150044
/-- RO HO_TE: Predicted time error, ns (13_references.md). -/
abbrev HO_TE : Reg := 0x150048
/-- RO TKO_NS: Nanosecond value at the last takeover (13_references.md). -/
abbrev TKO_NS : Reg := 0x150050
/-- RC SWITCH_CNT: Switches completed (13_references.md). -/
abbrev SWITCH_CNT : Reg := 0x150054
/-- RC TKO_CNT: Takeovers (13_references.md). -/
abbrev TKO_CNT : Reg := 0x150058
/-- RO REFr_STATUS: Candidate r qualification (13_references.md). -/
abbrev REF_STATUS (n : Nat) : Reg := 0x150100 + 0x10 * n
abbrev REF_STATUS_QUAL (n : Nat) : Fld := ⟨REF_STATUS n, 0, 2⟩
abbrev REF_STATUS_RANK (n : Nat) : Fld := ⟨REF_STATUS n, 2, 4⟩
abbrev REF_STATUS_CAUSE (n : Nat) : Fld := ⟨REF_STATUS n, 18, 7⟩
/-- RO REFr_FOFF: Frequency against OSC_IN (13_references.md). -/
abbrev REF_FOFF (n : Nat) : Reg := 0x150104 + 0x10 * n
/-- RO REFr_TOFF: PPS offset from station time (13_references.md). -/
abbrev REF_TOFF (n : Nat) : Reg := 0x150108 + 0x10 * n
/-- RO REFr_QL: Last QL or clockClass (13_references.md). -/
abbrev REF_QL (n : Nat) : Reg := 0x15010c + 0x10 * n
abbrev REF_QL_CODE (n : Nat) : Fld := ⟨REF_QL n, 0, 8⟩
end MEL

namespace PTP
/-- W1C STAT: Time and PTP events (14_station_time.md). -/
abbrev STAT : Reg := 0x160000
abbrev STAT_TIME_SET : Fld := ⟨STAT, 0, 1⟩
abbrev STAT_TSET_REJ : Fld := ⟨STAT, 1, 1⟩
abbrev STAT_TS_OVF : Fld := ⟨STAT, 2, 1⟩
abbrev STAT_TS_LOST : Fld := ⟨STAT, 3, 1⟩
abbrev STAT_TC_UNMATCHED : Fld := ⟨STAT, 4, 1⟩
abbrev STAT_TC_DISC : Fld := ⟨STAT, 5, 1⟩
abbrev STAT_PD_FAIL : Fld := ⟨STAT, 6, 1⟩
abbrev STAT_SLV_LOCK : Fld := ⟨STAT, 7, 1⟩
abbrev STAT_SLV_LOST : Fld := ⟨STAT, 8, 1⟩
abbrev STAT_FWD_DROP : Fld := ⟨STAT, 9, 1⟩
abbrev STAT_LINK_UP : Fld := ⟨STAT, 10, 1⟩
abbrev STAT_LINK_DOWN : Fld := ⟨STAT, 11, 1⟩
abbrev STAT_CD_SWAP : Fld := ⟨STAT, 12, 1⟩
abbrev STAT_CD_WR : Fld := ⟨STAT, 13, 1⟩
/-- RW CTRL: Timescale acceptance (14_station_time.md). -/
abbrev CTRL : Reg := 0x160010
abbrev CTRL_ARB : Fld := ⟨CTRL, 0, 1⟩
/-- RO STATUS: Validity, loads, mode (14_station_time.md). -/
abbrev STATUS : Reg := 0x160014
abbrev STATUS_VALID : Fld := ⟨STATUS, 0, 1⟩
abbrev STATUS_SETCNT : Fld := ⟨STATUS, 1, 8⟩
abbrev STATUS_CHAIN : Fld := ⟨STATUS, 9, 1⟩
/-- RO NOW_NS: Nanoseconds; latches NOW (R323) (14_station_time.md). -/
abbrev NOW_NS : Reg := 0x160018
/-- RO NOW_SEC_LO: Seconds [31:0], latched (14_station_time.md). -/
abbrev NOW_SEC_LO : Reg := 0x16001c
/-- RO NOW_SEC_HI: Seconds [47:32], latched (14_station_time.md). -/
abbrev NOW_SEC_HI : Reg := 0x160020
/-- RO NOW_FR: FR, latched (14_station_time.md). -/
abbrev NOW_FR : Reg := 0x160024
/-- RW TSET_NS: Load nanoseconds (14_station_time.md). -/
abbrev TSET_NS : Reg := 0x160028
abbrev TSET_NS_NS : Fld := ⟨TSET_NS, 0, 30⟩
/-- RW TSET_SEC_LO: Load seconds [31:0] (14_station_time.md). -/
abbrev TSET_SEC_LO : Reg := 0x16002c
/-- RW TSET_SEC_HI: Load seconds [47:32] (14_station_time.md). -/
abbrev TSET_SEC_HI : Reg := 0x160030
abbrev TSET_SEC_HI_SEC : Fld := ⟨TSET_SEC_HI, 0, 16⟩
/-- RW TSET_CMD: Load command (R322) (14_station_time.md). -/
abbrev TSET_CMD : Reg := 0x160034
abbrev TSET_CMD_MODE : Fld := ⟨TSET_CMD, 1, 1⟩
abbrev TSET_CMD_PEND : Fld := ⟨TSET_CMD, 2, 1⟩
/-- RO FR: FR, live (14_station_time.md). -/
abbrev FR : Reg := 0x160038
/-- RC TSQ_INFO: Pops the stamp queue (14_station_time.md). -/
abbrev TSQ_INFO : Reg := 0x160040
/-- RO TSQ_NS: Stamp of the popped entry (14_station_time.md). -/
abbrev TSQ_NS : Reg := 0x160044
/-- RW TS_EN: Queue enables and edges (14_station_time.md). -/
abbrev TS_EN : Reg := 0x160048
abbrev TS_EN_RISE : Fld := ⟨TS_EN, 0, 11⟩
abbrev TS_EN_FALL : Fld := ⟨TS_EN, 16, 11⟩
/-- RC TSQ_LOST: Edges lost under R326 (14_station_time.md). -/
abbrev TSQ_LOST : Reg := 0x16004c
/-- RW TC_CTRL: Transparent clock (14_station_time.md). -/
abbrev TC_CTRL : Reg := 0x160050
abbrev TC_CTRL_EN : Fld := ⟨TC_CTRL, 0, 1⟩
abbrev TC_CTRL_MECH : Fld := ⟨TC_CTRL, 1, 1⟩
abbrev TC_CTRL_ONESTEP : Fld := ⟨TC_CTRL, 2, 1⟩
abbrev TC_CTRL_TRANS : Fld := ⟨TC_CTRL, 3, 2⟩
abbrev TC_CTRL_DOMAIN : Fld := ⟨TC_CTRL, 5, 8⟩
abbrev TC_CTRL_LOGPD : Fld := ⟨TC_CTRL, 13, 3⟩
/-- RW SLV_CTRL: Slave (14_station_time.md). -/
abbrev SLV_CTRL : Reg := 0x160054
abbrev SLV_CTRL_EN : Fld := ⟨SLV_CTRL, 0, 1⟩
abbrev SLV_CTRL_MECH : Fld := ⟨SLV_CTRL, 1, 1⟩
abbrev SLV_CTRL_TRANS : Fld := ⟨SLV_CTRL, 2, 2⟩
abbrev SLV_CTRL_DOMAIN : Fld := ⟨SLV_CTRL, 4, 8⟩
abbrev SLV_CTRL_ANN_TO : Fld := ⟨SLV_CTRL, 12, 4⟩
/-- RO SLV_STATUS: Slave state and master (14_station_time.md). -/
abbrev SLV_STATUS : Reg := 0x160058
abbrev SLV_STATUS_STATE : Fld := ⟨SLV_STATUS, 0, 3⟩
abbrev SLV_STATUS_CLASS : Fld := ⟨SLV_STATUS, 3, 8⟩
abbrev SLV_STATUS_STEPS : Fld := ⟨SLV_STATUS, 11, 16⟩
/-- RO SLV_OFFSET: Last offset, ns (14_station_time.md). -/
abbrev SLV_OFFSET : Reg := 0x16005c
/-- RO SLV_MPD: Mean path delay (14_station_time.md). -/
abbrev SLV_MPD : Reg := 0x160060
/-- RO SLV_GM_LO: Grandmaster identity [31:0] (14_station_time.md). -/
abbrev SLV_GM_LO : Reg := 0x160064
/-- RO SLV_GM_HI: Grandmaster identity [63:32] (14_station_time.md). -/
abbrev SLV_GM_HI : Reg := 0x160068
/-- RWL CLKID_LO: clockIdentity [31:0] (14_station_time.md). -/
abbrev CLKID_LO : Reg := 0x16006c
/-- RWL CLKID_HI: clockIdentity [63:32] (14_station_time.md). -/
abbrev CLKID_HI : Reg := 0x160070
/-- RW SRC_MAC_LO: Source MAC, bytes 2 to 5 (14_station_time.md). -/
abbrev SRC_MAC_LO : Reg := 0x160074
/-- RW SRC_MAC_HI: Source MAC, bytes 0 and 1 (14_station_time.md). -/
abbrev SRC_MAC_HI : Reg := 0x160078
/-- RW SRC_IP4: Source IPv4 address (14_station_time.md). -/
abbrev SRC_IP4 : Reg := 0x16007c
/-- RC TC_UNM: Unmatched two-step messages (R333) (14_station_time.md). -/
abbrev TC_UNM : Reg := 0x160080
/-- RC TC_DISC: Messages uncorrected or discarded (14_station_time.md). -/
abbrev TC_DISC : Reg := 0x160084
/-- RW SVCp_CTRL: Port p control (14_station_time.md). -/
abbrev SVC_CTRL (n : Nat) : Reg := 0x160100 + 0x20 * n
abbrev SVC_CTRL_EN (n : Nat) : Fld := ⟨SVC_CTRL n, 0, 1⟩
/-- RO SVCp_STATUS: Port p state (14_station_time.md). -/
abbrev SVC_STATUS (n : Nat) : Reg := 0x160104 + 0x20 * n
abbrev SVC_STATUS_UP (n : Nat) : Fld := ⟨SVC_STATUS n, 0, 1⟩
abbrev SVC_STATUS_PD_OK (n : Nat) : Fld := ⟨SVC_STATUS n, 1, 1⟩
/-- RW SVCp_RXDLY: Receive board delay, ps (14_station_time.md). -/
abbrev SVC_RXDLY (n : Nat) : Reg := 0x160108 + 0x20 * n
abbrev SVC_RXDLY_PS (n : Nat) : Fld := ⟨SVC_RXDLY n, 0, 16⟩
/-- RW SVCp_TXDLY: Transmit board delay, ps (14_station_time.md). -/
abbrev SVC_TXDLY (n : Nat) : Reg := 0x16010c + 0x20 * n
abbrev SVC_TXDLY_PS (n : Nat) : Fld := ⟨SVC_TXDLY n, 0, 16⟩
/-- RW SVCp_ASYM: Link asymmetry, signed ps (14_station_time.md). -/
abbrev SVC_ASYM (n : Nat) : Reg := 0x160110 + 0x20 * n
/-- RO SVCp_MLD: Mean link delay (14_station_time.md). -/
abbrev SVC_MLD (n : Nat) : Reg := 0x160114 + 0x20 * n
/-- RC SVCp_FWD: Frames forwarded out of port p (14_station_time.md). -/
abbrev SVC_FWD (n : Nat) : Reg := 0x160118 + 0x20 * n
/-- RC SVCp_DROP: Frames from port p discarded (R329) (14_station_time.md). -/
abbrev SVC_DROP (n : Nat) : Reg := 0x16011c + 0x20 * n
/-- RO TSLASTk: Last stamp of source k (14_station_time.md). -/
abbrev TSLAST (n : Nat) : Reg := 0x160200 + 0x4 * n
/-- RO CDSTATUS: Input delay bank in use (14_station_time.md). -/
abbrev CDSTATUS : Reg := 0x160300
abbrev CDSTATUS_BANK : Fld := ⟨CDSTATUS, 0, 1⟩
abbrev CDSTATUS_PEND : Fld := ⟨CDSTATUS, 1, 1⟩
/-- WO CDCOMMIT: Input delay bank change (14_station_time.md). -/
abbrev CDCOMMIT : Reg := 0x160304
/-- RW CD bank 0: Input delays (R338) (14_station_time.md). -/
abbrev CDBANK0 (n : Nat) : Reg := 0x161000 + 0x4 * n
/-- RW CD bank 1: Input delays (R338) (14_station_time.md). -/
abbrev CDBANK1 (n : Nat) : Reg := 0x161800 + 0x4 * n
end PTP

namespace CKG
/-- W1C STAT: Clock events (15_clocks.md). -/
abbrev STAT : Reg := 0x170000
abbrev STAT_REFUSED : Fld := ⟨STAT, 0, 1⟩
abbrev STAT_GATE_PEND : Fld := ⟨STAT, 1, 1⟩
abbrev STAT_TIMEOUT : Fld := ⟨STAT, 2, 1⟩
abbrev STAT_GATE_DONE : Fld := ⟨STAT, 3, 1⟩
abbrev STAT_SW_DONE : Fld := ⟨STAT, 4, 1⟩
abbrev STAT_FORCED_SWITCH : Fld := ⟨STAT, 5, 1⟩
abbrev STAT_SW_ABORT : Fld := ⟨STAT, 6, 1⟩
abbrev STAT_PLL_LOCK : Fld := ⟨STAT, 7, 1⟩
abbrev STAT_PLL_UNLOCK : Fld := ⟨STAT, 8, 1⟩
abbrev STAT_REF_LOST : Fld := ⟨STAT, 9, 1⟩
abbrev STAT_XTAL_READY : Fld := ⟨STAT, 10, 1⟩
abbrev STAT_XTAL_FAIL : Fld := ⟨STAT, 11, 1⟩
abbrev STAT_XTAL_LOST : Fld := ⟨STAT, 12, 1⟩
/-- RO READY: READY flags of every source (15_clocks.md). -/
abbrev READY : Reg := 0x170010
/-- RW AON: Always-on clock source and crystal (15_clocks.md). -/
abbrev AON : Reg := 0x170014
abbrev AON_SRC : Fld := ⟨AON, 0, 1⟩
abbrev AON_XRUN : Fld := ⟨AON, 1, 1⟩
abbrev AON_FORCED : Fld := ⟨AON, 3, 1⟩
/-- RW PLLk_CTRL: PLL enable and reference (15_clocks.md). -/
abbrev PLL_CTRL (n : Nat) : Reg := 0x170020 + 0x10 * n
abbrev PLL_CTRL_EN (n : Nat) : Fld := ⟨PLL_CTRL n, 0, 1⟩
abbrev PLL_CTRL_REFSEL (n : Nat) : Fld := ⟨PLL_CTRL n, 1, 1⟩
/-- RWL PLLk_CFG: PLL dividers (15_clocks.md). -/
abbrev PLL_CFG (n : Nat) : Reg := 0x170024 + 0x10 * n
/-- RW DOMk_SRC: Domain source and fallback (15_clocks.md). -/
abbrev DOM_SRC (n : Nat) : Reg := 0x170028 + 0x10 * n
abbrev DOM_SRC_SRC (n : Nat) : Fld := ⟨DOM_SRC n, 0, 2⟩
abbrev DOM_SRC_FALLBACK (n : Nat) : Fld := ⟨DOM_SRC n, 2, 1⟩
/-- RO DOMk_STATUS: Domain source in use and switch state (15_clocks.md). -/
abbrev DOM_STATUS (n : Nat) : Reg := 0x17002c + 0x10 * n
abbrev DOM_STATUS_CUR (n : Nat) : Fld := ⟨DOM_STATUS n, 0, 2⟩
abbrev DOM_STATUS_BUSY (n : Nat) : Fld := ⟨DOM_STATUS n, 2, 1⟩
abbrev DOM_STATUS_FORCED (n : Nat) : Fld := ⟨DOM_STATUS n, 3, 1⟩
abbrev DOM_STATUS_ABORT (n : Nat) : Fld := ⟨DOM_STATUS n, 4, 1⟩
abbrev DOM_STATUS_LAST_REFUSED (n : Nat) : Fld := ⟨DOM_STATUS n, 5, 1⟩
/-- WO GATE_CMD: Gate command (R352) (15_clocks.md). -/
abbrev GATE_CMD : Reg := 0x170060
/-- RO GATE_RES: Outcome of the last command (15_clocks.md). -/
abbrev GATE_RES : Reg := 0x170064
/-- RO GATE_OPEN: Open gates; 0x3FF8_6187 on the IZ4 (15_clocks.md). -/
abbrev GATE_OPEN : Reg := 0x170068
/-- RO GATE_PEND: Gates with a close pending (15_clocks.md). -/
abbrev GATE_PEND : Reg := 0x17006c
/-- RC FSW_CNT: Forced switches (15_clocks.md). -/
abbrev FSW_CNT : Reg := 0x170070
/-- RC GTO_CNT: Gate timeouts (15_clocks.md). -/
abbrev GTO_CNT : Reg := 0x170074
end CKG

namespace PWR
/-- W1C STAT: Power events (16_power_energy_thermal.md). -/
abbrev STAT : Reg := 0x180000
abbrev STAT_DOM_UP : Fld := ⟨STAT, 0, 1⟩
abbrev STAT_DOM_DOWN : Fld := ⟨STAT, 1, 1⟩
abbrev STAT_PD_FORCED : Fld := ⟨STAT, 2, 1⟩
abbrev STAT_ENTRY_REJ : Fld := ⟨STAT, 3, 1⟩
abbrev STAT_WOKE : Fld := ⟨STAT, 4, 1⟩
abbrev STAT_WAKE_RETRY : Fld := ⟨STAT, 5, 1⟩
abbrev STAT_WAKE_FAIL : Fld := ⟨STAT, 6, 1⟩
abbrev STAT_RET_BAD : Fld := ⟨STAT, 7, 1⟩
abbrev STAT_BROWNOUT : Fld := ⟨STAT, 8, 1⟩
/-- RW CTRL: Deep entry request (16_power_energy_thermal.md). -/
abbrev CTRL : Reg := 0x180010
abbrev CTRL_MODE : Fld := ⟨CTRL, 1, 1⟩
/-- RO STATUS: State and causes (16_power_energy_thermal.md). -/
abbrev STATUS : Reg := 0x180014
abbrev STATUS_STATE : Fld := ⟨STATUS, 0, 3⟩
abbrev STATUS_FAILSTEP : Fld := ⟨STATUS, 3, 3⟩
abbrev STATUS_ATTEMPTS : Fld := ⟨STATUS, 6, 2⟩
abbrev STATUS_CAUSE : Fld := ⟨STATUS, 8, 2⟩
abbrev STATUS_REG_LP : Fld := ⟨STATUS, 10, 1⟩
abbrev STATUS_HOLD : Fld := ⟨STATUS, 11, 1⟩
/-- RO DOM_ON: Powered domains; 0x0001_FE1F on the IZ4 (16_power_energy_thermal.md). -/
abbrev DOM_ON : Reg := 0x180018
/-- RO VETO: Vetoed domains (16_power_energy_thermal.md). -/
abbrev VETO : Reg := 0x18001c
/-- W1C RET_BAD: Invalid retention banks (16_power_energy_thermal.md). -/
abbrev RET_BAD : Reg := 0x180020
/-- RW VOTEd: Votes of domain d (16_power_energy_thermal.md). -/
abbrev VOTE (n : Nat) : Reg := 0x180100 + 0x4 * n
abbrev VOTE_HOST (n : Nat) : Fld := ⟨VOTE n, 0, 1⟩
abbrev VOTE_CLERK (n : Nat) : Fld := ⟨VOTE n, 1, 1⟩
/-- RO RETn_CRC: CRC of bank n at entry (16_power_energy_thermal.md). -/
abbrev RET_CRC (n : Nat) : Reg := 0x180200 + 0x4 * n
end PWR

namespace LED
/-- W1C STAT: Ledger events (16_power_energy_thermal.md). -/
abbrev STAT : Reg := 0x190000
abbrev STAT_SHED : Fld := ⟨STAT, 0, 1⟩
abbrev STAT_DEFER : Fld := ⟨STAT, 1, 1⟩
abbrev STAT_BRAKE : Fld := ⟨STAT, 2, 1⟩
abbrev STAT_LEDGER_DEFICIT : Fld := ⟨STAT, 3, 1⟩
abbrev STAT_METERED : Fld := ⟨STAT, 4, 1⟩
abbrev STAT_METER_VOID : Fld := ⟨STAT, 5, 1⟩
abbrev STAT_PMB_LOST : Fld := ⟨STAT, 6, 1⟩
/-- RW CTRL: Enable, metering, brake (16_power_energy_thermal.md). -/
abbrev CTRL : Reg := 0x190010
abbrev CTRL_EN : Fld := ⟨CTRL, 0, 1⟩
abbrev CTRL_BRAKE_EN : Fld := ⟨CTRL, 2, 1⟩
/-- RW CEIL_SW: Software ceiling, W (16_power_energy_thermal.md). -/
abbrev CEIL_SW : Reg := 0x190014
abbrev CEIL_SW_W : Fld := ⟨CEIL_SW, 0, 9⟩
/-- RW RESERVE: Reserve, W (16_power_energy_thermal.md). -/
abbrev RESERVE : Reg := 0x190018
abbrev RESERVE_W : Fld := ⟨RESERVE, 0, 6⟩
/-- RW MARGIN: Brake margin (16_power_energy_thermal.md). -/
abbrev MARGIN : Reg := 0x19001c
abbrev MARGIN_M : Fld := ⟨MARGIN, 0, 8⟩
/-- RO STATUS: Class, ceiling, step (16_power_energy_thermal.md). -/
abbrev STATUS : Reg := 0x190020
abbrev STATUS_CLASS : Fld := ⟨STATUS, 0, 9⟩
abbrev STATUS_CEIL : Fld := ⟨STATUS, 9, 13⟩
abbrev STATUS_TSTEP : Fld := ⟨STATUS, 22, 4⟩
abbrev STATUS_METERED : Fld := ⟨STATUS, 26, 1⟩
abbrev STATUS_BRAKE : Fld := ⟨STATUS, 27, 1⟩
/-- RO BASE: b, µJ per slot (16_power_energy_thermal.md). -/
abbrev BASE : Reg := 0x190024
/-- RWL COEF_LO: Coefficient table base [31:0] (16_power_energy_thermal.md). -/
abbrev COEF_LO : Reg := 0x190028
/-- RWL COEF_HI: Coefficient table base [47:32] (16_power_energy_thermal.md). -/
abbrev COEF_HI : Reg := 0x19002c
abbrev COEF_HI_ADDR : Fld := ⟨COEF_HI, 0, 16⟩
/-- RWL RPT_LO: Report region base [31:0] (16_power_energy_thermal.md). -/
abbrev RPT_LO : Reg := 0x190030
/-- RWL RPT_HI: Report region base [47:32] (16_power_energy_thermal.md). -/
abbrev RPT_HI : Reg := 0x190034
abbrev RPT_HI_ADDR : Fld := ⟨RPT_HI, 0, 16⟩
/-- RO MB_HEAD: Ledger frame report mailbox head (16_power_energy_thermal.md). -/
abbrev MB_HEAD : Reg := 0x190038
/-- RO MB_FRAME_LO: Frame of the latched report [31:0] (16_power_energy_thermal.md). -/
abbrev MB_FRAME_LO : Reg := 0x19003c
/-- RO MB_FRAME_HI: Frame of the latched report [63:32] (16_power_energy_thermal.md). -/
abbrev MB_FRAME_HI : Reg := 0x190040
/-- RC SHED_CNT: Entries shed (16_power_energy_thermal.md). -/
abbrev SHED_CNT : Reg := 0x190044
/-- RC DEFER_CNT: Entries deferred (16_power_energy_thermal.md). -/
abbrev DEFER_CNT : Reg := 0x190048
/-- RC BRAKE_CNT: Brake engagements (16_power_energy_thermal.md). -/
abbrev BRAKE_CNT : Reg := 0x19004c
/-- RC DEFICIT_CNT: Frames in deficit (16_power_energy_thermal.md). -/
abbrev DEFICIT_CNT : Reg := 0x190050
/-- RW RAILr_CFG: PMBus source of rail r (16_power_energy_thermal.md). -/
abbrev RAIL_CFG (n : Nat) : Reg := 0x190100 + 0x8 * n
abbrev RAIL_CFG_ADDR (n : Nat) : Fld := ⟨RAIL_CFG n, 0, 7⟩
abbrev RAIL_CFG_EN (n : Nat) : Fld := ⟨RAIL_CFG n, 7, 1⟩
abbrev RAIL_CFG_PAGE (n : Nat) : Fld := ⟨RAIL_CFG n, 8, 8⟩
/-- RO RAILr_CORR: Correction factor of rail r (16_power_energy_thermal.md). -/
abbrev RAIL_CORR (n : Nat) : Reg := 0x190104 + 0x8 * n
abbrev RAIL_CORR_F (n : Nat) : Fld := ⟨RAIL_CORR n, 0, 16⟩
end LED

namespace THM
/-- W1C STAT: Thermal events (16_power_energy_thermal.md). -/
abbrev STAT : Reg := 0x1a0000
abbrev STAT_STEP_UP : Fld := ⟨STAT, 0, 1⟩
abbrev STAT_STEP_DOWN : Fld := ⟨STAT, 1, 1⟩
abbrev STAT_BROKEN : Fld := ⟨STAT, 2, 1⟩
abbrev STAT_ACKED : Fld := ⟨STAT, 3, 1⟩
abbrev STAT_ACK_REJ : Fld := ⟨STAT, 4, 1⟩
/-- RW CTRL: Thresholds and floor (16_power_energy_thermal.md). -/
abbrev CTRL : Reg := 0x1a0010
abbrev CTRL_T_HOT : Fld := ⟨CTRL, 0, 8⟩
abbrev CTRL_T_COOL : Fld := ⟨CTRL, 8, 8⟩
abbrev CTRL_FLOOR : Fld := ⟨CTRL, 16, 4⟩
/-- RO STATUS: Hold and log state (16_power_energy_thermal.md). -/
abbrev STATUS : Reg := 0x1a0014
/-- RO STEP: k_d of every die (16_power_energy_thermal.md). -/
abbrev STEP : Reg := 0x1a0018
/-- RO BROKEN: Broken sensors (16_power_energy_thermal.md). -/
abbrev BROKEN : Reg := 0x1a001c
abbrev BROKEN_SENSORS : Fld := ⟨BROKEN, 0, 28⟩
/-- RO MAXT: Hottest reading (16_power_energy_thermal.md). -/
abbrev MAXT : Reg := 0x1a0020
abbrev MAXT_T : Fld := ⟨MAXT, 0, 16⟩
abbrev MAXT_SENSOR : Fld := ⟨MAXT, 16, 5⟩
/-- RW LOG_IDX: Log entry selected (16_power_energy_thermal.md). -/
abbrev LOG_IDX : Reg := 0x1a0024
/-- RO LOG_LO: Selected entry [31:0] (16_power_energy_thermal.md). -/
abbrev LOG_LO : Reg := 0x1a0028
/-- RO LOG_HI: Selected entry [63:32] (16_power_energy_thermal.md). -/
abbrev LOG_HI : Reg := 0x1a002c
/-- WO ACK: Trip acknowledgement (R386) (16_power_energy_thermal.md). -/
abbrev ACK : Reg := 0x1a0030
/-- RO SENSs: Sensor s (16_power_energy_thermal.md). -/
abbrev SENS (n : Nat) : Reg := 0x1a0100 + 0x4 * n
abbrev SENS_T (n : Nat) : Fld := ⟨SENS n, 0, 16⟩
abbrev SENS_BROKEN (n : Nat) : Fld := ⟨SENS n, 16, 1⟩
abbrev SENS_WHY (n : Nat) : Fld := ⟨SENS n, 17, 2⟩
end THM

namespace CFG
/-- W1C STAT: Configuration events (17_images_boot.md). -/
abbrev STAT : Reg := 0x010000
abbrev STAT_IMG_LOADED : Fld := ⟨STAT, 0, 1⟩
abbrev STAT_IMG_REJ : Fld := ⟨STAT, 1, 1⟩
abbrev STAT_BOOT_FAIL : Fld := ⟨STAT, 2, 1⟩
abbrev STAT_LOAD_REFUSED : Fld := ⟨STAT, 3, 1⟩
abbrev STAT_LOCKED : Fld := ⟨STAT, 4, 1⟩
abbrev STAT_PART_CLOSED : Fld := ⟨STAT, 5, 1⟩
abbrev STAT_PART_RELOADED : Fld := ⟨STAT, 6, 1⟩
abbrev STAT_PART_OPENED : Fld := ⟨STAT, 7, 1⟩
abbrev STAT_PART_FAIL : Fld := ⟨STAT, 8, 1⟩
abbrev STAT_TAKEOVER : Fld := ⟨STAT, 9, 1⟩
abbrev STAT_CUPD_HALTED : Fld := ⟨STAT, 10, 1⟩
abbrev STAT_CUPD_DONE : Fld := ⟨STAT, 11, 1⟩
abbrev STAT_CAST_DONE : Fld := ⟨STAT, 12, 1⟩
abbrev STAT_INCOMPLETE : Fld := ⟨STAT, 13, 1⟩
/-- RO STATUS: Loader state, lock, source (17_images_boot.md). -/
abbrev STATUS : Reg := 0x010010
abbrev STATUS_STATE : Fld := ⟨STATUS, 0, 3⟩
abbrev STATUS_LOCKED : Fld := ⟨STATUS, 3, 1⟩
abbrev STATUS_SRC : Fld := ⟨STATUS, 4, 2⟩
/-- RO STRAP: Sampled straps (R395) (17_images_boot.md). -/
abbrev STRAP : Reg := 0x010014
abbrev STRAP_BOOT_SRC : Fld := ⟨STRAP, 1, 2⟩
/-- W1S LOCK: Boot lock (R399) (17_images_boot.md). -/
abbrev LOCK : Reg := 0x010018
/-- RWL STAGE_LO: Staging base [31:0] (17_images_boot.md). -/
abbrev STAGE_LO : Reg := 0x01001c
/-- RWL STAGE_HI: Staging base [47:32] (17_images_boot.md). -/
abbrev STAGE_HI : Reg := 0x010020
abbrev STAGE_HI_ADDR : Fld := ⟨STAGE_HI, 0, 16⟩
/-- RW STAGE_LEN: Bytes staged by the host (17_images_boot.md). -/
abbrev STAGE_LEN : Reg := 0x010024
abbrev STAGE_LEN_BYTES : Fld := ⟨STAGE_LEN, 0, 29⟩
/-- RW LOAD: Load command (17_images_boot.md). -/
abbrev LOAD : Reg := 0x010028
/-- RO LOAD_RES: Outcome of the last load (17_images_boot.md). -/
abbrev LOAD_RES : Reg := 0x01002c
abbrev LOAD_RES_RESULT : Fld := ⟨LOAD_RES, 0, 2⟩
abbrev LOAD_RES_REASON : Fld := ⟨LOAD_RES, 2, 5⟩
/-- W1S OPEN: Reopen a held die (17_images_boot.md). -/
abbrev OPEN : Reg := 0x010030
/-- RO PART: Stall-die change state (17_images_boot.md). -/
abbrev PART : Reg := 0x010034
/-- RO CBELL_LO: Change bell [31:0]; a read latches CBELL_HI (17_images_boot.md). -/
abbrev CBELL_LO : Reg := 0x010038
/-- RO CBELL_HI: Change bell [63:32], as latched (17_images_boot.md). -/
abbrev CBELL_HI : Reg := 0x01003c
/-- RO IMG_VER: VERSION of the full image in force (17_images_boot.md). -/
abbrev IMG_VER : Reg := 0x010040
/-- RO CLE_LIVE: Live clerk cores (R406) (17_images_boot.md). -/
abbrev CLE_LIVE : Reg := 0x010044
/-- RW CAST: Cast control (R397) (17_images_boot.md). -/
abbrev CAST : Reg := 0x010048
abbrev CAST_GO : Fld := ⟨CAST, 0, 1⟩
abbrev CAST_ACTIVE : Fld := ⟨CAST, 1, 1⟩
/-- RO CAST_PROG: Cast progress (17_images_boot.md). -/
abbrev CAST_PROG : Reg := 0x01004c
/-- RC REJ_CNT: Images rejected (17_images_boot.md). -/
abbrev REJ_CNT : Reg := 0x010050
end CFG

namespace SEC
/-- W1C STAT: Security events (18_security.md). -/
abbrev STAT : Reg := 0x020000
abbrev STAT_VIOL : Fld := ⟨STAT, 0, 1⟩
abbrev STAT_ALARM : Fld := ⟨STAT, 1, 1⟩
abbrev STAT_ERASED : Fld := ⟨STAT, 2, 1⟩
abbrev STAT_CMD_DONE : Fld := ⟨STAT, 3, 1⟩
abbrev STAT_CMD_REF : Fld := ⟨STAT, 4, 1⟩
abbrev STAT_ATT_DONE : Fld := ⟨STAT, 5, 1⟩
abbrev STAT_POL_REJ : Fld := ⟨STAT, 6, 1⟩
abbrev STAT_RECOV_REJ : Fld := ⟨STAT, 7, 1⟩
/-- RO STATUS: State, slots, recovery (18_security.md). -/
abbrev STATUS : Reg := 0x020010
abbrev STATUS_STATE : Fld := ⟨STATUS, 0, 3⟩
abbrev STATUS_RECOVERY : Fld := ⟨STATUS, 3, 1⟩
/-- RW CMD: Command (R418) (18_security.md). -/
abbrev CMD : Reg := 0x020014
/-- RO CMD_RES: Outcome of the last command (18_security.md). -/
abbrev CMD_RES : Reg := 0x020018
abbrev CMD_RES_CODE : Fld := ⟨CMD_RES, 6, 4⟩
/-- RW ARG: Command argument (18_security.md). -/
abbrev ARG : Reg := 0x02001c
/-- RW POLICY: Sensor policies (R419) (18_security.md). -/
abbrev POLICY : Reg := 0x020020
/-- RO VIOL: Sensors firing now (18_security.md). -/
abbrev VIOL : Reg := 0x020024
abbrev VIOL_SENSORS : Fld := ⟨VIOL, 0, 12⟩
/-- RC VIOL_CNT: Sensor firings (18_security.md). -/
abbrev VIOL_CNT : Reg := 0x020028
/-- RW VLOG_IDX: Violation-log entry selected (18_security.md). -/
abbrev VLOG_IDX : Reg := 0x02002c
abbrev VLOG_IDX_IDX : Fld := ⟨VLOG_IDX, 0, 6⟩
abbrev VLOG_IDX_NEXT : Fld := ⟨VLOG_IDX, 8, 6⟩
/-- RO VLOG_LO: Selected entry [31:0] (18_security.md). -/
abbrev VLOG_LO : Reg := 0x020030
/-- RO VLOG_HI: Selected entry [63:32] (18_security.md). -/
abbrev VLOG_HI : Reg := 0x020034
/-- RO EPOCH: Security epoch (R413) (18_security.md). -/
abbrev EPOCH : Reg := 0x020038
/-- RW NONCEk: Nonce word k, k = 0 to 7 (18_security.md). -/
abbrev NONCE (n : Nat) : Reg := 0x020040 + 0x4 * n
/-- RWL RPT_LO: Report base [31:0] (18_security.md). -/
abbrev RPT_LO : Reg := 0x020060
/-- RWL RPT_HI: Report base [47:32] (18_security.md). -/
abbrev RPT_HI : Reg := 0x020064
abbrev RPT_HI_ADDR : Fld := ⟨RPT_HI, 0, 16⟩
/-- RW BUF_LO: Provisioning buffer [31:0] (18_security.md). -/
abbrev BUF_LO : Reg := 0x020068
/-- RW BUF_HI: Provisioning buffer [47:32] (18_security.md). -/
abbrev BUF_HI : Reg := 0x02006c
abbrev BUF_HI_ADDR : Fld := ⟨BUF_HI, 0, 16⟩
end SEC

namespace MTX
/-- W1C STAT: Matrix events (19_control_plane.md). -/
abbrev STAT : Reg := 0x1b0000
abbrev STAT_DRAINED : Fld := ⟨STAT, 0, 1⟩
abbrev STAT_ABANDON : Fld := ⟨STAT, 1, 1⟩
abbrev STAT_TMO : Fld := ⟨STAT, 2, 1⟩
abbrev STAT_ERR_RESP : Fld := ⟨STAT, 3, 1⟩
abbrev STAT_ROUTE_REJ : Fld := ⟨STAT, 4, 1⟩
abbrev STAT_FL_DONE : Fld := ⟨STAT, 5, 1⟩
abbrev STAT_FL_REJ : Fld := ⟨STAT, 6, 1⟩
abbrev STAT_OUT_FULL : Fld := ⟨STAT, 7, 1⟩
/-- RW MRST: Master resets (R430) (19_control_plane.md). -/
abbrev MRST : Reg := 0x1b0010
abbrev MRST_MASTERS : Fld := ⟨MRST, 0, 12⟩
/-- RO MSTAT: Drained masters (19_control_plane.md). -/
abbrev MSTAT : Reg := 0x1b0014
/-- RW TMO: Target timeout (19_control_plane.md). -/
abbrev TMO : Reg := 0x1b0018
abbrev TMO_US : Fld := ⟨TMO, 0, 16⟩
/-- RO OUT_USE: Transactions outstanding (19_control_plane.md). -/
abbrev OUT_USE : Reg := 0x1b001c
/-- RC ERR_ADDR_LO: Error address [31:0] (19_control_plane.md). -/
abbrev ERR_ADDR_LO : Reg := 0x1b0020
/-- RO ERR_ADDR_HI: Error address [47:32] and master (19_control_plane.md). -/
abbrev ERR_ADDR_HI : Reg := 0x1b0024
abbrev ERR_ADDR_HI_ADDR : Fld := ⟨ERR_ADDR_HI, 0, 16⟩
abbrev ERR_ADDR_HI_MASTER : Fld := ⟨ERR_ADDR_HI, 16, 4⟩
abbrev ERR_ADDR_HI_WRITE : Fld := ⟨ERR_ADDR_HI, 20, 1⟩
/-- RC ABANDON_CNT: Transactions abandoned (R431) (19_control_plane.md). -/
abbrev ABANDON_CNT : Reg := 0x1b0028
/-- RW FL_ADDR: Flash address (19_control_plane.md). -/
abbrev FL_ADDR : Reg := 0x1b002c
/-- RW FL_DATA: Flash data (19_control_plane.md). -/
abbrev FL_DATA : Reg := 0x1b0030
/-- RW FL_CMD: Flash command (19_control_plane.md). -/
abbrev FL_CMD : Reg := 0x1b0034
abbrev FL_CMD_OP : Fld := ⟨FL_CMD, 0, 2⟩
abbrev FL_CMD_BUSY : Fld := ⟨FL_CMD, 3, 1⟩
/-- RW PRIm_LO: Priorities at targets 0 to 7 (19_control_plane.md). -/
abbrev PRI_LO (n : Nat) : Reg := 0x1b0100 + 0x10 * n
/-- RW PRIm_HI: Priorities at targets 8 and 9 (19_control_plane.md). -/
abbrev PRI_HI (n : Nat) : Reg := 0x1b0104 + 0x10 * n
/-- RW OUTm: Outstanding limit (19_control_plane.md). -/
abbrev OUT (n : Nat) : Reg := 0x1b0108 + 0x10 * n
abbrev OUT_MAX (n : Nat) : Fld := ⟨OUT n, 0, 14⟩
/-- RW EVRd: Event route of destination d (19_control_plane.md). -/
abbrev EVR (n : Nat) : Reg := 0x1b0400 + 0x4 * n
end MTX

namespace POR
/-- W1C STAT: Porter events (19_control_plane.md). -/
abbrev STAT : Reg := 0x1c0000
abbrev STAT_DESC_ERR : Fld := ⟨STAT, 0, 1⟩
abbrev STAT_XFER_ERR : Fld := ⟨STAT, 1, 1⟩
abbrev STAT_TRIG_LOST : Fld := ⟨STAT, 2, 1⟩
/-- RC TRIG_LOST_CNT: Triggers lost (R437) (19_control_plane.md). -/
abbrev TRIG_LOST_CNT : Reg := 0x1c0010
/-- RW CHc_CTRL: Channel enable (19_control_plane.md). -/
abbrev CH_CTRL (n : Nat) : Reg := 0x1c0100 + 0x10 * n
abbrev CH_CTRL_EN (n : Nat) : Fld := ⟨CH_CTRL n, 0, 1⟩
/-- RW CHc_DESC_LO: First descriptor [31:0] (19_control_plane.md). -/
abbrev CH_DESC_LO (n : Nat) : Reg := 0x1c0104 + 0x10 * n
/-- RW CHc_DESC_HI: First descriptor [47:32] (19_control_plane.md). -/
abbrev CH_DESC_HI (n : Nat) : Reg := 0x1c0108 + 0x10 * n
abbrev CH_DESC_HI_ADDR (n : Nat) : Fld := ⟨CH_DESC_HI n, 0, 16⟩
/-- RO CHc_STATUS: Error cause (19_control_plane.md). -/
abbrev CH_STATUS (n : Nat) : Reg := 0x1c010c + 0x10 * n
abbrev CH_STATUS_ERR (n : Nat) : Fld := ⟨CH_STATUS n, 0, 2⟩
/-- RO CHc_CNT: Bytes read under the current descriptor (19_control_plane.md). -/
abbrev CH_CNT (n : Nat) : Reg := 0x1c0400 + 0x4 * n
end POR

namespace PMC
/-- W1C STAT: Counter events (19_control_plane.md). -/
abbrev STAT : Reg := 0x1d0000
abbrev STAT_RECORD : Fld := ⟨STAT, 0, 1⟩
abbrev STAT_MISSED : Fld := ⟨STAT, 1, 1⟩
/-- RW CTRL: Enable and window (19_control_plane.md). -/
abbrev CTRL : Reg := 0x1d0010
abbrev CTRL_EN : Fld := ⟨CTRL, 0, 1⟩
abbrev CTRL_K : Fld := ⟨CTRL, 7, 5⟩
/-- RW BASE_LO: Record region [31:0] (19_control_plane.md). -/
abbrev BASE_LO : Reg := 0x1d0014
/-- RW BASE_HI: Record region [47:32] (19_control_plane.md). -/
abbrev BASE_HI : Reg := 0x1d0018
abbrev BASE_HI_ADDR : Fld := ⟨BASE_HI, 0, 16⟩
/-- RW NREC: Records in the region (19_control_plane.md). -/
abbrev NREC : Reg := 0x1d001c
abbrev NREC_COUNT : Fld := ⟨NREC, 0, 16⟩
/-- RO SEQ: SEQ of the last record written (19_control_plane.md). -/
abbrev SEQ : Reg := 0x1d0020
/-- W1C OVFb: Overflow bits of block b (19_control_plane.md). -/
abbrev OVF (n : Nat) : Reg := 0x1d0100 + 0x4 * n
/-- RW CNTb_i: Counter i of block b (19_control_plane.md). -/
abbrev CNT (n : Nat) : Reg := 0x1d1000 + 0x4 * n
end PMC

namespace PCI
/-- W1C STAT: Link events (19_control_plane.md). -/
abbrev STAT : Reg := 0x1e0000
abbrev STAT_LINK_UP : Fld := ⟨STAT, 0, 1⟩
abbrev STAT_LINK_DOWN : Fld := ⟨STAT, 1, 1⟩
abbrev STAT_FLR : Fld := ⟨STAT, 2, 1⟩
abbrev STAT_WR_ERR : Fld := ⟨STAT, 3, 1⟩
abbrev STAT_RD_ERR : Fld := ⟨STAT, 4, 1⟩
/-- RO LINK: Link state (19_control_plane.md). -/
abbrev LINK : Reg := 0x1e0014
abbrev LINK_UP : Fld := ⟨LINK, 0, 1⟩
abbrev LINK_SPEED : Fld := ⟨LINK, 1, 3⟩
abbrev LINK_WIDTH : Fld := ⟨LINK, 4, 3⟩
/-- RWL WIN: BAR2 size (19_control_plane.md). -/
abbrev WIN : Reg := 0x1e0018
abbrev WIN_SIZE : Fld := ⟨WIN, 0, 6⟩
/-- RW WINBASE_LO: BAR2 target base [31:0] (19_control_plane.md). -/
abbrev WINBASE_LO : Reg := 0x1e001c
/-- RW WINBASE_HI: BAR2 target base [47:32] (19_control_plane.md). -/
abbrev WINBASE_HI : Reg := 0x1e0020
abbrev WINBASE_HI_ADDR : Fld := ⟨WINBASE_HI, 0, 16⟩
end PCI

def belRows0 : List RegRow := [
  ⟨0x0000, 0x4, 1, 0x0, 0x0, 0xfff, 0x0, 0x0, 0x0, 0x0⟩, /- STAT -/
  ⟨0x0004, 0x4, 1, 0xffffffff, 0x0, 0x0, 0x0, 0x0, 0x0, 0x0⟩, /- MASK -/
  ⟨0x0008, 0x4, 1, 0x0, 0x0, 0x0, 0x0, 0x0, 0x0, 0x0⟩, /- CAUSE -/
  ⟨0x0010, 0x4, 1, 0x1, 0x0, 0x0, 0x0, 0x0, 0x0, 0x0⟩, /- CTRL -/
  ⟨0x0014, 0x4, 1, 0x0, 0x0, 0x0, 0x0, 0x0, 0x0, 0x0⟩, /- STATUS -/
  ⟨0x0018, 0x4, 1, 0x3fffffff, 0x0, 0x0, 0x0, 0x0, 0x0, 0x0⟩, /- T0_NS -/
  ⟨0x001c, 0x4, 1, 0xffffffff, 0x0, 0x0, 0x0, 0x0, 0x0, 0x0⟩, /- T0_SEC_LO -/
  ⟨0x0020, 0x4, 1, 0xffff, 0x0, 0x0, 0x0, 0x0, 0x0, 0x0⟩, /- T0_SEC_HI -/
  ⟨0x0024, 0x4, 1, 0x0, 0xffff, 0x0, 0x0, 0x0, 0x0, 0x0⟩, /- FLEN_FRAC -/
  ⟨0x0028, 0x4, 1, 0x0, 0xffffffff, 0x0, 0x0, 0x0, 0x0, 0x0⟩, /- FLEN_LO -/
  ⟨0x002c, 0x4, 1, 0x0, 0xffff, 0x0, 0x0, 0x0, 0x0, 0x0⟩, /- FLEN_HI -/
  ⟨0x0030, 0x4, 1, 0x0, 0x0, 0x0, 0x0, 0x0, 0x0, 0x0⟩, /- BELL_LO -/
  ⟨0x0034, 0x4, 1, 0x0, 0x0, 0x0, 0x0, 0x0, 0x0, 0x0⟩, /- BELL_HI -/
  ⟨0x0038, 0x4, 1, 0x0, 0x0, 0x0, 0x0, 0x0, 0x0, 0x0⟩, /- OFFSET -/
  ⟨0x003c, 0x4, 1, 0xffff, 0x0, 0x0, 0x0, 0x0, 0x0, 0x4082⟩, /- LOOP -/
  ⟨0x0040, 0x4, 1, 0xfff, 0x0, 0x0, 0x0, 0x0, 0x0, 0x29⟩, /- BELL_OUT -/
  ⟨0x0044, 0x4, 1, 0x0, 0x0, 0x0, 0x0, 0xffffffff, 0x0, 0x0⟩, /- SHORT_CNT -/
  ⟨0x0048, 0x4, 6, 0x0, 0x0, 0x0, 0x0, 0xffffffff, 0x0, 0x0⟩, /- SKIP0 to SKIP5 -/
  ⟨0x0060, 0x4, 1, 0x0, 0x0, 0x0, 0x0, 0x0, 0x0, 0x0⟩ /- SCHED_ID -/]
/-- The register table of block BEL. -/
def belRows : List RegRow := belRows0

def ingRows0 : List RegRow := [
  ⟨0x0000, 0x4, 1, 0x0, 0x0, 0x3ff, 0x0, 0x0, 0x0, 0x0⟩, /- STAT -/
  ⟨0x0004, 0x4, 1, 0xffffffff, 0x0, 0x0, 0x0, 0x0, 0x0, 0x0⟩, /- MASK -/
  ⟨0x0008, 0x4, 1, 0x0, 0x0, 0x0, 0x0, 0x0, 0x0, 0x0⟩, /- CAUSE -/
  ⟨0x0010, 0x4, 1, 0x3, 0x0, 0x0, 0x0, 0x0, 0x0, 0x1⟩, /- CTRL -/
  ⟨0x0014, 0x4, 1, 0x0, 0xffffffff, 0x0, 0x0, 0x0, 0x0, 0x0⟩, /- RATE -/
  ⟨0x0018, 0x4, 1, 0x0, 0x3fffffff, 0x0, 0x0, 0x0, 0x0, 0x0⟩, /- EPOCH_NS -/
  ⟨0x001c, 0x4, 1, 0x0, 0xffffffff, 0x0, 0x0, 0x0, 0x0, 0x0⟩, /- EPOCH_SEC_LO -/
  ⟨0x0020, 0x4, 1, 0x0, 0xffff, 0x0, 0x0, 0x0, 0x0, 0x0⟩, /- EPOCH_SEC_HI -/
  ⟨0x0024, 0x4, 1, 0x0, 0x7fff, 0x0, 0x0, 0x0, 0x0, 0xfa0⟩, /- LATENCY -/
  ⟨0x0030, 0x4, 1, 0x0, 0x0, 0x0, 0x0, 0x0, 0x0, 0x0⟩, /- LOCK0 -/
  ⟨0x0034, 0x4, 1, 0x0, 0x0, 0x0, 0x0, 0x0, 0x0, 0x0⟩, /- LOCK1 -/
  ⟨0x0038, 0x4, 1, 0x0, 0x0, 0x0, 0x0, 0x0, 0x0, 0x0⟩, /- LOCK2 -/
  ⟨0x003c, 0x4, 1, 0x0, 0x0, 0x0, 0x0, 0x0, 0x0, 0x0⟩, /- GRP_FLAG -/
  ⟨0x0100, 0x10, 80, 0x1ff, 0x0, 0x0, 0x200, 0x0, 0x0, 0x46⟩, /- LANEn_CTRL -/
  ⟨0x0104, 0x10, 80, 0x0, 0x0, 0x0, 0x0, 0x0, 0x0, 0x2⟩, /- LANEn_STATUS -/
  ⟨0x0108, 0x10, 80, 0x0, 0x0, 0x0, 0x0, 0xffffffff, 0x0, 0x0⟩, /- LANEn_ERR -/
  ⟨0x0800, 0x20, 32, 0x0, 0x1fffffff, 0x0, 0x0, 0x0, 0x0, 0x0⟩, /- GRPg_CFG -/
  ⟨0x0804, 0x20, 32, 0x7, 0x0, 0x0, 0x0, 0x0, 0x0, 0x2⟩, /- GRPg_CTRL -/
  ⟨0x0808, 0x20, 32, 0x0, 0x0, 0x0, 0x0, 0xffffffff, 0x0, 0x0⟩, /- GRPg_GOOD -/
  ⟨0x080c, 0x20, 32, 0x0, 0x0, 0x0, 0x0, 0xffffffff, 0x0, 0x0⟩, /- GRPg_BAD -/
  ⟨0x0810, 0x20, 32, 0x0, 0x0, 0x0, 0x0, 0xffffffff, 0x0, 0x0⟩, /- GRPg_FLAGGED -/
  ⟨0x0814, 0x20, 32, 0x0, 0x0, 0x0, 0x0, 0x0, 0x0, 0x0⟩, /- GRPg_LAST_LO -/
  ⟨0x0818, 0x20, 32, 0x0, 0x0, 0x0, 0x0, 0x0, 0x0, 0x0⟩, /- GRPg_LAST_HI -/
  ⟨0x081c, 0x20, 32, 0x0, 0x1fff, 0x0, 0x0, 0x0, 0x0, 0x0⟩ /- GRPg_LEN -/]
/-- The register table of block ING. -/
def ingRows : List RegRow := ingRows0

def fflRows0 : List RegRow := [
  ⟨0x0000, 0x4, 1, 0x0, 0x0, 0x7fff, 0x0, 0x0, 0x0, 0x0⟩, /- STAT -/
  ⟨0x0004, 0x4, 1, 0xffffffff, 0x0, 0x0, 0x0, 0x0, 0x0, 0x0⟩, /- MASK -/
  ⟨0x0008, 0x4, 1, 0x0, 0x0, 0x0, 0x0, 0x0, 0x0, 0x0⟩, /- CAUSE -/
  ⟨0x0010, 0x4, 1, 0x0, 0x3ffff, 0x0, 0x0, 0x0, 0x0, 0x0⟩, /- LAG -/
  ⟨0x0014, 0x4, 1, 0x7fffff, 0x0, 0x0, 0x0, 0x0, 0x0, 0xc⟩, /- DET -/
  ⟨0x0018, 0x4, 1, 0xffffffff, 0x0, 0x0, 0x0, 0x0, 0x0, 0x0⟩, /- NCO_RST_LO -/
  ⟨0x001c, 0x4, 1, 0xffffffff, 0x0, 0x0, 0x0, 0x0, 0x0, 0x0⟩, /- NCO_RST_HI -/
  ⟨0x0020, 0x4, 1, 0x0, 0x0, 0x0, 0x1, 0x0, 0x0, 0x0⟩, /- NCO_CMD -/
  ⟨0x0024, 0x4, 1, 0x0, 0x0, 0x0, 0x0, 0x0, 0xffffffff, 0x0⟩, /- PCOMMIT -/
  ⟨0x0028, 0x4, 1, 0x0, 0x0, 0x0, 0x0, 0x0, 0x0, 0x0⟩, /- PSTATUS -/
  ⟨0x002c, 0x4, 1, 0xffffffff, 0x0, 0x0, 0x0, 0x0, 0x0, 0x0⟩, /- SWAP_LO -/
  ⟨0x0030, 0x4, 1, 0xffffffff, 0x0, 0x0, 0x0, 0x0, 0x0, 0x0⟩, /- SWAP_HI -/
  ⟨0x0034, 0x4, 1, 0x7f, 0x0, 0x0, 0x80, 0x0, 0x0, 0x0⟩, /- SWAP_CMD -/
  ⟨0x0038, 0x4, 1, 0x7f, 0x0, 0x0, 0x0, 0x0, 0x0, 0x0⟩, /- CSEL -/
  ⟨0x003c, 0x4, 1, 0x7fff, 0x0, 0x0, 0x0, 0x0, 0x0, 0x0⟩, /- CADDR -/
  ⟨0x0040, 0x4, 1, 0x3ffff, 0x0, 0x0, 0x0, 0x0, 0x0, 0x0⟩, /- CDATA -/
  ⟨0x0044, 0x4, 1, 0x0, 0x0, 0x0, 0x0, 0xffffffff, 0x0, 0x0⟩, /- SAT_CNT -/
  ⟨0x0048, 0x4, 1, 0x0, 0x0, 0x0, 0x0, 0xffffffff, 0x0, 0x0⟩, /- RANGE_CNT -/
  ⟨0x004c, 0x4, 1, 0x0, 0x0, 0x0, 0x0, 0xffffffff, 0x0, 0x0⟩, /- ESC_CNT -/
  ⟨0x0050, 0x4, 1, 0x0, 0x0, 0x0, 0x0, 0x0, 0x0, 0x0⟩, /- EVT_IN -/
  ⟨0x0054, 0x4, 1, 0x0, 0x0, 0x0, 0x0, 0x0, 0x0, 0x0⟩, /- EVT_LO -/
  ⟨0x0058, 0x4, 1, 0x0, 0x0, 0x0, 0x0, 0x0, 0x0, 0x0⟩, /- EVT_HI -/
  ⟨0x0400, 0x10, 32, 0x0, 0x3ff, 0x0, 0x0, 0x0, 0x0, 0x204⟩, /- GRPg_CHAIN -/
  ⟨0x0404, 0x10, 32, 0x0, 0xffffffff, 0x0, 0x0, 0x0, 0x0, 0x0⟩ /- GRPg_RATIO -/]
def fflRows1 : List RegRow := [
  ⟨0x0408, 0x10, 32, 0x0, 0x0, 0x0, 0x0, 0x0, 0x0, 0x0⟩, /- GRPg_BANK -/
  ⟨0x040c, 0x10, 32, 0x3, 0x0, 0x0, 0x4, 0x0, 0x0, 0x0⟩, /- GRPg_DC -/
  ⟨0x1000, 0x20, 128, 0xffffffff, 0x0, 0x0, 0x0, 0x0, 0x0, 0x0⟩, /- INi_FW -/
  ⟨0x1004, 0x20, 128, 0xffffffff, 0x0, 0x0, 0x0, 0x0, 0x0, 0x0⟩, /- INi_PHASE0 -/
  ⟨0x1008, 0x20, 128, 0x3f, 0x0, 0x0, 0x0, 0x0, 0x0, 0x10⟩, /- INi_CFG -/
  ⟨0x100c, 0x20, 128, 0xffffffff, 0x0, 0x0, 0x0, 0x0, 0x0, 0xffffffff⟩, /- INi_THA -/
  ⟨0x1010, 0x20, 128, 0xffffffff, 0x0, 0x0, 0x0, 0x0, 0x0, 0x0⟩, /- INi_THB -/
  ⟨0x1014, 0x20, 128, 0x0, 0x0, 0x0, 0x0, 0xffffffff, 0x0, 0x0⟩, /- INi_CNTA -/
  ⟨0x1018, 0x20, 128, 0x0, 0x0, 0x0, 0x0, 0xffffffff, 0x0, 0x0⟩, /- INi_CNTB -/
  ⟨0x101c, 0x20, 128, 0x0, 0x0, 0x0, 0x0, 0x0, 0x0, 0x0⟩, /- INi_MEAN -/
  ⟨0x4000, 0x4, 2048, 0xffffffff, 0x0, 0x0, 0x0, 0x0, 0x0, 0x0⟩, /- Page 0 -/
  ⟨0x6000, 0x4, 2048, 0xffffffff, 0x0, 0x0, 0x0, 0x0, 0x0, 0x0⟩ /- Page 1 -/]
/-- The register table of block FFL. -/
def fflRows : List RegRow := fflRows0 ++ fflRows1

def chnRows0 : List RegRow := [
  ⟨0x0000, 0x4, 1, 0x0, 0x0, 0x1fff, 0x0, 0x0, 0x0, 0x0⟩, /- STAT -/
  ⟨0x0004, 0x4, 1, 0xffffffff, 0x0, 0x0, 0x0, 0x0, 0x0, 0x0⟩, /- MASK -/
  ⟨0x0008, 0x4, 1, 0x0, 0x0, 0x0, 0x0, 0x0, 0x0, 0x0⟩, /- CAUSE -/
  ⟨0x0010, 0x4, 1, 0x0, 0xfff, 0x0, 0x0, 0x0, 0x0, 0x2⟩, /- CTRL -/
  ⟨0x0014, 0x4, 1, 0x0, 0xffff, 0x0, 0x0, 0x0, 0x0, 0x5555⟩, /- FFT -/
  ⟨0x0018, 0x4, 1, 0x1f, 0x0, 0x0, 0x0, 0x0, 0x0, 0x8⟩, /- RQ -/
  ⟨0x001c, 0x4, 1, 0x0, 0x0, 0x0, 0x0, 0x0, 0xffffffff, 0x0⟩, /- PCOMMIT -/
  ⟨0x0020, 0x4, 1, 0x0, 0x0, 0x0, 0x0, 0x0, 0x0, 0x0⟩, /- PSTATUS -/
  ⟨0x0024, 0x4, 1, 0x0, 0x0, 0x0, 0x0, 0x0, 0xffffffff, 0x0⟩, /- SCOMMIT -/
  ⟨0x0028, 0x4, 1, 0x0, 0x0, 0x0, 0x0, 0x0, 0x0, 0x0⟩, /- SSTATUS -/
  ⟨0x002c, 0x4, 1, 0x1, 0x0, 0x0, 0x0, 0x0, 0x0, 0x0⟩, /- SSEL -/
  ⟨0x0030, 0x4, 1, 0x3fffff, 0x0, 0x0, 0x0, 0x0, 0x0, 0x0⟩, /- SADDR -/
  ⟨0x0034, 0x4, 1, 0xffff, 0x0, 0x0, 0x0, 0x0, 0x0, 0x0⟩, /- SDATA -/
  ⟨0x0038, 0x4, 1, 0x1, 0x0, 0x0, 0x0, 0x0, 0x0, 0x0⟩, /- WSEL -/
  ⟨0x003c, 0x4, 1, 0x1ffff, 0x0, 0x0, 0x0, 0x0, 0x0, 0x0⟩, /- WADDR -/
  ⟨0x0040, 0x4, 1, 0x3ffff, 0x0, 0x0, 0x0, 0x0, 0x0, 0x0⟩, /- WDATA -/
  ⟨0x0044, 0x4, 1, 0xffffffff, 0x0, 0x0, 0x0, 0x0, 0x0, 0x0⟩, /- SWAP_LO -/
  ⟨0x0048, 0x4, 1, 0xffffffff, 0x0, 0x0, 0x0, 0x0, 0x0, 0x0⟩, /- SWAP_HI -/
  ⟨0x004c, 0x4, 1, 0x0, 0x0, 0x0, 0x1, 0x0, 0x0, 0x0⟩, /- SWAP_CMD -/
  ⟨0x0050, 0x4, 1, 0x0, 0x0, 0x0, 0x0, 0xffffffff, 0x0, 0x0⟩, /- FFT_SAT_CNT -/
  ⟨0x0054, 0x4, 1, 0x0, 0x0, 0x0, 0x0, 0xffffffff, 0x0, 0x0⟩, /- CLIP_TOT -/
  ⟨0x0058, 0x4, 1, 0x0, 0x0, 0x0, 0x0, 0xffffffff, 0x0, 0x0⟩, /- FLAG_SPEC -/
  ⟨0x1000, 0x4, 128, 0x0, 0x0, 0x0, 0x0, 0xffffffff, 0x0, 0x0⟩, /- INi_CLIP -/
  ⟨0x4000, 0x4, 2048, 0xffffffff, 0x0, 0x0, 0x0, 0x0, 0x0, 0x0⟩ /- Page 0 -/]
def chnRows1 : List RegRow := [
  ⟨0x6000, 0x4, 2048, 0xffffffff, 0x0, 0x0, 0x0, 0x0, 0x0, 0x0⟩ /- Page 1 -/]
/-- The register table of block CHN. -/
def chnRows : List RegRow := chnRows0 ++ chnRows1

def canRows0 : List RegRow := [
  ⟨0x0000, 0x4, 1, 0x0, 0x0, 0xfff, 0x0, 0x0, 0x0, 0x0⟩, /- STAT -/
  ⟨0x0004, 0x4, 1, 0xffffffff, 0x0, 0x0, 0x0, 0x0, 0x0, 0x0⟩, /- MASK -/
  ⟨0x0008, 0x4, 1, 0x0, 0x0, 0x0, 0x0, 0x0, 0x0, 0x0⟩, /- CAUSE -/
  ⟨0x0010, 0x4, 1, 0x0, 0x1ff, 0x0, 0x0, 0x0, 0x0, 0x0⟩, /- SHAPE -/
  ⟨0x0014, 0x4, 1, 0x0, 0x0, 0x0, 0x0, 0x0, 0x0, 0x0⟩, /- STATUS -/
  ⟨0x0018, 0x4, 1, 0x0, 0x7, 0x0, 0x0, 0x0, 0x0, 0x1⟩, /- CRED -/
  ⟨0x001c, 0x4, 1, 0x0, 0x1fff, 0x0, 0x0, 0x0, 0x0, 0x0⟩, /- IBASE -/
  ⟨0x0020, 0x4, 1, 0x0, 0x1ffff, 0x0, 0x0, 0x0, 0x0, 0x0⟩, /- TXPOOL -/
  ⟨0x0024, 0x4, 1, 0x0, 0x0, 0x0, 0x0, 0x0, 0x0, 0x0⟩, /- LEAD_SER_LO -/
  ⟨0x0028, 0x4, 1, 0x0, 0x0, 0x0, 0x0, 0x0, 0x0, 0x0⟩, /- LEAD_SER_HI -/
  ⟨0x002c, 0x4, 1, 0xffff, 0x0, 0x0, 0x0, 0x0, 0x0, 0x64⟩, /- STARVE -/
  ⟨0x0030, 0x4, 1, 0x0, 0x0, 0x0, 0x0, 0x0, 0x0, 0x0⟩, /- BUF_USE -/
  ⟨0x0034, 0x4, 1, 0x0, 0x0, 0x0, 0x0, 0x1ffff, 0x0, 0x0⟩, /- BUF_PEAK -/
  ⟨0x0038, 0x4, 1, 0x0, 0x0, 0x0, 0x0, 0xffffffff, 0x0, 0x0⟩, /- STALE_CNT -/
  ⟨0x003c, 0x4, 1, 0x0, 0x0, 0x0, 0x0, 0xffffffff, 0x0, 0x0⟩, /- ROUTE_CNT -/
  ⟨0x0040, 0x4, 1, 0x0, 0x0, 0x0, 0x0, 0xffffffff, 0x0, 0x0⟩, /- PARK_CNT -/
  ⟨0x0044, 0x4, 1, 0x0, 0x0, 0x0, 0x0, 0xffffffff, 0x0, 0x0⟩, /- STARVE_CNT -/
  ⟨0x0048, 0x4, 1, 0x0, 0x0, 0x0, 0x0, 0xffffffff, 0x0, 0x0⟩, /- POOL_CNT -/
  ⟨0x0100, 0x40, 4, 0xff, 0x0, 0x0, 0x0, 0x0, 0x0, 0x46⟩, /- PORTp_CTRL -/
  ⟨0x0104, 0x40, 4, 0x0, 0x0, 0x0, 0x0, 0x0, 0x0, 0x0⟩, /- PORTp_STATUS -/
  ⟨0x0108, 0x40, 4, 0xffffffff, 0x0, 0x0, 0x0, 0x0, 0x0, 0x0⟩, /- PORTp_ASYM -/
  ⟨0x010c, 0x40, 4, 0x0, 0x0, 0x0, 0x0, 0x0, 0x0, 0x0⟩, /- PORTp_RTT -/
  ⟨0x0110, 0x40, 4, 0x0, 0x0, 0x0, 0x0, 0x0, 0x0, 0x0⟩, /- PORTp_DIN -/
  ⟨0x0114, 0x40, 4, 0xffff, 0x0, 0x0, 0x0, 0x0, 0x0, 0x3e8⟩ /- PORTp_PROBE -/]
def canRows1 : List RegRow := [
  ⟨0x0118, 0x40, 4, 0x0, 0x0, 0x0, 0x0, 0xffffffff, 0x0, 0x0⟩, /- PORTp_REPLAY -/
  ⟨0x011c, 0x40, 4, 0x0, 0x0, 0x0, 0x0, 0xffffffff, 0x0, 0x0⟩, /- PORTp_CRCERR -/
  ⟨0x0120, 0x40, 4, 0x0, 0x0, 0x0, 0x0, 0xffffffff, 0x0, 0x0⟩, /- PORTp_LOST -/
  ⟨0x8000, 0x4, 8192, 0x0, 0xffffffff, 0x0, 0x0, 0x0, 0x0, 0x0⟩ /- CHMAP -/]
/-- The register table of block CAN. -/
def canRows : List RegRow := canRows0 ++ canRows1

def pitRows0 : List RegRow := [
  ⟨0x0000, 0x4, 1, 0x0, 0x0, 0x7f, 0x0, 0x0, 0x0, 0x0⟩, /- STAT -/
  ⟨0x0004, 0x4, 1, 0xffffffff, 0x0, 0x0, 0x0, 0x0, 0x0, 0x0⟩, /- MASK -/
  ⟨0x0008, 0x4, 1, 0x0, 0x0, 0x0, 0x0, 0x0, 0x0, 0x0⟩, /- CAUSE -/
  ⟨0x0010, 0x4, 1, 0x1, 0x0, 0x0, 0x2, 0x0, 0x0, 0x0⟩, /- CTRL -/
  ⟨0x0014, 0x4, 1, 0x0, 0x0, 0x0, 0x0, 0x0, 0x0, 0x0⟩, /- STATUS -/
  ⟨0x0018, 0x4, 1, 0x0, 0x0, 0x0, 0x0, 0x0, 0x7f, 0x0⟩, /- ASSIGN -/
  ⟨0x001c, 0x4, 1, 0x0, 0x0, 0x0, 0x0, 0x0, 0x0, 0x0⟩, /- SERIAL_LO -/
  ⟨0x0020, 0x4, 1, 0x0, 0x0, 0x0, 0x0, 0x0, 0x0, 0x0⟩, /- SERIAL_HI -/
  ⟨0x0024, 0x4, 1, 0x0, 0x0, 0x0, 0x0, 0x0, 0x0, 0x0⟩, /- RXWORD -/
  ⟨0x0028, 0x4, 1, 0x0, 0x0, 0x0, 0x0, 0x0, 0x0, 0x0⟩, /- JOIN_LO -/
  ⟨0x002c, 0x4, 1, 0x0, 0x0, 0x0, 0x0, 0x0, 0x0, 0x0⟩ /- JOIN_HI -/]
/-- The register table of block PIT. -/
def pitRows : List RegRow := pitRows0

def rrgRows0 : List RegRow := [
  ⟨0x0000, 0x4, 1, 0x0, 0x0, 0x3fff, 0x0, 0x0, 0x0, 0x0⟩, /- STAT -/
  ⟨0x0004, 0x4, 1, 0xffffffff, 0x0, 0x0, 0x0, 0x0, 0x0, 0x0⟩, /- MASK -/
  ⟨0x0008, 0x4, 1, 0x0, 0x0, 0x0, 0x0, 0x0, 0x0, 0x0⟩, /- CAUSE -/
  ⟨0x0010, 0x4, 1, 0x3, 0x0, 0x0, 0x0, 0x0, 0x0, 0x1⟩, /- CTRL -/
  ⟨0x0014, 0x4, 1, 0x0, 0x7f, 0x0, 0x0, 0x0, 0x0, 0x0⟩, /- SLOTS -/
  ⟨0x0018, 0x4, 1, 0x0, 0xffffffff, 0x0, 0x0, 0x0, 0x0, 0x0⟩, /- BASE_LO -/
  ⟨0x001c, 0x4, 1, 0x0, 0xffff, 0x0, 0x0, 0x0, 0x0, 0x0⟩, /- BASE_HI -/
  ⟨0x0020, 0x4, 1, 0x0, 0xffffffff, 0x0, 0x0, 0x0, 0x0, 0x0⟩, /- MAP_LO -/
  ⟨0x0024, 0x4, 1, 0x0, 0xffff, 0x0, 0x0, 0x0, 0x0, 0x0⟩, /- MAP_HI -/
  ⟨0x0028, 0x4, 1, 0x0, 0x3ffffff, 0x0, 0x0, 0x0, 0x0, 0x0⟩, /- GEOM -/
  ⟨0x002c, 0x4, 1, 0x1ff, 0x0, 0x0, 0x0, 0x0, 0x0, 0x0⟩, /- TRIG -/
  ⟨0x0030, 0x4, 1, 0xffff, 0x0, 0x0, 0x0, 0x0, 0x0, 0x0⟩, /- PIN -/
  ⟨0x0034, 0x4, 1, 0x0, 0x0, 0x0, 0x0, 0x0, 0x1, 0x0⟩, /- HOST_TRIG -/
  ⟨0x0038, 0x4, 1, 0xffffffff, 0x0, 0x0, 0x0, 0x0, 0x0, 0x0⟩, /- HOST_TAG_LO -/
  ⟨0x003c, 0x4, 1, 0xffffffff, 0x0, 0x0, 0x0, 0x0, 0x0, 0x0⟩, /- HOST_TAG_HI -/
  ⟨0x0040, 0x4, 4, 0x3f3f, 0x0, 0x0, 0x0, 0x0, 0x0, 0x3⟩, /- SRCs_WIN -/
  ⟨0x0050, 0x4, 1, 0x0, 0x0, 0x0, 0xf, 0x0, 0x0, 0x0⟩, /- CAP_REL -/
  ⟨0x0054, 0x4, 1, 0x3, 0x0, 0x0, 0xc, 0x0, 0x0, 0x0⟩, /- RD_CMD -/
  ⟨0x0058, 0x4, 1, 0x3fff, 0x0, 0x0, 0x0, 0x0, 0x0, 0x0⟩, /- RD_CH_LO -/
  ⟨0x005c, 0x4, 1, 0x3fff, 0x0, 0x0, 0x0, 0x0, 0x0, 0x3fff⟩, /- RD_CH_HI -/
  ⟨0x0060, 0x4, 1, 0x1ff, 0x0, 0x0, 0x0, 0x0, 0x0, 0x32⟩, /- RD_RATE -/
  ⟨0x0064, 0x4, 1, 0x0, 0x0, 0x0, 0x0, 0x0, 0x0, 0x0⟩, /- RD_PROG -/
  ⟨0x0068, 0x4, 1, 0x0, 0x0, 0x0, 0x0, 0x0, 0x0, 0x0⟩, /- FROZEN -/
  ⟨0x0070, 0x4, 1, 0x0, 0x0, 0x0, 0x0, 0x0, 0x0, 0x0⟩ /- MB_HEAD -/]
def rrgRows1 : List RegRow := [
  ⟨0x0074, 0x4, 1, 0x0, 0x0, 0x0, 0x0, 0x0, 0x0, 0x0⟩, /- MB_BELL_LO -/
  ⟨0x0078, 0x4, 1, 0x0, 0x0, 0x0, 0x0, 0x0, 0x0, 0x0⟩, /- MB_BELL_HI -/
  ⟨0x0080, 0x4, 1, 0x0, 0x0, 0x0, 0x0, 0xffffffff, 0x0, 0x0⟩, /- MISS_CNT -/
  ⟨0x0084, 0x4, 1, 0x0, 0x0, 0x0, 0x0, 0xffffffff, 0x0, 0x0⟩, /- LATE_CNT -/
  ⟨0x0088, 0x4, 1, 0x0, 0x0, 0x0, 0x0, 0xffffffff, 0x0, 0x0⟩, /- FOREIGN_CNT -/
  ⟨0x008c, 0x4, 1, 0x0, 0x0, 0x0, 0x0, 0xffffffff, 0x0, 0x0⟩, /- DUP_CNT -/
  ⟨0x0090, 0x4, 1, 0x0, 0x0, 0x0, 0x0, 0xffffffff, 0x0, 0x0⟩, /- ECC_CNT -/
  ⟨0x0094, 0x4, 1, 0x0, 0x0, 0x0, 0x0, 0xffffffff, 0x0, 0x0⟩, /- REFUSE_CNT -/
  ⟨0x0100, 0x20, 4, 0x0, 0x0, 0x0, 0x0, 0x0, 0x0, 0x0⟩, /- CAPn_STATE -/
  ⟨0x0104, 0x20, 4, 0x0, 0x0, 0x0, 0x0, 0x0, 0x0, 0x0⟩, /- CAPn_BELL_LO -/
  ⟨0x0108, 0x20, 4, 0x0, 0x0, 0x0, 0x0, 0x0, 0x0, 0x0⟩, /- CAPn_BELL_HI -/
  ⟨0x010c, 0x20, 4, 0x0, 0x0, 0x0, 0x0, 0x0, 0x0, 0x0⟩, /- CAPn_FIRST_LO -/
  ⟨0x0110, 0x20, 4, 0x0, 0x0, 0x0, 0x0, 0x0, 0x0, 0x0⟩, /- CAPn_FIRST_HI -/
  ⟨0x0114, 0x20, 4, 0x0, 0x0, 0x0, 0x0, 0x0, 0x0, 0x0⟩, /- CAPn_NFR -/
  ⟨0x0118, 0x20, 4, 0x0, 0x0, 0x0, 0x0, 0x0, 0x0, 0x0⟩, /- CAPn_TAG_LO -/
  ⟨0x011c, 0x20, 4, 0x0, 0x0, 0x0, 0x0, 0x0, 0x0, 0x0⟩, /- CAPn_TAG_HI -/
  ⟨0x0200, 0x4, 64, 0x0, 0x0, 0x0, 0x0, 0x0, 0x0, 0x0⟩ /- SLOTn -/]
/-- The register table of block RRG. -/
def rrgRows : List RegRow := rrgRows0 ++ rrgRows1

def stlRows0 : List RegRow := [
  ⟨0x0000, 0x4, 1, 0x0, 0x0, 0x1f3f, 0x0, 0x0, 0x0, 0x0⟩, /- STAT -/
  ⟨0x0004, 0x4, 1, 0xffffffff, 0x0, 0x0, 0x0, 0x0, 0x0, 0x0⟩, /- MASK -/
  ⟨0x0008, 0x4, 1, 0x0, 0x0, 0x0, 0x0, 0x0, 0x0, 0x0⟩, /- CAUSE -/
  ⟨0x0010, 0x4, 1, 0x0, 0x1, 0x0, 0x0, 0x0, 0x0, 0x0⟩, /- CTRL -/
  ⟨0x0014, 0x4, 1, 0x0, 0x1ffff, 0x0, 0x0, 0x0, 0x0, 0x0⟩, /- CFG -/
  ⟨0x0018, 0x4, 1, 0x0, 0x7fff, 0x0, 0x0, 0x0, 0x0, 0x0⟩, /- CHCNT -/
  ⟨0x001c, 0x4, 1, 0x0, 0x0, 0x0, 0x0, 0x0, 0x0, 0x0⟩, /- STATUS -/
  ⟨0x0020, 0x4, 1, 0x0, 0x0, 0x0, 0x0, 0x0, 0x0, 0x0⟩, /- BUSY -/
  ⟨0x0024, 0x4, 1, 0x0, 0x0, 0x0, 0x0, 0x0, 0x0, 0x0⟩, /- WAIT -/
  ⟨0x0028, 0x4, 1, 0x0, 0x0, 0x0, 0x0, 0xffffffff, 0x0, 0x0⟩, /- TC_DONE -/
  ⟨0x002c, 0x4, 1, 0x0, 0x0, 0x0, 0x0, 0xffffffff, 0x0, 0x0⟩, /- WS_CERR -/
  ⟨0x0030, 0x4, 1, 0x0, 0x0, 0x0, 0x0, 0xffffffff, 0x0, 0x0⟩, /- WS_UERR -/
  ⟨0x0034, 0x4, 1, 0x0, 0x0, 0x0, 0x0, 0xffffffff, 0x0, 0x0⟩, /- LINK_CNT -/
  ⟨0x0100, 0x4, 1, 0x0, 0xfffff, 0x0, 0x0, 0x0, 0x0, 0xf⟩, /- ICFG -/
  ⟨0x0104, 0x4, 1, 0x0, 0xffffff, 0x0, 0x0, 0x0, 0x0, 0x1⟩, /- DUMP_N -/
  ⟨0x0108, 0x4, 1, 0x0, 0x0, 0x0, 0x0, 0x0, 0x0, 0x0⟩, /- FMAX -/
  ⟨0x010c, 0x4, 1, 0x0, 0xffffffff, 0x0, 0x0, 0x0, 0x0, 0x0⟩, /- IST_LO -/
  ⟨0x0110, 0x4, 1, 0x0, 0xffff, 0x0, 0x0, 0x0, 0x0, 0x0⟩, /- IST_HI -/
  ⟨0x0114, 0x4, 1, 0x0, 0xffffffff, 0x0, 0x0, 0x0, 0x0, 0x0⟩, /- DBUF_LO -/
  ⟨0x0118, 0x4, 1, 0x0, 0xffff, 0x0, 0x0, 0x0, 0x0, 0x0⟩, /- DBUF_HI -/
  ⟨0x011c, 0x4, 1, 0x0, 0xffffffff, 0x0, 0x0, 0x0, 0x0, 0x0⟩, /- DBUF_HALF -/
  ⟨0x0120, 0x4, 1, 0x0, 0x0, 0x0, 0x0, 0x0, 0x0, 0x0⟩, /- RUN -/
  ⟨0x0124, 0x4, 1, 0x0, 0x0, 0x0, 0x0, 0x0, 0x0, 0x0⟩, /- DSEQ -/
  ⟨0x0128, 0x4, 1, 0x0, 0x0, 0x0, 0x0, 0x0, 0x0, 0x0⟩ /- DFIRST_LO -/]
def stlRows1 : List RegRow := [
  ⟨0x012c, 0x4, 1, 0x0, 0x0, 0x0, 0x0, 0x0, 0x0, 0x0⟩, /- DFIRST_HI -/
  ⟨0x0130, 0x4, 1, 0x0, 0x0, 0x0, 0x0, 0x0, 0x0, 0x0⟩, /- DINFO -/
  ⟨0x0134, 0x4, 1, 0x0, 0x0, 0x0, 0x0, 0x0, 0x0, 0x0⟩, /- DSKIP -/
  ⟨0x0138, 0x4, 1, 0x0, 0x0, 0x0, 0x0, 0xffffffff, 0x0, 0x0⟩, /- POISON_CNT -/
  ⟨0x013c, 0x4, 1, 0x0, 0x0, 0x0, 0x0, 0xffffffff, 0x0, 0x0⟩, /- DBUF_OVR_CNT -/
  ⟨0x0140, 0x4, 1, 0x0, 0x0, 0x0, 0x0, 0x0, 0x0, 0x0⟩ /- DBUF_STAT -/]
/-- The register table of block STL. -/
def stlRows : List RegRow := stlRows0 ++ stlRows1

def aisRows0 : List RegRow := [
  ⟨0x0000, 0x4, 1, 0x0, 0x0, 0x3fff, 0x0, 0x0, 0x0, 0x0⟩, /- STAT -/
  ⟨0x0004, 0x4, 1, 0xffffffff, 0x0, 0x0, 0x0, 0x0, 0x0, 0x0⟩, /- MASK -/
  ⟨0x0008, 0x4, 1, 0x0, 0x0, 0x0, 0x0, 0x0, 0x0, 0x0⟩, /- CAUSE -/
  ⟨0x0010, 0x4, 1, 0x7, 0x0, 0x0, 0x0, 0x0, 0x0, 0x0⟩, /- CTRL -/
  ⟨0x0014, 0x4, 1, 0x0, 0x0, 0x0, 0x0, 0x0, 0xffffffff, 0x0⟩, /- PCOMMIT -/
  ⟨0x0018, 0x4, 1, 0x0, 0x0, 0x0, 0x0, 0x0, 0x0, 0x0⟩, /- PSTATUS -/
  ⟨0x001c, 0x4, 1, 0x7ffffff, 0x0, 0x0, 0x80000000, 0x0, 0x0, 0x0⟩, /- BADD -/
  ⟨0x0020, 0x4, 1, 0x0, 0x0, 0x0, 0x0, 0x0, 0x0, 0x0⟩, /- BADD_RES -/
  ⟨0x0024, 0x4, 1, 0x0, 0x0, 0x0, 0x0, 0x0, 0x0, 0x40000⟩, /- CTX_FREE -/
  ⟨0x0028, 0x4, 1, 0x0, 0xffffffff, 0x0, 0x0, 0x0, 0x0, 0x0⟩, /- GTAB_LO -/
  ⟨0x002c, 0x4, 1, 0x0, 0xffff, 0x0, 0x0, 0x0, 0x0, 0x0⟩, /- GTAB_HI -/
  ⟨0x0030, 0x4, 1, 0x0, 0xffffffff, 0x0, 0x0, 0x0, 0x0, 0x0⟩, /- GTAB_HALF -/
  ⟨0x0034, 0x4, 1, 0x0, 0x0, 0x0, 0x0, 0x0, 0x3, 0x0⟩, /- GCOMMIT -/
  ⟨0x0038, 0x4, 1, 0x0, 0x0, 0x0, 0x0, 0x0, 0x0, 0x0⟩, /- GSTATUS -/
  ⟨0x003c, 0x4, 1, 0x0, 0x0, 0x0, 0x0, 0xffffffff, 0x0, 0x0⟩, /- GSAT_CNT -/
  ⟨0x0040, 0x4, 1, 0x0, 0x0, 0x0, 0x0, 0xffffffff, 0x0, 0x0⟩, /- BSAT_CNT -/
  ⟨0x0044, 0x4, 1, 0x0, 0x0, 0x0, 0x0, 0xffffffff, 0x0, 0x0⟩, /- CTX_IGN -/
  ⟨0x0048, 0x4, 1, 0x0, 0x0, 0x0, 0x0, 0xffffffff, 0x0, 0x0⟩, /- CUT_CNT -/
  ⟨0x004c, 0x4, 1, 0x0, 0x0, 0x0, 0x0, 0xffffffff, 0x0, 0x0⟩, /- LONG_CNT -/
  ⟨0x0050, 0x4, 1, 0x0, 0x0, 0x0, 0x0, 0xffffffff, 0x0, 0x0⟩, /- CANC_CNT -/
  ⟨0x0054, 0x4, 1, 0x0, 0x0, 0x0, 0x0, 0xffffffff, 0x0, 0x0⟩, /- MEM_CNT -/
  ⟨0x1000, 0x10, 256, 0xffff, 0x0, 0x0, 0x0, 0x0, 0x0, 0x8⟩, /- BEAMb_CFG -/
  ⟨0x1004, 0x10, 256, 0x1fffff, 0x0, 0x0, 0x0, 0x0, 0x0, 0x1000⟩, /- BEAMb_SCALE -/
  ⟨0x1008, 0x10, 256, 0x0, 0x3fff, 0x0, 0x0, 0x0, 0x0, 0x0⟩ /- BEAMb_DET -/]
def aisRows1 : List RegRow := [
  ⟨0x100c, 0x10, 256, 0x1f, 0x0, 0x0, 0x0, 0x0, 0x0, 0x0⟩, /- BEAMb_TS -/
  ⟨0x2000, 0x4, 256, 0x0, 0x0, 0x0, 0x0, 0x0, 0x0, 0x0⟩ /- BEAMb_INFO -/]
/-- The register table of block AIS. -/
def aisRows : List RegRow := aisRows0 ++ aisRows1

def crnRows0 : List RegRow := [
  ⟨0x0000, 0x4, 1, 0x0, 0x0, 0xf, 0x0, 0x0, 0x0, 0x0⟩, /- STAT -/
  ⟨0x0004, 0x4, 1, 0xffffffff, 0x0, 0x0, 0x0, 0x0, 0x0, 0x0⟩, /- MASK -/
  ⟨0x0008, 0x4, 1, 0x0, 0x0, 0x0, 0x0, 0x0, 0x0, 0x0⟩, /- CAUSE -/
  ⟨0x0010, 0x4, 1, 0x0, 0xffffffff, 0x0, 0x0, 0x0, 0x0, 0x0⟩, /- RBASE_LO -/
  ⟨0x0014, 0x4, 1, 0x0, 0xffff, 0x0, 0x0, 0x0, 0x0, 0x0⟩, /- RBASE_HI -/
  ⟨0x0018, 0x4, 1, 0x0, 0x0, 0x0, 0x0, 0x0, 0x0, 0x0⟩, /- MB_HEAD -/
  ⟨0x001c, 0x4, 1, 0x0, 0x0, 0x0, 0x0, 0x0, 0x0, 0x0⟩, /- MB_FRAME_LO -/
  ⟨0x0020, 0x4, 1, 0x0, 0x0, 0x0, 0x0, 0x0, 0x0, 0x0⟩, /- MB_FRAME_HI -/
  ⟨0x0024, 0x4, 1, 0x0, 0x0, 0x0, 0x0, 0xffffffff, 0x0, 0x0⟩, /- TRIG_CNT -/
  ⟨0x0028, 0x4, 1, 0x0, 0x0, 0x0, 0x0, 0xffffffff, 0x0, 0x0⟩, /- PART_CNT -/
  ⟨0x002c, 0x4, 1, 0x0, 0x0, 0x0, 0x0, 0xffffffff, 0x0, 0x0⟩, /- LATE_CNT -/
  ⟨0x1000, 0x20, 64, 0x7fffff, 0x0, 0x0, 0x0, 0x0, 0x0, 0x0⟩, /- WATCHw_CFG -/
  ⟨0x1004, 0x20, 64, 0xffff, 0x0, 0x0, 0x0, 0x0, 0x0, 0x0⟩, /- WATCHw_BEAMS -/
  ⟨0x1008, 0x20, 64, 0xffffffff, 0x0, 0x0, 0x0, 0x0, 0x0, 0x0⟩, /- WATCHw_TH -/
  ⟨0x100c, 0x20, 64, 0xffffffff, 0x0, 0x0, 0x0, 0x0, 0x0, 0x7f800000⟩, /- WATCHw_TTH -/
  ⟨0x1010, 0x20, 64, 0x1ffffff, 0x0, 0x0, 0x0, 0x0, 0x0, 0x1⟩ /- WATCHw_MIN -/]
/-- The register table of block CRN. -/
def crnRows : List RegRow := crnRows0

def calRows0 : List RegRow := [
  ⟨0x0000, 0x4, 1, 0x0, 0x0, 0x3ff, 0x0, 0x0, 0x0, 0x0⟩, /- STAT -/
  ⟨0x0004, 0x4, 1, 0xffffffff, 0x0, 0x0, 0x0, 0x0, 0x0, 0x0⟩, /- MASK -/
  ⟨0x0008, 0x4, 1, 0x0, 0x0, 0x0, 0x0, 0x0, 0x0, 0x0⟩, /- CAUSE -/
  ⟨0x0010, 0x4, 1, 0x1f, 0x0, 0x0, 0x0, 0x0, 0x0, 0x0⟩, /- CTRL -/
  ⟨0x0014, 0x4, 1, 0xffffffff, 0x0, 0x0, 0x0, 0x0, 0x0, 0x1000440⟩, /- ITER -/
  ⟨0x0018, 0x4, 1, 0xffffffff, 0x0, 0x0, 0x0, 0x0, 0x0, 0x37800000⟩, /- TOL -/
  ⟨0x001c, 0x4, 1, 0xffffffff, 0x0, 0x0, 0x0, 0x0, 0x0, 0x3f000000⟩, /- RESMAX -/
  ⟨0x0020, 0x4, 1, 0xffffffff, 0x0, 0x0, 0x0, 0x0, 0x0, 0x3f800000⟩, /- GNORM -/
  ⟨0x0024, 0x4, 1, 0xffffffff, 0x0, 0x0, 0x0, 0x0, 0x0, 0x1⟩, /- MINCNT -/
  ⟨0x0028, 0x4, 1, 0x1fff, 0x0, 0x0, 0x0, 0x0, 0x0, 0x0⟩, /- REFIN -/
  ⟨0x002c, 0x4, 1, 0x0, 0x0, 0x0, 0x0, 0x0, 0x0, 0x0⟩, /- STATUS -/
  ⟨0x0030, 0x4, 1, 0x0, 0x0, 0x0, 0x0, 0x0, 0x0, 0x0⟩, /- PROG -/
  ⟨0x0034, 0x4, 1, 0x0, 0x0, 0x0, 0x0, 0x0, 0x0, 0x0⟩, /- SEQ -/
  ⟨0x0040, 0x4, 1, 0x0, 0xffffffff, 0x0, 0x0, 0x0, 0x0, 0x0⟩, /- FEED_LO -/
  ⟨0x0044, 0x4, 1, 0x0, 0xffff, 0x0, 0x0, 0x0, 0x0, 0x0⟩, /- FEED_HI -/
  ⟨0x0048, 0x4, 1, 0x0, 0xffffffff, 0x0, 0x0, 0x0, 0x0, 0x0⟩, /- MBASE_LO -/
  ⟨0x004c, 0x4, 1, 0x0, 0xffff, 0x0, 0x0, 0x0, 0x0, 0x0⟩, /- MBASE_HI -/
  ⟨0x0050, 0x4, 1, 0x0, 0xffffffff, 0x0, 0x0, 0x0, 0x0, 0x0⟩, /- SOL_LO -/
  ⟨0x0054, 0x4, 1, 0x0, 0xffff, 0x0, 0x0, 0x0, 0x0, 0x0⟩, /- SOL_HI -/
  ⟨0x0058, 0x4, 1, 0x0, 0xffffffff, 0x0, 0x0, 0x0, 0x0, 0x0⟩, /- GST_LO -/
  ⟨0x005c, 0x4, 1, 0x0, 0xffff, 0x0, 0x0, 0x0, 0x0, 0x0⟩, /- GST_HI -/
  ⟨0x0060, 0x4, 1, 0x0, 0xffffffff, 0x0, 0x0, 0x0, 0x0, 0x0⟩, /- DCOR_LO -/
  ⟨0x0064, 0x4, 1, 0x0, 0xffff, 0x0, 0x0, 0x0, 0x0, 0x0⟩, /- DCOR_HI -/
  ⟨0x0068, 0x4, 1, 0x0, 0xffffffff, 0x0, 0x0, 0x0, 0x0, 0x0⟩ /- DCOR_HALF -/]
def calRows1 : List RegRow := [
  ⟨0x0070, 0x4, 1, 0x0, 0x0, 0x0, 0x0, 0x0, 0x0, 0x0⟩, /- MB_HEAD -/
  ⟨0x0074, 0x4, 1, 0x0, 0x0, 0x0, 0x0, 0x0, 0x0, 0x0⟩, /- MB_DSEQ -/
  ⟨0x0078, 0x4, 1, 0x0, 0x0, 0x0, 0x0, 0x0, 0x0, 0x0⟩, /- MB_CONV -/
  ⟨0x007c, 0x4, 1, 0x0, 0x0, 0x0, 0x0, 0x0, 0x0, 0x0⟩, /- MB_FAIL -/
  ⟨0x0080, 0x4, 1, 0x0, 0x0, 0x0, 0x0, 0xffffffff, 0x0, 0x0⟩, /- NOCONV_CNT -/
  ⟨0x0084, 0x4, 1, 0x0, 0x0, 0x0, 0x0, 0xffffffff, 0x0, 0x0⟩, /- FAIL_CNT -/
  ⟨0x0088, 0x4, 1, 0x0, 0x0, 0x0, 0x0, 0xffffffff, 0x0, 0x0⟩, /- UNFIN_CNT -/
  ⟨0x008c, 0x4, 1, 0x0, 0x0, 0x0, 0x0, 0xffffffff, 0x0, 0x0⟩, /- WEAK_CNT -/
  ⟨0x0090, 0x4, 1, 0x0, 0x0, 0x0, 0x0, 0xffffffff, 0x0, 0x0⟩, /- GCLIP_CNT -/
  ⟨0x0094, 0x4, 1, 0x0, 0x0, 0x0, 0x0, 0xffffffff, 0x0, 0x0⟩, /- MEM_CNT -/
  ⟨0x1000, 0x4, 256, 0xffffffff, 0x0, 0x0, 0x0, 0x0, 0x0, 0x0⟩ /- INMASK_w -/]
/-- The register table of block CAL. -/
def calRows : List RegRow := calRows0 ++ calRows1

def outRows0 : List RegRow := [
  ⟨0x0000, 0x4, 1, 0x0, 0x0, 0x1fff, 0x0, 0x0, 0x0, 0x0⟩, /- STAT -/
  ⟨0x0004, 0x4, 1, 0xffffffff, 0x0, 0x0, 0x0, 0x0, 0x0, 0x0⟩, /- MASK -/
  ⟨0x0008, 0x4, 1, 0x0, 0x0, 0x0, 0x0, 0x0, 0x0, 0x0⟩, /- CAUSE -/
  ⟨0x0010, 0x4, 1, 0xf, 0x30, 0x0, 0x0, 0x0, 0x0, 0x0⟩, /- DUMP -/
  ⟨0x0014, 0x4, 1, 0x1ff, 0x0, 0x0, 0x0, 0x0, 0x0, 0x28⟩, /- DRATE -/
  ⟨0x0018, 0x4, 1, 0xffff, 0x0, 0x0, 0x0, 0x0, 0x0, 0x0⟩, /- STREN -/
  ⟨0x001c, 0x4, 1, 0xffffffff, 0x0, 0x0, 0x0, 0x0, 0x0, 0x0⟩, /- PRODMAP -/
  ⟨0x0020, 0x4, 1, 0x7f, 0x0, 0x0, 0x0, 0x0, 0x0, 0x0⟩, /- PRODEN -/
  ⟨0x0024, 0x4, 1, 0x0, 0x0, 0x0, 0x0, 0x0, 0x0, 0x0⟩, /- MSEQ -/
  ⟨0x0028, 0x4, 1, 0x0, 0x0, 0x0, 0x0, 0xffffffff, 0x0, 0x0⟩, /- BV_DROP -/
  ⟨0x002c, 0x4, 1, 0x0, 0x0, 0x0, 0x0, 0xffffffff, 0x0, 0x0⟩, /- EVT_DROP -/
  ⟨0x0030, 0x4, 1, 0x0, 0x0, 0x0, 0x0, 0xffffffff, 0x0, 0x0⟩, /- CF16_SAT -/
  ⟨0x0034, 0x4, 1, 0x0, 0x0, 0x0, 0x0, 0xffffffff, 0x0, 0x0⟩, /- RX_DISC -/
  ⟨0x0038, 0x4, 1, 0x0, 0x0, 0x0, 0x0, 0xffffffff, 0x0, 0x0⟩, /- STRM_DROP -/
  ⟨0x0100, 0x20, 4, 0xff, 0x0, 0x0, 0x0, 0x0, 0x0, 0x0⟩, /- PORTp_CTRL -/
  ⟨0x0104, 0x20, 4, 0x0, 0x0, 0x0, 0x0, 0x0, 0x0, 0x0⟩, /- PORTp_STATUS -/
  ⟨0x0108, 0x20, 4, 0x0, 0x0, 0x0, 0x0, 0xffffffff, 0x0, 0x0⟩, /- PORTp_TXPKT -/
  ⟨0x010c, 0x20, 4, 0x0, 0x0, 0x0, 0x0, 0xffffffff, 0x0, 0x0⟩, /- PORTp_DROP -/
  ⟨0x0110, 0x20, 4, 0x0, 0x0, 0x0, 0x0, 0xffffffff, 0x0, 0x0⟩, /- PORTp_FECCOR -/
  ⟨0x0114, 0x20, 4, 0x0, 0x0, 0x0, 0x0, 0xffffffff, 0x0, 0x0⟩ /- PORTp_FECUNC -/]
/-- The register table of block OUT. -/
def outRows : List RegRow := outRows0

def dmcRows0 : List RegRow := [
  ⟨0x0000, 0x4, 1, 0x0, 0x0, 0x7fff, 0x0, 0x0, 0x0, 0x0⟩, /- STAT -/
  ⟨0x0004, 0x4, 1, 0xffffffff, 0x0, 0x0, 0x0, 0x0, 0x0, 0x0⟩, /- MASK -/
  ⟨0x0008, 0x4, 1, 0x0, 0x0, 0x0, 0x0, 0x0, 0x0, 0x0⟩, /- CAUSE -/
  ⟨0x0010, 0x4, 1, 0x1, 0x0, 0x0, 0x2, 0x0, 0x0, 0x0⟩, /- CTRL -/
  ⟨0x0014, 0x4, 1, 0x0, 0x0, 0x0, 0x0, 0x0, 0x0, 0x0⟩, /- STATUS -/
  ⟨0x0018, 0x4, 1, 0x0, 0xf, 0x0, 0x0, 0x0, 0x0, 0x0⟩, /- GEOM -/
  ⟨0x001c, 0x4, 1, 0x0, 0x0, 0x0, 0x0, 0x0, 0x0, 0x0⟩, /- CHSTAT -/
  ⟨0x0020, 0x4, 1, 0xffffffff, 0x0, 0x0, 0x0, 0x0, 0x0, 0xa0a0064⟩, /- PAGE -/
  ⟨0x0024, 0x4, 1, 0xffffffff, 0x0, 0x0, 0x0, 0x0, 0x0, 0x644000⟩, /- RH -/
  ⟨0x0028, 0x4, 1, 0x0, 0x0, 0x0, 0x0, 0x0, 0x0, 0x0⟩, /- RH_LAST -/
  ⟨0x002c, 0x4, 1, 0xff, 0x0, 0x0, 0x0, 0x0, 0x0, 0xff⟩, /- SR -/
  ⟨0x0030, 0x4, 1, 0xff, 0x0, 0x0, 0x0, 0x0, 0x0, 0x18⟩, /- SCRUB -/
  ⟨0x0034, 0x4, 1, 0x0, 0x0, 0x0, 0x0, 0x0, 0x0, 0x0⟩, /- RTBUF -/
  ⟨0x0038, 0x4, 1, 0x0, 0x0, 0x0, 0x0, 0xffffffff, 0x0, 0x0⟩, /- PANIC_CNT -/
  ⟨0x003c, 0x4, 1, 0x0, 0x0, 0x0, 0x0, 0xffffffff, 0x0, 0x0⟩, /- PANIC_TIME -/
  ⟨0x0040, 0x4, 1, 0x0, 0x0, 0x0, 0x0, 0xffffffff, 0x0, 0x0⟩, /- CE_CNT -/
  ⟨0x0044, 0x4, 1, 0x0, 0x0, 0x0, 0x0, 0xffffffff, 0x0, 0x0⟩, /- UE_CNT -/
  ⟨0x0048, 0x4, 1, 0x0, 0x0, 0x0, 0x0, 0xffffffff, 0x0, 0x0⟩, /- TAG_CE_CNT -/
  ⟨0x004c, 0x4, 1, 0x0, 0x0, 0x0, 0x0, 0xffffffff, 0x0, 0x0⟩, /- MISDIR_CNT -/
  ⟨0x0050, 0x4, 1, 0x0, 0x0, 0x0, 0x0, 0xffffffff, 0x0, 0x0⟩, /- CAPAR_CNT -/
  ⟨0x0054, 0x4, 1, 0x0, 0x0, 0x0, 0x0, 0xffffffff, 0x0, 0x0⟩, /- RH_CNT -/
  ⟨0x0058, 0x4, 1, 0x0, 0x0, 0x0, 0x0, 0xffffffff, 0x0, 0x0⟩, /- UE_ADDR_LO -/
  ⟨0x005c, 0x4, 1, 0x0, 0x0, 0x0, 0x0, 0x0, 0x0, 0x0⟩, /- UE_ADDR_HI -/
  ⟨0x0100, 0x8, 9, 0x0, 0xffffffff, 0x0, 0x0, 0x0, 0x0, 0x0⟩ /- HASHm_LO -/]
def dmcRows1 : List RegRow := [
  ⟨0x0104, 0x8, 9, 0x0, 0x1ff, 0x0, 0x0, 0x0, 0x0, 0x0⟩, /- HASHm_HI -/
  ⟨0x0200, 0x4, 16, 0xf, 0x0, 0x0, 0x0, 0x0, 0x0, 0x0⟩ /- REQr_CFG -/]
/-- The register table of block DMC. -/
def dmcRows : List RegRow := dmcRows0 ++ dmcRows1

def cleRows0 : List RegRow := [
  ⟨0x0000, 0x4, 1, 0x0, 0x0, 0x7f, 0x0, 0x0, 0x0, 0x0⟩, /- STAT -/
  ⟨0x0004, 0x4, 1, 0xffffffff, 0x0, 0x0, 0x0, 0x0, 0x0, 0x0⟩, /- MASK -/
  ⟨0x0008, 0x4, 1, 0x0, 0x0, 0x0, 0x0, 0x0, 0x0, 0x0⟩, /- CAUSE -/
  ⟨0x0010, 0x4, 1, 0xffffffff, 0x0, 0x0, 0x0, 0x0, 0x0, 0x0⟩, /- FLAGS -/
  ⟨0x0014, 0x4, 1, 0x0, 0x0, 0x0, 0xffffffff, 0x0, 0x0, 0x0⟩, /- FLAGS_SET -/
  ⟨0x0018, 0x4, 1, 0x0, 0x0, 0xffffffff, 0x0, 0x0, 0x0, 0x0⟩, /- FLAGS_CLR -/
  ⟨0x001c, 0x4, 1, 0x3f, 0x0, 0x0, 0x0, 0x0, 0x0, 0x0⟩, /- MSEL -/
  ⟨0x0020, 0x4, 1, 0x7fff, 0x0, 0x0, 0x0, 0x0, 0x0, 0x0⟩, /- MADDR -/
  ⟨0x0024, 0x4, 1, 0xffffffff, 0x0, 0x0, 0x0, 0x0, 0x0, 0x0⟩, /- MDATA -/
  ⟨0x0028, 0x4, 1, 0x0, 0x0, 0x0, 0x0, 0xffffffff, 0x0, 0x0⟩, /- ECC_CNT -/
  ⟨0x002c, 0x4, 1, 0x0, 0x0, 0x0, 0x0, 0xffffffff, 0x0, 0x0⟩, /- JOB_OVF_CNT -/
  ⟨0x0100, 0x20, 16, 0x7ffff, 0x0, 0x0, 0x0, 0x0, 0x0, 0x800⟩, /- COREn_CTRL -/
  ⟨0x0104, 0x20, 16, 0x0, 0x0, 0x0, 0x0, 0x0, 0x0, 0x0⟩, /- COREn_STATUS -/
  ⟨0x0108, 0x20, 16, 0x0, 0x0, 0x0, 0x0, 0x0, 0x0, 0x0⟩, /- COREn_FPC -/
  ⟨0x010c, 0x20, 16, 0x0, 0x0, 0x0, 0x0, 0x0, 0x0, 0x0⟩, /- COREn_FADDR_LO -/
  ⟨0x0110, 0x20, 16, 0x0, 0x0, 0x0, 0x0, 0x0, 0x0, 0x0⟩, /- COREn_FADDR_HI -/
  ⟨0x0114, 0x20, 16, 0x0, 0x0, 0x0, 0x0, 0x0, 0x0, 0x0⟩, /- COREn_BUSY -/
  ⟨0x0118, 0x20, 16, 0x0, 0x0, 0x0, 0x0, 0xffffffff, 0x0, 0x0⟩, /- COREn_LATE -/
  ⟨0x011c, 0x20, 16, 0x0, 0x0, 0x0, 0x0, 0xffffffff, 0x0, 0x0⟩, /- COREn_SKIP -/
  ⟨0x0400, 0x4, 16, 0x0, 0x0, 0x0, 0x0, 0x0, 0xffff, 0x0⟩ /- COREn_DBELL -/]
/-- The register table of block CLE. -/
def cleRows : List RegRow := cleRows0

def melRows0 : List RegRow := [
  ⟨0x0000, 0x4, 1, 0x0, 0x0, 0x1fffff, 0x0, 0x0, 0x0, 0x0⟩, /- STAT -/
  ⟨0x0004, 0x4, 1, 0xffffffff, 0x0, 0x0, 0x0, 0x0, 0x0, 0x0⟩, /- MASK -/
  ⟨0x0008, 0x4, 1, 0x0, 0x0, 0x0, 0x0, 0x0, 0x0, 0x0⟩, /- CAUSE -/
  ⟨0x0010, 0x4, 1, 0x3, 0x0, 0x0, 0x1c, 0x0, 0x0, 0x1⟩, /- CTRL -/
  ⟨0x0014, 0x4, 1, 0x0, 0x0, 0x0, 0x0, 0x0, 0x0, 0x7⟩, /- STATUS -/
  ⟨0x0018, 0x4, 1, 0x1ff, 0x0, 0x0, 0x0, 0x0, 0x0, 0x7⟩, /- REFCFG -/
  ⟨0x001c, 0x4, 1, 0x3ffff, 0x0, 0x0, 0x0, 0x0, 0x0, 0x0⟩, /- PRIO -/
  ⟨0x0020, 0x4, 1, 0xffffffff, 0x0, 0x0, 0x0, 0x0, 0x0, 0xfff4f1ff⟩, /- QLMAP_LO -/
  ⟨0x0024, 0x4, 1, 0xffffffff, 0x0, 0x0, 0x0, 0x0, 0x0, 0xffffaff6⟩, /- QLMAP_HI -/
  ⟨0x0028, 0x4, 1, 0xfff0fff, 0x0, 0x0, 0x0, 0x0, 0x0, 0x12c000a⟩, /- QUAL -/
  ⟨0x002c, 0x4, 1, 0xffff, 0x0, 0x0, 0x0, 0x0, 0x0, 0x3e8⟩, /- DISAG -/
  ⟨0x0030, 0x4, 1, 0xfff0ff7, 0x0, 0x0, 0x0, 0x0, 0x0, 0x12c00a0⟩, /- DPLL -/
  ⟨0x0034, 0x4, 1, 0xffffffff, 0x0, 0x0, 0x0, 0x0, 0x0, 0xa⟩, /- HO_E0 -/
  ⟨0x0038, 0x4, 1, 0xffffffff, 0x0, 0x0, 0x0, 0x0, 0x0, 0x3e8⟩, /- HO_Y0 -/
  ⟨0x003c, 0x4, 1, 0xffffffff, 0x0, 0x0, 0x0, 0x0, 0x0, 0x2710⟩, /- HO_AGE -/
  ⟨0x0040, 0x4, 1, 0xffffffff, 0x0, 0x0, 0x0, 0x0, 0x0, 0x3e8⟩, /- HO_LIM -/
  ⟨0x0044, 0x4, 1, 0x0, 0x0, 0x0, 0x0, 0x0, 0x0, 0x0⟩, /- HO_TIME -/
  ⟨0x0048, 0x4, 1, 0x0, 0x0, 0x0, 0x0, 0x0, 0x0, 0x0⟩, /- HO_TE -/
  ⟨0x0050, 0x4, 1, 0x0, 0x0, 0x0, 0x0, 0x0, 0x0, 0x0⟩, /- TKO_NS -/
  ⟨0x0054, 0x4, 1, 0x0, 0x0, 0x0, 0x0, 0xffffffff, 0x0, 0x0⟩, /- SWITCH_CNT -/
  ⟨0x0058, 0x4, 1, 0x0, 0x0, 0x0, 0x0, 0xffffffff, 0x0, 0x0⟩, /- TKO_CNT -/
  ⟨0x0100, 0x10, 6, 0x0, 0x0, 0x0, 0x0, 0x0, 0x0, 0x0⟩, /- REFr_STATUS -/
  ⟨0x0104, 0x10, 6, 0x0, 0x0, 0x0, 0x0, 0x0, 0x0, 0x0⟩, /- REFr_FOFF -/
  ⟨0x0108, 0x10, 6, 0x0, 0x0, 0x0, 0x0, 0x0, 0x0, 0x0⟩ /- REFr_TOFF -/]
def melRows1 : List RegRow := [
  ⟨0x010c, 0x10, 6, 0x0, 0x0, 0x0, 0x0, 0x0, 0x0, 0x0⟩ /- REFr_QL -/]
/-- The register table of block MEL. -/
def melRows : List RegRow := melRows0 ++ melRows1

def ptpRows0 : List RegRow := [
  ⟨0x0000, 0x4, 1, 0x0, 0x0, 0x3fff, 0x0, 0x0, 0x0, 0x0⟩, /- STAT -/
  ⟨0x0004, 0x4, 1, 0xffffffff, 0x0, 0x0, 0x0, 0x0, 0x0, 0x0⟩, /- MASK -/
  ⟨0x0008, 0x4, 1, 0x0, 0x0, 0x0, 0x0, 0x0, 0x0, 0x0⟩, /- CAUSE -/
  ⟨0x0010, 0x4, 1, 0x1, 0x0, 0x0, 0x0, 0x0, 0x0, 0x0⟩, /- CTRL -/
  ⟨0x0014, 0x4, 1, 0x0, 0x0, 0x0, 0x0, 0x0, 0x0, 0x0⟩, /- STATUS -/
  ⟨0x0018, 0x4, 1, 0x0, 0x0, 0x0, 0x0, 0x0, 0x0, 0x0⟩, /- NOW_NS -/
  ⟨0x001c, 0x4, 1, 0x0, 0x0, 0x0, 0x0, 0x0, 0x0, 0x0⟩, /- NOW_SEC_LO -/
  ⟨0x0020, 0x4, 1, 0x0, 0x0, 0x0, 0x0, 0x0, 0x0, 0x0⟩, /- NOW_SEC_HI -/
  ⟨0x0024, 0x4, 1, 0x0, 0x0, 0x0, 0x0, 0x0, 0x0, 0x0⟩, /- NOW_FR -/
  ⟨0x0028, 0x4, 1, 0x3fffffff, 0x0, 0x0, 0x0, 0x0, 0x0, 0x0⟩, /- TSET_NS -/
  ⟨0x002c, 0x4, 1, 0xffffffff, 0x0, 0x0, 0x0, 0x0, 0x0, 0x0⟩, /- TSET_SEC_LO -/
  ⟨0x0030, 0x4, 1, 0xffff, 0x0, 0x0, 0x0, 0x0, 0x0, 0x0⟩, /- TSET_SEC_HI -/
  ⟨0x0034, 0x4, 1, 0x2, 0x0, 0x0, 0x1, 0x0, 0x0, 0x0⟩, /- TSET_CMD -/
  ⟨0x0038, 0x4, 1, 0x0, 0x0, 0x0, 0x0, 0x0, 0x0, 0x0⟩, /- FR -/
  ⟨0x0040, 0x4, 1, 0x0, 0x0, 0x0, 0x0, 0x3fff, 0x0, 0x0⟩, /- TSQ_INFO -/
  ⟨0x0044, 0x4, 1, 0x0, 0x0, 0x0, 0x0, 0x0, 0x0, 0x0⟩, /- TSQ_NS -/
  ⟨0x0048, 0x4, 1, 0x7ff07ff, 0x0, 0x0, 0x0, 0x0, 0x0, 0x0⟩, /- TS_EN -/
  ⟨0x004c, 0x4, 1, 0x0, 0x0, 0x0, 0x0, 0xffffffff, 0x0, 0x0⟩, /- TSQ_LOST -/
  ⟨0x0050, 0x4, 1, 0xffff, 0x0, 0x0, 0x0, 0x0, 0x0, 0x6004⟩, /- TC_CTRL -/
  ⟨0x0054, 0x4, 1, 0xffff, 0x0, 0x0, 0x0, 0x0, 0x0, 0x3000⟩, /- SLV_CTRL -/
  ⟨0x0058, 0x4, 1, 0x0, 0x0, 0x0, 0x0, 0x0, 0x0, 0x7f8⟩, /- SLV_STATUS -/
  ⟨0x005c, 0x4, 1, 0x0, 0x0, 0x0, 0x0, 0x0, 0x0, 0x0⟩, /- SLV_OFFSET -/
  ⟨0x0060, 0x4, 1, 0x0, 0x0, 0x0, 0x0, 0x0, 0x0, 0x0⟩, /- SLV_MPD -/
  ⟨0x0064, 0x4, 1, 0x0, 0x0, 0x0, 0x0, 0x0, 0x0, 0x0⟩ /- SLV_GM_LO -/]
def ptpRows1 : List RegRow := [
  ⟨0x0068, 0x4, 1, 0x0, 0x0, 0x0, 0x0, 0x0, 0x0, 0x0⟩, /- SLV_GM_HI -/
  ⟨0x006c, 0x4, 1, 0x0, 0xffffffff, 0x0, 0x0, 0x0, 0x0, 0x0⟩, /- CLKID_LO -/
  ⟨0x0070, 0x4, 1, 0x0, 0xffffffff, 0x0, 0x0, 0x0, 0x0, 0x0⟩, /- CLKID_HI -/
  ⟨0x0074, 0x4, 1, 0xffffffff, 0x0, 0x0, 0x0, 0x0, 0x0, 0x0⟩, /- SRC_MAC_LO -/
  ⟨0x0078, 0x4, 1, 0xffff, 0x0, 0x0, 0x0, 0x0, 0x0, 0x0⟩, /- SRC_MAC_HI -/
  ⟨0x007c, 0x4, 1, 0xffffffff, 0x0, 0x0, 0x0, 0x0, 0x0, 0x0⟩, /- SRC_IP4 -/
  ⟨0x0080, 0x4, 1, 0x0, 0x0, 0x0, 0x0, 0xffffffff, 0x0, 0x0⟩, /- TC_UNM -/
  ⟨0x0084, 0x4, 1, 0x0, 0x0, 0x0, 0x0, 0xffffffff, 0x0, 0x0⟩, /- TC_DISC -/
  ⟨0x0100, 0x20, 2, 0x7f, 0x0, 0x0, 0x0, 0x0, 0x0, 0x0⟩, /- SVCp_CTRL -/
  ⟨0x0104, 0x20, 2, 0x0, 0x0, 0x0, 0x0, 0x0, 0x0, 0x0⟩, /- SVCp_STATUS -/
  ⟨0x0108, 0x20, 2, 0xffff, 0x0, 0x0, 0x0, 0x0, 0x0, 0x0⟩, /- SVCp_RXDLY -/
  ⟨0x010c, 0x20, 2, 0xffff, 0x0, 0x0, 0x0, 0x0, 0x0, 0x0⟩, /- SVCp_TXDLY -/
  ⟨0x0110, 0x20, 2, 0xffffffff, 0x0, 0x0, 0x0, 0x0, 0x0, 0x0⟩, /- SVCp_ASYM -/
  ⟨0x0114, 0x20, 2, 0x0, 0x0, 0x0, 0x0, 0x0, 0x0, 0x0⟩, /- SVCp_MLD -/
  ⟨0x0118, 0x20, 2, 0x0, 0x0, 0x0, 0x0, 0xffffffff, 0x0, 0x0⟩, /- SVCp_FWD -/
  ⟨0x011c, 0x20, 2, 0x0, 0x0, 0x0, 0x0, 0xffffffff, 0x0, 0x0⟩, /- SVCp_DROP -/
  ⟨0x0200, 0x4, 11, 0x0, 0x0, 0x0, 0x0, 0x0, 0x0, 0x0⟩, /- TSLASTk -/
  ⟨0x0300, 0x4, 1, 0x0, 0x0, 0x0, 0x0, 0x0, 0x0, 0x0⟩, /- CDSTATUS -/
  ⟨0x0304, 0x4, 1, 0x0, 0x0, 0x0, 0x0, 0x0, 0x3, 0x0⟩, /- CDCOMMIT -/
  ⟨0x1000, 0x4, 256, 0xffffffff, 0x0, 0x0, 0x0, 0x0, 0x0, 0x0⟩, /- CD bank 0 -/
  ⟨0x1800, 0x4, 256, 0xffffffff, 0x0, 0x0, 0x0, 0x0, 0x0, 0x0⟩ /- CD bank 1 -/]
/-- The register table of block PTP. -/
def ptpRows : List RegRow := ptpRows0 ++ ptpRows1

def ckgRows0 : List RegRow := [
  ⟨0x0000, 0x4, 1, 0x0, 0x0, 0x1fff, 0x0, 0x0, 0x0, 0x0⟩, /- STAT -/
  ⟨0x0004, 0x4, 1, 0xffffffff, 0x0, 0x0, 0x0, 0x0, 0x0, 0x0⟩, /- MASK -/
  ⟨0x0008, 0x4, 1, 0x0, 0x0, 0x0, 0x0, 0x0, 0x0, 0x0⟩, /- CAUSE -/
  ⟨0x0010, 0x4, 1, 0x0, 0x0, 0x0, 0x0, 0x0, 0x0, 0x80⟩, /- READY -/
  ⟨0x0014, 0x4, 1, 0x0, 0x0, 0x0, 0x4, 0x0, 0x0, 0x0⟩, /- AON -/
  ⟨0x0020, 0x10, 4, 0x3, 0x0, 0x0, 0x0, 0x0, 0x0, 0x0⟩, /- PLLk_CTRL -/
  ⟨0x0024, 0x10, 4, 0x0, 0x7fff, 0x0, 0x0, 0x0, 0x0, 0x0⟩, /- PLLk_CFG -/
  ⟨0x0028, 0x10, 4, 0x7, 0x0, 0x0, 0x0, 0x0, 0x0, 0x6⟩, /- DOMk_SRC -/
  ⟨0x002c, 0x10, 4, 0x0, 0x0, 0x0, 0x0, 0x0, 0x0, 0x2⟩, /- DOMk_STATUS -/
  ⟨0x0060, 0x4, 1, 0x0, 0x0, 0x0, 0x0, 0x0, 0x7f, 0x0⟩, /- GATE_CMD -/
  ⟨0x0064, 0x4, 1, 0x0, 0x0, 0x0, 0x0, 0x0, 0x0, 0x0⟩, /- GATE_RES -/
  ⟨0x0068, 0x4, 1, 0x0, 0x0, 0x0, 0x0, 0x0, 0x0, 0x3fffffff⟩, /- GATE_OPEN -/
  ⟨0x006c, 0x4, 1, 0x0, 0x0, 0x0, 0x0, 0x0, 0x0, 0x0⟩, /- GATE_PEND -/
  ⟨0x0070, 0x4, 1, 0x0, 0x0, 0x0, 0x0, 0xffffffff, 0x0, 0x0⟩, /- FSW_CNT -/
  ⟨0x0074, 0x4, 1, 0x0, 0x0, 0x0, 0x0, 0xffffffff, 0x0, 0x0⟩ /- GTO_CNT -/]
/-- The register table of block CKG. -/
def ckgRows : List RegRow := ckgRows0

def pwrRows0 : List RegRow := [
  ⟨0x0000, 0x4, 1, 0x0, 0x0, 0x1ff, 0x0, 0x0, 0x0, 0x0⟩, /- STAT -/
  ⟨0x0004, 0x4, 1, 0xffffffff, 0x0, 0x0, 0x0, 0x0, 0x0, 0x0⟩, /- MASK -/
  ⟨0x0008, 0x4, 1, 0x0, 0x0, 0x0, 0x0, 0x0, 0x0, 0x0⟩, /- CAUSE -/
  ⟨0x0010, 0x4, 1, 0x2, 0x0, 0x0, 0x1, 0x0, 0x0, 0x0⟩, /- CTRL -/
  ⟨0x0014, 0x4, 1, 0x0, 0x0, 0x0, 0x0, 0x0, 0x0, 0x0⟩, /- STATUS -/
  ⟨0x0018, 0x4, 1, 0x0, 0x0, 0x0, 0x0, 0x0, 0x0, 0x1ffff⟩, /- DOM_ON -/
  ⟨0x001c, 0x4, 1, 0x0, 0x0, 0x0, 0x0, 0x0, 0x0, 0x0⟩, /- VETO -/
  ⟨0x0020, 0x4, 1, 0x0, 0x0, 0xff, 0x0, 0x0, 0x0, 0xff⟩, /- RET_BAD -/
  ⟨0x0100, 0x4, 17, 0x3, 0x0, 0x0, 0x0, 0x0, 0x0, 0x0⟩, /- VOTEd -/
  ⟨0x0200, 0x4, 8, 0x0, 0x0, 0x0, 0x0, 0x0, 0x0, 0x0⟩ /- RETn_CRC -/]
/-- The register table of block PWR. -/
def pwrRows : List RegRow := pwrRows0

def ledRows0 : List RegRow := [
  ⟨0x0000, 0x4, 1, 0x0, 0x0, 0x7f, 0x0, 0x0, 0x0, 0x0⟩, /- STAT -/
  ⟨0x0004, 0x4, 1, 0xffffffff, 0x0, 0x0, 0x0, 0x0, 0x0, 0x0⟩, /- MASK -/
  ⟨0x0008, 0x4, 1, 0x0, 0x0, 0x0, 0x0, 0x0, 0x0, 0x0⟩, /- CAUSE -/
  ⟨0x0010, 0x4, 1, 0x5, 0x0, 0x0, 0x2, 0x0, 0x0, 0x5⟩, /- CTRL -/
  ⟨0x0014, 0x4, 1, 0x1ff, 0x0, 0x0, 0x0, 0x0, 0x0, 0x168⟩, /- CEIL_SW -/
  ⟨0x0018, 0x4, 1, 0x3f, 0x0, 0x0, 0x0, 0x0, 0x0, 0xa⟩, /- RESERVE -/
  ⟨0x001c, 0x4, 1, 0xff, 0x0, 0x0, 0x0, 0x0, 0x0, 0x8⟩, /- MARGIN -/
  ⟨0x0020, 0x4, 1, 0x0, 0x0, 0x0, 0x0, 0x0, 0x0, 0x0⟩, /- STATUS -/
  ⟨0x0024, 0x4, 1, 0x0, 0x0, 0x0, 0x0, 0x0, 0x0, 0x0⟩, /- BASE -/
  ⟨0x0028, 0x4, 1, 0x0, 0xffffffff, 0x0, 0x0, 0x0, 0x0, 0x0⟩, /- COEF_LO -/
  ⟨0x002c, 0x4, 1, 0x0, 0xffff, 0x0, 0x0, 0x0, 0x0, 0x0⟩, /- COEF_HI -/
  ⟨0x0030, 0x4, 1, 0x0, 0xffffffff, 0x0, 0x0, 0x0, 0x0, 0x0⟩, /- RPT_LO -/
  ⟨0x0034, 0x4, 1, 0x0, 0xffff, 0x0, 0x0, 0x0, 0x0, 0x0⟩, /- RPT_HI -/
  ⟨0x0038, 0x4, 1, 0x0, 0x0, 0x0, 0x0, 0x0, 0x0, 0x0⟩, /- MB_HEAD -/
  ⟨0x003c, 0x4, 1, 0x0, 0x0, 0x0, 0x0, 0x0, 0x0, 0x0⟩, /- MB_FRAME_LO -/
  ⟨0x0040, 0x4, 1, 0x0, 0x0, 0x0, 0x0, 0x0, 0x0, 0x0⟩, /- MB_FRAME_HI -/
  ⟨0x0044, 0x4, 1, 0x0, 0x0, 0x0, 0x0, 0xffffffff, 0x0, 0x0⟩, /- SHED_CNT -/
  ⟨0x0048, 0x4, 1, 0x0, 0x0, 0x0, 0x0, 0xffffffff, 0x0, 0x0⟩, /- DEFER_CNT -/
  ⟨0x004c, 0x4, 1, 0x0, 0x0, 0x0, 0x0, 0xffffffff, 0x0, 0x0⟩, /- BRAKE_CNT -/
  ⟨0x0050, 0x4, 1, 0x0, 0x0, 0x0, 0x0, 0xffffffff, 0x0, 0x0⟩, /- DEFICIT_CNT -/
  ⟨0x0100, 0x8, 13, 0xffff, 0x0, 0x0, 0x0, 0x0, 0x0, 0x0⟩, /- RAILr_CFG -/
  ⟨0x0104, 0x8, 13, 0x0, 0x0, 0x0, 0x0, 0x0, 0x0, 0x4000⟩ /- RAILr_CORR -/]
/-- The register table of block LED. -/
def ledRows : List RegRow := ledRows0

def thmRows0 : List RegRow := [
  ⟨0x0000, 0x4, 1, 0x0, 0x0, 0x1f, 0x0, 0x0, 0x0, 0x0⟩, /- STAT -/
  ⟨0x0004, 0x4, 1, 0xffffffff, 0x0, 0x0, 0x0, 0x0, 0x0, 0x0⟩, /- MASK -/
  ⟨0x0008, 0x4, 1, 0x0, 0x0, 0x0, 0x0, 0x0, 0x0, 0x0⟩, /- CAUSE -/
  ⟨0x0010, 0x4, 1, 0xfffff, 0x0, 0x0, 0x0, 0x0, 0x0, 0x8646e⟩, /- CTRL -/
  ⟨0x0014, 0x4, 1, 0x0, 0x0, 0x0, 0x0, 0x0, 0x0, 0x0⟩, /- STATUS -/
  ⟨0x0018, 0x4, 1, 0x0, 0x0, 0x0, 0x0, 0x0, 0x0, 0x0⟩, /- STEP -/
  ⟨0x001c, 0x4, 1, 0x0, 0x0, 0x0, 0x0, 0x0, 0x0, 0x0⟩, /- BROKEN -/
  ⟨0x0020, 0x4, 1, 0x0, 0x0, 0x0, 0x0, 0x0, 0x0, 0x0⟩, /- MAXT -/
  ⟨0x0024, 0x4, 1, 0xff, 0x0, 0x0, 0x0, 0x0, 0x0, 0x0⟩, /- LOG_IDX -/
  ⟨0x0028, 0x4, 1, 0x0, 0x0, 0x0, 0x0, 0x0, 0x0, 0x0⟩, /- LOG_LO -/
  ⟨0x002c, 0x4, 1, 0x0, 0x0, 0x0, 0x0, 0x0, 0x0, 0x0⟩, /- LOG_HI -/
  ⟨0x0030, 0x4, 1, 0x0, 0x0, 0x0, 0x0, 0x0, 0x1ff, 0x0⟩, /- ACK -/
  ⟨0x0100, 0x4, 28, 0x0, 0x0, 0x0, 0x0, 0x0, 0x0, 0x0⟩ /- SENSs -/]
/-- The register table of block THM. -/
def thmRows : List RegRow := thmRows0

def cfgRows0 : List RegRow := [
  ⟨0x0000, 0x4, 1, 0x0, 0x0, 0x3fff, 0x0, 0x0, 0x0, 0x0⟩, /- STAT -/
  ⟨0x0004, 0x4, 1, 0xffffffff, 0x0, 0x0, 0x0, 0x0, 0x0, 0x0⟩, /- MASK -/
  ⟨0x0008, 0x4, 1, 0x0, 0x0, 0x0, 0x0, 0x0, 0x0, 0x0⟩, /- CAUSE -/
  ⟨0x0010, 0x4, 1, 0x0, 0x0, 0x0, 0x0, 0x0, 0x0, 0x0⟩, /- STATUS -/
  ⟨0x0014, 0x4, 1, 0x0, 0x0, 0x0, 0x0, 0x0, 0x0, 0x0⟩, /- STRAP -/
  ⟨0x0018, 0x4, 1, 0x0, 0x0, 0x0, 0x1, 0x0, 0x0, 0x0⟩, /- LOCK -/
  ⟨0x001c, 0x4, 1, 0x0, 0xffffffff, 0x0, 0x0, 0x0, 0x0, 0x0⟩, /- STAGE_LO -/
  ⟨0x0020, 0x4, 1, 0x0, 0xffff, 0x0, 0x0, 0x0, 0x0, 0x0⟩, /- STAGE_HI -/
  ⟨0x0024, 0x4, 1, 0x1fffffff, 0x0, 0x0, 0x0, 0x0, 0x0, 0x0⟩, /- STAGE_LEN -/
  ⟨0x0028, 0x4, 1, 0xfe, 0x0, 0x0, 0x1, 0x0, 0x0, 0x0⟩, /- LOAD -/
  ⟨0x002c, 0x4, 1, 0x0, 0x0, 0x0, 0x0, 0x0, 0x0, 0x0⟩, /- LOAD_RES -/
  ⟨0x0030, 0x4, 1, 0x0, 0x0, 0x0, 0x1, 0x0, 0x0, 0x0⟩, /- OPEN -/
  ⟨0x0034, 0x4, 1, 0x0, 0x0, 0x0, 0x0, 0x0, 0x0, 0x0⟩, /- PART -/
  ⟨0x0038, 0x4, 1, 0x0, 0x0, 0x0, 0x0, 0x0, 0x0, 0x0⟩, /- CBELL_LO -/
  ⟨0x003c, 0x4, 1, 0x0, 0x0, 0x0, 0x0, 0x0, 0x0, 0x0⟩, /- CBELL_HI -/
  ⟨0x0040, 0x4, 1, 0x0, 0x0, 0x0, 0x0, 0x0, 0x0, 0x0⟩, /- IMG_VER -/
  ⟨0x0044, 0x4, 1, 0x0, 0x0, 0x0, 0x0, 0x0, 0x0, 0xffff⟩, /- CLE_LIVE -/
  ⟨0x0048, 0x4, 1, 0x1, 0x0, 0x0, 0x0, 0x0, 0x0, 0x0⟩, /- CAST -/
  ⟨0x004c, 0x4, 1, 0x0, 0x0, 0x0, 0x0, 0x0, 0x0, 0x0⟩, /- CAST_PROG -/
  ⟨0x0050, 0x4, 1, 0x0, 0x0, 0x0, 0x0, 0xffffffff, 0x0, 0x0⟩ /- REJ_CNT -/]
/-- The register table of block CFG. -/
def cfgRows : List RegRow := cfgRows0

def secRows0 : List RegRow := [
  ⟨0x0000, 0x4, 1, 0x0, 0x0, 0xff, 0x0, 0x0, 0x0, 0x0⟩, /- STAT -/
  ⟨0x0004, 0x4, 1, 0xffffffff, 0x0, 0x0, 0x0, 0x0, 0x0, 0x0⟩, /- MASK -/
  ⟨0x0008, 0x4, 1, 0x0, 0x0, 0x0, 0x0, 0x0, 0x0, 0x0⟩, /- CAUSE -/
  ⟨0x0010, 0x4, 1, 0x0, 0x0, 0x0, 0x0, 0x0, 0x0, 0x0⟩, /- STATUS -/
  ⟨0x0014, 0x4, 1, 0xf, 0x0, 0x0, 0x10, 0x0, 0x0, 0x0⟩, /- CMD -/
  ⟨0x0018, 0x4, 1, 0x0, 0x0, 0x0, 0x0, 0x0, 0x0, 0x0⟩, /- CMD_RES -/
  ⟨0x001c, 0x4, 1, 0xffffffff, 0x0, 0x0, 0x0, 0x0, 0x0, 0x0⟩, /- ARG -/
  ⟨0x0020, 0x4, 1, 0xffffff, 0x0, 0x0, 0x0, 0x0, 0x0, 0x400000⟩, /- POLICY -/
  ⟨0x0024, 0x4, 1, 0x0, 0x0, 0x0, 0x0, 0x0, 0x0, 0x0⟩, /- VIOL -/
  ⟨0x0028, 0x4, 1, 0x0, 0x0, 0x0, 0x0, 0xffffffff, 0x0, 0x0⟩, /- VIOL_CNT -/
  ⟨0x002c, 0x4, 1, 0x3f, 0x0, 0x0, 0x0, 0x0, 0x0, 0x0⟩, /- VLOG_IDX -/
  ⟨0x0030, 0x4, 1, 0x0, 0x0, 0x0, 0x0, 0x0, 0x0, 0x0⟩, /- VLOG_LO -/
  ⟨0x0034, 0x4, 1, 0x0, 0x0, 0x0, 0x0, 0x0, 0x0, 0x0⟩, /- VLOG_HI -/
  ⟨0x0038, 0x4, 1, 0x0, 0x0, 0x0, 0x0, 0x0, 0x0, 0x0⟩, /- EPOCH -/
  ⟨0x0040, 0x4, 8, 0xffffffff, 0x0, 0x0, 0x0, 0x0, 0x0, 0x0⟩, /- NONCEk -/
  ⟨0x0060, 0x4, 1, 0x0, 0xffffffff, 0x0, 0x0, 0x0, 0x0, 0x0⟩, /- RPT_LO -/
  ⟨0x0064, 0x4, 1, 0x0, 0xffff, 0x0, 0x0, 0x0, 0x0, 0x0⟩, /- RPT_HI -/
  ⟨0x0068, 0x4, 1, 0xffffffff, 0x0, 0x0, 0x0, 0x0, 0x0, 0x0⟩, /- BUF_LO -/
  ⟨0x006c, 0x4, 1, 0xffff, 0x0, 0x0, 0x0, 0x0, 0x0, 0x0⟩ /- BUF_HI -/]
/-- The register table of block SEC. -/
def secRows : List RegRow := secRows0

def mtxRows0 : List RegRow := [
  ⟨0x0000, 0x4, 1, 0x0, 0x0, 0xff, 0x0, 0x0, 0x0, 0x0⟩, /- STAT -/
  ⟨0x0004, 0x4, 1, 0xffffffff, 0x0, 0x0, 0x0, 0x0, 0x0, 0x0⟩, /- MASK -/
  ⟨0x0008, 0x4, 1, 0x0, 0x0, 0x0, 0x0, 0x0, 0x0, 0x0⟩, /- CAUSE -/
  ⟨0x0010, 0x4, 1, 0xfff, 0x0, 0x0, 0x0, 0x0, 0x0, 0x0⟩, /- MRST -/
  ⟨0x0014, 0x4, 1, 0x0, 0x0, 0x0, 0x0, 0x0, 0x0, 0x0⟩, /- MSTAT -/
  ⟨0x0018, 0x4, 1, 0xffff, 0x0, 0x0, 0x0, 0x0, 0x0, 0x3e8⟩, /- TMO -/
  ⟨0x001c, 0x4, 1, 0x0, 0x0, 0x0, 0x0, 0x0, 0x0, 0x0⟩, /- OUT_USE -/
  ⟨0x0020, 0x4, 1, 0x0, 0x0, 0x0, 0x0, 0xffffffff, 0x0, 0x0⟩, /- ERR_ADDR_LO -/
  ⟨0x0024, 0x4, 1, 0x0, 0x0, 0x0, 0x0, 0x0, 0x0, 0x0⟩, /- ERR_ADDR_HI -/
  ⟨0x0028, 0x4, 1, 0x0, 0x0, 0x0, 0x0, 0xffffffff, 0x0, 0x0⟩, /- ABANDON_CNT -/
  ⟨0x002c, 0x4, 1, 0xffffffff, 0x0, 0x0, 0x0, 0x0, 0x0, 0x0⟩, /- FL_ADDR -/
  ⟨0x0030, 0x4, 1, 0xffffffff, 0x0, 0x0, 0x0, 0x0, 0x0, 0x0⟩, /- FL_DATA -/
  ⟨0x0034, 0x4, 1, 0x3, 0x0, 0x0, 0x4, 0x0, 0x0, 0x0⟩, /- FL_CMD -/
  ⟨0x0100, 0x10, 12, 0xffffffff, 0x0, 0x0, 0x0, 0x0, 0x0, 0x88888888⟩, /- PRIm_LO -/
  ⟨0x0104, 0x10, 12, 0xff, 0x0, 0x0, 0x0, 0x0, 0x0, 0x88⟩, /- PRIm_HI -/
  ⟨0x0108, 0x10, 12, 0x3fff, 0x0, 0x0, 0x0, 0x0, 0x0, 0x400⟩, /- OUTm -/
  ⟨0x0200, 0x4, 10, 0xf, 0x0, 0x0, 0x0, 0x0, 0x0, 0x0⟩, /- PARKt -/
  ⟨0x0400, 0x4, 113, 0xff, 0x0, 0x0, 0x0, 0x0, 0x0, 0x0⟩ /- EVRd -/]
/-- The register table of block MTX. -/
def mtxRows : List RegRow := mtxRows0

def porRows0 : List RegRow := [
  ⟨0x0000, 0x4, 1, 0x0, 0x0, 0x7, 0x0, 0x0, 0x0, 0x0⟩, /- STAT -/
  ⟨0x0004, 0x4, 1, 0xffffffff, 0x0, 0x0, 0x0, 0x0, 0x0, 0x0⟩, /- MASK -/
  ⟨0x0008, 0x4, 1, 0x0, 0x0, 0x0, 0x0, 0x0, 0x0, 0x0⟩, /- CAUSE -/
  ⟨0x0010, 0x4, 1, 0x0, 0x0, 0x0, 0x0, 0xffffffff, 0x0, 0x0⟩, /- TRIG_LOST_CNT -/
  ⟨0x0100, 0x10, 32, 0x1, 0x0, 0x0, 0x0, 0x0, 0x0, 0x0⟩, /- CHc_CTRL -/
  ⟨0x0104, 0x10, 32, 0xffffffff, 0x0, 0x0, 0x0, 0x0, 0x0, 0x0⟩, /- CHc_DESC_LO -/
  ⟨0x0108, 0x10, 32, 0xffff, 0x0, 0x0, 0x0, 0x0, 0x0, 0x0⟩, /- CHc_DESC_HI -/
  ⟨0x010c, 0x10, 32, 0x0, 0x0, 0x0, 0x0, 0x0, 0x0, 0x0⟩, /- CHc_STATUS -/
  ⟨0x0400, 0x4, 32, 0x0, 0x0, 0x0, 0x0, 0x0, 0x0, 0x0⟩ /- CHc_CNT -/]
/-- The register table of block POR. -/
def porRows : List RegRow := porRows0

def pmcRows0 : List RegRow := [
  ⟨0x0000, 0x4, 1, 0x0, 0x0, 0x3, 0x0, 0x0, 0x0, 0x0⟩, /- STAT -/
  ⟨0x0004, 0x4, 1, 0xffffffff, 0x0, 0x0, 0x0, 0x0, 0x0, 0x0⟩, /- MASK -/
  ⟨0x0008, 0x4, 1, 0x0, 0x0, 0x0, 0x0, 0x0, 0x0, 0x0⟩, /- CAUSE -/
  ⟨0x0010, 0x4, 1, 0xf81, 0x0, 0x0, 0x0, 0x0, 0x0, 0x280⟩, /- CTRL -/
  ⟨0x0014, 0x4, 1, 0xffffffff, 0x0, 0x0, 0x0, 0x0, 0x0, 0x0⟩, /- BASE_LO -/
  ⟨0x0018, 0x4, 1, 0xffff, 0x0, 0x0, 0x0, 0x0, 0x0, 0x0⟩, /- BASE_HI -/
  ⟨0x001c, 0x4, 1, 0xffff, 0x0, 0x0, 0x0, 0x0, 0x0, 0x10⟩, /- NREC -/
  ⟨0x0020, 0x4, 1, 0x0, 0x0, 0x0, 0x0, 0x0, 0x0, 0x0⟩, /- SEQ -/
  ⟨0x0100, 0x4, 31, 0x0, 0x0, 0xff, 0x0, 0x0, 0x0, 0x0⟩, /- OVFb -/
  ⟨0x1000, 0x4, 248, 0xffffffff, 0x0, 0x0, 0x0, 0x0, 0x0, 0x0⟩, /- CNTb_i -/
  ⟨0x2000, 0x4, 248, 0xff, 0x0, 0x0, 0x0, 0x0, 0x0, 0x0⟩ /- SELb_i -/]
/-- The register table of block PMC. -/
def pmcRows : List RegRow := pmcRows0

def pciRows0 : List RegRow := [
  ⟨0x0000, 0x4, 1, 0x0, 0x0, 0x1f, 0x0, 0x0, 0x0, 0x0⟩, /- STAT -/
  ⟨0x0004, 0x4, 1, 0xffffffff, 0x0, 0x0, 0x0, 0x0, 0x0, 0x0⟩, /- MASK -/
  ⟨0x0008, 0x4, 1, 0x0, 0x0, 0x0, 0x0, 0x0, 0x0, 0x0⟩, /- CAUSE -/
  ⟨0x0010, 0x4, 1, 0x0, 0x0, 0x0, 0x0, 0x0, 0x0, 0x0⟩, /- ID -/
  ⟨0x0014, 0x4, 1, 0x0, 0x0, 0x0, 0x0, 0x0, 0x0, 0x0⟩, /- LINK -/
  ⟨0x0018, 0x4, 1, 0x0, 0x3f, 0x0, 0x0, 0x0, 0x0, 0x1c⟩, /- WIN -/
  ⟨0x001c, 0x4, 1, 0xffffffff, 0x0, 0x0, 0x0, 0x0, 0x0, 0x0⟩, /- WINBASE_LO -/
  ⟨0x0020, 0x4, 1, 0xffff, 0x0, 0x0, 0x0, 0x0, 0x0, 0x0⟩, /- WINBASE_HI -/
  ⟨0x0024, 0x4, 1, 0x0, 0x0, 0x0, 0x0, 0xffffffff, 0x0, 0x0⟩, /- CORR_CNT -/
  ⟨0x0028, 0x4, 1, 0x0, 0x0, 0x0, 0x0, 0xffffffff, 0x0, 0x0⟩ /- UNCORR_CNT -/]
/-- The register table of block PCI. -/
def pciRows : List RegRow := pciRows0

/-- The rows of register block `b` (R6), empty for a number that is no block. -/
def blockRows (b : Nat) : List RegRow :=
  if b = 0 then belRows else
  if b = 4 then ingRows else
  if b = 5 then fflRows else
  if b = 6 then chnRows else
  if b = 7 then canRows else
  if b = 3 then pitRows else
  if b = 17 then rrgRows else
  if 8 ≤ b ∧ b ≤ 13 then stlRows else
  if b = 14 then aisRows else
  if b = 15 then crnRows else
  if b = 16 then calRows else
  if b = 19 then outRows else
  if b = 18 then dmcRows else
  if b = 20 then cleRows else
  if b = 21 then melRows else
  if b = 22 then ptpRows else
  if b = 23 then ckgRows else
  if b = 24 then pwrRows else
  if b = 25 then ledRows else
  if b = 26 then thmRows else
  if b = 1 then cfgRows else
  if b = 2 then secRows else
  if b = 27 then mtxRows else
  if b = 28 then porRows else
  if b = 29 then pmcRows else
  if b = 30 then pciRows else
  []

end Sys2Proof.Machine
end

