-- ==== Sys2Proof/Machine/Ops.lean ====
section
/-! DEFINITION. The named operations every meaning uses: time, registers and fields under R6 to R11, events with their
counters and routes (R7, R8, R441 to R449), memory (R5, R12), free values, and what leaves the device. -/
namespace Sys2Proof.Machine

abbrev Out3 := Host.Outcome State Fault Refusal

/-- One nanosecond in the time unit of R14. -/
def ns : Nat := 65536

/-- What station time gains on device time over dt while an offset is slewed out (R306): at most SLEW ns in a second, until the offset is
gone. -/
def State.slewed (s : State) (dt : Nat) : Int :=
  let most : Int := s.mel.slew * dt / 1000000000
  if s.mel.offset < 0 then max s.mel.offset (-most) else min s.mel.offset most

/-- Station time moves on to t, and device time with it but for the slew; station time never runs back here (log entry 2). -/
def State.at (s : State) (t : Nat) : State :=
  let dt := t - s.now
  { s with now := max s.now t, up := s.up + (dt - s.slewed dt).toNat, mel := { s.mel with offset := s.mel.offset - s.slewed dt } }

/-- The outputs of the time cores hold their last values: a switch-over gap (R309, R313). -/
def State.inGap (s : State) : Bool := decide (s.mel.gapFrom ≤ s.now ∧ s.now < s.mel.gapTo)

/-- Station time as the output stage gives it: held in a gap (R313). -/
def State.heldNow (s : State) : Nat := if s.inGap then s.mel.gapFrom else s.now

/-- num / den in whole units where the spec states no rounding: the quotient where it is whole, else the whole number below
or above it, as the implementation does (log entry 7). -/
def roundOpen (rule : Nat) (num den : Int) : Int :=
  if num % den = 0 then num / den else if Config.roundUp rule num den then num / den + 1 else num / den

/-! ## Registers -/

/-- Is `d` an address of the rows `r`, and which of its registers? -/
def RegRow.index? (r : RegRow) (off : Nat) : Option Nat :=
  if r.off ≤ off then
    let k := (off - r.off) / r.stride
    if k < r.count then if off = r.off + k * r.stride then some k else none else none
  else none

/-- The row of the register table that names offset `off`, with the register's number in the row. -/
def rowAt : List RegRow → Nat → Option (RegRow × Nat)
  | [], _ => none
  | r :: l, off => match r.index? off with
    | some k => some (r, k)
    | none => rowAt l off

/-- The row that names register r (R6), and its number in the row. STL1 to STL5 have no device-wide registers (R181). -/
def regRow (r : Reg) : Option (RegRow × Nat) :=
  if 9 ≤ r / 65536 ∧ r / 65536 ≤ 13 ∧ 0x100 ≤ r % 65536 then none else rowAt (blockRows (r / 65536)) (r % 65536)

/-- The reset masks of DMC.HASHm: the bits of A that each hashed bit takes (R252). -/
def hashResetMask (m : Nat) : Nat :=
  let f (l : List Nat) := l.foldl (fun a k => a + 2 ^ k) 0
  if m < 4 then f [8 + m, 16 + m, 24 + m, 32 + m]
  else if m < 7 then f [13 + (m - 4), 28 + (m - 4), 36 + (m - 4)]
  else f [21 + (m - 7), 31 + (m - 7), 39 + (m - 7)]

/-- The domains an IZ4 does not have: the cores and window stores of stall dies 2 to 5 (PWR.DOM_ON reset, R358). -/
def domainPresent (p : Part) (d : Nat) : Bool :=
  match p with
  | .iz8 => d < 17
  | .iz4 => (0x1FE1F).testBit d

/-- MEL.PRIO by the REF_PRIO strap: the priority of each candidate (R300). -/
def prioOf (strap : Nat) : Nat :=
  let l : List Nat := atD [[0, 1, 2, 3, 4, 5], [1, 0, 2, 3, 4, 5], [1, 2, 0, 3, 4, 5], [3, 4, 5, 1, 2, 0]] strap []
  l.foldr (fun p a => p + 8 * a) 0

/-- The class ceiling by the PWR_CLASS strap, W (R374). -/
def classWatts (p : Part) (strap : Nat) : Nat :=
  match p with
  | .iz8 => 180 + 60 * (strap % 4)
  | .iz4 => atD [90, 120, 150, 170] (strap % 4) 0

/-- Reset values the register tables give by reference (`see R252` and the like) or by the part. -/
def resetSpecial (p : Part) (serial : Nat) (r : Reg) : Option Nat :=
  let b := r / 65536
  let o := r % 65536
  if b = 0x12 then
    if 0x100 ≤ o ∧ o < 0x148 then
      let m := hashResetMask ((o - 0x100) / 8)
      if o % 8 = 0 then some (m % 2 ^ 32) else some (m / 2 ^ 32)
    else if 0x200 ≤ o ∧ o < 0x240 then
      some (12 + atD [3, 0, 0, 0, 1, 1, 1, 2, 2, 2, 2, 1, 1, 1, 2, 1] ((o - 0x200) / 4) 0)
    else none
  else if b = 0x17 then
    if o = 0x24 then some 0x10C8 else if o = 0x34 then some 0x10C0 else if o = 0x44 then some 0x10A0
    else if o = 0x54 then some 0x50C8
    else if o = 0x68 then (match p with | .iz8 => none | .iz4 => some 0x3FF86187)
    else none
  else if b = 0x18 then
    if o = 0x18 then (match p with | .iz8 => none | .iz4 => some 0x1FE1F)
    else if 0x100 ≤ o ∧ o < 0x144 then
      let d := (o - 0x100) / 4
      some (if domainPresent p d then (if d = 0 ∨ d = 1 ∨ d = 13 then 0x100 else 0x101) else 0)
    else none
  else if b = 3 ∧ o = 0x1C then some (serial % 2 ^ 32)
  else if b = 3 ∧ o = 0x20 then some (serial / 2 ^ 32 % 2 ^ 32)
  else if b = 0x16 ∧ o = 0x6C then some (serial % 2 ^ 32)
  else if b = 0x16 ∧ o = 0x70 then some (serial / 2 ^ 32 % 2 ^ 32)
  else if b = 0x15 ∧ o = 0x1C then some (prioOf 0)
  else if b = 0x16 ∧ o = 0x14 then some 0x200
  else if b = 0x19 ∧ o = 0x20 then some (classWatts p 0)
  else if b = 0x1E ∧ o = 0x10 then some (match p with | .iz8 => 0x01080000 | .iz4 => 0x01040000)
  else none

/-- The reset value of register r. -/
def resetOf (p : Part) (serial : Nat) (r : Reg) : Word :=
  BitVec.ofNat 32 (match resetSpecial p serial r with
    | some v => v
    | none => match regRow r with
      | some (row, _) => row.reset
      | none => 0)

/-- The stored value of register r. -/
def State.reg (s : State) (r : Reg) : Word := Store.getD s.regs r (resetOf s.part s.serial r)

/-- Register r's stored value becomes v. -/
def State.setReg (s : State) (r : Reg) (v : Word) : State := { s with regs := Store.put s.regs r v }

/-- The value of a field. -/
def State.fld (s : State) (f : Fld) : Nat := bits (s.reg f.reg).toNat f.lo f.wid

def State.flag (s : State) (f : Fld) : Bool := (s.reg f.reg).toNat.testBit f.lo

/-- A field becomes n modulo its width; the register's other bits stay. -/
def State.setFld (s : State) (f : Fld) (n : Nat) : State :=
  s.setReg f.reg (BitVec.ofNat 32 (putBits (s.reg f.reg).toNat f.lo f.wid n))

def State.setFlag (s : State) (f : Fld) (b : Bool) : State := s.setFld f (boolNat b)

/-- A whole register as a number. -/
def State.regN (s : State) (r : Reg) : Nat := (s.reg r).toNat

def State.setRegN (s : State) (r : Reg) (n : Nat) : State := s.setReg r (BitVec.ofNat 32 n)

/-- A counter register rises by k and saturates at 0xFFFF_FFFF. -/
def State.bump (s : State) (r : Reg) (k : Nat) : State := s.setRegN r (satAdd32 (s.regN r) k)

/-- The 48- or 64-bit value of a LO and HI register pair. -/
def State.pair (s : State) (lo hi : Reg) : Nat := s.regN lo + s.regN hi * 2 ^ 32

def State.setPair (s : State) (lo hi : Reg) (n : Nat) : State :=
  (s.setRegN lo (n % 2 ^ 32)).setRegN hi (n / 2 ^ 32 % 2 ^ 32)

/-! ## Events (R7, R8) and the counters and routes they feed (R441 to R449) -/

/-- The register number of STAT, MASK of block b. -/
def statOf (b : Nat) : Reg := b * 65536
def maskOf (b : Nat) : Reg := b * 65536 + 4

/-- A block's line is high while its CAUSE is not zero (R8). -/
def lineHigh (stat mask : Word) : Bool := stat &&& mask != 0#32

def State.line (s : State) (b : Nat) : Bool := lineHigh (s.reg (statOf b)) (s.reg (maskOf b))

/-- One counter register of PMC: counts k more, and at each wrap its OVF bit is set (R448). -/
def pmcBump (part : Part) (serial : Nat) (regs : Store Word) (c k : Nat) : Store Word :=
  let a := 0x1D1000 + 4 * c
  let v := (Store.getD regs a (resetOf part serial a)).toNat + k
  let regs := Store.put regs a (BitVec.ofNat 32 v)
  if v < 2 ^ 32 then regs
  else
    let o := 0x1D0100 + 4 * (c / 8)
    Store.put regs o (Store.getD regs o 0#32 ||| BitVec.ofNat 32 (2 ^ (c % 8)))

/-- The counters of block b whose SEL names `code` (R447), by number 8b + i. Only a listed SEL can name a code. -/
def pmcHits (regs : Store Word) (b code : Nat) : List Nat :=
  regs.filterMap (fun (a, v) =>
    if 0x1D2000 + 32 * b ≤ a ∧ a < 0x1D2000 + 32 * b + 32 ∧ a % 4 = 0 ∧ v.toNat % 256 = code
    then some ((a - 0x1D2000) / 4) else none)

/-- Event `code` of block b happens k times (R447). -/
def pmcCount (part : Part) (serial : Nat) (regs : Store Word) (b code k : Nat) : Store Word :=
  (pmcHits regs b code).foldl (fun r c => pmcBump part serial r c k) regs

/-- The destinations that MTX.EVRd routes `src` to, EN = 1 (R441). -/
def routesOf (regs : Store Word) (src : Nat) : List Nat :=
  regs.filterMap (fun (a, v) =>
    if 0x1B0400 ≤ a ∧ a < 0x1B0400 + 4 * 113 ∧ a % 4 = 0 ∧ v.toNat % 128 = src ∧ v.toNat.testBit 7
    then some ((a - 0x1B0400) / 4) else none)

/-- The TAG of a HOST trigger (R143). -/
def hostTag (regs : Store Word) : Nat :=
  (Store.getD regs RRG.HOST_TAG_LO 0#32).toNat + (Store.getD regs RRG.HOST_TAG_HI 0#32).toNat * 2 ^ 32

/-- What a write of 1 to RRG.HOST_TRIG.GO puts on its way: a HOST trigger, while its bit of RRG.TRIG.EN is 1 (R143). -/
def hostTrigger (regs : Store Word) : List Trigger :=
  if (Store.getD regs RRG.TRIG 0#32).toNat.testBit 0
  then [{ source := 0, tag := hostTag regs, bell := 0, pre := 0, post := 0, origin := 0 }] else []

/-- A clerk core with IPEND bit k set (R283). -/
def Core.pend (c : Core) (k : Nat) : Core :=
  { c with r := Store.put c.r 0x4B (setBit (Store.getD c.r 0x4B 0) k true) }

/-- What an edge of event source `src` does at its destinations (R442, R443). -/
structure Edges where
  sent : List Out
  msixPend : Nat
  cores : List Core
  porTrig : List Nat
  trigQ : List Trigger

/-- Deliver one edge to destination d: an MSI-X vector sends its message, or pends it while masked; a clerk event input
sets IPEND of every core; a porter trigger and a HOST capture trigger go on their way. -/
def Edges.deliver (mask : Nat) (host : List Trigger) (e : Edges) (d : Nat) : Edges :=
  if d < 64 then
    if mask.testBit d then { e with msixPend := setBit e.msixPend d true }
    else { e with sent := .msix d :: e.sent }
  else if d < 80 then { e with cores := e.cores.map (fun c => c.pend (16 + (d - 64))) }
  else if d < 112 then { e with porTrig := e.porTrig ++ [d - 80] }
  else { e with trigQ := e.trigQ ++ host }

def State.edges (s : State) : Edges :=
  { sent := s.sent, msixPend := s.msixPend, cores := s.cores, porTrig := s.porTrig, trigQ := s.trigQ }

/-- The edge of source `src` reaches every destination routed to it. -/
def State.edgesOf (s : State) (regs : Store Word) (src : Nat) : Edges :=
  (routesOf regs src).foldl (Edges.deliver s.msixMask (hostTrigger regs)) s.edges

/-- A pulse of source `src` (R441): porter events, BELL, EVT pins. -/
def State.pulse (s : State) (src : Nat) : State :=
  let e := s.edgesOf s.regs src
  { s with sent := e.sent, msixPend := e.msixPend, cores := e.cores, porTrig := e.porTrig, trigQ := e.trigQ }

/-- New register contents: where the line of block b rises with them, its edge is delivered (R442). -/
def State.withLine (s : State) (b : Nat) (regs : Store Word) : State :=
  let hi (rs : Store Word) := lineHigh (Store.getD rs (statOf b) 0#32) (Store.getD rs (maskOf b) 0#32)
  let e := if !(hi s.regs) && hi regs then s.edgesOf regs b else s.edges
  { s with regs := regs, sent := e.sent, msixPend := e.msixPend, cores := e.cores, porTrig := e.porTrig, trigQ := e.trigQ }

/-- Hardware sets the event bit f of a STAT register (R7): the sticky bit is set, counters selecting it count (R447), and a
rising line of the block reaches its routes (R8, R442). -/
def State.raise (s : State) (f : Fld) : State :=
  let b := f.reg / 65536
  let stat := Store.getD s.regs f.reg 0#32 ||| BitVec.ofNat 32 (2 ^ f.lo)
  s.withLine b (pmcCount s.part s.serial (Store.put s.regs f.reg stat) b (0x20 + f.lo) 1)

def State.raiseIf (s : State) (c : Bool) (f : Fld) : State := if c then s.raise f else s

/-- ALERT_N is asserted (R444): some block line is high, or a sequence asserts it directly. -/
def State.alert (s : State) : Bool := s.alertDirect || (List.range 31).any s.line

/-! ## Memory (R5, R12) -/

/-- The canonical form of memory: addresses strictly rising, no entry equal to what an unlisted byte reads as. -/
def Memory.wf (m : List Host.Cell) : Bool := Store.wf 0#8 m

def State.byte (s : State) (a : Nat) : Byte := Store.getD s.mem a 0#8

def memWrite (m : List Host.Cell) (a : Nat) : List Byte → List Host.Cell
  | [] => m
  | b :: l => memWrite (Store.set 0#8 m a b) (a + 1) l

/-- Bytes are stored from address a up; the memory stays in its canonical form. -/
def State.write (s : State) (a : Nat) (l : List Byte) : State := { s with mem := memWrite s.mem a l }

def State.read (s : State) (a n : Nat) : List Byte := (List.range n).map (fun i => s.byte (a + i))

/-- n bytes from a as a little-endian number. -/
def State.readN (s : State) (a n : Nat) : Nat := ofBytes (s.read a n)

def State.writeN (s : State) (a n v : Nat) : State := s.write a (toBytes n v)

/-- Every byte of [a, a + n) reads 0: its entries are removed. -/
def State.clear (s : State) (a n : Nat) : State :=
  { s with mem := s.mem.filter (fun c => decide (c.1 < a ∨ a + n ≤ c.1)) }

/-! ## Free values and what leaves the device -/

/-- A fresh free value below 2^w (log entry 5), with the counter moved on. -/
def State.fresh (s : State) (w : Nat) : Nat × State :=
  (Config.freeNat s.free % 2 ^ w, { s with free := s.free + 1 })

def State.emit (s : State) (o : Out) : State := { s with sent := o :: s.sent }

def State.emitAll (s : State) (l : List Out) : State := { s with sent := l.reverse ++ s.sent }

/-- An update done only where c holds. -/
def State.when (s : State) (c : Bool) (f : State → State) : State := if c then f s else s

/-- f applied for each element of a list, in order. -/
def State.each {α : Type} (s : State) (l : List α) (f : State → α → State) : State := l.foldl f s

/-- The meaning of a command as its effect on the state. -/
def done (s : State) : Out3 := .next s

/-- The effect happens where its condition holds; otherwise nothing changes (log entry 6). -/
def doneIf (s : State) (c : Bool) (f : State → State) : Out3 := .next (if c then f s else s)

/-- A mailbox publishes a record under the number q. -/
def Mailbox.publishAs (_ : Mailbox) (q : Nat) (rec : Nat → List Nat) : Mailbox := { seq := q, newest := rec q, unread := true }

/-- A mailbox publishes a record (R445): SEQ rises by 1 modulo 65,536. -/
def Mailbox.publish (m : Mailbox) (rec : Nat → List Nat) : Mailbox :=
  let q := (m.seq + 1) % 65536
  { seq := q, newest := rec q, unread := true }

end Sys2Proof.Machine
end

