-- ==== Sys2Proof/Machine/Clocks.lean ====
section
/-! DEFINITION. Clocks (R340 to R355): the crystal, the PLLs, the glitch-free source selectors and the gate tree. Domains and
PLLs k: 0 ACLK, 1 RCLK, 2 FCLK, 3 SCLK. -/
namespace Sys2Proof.Machine

/-! ## The gate tree (R351 to R355) -/

/-- The parent of gate g (R351). -/
def gateParent (g : Nat) : Option Nat :=
  if g = 0 ∨ g = 20 ∨ g = 24 then none
  else if g ≤ 6 then some 0
  else if g ≤ 12 then some (g - 6)
  else if g ≤ 18 then some (g - 12)
  else if g = 19 then some 0
  else if g ≤ 23 then some 20
  else some 24

def gatePresent (p : Part) (g : Nat) : Bool :=
  g < 30 && (match p with
    | .iz8 => true
    | .iz4 => !((3 ≤ g && g ≤ 6) || (9 ≤ g && g ≤ 12) || (15 ≤ g && g ≤ 18)))

/-- GATE_OPEN of gate g alone. -/
def State.gateBit (s : State) (g : Nat) : Bool := (s.regN CKG.GATE_OPEN).testBit g

def State.gatePending (s : State) (g : Nat) : Bool := (s.regN CKG.GATE_PEND).testBit g

/-- The clock of domain k runs: its source has not stopped (R341, R344, R349). -/
def State.clockRuns (s : State) (k : Nat) : Bool := !s.clk.stopped.testBit k

/-- The clock domain of gate g (R351). -/
def gateClock (g : Nat) : Nat := if g < 20 then 0 else if g < 24 then 1 else 2

/-- Gate g and its parents are open. -/
def State.ungated (s : State) (g : Nat) : Bool :=
  s.gateBit g && (match gateParent g with
    | some p => s.gateBit p && (match gateParent p with | some q => s.gateBit q | none => true)
    | none => true)

/-- The block behind gate g is clocked: the gate and its parents are open and the domain's clock runs. -/
def State.clocked (s : State) (g : Nat) : Bool := s.ungated g && s.clockRuns (gateClock g)

/-- Requests to the block behind gate g wait (R353): its close is pending, or its clock stands still. -/
def State.gateHolds (s : State) (g : Nat) : Bool := s.ungated g && (s.gatePending g || !s.clockRuns (gateClock g))

/-- Power domain d is on (PWR.DOM_ON). -/
def State.domOn (s : State) (d : Nat) : Bool := (s.regN PWR.DOM_ON).testBit d

/-- A block in domain d behind gate g works: its domain is on and its clock runs (R354, R355, R361). -/
def State.works (s : State) (d g : Nat) : Bool := s.domOn d && s.clocked g

def State.gateResult (s : State) (g op result cause : Nat) : State :=
  s.setRegN CKG.GATE_RES (g % 32 + 32 * op + 64 * result + 256 * cause)

def State.gateRefuse (s : State) (g op cause : Nat) : State := (s.gateResult g op 2 cause).raise CKG.STAT_REFUSED

/-- A close command (R352): `quiet` is the state of the block's bus interface. -/
def State.gateClose (s : State) (g : Nat) (quiet : Bool) : State :=
  if !gatePresent s.part g then s.gateRefuse g 0 3
  else if (List.range 30).any (fun c => gateParent c == some g && s.gateBit c) then s.gateRefuse g 0 1
  else if !s.gateBit g then s.gateResult g 0 0 0
  else if s.gatePending g then s.gateResult g 0 1 0
  else if quiet then (s.setRegN CKG.GATE_OPEN (setBit (s.regN CKG.GATE_OPEN) g false)).gateResult g 0 0 0
  else ((s.setRegN CKG.GATE_PEND (setBit (s.regN CKG.GATE_PEND) g true)).gateResult g 0 1 0).raise CKG.STAT_GATE_PEND

/-- An open command (R352). -/
def State.gateOpen (s : State) (g : Nat) : State :=
  if !gatePresent s.part g then s.gateRefuse g 1 3
  else if (match gateParent g with | some p => !s.gateBit p | none => false) then s.gateRefuse g 1 2
  else if s.gatePending g then (s.setRegN CKG.GATE_PEND (setBit (s.regN CKG.GATE_PEND) g false)).gateResult g 1 0 0
  else (s.setRegN CKG.GATE_OPEN (setBit (s.regN CKG.GATE_OPEN) g true)).gateResult g 1 0 0

/-- A write of GATE_CMD. -/
def State.gateCmd (s : State) (v : Nat) (quiet : Bool) : State :=
  if v.testBit 6 then (if v.testBit 5 then s.gateOpen (v % 32) else s.gateClose (v % 32) quiet) else s

/-- A pending close completes (R353). -/
def State.gateClosed (s : State) (g : Nat) : State :=
  ((s.setRegN CKG.GATE_OPEN (setBit (s.regN CKG.GATE_OPEN) g false)).setRegN CKG.GATE_PEND
    (setBit (s.regN CKG.GATE_PEND) g false)).raise CKG.STAT_GATE_DONE

/-- A pending close is withdrawn after 65,536 cycles of the gated clock (R353). -/
def State.gateTimeout (s : State) (g : Nat) : State :=
  (((s.setRegN CKG.GATE_PEND (setBit (s.regN CKG.GATE_PEND) g false)).gateResult g 0 3 0).bump CKG.GTO_CNT 1).raise
    CKG.STAT_TIMEOUT

/-! ## Sources and switches (R345 to R350) -/

def State.setReady (s : State) (bit : Nat) (b : Bool) : State := s.setRegN CKG.READY (setBit (s.regN CKG.READY) bit b)

def State.ready (s : State) (bit : Nat) : Bool := (s.regN CKG.READY).testBit bit

/-- The READY bit of PLL k's selected reference: CLEAN or OSC_IN (R343). -/
def State.refBit (s : State) (k : Nat) : Nat := if s.flag (CKG.PLL_CTRL_REFSEL k) then 5 else 4

/-- Source `src` of domain k is READY: 0 PLL, 1 REF, 2 XTAL. -/
def State.sourceReady (s : State) (k src : Nat) : Bool :=
  match src with
  | 0 => s.ready k
  | 1 => s.ready (s.refBit k)
  | 2 => s.ready 6
  | _ => false

/-- The target of a switch in flight. -/
def State.target (s : State) (k : Nat) : Option Nat := Store.get? s.clk.target k

def State.setTarget (s : State) (k : Nat) (v : Option Nat) : State :=
  ({ s with clk := { s.clk with target := match v with
      | some x => Store.put s.clk.target k x
      | none => Store.del s.clk.target k } }).setFlag (CKG.DOM_STATUS_BUSY k) v.isSome

/-- The clocks of the domains that `sel` names stop with their source, or run again with it. -/
def State.setStopped (s : State) (sel : Nat → Bool) (b : Bool) : State :=
  { s with clk := { s.clk with stopped := (List.range 4).foldl (fun m k => if sel k then setBit m k b else m) s.clk.stopped } }

/-- The source in use of domain k: 0 PLL, 1 REF, 2 XTAL. -/
def State.inUse (s : State) (k : Nat) : Nat := s.fld (CKG.DOM_STATUS_CUR k)

/-- Domains on REF run again once their reference has edges. -/
def State.refsRun (s : State) : State := s.setStopped (fun k => s.inUse k == 1 && s.ready (s.refBit k)) false

/-- A write of DOMk_SRC (R346): FALLBACK is stored; the selection starts a switch or is refused. -/
def State.clockSource (s : State) (k v : Nat) : State :=
  let s1 := s.setFld (CKG.DOM_SRC_FALLBACK k) (bits v 2 1)
  let t := v % 4
  if t = 3 ∨ s1.sourceReady k t = false ∨ (s1.target k).isSome ∨ s1.fld (CKG.DOM_STATUS_CUR k) = t then
    (s1.setFlag (CKG.DOM_STATUS_LAST_REFUSED k) true).raise CKG.STAT_REFUSED
  else ((s1.setFld (CKG.DOM_SRC_SRC k) t).setFlag (CKG.DOM_STATUS_LAST_REFUSED k) false).setTarget k (some t)

def execClockSourceWrite (k : Nat) (v : Word) (s : State) : Out3 := doneIf s (decide (k < 4)) (fun s => s.clockSource k v.toNat)

/-- A switch ends on its target (R347, R348): by an edge of the old clock, or by force where that clock has stopped. -/
def State.switchEnd (s : State) (k t : Nat) (forced : Bool) : State :=
  let s0 := (s.setTarget k none).setStopped (fun j => j == k) false
  let s1 := (((s0.setFld (CKG.DOM_STATUS_CUR k) t).setFlag (CKG.DOM_STATUS_FORCED k) forced).setFlag (CKG.DOM_STATUS_ABORT k) false)
  if forced then (s1.bump CKG.FSW_CNT 1).raise CKG.STAT_FORCED_SWITCH else s1.raise CKG.STAT_SW_DONE

/-- Switches whose target `lost` names are abandoned (R349). -/
def State.abortSwitches (s : State) (lost : Nat → Nat → Bool) : State :=
  s.each (List.range 4) (fun s k =>
    match s.target k with
    | some t => if lost k t then ((s.setTarget k none).setFlag (CKG.DOM_STATUS_ABORT k) true).raise CKG.STAT_SW_ABORT else s
    | none => s)

/-- Fallback of domain k as its selected PLL leaves READY (R350). -/
def State.fallback (s : State) (k : Nat) : State :=
  if s.flag (CKG.DOM_SRC_FALLBACK k) && s.fld (CKG.DOM_STATUS_CUR k) == 0 && s.ready 6 && (s.target k).isNone
  then s.setTarget k (some 2) else s

/-- PLL k leaves READY. -/
def State.pllOff (s : State) (k : Nat) : State :=
  ((s.setReady k false).abortSwitches (fun j t => j == k && t == 0)).fallback k

/-! ## PLLs (R342 to R345) -/

/-- A domain has PLL k selected, as PLL or REF. -/
def State.pllSelected (s : State) (k : Nat) : Bool :=
  s.fld (CKG.DOM_STATUS_CUR k) < 2 || (match s.target k with | some t => decide (t < 2) | none => false)

/-- A write of PLLk_CTRL (R345). -/
def State.pllCtrl (s : State) (k v : Nat) : State :=
  let on := s.flag (CKG.PLL_CTRL_EN k)
  let refsel := bits v 1 1
  let s1 := if on then s.raiseIf (refsel != s.fld (CKG.PLL_CTRL_REFSEL k)) CKG.STAT_REFUSED
    else s.setFld (CKG.PLL_CTRL_REFSEL k) refsel
  if v.testBit 0 then s1.setFlag (CKG.PLL_CTRL_EN k) true
  else if !on then s1
  else if s1.pllSelected k then s1.raise CKG.STAT_REFUSED
  else (s1.setFlag (CKG.PLL_CTRL_EN k) false).pllOff k

def execPllEnable (k : Nat) (v : Word) (s : State) : Out3 := doneIf s (decide (k < 4)) (fun s => s.pllCtrl k v.toNat)

/-- A write of PLLk_CFG (R345); RWL. -/
def State.pllCfg (s : State) (k v : Nat) (locked : Bool) : State :=
  if s.flag (CKG.PLL_CTRL_EN k) then s.raise CKG.STAT_REFUSED
  else if locked then s
  else s.setRegN (CKG.PLL_CFG k) (v % 2 ^ 15)

def execPllConfigWrite (k : Nat) (ctrl : Bool) (v : Word) (s : State) : Out3 :=
  doneIf s (decide (k < 4)) (fun s => if ctrl then s.pllCtrl k v.toNat else s.pllCfg k v.toNat (s.flag CFG.STATUS_LOCKED))

/-- PLL k locks (R343). -/
def State.pllLocks (s : State) (k : Nat) : State :=
  ((s.setReady k true).raise CKG.STAT_PLL_LOCK).setStopped (fun j => j == k && s.inUse j == 0) false

/-- A PLL loses its reference, and stops its output, or its lock alone, and keeps it running (R344). -/
def execPllUnlock (k : Nat) (s : State) : Out3 :=
  doneIf s (decide (k < 4) && s.ready k) (fun s =>
    ((s.raise CKG.STAT_PLL_UNLOCK).setStopped (fun j => j == k && s.inUse j == 0 && !s.ready (s.refBit k)) true).pllOff k)

/-! ## The crystal (R340, R341) -/

/-- A crystal start begins unless one is counting. -/
def State.xtalStart (s : State) : State := s.setFlag CKG.AON_XRUN true

def execXtalRestart (v : Word) (s : State) : Out3 :=
  doneIf s (v.toNat.testBit 2 && !s.flag CKG.AON_XRUN) (fun s => s.xtalStart)

/-- The crystal is stable (R340): the always-on clock switches to it, and the domains that stopped on XTAL run again. -/
def State.xtalStable (s : State) : State :=
  let s1 := ((s.setFlag CKG.AON_XRUN false).setReady 6 true).setStopped (fun k => s.inUse k == 2) false
  let s2 := if s1.flag CKG.AON_SRC then s1 else (s1.setFlag CKG.AON_SRC true).raise CKG.STAT_SW_DONE
  (s2.setFlag CKG.AON_FORCED false).raise CKG.STAT_XTAL_READY

def execXtalFail (s : State) : Out3 :=
  doneIf s (s.flag CKG.AON_XRUN) (fun s => (s.setFlag CKG.AON_XRUN false).raise CKG.STAT_XTAL_FAIL)

/-- No crystal edge for 16 RC cycles (R341): an always-on domain on XTAL switches to RC by force, every other domain on XTAL stops. -/
def execXtalLost (s : State) : Out3 :=
  doneIf s (s.ready 6) (fun s =>
    let s0 := ((s.setReady 6 false).raise CKG.STAT_XTAL_LOST).setStopped (fun k => s.inUse k == 2) true
    let s1 := s0.abortSwitches (fun _ t => t == 2)
    if s1.flag CKG.AON_SRC then
      ((((s1.setFlag CKG.AON_SRC false).setFlag CKG.AON_FORCED true).bump CKG.FSW_CNT 1)).raise CKG.STAT_FORCED_SWITCH
    else s1)

end Sys2Proof.Machine
end

