-- ==== Sys2Proof/Machine/Link.lean ====
section
/-! DEFINITION. The canopy's shape, routes, packet layouts and link layer (R108, R109, R114 to R128): what the bell engine,
the canopy commands and the channeliser share. -/
namespace Sys2Proof.Machine

/-! ## Shape and coordinates (R108, R109) -/

/-- CAN.SHAPE.TOPO: 0 single, 1 ring, 2 torus. -/
def State.topo (s : State) : Nat := s.fld CAN.SHAPE_TOPO

def State.dimX (s : State) : Nat := if s.topo = 0 then 1 else s.fld CAN.SHAPE_XM1 + 1

def State.dimY (s : State) : Nat := if s.topo = 2 then s.fld CAN.SHAPE_YM1 + 1 else 1

def State.canopySize (s : State) : Nat := s.dimX * s.dimY

def State.coordX (s : State) (p : Nat) : Nat := p % s.dimX

def State.coordY (s : State) (p : Nat) : Nat := if s.topo = 2 then p / s.dimX else 0

def State.isLead (s : State) : Bool := s.flag BEL.STATUS_LEAD

/-- The device holds a pitch: PIT.STATUS.STATE is PITCHED or LEAD. -/
def State.hasPitch (s : State) : Bool := s.fld PIT.STATUS_STATE == 1 || s.fld PIT.STATUS_STATE == 3

def State.myPitch (s : State) : Nat := s.fld PIT.STATUS_PITCH

def State.isParked (s : State) : Bool := s.flag PIT.STATUS_PARKED

/-- Bell states (BEL.STATUS.STATE). -/
def stSTOPPED : Nat := 0
def stWAIT_LEAD : Nat := 1
def stACQUIRE : Nat := 2
def stRINGING : Nat := 3
def stALIGNED : Nat := 4
def stFLYWHEEL : Nat := 5
def stREFUSED : Nat := 6

def State.bellState (s : State) : Nat := s.fld BEL.STATUS_STATE

/-- The engine is in RINGING, ALIGNED or FLYWHEEL. -/
def State.isRinging (s : State) : Bool := 3 ≤ s.bellState && s.bellState ≤ 5

/-- The pitch that R109 puts at the other end of port p (0 N, 1 E, 2 S, 3 W). -/
def State.neighbour (s : State) (p : Nat) : Nat :=
  let x := s.coordX s.myPitch
  let y := s.coordY s.myPitch
  let X := s.dimX
  let Y := s.dimY
  match p with
  | 0 => (y + Y - 1) % Y * X + x
  | 1 => y * X + (x + 1) % X
  | 2 => (y + 1) % Y * X + x
  | _ => y * X + (x + X - 1) % X

/-! ## Ports -/

def State.port (s : State) (p : Nat) : CanPort := atD s.can.ports p CanPort.reset

def State.setPort (s : State) (p : Nat) (c : CanPort) : State :=
  { s with can := { s.can with ports := setAt s.can.ports p c } }

/-- Port states (PORTp_STATUS.STATE): 0 DOWN, 1 TRAIN, 2 HELLO, 3 UP, 4 MISMATCH. -/
def State.portState (s : State) (p : Nat) : Nat := s.fld (CAN.PORT_STATUS_STATE p)

def State.portUp (s : State) (p : Nat) : Bool := s.portState p == 3

/-- HELLO, UP or MISMATCH. -/
def State.portLive (s : State) (p : Nat) : Bool := 2 ≤ s.portState p && s.portState p ≤ 4

def State.upPorts (s : State) : List Nat := (List.range 4).filter s.portUp

/-- A lead reports a second lead (R115): the last HELLO of a port in HELLO, UP or MISMATCH carries CONFLICT, or a lead
serial that is neither 0 nor its own. -/
def State.secondLead (s : State) : Bool :=
  (List.range 4).any (fun p =>
    match (s.port p).hello with
    | some h => s.portLive p && (h.conflict || (h.leadSerial != 0 && h.leadSerial != s.serial))
    | none => false)

/-- The LEAD_SERIAL this device sends (R114). -/
def State.leadSerialOut (s : State) : Nat := if s.isLead then s.serial else s.can.leadSerial

/-- CONFLICT as this device sends it (R114). -/
def State.conflictOut (s : State) : Bool := if s.isLead then s.secondLead else s.can.conflict

/-- The HELLO of port p (R122). -/
def State.helloOf (s : State) (p : Nat) : Hello :=
  { serial := s.serial, pitch := s.myPitch, lead := s.isLead, parked := s.isParked, port := p,
    aligned := s.isRinging && !s.isParked, conflict := s.conflictOut, pitched := s.hasPitch, topo := s.topo,
    xm1 := s.fld CAN.SHAPE_XM1, ym1 := s.fld CAN.SHAPE_YM1, schedId := s.regN BEL.SCHED_ID, leadSerial := s.leadSerialOut }

/-! ## Packet layouts (R118, R119, R122, R130, R131) -/

def bodyKind : Body → Nat
  | .data _ => 1
  | .bell _ => 2
  | .probe _ => 3
  | .probeReply _ _ _ => 4
  | .hello _ => 5
  | .cast _ => 6
  | .credit => 7
  | .unknown k _ => k % 16

/-- The BELL payload (R130). -/
def bellBytes (w : BellWord) : List Byte :=
  toBytes 8 w.index ++ toBytes 6 w.t0Sec ++ toBytes 4 w.t0Ns ++ toBytes 6 w.dNs ++ toBytes 2 w.dFrac
    ++ [BitVec.ofNat 8 (boolNat w.stop + 2 * (w.refState % 8))] ++ toBytes 5 (ofSigned 40 w.txoff)

/-- The HELLO payload (R122). -/
def helloBytes (h : Hello) : List Byte :=
  toBytes 8 h.serial
    ++ [BitVec.ofNat 8 (h.pitch % 64 + 64 * boolNat h.lead + 128 * boolNat h.parked),
        BitVec.ofNat 8 (h.port % 4 + 4 * boolNat h.aligned + 8 * boolNat h.conflict + 16 * boolNat h.pitched),
        BitVec.ofNat 8 (h.topo % 4), BitVec.ofNat 8 (h.xm1 % 16 + 16 * (h.ym1 % 8))]
    ++ toBytes 4 h.schedId ++ toBytes 8 h.leadSerial ++ toBytes 8 0

/-- The CAST payload (R131, R148). -/
def castBytes (c : Cast) : List Byte :=
  toBytes 1 c.ckind ++ toBytes 1 (c.origin % 64) ++ toBytes 2 c.cseq ++ toBytes 8 c.bell
    ++ (if c.ckind = 1 then toBytes 1 c.source ++ toBytes 1 c.pre ++ toBytes 1 c.post ++ [0#8] ++ toBytes 8 c.tag ++ toBytes 8 0
        else toBytes 20 0)

/-- The payload words' bytes. -/
def bodyPayload : Body → List Byte
  | .data l => l
  | .bell w => bellBytes w
  | .probe _ => []
  | .probeReply a b c => toBytes 8 a ++ toBytes 8 b ++ toBytes 8 c ++ toBytes 8 0
  | .hello h => helloBytes h
  | .cast c => castBytes c
  | .credit => []
  | .unknown _ l => l

/-- The header word (R118). -/
def packetHeader (p : Packet) : List Byte :=
  [0xA5#8, BitVec.ofNat 8 (bodyKind p.body), BitVec.ofNat 8 (p.dest % 64 + 64 * (p.xdir % 2) + 128 * (p.ydir % 2)),
    BitVec.ofNat 8 (p.src % 64)]
    ++ toBytes 2 (p.channel % 32768 + 32768 * boolNat p.q4)
    ++ [BitVec.ofNat 8 (((bodyPayload p.body).length + 31) / 32 % 64), BitVec.ofNat 8 (p.inputs % 128)]
    ++ toBytes 8 p.m0 ++ toBytes 2 (p.ibase % 8192) ++ toBytes 2 p.seq
    ++ (match p.body with | .probe t1 => toBytes 8 t1 | _ => toBytes 8 0) ++ toBytes 4 0

/-- The trailer word before its CRC (R119): bytes 0 to 23. -/
def trailerHead (t : Trailer) : List Byte :=
  [0x5A#8, BitVec.ofNat 8 (t.cred.length % 4 + 4 * boolNat t.nak)] ++ toBytes 2 t.ack
    ++ ((t.cred ++ [(0, 0), (0, 0), (0, 0)]).take 3).flatMap (fun (c : Nat × Nat) => toBytes 4 (c.1 % 2 ^ 20 + 2 ^ 20 * (c.2 % 16)))
    ++ toBytes 8 0

/-- The CRC-32 of a packet (R119): header bytes 1 to 31, the payload, trailer bytes 1 to 23. -/
def packetCrc (p : Packet) (t : Trailer) : Nat :=
  crc32 ((packetHeader p).drop 1 ++ bodyPayload p.body ++ (trailerHead t).drop 1)

/-- A packet as it stands on the link. -/
def packetEncode (p : Packet) (t : Trailer) : List Byte :=
  packetHeader p ++ bodyPayload p.body ++ trailerHead t ++ toBytes 4 (packetCrc p t) ++ toBytes 4 0

/-- A word's four blocks (R117): sync header and the 8 bytes before scrambling; a header, trailer or idle word begins with a control
block, a payload word has data blocks only. -/
def wordBlocks (payload : Bool) (w : List Byte) : List (Nat × Nat) :=
  (List.range 4).map (fun k => (if k = 0 ∧ payload = false then 2 else 1, ofBytes ((w.drop (8 * k)).take 8)))

/-- An idle word: four idle blocks (R117). -/
def idleBlocks : List (Nat × Nat) := List.replicate 4 (2, 0x1E)

/-- The words of a packet with their blocks, header first, trailer last. -/
def packetWords (p : Packet) (t : Trailer) : List (List (Nat × Nat)) :=
  let l := packetEncode p t
  let n := (bodyPayload p.body).length / 32
  (List.range (n + 2)).map (fun k => wordBlocks (decide (0 < k ∧ k ≤ n)) ((l.drop (32 * k)).take 32))

/-- Block j of the word in word slot `slot` of the link: its block time and its lane (R117). -/
def slotLane (slot j : Nat) : Nat × Nat := (slot / 8, 4 * (slot % 8) + j)

/-- The blocks of a packet whose header leaves in word slot `slot` (R117): (block time, lane), sync header, bytes. -/
def packetBlocks (slot : Nat) (p : Packet) (t : Trailer) : List ((Nat × Nat) × Nat × Nat) :=
  ((packetWords p t).zipIdx).flatMap (fun w => (w.1.zipIdx).map (fun b => (slotLane (slot + w.2) b.2, b.1)))

/-! ## Channels (R87, R123) -/

/-- N, the filter-bank length (CHN.CTRL.NSEL). -/
def State.chanN (s : State) : Nat := 4096 * 2 ^ s.fld CHN.CTRL_NSEL

/-- The map byte of channel c, 0 at or above N (R123). -/
def State.chmap (s : State) (c : Nat) : Nat :=
  if c < s.chanN then bits (s.regN (CAN.CHMAP (c / 4))) (8 * (c % 4)) 8 else 0

/-- The owner of channel c, where its map byte is valid. -/
def State.owner (s : State) (c : Nat) : Option Nat :=
  let b := s.chmap c
  if b.testBit 7 then some (b % 64) else none

/-- The channels whose map byte is valid, with their owners, in rising order: only listed words can hold one. -/
def State.validChannels (s : State) : List (Nat × Nat) :=
  s.regs.flatMap (fun (a, v) =>
    if 0x078000 ≤ a ∧ a ≤ 0x07FFFF then
      (List.range 4).filterMap (fun k =>
        let c := a - 0x078000 + k
        let b := bits v.toNat (8 * k) 8
        if c < s.chanN ∧ b.testBit 7 then some (c, b % 64) else none)
    else [])

/-- The channels this device owns, in rising order: their place is the local channel number (R135). -/
def State.localChannels (s : State) : List Nat :=
  (s.validChannels.filter (fun p => p.2 == s.myPitch)).map (·.1)

/-- The local index of a channel, the number of owned channels below it (R135); none where this device does not own it. -/
def State.localIndex (s : State) (c : Nat) : Option Nat := s.localChannels.findIdx? (· == c)

/-- Spectra per DATA packet: 8 for 4+4 samples, else 4 (R124). -/
def State.packK (s : State) : Nat := if s.flag CHN.CTRL_RQ4 then 8 else 4

/-! ## Virtual output queues and credits (R126, R127) -/

def State.voqOf (s : State) (p : Packet) : Nat := p.dest * s.chanN + p.channel

def State.voq (s : State) (v : Nat) : List VPkt := Store.getD s.can.voqs v []

def State.setVoq (s : State) (v : Nat) (l : List VPkt) : State :=
  { s with can := { s.can with voqs := if l = [] then Store.del s.can.voqs v else Store.put s.can.voqs v l } }

/-- Packets of the device's own that hold transmit cells. -/
def State.ownQueued (s : State) : Nat :=
  (s.can.voqs.map (fun p => (p.2.filter (fun v => v.from?.isNone)).length)).sum

/-- CAN.BUF_USE: a filling cell per valid channel, and a cell per queued packet (R127). -/
def State.bufUse (s : State) : Nat :=
  s.validChannels.length + (s.can.voqs.map (fun p => p.2.length)).sum

/-- CAN.BUF_PEAK keeps the most cells in use. -/
def State.notePeak (s : State) : State :=
  s.setFld CAN.BUF_PEAK_CELLS (max (s.fld CAN.BUF_PEAK_CELLS) s.bufUse)

/-- A packet joins its queue. -/
def State.enqueue (s : State) (p : Packet) (from? : Option Nat) : State :=
  let v := s.voqOf p
  (s.setVoq v (s.voq v ++ [{ pkt := p, from? := from?, since := s.up, starved := false }])).notePeak

/-- One credit for VOQ v is owed to the neighbour on the port the packet came in on (R126). -/
def State.returnCredit (s : State) (v : Nat) (from? : Option Nat) : State :=
  match from? with
  | none => s
  | some p =>
    let c := s.port p
    s.setPort p { c with credOwed := Store.put c.credOwed v (Store.getD c.credOwed v 0 + 1) }

/-- The credit count of VOQ v on port p: what the port took from CAN.CRED as it entered UP less the credits in use (R126). -/
def State.credits (s : State) (p v : Nat) : Nat := (s.port p).credMax - Store.getD (s.port p).credUsed v 0

/-- The frame of spectrum m: ⌊m / W⌋ (R15, R124). -/
def State.specW (s : State) : Nat := 2 ^ s.fld (STL.ICFG_WLOG 0)

def State.frameOf (s : State) (p : Packet) : Nat := p.m0 / s.specW

/-- A queue without the packets that `drop` names; a head that comes to stand in the place of one dropped goes on with its wait (R128). -/
def keepQueue (drop : VPkt → Bool) (l : List VPkt) : List VPkt :=
  match l, l.filter (fun v => !drop v) with
  | h :: _, g :: r => if drop h then { g with since := h.since, starved := h.starved } :: r else g :: r
  | _, r => r

/-- Remove from every queue the packets that `drop` names, returning their credits; the number removed. -/
def State.dropQueued (s : State) (drop : VPkt → Bool) : State × Nat :=
  s.can.voqs.foldl (fun (acc : State × Nat) (q : Nat × List VPkt) =>
    let gone := q.2.filter drop
    if gone = [] then acc
    else
      let s1 := acc.1.setVoq q.1 (keepQueue drop q.2)
      (gone.foldl (fun s g => s.returnCredit q.1 g.from?) s1, acc.2 + gone.length)) (s, 0)

/-! ## Routes (R125) -/

/-- The direction bits a source sets (R125): 0 E or S, 1 W or N; at half the dimension, by the channel's parity. -/
def dirBit (d n channel : Nat) : Nat :=
  if d = 0 then 0 else if 2 * d < n then 0 else if n < 2 * d then 1 else channel % 2

def State.sourceDirs (s : State) (dest channel : Nat) : Nat × Nat :=
  let dx := (s.coordX dest + s.dimX - s.coordX s.myPitch) % s.dimX
  let dy := (s.coordY dest + s.dimY - s.coordY s.myPitch) % s.dimY
  (dirBit dx s.dimX channel, dirBit dy s.dimY channel)

/-- The port a packet leaves by at this device; none where it has arrived (R125). -/
def State.routePort (s : State) (p : Packet) : Option Nat :=
  if s.coordX s.myPitch ≠ s.coordX p.dest then some (if p.xdir = 0 then 1 else 3)
  else if s.coordY s.myPitch ≠ s.coordY p.dest then some (if p.ydir = 0 then 2 else 0)
  else none

/-- A packet of the device's own with its direction bits as the source sets them now (R125): the first hop's bit is inverted
where its port is not UP. -/
def State.ownDirs (s : State) (p : Packet) : Packet :=
  let (xd, yd) := s.sourceDirs p.dest p.channel
  let p := { p with xdir := xd, ydir := yd }
  match s.routePort p with
  | none => p
  | some q =>
    if s.portUp q then p
    else if q = 1 ∨ q = 3 then { p with xdir := 1 - xd } else { p with ydir := 1 - yd }

/-- The port the head of a queue needs. -/
def State.headPort (s : State) (h : VPkt) : Option Nat :=
  match h.from? with
  | none => s.routePort (s.ownDirs h.pkt)
  | some _ => s.routePort h.pkt

/-- Transit packets that need a port which is not UP are dropped: ROUTE_CNT, their credit, ROUTE_DROP (R125). -/
def State.routeDrop (s : State) : State :=
  let (s1, n) := s.dropQueued (fun v => v.from?.isSome &&
    (match s.routePort v.pkt with | some q => !s.portUp q | none => false))
  if n = 0 then s1 else (s1.bump CAN.ROUTE_CNT n).raise CAN.STAT_ROUTE_DROP

/-! ## Sending control packets -/

/-- A control packet of this link waits at port p (R121). -/
def State.queueCtl (s : State) (p : Nat) (b : Body) : State :=
  let c := s.port p
  s.setPort p { c with ctl := c.ctl ++ [{ body := b, src := s.myPitch }] }

/-- The trailer of the next outgoing packet of port p: the last SEQ accepted, a NAK that is owed, up to three credit
slots (R119, R120). -/
def CanPort.trailer (c : CanPort) : Trailer :=
  { nak := c.nakOwed, ack := (c.rxSeq + 65535) % 65536,
    cred := (c.credOwed.take 3).map (fun p => (p.1, min 4 p.2)) }

/-- What the port owes after that trailer has gone. -/
def CanPort.trailerSent (c : CanPort) : CanPort :=
  let head := (c.credOwed.take 3).filterMap (fun p => if p.2 ≤ 4 then none else some (p.1, p.2 - 4))
  { c with credOwed := head ++ c.credOwed.drop 3, nakOwed := false, ackOwed := false }

/-- Port p sends a numbered packet and holds it for replay (R120). -/
def State.sendNumbered (s : State) (p : Nat) (k : Packet) : State :=
  let c := s.port p
  let k := { k with seq := c.txSeq }
  let t := c.trailer
  let c1 := c.trailerSent
  let c2 := { c1 with txSeq := (c1.txSeq + 1) % 65536, held := c1.held ++ [(k, t)],
                      progressAt := if c1.held = [] then s.up else c1.progressAt }
  (s.setPort p c2).emit (.canopy p k t)

/-- A HELLO outside UP: SEQ 0, not held (R122). -/
def State.sendHelloNow (s : State) (p : Nat) : State :=
  s.emit (.canopy p { body := .hello (s.helloOf p), src := s.myPitch, seq := 0 }
    { nak := false, ack := 65535, cred := [] })

/-- A CAST of this device, on every UP port (R131): CSEQ rises by 1 for each. -/
def State.sendCast (s : State) (c : Cast) : State :=
  let q := (s.can.cseq + 1) % 65536
  let s1 := { s with can := { s.can with cseq := q, castsSeen := (s.myPitch, q, s.up) :: s.can.castsSeen } }
  s1.each s1.upPorts (fun s p => s.queueCtl p (.cast { c with origin := s.myPitch, cseq := q }))

/-! ## Port state (R122) -/

/-- A port leaves UP, HELLO or MISMATCH: its link state and last HELLO are forgotten. -/
def State.clearLink (s : State) (p : Nat) : State :=
  let c := s.port p
  s.setPort p { CanPort.reset with rr := c.rr }

/-- The port enters state st; a port that is not UP drops transit packets that need it (R125). -/
def State.portTo (s : State) (p st : Nat) : State :=
  (s.setFld (CAN.PORT_STATUS_STATE p) st).routeDrop

/-- R122's way to TRAIN: held packets count in PORTp_LOST, PORT_DOWN is raised. -/
def State.portFail (s : State) (p : Nat) : State :=
  let n := (s.port p).held.length
  let s1 := if n = 0 then s else s.bump (CAN.PORT_LOST p) n
  ((s1.clearLink p).raise CAN.STAT_PORT_DOWN).portTo p 1

/-- The means of a port's exchanges since it entered UP (R129): RTT, and d_in = (RTT − A) / 2 with A in ps, in 2^−5 ns. -/
def CanPort.meanRtt (c : CanPort) : Int := if c.rtts = [] then 0 else roundOpen 129 c.rtts.sum c.rtts.length

def State.dIn (s : State) (p : Nat) : Int :=
  let c := s.port p
  if c.rtts = [] then 0
  else
    let n : Int := c.rtts.length
    roundOpen 129 (1000 * c.rtts.sum - 32 * n * toSigned 32 (s.regN (CAN.PORT_ASYM p))) (2000 * n)

/-- A follower forgets LEAD_SERIAL and CONFLICT as its bell engine enters STOPPED (R114). -/
def State.forgetLead (s : State) : State :=
  { s with can := { s.can with leadSerial := 0, conflict := false } }

/-- CAN.STATUS as it reads. -/
def State.canStatus (s : State) : Nat :=
  boolNat (s.leadSerialOut != 0) + 2 * boolNat s.conflictOut
    + 4 * ((List.range 4).map (fun p => boolNat (s.portUp p) * 2 ^ p)).sum
    + (if s.hasPitch then 64 * (s.coordX s.myPitch % 16) + 1024 * (s.coordY s.myPitch % 8) else 0)

end Sys2Proof.Machine
end

