-- ==== Sys2Proof/Machine/Cascade.lean ====
section
/-! DEFINITION. The coding of R39, and the lanes of the Ehrah ports (R39 to R42, R116, R122): lane k of port p is lane 80 + 32p + k of
the lane commands (log entry 24). -/
namespace Sys2Proof.Machine

/-- Bit k of the unscrambled payload: the received bit with those 39 and 58 before it (R39). `hist` holds the last 58 bits
received, the newest in bit 0. -/
def descrambleBits : Nat → Nat → Nat → Nat → Nat × Nat
  | 0, _, hist, _ => (0, hist)
  | k + 1, x, hist, w =>
    let b := x % 2
    let o := (b + bits hist 38 1 + bits hist 57 1) % 2
    let r := descrambleBits k (x / 2) ((hist * 2 + b) % 2 ^ 58) (w * 2)
    (o * w + r.1, r.2)

/-! ## One lane -/

/-- A sync header of a lane in HUNT (R41); with the 64th valid one in a row it is LOCKED, and an adaptation that is due starts where
ADAPT is 1 (R40). -/
def CanLane.gain (l : CanLane) (adapt : Bool) : CanLane :=
  { l with locked := true, blocks := 0, bad := [], adaptDue := false, adapting := l.adapting || (l.adaptDue && adapt) }

def CanLane.hunt (l : CanLane) (valid adapt : Bool) : CanLane :=
  if valid then (if l.count < 63 then { l with count := l.count + 1 } else l.gain adapt)
  else { l with count := 0, slip := (l.slip + 1) % 66 }

/-- The lane leaves LOCKED for HUNT (R41): it must align again. -/
def CanLane.unlock (l : CanLane) : CanLane := { l with locked := false, align := none, count := 0, blocks := 0, bad := [] }

/-- The lane is OFF (R41, R42): in Deep, or without power. -/
def CanLane.off (l : CanLane) : CanLane := { CanLane.reset with scramble := l.scramble }

/-- The invalid headers that the loss window holds once the next block is in it. -/
def CanLane.recentBad (l : CanLane) : List Nat := l.bad.filter (fun b => decide (l.blocks + 1 < b + 1024))

/-- A sync header of a lane in LOCKED (R41). -/
def CanLane.header (l : CanLane) (valid : Bool) : CanLane :=
  let k := l.blocks + 1
  let bad := if valid then l.recentBad else k :: l.recentBad
  if 32 ≤ bad.length then l.unlock else { l with blocks := k, bad := bad }

/-- A block on a lane (R39, R41, R116): a locked lane counts the blocks since the last ALIGN block, of type 0x4B and zeros. -/
def CanLane.block (l : CanLane) (adapt : Bool) (hdr payload : Nat) : CanLane :=
  let (x, h) := descrambleBits 64 (payload % 2 ^ 64) l.scramble 1
  let valid := hdr % 4 == 1 || hdr % 4 == 2
  if l.locked then
    ({ l with scramble := h, align := if hdr % 4 = 2 ∧ x = 0x4B then some 0 else l.align.map (· + 1) } : CanLane).header valid
  else ({ l with scramble := h }).hunt valid adapt

/-! ## The lanes of a port -/

def State.canLane (s : State) (n : Nat) : CanLane := atD s.can.lanes (n - 80) CanLane.reset

def lanePort (n : Nat) : Nat := (n - 80) / 32

def State.portLanes (s : State) (p : Nat) : List CanLane := (s.can.lanes.drop (32 * p)).take 32

/-- PORTp_STATUS.LOCKED counts the lanes that are LOCKED. -/
def State.noteLocked (s : State) (p : Nat) : State :=
  s.setFld (CAN.PORT_STATUS_LOCKED p) ((s.portLanes p).filter (fun l => l.locked)).length

/-- The lanes of port p change. -/
def State.mapLanes (s : State) (p : Nat) (f : Nat → CanLane → CanLane) : State :=
  ({ s with can := { s.can with lanes := s.can.lanes.zipIdx.map (fun (q : CanLane × Nat) => if q.2 / 32 = p then f (q.2 % 32) q.1 else q.1) } }).noteLocked p

/-- Lane n changes; where it leaves LOCKED its port, if it runs, fails (R122). -/
def State.setCanLane (s : State) (n : Nat) (l : CanLane) : State :=
  let was := (s.canLane n).locked
  let s1 := ({ s with can := { s.can with lanes := setAt s.can.lanes (n - 80) l } }).noteLocked (lanePort n)
  if was && !l.locked && s1.portLive (lanePort n) then s1.portFail (lanePort n) else s1

def State.portAdapt (s : State) (p : Nat) : Bool := s.flag (CAN.PORT_CTRL_ADAPT p)

/-- Lane n is one of an Ehrah port in a domain that is on. -/
def State.canLaneOn (s : State) (n : Nat) : Bool := 80 ≤ n && n < 208 && s.domOn 10

/-- Block n of the lane commands on an Ehrah lane. -/
def State.canBlock (s : State) (n hdr payload : Nat) : State :=
  s.setCanLane n ((s.canLane n).block (s.portAdapt (lanePort n)) hdr payload)

/-- The lane leaves Deep with its CDR locked (R41): the port's PWR is Active or Idle (R116). -/
def State.canCdrLock (s : State) (n : Nat) : State :=
  s.setCanLane n { (s.canLane n) with on := true, count := 0, blocks := 0, bad := [], slip := 0, locked := false, align := none }

/-- The skew of two lanes in block times: one ALIGN block comes on each every 16,384 blocks (R116). -/
def alignSkew (a b : Nat) : Nat :=
  let d := (max a b - min a b) % 16384
  min d (16384 - d)

/-- All 32 lanes LOCKED and deskewed (R116): the ALIGN blocks of a row lie at most 64 block times apart. -/
def State.portAligned (s : State) (p : Nat) : Bool :=
  (s.portLanes p).all (fun l => l.locked && (s.portLanes p).all (fun m =>
    match l.align, m.align with
    | some a, some b => decide (alignSkew a b ≤ 64)
    | _, _ => false))

/-- Port p leaves DOWN for TRAIN where it is enabled and its lanes are Active (R122): ALIGN blocks go out from now on, one on every lane
every 16,384 blocks (R116), which the one output stands for. -/
def State.portStart (s : State) (p : Nat) : State :=
  if s.flag (CAN.PORT_CTRL_EN p) && s.fld (CAN.PORT_CTRL_PWR p) == 0 && s.portState p == 0 && s.domOn 10 then (s.portTo p 1).emit (.align p)
  else s

/-- The lanes of port p follow its PWR (R42) and the fixed peaking its PEAK (R40). -/
def State.portPower (s : State) (p : Nat) : State :=
  if s.fld (CAN.PORT_CTRL_PWR p) = 2 then s.mapLanes p (fun _ l => l.off)
  else if s.portAdapt p then s
  else s.mapLanes p (fun _ l => { l with adapting := false, peak := s.fld (CAN.PORT_CTRL_PEAK p) })

end Sys2Proof.Machine
end

