-- ==== Sys2Proof/Machine/Float.lean ====
section
/-! DEFINITION. Binary floating point in exact integer arithmetic, rounded once to nearest with ties to even: float32 and
float16 as the calibration engine (R218), the outputs (R237, R245) and the crown use them. -/
namespace Sys2Proof.Machine

/-- A floating-point value: m × 2^e where finite. -/
inductive Fp where
  | nan
  | inf (neg : Bool)
  | fin (neg : Bool) (m : Nat) (e : Int)
deriving DecidableEq, Repr

/-- m × 2^e as bits of a format with `p` significant and `w` exponent bits; the sign bit is put on by the caller. -/
def fpMag (p w : Nat) (m : Nat) (e : Int) : Nat :=
  if m = 0 then 0
  else
    let emin : Int := 3 - 2 ^ (w - 1) - p
    let q := max (e + (Nat.log2 m : Int) + 1 - p) emin
    let k :=
      if q ≤ e then m <<< (e - q).toNat
      else
        let sh := (q - e).toNat
        let hi := m >>> sh
        let rem := m % 2 ^ sh
        let half := 2 ^ (sh - 1)
        if half < rem ∨ (rem = half ∧ hi % 2 = 1) then hi + 1 else hi
    if k < 2 ^ (p - 1) then k
    else
      let (k, q) := if k = 2 ^ p then (2 ^ (p - 1), q + 1) else (k, q)
      let b := (q - emin + 1).toNat
      if 2 ^ w - 1 ≤ b then (2 ^ w - 1) * 2 ^ (p - 1) else b * 2 ^ (p - 1) + (k - 2 ^ (p - 1))

/-- The bits of a value; a NaN is a quiet one, `nan` gives its sign and the rest of its fraction. -/
def fpBits (p w nan : Nat) : Fp → Nat
  | .nan => (2 ^ w - 1) * 2 ^ (p - 1) + 2 ^ (p - 2) + nan / 2 % 2 ^ (p - 2) + nan % 2 * 2 ^ (p + w - 1)
  | .inf neg => (2 ^ w - 1) * 2 ^ (p - 1) + boolNat neg * 2 ^ (p + w - 1)
  | .fin neg m e => fpMag p w m e + boolNat neg * 2 ^ (p + w - 1)

/-- The value of bits. -/
def fpVal (p w : Nat) (x : Nat) : Fp :=
  let neg := x.testBit (p + w - 1)
  let b := bits x (p - 1) w
  let f := x % 2 ^ (p - 1)
  let emin : Int := 3 - 2 ^ (w - 1) - p
  if b = 2 ^ w - 1 then (if f = 0 then .inf neg else .nan)
  else if b = 0 then .fin neg f emin
  else .fin neg (f + 2 ^ (p - 1)) (emin + b - 1)

/-- The exact quotient num / den, den not 0, as a value whose rounding is that of the quotient: enough bits and a sticky one. -/
def fpQuot (neg : Bool) (num den : Nat) (e : Int) : Fp :=
  let sh := 80 + Nat.log2 den - min (Nat.log2 num) (80 + Nat.log2 den)
  let n := num <<< sh
  .fin neg (2 * (n / den) + (if n % den = 0 then 0 else 1)) (e - sh - 1)

def fpOfInt (i : Int) : Fp := .fin (decide (i < 0)) i.natAbs 0

def Fp.neg : Fp → Fp
  | .nan => .nan
  | .inf s => .inf (!s)
  | .fin s m e => .fin (!s) m e

def Fp.abs : Fp → Fp
  | .nan => .nan
  | .inf _ => .inf false
  | .fin _ m e => .fin false m e

/-- m × 2^e as an integer multiple of 2^f, f ≤ e. -/
def fpScale (neg : Bool) (m : Nat) (e f : Int) : Int :=
  let v : Int := (m <<< (e - f).toNat : Nat)
  if neg then -v else v

def Fp.add : Fp → Fp → Fp
  | .nan, _ => .nan
  | _, .nan => .nan
  | .inf a, .inf b => if a = b then .inf a else .nan
  | .inf a, _ => .inf a
  | _, .inf b => .inf b
  | .fin a m e, .fin b n f =>
    let g := min e f
    let s := fpScale a m e g + fpScale b n f g
    if s = 0 then .fin (a && b) 0 g else .fin (decide (s < 0)) s.natAbs g

def Fp.sub (a b : Fp) : Fp := a.add b.neg

def Fp.mul : Fp → Fp → Fp
  | .nan, _ => .nan
  | _, .nan => .nan
  | .inf a, .inf b => .inf (a != b)
  | .inf a, .fin b n _ => if n = 0 then .nan else .inf (a != b)
  | .fin a m _, .inf b => if m = 0 then .nan else .inf (a != b)
  | .fin a m e, .fin b n f => .fin (a != b) (m * n) (e + f)

def Fp.div : Fp → Fp → Fp
  | .nan, _ => .nan
  | _, .nan => .nan
  | .inf _, .inf _ => .nan
  | .inf a, .fin b _ _ => .inf (a != b)
  | .fin a _ e, .inf b => .fin (a != b) 0 e
  | .fin a m e, .fin b n f =>
    if n = 0 then (if m = 0 then .nan else .inf (a != b)) else fpQuot (a != b) m n (e - f)

/-- ⌊√n⌋. -/
def natSqrt (n : Nat) : Nat :=
  (List.range (Nat.log2 n / 2 + 1)).foldl (fun r i =>
    let b := 2 ^ (Nat.log2 n / 2 - i)
    if (r + b) * (r + b) ≤ n then r + b else r) 0

def Fp.sqrt : Fp → Fp
  | .nan => .nan
  | .inf neg => if neg then .nan else .inf false
  | .fin neg m e =>
    if m = 0 then .fin neg 0 e
    else if neg then .nan
    else
      let sh := 128 + (e % 2).toNat
      let n := m <<< sh
      let r := natSqrt n
      .fin false (2 * r + (if r * r = n then 0 else 1)) ((e - sh) / 2 - 1)

/-- a < b; false where either is a NaN. -/
def Fp.lt (a b : Fp) : Bool :=
  match a, b with
  | .nan, _ => false
  | _, .nan => false
  | .inf x, .inf y => x && !y
  | .inf x, .fin _ _ _ => x
  | .fin _ _ _, .inf y => !y
  | .fin x m e, .fin y n f => let g := min e f; decide (fpScale x m e g < fpScale y n f g)

def Fp.isFinite : Fp → Bool
  | .fin _ _ _ => true
  | _ => false

def Fp.isZero : Fp → Bool
  | .fin _ m _ => m == 0
  | _ => false

/-! ## float32 words -/

/-- The float32 result of operation `op` on these operands: 0 sum, 1 difference, 2 product, 3 quotient, 4 root, 5 a conversion
from an integer, 6 from binary16. A NaN's bits are Config.nan's. -/
def f32 (op : Nat) (operands : List Nat) (v : Fp) : Nat := fpBits 24 8 (Config.nan op operands) v
def f32val (x : Nat) : Fp := fpVal 24 8 x
def f32add (a b : Nat) : Nat := f32 0 [a, b] ((f32val a).add (f32val b))
def f32sub (a b : Nat) : Nat := f32 1 [a, b] ((f32val a).sub (f32val b))
def f32mul (a b : Nat) : Nat := f32 2 [a, b] ((f32val a).mul (f32val b))
def f32div (a b : Nat) : Nat := f32 3 [a, b] ((f32val a).div (f32val b))
def f32sqrt (a : Nat) : Nat := f32 4 [a] (f32val a).sqrt
def f32ofInt (i : Int) : Nat := f32 5 [] (fpOfInt i)
/-- num / den rounded once. -/
def f32ofRat (num : Int) (den : Nat) : Nat :=
  if den = 0 then f32 5 [] .nan else f32 5 [] (fpQuot (decide (num < 0)) num.natAbs den 0)
def f32neg (a : Nat) : Nat := a ^^^ 0x80000000
def f32abs (a : Nat) : Nat := a % 0x80000000
def f32lt (a b : Nat) : Bool := (f32val a).lt (f32val b)
def f32finite (a : Nat) : Bool := (f32val a).isFinite

/-! ## Integer rounding and the sine table -/

/-- num / den, den > 0, rounded to nearest with ties away from zero (R61). -/
def roundAway (num : Int) (den : Nat) : Int :=
  let q : Int := ((2 * num.natAbs + den) / (2 * den) : Nat)
  if num < 0 then -q else q

/-- num / den, den > 0, rounded to nearest with ties to even. -/
def roundEven (num : Int) (den : Nat) : Int :=
  let n := num.natAbs
  let q := n / den
  let r := n % den
  let q : Int := ((if den < 2 * r ∨ (2 * r = den ∧ q % 2 = 1) then q + 1 else q) : Nat)
  if num < 0 then -q else q

/-- π/2 in units of 2^−128. -/
def halfPi : Nat := 0x1921FB54442D18469898CC51701B839A2

/-- The Taylor sum of sine or cosine at x × 2^−128, 0 ≤ x ≤ π/4, in units of 2^−128: `k` terms from `n`, the sign alternating. -/
def taylor : Nat → Nat → Int → Nat → Int
  | 0, _, _, _ => 0
  | k + 1, n, term, x2 => term + taylor k (n + 2) (-(term * x2 / 2 ^ 128 / ((n + 1) * (n + 2) : Nat))) x2

/-- cos and sin of u / 2^b turn, scaled by `amp` and rounded to nearest (R65). -/
def cosSin (amp b u : Nat) : Int × Int :=
  let u := u % 2 ^ b
  let quad := u * 4 / 2 ^ b
  let v := u * 4 % 2 ^ b
  let x := halfPi * v / 2 ^ b
  let x2 := x * x / 2 ^ 128
  let c := roundAway (taylor 24 0 (2 ^ 128) x2 * amp) (2 ^ 128)
  let s := roundAway (taylor 24 1 x x2 * amp) (2 ^ 128)
  match quad with
  | 0 => (c, s)
  | 1 => (-s, c)
  | 2 => (-c, -s)
  | _ => (s, -c)

end Sys2Proof.Machine
end

