-- ==== Sys2Proof/Machine/Frame.lean ====
section
/-! DEFINITION. The grid of bell times (R13 to R15), frames and slots, commit deadlines (R31), hand-off pages (R78, R79), and
the flags that follow a frame into its dump (R177). -/
namespace Sys2Proof.Machine

/-- T0 in 2^−16 ns (R13). -/
def State.t0 (s : State) : Nat :=
  ((s.fld BEL.T0_SEC_HI_SEC * 2 ^ 32 + s.regN BEL.T0_SEC_LO) * 1000000000 + s.fld BEL.T0_NS_NS) * ns

/-- D in 2^−16 ns (R13). -/
def State.frameLen (s : State) : Nat :=
  s.fld BEL.FLEN_FRAC_FRAC + s.regN BEL.FLEN_LO * ns + s.fld BEL.FLEN_HI_NS * 2 ^ 48

/-- D lies in the bounds of R38: 1,048,576 ns to 2^40 ns. -/
def State.frameLenOk (s : State) : Bool := 1048576 * ns ≤ s.frameLen && s.frameLen ≤ 2 ^ 40 * ns

/-- The bell index of the last bell rung, 0 before the first (BEL.BELL_LO, BELL_HI). -/
def State.bellIndex (s : State) : Nat := s.pair BEL.BELL_LO BEL.BELL_HI

/-- A follower's bell k in 2^−34 ns, on its own timebase (R18, R19). -/
def State.localFine (s : State) (k : Int) : Int :=
  s.bell.baseFine + (k - s.bell.baseIdx) * (s.frameLen * 2 ^ 18 + s.bell.freq)

/-- The instant of bell k: T0 + k × D (R13, R14), or the device's own timebase where that follows a lead. -/
def State.bellAt (s : State) (k : Nat) : Int :=
  if s.bell.ticking then s.localFine k / 2 ^ 18 else s.t0 + k * s.frameLen

/-- The frame that runs: the last bell rung while the engine rings. -/
def State.curFrame (s : State) : Option Nat := if s.isRinging then s.bell.rungs.head?.map (·.1) else none

/-- Slot s of the running frame begins at its bell + s × D / 1,024 (R14). -/
def State.slotAt (s : State) (slot : Nat) : Nat :=
  match s.bell.rungs with
  | (_, at_) :: _ => at_ + slot * s.frameLen / 1024
  | [] => 0

/-- The slot of the running frame that now lies in. -/
def State.slotNow (s : State) : Nat :=
  match s.bell.rungs with
  | (_, at_) :: _ => min 1023 ((s.now - at_) * 1024 / max 1 s.frameLen)
  | [] => 0

/-- The frame index whose low `w` bits are x, nearest the last bell rung. -/
def State.fullFrame (s : State) (w x : Nat) : Nat :=
  let b := s.bellIndex
  let lo := b - min b (2 ^ (w - 1))
  lo + (x % 2 ^ w + 2 ^ w - lo % 2 ^ w) % 2 ^ w

/-- 655.36 µs, by which polynomial and context commits precede the bell (R31). -/
def commitLead : Nat := 655360 * ns

/-- Now is before t_f − 655.36 µs (R78, R100, R105). -/
def State.beforeDeadline (s : State) (f : Nat) : Bool := (s.now : Int) < s.bellAt f - commitLead

/-! ## Schedule items (R28) -/

/-- The entries of an engine that place the work `work`, by number. -/
def State.itemsFor (s : State) (engine : Nat) (work : List Nat) : List (Nat × SchedEntry) :=
  (s.schedule.zipIdx.map (fun p => (p.2, p.1))).filter (fun p =>
    p.2.engine == engine && Config.itemOf engine p.2.kind p.2.arg work)

/-- Entry k runs: it has started, its END slot is not over, and the ledger has not taken it out of the frame (R28, R378). -/
def State.itemRuns (s : State) (k : Nat) : Bool :=
  s.started.contains k && !s.ended.contains k && !s.shed.contains k && !s.deferred.contains k

/-- Work that entries place runs only while one of them does; work that none places runs by its own rules (R28). -/
def State.itemOpen (s : State) (engine : Nat) (work : List Nat) : Bool :=
  (s.itemsFor engine work).isEmpty || (s.itemsFor engine work).any (fun p => s.itemRuns p.1)

/-- Every entry that places the work is over (R28). -/
def State.itemShut (s : State) (engine : Nat) (work : List Nat) : Bool :=
  !(s.itemsFor engine work).isEmpty && (s.itemsFor engine work).all (fun p => s.ended.contains p.1)

/-! ## Flags of frames (R24, R79, R177) -/

def flagStale : Nat := 0
def flagStep : Nat := 1
def flagDieOut : Nat := 2

/-- Dump header flag k of frame f is set. -/
def State.flagFrame (s : State) (f k : Nat) : State :=
  { s with frameFlags := Store.put s.frameFlags f (setBit (Store.getD s.frameFlags f 0) k true) }

/-! ## Pages handed over by commits (R78, R79) -/

/-- Page k is in use; before the first use none is, but for the scale banks, of which bank 0 is in use from reset (R106). -/
def Page.inUse (p : Page) (fromReset : Bool) (k : Nat) : Bool := k == p.active && (p.frame.isSome || fromReset)

/-- An accepted commit of page k for frame f; a second one of the same page replaces the first. -/
def Page.commit (p : Page) (k f : Nat) : Page := { p with pend := Store.put p.pend k f }

/-- The page that a commit for frame f names. -/
def Page.committed (p : Page) (f : Nat) : Option Nat := (p.pend.find? (fun q => q.2 == f)).map (·.1)

/-- The change of page at the first item of frame f (R79): the new page where a commit names f, else the page in use goes on
stale for one frame beyond its own and is expired after that. -/
def Page.change (p : Page) (f : Nat) : Page :=
  match p.committed f with
  | some k =>
    { active := k, frame := some f, pend := Store.del p.pend k, stale := false, expired := false, decided := some f }
  | none =>
    match p.frame with
    | none => { p with decided := some f }
    | some g =>
      if f ≤ g then { p with decided := some f }
      else if f = g + 1 then { p with stale := true, decided := some f }
      else { p with stale := true, expired := true, decided := some f }

/-- PSTATUS as R79 shows it: ACTIVE, VALID, STALE, PEND, FRAME [27:0]. -/
def Page.status (p : Page) : Nat :=
  p.active % 2 + 2 * boolNat p.frame.isSome + 4 * boolNat p.stale + 8 * boolNat (p.pend != [])
    + 16 * (p.frame.getD 0 % 2 ^ 28)

/-- Items are flagged for want of a page: none used yet, or expired. -/
def Page.flags (p : Page) : Bool := p.frame.isNone || p.expired

/-! ## Event entries and capture triggers of the front end (R86, R143) -/

/-- The freeze bell of a trigger from sources 0 to 3 (R144): n + 1 before slot 1,000 of frame n, else n + 2. -/
def State.freezeBell (s : State) (n : Nat) : Nat := if s.now < s.slotAt 1000 then n + 1 else n + 2

/-- A capture trigger from source `src` goes on its way while its bit of RRG.TRIG.EN is 1 (R143). A FILTER trigger takes its freeze
bell from the frame in which its event is decided, none before the first bell (R86, R144). -/
def State.trigger (s : State) (src tag : Nat) : State :=
  if (s.fld RRG.TRIG_EN).testBit src then
    { s with trigQ := s.trigQ ++ [{ source := src, tag := tag % 2 ^ 64, pre := 0, post := 0, origin := 0,
                                    bell := if src = 2 then (s.curFrame.map s.freezeBell).getD 0 else 0 }] }
  else s

/-- OUT.PRODEN enables product KIND k (R236). -/
def State.kindOn (s : State) (k : Nat) : Bool := (s.fld OUT.PRODEN_EN).testBit (k - 1)

end Sys2Proof.Machine
end

