-- ==== Sys2Proof/Machine/Front.lean ====
section
/-! DEFINITION. The front filter chain (R60 to R86): DC blocker, mixer, CIC, compensator, delay buffer and detectors on each
released sample, the resampler with its position polynomials, coefficient banks and swaps, threshold events. -/
namespace Sys2Proof.Machine

/-! ## Lane groups and inputs (R44, R60) -/

def State.grpFirst (s : State) (g : Nat) : Nat := s.fld (ING.GRP_CFG_FIRST g)
def State.grpLanes (s : State) (g : Nat) : Nat := s.fld (ING.GRP_CFG_LANES g) + 1
def State.grpInputs (s : State) (g : Nat) : Nat := s.fld (ING.GRP_CFG_INPUTS g) + 1
def State.grpBase (s : State) (g : Nat) : Nat := s.fld (ING.GRP_CFG_BASE g)
def State.grpBlocks (s : State) (g : Nat) : Nat := s.fld (ING.GRP_LEN_DBLK g)
def State.grpOn (s : State) (g : Nat) : Bool := s.flag (ING.GRP_CTRL_EN g)

/-- A group is laid out once its DBLK, 1 to 4,096, is set. -/
def State.grpDefined (s : State) (g : Nat) : Bool := s.grpBlocks g != 0

/-- The inputs of group g below 128. -/
def State.grpInputList (s : State) (g : Nat) : List Nat :=
  ((List.range (s.grpInputs g)).map (s.grpBase g + ·)).filter (· < 128)

/-- The group of input i. -/
def State.groupOf (s : State) (i : Nat) : Option Nat :=
  (List.range 32).find? (fun g => s.grpDefined g && (s.grpBase g ≤ i && i < s.grpBase g + s.grpInputs g))

def State.input (s : State) (i : Nat) : FrontIn := atD s.front.ins i FrontIn.reset

def State.setInput (s : State) (i : Nat) (x : FrontIn) : State :=
  { s with front := { s.front with ins := setAt s.front.ins i x } }

/-- DEC of group g (R68). A DEC of 0 acts as 1, and 2, 3 and 65 to 127, which Tiduost rejects, are stored and used as they
stand (DESIGN CHOICE, log entry 57: R69 states no effect in the device). -/
def State.dec (s : State) (g : Nat) : Nat := max 1 (s.fld (FFL.GRP_CHAIN_DEC g))

/-- E + LATENCY in 2^−16 ns (R53). -/
def State.epochT (s : State) : Nat :=
  ((s.fld ING.EPOCH_SEC_HI_SEC * 2 ^ 32 + s.regN ING.EPOCH_SEC_LO) * 1000000000 + s.fld ING.EPOCH_NS_NS) * ns

def State.rate (s : State) : Nat := s.regN ING.RATE

/-- The release time of time step k, times RATE: (E + LATENCY) × RATE + k seconds (R53). -/
def State.releaseScaled (s : State) (k : Nat) : Nat :=
  (s.epochT + s.fld ING.LATENCY_NS * ns) * s.rate + k * 1000000000 * ns

/-! ## DC blocker, mixer, CIC, compensator (R63 to R70) -/

/-- The output of the DC blocker for a valid sample x: x − m, 24 fraction bits, rounded to 6 (R63). -/
def dcOut (x m : Int) : Int := roundAway (x * 2 ^ 24 - m) (2 ^ 18)

/-- The update of the mean (R63). -/
def dcMean (x m : Int) (k : Nat) : Int := m + (x * 2 ^ 24 - m) / 2 ^ k

/-- The mixer (R65): y × exp(−i2πφ / 2^32) from the table of the top 20 bits of φ; y has 6 fraction bits, the table 17, the
output 8. -/
def mix (y : Int) (phi : Nat) : Int × Int :=
  let (c, sn) := cosSin (2 ^ 17 - 1) 20 (phi / 2 ^ 12 % 2 ^ 20)
  (roundAway (y * c) (2 ^ 15), roundAway (-(y * sn)) (2 ^ 15))

/-- The phase of an input at ingest index k (R65). -/
def FrontIn.phase (f : FrontIn) (k : Nat) : Nat :=
  (((f.phase0 : Int) + ((k : Int) - f.sr) * f.fw) % 2 ^ 32).toNat

def wrap48 (x : Int) : Int := toSigned 48 (ofSigned 48 x)

/-- The integrators, first to last, each adding its input (R68). -/
def integrate : List (Int × Int) → Int × Int → List (Int × Int)
  | [], _ => []
  | (a, b) :: l, (x, y) =>
    let v := (wrap48 (a + x), wrap48 (b + y))
    v :: integrate l v

/-- The combs, first to last, each subtracting its delayed input: the new delays and the output. -/
def combs : List (Int × Int) → Int × Int → List (Int × Int) × (Int × Int)
  | [], v => ([], v)
  | (a, b) :: l, (x, y) =>
    let r := combs l (wrap48 (x - a), wrap48 (y - b))
    ((x, y) :: r.1, r.2)

/-- The order N of the CIC (R68). -/
def State.cicOrder (s : State) (g : Nat) : Nat := s.fld (FFL.GRP_CHAIN_ORDER g) + 3

/-- G = ⌈N × log2 DEC⌉: the least G with DEC^N ≤ 2^G. -/
def cicGain (n dec : Nat) : Nat :=
  let p := dec ^ n
  if 2 ^ Nat.log2 p = p then Nat.log2 p else Nat.log2 p + 1

def padTo (n : Nat) (l : List (Int × Int)) : List (Int × Int) := (l ++ List.replicate n (0, 0)).take n

/-- One sample through the CIC (R68): the new state, and buffer sample k's value where k ends at ingest index `i`. The newest
flagged input is kept at every DEC, so that the support of R62 is right across a change of DEC. -/
def FrontIn.cic (f : FrontIn) (n dec i : Nat) (v : Samp) : FrontIn × Option Samp :=
  let f := { f with lastFlag := if v.flag then some i else f.lastFlag }
  if dec = 1 then (f, some v)
  else
    let g := integrate (padTo n f.integ) (v.re, v.im)
    let last := g.getLast?.getD (0, 0)
    let f1 := { f with integ := g }
    if i % dec = dec - 1 then
      let (c, o) := combs (padTo n f1.comb) last
      let sh := 2 ^ cicGain n dec
      let fl := match f1.lastFlag with
        | some j => decide (i - j < n * (dec - 1) + 1)
        | none => false
      ({ f1 with comb := c }, some { re := roundAway o.1 sh, im := roundAway o.2 sh, flag := fl })
    else (f1, none)

/-- The word of a coefficient (R80). -/
def coefKey (g kind bank word : Nat) : Nat := g * 2 ^ 17 + kind * 2 ^ 16 + bank * 2 ^ 15 + word

def State.coef (s : State) (g kind bank word : Nat) : Int := toSigned 18 (Store.getD s.front.coef (coefKey g kind bank word) 0)

/-- The bank of a kind (0 compensator, 1 resampler) in use for a sample whose ingest index is k: the new one from s_w on
while a swap of that kind is pending (R82). -/
def State.bankAt (s : State) (g kind : Nat) (k : Int) : Nat :=
  let cur := if kind = 0 then s.fld (FFL.GRP_BANK_COMP g) else s.fld (FFL.GRP_BANK_RES g)
  match Store.get? s.front.swaps g with
  | some (w, c, r) => if (if kind = 0 then c else r) ∧ (w : Int) ≤ k then 1 - cur else cur
  | none => cur

def satLim : Int := 2 ^ 17 - 1

/-- A result beyond ±(2^17 − 1) saturates (R61). -/
def sat18 (re im : Int) (flag : Bool) : Samp × Bool :=
  let a := clampI (-satLim) satLim re
  let b := clampI (-satLim) satLim im
  ({ re := a, im := b, flag := flag }, a != re || b != im)

/-- Σ c[t] × v[k − t] over the taps, newest first, rounded to 8 fraction bits (R70). -/
def firSum (c : Nat → Int) (l : List Samp) : Int × Int :=
  let r := (l.zipIdx).foldl (fun (a : Int × Int) (p : Samp × Nat) => (a.1 + c p.2 * p.1.re, a.2 + c p.2 * p.1.im)) (0, 0)
  (roundAway r.1 (2 ^ 17), roundAway r.2 (2 ^ 17))

/-- SAT_CNT and SAT for a saturated sample (R61). -/
def State.noteSat (s : State) (b : Bool) : State := s.when b (fun s => (s.bump FFL.SAT_CNT 1).raise FFL.STAT_SAT)

/-- The compensator of group g on buffer sample k (R70), and the taps it leaves: the last CIC outputs, bypassed or not. -/
def State.compensate (s : State) (g k : Nat) (f : FrontIn) (v : Samp) : FrontIn × Samp × Bool :=
  let l := v :: f.taps
  if s.flag (FFL.GRP_CHAIN_COMP_BYP g) then ({ f with taps := l.take 62 }, v, false)
  else
    let d := s.dec g
    let b := s.bankAt g 0 ((k * d + d - 1 : Nat) : Int)
    let (re, im) := firSum (fun t => s.coef g 0 b t) l
    let (o, sat) := sat18 re im (l.any (·.flag))
    ({ f with taps := l.take 62 }, o, sat)

/-! ## Delay buffer and detectors (R71, R83 to R85) -/

/-- Buffer samples kept: the 262,144 of R71 and those not yet written for 250 ns. -/
def bufKeep : Nat := 262144 + 1024

/-- The window of a detector has ended with buffer sample k (R83): what it met waits for its decision. -/
def State.detectEnd (s : State) (i k : Nat) (f : FrontIn) : FrontIn :=
  let j := s.fld FFL.DET_J
  let f0 := { f with win := none, sum := 0, cnt := 0 }
  if f.cnt < 2 ^ (j - 1) then f0
  else
    let meets (thrB : Bool) : Bool :=
      let th := (if thrB then s.regN (FFL.IN_THB i) else s.regN (FFL.IN_THA i)) * 256 * f.cnt
      let below := if thrB then s.flag FFL.DET_DIR_B else s.flag FFL.DET_DIR_A
      if below then f.sum < th else th < f.sum
    let ev (thrB : Bool) : List ThrEvent :=
      if meets thrB then [{ last := k, j := j, thrB := thrB, sum := f.sum, cnt := f.cnt }] else []
    { f0 with events := f0.events ++ ev false ++ ev true }

/-- The detector takes compensator output k (R83). A sum left over from another window (DET_EN was 0, or J changed) starts
anew, so that no window holds samples outside it; a window entered late holds the samples met from there on. -/
def State.detect (s : State) (i k : Nat) (f : FrontIn) (v : Samp) : FrontIn :=
  if s.flag (FFL.IN_CFG_DET_EN i) then
    let w := 2 ^ s.fld FFL.DET_J
    let here := some (k - k % w, s.fld FFL.DET_J)
    let f := if f.win = here then f else { f with win := here, sum := 0, cnt := 0 }
    let f := if v.flag then f else { f with sum := f.sum + (v.re * v.re + v.im * v.im).natAbs, cnt := f.cnt + 1 }
    if k % w = w - 1 then s.detectEnd i k f else f
  else f

/-- Buffer sample k of input i is written (R71), flagged where HOLD still flags (R85). -/
def FrontIn.put (f : FrontIn) (k : Nat) (v : Samp) : FrontIn :=
  let v := { v with flag := v.flag || decide (k < f.holdTo) }
  { f with buf := (Store.put f.buf k v).filter (fun p => decide (k < p.1 + bufKeep)), newest := some k }

/-- One released sample of input i at time step k (R62): `x` is none for the flag code; `frozen` freezes the mean (R64). -/
def State.chainSample (s : State) (g i k : Nat) (x : Option Int) (frozen : Bool) : State :=
  let f := s.input i
  let m := toSigned 32 (s.regN (FFL.IN_MEAN i))
  let s := match x with
    | some v => if frozen then s else s.setRegN (FFL.IN_MEAN i) (ofSigned 32 (dcMean v m (s.fld (FFL.IN_CFG_K i))))
    | none => s
  let y := match x with
    | some v => dcOut v m
    | none => 0
  let (re, im) := mix y (f.phase k)
  let v : Samp := { re := re, im := im, flag := x.isNone || !(s.flag FFL.NCO_CMD_DONE) }
  match f.cic (s.cicOrder g) (s.dec g) k v with
  | (f, none) => s.setInput i f
  | (f, some v) =>
    let b := k / s.dec g
    let (f, o, sat) := s.compensate g b f v
    ((s.setInput i ((s.detect i b f o).put b o))).noteSat sat

/-! ## Phase resets (R66) -/

/-- The pending reset is applied at time step k: every input of every enabled group loads FW and PHASE0.
An input whose group is not enabled then keeps the FW, PHASE0 and s_r it had, and its later samples are not flagged for want of a
reset (DESIGN CHOICE, log entry 57: R65 to R67 do not treat a group enabled after the reset). -/
def State.ncoApply (s : State) (k : Nat) : State :=
  let ins := ((List.range 32).filter (fun g => s.grpDefined g && s.grpOn g)).flatMap s.grpInputList
  let s1 := s.each ins (fun s i =>
    s.setInput i { s.input i with fw := s.regN (FFL.IN_FW i), phase0 := s.regN (FFL.IN_PHASE0 i), sr := k })
  (({ s1 with front := { s1.front with ncoPend := none } }.setFlag FFL.NCO_CMD_PEND false).setFlag FFL.NCO_CMD_DONE
    true).raise FFL.STAT_NCO_RST

/-- The next time step to be released is at or after k. -/
def State.nextStepIs (s : State) (k : Nat) : Bool :=
  match s.ing.newest with
  | some n => k ≤ n + 1
  | none => true

/-- A pending phase reset at or before time step k is applied before that step. -/
def State.ncoDue (s : State) (k : Nat) : State :=
  match s.front.ncoPend with
  | some r => if r ≤ k then s.ncoApply r else s
  | none => s

/-- An index less than 2^20 samples beyond the newest is too close (R66, R81, R93). Before the first sample there is no newest
index and nothing is too close (DESIGN CHOICE, log entry 57). -/
def tooClose (newest : Option Nat) (k : Nat) : Bool :=
  match newest with
  | some n => k < n + 2 ^ 20
  | none => false

/-- A write of 1 to NCO_CMD.ARM (R66). -/
def State.ncoArm (s : State) : State :=
  let k := s.pair FFL.NCO_RST_LO FFL.NCO_RST_HI
  if tooClose s.ing.newest k then s.raise FFL.STAT_NCO_LATE
  else { s with front := { s.front with ncoPend := some k } }.setFlag FFL.NCO_CMD_PEND true

def execNcoArm (t : Nat) (s : State) : Out3 := done (s.at t).ncoArm

/-- Time step k is s_r (R66). -/
def execNcoPhaseReset (k : Nat) (s : State) : Out3 :=
  doneIf s (s.front.ncoPend == some k && s.nextStepIs k) (fun s => s.ncoApply k)

/-! ## Position polynomials (R76 to R79) -/

/-- W × N, the output samples of a frame. -/
def State.frameSamples (s : State) : Nat := s.specW * s.chanN

/-- Word `o` of input i in page p. -/
def State.polyWord (s : State) (p i o : Nat) : Nat := s.regN ((if p = 0 then FFL.PAGE0 0 else FFL.PAGE1 0) + 64 * i + o)

/-- x(u) in units of 2^−132 (R76), with an error below 2^−20 of a buffer sample that the implementation leaves (log entry 8). -/
def State.position (s : State) (i : Nat) (n u : Int) : Int :=
  let w := s.polyWord s.front.poly.active i
  let a0 : Int := (w 0 + w 4 * 2 ^ 32 + w 8 * 2 ^ 64 : Nat)
  let a1 := toSigned 96 (w 0xC + w 0x10 * 2 ^ 32 + w 0x14 * 2 ^ 64)
  let a2 := toSigned 64 (w 0x18 + w 0x1C * 2 ^ 32)
  let a3 := toSigned 64 (w 0x20 + w 0x24 * 2 ^ 32)
  a0 * 2 ^ 100 + a1 * u * 2 ^ 56 + a2 * u * u * 2 ^ 36 + a3 * u * u * u
    + clampI (1 - 2 ^ 112) (2 ^ 112 - 1) (Config.error 76 [i, n, a0, a1, a2, a3])

/-- j and φ of a read position (R73). -/
def readPoint (x : Int) : Int × Nat :=
  let j := x / 2 ^ 132
  let fr := x % 2 ^ 132
  let p := (roundAway (1024 * fr) (2 ^ 132)).toNat
  if p = 1024 then (j + 1, 0) else (j, p)

/-- The page change of the position polynomials at the first output sample of frame f (R79). -/
def State.polyChange (s : State) (f : Nat) : State :=
  if s.front.poly.decided = some f then s
  else
    let p := s.front.poly
    let q := p.change f
    let s1 := { s with front := { s.front with poly := q } }
    let s2 := if q.stale && !q.expired then s1.flagFrame f flagStale else s1
    s2.raiseIf (q.expired && !p.expired) FFL.STAT_POLY_EXPIRED

/-- The next output sample is the first of frame f. -/
def State.nextOutIs (s : State) (n : Nat) : Bool :=
  match s.front.newestOut with
  | some k => k + 1 == n
  | none => true

def execPolyPageChange (f : Nat) (s : State) : Out3 :=
  doneIf s (s.nextOutIs (f * s.frameSamples)) (fun s => s.polyChange f)

def execPolyExpired (f : Nat) (s : State) : Out3 :=
  doneIf s (s.nextOutIs (f * s.frameSamples) && (s.front.poly.change f).expired && !s.front.poly.expired)
    (fun s => s.polyChange f)

/-- A write of FFL.PCOMMIT (R78): page and bits [30:0] of f. -/
def State.polyCommit (s : State) (v : Nat) : State :=
  let f := s.fullFrame 31 (v / 2)
  if s.front.poly.inUse false (v % 2) then
    (s.raise FFL.STAT_COMMIT_REJ).when (!s.beforeDeadline f) (fun s => (s.raise FFL.STAT_POLY_LATE).raise BEL.STAT_POLY_LATE)
  else if s.beforeDeadline f then { s with front := { s.front with poly := s.front.poly.commit (v % 2) f } }
  else (s.raise FFL.STAT_POLY_LATE).raise BEL.STAT_POLY_LATE

def execPolyCommit (v : Word) (t : Nat) (s : State) : Out3 := done ((s.at t).polyCommit v.toNat)

/-! ## Resampler (R71 to R75) -/

/-- T0 + n / f_out + L − 100 ns, in 2^−16 ns, exact as (numerator, denominator): f_out = RATE × P / (DEC × Q). -/
def State.outTime (s : State) (g n : Nat) : Int × Nat :=
  let p := s.fld (FFL.GRP_RATIO_PM1 g) + 1
  let q := s.fld (FFL.GRP_RATIO_QM1 g) + 1
  let den := max 1 (s.rate * p)
  ((s.t0 + s.fld FFL.LAG_NS * ns : Int) * den - 100 * ns * den + (n * 1000000000 * ns * s.dec g * q : Nat), den)

/-- Buffer sample k is written by (num / den) (R71): E + (k × DEC + DEC − 1) / f_in + LATENCY + 250 ns. -/
def State.writtenBy (s : State) (g : Nat) (k : Int) (t : Int × Nat) : Bool :=
  let d : Int := s.dec g
  let r : Int := max 1 s.rate
  let num : Int := (s.epochT + (s.fld ING.LATENCY_NS + 250) * ns : Int) * r + (k * d + d - 1) * (1000000000 * ns : Int)
  num * t.2 ≤ t.1 * r

/-- The buffer sample of index k. -/
def FrontIn.at? (f : FrontIn) (k : Int) : Option Samp := if k < 0 then none else Store.get? f.buf k.toNat

/-- Output of input i with the integer read point j and the phase phi (R73, R74), at a time: the sample, j, whether it saturated and whether
all 32 samples were there. -/
def State.resampleAt (s : State) (g i : Nat) (j : Int) (phi : Nat) (t : Int × Nat) : Samp × Int × Bool × Bool :=
  let f := s.input i
  let inRange := s.writtenBy g (j + 16) t && !(s.writtenBy g (j - 15 + 262144) t) &&
    (List.range 32).all (fun k => (f.at? (j - 15 + k)).isSome)
  if inRange then
    let l := (List.range 32).map (fun (k : Nat) => (f.at? (j - 15 + k)).getD { re := 0, im := 0, flag := true })
    let d : Int := s.dec g
    let b := s.bankAt g 1 (j * d + d - 1)
    let z := firSum (fun k => s.coef g 1 b (phi * 32 + k)) l
    let o := sat18 z.1 z.2 (l.any (·.flag) || s.front.poly.flags)
    (o.1, j, o.2, true)
  else ({ re := 0, im := 0, flag := true }, j, false, false)

/-- Output sample n of input i (R73, R74): the sample, the j it read, whether it saturated and whether it was in range. -/
def State.resample (s : State) (g i n : Nat) : Samp × Int × Bool × Bool :=
  let r := readPoint (s.position i n ((n : Int) - s.front.poly.frame.getD 0 * s.frameSamples))
  s.resampleAt g i r.1 r.2 (s.outTime g n)

/-- The channeliser may still use output sample n: it lies in the support of the next spectrum or after it, or, before the first
one, among the last 4N (R88). A spectrum uses its 4N samples however many follow before it completes (R107). -/
def State.outNeeded (s : State) (n : Nat) : Bool :=
  match s.chan.newestSpec with
  | some m => decide ((m + 1) * s.chanN ≤ n + 3 * s.chanN / 2)
  | none => match s.front.newestOut with
    | some k => decide (k < n + 16 * s.chanN)
    | none => true

/-- The resampler computes output sample n of input i and hands it to the channeliser. Before the first page is used the
position of page 0's words is evaluated all the same, so that R74's RANGE can rise then (DESIGN CHOICE, log entry 57: R79 says
only that the outputs are flagged). -/
def State.resampleInput (s : State) (g n i : Nat) : State :=
  let (z, j, sat, ok) := s.resample g i n
  let f := s.input i
  let rd := if ok then (addSpan (j - 15).toNat (j + 16).toNat f.reads).filter (fun r => decide ((j - 15).toNat < r.2 + bufKeep))
    else f.reads
  let f1 := { f with out := ((n, z) :: f.out).filter (fun p => s.outNeeded p.1), reads := rd, lastJ := if 0 ≤ j then some j.toNat else f.lastJ }
  let s1 := (s.setInput i f1).noteSat sat
  if ok then s1 else (s1.bump FFL.RANGE_CNT 1).raise FFL.STAT_RANGE

/-- Output sample n of every input (R72, R73). -/
def State.resampleAll (s : State) (n : Nat) : State :=
  let s := if n % max 1 s.frameSamples = 0 then s.polyChange (n / max 1 s.frameSamples) else s
  let s := s.each ((List.range 32).filter s.grpDefined) (fun s g => s.each (s.grpInputList g) (fun s i => s.resampleInput g n i))
  { s with front := { s.front with newestOut := some n } }

def execResamplerOutput (n : Nat) (s : State) : Out3 :=
  doneIf s (s.works 2 22 && s.nextOutIs n && s.rate != 0) (fun s =>
    let g := ((List.range 32).find? s.grpDefined).getD 0
    let (num, den) := s.outTime g n
    (s.at (num / den).toNat).resampleAll n)

/-! ## Coefficient banks and swaps (R80 to R82) -/

/-- The word number that CADDR addresses: 0 to 62, or 0 to 32,767. -/
def State.coefSel (s : State) : Nat × Nat × Nat × Nat :=
  (s.fld FFL.CSEL_GROUP, s.fld FFL.CSEL_KIND, s.fld FFL.CSEL_BANK, s.fld FFL.CADDR_ADDR)

/-- A read or write of CDATA (R80): one word, then CADDR + 1. The word read is shown in CDATA. Compensator words 63 and above,
which do not exist, read 0 and discard a write without BANK_WR, and CADDR still steps (DESIGN CHOICE, log entry 57). -/
def State.coefAccess (s : State) (write : Bool) (v : Nat) : State :=
  let (g, kind, bank, w) := s.coefSel
  let cur := if kind = 0 then s.fld (FFL.GRP_BANK_COMP g) else s.fld (FFL.GRP_BANK_RES g)
  let inRange := kind = 1 ∨ w < 63
  let s1 :=
    if write then
      if bank = cur ∨ Store.has s.front.swaps g then s.raise FFL.STAT_BANK_WR
      else if inRange then
        { s with front := { s.front with coef := Store.set 0 s.front.coef (coefKey g kind bank w) (v % 2 ^ 18) } }
      else s
    else s.setFld FFL.CDATA_COEF (if inRange then Store.getD s.front.coef (coefKey g kind bank w) 0 else 0)
  s1.setFld FFL.CADDR_ADDR (w + 1)

/-- A write of SWAP_CMD (R81): each ground of refusal that holds raises its event. GO with COMP = RES = 0 makes a swap pending
that swaps no kind of bank and ends at once when asked (DESIGN CHOICE, log entry 57). -/
def State.swapCmd (s : State) (v : Nat) : State :=
  let s0 := s.setRegN FFL.SWAP_CMD (v % 128)
  if v.testBit 7 then
    let g := v % 32
    let w := s.pair FFL.SWAP_LO FFL.SWAP_HI
    let busy := Store.has s.front.swaps g
    let late := tooClose s.ing.newest w
    if busy ∨ late then (s0.raiseIf busy FFL.STAT_SWAP_BUSY).raiseIf late FFL.STAT_SWAP_LATE
    else
      { s0 with front := { s0.front with swaps := Store.put s0.front.swaps g (w, v.testBit 5, v.testBit 6) } }.setFlag
        (FFL.GRP_BANK_PEND g) true
  else s0

def execBankSwapCmd (v : Word) (s : State) : Out3 := done (s.swapCmd v.toNat)

/-- Input i has crossed the boundary s_w of the kinds that swap (R82). -/
def State.crossed (s : State) (g i : Nat) (w : Nat) (c r : Bool) : Bool :=
  let f := s.input i
  let d := s.dec g
  (!c || (match f.newest with | some k => decide (w ≤ k * d + d - 1) | none => false)) &&
  (!r || (match f.lastJ with | some j => decide (w ≤ j * d + d - 1) | none => false))

/-- Once the last input of the group has crossed s_w (R82). -/
def execBankSwapDone (g : Nat) (s : State) : Out3 :=
  match Store.get? s.front.swaps g with
  | some (w, c, r) =>
    doneIf s ((s.grpInputList g).all (fun i => s.crossed g i w c r)) (fun s =>
      let s1 := { s with front := { s.front with swaps := Store.del s.front.swaps g } }
      let s2 := if c then s1.setFld (FFL.GRP_BANK_COMP g) (1 - s1.fld (FFL.GRP_BANK_COMP g)) else s1
      let s3 := if r then s2.setFld (FFL.GRP_BANK_RES g) (1 - s2.fld (FFL.GRP_BANK_RES g)) else s2
      (s3.setFlag (FFL.GRP_BANK_PEND g) false).raise FFL.STAT_SWAPPED)
  | none => done s

/-! ## Threshold events (R84 to R86) -/

/-- R85's FLAG action: unread samples of the window and every sample of the next HOLD windows, read or not, are
flagged; the window's read ones are counted in ESC_CNT. -/
def State.flagWindow (s : State) (i : Nat) (e : ThrEvent) : State :=
  let f := s.input i
  let first := e.last + 1 - 2 ^ e.j
  let upTo := e.last + 1 + s.fld FFL.DET_HOLD * 2 ^ e.j
  let hit (k : Nat) : Bool := decide (first ≤ k ∧ k < upTo) && (decide (e.last < k) || !(inRuns f.reads k))
  let esc := runsIn first e.last f.reads
  let s1 := s.setInput i { f with
    buf := f.buf.map (fun p => if hit p.1 then (p.1, { p.2 with flag := true }) else p),
    holdTo := max f.holdTo upTo }
  if esc = 0 then s1 else (s1.bump FFL.ESC_CNT esc).raise FFL.STAT_ESCAPE

/-- An entry of the event FIFO (R245), dropped with EVT_DROP where 65,536 wait. -/
def State.pushEvent (s : State) (e : EvtEntry) : State :=
  if s.evts.length < 65536 then { s with evts := s.evts ++ [e] }
  else ({ s with evtLoss := true }.bump OUT.EVT_DROP 1).raise OUT.STAT_EVT_DROP

/-- The decision of one event (R84): the actions of its threshold's ACT field. -/
def State.decideEvent (s : State) (i : Nat) (e : ThrEvent) : State :=
  let act := if e.thrB then s.fld FFL.DET_ACT_B else s.fld FFL.DET_ACT_A
  let d := match s.groupOf i with | some g => s.dec g | none => 1
  let idx := e.last * d + d - 1
  let s1 := s.when (act.testBit 0) (fun s => s.bump (if e.thrB then FFL.IN_CNTB i else FFL.IN_CNTA i) 1)
  let s2 := s1.when (act.testBit 1) (fun s => s.flagWindow i e)
  let s3 := s2.when (act.testBit 2) (fun s =>
    (((s.setRegN FFL.EVT_IN (i % 128 + 128 * boolNat e.thrB)).setPair FFL.EVT_LO FFL.EVT_HI idx).raise
      (if e.thrB then FFL.STAT_THR_B else FFL.STAT_THR_A)))
  s3.when (act.testBit 3) (fun s => s.trigger 2 (i % 128 + 128 * boolNat e.thrB + idx % 2 ^ 56 * 256))

/-- The entry that a threshold event adds to the event FIFO while EVENT is enabled (R245). -/
def State.eventEntry (s : State) (i : Nat) (e : ThrEvent) : State :=
  let act := if e.thrB then s.fld FFL.DET_ACT_B else s.fld FFL.DET_ACT_A
  let d := match s.groupOf i with | some g => s.dec g | none => 1
  s.when (act != 0 && s.kindOn 6) (fun s =>
    s.pushEvent { index := e.last * d + d - 1, input := i, thrB := e.thrB, act := act,
                  power := f32ofRat e.sum (65536 * e.cnt), at_ := s.up })

/-- The oldest event of input i is decided once 64 more buffer samples stand in the buffer (R84). -/
def execThresholdEvent (i : Nat) (s : State) : Out3 :=
  let f := s.input i
  match f.events with
  | e :: l =>
    doneIf s (match f.newest with | some k => decide (e.last + 64 ≤ k) | none => false) (fun s =>
      ((s.setInput i { f with events := l }).decideEvent i e).eventEntry i e)
  | [] => done s

end Sys2Proof.Machine
end

