-- ==== Sys2Proof/Machine/Ingest.lean ====
section
/-! DEFINITION. Ingest lanes, lane groups and sample frames (R39 to R58), release into the front filters (R53, R55), the return
channel. -/
namespace Sys2Proof.Machine

/-! ## Lanes (R39 to R43) -/

def State.lane (s : State) (n : Nat) : IngLane :=
  atD s.ing.lanes n { on := false, count := 0, blocks := 0, bad := [], scramble := 0, inFrame := false, adaptDue := false,
                      adapting := false, rx := none, got := none, tx := none }

def State.setLane (s : State) (n : Nat) (l : IngLane) : State :=
  { s with ing := { s.ing with lanes := setAt s.ing.lanes n l } }

def State.laneLocked (s : State) (n : Nat) : Bool := s.flag (ING.LANE_STATUS_LOCK n)

/-- PWR codes 0b00 Active, 0b01 Idle, 0b10 Deep (R42). -/
def State.laneActive (s : State) (n : Nat) : Bool := s.fld (ING.LANE_STATUS_PWR_NOW n) == 0

/-- Lane n belongs to an enabled group (R43). -/
def State.laneInGroup (s : State) (n : Nat) : Bool :=
  (List.range 32).any (fun g => s.grpOn g && s.grpDefined g && s.grpFirst g ≤ n && n < s.grpFirst g + s.grpLanes g)

/-- The 64 payload bits of a block, least significant first (R39); RX_INV inverts what was received. -/
def State.descramble (s : State) (n payload : Nat) : Nat × Nat :=
  let x := if s.flag (ING.LANE_CTRL_RX_INV n) then 2 ^ 64 - 1 - payload % 2 ^ 64 else payload % 2 ^ 64
  descrambleBits 64 x (s.lane n).scramble 1

/-- What the transmitter of lane n sends (R42): 0 electrical idle, 1 idle blocks, 2 blocks. -/
def State.laneSends (s : State) (n : Nat) : Nat :=
  if !s.domOn 9 then 0
  else match s.fld (ING.LANE_STATUS_PWR_NOW n) with
    | 0 => 2
    | 1 => 1
    | _ => 0

/-- Bit k as it is sent: the payload bit with those sent 39 and 58 before it (R39). -/
def scrambleBits : Nat → Nat → Nat → Nat → Nat × Nat
  | 0, _, hist, _ => (0, hist)
  | k + 1, x, hist, w =>
    let o := (x % 2 + bits hist 38 1 + bits hist 57 1) % 2
    let r := scrambleBits k (x / 2) ((hist * 2 + o) % 2 ^ 58) (w * 2)
    (o * w + r.1, r.2)

/-- Blocks as they leave (R39): each a sync header and a payload, scrambled on from `hist`; TX_INV inverts both. -/
def sendBlocks (inv : Bool) : Nat → List (Nat × Nat) → List (Nat × Nat) × Nat
  | hist, [] => ([], hist)
  | hist, (h, x) :: l =>
    let y := (scrambleBits 64 x hist 1).1
    let r := sendBlocks inv (scrambleBits 64 x hist 1).2 l
    ((if inv then 3 - h else h, if inv then 2 ^ 64 - 1 - y else y) :: r.1, r.2)

/-- A return message leaves on lane n (R57): a control block and a data block of 8 bytes each. What the scrambler holds after the idle
blocks before it is a free value; a message of the same instant follows at once. -/
def State.sendLane (s : State) (n kind : Nat) (body : List Byte) : State :=
  let l := s.lane n
  let (h, s1) := match l.tx with
    | some (a, h) => if a = s.up then (h, s) else s.fresh 58
    | none => s.fresh 58
  let (b, g) := sendBlocks (s.flag (ING.LANE_CTRL_TX_INV n)) h [(2, ofBytes (body.take 8)), (1, ofBytes (body.drop 8))]
  (s1.setLane n { l with tx := some (s.up, g) }).emit (.laneMsg n kind (body.map (·.toNat)) b)

/-- A lane enters HUNT as it leaves Deep with its CDR locked (R41); from 80 on it is a lane of an Ehrah port (R116). -/
def execLaneCdrLock (n t : Nat) (s : State) : Out3 :=
  let s := s.at t
  if 80 ≤ n then doneIf s (s.canLaneOn n && !(s.canLane n).on && s.fld (CAN.PORT_CTRL_PWR (lanePort n)) ≤ 1) (fun s => s.canCdrLock n)
  else doneIf s (!(s.lane n).on && s.fld (ING.LANE_CTRL_PWR n) ≤ 1) (fun s =>
    ((s.setLane n { s.lane n with on := true, count := 0, blocks := 0, bad := [], inFrame := false, rx := none }).setFld
      (ING.LANE_STATUS_PWR_NOW n) (s.fld (ING.LANE_CTRL_PWR n))).setFld (ING.LANE_STATUS_SLIP n) 0)

/-- The lane reaches LOCKED; an adaptation that is due starts, or the fixed peaking stands (R40, R41). -/
def State.lockGained (s : State) (n : Nat) : State :=
  let l := s.lane n
  let go := l.adaptDue && s.flag (ING.LANE_CTRL_ADAPT n)
  (((s.setLane n { l with blocks := 0, bad := [], adaptDue := false, adapting := l.adapting || go }).setFlag
    (ING.LANE_STATUS_LOCK n) true)).raise ING.STAT_LOCK_GAINED

/-- A sample frame under way when the lane leaves LOCKED has not stayed locked (R51). -/
def IngLane.dropFrame (l : IngLane) : IngLane :=
  match l.rx with
  | some f => { l with rx := none, got := some { f with locked := false }, inFrame := false }
  | none => { l with inFrame := false }

/-- The lane leaves LOCKED for HUNT (R41). -/
def State.lockLost (s : State) (n : Nat) : State :=
  ((s.setLane n { (s.lane n).dropFrame with count := 0, blocks := 0, bad := [] }).setFlag (ING.LANE_STATUS_LOCK n)
    false).raise ING.STAT_LOCK_LOSS

/-- A sync header in HUNT (R41). -/
def State.huntHeader (s : State) (n : Nat) (valid : Bool) : State :=
  let l := s.lane n
  if valid then
    if l.count < 63 then s.setLane n { l with count := l.count + 1 } else s.lockGained n
  else
    (s.setLane n { l with count := 0 }).setFld (ING.LANE_STATUS_SLIP n) ((s.fld (ING.LANE_STATUS_SLIP n) + 1) % 66)

/-- A sync header in LOCKED: the loss window covers the last 1,024 blocks since lock (R41). -/
def State.lockedHeader (s : State) (n : Nat) (valid : Bool) : State :=
  let l := s.lane n
  let k := l.blocks + 1
  let bad := (if valid then l.bad else k :: l.bad).filter (fun b => decide (k < b + 1024))
  let s1 := s.setLane n { l with blocks := k, bad := bad }
  if valid then s1
  else
    let s2 := s1.bump (ING.LANE_ERR n) 1
    if 32 ≤ bad.length then s2.lockLost n else s2

/-- Framing of sample frames on a locked lane (R48, R52), from the 8 bytes of a control block: a start block opens one, an end block
ends it and an idle block breaks it off; any other control block within one is noted, between them discarded and counted. -/
def State.laneControl (s : State) (n : Nat) (b : List Byte) : State :=
  let l := s.lane n
  let ty := (atD b 0 0#8).toNat
  if ty = 0xB4 then
    s.setLane n { l with inFrame := true, rx := some { locked := true, startAt := 0, start := b, index := [], data := [], fin := [], clean := true } }
  else match l.rx with
    | some f =>
      if ty = 0xE1 then s.setLane n { l with inFrame := false, rx := none, got := some { f with fin := b } }
      else if ty = 0x1E then s.setLane n { l with inFrame := false, rx := none, got := some { f with clean := false } }
      else s.setLane n { l with rx := some { f with clean := false } }
    | none => if ty = 0x1E then s else s.bump (ING.LANE_ERR n) 1

/-- A data block on a locked lane (R48): the index block of the sample frame under way, then its data blocks. -/
def State.laneData (s : State) (n : Nat) (b : List Byte) : State :=
  match (s.lane n).rx with
  | some f =>
    let g : LaneFrame := if f.index = [] then { f with index := b } else { f with data := f.data ++ b }
    s.setLane n { s.lane n with rx := some g }
  | none => s

/-- A 66-bit block arrives (R39, R41, R48, R52): its sync header and its 64 scrambled bits; RX_INV inverts both. -/
def State.laneBlock (s : State) (n hdr payload : Nat) : State :=
  let (x, h) := s.descramble n payload
  let hdr := if s.flag (ING.LANE_CTRL_RX_INV n) then 3 - hdr % 4 else hdr % 4
  let valid := hdr == 1 || hdr == 2
  let s1 := s.setLane n { s.lane n with scramble := h }
  if s1.laneLocked n then
    let s2 := if !s1.laneActive n then s1
      else if hdr = 2 then s1.laneControl n (toBytes 8 x)
      else if hdr = 1 then s1.laneData n (toBytes 8 x) else s1
    s2.lockedHeader n valid
  else s1.huntHeader n valid

def execLaneBlockRx (n hdr payload : Nat) (s : State) : Out3 :=
  if 80 ≤ n then doneIf s (s.canLaneOn n && (s.canLane n).on) (fun s => s.canBlock n hdr payload)
  else doneIf s (s.lane n).on (fun s => s.laneBlock n hdr payload)

/-- The 64th consecutive valid header (R41). -/
def execLockGained (n : Nat) (s : State) : Out3 :=
  if 80 ≤ n then
    doneIf s (s.canLaneOn n && (s.canLane n).on && !(s.canLane n).locked && (s.canLane n).count == 63) (fun s =>
      s.setCanLane n ((s.canLane n).gain (s.portAdapt (lanePort n))))
  else doneIf s ((s.lane n).on && !(s.laneLocked n) && (s.lane n).count == 63) (fun s => s.lockGained n)

/-- The invalid headers that the loss window holds once the next block is in it. -/
def IngLane.recentBad (l : IngLane) : List Nat := l.bad.filter (fun b => decide (l.blocks + 1 < b + 1024))

/-- The 32nd invalid header within the last 1,024 blocks (R41). -/
def execLockLoss (n : Nat) (s : State) : Out3 :=
  if 80 ≤ n then
    doneIf s (s.canLaneOn n && (s.canLane n).locked && 31 ≤ (s.canLane n).recentBad.length) (fun s => s.setCanLane n (s.canLane n).unlock)
  else doneIf s (s.laneLocked n && 31 ≤ (s.lane n).recentBad.length) (fun s => (s.bump (ING.LANE_ERR n) 1).lockLost n)

/-- A write of 1 to READAPT (R40): one adaptation, at once while the lane is locked, else when lock is reached. -/
def State.readapt (s : State) (n : Nat) : State :=
  let l := s.lane n
  if s.laneLocked n ∧ s.flag (ING.LANE_CTRL_ADAPT n) then s.setLane n { l with adapting := true, adaptDue := false }
  else s.setLane n { l with adaptDue := true }

def execReadapt (n : Nat) (s : State) : Out3 := doneIf s (n < 80) (fun s => s.readapt n)

/-- An adaptation under way ends where ADAPT is cleared (R40). -/
def State.adaptStop (s : State) (n : Nat) : State :=
  if s.flag (ING.LANE_CTRL_ADAPT n) then s
  else (s.setLane n { s.lane n with adapting := false }).setFld (ING.LANE_STATUS_PEAK_NOW n) (s.fld (ING.LANE_CTRL_PEAK n))

/-- The adaptation completes, at most 50 µs after lock (R40). -/
def execAdaptationDone (n peak t : Nat) (s : State) : Out3 :=
  let s := s.at t
  if 80 ≤ n then
    doneIf s (s.canLaneOn n && (s.canLane n).adapting) (fun s =>
      s.setCanLane n { s.canLane n with adapting := false, adapted := true, peak := peak % 16 })
  else doneIf s (s.lane n).adapting (fun s =>
    ((s.setLane n { s.lane n with adapting := false }).setFlag (ING.LANE_STATUS_ADAPTED n) true).setFld
      (ING.LANE_STATUS_PEAK_NOW n) peak)

/-- A lane's power state becomes p (R41, R42): Deep turns the lane OFF at once, Active and Idle follow at once where the CDR
runs; from Deep they wait for the CDR to lock. -/
def State.lanePower (s : State) (n p : Nat) : State :=
  let l := s.lane n
  if p = 2 then
    if s.fld (ING.LANE_STATUS_PWR_NOW n) = 2 then s
    else
      (((s.setLane n { l with on := false, count := 0, blocks := 0, bad := [], inFrame := false, rx := none, adaptDue := true,
                              adapting := false }).setFlag (ING.LANE_STATUS_LOCK n) false).setFlag
        (ING.LANE_STATUS_ADAPTED n) false).setFld (ING.LANE_STATUS_PWR_NOW n) 2
  else if l.on then s.setFld (ING.LANE_STATUS_PWR_NOW n) p
  else s

/-- A write of LANEn_CTRL (R40, R42, R43): PWR = 0b11 is discarded; PWR is not lowered in an enabled group. DESIGN CHOICE (log entry 57):
the other fields of a refused write take effect; R43 says only that PWR keeps its value. -/
def State.laneCtrl (s : State) (n v : Nat) : State :=
  let cur := s.fld (ING.LANE_CTRL_PWR n)
  let want := v % 4
  let refused := want ≠ 3 ∧ cur < want ∧ s.laneInGroup n
  let p := if want = 3 ∨ refused then cur else want
  let s1 := s.setRegN (ING.LANE_CTRL n) (putBits (v % 512) 0 2 p)
  let s3 := (s1.adaptStop n).raiseIf (decide refused) ING.STAT_REFUSED
  let s4 := s3.lanePower n p
  if v.testBit 9 then s4.readapt n else s4

def execLanePowerWrite (n : Nat) (v : Word) (s : State) : Out3 := doneIf s (n < 80) (fun s => s.laneCtrl n v.toNat)

/-! ## Groups and sample frames (R44 to R54) -/

def State.grp (s : State) (g : Nat) : IngGroup :=
  atD s.ing.groups g { frames := [], ackGood := 0, ackBad := 0, used := false, lastEpoch := none, lastAck := none }

def State.setGrp (s : State) (g : Nat) (x : IngGroup) : State :=
  { s with ing := { s.ing with groups := setAt s.ing.groups g x } }

/-- The means of the group's inputs become 0 (R63). -/
def State.dcClear (s : State) (g : Nat) : State := s.each (s.grpInputList g) (fun s i => s.setRegN (FFL.IN_MEAN i) 0)

/-- A write of GRPg_CTRL (R45, R63): EN = 1 is refused while a lane of the group is not Active. DESIGN CHOICE (log entry 57):
FLAG_UNLOCK and FLAG_OVR of a refused write are stored; R45 says only that EN stays 0. -/
def State.groupCtrl (s : State) (g v : Nat) : State :=
  let was := s.grpOn g
  let ok := (List.range (s.grpLanes g)).all (fun k => s.laneActive (s.grpFirst g + k))
  let en := v.testBit 0
  let refused := en && !was && !ok
  let s1 := s.setRegN (ING.GRP_CTRL g) (putBits (v % 8) 0 1 (boolNat (en && !refused)))
  let s2 := s1.raiseIf refused ING.STAT_REFUSED
  if en && !refused && !was then s2.dcClear g else s2

def execGroupEnable (g : Nat) (v : Word) (s : State) : Out3 := doneIf s (g < 32) (fun s => s.groupCtrl g v.toNat)

def execDcClear (g : Nat) (s : State) : Out3 := doneIf s (g < 32) (fun s => s.dcClear g)

/-- S, the time steps of a sample frame: S × M = 8 × L × DBLK (R46). -/
def State.grpSteps (s : State) (g : Nat) : Nat := 8 * s.grpLanes g * s.grpBlocks g / s.grpInputs g

/-- The skew allowed between lanes, in block times (R50): the line rate is the image's and no register of the spec holds
it, so `startAt` counts block times (log entry 1). -/
def skewBlocks : Nat := 64

/-- The sync, layout and CRC conditions of R51 on one lane, its position `k`. -/
structure LaneCheck where
  lock : Bool
  format : Bool
  isid : Bool
  crc : Bool
deriving DecidableEq, Repr

def byteAt (l : List Byte) (k : Nat) : Nat := (atD l k 0#8).toNat

/-- The sample frame of group g's lane at position k: what its blocks have brought, or, where LANE_BLOCK_RX has brought none, what the
command says. When it started, against the other lanes, is the command's to say. -/
def State.gotFrame (s : State) (g k : Nat) (f : LaneFrame) : LaneFrame :=
  match (s.lane (s.grpFirst g + k)).got with
  | some r => { r with startAt := f.startAt }
  | none => f

/-- The lane can bring a sample frame (R41, R42): LOCKED, Active, in a domain that is on. -/
def State.laneBrings (s : State) (n : Nat) : Bool := s.laneLocked n && s.laneActive n && s.domOn 9

def State.checkLane (s : State) (g k : Nat) (f : LaneFrame) : LaneCheck :=
  let b := byteAt f.start
  let e := byteAt f.fin
  { lock := f.locked && s.laneBrings (s.grpFirst g + k),
    format := b 0 == 0xB4 && b 1 == k + 8 * (s.grpLanes g - 1) && b 4 % 16 == s.grpInputs g - 1
      && leAt f.start 5 2 == s.grpBlocks g && f.clean && f.data.length == 8 * s.grpBlocks g
      && e 0 == 0xE1 && e 5 % 8 == k,
    isid := b 2 == s.fld (ING.GRP_CFG_ISID g),
    crc := leAt f.fin 1 4 == crc32c (f.start.drop 1 ++ f.index ++ f.data) }

/-- A sample frame is complete on every lane of group g (R51, R54). DESIGN CHOICE (log entry 57): an OVR, UNLOCK or NDIODE bit in the
start block of any lane counts; the spec does not say which lane's counts where they differ. -/
def State.sampleFrame (s : State) (g : Nat) (l : List LaneFrame) : State :=
  let cs := (l.zipIdx).map (fun p => s.checkLane g p.2 p.1)
  let all := l.length == s.grpLanes g
  let s0s := l.map (fun f => leAt f.index 0 8)
  let s0 := s0s.head?.getD 0
  let at_ := l.map (·.startAt)
  let hi := at_.foldl max 0
  let lo := at_.foldl min hi
  let desk := s0s.all (· == s0) && decide (hi - lo ≤ skewBlocks)
  let fl := l.map (fun f => byteAt f.start 3)
  let unlock := fl.any (·.testBit 1) && s.flag (ING.GRP_CTRL_FLAG_UNLOCK g)
  let ovr := fl.any (·.testBit 0) && s.flag (ING.GRP_CTRL_FLAG_OVR g)
  let steps := s.grpSteps g
  let t := s.now * s.rate
  let late := s.releaseScaled s0 ≤ t
  let early := t + 32000 * ns * s.rate < s.releaseScaled (s0 + steps - 1)
  let bad (f : LaneCheck → Bool) : Bool := cs.any (fun c => !f c)
  let fmt := !all || bad (·.format)
  let good := !(bad (·.lock) || fmt || bad (·.isid) || !desk || bad (·.crc) || unlock || ovr || late || early)
  let x := s.grp g
  if good then
    let fr : SampFrame := { s0 := s0, steps := steps, nd := fl.any (·.testBit 2), lanes := l.map (·.data) }
    ((s.setGrp g { x with frames := x.frames ++ [fr], ackGood := min 65535 (x.ackGood + 1), used := true }).bump
      (ING.GRP_GOOD g) 1).setPair (ING.GRP_LAST_LO g) (ING.GRP_LAST_HI g) s0
  else
    let s1 := (s.setGrp g { x with ackBad := min 65535 (x.ackBad + 1) }).bump (ING.GRP_BAD g) 1
    (((((((s1.raiseIf (bad (·.lock)) ING.STAT_LOCK_LOSS).raiseIf fmt ING.STAT_FORMAT).raiseIf (bad (·.isid))
      ING.STAT_ISID_MISMATCH).raiseIf (!desk) ING.STAT_DESKEW_FAIL).raiseIf (bad (·.crc)) ING.STAT_CRC_FAIL).raiseIf
      unlock ING.STAT_DIG_UNLOCKED).raiseIf late ING.STAT_LATE).raiseIf early ING.STAT_EARLY

/-- The frames that the lanes of group g had brought are judged. -/
def State.forgetFrames (s : State) (g : Nat) : State :=
  s.each (List.range (s.grpLanes g)) (fun (s : State) k => s.setLane (s.grpFirst g + k) { s.lane (s.grpFirst g + k) with got := none })

def execSampleFrameRx (g t : Nat) (lanes : List LaneFrame) (s : State) : Out3 :=
  let s := s.at t
  doneIf s (s.works 2 21 && g < 32 && s.grpOn g && s.grpDefined g && s.rate != 0) (fun s =>
    (s.sampleFrame g (lanes.zipIdx.map (fun p => s.gotFrame g p.2 p.1))).forgetFrames g)

/-! ## Release (R53, R55) -/

/-- The sample of the group's input k at step j of a frame: payload byte j × M + k, in word w on lane w mod L as data block
⌊w / L⌋. -/
def State.frameSample (s : State) (g : Nat) (f : SampFrame) (j k : Nat) : Nat :=
  let b := j * s.grpInputs g + k
  let w := b / 8
  byteAt (atD f.lanes (w % s.grpLanes g) []) (8 * (w / s.grpLanes g) + b % 8)

/-- Time step k of one group (R55): the samples of the first good, used frame that covers it, else the flag code. -/
def State.releaseGroup (s : State) (k g : Nat) : State :=
  let x := s.grp g
  let fr := if s.grpOn g then x.frames.find? (fun f => decide (f.s0 ≤ k ∧ k < f.s0 + f.steps)) else none
  let frozen := s.flag (FFL.GRP_DC_FREEZE g) || (s.flag (FFL.GRP_DC_AUTO_ND g) && (fr.map (·.nd)).getD false)
  let s1 := s.each (List.range (s.grpInputs g)) (fun s c =>
    let i := s.grpBase g + c
    if i < 128 then
      let v := match fr with
        | some f =>
          let b := s.frameSample g f (k - f.s0) c
          if b = 0x80 then none else some (toSigned 8 b)
        | none => none
      s.chainSample g i k v frozen
    else s)
  let s2 := if s1.grpOn g then
      (s1.setFld ING.GRP_FLAG_GROUPS (setBit (s1.fld ING.GRP_FLAG_GROUPS) g fr.isNone)).when fr.isNone
        (fun s => s.bump (ING.GRP_FLAGGED g) 1)
    else s1.setFld ING.GRP_FLAG_GROUPS (setBit (s1.fld ING.GRP_FLAG_GROUPS) g false)
  s2.setGrp g { s2.grp g with frames := (s2.grp g).frames.filter (fun f => decide (k + 1 < f.s0 + f.steps)) }

/-- Time step k is released to the front filters of every group (R53, R55); those of a disabled group see the flag code
(R45). -/
def State.release (s : State) (k : Nat) : State :=
  let s1 := (s.ncoDue k).each ((List.range 32).filter s.grpDefined) (fun s g => s.releaseGroup k g)
  { s1 with ing := { s1.ing with newest := some k } }

/-- The next time step to release is k: one after the newest, or any later one while no group is enabled. -/
def State.releaseNext (s : State) (k : Nat) : Bool :=
  match s.ing.newest with
  | some n => k == n + 1 || (n < k && !(List.range 32).any s.grpOn)
  | none => true

def execSampleRelease (k : Nat) (s : State) : Out3 :=
  doneIf s (s.works 2 21 && s.rate != 0 && s.releaseNext k) (fun s => (s.at (s.releaseScaled k / s.rate)).release k)

/-! ## Return channel (R57, R58) -/

/-- The return channel of group g is open (R42, R57): it is enabled, and its first lane sends blocks. -/
def State.returnOpen (s : State) (g : Nat) : Bool :=
  decide (g < 32) && s.flag ING.CTRL_RET_EN && s.grpOn g && s.laneSends (s.grpFirst g) == 2

/-- The EPOCH message naming the second t_e is due on group g (R58). -/
def State.epochDue (s : State) (g te : Nat) : Bool :=
  let sec := 1000000000 * ns
  decide (te * sec ≤ s.now + 500000000 * ns) && decide (s.now + 400000000 * ns ≤ te * sec) && (s.grp g).lastEpoch != some te

/-- One EPOCH message per second on an enabled group, naming the whole second t_e, between t_e − 500 ms and t_e − 400 ms. -/
def execEpochMessageTx (g te t : Nat) (s : State) : Out3 :=
  let s := s.at t
  let sec := 1000000000 * ns
  doneIf s (s.returnOpen g && s.epochDue g te) (fun s =>
    let e := s.epochT
    let idx := roundOpen 57 (((te * sec : Int) - e) * s.rate) sec
    (s.setGrp g { s.grp g with lastEpoch := some te }).sendLane (s.grpFirst g) 1
      ([0xD2#8, 1#8] ++ toBytes 6 te ++ toBytes 8 (ofSigned 64 idx)))

/-- One ACK message per millisecond while ACK_EN = 1, after an EPOCH message that is due: the frames since the previous one, GRP_FLAG,
the last used s0. -/
def execAckMessageTx (g t : Nat) (s : State) : Out3 :=
  let s := s.at t
  let x := s.grp g
  doneIf s (s.returnOpen g && s.flag ING.CTRL_ACK_EN && !s.epochDue g ((s.now + 500000000 * ns) / (1000000000 * ns)) &&
      (match x.lastAck with | some a => decide (a + 1000000 * ns ≤ s.up) | none => true)) (fun s =>
    let last := if x.used then s.pair (ING.GRP_LAST_LO g) (ING.GRP_LAST_HI g) else 0
    (s.setGrp g { x with ackGood := 0, ackBad := 0, lastAck := some s.up }).sendLane (s.grpFirst g) 2
      ([0xD2#8, 2#8] ++ toBytes 2 x.ackGood ++ toBytes 2 x.ackBad ++ toBytes 1 (boolNat ((s.fld ING.GRP_FLAG_GROUPS).testBit g))
        ++ [0#8] ++ toBytes 8 last))

end Sys2Proof.Machine
end

