-- ==== Sys2Proof/Machine/Channel.lean ====
section
/-! DEFINITION. The channeliser and fringe stage (R87 to R107): filter bank, FFT, flags, fringe rotation, requantisation, the
banks they use, and the DATA packets a source fills (R124, R127). -/
namespace Sys2Proof.Machine

/-! ## FFT (R88, R90, R91) -/

/-- The shift after stage k: 0 to 2 (R90). -/
def State.fftShift (s : State) (k : Nat) : Nat := min 2 (s.fld (CHN.FFT_ST k))

/-- A value after a stage: shifted right with the twiddle's 17 fraction bits where it was multiplied by one, rounded, held to
±(2^39 − 1); the count says whether it saturated. A complex value counts once, whichever of its parts saturate (DESIGN CHOICE,
log entry 57: R91 counts values). -/
def fftRound (sh : Nat) (v : Int × Int) : (Int × Int) × Nat :=
  let lim : Int := 2 ^ 39 - 1
  let a := roundAway v.1 (2 ^ (17 + sh))
  let b := roundAway v.2 (2 ^ (17 + sh))
  let c := (clampI (-lim) lim a, clampI (-lim) lim b)
  (c, if c.1 = a ∧ c.2 = b then 0 else 1)

/-- The twiddle exp(−i2πe / n) as an 18-bit word with 17 fraction bits, within one unit of the exact value held to that word's
range (R90, log entry 8). -/
def twiddle (n e : Nat) : Int × Int :=
  let (c, sn) := cosSin (2 ^ 17) (Nat.log2 n) e
  let word (x : Int) : Int := clampI (-(2 ^ 17)) (2 ^ 17 - 1) x
  (word (c + clampI (-1) 1 (Config.error 90 [n, e, 0])), word (-sn + clampI (-1) 1 (Config.error 90 [n, e, 1])))

def cmul (a b : Int × Int) : Int × Int := (a.1 * b.1 - a.2 * b.2, a.1 * b.2 + a.2 * b.1)
def cadd (a b : Int × Int) : Int × Int := (a.1 + b.1, a.2 + b.2)
/-- a × (−i)^k. -/
def crot (k : Nat) (a : Int × Int) : Int × Int :=
  match k % 4 with
  | 0 => a
  | 1 => (a.2, -a.1)
  | 2 => (-a.1, -a.2)
  | _ => (-a.2, a.1)

/-- Term r of a radix-p butterfly: Σ x_k × (−i)^(k r 4 / p). -/
def butterfly (p r : Nat) (x : List (Int × Int)) : Int × Int :=
  (x.zipIdx).foldl (fun a q => cadd a (crot (q.2 * r * (4 / p)) q.1)) (0, 0)

def roundAll (sh : Nat) (l : List (Int × Int)) : List (Int × Int) × Nat :=
  let r := l.map (fftRound sh)
  (r.map (·.1), (r.map (·.2)).sum)

/-- Decimation in frequency from stage k: radix-4 stages, then one radix-2 stage of length 2. -/
def fftDif (sh : Nat → Nat) : Nat → Nat → List (Int × Int) → List (Int × Int) × Nat
  | 0, _, x => (x, 0)
  | fuel + 1, k, x =>
    let n := x.length
    if n ≤ 1 then (x, 0)
    else
      let p := if n = 2 then 2 else 4
      let m := n / p
      let part (r : Nat) := roundAll (sh k) ((List.range m).map (fun j =>
        cmul (butterfly p r ((List.range p).map (fun q => atD x (q * m + j) (0, 0)))) (twiddle n (r * j % n))))
      let subs := (List.range p).map (fun r => let a := part r; let b := fftDif sh fuel (k + 1) a.1; (b.1, a.2 + b.2))
      ((List.range n).map (fun q => atD (atD subs (q % p) ([], 0)).1 (q / p) (0, 0)), (subs.map (·.2)).sum)

/-- Decimation in time: the last stage is stage `k`; where log2 of the length is odd it is the radix-2 stage. -/
def fftDit (sh : Nat → Nat) : Nat → Nat → List (Int × Int) → List (Int × Int) × Nat
  | 0, _, x => (x, 0)
  | fuel + 1, k, x =>
    let n := x.length
    if n ≤ 1 then (x, 0)
    else
      let p := if Nat.log2 n % 2 = 1 then 2 else 4
      let m := n / p
      let subs := (List.range p).map (fun r =>
        fftDit sh fuel (k - 1) ((List.range m).map (fun j => atD x (j * p + r) (0, 0))))
      let out := roundAll (sh k) ((List.range n).map (fun q =>
        butterfly p (q / m) ((subs.zipIdx).map (fun a => cmul (atD a.1.1 (q % m) (0, 0)) (twiddle n (a.2 * (q % m) % n))))))
      (out.1, out.2 + (subs.map (·.2)).sum)

/-- The stages of an FFT of length n: radix-4 ones and, where log2 n is odd, one radix-2 stage. -/
def fftStages (n : Nat) : Nat := (Nat.log2 n + 1) / 2

/-- X[q] of R88: the stages of R90, in whichever decimation order the implementation runs them (log entry 8). -/
def State.fft (s : State) (x : List (Int × Int)) : List (Int × Int) × Nat :=
  let n := x.length
  if Config.structure1 90 then fftDif s.fftShift (fftStages n) 0 x
  else fftDit s.fftShift (fftStages n) (fftStages n - 1) x

/-! ## Filter bank (R88, R92 to R95) -/

/-- Word w of window bank b. -/
def State.winWord (s : State) (b w : Nat) : Int := toSigned 18 (Store.getD s.chan.win (b * 2 ^ 17 + w) 0)

/-- The output sample n that the channeliser holds for an input. -/
def FrontIn.outAt (f : FrontIn) (n : Int) : Option Samp :=
  (f.out.find? (fun p => decide ((p.1 : Int) = n))).map (·.2)

/-- The 4N output samples of spectrum m, a sample not held counting as flagged with value 0 (R62, R95). -/
def State.support (s : State) (i m : Nat) : List Samp :=
  let n := s.chanN
  let f := s.input i
  (List.range (4 * n)).map (fun (k : Nat) =>
    match f.outAt ((m * n : Int) - (3 * n / 2 : Nat) + k) with
    | some z => if z.flag then { z with re := 0, im := 0 } else z
    | none => { re := 0, im := 0, flag := true })

/-- The filter bank sums u[k], rounded to 8 fraction bits (R88). -/
def State.polyphase (s : State) (x : List Samp) : List (Int × Int) :=
  let n := s.chanN
  let b := s.fld CHN.SWAP_CMD_BANK
  (List.range n).map (fun k =>
    let r := (List.range 4).foldl (fun (a : Int × Int) p =>
      let h := s.winWord b (p * n + k)
      let z := atD x (p * n + k) { re := 0, im := 0, flag := true }
      (a.1 + h * z.re, a.2 + h * z.im)) (0, 0)
    (roundAway r.1 (2 ^ 17), roundAway r.2 (2 ^ 17)))

/-! ## Fringe stage (R96 to R98) -/

def State.fringeWord (s : State) (p i o : Nat) : Nat := s.regN ((if p = 0 then CHN.PAGE0 0 else CHN.PAGE1 0) + 64 * i + o)

/-- τ(u) in units of 2^−131 ns, u = U / 2 with U = 2 (m − fW) + 1 (R98). -/
def State.fringeDelay (s : State) (i : Nat) (u2 : Int) : Int :=
  let w := s.fringeWord s.chan.poly.active i
  let b (o : Nat) : Int := toSigned 64 (w o + w (o + 4) * 2 ^ 32)
  b 0 * 2 ^ 99 + b 8 * u2 * 2 ^ 66 + b 16 * u2 * u2 * 2 ^ 33 + b 24 * u2 * u2 * u2

/-- ν_c × 2^32 × N × DEC × Q in hertz (R96): f_i alone in LO mode, f_i + (c − N/2) × Δν in sky mode. -/
def State.fringeFreq (s : State) (i c : Nat) : Int × Nat :=
  let g := (s.groupOf i).getD 0
  let p := s.fld (FFL.GRP_RATIO_PM1 g) + 1
  let q := s.fld (FFL.GRP_RATIO_QM1 g) + 1
  let n := s.chanN
  let den := 2 ^ 32 * n * s.dec g * q
  let lo : Int := (s.rate * (s.input i).fw * n * s.dec g * q : Nat)
  let sky : Int := ((c : Int) - (n / 2 : Nat)) * (s.rate * p * 2 ^ 32 : Nat)
  (if s.flag CHN.CTRL_FMODE then lo + sky else lo, den)

/-- The phase 2πν_cτ as a 32-bit fraction of a turn, within 2^−24 turn of the exact value (R97, log entry 8). -/
def State.fringePhase (s : State) (i c m : Nat) : Nat :=
  let tau := s.fringeDelay i (2 * ((m : Int) - (s.chan.poly.frame.getD 0) * s.specW) + 1)
  let (num, den) := s.fringeFreq i c
  let exact := num * tau * 2 ^ 32 / ((den * 1000000000 * 2 ^ 131 : Nat) : Int)
  ((exact + clampI (-254) 254 (Config.error 97 [i, c, m, tau, num])) % 2 ^ 32).toNat

/-- X rotated by the table entry of the top 20 bits of the phase, rounded to 8 fraction bits (R97). -/
def rotate (x : Int × Int) (phase : Nat) : Int × Int :=
  let r := cmul x (cosSin (2 ^ 17 - 1) 20 (phase / 2 ^ 12))
  (roundAway r.1 (2 ^ 17), roundAway r.2 (2 ^ 17))

/-! ## Requantisation (R101, R102) -/

/-- Scale of input i and channel c in bank b (R104). -/
def State.scaleAt (s : State) (b i c : Nat) : Nat := Store.getD s.chan.scales (b * 2 ^ 22 + (i * s.chanN + c)) 0

/-- One component of R101: the code, and whether it saturated. -/
def requant (y : Int) (scale sh lim : Nat) : Int × Nat :=
  let q := roundAway (y * scale) (2 ^ (12 + sh))
  let c := clampI (-lim) lim q
  (c, if c = q then 0 else 1)

/-- A packed sample: 8+8 as two bytes, 4+4 as one (R12). -/
def packSample (q4 : Bool) (re im : Int) : List Byte :=
  if q4 then [BitVec.ofNat 8 (ofSigned 4 re + 16 * ofSigned 4 im)]
  else [BitVec.ofNat 8 (ofSigned 8 re), BitVec.ofNat 8 (ofSigned 8 im)]

/-- The flag code of a sample (R102). -/
def flagSample (q4 : Bool) : List Byte := if q4 then [0x88#8] else [0x80#8, 0x80#8]

/-- One channel value of one input, requantised: its bytes and the components that saturated. -/
def State.channelValue (s : State) (i c m : Nat) (x : Int × Int) (flagged : Bool) : List Byte × Nat :=
  let q4 := s.flag CHN.CTRL_RQ4
  let sc := s.scaleAt s.chan.scale.active i c
  if flagged ∨ sc = 0 then (flagSample q4, 0)
  else
    let y := rotate x (s.fringePhase i c m)
    let lim := if q4 then 7 else 127
    let a := requant y.1 sc (s.fld CHN.RQ_SHIFT) lim
    let b := requant y.2 sc (s.fld CHN.RQ_SHIFT) lim
    (packSample q4 a.1 b.1, a.2 + b.2)

/-- The inputs a device carries: M = I / P (R157). -/
def State.inputsHere (s : State) : Nat := min 128 ((s.fld (STL.ICFG_INPUTS 0) + 1) / s.canopySize)

/-- The inputs that have a spectrum (R87): those a device carries, whose samples are flagged where their group is off, and every
other input of an enabled group. -/
def State.inputsOn (s : State) : List Nat :=
  (List.range 128).filter (fun i => decide (i < s.inputsHere) ||
    (match s.groupOf i with | some g => s.grpOn g | none => false))

/-- Spectrum m of input i (R88 to R102): every channel's sample, with its counters and events. Saturations of a spectrum that
R95 flags are not counted and raise no FFT_SAT (DESIGN CHOICE, log entry 57: R95 discards its values). -/
def State.spectrumOf (s : State) (i m : Nat) : List (List Byte) × State :=
  let n := s.chanN
  let x := s.support i m
  let bad := (x.filter (·.flag)).length
  let tooMany := s.fld CHN.CTRL_FLAGTOL < bad
  let flagged := tooMany || !(s.flag CHN.SWAP_CMD_READY) || s.chan.poly.flags
  let s1 := s.when tooMany (fun s => s.bump CHN.FLAG_SPEC 1)
  let (xs, sat) := s1.fft (s1.polyphase x)
  let s2 := if tooMany ∨ sat = 0 then s1 else (s1.bump CHN.FFT_SAT_CNT sat).raise CHN.STAT_FFT_SAT
  let vals := (List.range n).map (fun c => s2.channelValue i c m (atD xs ((c + n / 2) % n) (0, 0)) flagged)
  let clips := (vals.map (·.2)).sum
  let s3 := if clips = 0 then s2 else ((s2.bump (CHN.IN_CLIP i) clips).bump CHN.CLIP_TOT clips).raise CHN.STAT_CLIP
  (vals.map (·.1), s3)

/-! ## DATA packets (R124, R127) -/

/-- The device sources data of frame f: it holds a pitch, works, is not parked, and has not joined later than f (R23, R132,
R133). -/
def State.sources (s : State) (f : Nat) : Bool :=
  s.hasPitch && ((s.curFrame.isSome && !s.isParked && !s.can.rejoin && decide (s.bell.firstIdx ≤ f) &&
      (match s.can.joinAt with | some j => decide (j ≤ f) | none => true))
    || (match s.can.tail with | some (lo, p) => decide (lo ≤ f ∧ f < p) | none => false))

/-- Transmit cells in use: filling ones and those of the device's own queued packets (R127). -/
def State.cellsUsed (s : State) : Nat := s.can.filling.length + s.ownQueued

/-- The channel's cell for the spectra from m0 on; with the pool empty they are not sent (R127). -/
def State.takeCell (s : State) (c m0 : Nat) : State :=
  if s.cellsUsed < s.validChannels.length + s.fld CAN.TXPOOL_CELLS then
    { s with can := { s.can with filling := Store.put s.can.filling c { m0 := m0, spectra := [] } } }
  else (s.bump CAN.POOL_CNT 1).raise CAN.STAT_POOL_EMPTY

/-- A spectrum's samples padded with flag codes to whole words (R124). -/
def padSpectrum (q4 : Bool) (l : List Byte) : List Byte :=
  l ++ List.replicate ((32 - l.length % 32) % 32) (if q4 then 0x88#8 else 0x80#8)

/-- Spectrum m of one channel joins the packet being filled; the packet closes with its last spectrum (R124). -/
def State.fillChannel (s : State) (m c owner : Nat) (samples : List Byte) : State :=
  let k := s.packK
  let m0 := m - m % k
  let s1 := if m % k = 0 then s.takeCell c m0 else s
  match Store.get? s1.can.filling c with
  | none => s1
  | some f =>
    if f.m0 = m0 ∧ f.spectra.length = m % k then
      let sp := f.spectra ++ [padSpectrum (s.flag CHN.CTRL_RQ4) samples]
      if sp.length = k then
        let s2 := { s1 with can := { s1.can with filling := Store.del s1.can.filling c } }
        s2.enqueue { body := .data sp.flatten, dest := owner, src := s2.myPitch, channel := c,
                     q4 := s2.flag CHN.CTRL_RQ4, inputs := s2.inputsHere - 1, m0 := m0, ibase := s2.fld CAN.IBASE_BASE } none
      else { s1 with can := { s1.can with filling := Store.put s1.can.filling c { f with spectra := sp } } }
    else { s1 with can := { s1.can with filling := Store.del s1.can.filling c } }

/-! ## Banks, pages and spectra -/

/-- The window swap takes effect with spectrum m (R93): mN − 3N/2 ≥ s_w. -/
def State.windowDue (s : State) (m : Nat) : Bool :=
  match s.chan.swap with
  | some w => decide (w + 3 * s.chanN / 2 ≤ m * s.chanN)
  | none => false

def State.windowSwap (s : State) : State :=
  let s1 := { s with chan := { s.chan with swap := none } }
  (((s1.setFld CHN.SWAP_CMD_BANK (1 - s1.fld CHN.SWAP_CMD_BANK)).setFlag CHN.SWAP_CMD_PEND false).setFlag CHN.SWAP_CMD_READY
    true).raise CHN.STAT_SWAPPED

/-- Spectrum m is the next the channeliser completes. -/
def State.nextSpecIs (s : State) (m : Nat) : Bool :=
  match s.chan.newestSpec with
  | some k => k + 1 == m
  | none => true

def execWindowSwap (m : Nat) (s : State) : Out3 :=
  doneIf s (s.works 2 23 && s.nextSpecIs m && s.windowDue m) (fun s => s.windowSwap)

/-- The change of fringe page at the first spectrum of frame f (R100). -/
def State.fringeChange (s : State) (f : Nat) : State :=
  if s.chan.poly.decided = some f then s
  else
    let p := s.chan.poly
    let q := p.change f
    let s1 := { s with chan := { s.chan with poly := q } }
    let s2 := if q.stale && !q.expired then s1.flagFrame f flagStale else s1
    s2.raiseIf (q.expired && !p.expired) CHN.STAT_POLY_EXPIRED

def execFringePageChange (f : Nat) (s : State) : Out3 :=
  doneIf s (s.nextSpecIs (f * s.specW)) (fun s => s.fringeChange f)

def execFringeExpired (f : Nat) (s : State) : Out3 :=
  doneIf s (s.nextSpecIs (f * s.specW) && (s.chan.poly.change f).expired && !s.chan.poly.expired) (fun s => s.fringeChange f)

/-- The committed scale bank serves from the first spectrum of frame f and stays in use (R105). -/
def State.scaleChange (s : State) (f : Nat) : State :=
  match s.chan.scale.committed f with
  | some _ => { s with chan := { s.chan with scale := s.chan.scale.change f } }
  | none => s

def execScaleBankChange (f : Nat) (s : State) : Out3 :=
  doneIf s (s.nextSpecIs (f * s.specW)) (fun s => s.scaleChange f)

/-- Spectrum m of every input is complete (R107), with every change of bank or page that falls on it: every enabled input has a
spectrum with its counters (R87); the first M inputs' samples go into the packets (R124, R157). -/
def State.spectrum (s : State) (m : Nat) : State :=
  let s := if s.windowDue m then s.windowSwap else s
  let s := if m % s.specW = 0 then (s.fringeChange (m / s.specW)).scaleChange (m / s.specW) else s
  let r := (s.inputsOn).foldl (fun (a : List (List (List Byte)) × State) i =>
    let (v, t) := a.2.spectrumOf i m
    (a.1 ++ [v], t)) ([], s)
  let s := r.2
  let s := if s.sources (m / s.specW) then
      s.each s.validChannels (fun s (p : Nat × Nat) => s.fillChannel m p.1 p.2 ((r.1.take s.inputsHere).flatMap (fun v => atD v p.1 [])))
    else s
  { s with chan := { s.chan with newestSpec := some m } }

/-- The last output sample of the support has been delivered (R88, R107). -/
def State.supportReady (s : State) (m : Nat) : Bool :=
  match s.front.newestOut with
  | some n => decide (m * s.chanN + 5 * s.chanN / 2 ≤ n + 1)
  | none => false

def execSpectrumComplete (m : Nat) (s : State) : Out3 :=
  doneIf s (s.works 2 23 && s.nextSpecIs m && s.supportReady m) (fun s => s.spectrum m)

/-- A write of CHN.PCOMMIT (R100). -/
def State.fringeCommit (s : State) (v : Nat) : State :=
  let f := s.fullFrame 31 (v / 2)
  if s.chan.poly.inUse false (v % 2) then
    (s.raise CHN.STAT_COMMIT_REJ).when (!s.beforeDeadline f) (fun s => (s.raise CHN.STAT_POLY_LATE).raise BEL.STAT_POLY_LATE)
  else if s.beforeDeadline f then { s with chan := { s.chan with poly := s.chan.poly.commit (v % 2) f } }
  else (s.raise CHN.STAT_POLY_LATE).raise BEL.STAT_POLY_LATE

def execFringeCommit (v : Word) (t : Nat) (s : State) : Out3 := done ((s.at t).fringeCommit v.toNat)

/-- A write of CHN.SCOMMIT (R105). -/
def State.scaleCommit (s : State) (v : Nat) : State :=
  let f := s.fullFrame 31 (v / 2)
  if s.chan.scale.inUse true (v % 2) then
    (s.raise CHN.STAT_SCALE_REJ).when (!s.beforeDeadline f) (fun s => s.raise CHN.STAT_SCALE_LATE)
  else if s.beforeDeadline f then { s with chan := { s.chan with scale := s.chan.scale.commit (v % 2) f } }
  else s.raise CHN.STAT_SCALE_LATE

def execScaleCommit (v : Word) (t : Nat) (s : State) : Out3 := done ((s.at t).scaleCommit v.toNat)

/-- A write of CHN.SWAP_CMD.GO (R93). -/
def State.windowCmd (s : State) : State :=
  let w := s.pair CHN.SWAP_LO CHN.SWAP_HI
  let busy := s.chan.swap.isSome
  let late := tooClose s.front.newestOut w
  if busy ∨ late then (s.raiseIf busy CHN.STAT_SWAP_BUSY).raiseIf late CHN.STAT_SWAP_LATE
  else { s with chan := { s.chan with swap := some w } }.setFlag CHN.SWAP_CMD_PEND true

def execWindowSwapCmd (t : Nat) (s : State) : Out3 := done (s.at t).windowCmd

/-- A read or write of WDATA (R92): one word, then WADDR + 1. -/
def State.windowAccess (s : State) (write : Bool) (v : Nat) : State :=
  let b := s.fld CHN.WSEL_BANK
  let w := s.fld CHN.WADDR_ADDR
  let inRange := w < 4 * s.chanN
  let s1 :=
    if write then
      if b = s.fld CHN.SWAP_CMD_BANK ∨ s.chan.swap.isSome then s.raise CHN.STAT_WIN_WR
      else if inRange then { s with chan := { s.chan with win := Store.set 0 s.chan.win (b * 2 ^ 17 + w) (v % 2 ^ 18) } }
      else s
    else s.setFld CHN.WDATA_COEF (if inRange then Store.getD s.chan.win (b * 2 ^ 17 + w) 0 else 0)
  s1.setFld CHN.WADDR_ADDR (w + 1)

/-- A read or write of SDATA (R104): one word, then SADDR + 1. -/
def State.scaleAccess (s : State) (write : Bool) (v : Nat) : State :=
  let b := s.fld CHN.SSEL_BANK
  let w := s.fld CHN.SADDR_ADDR
  let inRange := w < 128 * s.chanN
  let s1 :=
    if write then
      if s.chan.scale.inUse true b then s.raise CHN.STAT_SCALE_WR
      else if inRange then { s with chan := { s.chan with scales := Store.set 0 s.chan.scales (b * 2 ^ 22 + w) (v % 2 ^ 16) } }
      else s
    else s.setFld CHN.SDATA_SCALE (if inRange then Store.getD s.chan.scales (b * 2 ^ 22 + w) 0 else 0)
  s1.setFld CHN.SADDR_ADDR (w + 1)

end Sys2Proof.Machine
end

