-- ==== Sys2Proof/Machine/Dram.lean ====
section
/-! DEFINITION. The DRAM controller (R248 to R267): the address map, bursts with their tags and check bits, queues and classes,
rows, row disturbance, panic, parity replay, training, scrubbing and self-refresh. -/
namespace Sys2Proof.Machine

def State.setDram (s : State) (d : Dram) : State := { s with dram := d }

/-- Installed DRAM in bytes, from the geometry (R248). -/
def State.dramSize (s : State) : Nat :=
  match s.fld DMC.GEOM_SIZE with
  | 0 => 2 ^ 39
  | 3 => 2 ^ 41
  | _ => 2 ^ 40

def State.dramRanks (s : State) : Nat := if s.fld DMC.GEOM_SIZE = 1 ∨ s.fld DMC.GEOM_SIZE = 3 then 2 else 1

def State.dramRowBits (s : State) : Nat := if s.fld DMC.GEOM_SIZE ≤ 1 then 16 else 17

/-! ## Address mapping (R251, R252) -/

/-- The mask of hashed bit m: 0 to 3 CH, 4 to 6 BG, 7 and 8 BA. -/
def State.hashMask (s : State) (m : Nat) : Nat := s.regN (DMC.HASH_LO m) + s.fld (DMC.HASH_HI_MASK m) * 2 ^ 32

/-- The base bit of hashed bit m (R251). -/
def hashBase (m : Nat) : Nat := if m < 4 then 8 + m else if m < 7 then 13 + (m - 4) else 21 + (m - 7)

/-- Hashed bit m of address a (R252). -/
def State.hashBit (s : State) (m a : Nat) : Nat := popCount 48 (a &&& s.hashMask m) % 2

/-- Every mask holds its own base bit and no other hashed bit's (R252). -/
def State.masksOk (s : State) : Bool :=
  (List.range 9).all (fun m => (List.range 9).all (fun k => (s.hashMask m).testBit (hashBase k) == (m == k)))

structure DramLoc where
  ch : Nat
  sc : Nat
  rk : Nat
  bg : Nat
  ba : Nat
  row : Nat
  col : Nat
deriving DecidableEq, Repr

/-- Where address a lies (R251, R252). -/
def State.dramLoc (s : State) (a : Nat) : DramLoc :=
  let h := fun m => s.hashBit m a
  let two := s.dramRanks = 2
  { ch := h 0 + 2 * h 1 + 4 * h 2 + 8 * h 3, sc := bits a 12 1, bg := h 4 + 2 * h 5 + 4 * h 6, ba := h 7 + 2 * h 8,
    rk := if two then bits a 23 1 else 0,
    row := if two then bits a 24 s.dramRowBits else bits a 23 s.dramRowBits,
    col := bits a 6 2 + 4 * bits a 16 5 }

def DramLoc.bank (l : DramLoc) : Nat := ((l.ch * 2 + l.sc) * 2 + l.rk) * 32 + l.bg * 4 + l.ba

def bankChannel (b : Nat) : Nat := b / 128
def bankSub (b : Nat) : Nat := b / 64

/-- The address tag of the burst at a (R260). -/
def dramTag (a : Nat) : Nat := bits a 6 16 ^^^ bits a 22 16 ^^^ bits a 38 3

/-! ## Rows and activations (R255, R257, R264) -/

/-- The class of requester r: 0 RT, 1 HIGH, 2 NORMAL, 3 LOW (R253, REQr_CFG). -/
def State.dramClass (s : State) (r : Nat) : Nat := if r = 0 then 0 else min 3 (s.fld (DMC.REQ_CFG_CLASS r) + 1)

/-- The hint in force: HOVR when it is not 0b11 (R255). -/
def State.dramHint (s : State) (r hint : Nat) : Nat :=
  let o := s.fld (DMC.REQ_CFG_HOVR r)
  if o ≠ 3 then o else hint % 4

/-- An access to the bank's row must activate it: another row or none is open. -/
def State.needsAct (s : State) (bank row : Nat) : Bool :=
  match Store.get? s.dram.rows bank with
  | some o => decide (o.row ≠ row)
  | none => true

/-- RH.GAP in time units. -/
def State.rhGap (s : State) : Nat := max 1 (s.fld DMC.RH_GAP) * ns

/-- A command enters its channel's retry buffer (R264). -/
def State.bufferCmd (s : State) (c : DramCmd) : State :=
  let ch := bankChannel c.bank
  s.setDram { s.dram with cmds := Store.put s.dram.cmds ch ((c :: Store.getD s.dram.cmds ch []).take 64) }

/-- A refresh-management command to a bank (R250, R257). -/
def State.refreshMgmt (s : State) (bank : Nat) : State :=
  let s1 := s.setDram { s.dram with raa := Store.del s.dram.raa bank }
  (s1.bufferCmd { kind := 2, bank := bank, row := 0, req := 0, hint := 0 }).emit (.dramCmd 1 bank)

/-- The activation that follows would pass the count of the DDR5 standard: refresh management comes first (R250). -/
def State.manageFirst (s : State) (bank row : Nat) : State :=
  if s.dram.rfm && s.needsAct bank row && decide (Config.raaimt ≤ Store.getD s.dram.raa bank 0) then s.refreshMgmt bank else s

/-- An access of requester r to a bank's row (R255, R257): an activation where another row or none is open, counted for R257 and
R250; a throttled requester's activation takes place RH.GAP after its last at the earliest. The hint of the access that opened the
row governs it; a CLOSE access precharges. -/
def State.openRow (s : State) (r bank row hint : Nat) : State :=
  let d := s.dram
  let act := s.needsAct bank row
  let k := bank * 16 + r
  let at_ := match Store.get? d.throttle k with
    | some t => if act then max s.up (t + s.rhGap) else s.up
    | none => s.up
  let new : OpenRow := { row := row, opened := at_, last := at_, hint := hint }
  let o : OpenRow := match Store.get? d.rows bank with
    | some o => if act then new else { o with last := at_ }
    | none => new
  s.setDram { d with
    rows := if hint = 2 then Store.del d.rows bank else Store.put d.rows bank o,
    acts := if act then Store.put d.acts k (Store.getD d.acts k 0 + 1) else d.acts,
    raa := if act && d.rfm then Store.put d.raa bank (Store.getD d.raa bank 0 + 1) else d.raa,
    throttle := if act && Store.has d.throttle k then Store.put d.throttle k at_ else d.throttle }

/-- The same, as a command of its channel (R264). -/
def State.touchRow (s : State) (r bank row hint : Nat) : State :=
  ((s.manageFirst bank row).openRow r bank row hint).bufferCmd { kind := 0, bank := bank, row := row, req := r, hint := hint }

/-- An access to the burst at a; above the installed capacity there is none (R5). -/
def State.touch (s : State) (r a hint : Nat) : State :=
  if s.dramSize ≤ a then s else
  let l := s.dramLoc a
  s.touchRow r l.bank l.row (s.dramHint r hint)

/-! ## Checked bursts (R259 to R262) -/

/-- The channel of address a has failed (R265). -/
def State.chFailed (s : State) (a : Nat) : Bool := (s.fld DMC.CHSTAT_FAILED).testBit (s.dramLoc a).ch

/-- UE_ADDR takes the first error since it was last read (R261). -/
def State.latchUE (s : State) (a r half : Nat) (misdir : Bool) : State :=
  if s.dram.ueArmed then
    (s.setPair DMC.UE_ADDR_LO DMC.UE_ADDR_HI
      (a / 64 * 64 % 2 ^ 48 + 2 ^ 48 * boolNat misdir + 2 ^ 49 * half + 2 ^ 50 * r)).setDram { s.dram with ueArmed := false }
  else s

/-- A misdirected burst, or one of a failed channel (R261, R265). -/
def State.misdirect (s : State) (a r : Nat) : State :=
  ((s.bump DMC.MISDIR_CNT 1).raise DMC.STAT_MISDIR).latchUE a r 0 true

/-- A write to the burst at a is queued, so a corrected half is not written back (R261). -/
def State.writeQueued (s : State) (a : Nat) : Bool := s.dram.queue.any (fun q => q.write && q.addr / 64 == a / 64)

def State.setErrs (s : State) (e : Store Bool) : State := s.setDram { s.dram with errs := e }

/-- One half of a burst that is read (R261): bit `half` of the result is set for an error response. -/
def State.checkHalf (s : State) (a r half : Nat) : Nat × State :=
  let k := a / 64 * 2 + half
  match Store.get? s.dram.errs k with
  | none => (0, s)
  | some true => (2 ^ half, ((s.bump DMC.UE_CNT 1).raise DMC.STAT_UE).latchUE a r half false)
  | some false =>
    let s1 := (s.bump DMC.CE_CNT 1).raise DMC.STAT_CE
    (0, if s.writeQueued a then s1 else s1.setErrs (Store.del s1.dram.errs k))

/-- The tag copies stored with the burst at a (R259). -/
def State.tagsOf (s : State) (a : Nat) : Nat × Nat := Store.getD s.dram.tags (a / 64) (dramTag (a / 64 * 64), dramTag (a / 64 * 64))

def State.setTags (s : State) (a : Nat) (p : Nat × Nat) : State :=
  s.setDram { s.dram with tags := Store.set (dramTag (a / 64 * 64), dramTag (a / 64 * 64)) s.dram.tags (a / 64) p }

/-- Both copies hold the burst's own tag. -/
def State.renewTags (s : State) (a : Nat) : State := s.setTags a (dramTag (a / 64 * 64), dramTag (a / 64 * 64))

/-- How many of the stored copies differ from the tag of the address (R260, R261). -/
def State.badTags (s : State) (a : Nat) : Nat :=
  let (x, y) := s.tagsOf a
  boolNat (x != dramTag (a / 64 * 64)) + boolNat (y != dramTag (a / 64 * 64))

/-- The check bits stored with half k (R259): those of its bytes, inverted where R262 marked it. -/
def State.checkBits (s : State) (k : Nat) : Nat :=
  let c := Config.secded ((s.read (k * 32) 32).map (·.toNat)) % 2 ^ 10
  if Store.get? s.dram.errs k = some true then 1023 - c else c

/-- The 64 bits of check lanes 0 to 3 of the burst at a, bit e = beat × 4 + lane (R259). Lanes 4 to 7 are 0. -/
def State.checkLanes (s : State) (a : Nat) : Nat :=
  let (x, y) := s.tagsOf a
  s.checkBits (a / 64 * 2) + x % 2 ^ 16 * 2 ^ 10 + s.checkBits (a / 64 * 2 + 1) * 2 ^ 32 + y % 2 ^ 16 * 2 ^ 42

/-- One copy of the tag is corrected (R261). -/
def State.correctTag (s : State) (a : Nat) : State :=
  let s1 := (s.bump DMC.TAG_CE_CNT 1).raise DMC.STAT_TAG_CE
  if s.writeQueued a then s1 else s1.renewTags a

/-- The check of a burst that is read (R261): the halves that answer with an error. Above the installed capacity both do (R5). -/
def State.checkBurst (s : State) (a r : Nat) : Nat × State :=
  if s.dramSize ≤ a then (3, s)
  else if s.chFailed a ∨ s.badTags a = 2 then (3, s.misdirect a r)
  else
    let s1 := if s.badTags a = 1 then s.correctTag a else s
    let (e0, s2) := s1.checkHalf a r 0
    let (e1, s3) := s2.checkHalf a r 1
    (e0 + e1, s3)

/-- Requester r reads n bytes of DRAM from a with a page hint: the bytes, the addresses / 32 of the failing halves it covers. -/
def State.dramReadHint (s : State) (r a n hint : Nat) : List Byte × List Nat × State :=
  let first := a / 64
  let bursts := if n = 0 then 0 else (a + n - 1) / 64 + 1 - first
  let (errs, s1) := (List.range bursts).foldl (fun (p : List Nat × State) k =>
    let b := (first + k) * 64
    let (e, t) := (p.2.touch r b hint).checkBurst b r
    let l := [2 * (first + k), 2 * (first + k) + 1].filter (fun h => e.testBit (h % 2) && a / 32 ≤ h && h ≤ (a + n - 1) / 32)
    (p.1 ++ l, t)) ([], s)
  (s1.read a n, errs, s1)

/-- A read with no hint. -/
def State.dramRead (s : State) (r a n : Nat) : List Byte × List Nat × State := s.dramReadHint r a n 0

/-- What a read leaves of the machine, its bytes and failing halves aside. -/
def State.afterRead (r : List Byte × List Nat × State) : State := r.2.2

/-- What a write leaves of the machine, its response aside. -/
def State.afterWrite (r : Bool × State) : State := r.2

/-- The bytes of one half whose enables are on are written. -/
def State.mergeHalf (s : State) (k be : Nat) (data : List Byte) : State :=
  (setBits 32 be).foldl (fun t i => t.write (k * 32 + i) [atD data i 0#8]) s

/-- One half of a burst written (R262): byte enables `be` (32 bits), the error response in the result; `mis` where the read that a
partial half needs met a misdirection. -/
def State.writeHalf (s : State) (a r half be : Nat) (mis : Bool) (data : List Byte) : Nat × State :=
  let k := a / 64 * 2 + half
  if be % 2 ^ 32 = 0 then (0, s)
  else if be % 2 ^ 32 = 2 ^ 32 - 1 then
    (0, ((s.write (k * 32) (data.take 32)).setErrs (Store.del s.dram.errs k)))
  else if mis ∨ Store.get? s.dram.errs k = some true then
    let s0 := s.mergeHalf k be data
    let s1 := ((s0.setErrs (Store.put s0.dram.errs k true)).bump DMC.UE_CNT 1).raise DMC.STAT_UE
    (2 ^ half, (s1.raise DMC.STAT_RMW_UE).latchUE a r half false)
  else
    let (_, s1) := s.checkHalf a r half
    let s2 := s1.mergeHalf k be data
    (0, s2.setErrs (Store.del s2.dram.errs k))

/-- A half with some byte enables on and some off. -/
def partialHalf (be : Nat) : Bool := be % 2 ^ 32 != 0 && be % 2 ^ 32 != 2 ^ 32 - 1

/-- Requester r writes a burst (R262): the halves that answer with an error. A half with some byte enables on and some off needs a
read of the burst, which R261 checks; every half that is written carries the burst's own tag. -/
def State.writeBurst (s : State) (a r be : Nat) (data : List Byte) : Nat × State :=
  if s.dramSize ≤ a ∨ s.chFailed a then (3, s)
  else
    let reads := partialHalf be || partialHalf (be / 2 ^ 32)
    let mis := reads && s.badTags a == 2
    let s0 := if mis then s.misdirect a r else if reads && s.badTags a == 1 then s.correctTag a else s
    let (e0, s1) := s0.writeHalf a r 0 be mis data
    let (e1, s2) := s1.writeHalf a r 1 (be / 2 ^ 32) mis (data.drop 32)
    let own := dramTag (a / 64 * 64)
    let (x, y) := s2.tagsOf a
    (e0 + e1, s2.setTags a (if be % 2 ^ 32 = 0 then x else own, if be / 2 ^ 32 % 2 ^ 32 = 0 then y else own))

/-- Requester r writes those of the bytes l from a whose bit of `be` is 1, with a page hint; true where a half answered with an
error. -/
def State.dramWriteBe (s : State) (r a be : Nat) (l : List Byte) (hint : Nat) : Bool × State :=
  let n := l.length
  let first := a / 64
  let bursts := if n = 0 then 0 else (a + n - 1) / 64 + 1 - first
  (List.range bursts).foldl (fun (p : Bool × State) k =>
    let b := (first + k) * 64
    let lane (i : Nat) : Bool := a ≤ b + i && b + i < a + n && be.testBit (b + i - a)
    let en := ((List.range 64).map (fun i => boolNat (lane i) * 2 ^ i)).sum
    let data := (List.range 64).map (fun i => if lane i then atD l (b + i - a) 0#8 else 0#8)
    let (e, t) := (p.2.touch r b hint).writeBurst b r en data
    (p.1 || e != 0, t)) (false, s)

/-- Requester r writes bytes of DRAM from a with no hint. -/
def State.dramWrite (s : State) (r a : Nat) (l : List Byte) : Bool × State := s.dramWriteBe r a (2 ^ l.length - 1) l 0

/-- Whole bursts of [a, a + n) are written with zeros, valid check bits and tags; a failed channel's writes are discarded (R265). -/
def State.clearDram (s : State) (a n : Nat) : State :=
  let hit (b : Nat) : Bool := decide (a ≤ b ∧ b < a + n) && !s.chFailed b
  let s1 : State := { s with mem := s.mem.filter (fun c => !(hit c.1)) }
  s1.setDram { s1.dram with errs := s1.dram.errs.filter (fun p => !(hit (p.1 * 32))), tags := s1.dram.tags.filter (fun p => !(hit (p.1 * 64))) }

/-! ## Queues, classes, panic (R254, R256) -/

def State.panic (s : State) : Bool := s.flag DMC.STATUS_PANIC

/-- DRAM is open to requesters (DMC.CTRL.EN, STATUS.READY). -/
def State.dramOpen (s : State) : Bool := s.flag DMC.CTRL_EN && s.flag DMC.STATUS_READY

/-- The request may be issued now: not LOW under panic (R256), and not an activation that R257 spaces out. -/
def State.issuable (s : State) (q : DramReq) : Bool :=
  let l := s.dramLoc q.addr
  let held := match Store.get? s.dram.throttle (l.bank * 16 + q.req) with
    | some t => s.needsAct l.bank l.row && decide (s.up < t + s.rhGap)
    | none => false
  !(s.dramClass q.req == 3 && s.panic) && !held

/-- PANIC_TIME takes the whole µs under panic since it last took any (R256). -/
def State.panicCount (s : State) : State :=
  let k := (s.up - s.dram.panicSince) / (1000 * ns)
  if s.panic then (s.setDram { s.dram with panicSince := s.dram.panicSince + k * (1000 * ns) }).bump DMC.PANIC_TIME k else s

/-- The buffer of the ring writer drains (R256): panic is released below 2 MiB, and its time counted in whole µs. -/
def State.rtDrain (s : State) (n : Nat) : State :=
  let f := s.ring.rtFill - n
  let s1 := { s with ring := { s.ring with rtFill := f } }.setFld DMC.RTBUF_BYTES f
  if s.panic ∧ f < 2 * 2 ^ 20 then
    s1.panicCount.setFlag DMC.STATUS_PANIC false
  else s1

/-- The buffer of the ring writer takes n bytes: panic above 3 MiB (R256). -/
def State.rtFillUp (s : State) (n : Nat) : State :=
  let f := s.ring.rtFill + n
  let s1 := { s with ring := { s.ring with rtFill := f } }.setFld DMC.RTBUF_BYTES f
  if !s.panic ∧ 3 * 2 ^ 20 < f then
    (((s1.setDram { s1.dram with panicSince := s.up }).setFlag DMC.STATUS_PANIC true).bump DMC.PANIC_CNT 1).raise
      DMC.STAT_PANIC
  else s1

/-- A request is carried out: the burst read or written, and its answer. -/
def State.dramIssue (s : State) (q : DramReq) : State :=
  let s1 := s.touch q.req q.addr q.hint
  if q.write then
    let (e, s2) := s1.writeBurst q.addr q.req q.be q.data
    let s3 := if q.req = 0 then s2.rtDrain 64 else s2
    s3.emit (.dram q.req q.addr [] e)
  else
    let (e, s2) := s1.checkBurst q.addr q.req
    s2.emit (.dram q.req q.addr (s2.read (q.addr / 64 * 64) 64) e)

/-- The first request that waits for each burst: those for one burst complete in the order they came (R254). -/
def State.firstOfBurst (s : State) (k : Nat) (q : DramReq) : Bool :=
  (s.dram.queue.take k).all (fun x => x.addr / 64 != q.addr / 64)

/-- The oldest issuable request of the highest class of a bank: its place in the queue (R254). -/
def State.bestOf (s : State) (bank : Nat) : Option Nat :=
  let l := (s.dram.queue.zipIdx).filter (fun p =>
    (s.dramLoc p.1.addr).bank == bank && s.issuable p.1 && s.firstOfBurst p.2 p.1)
  (List.range 4).findSome? (fun c => (l.find? (fun p => p.1.cls == c)).map (·.2))

/-- The bank serves its queue while a request may be issued. -/
def State.serveBank (s : State) (bank : Nat) : Nat → State
  | 0 => s
  | fuel + 1 =>
    match s.bestOf bank with
    | some k =>
      match s.dram.queue[k]? with
      | some q => ((s.setDram { s.dram with queue := s.dram.queue.eraseIdx k }).dramIssue q).serveBank bank fuel
      | none => s
    | none => s

/-- Every bank serves its queue, while DRAM is open. -/
def State.serveQueue (s : State) : State :=
  if s.dramOpen then
    s.each (s.dram.queue.map (fun q => (s.dramLoc q.addr).bank)) (fun s b => s.serveBank b s.dram.queue.length)
  else s

/-- A request joins its bank's queue, and the bank serves; a panic released by it lets every bank's LOW requests go. -/
def State.dramRequest (s : State) (q : DramReq) : State :=
  let s1 := s.setDram { s.dram with queue := s.dram.queue ++ [q] }
  if s1.dramOpen then
    let s2 := s1.serveBank (s1.dramLoc q.addr).bank s1.dram.queue.length
    if s.panic && !s2.panic then s2.serveQueue else s2
  else s1

/-- A read burst (R261) of requester `req` reaches the controller. -/
def execDramRead (req addr hint t : Nat) (s : State) : Out3 :=
  let s := s.at t
  doneIf s (req < 16 && addr < s.dramSize) (fun s =>
    s.dramRequest { req := req, cls := s.dramClass req, since := s.up, addr := addr / 64 * 64, hint := hint, write := false,
                    data := [], be := 0 })

/-- A write burst (R262) of requester `req` reaches the controller. -/
def execDramWrite (req addr hint be t : Nat) (data : List Byte) (s : State) : Out3 :=
  let s := s.at t
  doneIf s (req < 16 && addr < s.dramSize) (fun s =>
    s.dramRequest { req := req, cls := s.dramClass req, since := s.up, addr := addr / 64 * 64, hint := hint, write := true,
                    data := data.take 64, be := be % 2 ^ 64 })

/-- Requests that have waited more than PAGE.AGE µs move up one class, those of LOW requesters not under panic (R254). -/
def State.ageQueue (s : State) : State :=
  let age := max 1 (s.fld DMC.PAGE_AGE) * 1000 * ns
  s.setDram { s.dram with queue := s.dram.queue.map (fun q =>
    if q.since + age < s.up ∧ 0 < q.cls ∧ ¬(q.cls = 3 ∧ s.panic) then { q with cls := q.cls - 1, since := s.up } else q) }

/-! ## Rows: timers, refresh, disturbance (R250, R255, R257, R258) -/

/-- A same-bank refresh of the banks with the bank's BA in its rank and sub-channel closes their rows, and starts their counts for
refresh management anew (R250). -/
def State.refreshBanks (s : State) (bank : Nat) : State :=
  let same (b : Nat) : Bool := b / 32 == bank / 32 && b % 4 == bank % 4
  (s.setDram { s.dram with rows := s.dram.rows.filter (fun p => !(same p.1)), raa := s.dram.raa.filter (fun p => !(same p.1)) }).emit
    (.dramCmd 0 bank)

def execDramRefresh (bank t : Nat) (s : State) : Out3 :=
  let s := s.at t
  doneIf s (bank < 2048 && s.flag DMC.STATUS_READY) (fun s =>
    (s.bufferCmd { kind := 1, bank := bank, row := 0, req := 0, hint := 0 }).refreshBanks bank)

/-- The row of a bank is closed by its timer (R255): AUTO after IDLE ns without an access, OPEN after OPEN_MAX. -/
def execRowCloseTimer (bank t : Nat) (s : State) : Out3 :=
  let s := s.at t
  match Store.get? s.dram.rows bank with
  | some o =>
    let due := if o.hint = 1 then o.opened + max 1 (s.fld DMC.PAGE_OPEN_MAX) * 100 * ns ≤ s.up
      else o.last + s.fld DMC.PAGE_IDLE * ns ≤ s.up
    doneIf s (decide due) (fun s => s.setDram { s.dram with rows := Store.del s.dram.rows bank })
  | none => done s

/-- RH.THRESH as it acts: at least 256 (DMC.RH). -/
def State.rhThresh (s : State) : Nat := max 256 (s.fld DMC.RH_THRESH)

def State.bankActs (s : State) (bank r : Nat) : Nat := Store.getD s.dram.acts (bank * 16 + r) 0

/-- The requester that R257 throttles: the most activations but for requester 0 and those throttled already; ties go to the
lower class, then to the higher number. -/
def State.rhPick (s : State) (bank : Nat) : Option Nat :=
  let better (a b : Nat) : Bool :=
    let x := s.bankActs bank a
    let y := s.bankActs bank b
    y < x || (x == y && (s.dramClass b < s.dramClass a || (s.dramClass a == s.dramClass b && b < a)))
  let l := ((List.range 16).filter (fun r => r != 0 && 0 < s.bankActs bank r && !Store.has s.dram.throttle (bank * 16 + r)))
  l.foldl (fun best r => match best with | some b => if better r b then some r else best | none => some r) none

/-- A bank reaches THRESH (R257, R258): refresh management, then a throttle, or RH_RT where requester 0 is alone. -/
def State.rhCross (s : State) (bank : Nat) : State :=
  let s1 := (s.setDram { s.dram with crossed := Store.put s.dram.crossed bank (Store.getD s.dram.crossed bank 0 + 1) }).refreshMgmt
    bank
  if (List.range 16).all (fun r => r == 0 || s.bankActs bank r == 0) then s1.raise DMC.STAT_RH_RT
  else
    match s1.rhPick bank with
    | some r =>
      let s2 := s1.setDram { s1.dram with throttle := Store.put s1.dram.throttle (bank * 16 + r) s1.up }
      (((s2.setRegN DMC.RH_LAST (bank / 128 + 16 * (bank / 64 % 2) + 32 * (bank / 32 % 2) + 64 * (bank % 32) + 2048 * r)).bump
        DMC.RH_CNT 1)).raise DMC.STAT_RH_THROTTLE
    | none => (s1.bump DMC.RH_CNT 1).raise DMC.STAT_RH_THROTTLE

def execRowHammerThreshold (bank : Nat) (s : State) : Out3 :=
  let total := ((List.range 16).map (s.bankActs bank)).sum
  doneIf s (bank < 2048 && s.rhThresh * (Store.getD s.dram.crossed bank 0 + 1) ≤ total) (fun s => s.rhCross bank)

/-- A 32 ms refresh window ends (R257). -/
def execRowHammerWindowEnd (t : Nat) (s : State) : Out3 :=
  let s := s.at t
  done (s.setDram { s.dram with acts := [], crossed := [], throttle := [] }).serveQueue

/-! ## Parity replay (R264, R265) -/

/-- A buffered command is issued again (R264); an activation it makes counts as any other (R258). It keeps its place in the buffer. -/
def State.replayCmd (s : State) (c : DramCmd) : State :=
  match c.kind with
  | 0 => s.openRow c.req c.bank c.row c.hint
  | 1 => s.refreshBanks c.bank
  | _ => (s.setDram { s.dram with raa := Store.del s.dram.raa c.bank }).emit (.dramCmd 1 c.bank)

/-- Rows of the sub-channel are precharged, and the last n of its buffered commands re-issued in order. -/
def State.parityReplay (s : State) (ch sc n : Nat) : State :=
  let sub := ch * 2 + sc
  let again := ((Store.getD s.dram.cmds ch []).filter (fun c => bankSub c.bank == sub)).take n |>.reverse
  let s1 := s.setDram { s.dram with rows := s.dram.rows.filter (fun p => bankSub p.1 != sub) }
  s1.each again (fun s c => s.replayCmd c)

/-- The RCD reports a command/address parity error (R264); the third recurrence in a row fails the channel (R265). -/
def execCaParityError (ch sc replayed : Nat) (again : Bool) (t : Nat) (s : State) : Out3 :=
  let s := s.at t
  doneIf s (ch < 16 && sc < 2) (fun s =>
    let k := ch * 2 + sc
    let n := if again then Store.getD s.dram.parity k 0 + 1 else 0
    let s1 := ((s.setDram { s.dram with parity := Store.put s.dram.parity k n }).bump DMC.CAPAR_CNT 1).raise DMC.STAT_CAPAR
    if 3 ≤ n then
      ((s1.setDram { s1.dram with parity := Store.put s1.dram.parity k 0 }).setFld DMC.CHSTAT_FAILED
        (setBit (s1.fld DMC.CHSTAT_FAILED) ch true)).raise DMC.STAT_CH_FAIL
    else s1.parityReplay ch sc replayed)

/-! ## Training, enable, retrain, scrub (R249, R252, R263, R265 to R267) -/

/-- Segment of an address: its top three ROW bits, so an eighth of capacity each (R266). -/
def State.dramSegment (s : State) (a : Nat) : Nat := a / (s.dramSize / 8)

/-- Every byte of DRAM that `keep` does not hold reads 0, with valid check bits and tags. -/
def State.dramZero (s : State) (keep : Nat → Bool) : State :=
  let out (a : Nat) : Bool := s.dramSize ≤ a || keep a
  { s with mem := s.mem.filter (fun c => out c.1),
           dram := { s.dram with errs := s.dram.errs.filter (fun c => out (c.1 * 32)),
                                 tags := s.dram.tags.filter (fun c => out (c.1 * 64)) } }

/-- A write of DMC.CTRL.EN (R252): refused with MAP_BAD while a mask breaks its rule. -/
def State.dramEnable (s : State) (v : Nat) : State :=
  if v.testBit 0 then
    if s.flag DMC.CTRL_EN then s
    else if s.masksOk then (s.setFlag DMC.CTRL_EN true).serveQueue
    else s.raise DMC.STAT_MAP_BAD
  else s.setFlag DMC.CTRL_EN false

/-- Boot step 4 is over (R398): the controller is enabled, and the image is staged; on a wake whose bank 3 passed its check and whose
staging region self-refresh kept, the staged digests are checked again instead. -/
def State.bootStaging (s : State) (kept : Nat → Bool) : State :=
  if s.fld CFG.STATUS_STATE ≠ 0 then s
  else
    let s1 := s.dramEnable 1
    match (if s1.pwr.banksOk.testBit 3 then s1.pwr.saved.image.full else none) with
    | none => s1.setFld CFG.STATUS_STATE 2
    | some (b, n) =>
      if (List.range 8).all (fun k => b + n ≤ k * (s1.dramSize / 8) || (k + 1) * (s1.dramSize / 8) ≤ b || kept (k * (s1.dramSize / 8))) then
        let j : LoadJob := { src := s1.pwr.saved.image.src, base := b, len := n, kind := 1, takeover := false, hold := false,
                             pcycle := false, recheck := true }
        ({ s1 with cfg := { s1.cfg with job := some j, digFull := s1.pwr.saved.image.digFull } }).setFld CFG.STATUS_STATE 3
      else s1.setFld CFG.STATUS_STATE 2

/-- Training and initialisation complete (R249), or a channel fails a step; DDR_RESET_N is high since step 2 (R456). After self-refresh
the segments that it kept hold their contents (R267). -/
def State.dramTrained (s : State) (failed : Nat) : State :=
  let f := failed % 2 ^ 16
  let s1 := ((s.setDram { s.dram with resetN := true }).setFld DMC.CHSTAT_FAILED f).setFld DMC.CHSTAT_TRAINED (2 ^ 16 - 1 - f)
  if f ≠ 0 then s1.raise DMC.STAT_TRAIN_FAIL
  else
    let keep (a : Nat) : Bool := s.flag DMC.STATUS_SELFREF && s.dram.srKept.testBit (s.dramSegment a)
    let s2 := (((s1.dramZero keep).setFlag DMC.STATUS_SELFREF false).setFlag DMC.STATUS_READY true).raise DMC.STAT_READY
    (s2.bootStaging keep).serveQueue

/-- DRAM waits for its training: its PHY's domain is on, no power sequence runs. -/
def State.dramUntrained (s : State) : Bool :=
  !s.flag DMC.STATUS_READY && (s.regN PWR.DOM_ON).testBit 14 && s.pwr.step == 0

/-- A write of 1 to RETRAIN (R265): while the bell is STOPPED the failed channels are retrained and zeroed, but for those in
`failed`, which fail again. -/
def State.dramRetrain (s : State) (failed : Nat) : State :=
  if s.bellState = stSTOPPED then
    let old := s.fld DMC.CHSTAT_FAILED
    let still := old &&& failed
    let fixed := fun a => old.testBit (s.dramLoc a).ch && !(still.testBit (s.dramLoc a).ch)
    let s1 := (s.dramZero (fun a => !fixed a)).setFld DMC.CHSTAT_FAILED still
    let was := s.fld DMC.CHSTAT_TRAINED
    let s2 := s1.setFld DMC.CHSTAT_TRAINED ((was ||| old) &&& (2 ^ 16 - 1 - still))
    s2.raiseIf (still != 0) DMC.STAT_TRAIN_FAIL
  else s.raise DMC.STAT_RETRAIN_REJ

def execDramRetrain (failed t : Nat) (s : State) : Out3 := done ((s.at t).dramRetrain failed)

/-- The patrol scrubber reads the next burst (R263), every burst of DRAM once in HOURS hours; the requester number that an
error of it latches is a free value (log entry 5). -/
def execPatrolScrub (t : Nat) (s : State) : Out3 :=
  let s := s.at t
  doneIf s (s.dramOpen && s.fld DMC.SCRUB_HOURS != 0 && !s.panic && s.dram.scrubAt ≤ s.up) (fun s =>
    let a := s.dram.scrub
    let (r, s0) := s.fresh 4
    let s1 := ((s0.touch r a 0).checkBurst a r).2
    let period := s.fld DMC.SCRUB_HOURS * 3600 * 1000000000 * ns / (s.dramSize / 64)
    s1.setDram { s1.dram with scrub := (a + 64) % s.dramSize, scrubAt := max s.up s.dram.scrubAt + period })

/-- A read of UE_ADDR_LO (R261): the address, with UE_ADDR_HI latched and the latch armed again. -/
def State.ueAddrPop (s : State) : Nat × State :=
  let s1 := { s with latch := Store.put s.latch DMC.UE_ADDR_HI (s.reg DMC.UE_ADDR_HI) }
  (s.regN DMC.UE_ADDR_LO, (s1.setPair DMC.UE_ADDR_LO DMC.UE_ADDR_HI 0).setDram { s.dram with ueArmed := true })

def execUeAddrRead (master : Nat) (s : State) : Out3 :=
  let (v, s1) := s.ueAddrPop
  done (s1.emit (.readData master v))

end Sys2Proof.Machine
end

