-- ==== Sys2Proof/Machine/Keccak.lean ====
section
/-! DEFINITION. SHAKE256 and SHA3-512, which the manifests, images and reports name (R241, spec/17_images_boot.md,
spec/18_security.md). -/
namespace Sys2Proof.Machine

/-- x rotated left by n in 64 bits. -/
def rotl64 (x n : Nat) : Nat := ((x <<< (n % 64)) ||| (x >>> (64 - n % 64))) % 2 ^ 64

/-- Rotation offsets, lane x + 5 y. -/
def keccakRho : List Nat :=
  [0, 1, 62, 28, 27, 36, 44, 6, 55, 20, 3, 10, 43, 25, 39, 41, 45, 15, 21, 8, 18, 2, 61, 56, 14]

/-- Bit t of the round-constant sequence: the register x^8 + x^6 + x^5 + x^4 + 1. -/
def keccakLfsr : Nat → Nat → Nat
  | 0, r => r
  | t + 1, r => keccakLfsr t (let d := r * 2; if d ≥ 256 then (d ^^^ 0x171) % 256 else d)

def keccakConst (round : Nat) : Nat :=
  ((List.range 7).map (fun j => (keccakLfsr ((j + 7 * round) % 255) 1 % 2) * 2 ^ (2 ^ j - 1))).sum

def lane (a : List Nat) (x y : Nat) : Nat := atD a (x % 5 + 5 * (y % 5)) 0

/-- One round of Keccak-f[1600]. -/
def keccakRound (a : List Nat) (round : Nat) : List Nat :=
  let c := (List.range 5).map (fun x => (List.range 5).foldl (fun v y => v ^^^ lane a x y) 0)
  let d := (List.range 5).map (fun x => atD c ((x + 4) % 5) 0 ^^^ rotl64 (atD c ((x + 1) % 5) 0) 1)
  let b := (List.range 25).map (fun k => rotl64 (atD a k 0 ^^^ atD d (k % 5) 0) (atD keccakRho k 0))
  -- lane (x, y) of the result of pi comes from lane (x + 3 y, x)
  let p := (List.range 25).map (fun k => lane b (k % 5 + 3 * (k / 5)) (k % 5))
  let e := (List.range 25).map (fun k =>
    let x := k % 5
    let y := k / 5
    lane p x y ^^^ (((2 ^ 64 - 1 - lane p (x + 1) y)) &&& lane p (x + 2) y))
  match e with
  | h :: t => (h ^^^ keccakConst round) :: t
  | [] => []

def keccakF (a : List Nat) : List Nat := (List.range 24).foldl keccakRound a

/-- A block of `rate` bytes joins the state. -/
def keccakAbsorb (a : List Nat) (blk : List Byte) : List Nat :=
  keccakF ((List.range 25).map (fun k => atD a k 0 ^^^ leAt blk (8 * k) 8))

/-- The blocks of l, each of `rate` bytes. -/
def blocksOf (rate : Nat) : Nat → List Byte → List (List Byte)
  | 0, _ => []
  | n + 1, l => l.take rate :: blocksOf rate n (l.drop rate)

/-- The sponge with padding byte `suffix`, `rate` bytes a block, n bytes of output. -/
def sponge (rate suffix n : Nat) (l : List Byte) : List Byte :=
  let gap := rate - l.length % rate
  let pad := if gap = 1 then [BitVec.ofNat 8 (suffix + 0x80)]
    else BitVec.ofNat 8 suffix :: List.replicate (gap - 2) 0#8 ++ [0x80#8]
  let m := l ++ pad
  let a := (blocksOf rate (m.length / rate) m).foldl keccakAbsorb (List.replicate 25 0)
  let out := (List.range (ceilDiv n rate)).foldl (fun (p : List Byte × List Nat) _ =>
    (p.1 ++ (p.2.flatMap (fun w => toBytes 8 w)).take rate, keccakF p.2)) ([], a)
  out.1.take n

def shake256 (n : Nat) (l : List Byte) : List Byte := sponge 136 0x1F n l
def sha3_512 (l : List Byte) : List Byte := sponge 72 0x06 64 l

end Sys2Proof.Machine
end

