-- ==== Sys2Proof/Machine/Outs.lean ====
section
/-! DEFINITION. Output ports, streams, packet headers and the event stream (R230 to R236, R245); conversion of dump records
(R237, R238). -/
namespace Sys2Proof.Machine

def State.setOuts (s : State) (o : Outs) : State := { s with outs := o }

/-! ## Trunk SRAM (spec/00_scope.md, Address map) -/

def trunkBase : Nat := 0xFE0000000000

/-- The 256-bit words of [a, a + n) that hold an uncorrectable error. -/
def State.badWords (s : State) (a n : Nat) : List Nat :=
  if n = 0 then []
  else (s.dram.errs.filter (fun p => p.2 && decide (a / 32 ≤ p.1 ∧ p.1 ≤ (a + n - 1) / 32))).map (·.1)

/-! ## Ports (R230 to R232) -/

def State.outUp (s : State) (p : Nat) : Bool := s.flag (OUT.PORT_STATUS_UP p)

/-- The stream entry in force. -/
def State.streamEntry (s : State) (k : Nat) : List Byte := Store.getD s.outs.entries k []

/-- The PORTS mask of a stream entry (R233). -/
def entryPorts (e : List Byte) : Nat := (atD e 13 0#8).toNat % 16

/-- The next up port of the mask after the last dealt to, in ascending order and in turn (R232). -/
def State.dealPort (s : State) (stream mask : Nat) : Option Nat :=
  let up := (List.range 4).filter (fun p => mask.testBit p && s.outUp p)
  let last := Store.get? s.outs.dealt stream
  match last with
  | none => up.head?
  | some l => match up.find? (fun p => l < p) with
    | some p => some p
    | none => up.head?

/-- A numbered packet is dealt, or discarded for want of an up port (R232). -/
def State.deal (s : State) (p : ProdPkt) : State :=
  match s.dealPort p.stream (entryPorts p.entry) with
  | some q => s.setOuts { s.outs with ready := s.outs.ready ++ [{ p with port := q }], dealt := Store.put s.outs.dealt p.stream q }
  | none =>
    let low := ((List.range 4).find? (fun q => (entryPorts p.entry).testBit q)).getD 0
    (s.bump (OUT.PORT_DROP low) 1).raise OUT.STAT_PORT_DROP

/-- The stream of a kind (R236). -/
def State.streamOf (s : State) (kind : Nat) : Nat := s.fld (OUT.PRODMAP_STREAM kind)

/-- The next packet number of a stream (R235). -/
def State.takeSeq (s : State) (stream : Nat) : Nat × State :=
  let q := Store.getD s.outs.pseq stream 0
  (q, s.setOuts { s.outs with pseq := Store.put s.outs.pseq stream ((q + 1) % 2 ^ 64) })

/-- A product packet is ready (R232, R233, R236): none of a kind that is disabled; discarded on a disabled stream. `drop`
discards it with its PSEQ consumed (R242). -/
def State.product (s : State) (kind : Nat) (ext data : List Byte) (drop : Bool) : State :=
  if s.kindOn kind then
    let st := s.streamOf kind
    if (s.fld OUT.STREN_EN).testBit st then
      let (q, s1) := s.takeSeq st
      if drop then s1 else s1.deal { kind := kind, stream := st, pseq := q, port := 0, ext := ext, data := data, entry := s.streamEntry st }
    else (s.bump OUT.STRM_DROP 1).raise OUT.STAT_STRM_DROP
  else s

/-- The 64-byte product header (R235): `ext` holds bytes 16 to 63. -/
def State.productHeader (s : State) (p : ProdPkt) : List Byte :=
  toBytes 2 0x5A49 ++ [BitVec.ofNat 8 p.kind, 1#8, BitVec.ofNat 8 (s.myPitch % 64), BitVec.ofNat 8 (p.stream % 16)]
    ++ toBytes 2 p.data.length ++ toBytes 8 p.pseq ++ (p.ext ++ List.replicate 48 0#8).take 48

/-- The UDP payload of a packet. -/
def State.payloadOf (s : State) (p : ProdPkt) : List Byte := s.productHeader p ++ p.data

/-- The 16-bit one's complement sum of bytes in network order. -/
def onesSum (l : List Byte) : Nat :=
  let t := ((l.zipIdx).map (fun p => p.1.toNat * (if p.2 % 2 = 0 then 256 else 1))).sum
  let t := t % 65536 + t / 65536
  let t := t % 65536 + t / 65536
  t % 65536 + t / 65536

/-- The UDP header and payload (R234); a computed checksum of 0 is sent as 0xFFFF. -/
def udpDatagram (e pseudo pl : List Byte) (cksum : Bool) : List Byte :=
  let len := toBytesBE 2 (8 + pl.length)
  let h := (e.drop 18).take 4 ++ len
  let c := 65535 - onesSum (pseudo ++ h ++ [0#8, 0#8] ++ pl)
  h ++ (if cksum then toBytesBE 2 (if c = 0 then 65535 else c) else [0#8, 0#8]) ++ pl

/-- The IP packet of a datagram, from the stream entry (R233, R234). -/
def ipPacket (e pl : List Byte) : List Byte :=
  let b k := (atD e k 0#8).toNat
  let v6 := (b 12).testBit 0
  let udpLen := 8 + pl.length
  if v6 then
    let src := (e.drop 24).take 16
    let dst := (e.drop 40).take 16
    let pseudo := src ++ dst ++ toBytesBE 4 udpLen ++ [0#8, 0#8, 0#8, 17#8]
    toBytesBE 4 (6 * 2 ^ 28 + b 14 % 64 * 4 * 2 ^ 20) ++ toBytesBE 2 udpLen ++ [17#8, BitVec.ofNat 8 (b 15)] ++ src ++ dst
      ++ udpDatagram e pseudo pl true
  else
    let src := (e.drop 24).take 4
    let dst := (e.drop 40).take 4
    let h1 := [0x45#8, BitVec.ofNat 8 (b 14 % 64 * 4)] ++ toBytesBE 2 (20 + udpLen) ++ [0#8, 0#8, 0x40#8, 0#8, BitVec.ofNat 8 (b 15), 17#8]
    let c := 65535 - onesSum (h1 ++ [0#8, 0#8] ++ src ++ dst)
    let pseudo := src ++ dst ++ [0#8, 17#8] ++ toBytesBE 2 udpLen
    h1 ++ toBytesBE 2 c ++ src ++ dst ++ udpDatagram e pseudo pl ((b 12).testBit 1)

/-- The frame on the wire, from destination address to frame check sequence (R233, R234). -/
def etherFrame (e pl : List Byte) : List Byte :=
  let b k := (atD e k 0#8).toNat
  let ty := if (b 12).testBit 0 then [0x86#8, 0xDD#8] else [0x08#8, 0x00#8]
  let tag := if (b 12).testBit 2 then [0x81#8, 0x00#8] ++ (e.drop 16).take 2 else []
  let f := e.take 12 ++ tag ++ ty ++ ipPacket e pl
  f ++ toBytes 4 (crc32 f)

/-- The strict priority of kinds (R236). -/
def kindOrder : List Nat := [5, 6, 3, 4, 2, 1, 7]

/-- The next packet of port p: the oldest of the highest kind (R236). -/
def State.nextProduct (s : State) (p : Nat) : Option ProdPkt :=
  kindOrder.findSome? (fun k => s.outs.ready.find? (fun q => q.port == p && q.kind == k))

/-- A port sends its next packet (R236). -/
def execOutputPacketTx (p t : Nat) (s : State) : Out3 :=
  let s := s.at t
  match s.nextProduct p with
  | some q =>
    doneIf s (s.works 1 27 && s.outUp p && s.itemOpen 0x11 [q.kind]) (fun s =>
      let s1 := s.setOuts { s.outs with
        ready := s.outs.ready.erase q }
      (s1.bump (OUT.PORT_TXPKT p) 1).emit (.product p q.kind (etherFrame q.entry (s.payloadOf q))))
  | none => done s

/-- A port's PCS state; UP as R232 says, with FEC as it took effect. -/
def State.portPcs (s : State) (p lock : Nat) (align fec : Bool) : State :=
  let useFec := Store.getD s.outs.fec p 0 = 1
  let up := s.flag (OUT.PORT_CTRL_EN p) && lock % 16 == 15 && align && (!useFec || fec)
  s.setRegN (OUT.PORT_STATUS p) (boolNat up + 2 * (lock % 16) + 32 * boolNat align + 64 * boolNat (useFec && fec))

/-- The unbegun packets of a port that went down are dealt again in their order (R232). -/
def State.redeal (s : State) (p : Nat) : State :=
  let gone := s.outs.ready.filter (fun q => q.port == p)
  (s.setOuts { s.outs with ready := s.outs.ready.filter (fun q => q.port != p) }).each gone (fun s q => s.deal q)

/-- A port that has come up or gone down: its event, and its packets dealt again where it is down. -/
def State.portMoved (s : State) (p : Nat) (was : Bool) : State :=
  if was && !s.outUp p then (s.redeal p).raise OUT.STAT_LINK_DOWN
  else s.raiseIf (!was && s.outUp p) OUT.STAT_LINK_UP

/-- The PCS of a port reports its state: the port is up or down by it. -/
def State.portReport (s : State) (p lock : Nat) (align fec : Bool) : State := (s.portPcs p lock align fec).portMoved p (s.outUp p)

def execOutputPortUp (p lock : Nat) (align fec : Bool) (s : State) : Out3 := doneIf s (p < 4) (fun s => s.portReport p lock align fec)

def execOutputPortDown (p lock : Nat) (align fec : Bool) (s : State) : Out3 := doneIf s (p < 4) (fun s => s.portReport p lock align fec)

/-- A write of PORTp_CTRL (R230): FEC takes effect as EN goes from 0 to 1; a disabled port's PCS stops and reports neither lock nor
alignment, and it starts again with neither (DEDUCED, log entry 30). -/
def State.outPortCtrl (s : State) (p v : Nat) : State :=
  let en := s.flag (OUT.PORT_CTRL_EN p)
  let was := s.outUp p
  let s1 := s.setRegN (OUT.PORT_CTRL p) (v % 256)
  let s2 := if !en && v.testBit 0 then s1.setOuts { s1.outs with fec := Store.put s1.outs.fec p (bits v 1 1) } else s1
  if en && v.testBit 0 then s2 else (s2.setRegN (OUT.PORT_STATUS p) 0).portMoved p was

/-- Frames received on an output port are discarded and counted (R231); so are the codewords its RS-FEC corrected and lost. -/
def execOutputRxDiscard (p frames cor unc : Nat) (s : State) : Out3 :=
  doneIf s (p < 4) (fun s =>
    ((s.bump OUT.RX_DISC frames).bump (OUT.PORT_FECCOR p) cor).bump (OUT.PORT_FECUNC p) unc)

/-! ## Stream table (R233) -/

def streamAddr (k : Nat) : Nat := trunkBase + 0x1800000 + 64 * k

/-- A write of STREN: a bit that rises copies its entry, unless the read fails. -/
def State.streamWrite (s : State) (v : Nat) : State :=
  let old := s.fld OUT.STREN_EN
  (s.setFld OUT.STREN_EN (old &&& v)).each (List.range 16) (fun s k =>
    if v.testBit k && !old.testBit k then
      if s.badWords (streamAddr k) 64 = [] then
        (s.setOuts { s.outs with entries := Store.put s.outs.entries k (s.read (streamAddr k) 64) }).setFld OUT.STREN_EN
          (setBit (s.fld OUT.STREN_EN) k true)
      else s.raise OUT.STAT_STRM_REJ
    else if !v.testBit k && old.testBit k then s.setOuts { s.outs with entries := Store.del s.outs.entries k }
    else s)

def execStreamEnable (v : Word) (s : State) : Out3 := done (s.streamWrite v.toNat)

/-! ## Dumps being sent, and their manifests (R239, R241) -/

/-- The manifest of a dump whose packets sent have these digests. -/
def State.manifestOf (s : State) (d : Dump) (trunc : Bool) (digests : List (List Byte)) : Manifest :=
  { q := d.q, trunc := trunc, sent := 0,
    body := toBytes 8 s.serial ++ [BitVec.ofNat 8 s.myPitch, BitVec.ofNat 8 d.fmt, BitVec.ofNat 8 (boolNat trunc), 0#8] ++ toBytes 4 d.q
      ++ toBytes 8 digests.length ++ List.replicate 40 0#8 ++ digests.flatten }

/-- Dump d is sent no further: whole, or cut short. -/
def State.endDump (s : State) (d : Dump) (trunc : Bool) : State :=
  let head := s.outs.dumps.head? == some d
  let digests := if head then s.outs.digests else []
  s.setOuts { s.outs with
    dumps := s.outs.dumps.filter (fun e => e.q != d.q),
    nextRec := if head then 0 else s.outs.nextRec,
    digests := if head then [] else s.outs.digests,
    manifests := if d.manif then s.outs.manifests ++ [s.manifestOf d trunc digests] else s.outs.manifests }

/-! ## Dump formats (R237, R238) -/

/-- Bytes of a record by FMT. -/
def fmtSize (f : Nat) : Nat := match f with | 0 => 16 | 1 => 8 | 2 => 4 | _ => 12

/-- A write of OUT.DUMP (R237): a format larger than FMTMAX is discarded; FMTMAX itself follows the boot lock. -/
def State.dumpFormat (s : State) (v : Nat) (locked : Bool) : State :=
  let mx := if locked then s.fld OUT.DUMP_FMTMAX else bits v 4 2
  if fmtSize mx < fmtSize (v % 4) then s.raise OUT.STAT_FMT_REJ
  else s.setRegN OUT.DUMP (v % 16 + 16 * mx)

def execDumpFormatWrite (v : Word) (s : State) : Out3 := done (s.dumpFormat v.toNat (s.flag CFG.STATUS_LOCKED))

/-- Rounded float32 complex product: four real products, two additions (R221). -/
def cmul32 (a b : Nat × Nat) : Nat × Nat :=
  (f32sub (f32mul a.1 b.1) (f32mul a.2 b.2), f32add (f32mul a.1 b.2) (f32mul a.2 b.1))

def conj32 (a : Nat × Nat) : Nat × Nat := (a.1, f32neg a.2)

/-- binary16 of a float32 (R237): a finite magnitude of 65,520 or more saturates to ±65,504. -/
def toF16 (x : Nat) : Nat × Bool :=
  let v := f32val x
  match v with
  | .fin neg _ _ =>
    if v.abs.lt (.fin false 65520 0) then (fpBits 11 5 (Config.nan 7 [x]) v, false) else (0x7BFF + 0x8000 * boolNat neg, true)
  | _ => (fpBits 11 5 (Config.nan 7 [x]) v, false)

/-- A record of R12: real [47:0], imaginary [95:48], count [127:96]. -/
def recRe (r : Nat) : Int := toSigned 48 r
def recIm (r : Nat) : Int := toSigned 48 (r / 2 ^ 48)
def recN (r : Nat) : Nat := bits r 96 32
def mkRec (re im : Int) (n : Nat) : Nat := ofSigned 48 re + ofSigned 48 im * 2 ^ 48 + n % 2 ^ 32 * 2 ^ 96

/-- The poison value (R170). -/
def poisonRec : Nat := mkRec 0 0 (2 ^ 32 - 1)

/-- A code in every part of a float record (R238). -/
def codeRecord (fmt c32 c16 n : Nat) : List Byte :=
  match fmt with
  | 1 => toBytes 4 c32 ++ toBytes 4 c32
  | 2 => toBytes 2 c16 ++ toBytes 2 c16
  | _ => toBytes 4 c32 ++ toBytes 4 c32 ++ toBytes 4 n

/-- The poison codes of a format (R238, R239). -/
def poisonBytes (fmt : Nat) : List Byte :=
  if fmt = 0 then toBytes 16 poisonRec else codeRecord fmt 0x7FC00001 0x7E01 (2 ^ 32 - 1)

/-- A record converted (R237, R238): `corr` holds c_i and c_j where CORR is applied, none for an entry excluded. The result
counts the CF16 parts that saturated. -/
def convertRecord (fmt r : Nat) (corr : Option (Option (Nat × Nat) × Option (Nat × Nat))) : List Byte × Nat :=
  if fmt = 0 then (toBytes 16 r, 0)
  else if recN r = 2 ^ 32 - 1 then (poisonBytes fmt, 0)
  else if recN r = 0 then (codeRecord fmt 0x7FC00000 0x7E00 0, 0)
  else
    let n := recN r
    let v := (f32ofRat (recRe r) n, f32ofRat (recIm r) n)
    let w : Option (Nat × Nat) := match corr with
      | none => some v
      | some (some ci, some cj) => some (cmul32 v (cmul32 ci (conj32 cj)))
      | some _ => none
    match w with
    | none => (codeRecord fmt 0x7FC00002 0x7E02 n, 0)
    | some (a, b) =>
      if fmt = 2 then
        let x := toF16 a
        let y := toF16 b
        (toBytes 2 x.1 ++ toBytes 2 y.1, boolNat x.2 + boolNat y.2)
      else (toBytes 4 a ++ toBytes 4 b ++ (if fmt = 3 then toBytes 4 n else []), 0)

/-! ## The event stream (R245) -/

def entryBytes (e : EvtEntry) : List Byte :=
  toBytes 8 e.index ++ [BitVec.ofNat 8 (e.input % 128), BitVec.ofNat 8 (boolNat e.thrB + 2 * (e.act % 16)), 0#8, 0#8]
    ++ toBytes 4 e.power

/-- An EVENT packet leaves: 512 entries wait, or the oldest has waited 1 ms. While EVENT is disabled none is formed (R236). -/
def execEventPacket (t : Nat) (s : State) : Out3 :=
  let s := s.at t
  match s.evts with
  | e :: _ =>
    doneIf s (s.works 1 27 && s.kindOn 6 && (512 ≤ s.evts.length || e.at_ + 1000000 * ns ≤ s.up)) (fun s =>
      let l := s.evts.take 512
      let ext := toBytes 2 l.length ++ [BitVec.ofNat 8 (boolNat s.evtLoss)] ++ toBytes 5 0 ++ toBytes 8 e.index
      { s with evts := s.evts.drop 512, evtLoss := false }.product 6 ext (l.flatMap entryBytes) false)
  | [] => done s

end Sys2Proof.Machine
end

