-- ==== Sys2Proof/Machine/Ring.lean ====
section
/-! DEFINITION. The reorder ring, its writer and its presence maps (R134 to R142), capture triggers, records, freezes and
releases (R143 to R149, R151, R152), and readout (R150, R246). -/
namespace Sys2Proof.Machine

def State.setRing (s : State) (r : Ring) : State := { s with ring := r }

/-! ## Layout (R134 to R136) -/

def State.ringF (s : State) : Nat := s.fld RRG.SLOTS_F

/-- C_loc and P (R134). -/
def State.cLoc (s : State) : Nat := s.localChannels.length

/-- W / K, the spectrum groups of a frame. -/
def State.specGroups (s : State) : Nat := s.specW / s.packK

def State.cellBytes (s : State) : Nat := 32 * s.fld RRG.GEOM_CELLW

def State.cellsPerSlot (s : State) : Nat := s.specGroups * s.cLoc * s.canopySize

def State.slotBase (s : State) (n : Nat) : Nat :=
  s.regN RRG.BASE_LO + s.fld RRG.BASE_HI_ADDR * 2 ^ 32 + n * (s.cellsPerSlot * s.cellBytes)

/-- Z_m: the map's bytes, a multiple of 4 KiB (R136). -/
def State.mapBytes (s : State) : Nat := ceilDiv (ceilDiv s.cellsPerSlot 8) 4096 * 4096

def State.mapBase (s : State) (n : Nat) : Nat :=
  s.regN RRG.MAP_LO + s.fld RRG.MAP_HI_ADDR * 2 ^ 32 + n * s.mapBytes

/-- The cell's place (R135). -/
def State.cellIndex (s : State) (g c p : Nat) : Nat := (g * s.cLoc + c) * s.canopySize + p

def State.cellAddr (s : State) (slot idx : Nat) : Nat := s.slotBase slot + idx * s.cellBytes

def State.mapBit (s : State) (slot idx : Nat) : Bool := (s.byte (s.mapBase slot + idx / 8)).toNat.testBit (idx % 8)

/-- Requester req reads the byte of the map that holds a cell's bit, with the checks of R261; its bytes are used as stored. -/
def State.readMap (s : State) (req slot idx : Nat) : State :=
  State.afterRead (s.dramRead req (s.mapBase slot + idx / 8) 1)

/-- The writer sets a cell's bit (R136): a write of one byte, checked and merged as R262 says. -/
def State.setMapBit (s : State) (slot idx : Nat) : State :=
  let a := s.mapBase slot + idx / 8
  State.afterWrite (s.dramWrite 0 a [BitVec.ofNat 8 (setBit (s.byte a).toNat (idx % 8) true)])

/-- The slots of the ring with their numbers, below F. -/
def State.ringSlots (s : State) : List (RingSlot × Nat) := (s.ring.slots.take s.ringF).zipIdx

/-- The slot among `l` that was placed last. -/
def newestSlot (l : List (RingSlot × Nat)) : Option Nat :=
  (l.foldl (fun (best : Option (RingSlot × Nat)) p =>
    match best with
    | none => some p
    | some q => if q.1.ord < p.1.ord then some p else best) none).map (·.2)

/-- The slot that holds frame f; the one placed last where an index that came back holds the number twice. -/
def State.slotOf (s : State) (f : Nat) : Option Nat := newestSlot (s.ringSlots.filter (fun p => p.1.frame == some f))

/-- The slot of the frame before the running one, whatever index the bell between them adopted (R24, R142). -/
def State.slotBefore (s : State) (f : Nat) : Option Nat :=
  (s.ringSlots.find? (fun p => p.1.frame == some f && p.1.ord + 1 == s.ring.ord)).map (·.2)

/-- Pitch p was parked for frame f, and has not joined by it (R132, R133, R139): the last of its parks and joins at or before f. -/
def State.parkedFor (s : State) (p f : Nat) : Bool :=
  let last (l : List (Nat × Nat)) : Option Nat :=
    (l.filter (fun q => q.1 == p && decide (q.2 ≤ f))).foldl (fun m q => some (max q.2 (m.getD 0))) none
  match last s.can.parked, last s.can.joining with
  | some a, some j => decide (j < a)
  | some _, none => true
  | none, _ => false

/-! ## Writing (R137 to R140) -/

/-- RING_LATE in RRG and in BEL.STAT (R138, R139). -/
def State.ringLate (s : State) : State := (s.raise RRG.STAT_RING_LATE).raise BEL.STAT_RING_LATE

/-- A packet delivered to this device is stored as a cell or discarded (R138). -/
def State.storeCell (s : State) (p : Packet) (payload : List Byte) : State :=
  let f := s.frameOf p
  let slot := newestSlot (s.ringSlots.filter (fun p => p.1.frame == some f && p.1.isOpen))
  match slot with
  | none =>
    if inRuns s.ring.closed f then (s.bump RRG.LATE_CNT 1).ringLate else (s.bump RRG.FOREIGN_CNT 1).raise RRG.STAT_FOREIGN
  | some n =>
    match s.localIndex p.channel with
    | none => (s.bump RRG.FOREIGN_CNT 1).raise RRG.STAT_FOREIGN
    | some c =>
      if s.canopySize ≤ p.src then (s.bump RRG.FOREIGN_CNT 1).raise RRG.STAT_FOREIGN
      else
        let idx := s.cellIndex (p.m0 % s.specW / s.packK) c p.src
        let s := s.readMap 0 n idx
        if s.mapBit n idx then (s.bump RRG.DUP_CNT 1).raise RRG.STAT_DUP
        else
          let z := s.cellBytes
          let s1 := (s.dramWrite 0 (s.cellAddr n idx) ((payload ++ List.replicate z 0#8).take z)).2
          (s1.setMapBit n idx).rtFillUp z

/-- The head of a queue for this device leaves for the ring writer (R126, R135, R140): held where the write buffer is full
or DRAM is not open to requesters (R249, R267). -/
def execRingCellStore (voq t : Nat) (s : State) : Out3 :=
  let s := s.at t
  match s.voq voq with
  | h :: l =>
    match h.pkt.body with
    | .data payload =>
      doneIf s (h.pkt.dest == s.myPitch && s.hasPitch && s.dramOpen) (fun s =>
        if 4 * 2 ^ 20 < s.ring.rtFill + s.cellBytes then s.raise DMC.STAT_RT_FULL
        else ((s.setVoq voq l).returnCredit voq h.from?).storeCell h.pkt payload)
    | _ => done s
  | [] => done s

/-- A slot is frozen while a record holds it (R147). -/
def RingSlot.frozen (r : RingSlot) : Bool := r.held != 0

/-- The slot of a frame at its bell (R137): the unfrozen slot, other than that of the frame before it, that was placed first; an
empty slot is older than any; ties go to the lower number. Age is the order of placing, whatever index a bell carried. -/
def State.chooseSlot (s : State) (prev : Option Nat) : Option Nat :=
  let l := s.ringSlots.filter (fun p => p.1.frame.isNone || (!p.1.frozen && !(prev.isSome && p.1.ord == s.ring.ord)))
  let age (r : RingSlot) : Nat := match r.frame with | none => 0 | some _ => r.ord + 1
  (l.foldl (fun (best : Option (RingSlot × Nat)) p =>
    match best with
    | none => some p
    | some q => if age p.1 < age q.1 then some p else best) none).map (·.2)

/-- A record at the placing of frame b (R147): b is no longer to come, and a frame that the index has jumped over is not kept. -/
def CapRec.place (b : Nat) (r : CapRec) : CapRec :=
  { r with later := r.later.filter (fun f => decide (b < f)), frames := r.frames.filter (fun f => !(r.later.contains f && decide (f < b))) }

/-- The records that wait for frame b (R147), as bits. -/
def State.wantedBy (s : State) (b : Nat) : Nat :=
  (s.ring.recs.zipIdx.map (fun p => if 2 ≤ p.1.st ∧ p.1.later.contains b = true then 2 ^ p.2 else 0)).sum

/-- Frame b is placed in slot n, frozen from the start where a record waits for it (R147), the inputs of pitches parked for it flag codes
(R132). Its presence map is cleared; frames from b on have still to close. -/
def State.placeFrame (s : State) (b n : Nat) : State :=
  let slot : RingSlot := { frame := some b, isOpen := true, ord := s.ring.ord + 1, held := s.wantedBy b,
                           parked := (List.range s.canopySize).filter (fun p => s.parkedFor p b) }
  let s1 := s.setRing { s.ring with slots := setAt s.ring.slots n slot, ord := s.ring.ord + 1, closed := runsBelow b s.ring.closed, recs := s.ring.recs.map (CapRec.place b) }
  s1.clearDram (s1.mapBase n) s1.mapBytes

def State.assignSlot (s : State) (b : Nat) (prev : Option Nat) : State :=
  match s.chooseSlot prev with
  | some n => s.placeFrame b n
  | none => s

/-- The pitches parked for the frame of slot n. -/
def State.slotParked (s : State) (n : Nat) : List Nat := (s.ring.slots[n]?.map (·.parked)).getD []

/-- The cells of a slot whose map bit is 0, but for those of pitches parked for its frame (R139): only listed bytes can hold a
bit. -/
def State.missing (s : State) (n : Nat) : Nat :=
  let p := s.canopySize
  let off := s.slotParked n
  let live := ((List.range p).filter (fun q => !off.contains q)).length
  let base := s.mapBase n
  let present := (s.mem.map (fun (c : Host.Cell) =>
    if base ≤ c.1 ∧ c.1 < base + s.mapBytes then
      ((setBits 8 c.2.toNat).filter (fun k =>
        let idx := (c.1 - base) * 8 + k
        idx < s.cellsPerSlot && !off.contains (idx % p))).length
    else 0)).sum
  s.specGroups * s.cLoc * live - present

/-- Ring frame f of slot n closes (R138, R139). -/
def State.closeFrame (s : State) (n f : Nat) : State :=
  let m := s.missing n
  let s1 := if m = 0 then s else (s.bump RRG.MISS_CNT m).ringLate
  s1.setRing { s1.ring with slots := s1.ring.slots.zipIdx.map (fun p => if p.2 = n then { p.1 with isOpen := false } else p.1),
                            closed := addRun f s1.ring.closed }

/-- The DATA packets of the frame that is over by slot 2 of frame b leave the queues (R128): those of every frame before b, and of the
frame just closed where the index changed between them (R24). -/
def State.dropStale (s : State) (b : Nat) (closed : Option Nat) : State :=
  let (s1, k) := s.dropQueued (fun v => decide (s.frameOf v.pkt < b) || (some (s.frameOf v.pkt) == closed && closed != some b))
  if k = 0 then s1 else (s1.bump CAN.STALE_CNT k).raise CAN.STAT_STALE_DROP

/-- An open slot of a frame that the running one has followed. -/
def State.closingSlot (s : State) : Option (RingSlot × Nat) :=
  s.ringSlots.find? (fun p => p.1.isOpen && decide (p.1.ord < s.ring.ord))

/-- The end of slot 1 of the frame after f: ring frame f closes, and the canopy discards its DATA. -/
def execRingFrameClose (t : Nat) (s : State) : Out3 :=
  let s := s.at t
  match s.curFrame with
  | some b =>
    doneIf s (2 ≤ s.slotNow) (fun s =>
      match s.closingSlot with
      | some (r, n) => (s.closeFrame n (r.frame.getD 0)).dropStale b r.frame
      | none => s.dropStale b none)
  | none => done s

/-! ## Reading (R141) -/

/-- A reader takes a cell (R141): flag codes where its pitch is parked for the frame (R132), its map bit is 0 or its read is
uncorrectable; true where substituted. -/
def State.readCell (s : State) (req slot idx : Nat) : List Byte × Bool × State :=
  let z := s.cellBytes
  let flag := List.replicate z (if s.flag CHN.CTRL_RQ4 then 0x88#8 else 0x80#8)
  if (s.slotParked slot).contains (idx % s.canopySize) then (flag, true, s)
  else
  let s := s.readMap req slot idx
  if s.mapBit slot idx then
    let (l, bad, s1) := s.dramRead req (s.cellAddr slot idx) z
    if bad = [] then (l, false, s1) else (flag, true, (s1.bump RRG.ECC_CNT 1).raise RRG.STAT_ECC)
  else (flag, true, s)

/-! ## Capture triggers (R143 to R148, R152) -/

/-- The capture mailbox publishes a record (R152): EVENT, CAP, REASON, NOREC and the bell. -/
def State.postCapture (s : State) (event cap reason : Nat) (noRec : Bool) (bell : Nat) : State :=
  s.setRing { s.ring with mb := s.ring.mb.publish (fun q => [q, event, cap, reason, boolNat noRec, bell]) }

/-- A refusal (R146, R152): 0 CAP_BUSY, 1 CAP_FULL, 2 CAP_LATE, 3 NO_BELL. -/
def State.refuseCapture (s : State) (reason cap : Nat) (noRec : Bool) (bell : Nat) : State :=
  let s1 := s.bump RRG.REFUSE_CNT 1
  let s2 := match reason with
    | 0 => s1.raise RRG.STAT_CAP_BUSY
    | 1 => s1.raise RRG.STAT_CAP_FULL
    | 2 => s1.raise RRG.STAT_CAP_LATE
    | _ => s1.raise RRG.STAT_NO_BELL
  s2.postCapture 1 cap reason noRec bell

/-- PRE and POST of a source (SRCs_WIN, R145). -/
def State.srcPre (s : State) (src : Nat) : Nat := max 1 (s.fld (RRG.SRC_WIN_PRE src))
def State.srcPost (s : State) (src : Nat) : Nat := min 62 (s.fld (RRG.SRC_WIN_POST src))

/-- The trigger joins a pending record of its bell, or takes the lowest FREE one (R146), with its CAST where ECHO asks (R148). -/
def State.handleTrigger (s : State) (tr : Trigger) (b pre post : Nat) : State :=
  let recs := s.ring.recs.zipIdx
  match recs.find? (fun p => p.1.st == 1 && p.1.bell == b) with
  | some (r, n) =>
    let r1 := { r with srcs := setBit r.srcs tr.source true, pre := max r.pre pre, post := max r.post post }
    s.setRing { s.ring with recs := setAt s.ring.recs n r1 }
  | none =>
    match recs.find? (fun p => p.1.st == 0) with
    | some (_, n) =>
      let echo := tr.source < 4 && (s.fld RRG.TRIG_ECHO).testBit tr.source
      let origin := if tr.source = 4 then tr.origin else s.myPitch
      let r1 : CapRec := { st := 1, srcs := 2 ^ tr.source, origin := origin, bell := b, pre := pre, post := post,
                           tag := tr.tag, first := b - pre, frames := [], later := [], short := false, echoed := echo }
      let s1 := s.setRing { s.ring with recs := setAt s.ring.recs n r1 }
      if echo then
        s1.sendCast { ckind := 1, origin := 0, cseq := 0, bell := b, source := tr.source, pre := pre, post := post, tag := tr.tag }
      else s1
    | none => s.refuseCapture 0 0 true s.bellIndex

/-- The freeze bell of a trigger from sources 0 to 3 (R144): that of the frame it reaches the capture engine in, or of the frame in
which a FILTER event was decided; none where that is no frame. Before the first bell of a ringing engine there is no frame either:
NO_BELL (DEDUCED, log entry 28). -/
def State.bellOfTrigger (s : State) (tr : Trigger) : Option Nat :=
  if tr.source = 2 then (if tr.bell = 0 then none else some tr.bell) else s.curFrame.map s.freezeBell

/-- A trigger reaches the capture engine (R144, R146). -/
def State.captureTrigger (s : State) (tr : Trigger) : State :=
  if !s.isRinging then s.refuseCapture 3 0 true s.bellIndex
  else if tr.source = 4 then
    if s.curFrame.any (fun n => decide (tr.bell ≤ n)) then s.refuseCapture 2 0 true s.bellIndex
    else s.handleTrigger tr tr.bell (max 1 (min 63 tr.pre)) (min 62 tr.post)
  else match s.bellOfTrigger tr with
    | none => s.refuseCapture 3 0 true s.bellIndex
    | some b => s.handleTrigger tr b (s.srcPre tr.source) (s.srcPost tr.source)

/-- The oldest trigger on its way reaches the capture engine. -/
def execCaptureTrigger (t : Nat) (s : State) : Out3 :=
  let s := s.at t
  match s.trigQ with
  | tr :: l => done ({ s with trigQ := l }.captureTrigger tr)
  | [] => done s

/-- A write of 1 to HOST_TRIG.GO (R143). -/
def State.hostTrig (s : State) : State := s.trigger 0 (s.regN RRG.HOST_TAG_LO + s.regN RRG.HOST_TAG_HI * 2 ^ 32)

def execHostTrigger (t : Nat) (s : State) : Out3 := done (s.at t).hostTrig

/-- A write of CAP_REL (R151). -/
def State.releaseRequest (s : State) (v : Nat) : State := s.setRing { s.ring with relReq := s.ring.relReq ||| v % 16 }

def execCaptureReleaseRequest (v : Word) (s : State) : Out3 := done (s.releaseRequest v.toNat)

/-! ## Readout (R150, R246) -/

/-- The readout stops, its record returns to HELD, and `event` is posted. -/
def State.endReadout (s : State) (r : CapRec) (n event : Nat) : State :=
  ((s.setRing { s.ring with recs := setAt s.ring.recs n { r with st := 2 }, reading := none }).setFlag RRG.RD_CMD_BUSY
    false).postCapture event n 0 false s.bellIndex

/-- An abort at the cell boundary. -/
def State.abortReadout (s : State) : State :=
  match s.ring.reading with
  | some (n, _, _) =>
    match s.ring.recs[n]? with
    | some r => (s.endReadout r n 3).raise RRG.STAT_RD_ABORT
    | none => s
  | none => s

/-- A completed readout (R150); AUTO_REL asks for the release of its record (R151). -/
def State.finishReadout (s : State) (n : Nat) : State :=
  match s.ring.recs[n]? with
  | some r =>
    let s1 := (s.endReadout r n 2).raise RRG.STAT_RD_DONE
    if s1.flag RRG.CTRL_AUTO_REL then s1.releaseRequest (2 ^ n) else s1
  | none => s

/-- The channels of a readout: RD_CH_LO to RD_CH_HI, held below C_loc. -/
def State.readChannels (s : State) : Nat × Nat :=
  (min (s.fld RRG.RD_CH_LO_CH) (s.cLoc - 1), min (s.fld RRG.RD_CH_HI_CH) (s.cLoc - 1))

/-- The next cell of the readout in a frame, at or after index i, of the channels asked for. -/
def State.nextCell (s : State) (i : Nat) : Option Nat :=
  let (lo, hi) := s.readChannels
  let p := s.canopySize
  let c := i / p % max 1 s.cLoc
  let g := i / p / max 1 s.cLoc
  let j := if c < lo then (g * s.cLoc + lo) * p else if hi < c then ((g + 1) * s.cLoc + lo) * p else i
  if j < s.cellsPerSlot ∧ lo ≤ hi then some j else none

/-- The last frame of record n has closed (R150): none of its frames is still to come, none of its slots open. -/
def State.lastClosedOf (s : State) (n : Nat) (r : CapRec) : Bool :=
  r.later == [] && s.ringSlots.all (fun q => !(q.1.held.testBit n && q.1.isOpen))

/-- A write of RD_CMD with GO (R150). -/
def State.startReadout (s : State) (n : Nat) : State :=
  match s.ring.recs[n]? with
  | some r =>
    if s.ring.reading.isSome ∨ r.st ≠ 2 ∨ s.lastClosedOf n r = false then s.raise RRG.STAT_RD_REFUSED
    else
      let s1 := ((s.setRing { s.ring with recs := setAt s.ring.recs n { r with st := 3 }, reading := some (n, r.frames, 0),
                                          rdAt := s.up }).setRegN RRG.RD_PROG 0).setFlag RRG.RD_CMD_BUSY true
      if r.frames = [] ∨ (s1.nextCell 0).isNone then s1.finishReadout n else s1
  | none => s

/-- A write of RD_CMD (R150): ABORT acts before GO. -/
def State.readCmd (s : State) (v : Nat) : State :=
  let s1 := s.setFld RRG.RD_CMD_CAP (v % 4)
  let s2 := if v.testBit 3 then s1.abortReadout else s1
  if v.testBit 2 then s2.startReadout (v % 4) else s2

def execReadoutStart (v : Word) (t : Nat) (s : State) : Out3 := done ((s.at t).readCmd v.toNat)

def execReadoutAbort (t : Nat) (s : State) : Out3 := done (s.at t).abortReadout

/-- Capture readout pauses under panic, and in a frame in which the ledger defers it (R150, R256, R378). -/
def State.readoutPaused (s : State) : Bool :=
  s.panic || s.deferred.any (fun k => (s.schedule[k]?.map (·.engine)) == some 0x11)

/-- Up to `k` consecutive cells from index i: their bytes and MISS bits. -/
def State.takeCells (s : State) (slot : Nat) : Nat → Nat → List Byte × List Bool × State
  | 0, _ => ([], [], s)
  | k + 1, i =>
    if s.nextCell i = some i then
      let (l, m, s1) := s.readCell 14 slot i
      let r := s1.takeCells slot k (i + 1)
      (l ++ r.1, m :: r.2.1, r.2.2)
    else ([], [], s)

/-- The slot of frame f of record n. -/
def State.recSlot (s : State) (n f : Nat) : Option Nat :=
  newestSlot (s.ringSlots.filter (fun p => p.1.frame == some f && p.1.held.testBit n))

/-- The next CAPTURE packet (R246): cells of one frame, with the readout's rate held to RD_RATE × 100 MB/s. -/
def State.capturePacket (s : State) : State :=
  match s.ring.reading with
  | some (n, f :: fs, i) =>
    match s.ring.recs[n]?, s.nextCell i, s.recSlot n f with
    | some r, some j, some slot =>
      let (l, miss, s1) := s.takeCells slot 8 j
      let k := miss.length
      let next := s1.nextCell (j + k)
      let last := next.isNone && fs == []
      let ext := [BitVec.ofNat 8 n, BitVec.ofNat 8 (boolNat r.short + 2 * boolNat last), BitVec.ofNat 8 k,
          BitVec.ofNat 8 ((miss.zipIdx.map (fun p => boolNat p.1 * 2 ^ p.2)).sum)]
        ++ toBytes 2 (s1.fld RRG.GEOM_CELLW) ++ toBytes 2 0 ++ toBytes 8 f ++ toBytes 8 j ++ toBytes 8 r.tag
      let rate := clampN 1 500 (s1.fld RRG.RD_RATE_RATE)
      let s2 := s1.setRing { s1.ring with
        reading := some (n, if next.isNone then fs else f :: fs, next.getD 0),
        rdAt := max s1.up s1.ring.rdAt + l.length * 10 * ns / rate }
      ((s2.setRegN RRG.RD_PROG (s2.regN RRG.RD_PROG + k))).product 7 ext l false
    | _, _, _ => s.setRing { s.ring with reading := some (n, fs, 0) }
  | _ => s

def execCapturePacket (t : Nat) (s : State) : Out3 :=
  let s := s.at t
  doneIf s (s.works 1 27 && !s.readoutPaused && s.itemOpen 0x11 [7] && s.dramOpen && s.ring.rdAt ≤ s.up) (fun s => s.capturePacket)

/-- The last cell of the readout has been sent. -/
def execReadoutDone (t : Nat) (s : State) : Out3 :=
  let s := s.at t
  match s.ring.reading with
  | some (n, [], _) => done (s.finishReadout n)
  | _ => done s

/-! ## Bells: releases and freezes (R147, R151) -/

/-- A requested release takes effect at bell b (R151). -/
def State.releaseAt (s : State) (b n : Nat) : State :=
  if s.ring.relReq.testBit n then
    let s1 := s.setRing { s.ring with relReq := setBit s.ring.relReq n false }
    let s2 := if (s1.ring.reading.map (·.1)) = some n then s1.abortReadout else s1
    match s2.ring.recs[n]? with
    | some r =>
      if r.st = 0 then s2
      else
        let slots := s2.ring.slots.map (fun (q : RingSlot) => { q with held := setBit q.held n false })
        ((s2.setRing { s2.ring with recs := setAt s2.ring.recs n CapRec.free, slots := slots }).raise RRG.STAT_RELEASED).postCapture 4 n 0
          false b
    | none => s2
  else s

/-- The frames of a record's set (R145), B − PRE to B + POST − 1. -/
def CapRec.set (r : CapRec) : List Nat :=
  (List.range (min r.pre r.bell + r.post)).map (fun k => r.bell - min r.pre r.bell + k)

/-- The frames of it that are to come at a freeze at bell index `at_`. -/
def CapRec.toCome (at_ : Nat) (r : CapRec) : List Nat := r.set.filter (fun f => decide (at_ ≤ f))

/-- The slots that the ring still holds of its other frames, as numbers (R147). -/
def State.keptSlots (s : State) (at_ : Nat) (r : CapRec) : List Nat :=
  (r.set.filter (fun f => decide (f < at_))).filterMap s.slotOf

/-- The frames of it that are kept at a freeze at bell index `at_` (R147): those that the ring holds, and those to come. -/
def State.keptFrames (s : State) (at_ : Nat) (r : CapRec) : List Nat :=
  r.set.filter (fun f => decide (at_ ≤ f) || (s.slotOf f).isSome)

/-- The frames that are frozen with the record (R147, step 1): slots held by a record or of the set, and frames to come. -/
def State.frozenWith (s : State) (at_ : Nat) (r : CapRec) : Nat :=
  let slots := (s.ringSlots.filter (fun p => p.1.frozen || (s.keptSlots at_ r).contains p.2)).length
  let later := ((s.ring.recs.filter (fun q => 2 ≤ q.st)).flatMap (·.later) ++ r.toCome at_).eraseDups.length
  slots + later

/-- The record freezes (R147) at bell index `at_`, its set named from its own B. -/
def State.freezeRec (s : State) (at_ n : Nat) (r : CapRec) : State :=
  if s.ringF - 2 < s.frozenWith at_ r then
    (s.setRing { s.ring with recs := setAt s.ring.recs n CapRec.free }).refuseCapture 1 n false at_
  else
    let set := s.keptFrames at_ r
    let short := set.length < r.pre + r.post
    let r1 := { r with st := 2, frames := set, later := r.toCome at_, first := set.head?.getD r.bell, short := decide short }
    let slots := s.ring.slots.zipIdx.map (fun p =>
      if (s.keptSlots at_ r).contains p.2 then { p.1 with held := setBit p.1.held n true } else p.1)
    let s1 := s.setRing { s.ring with recs := setAt s.ring.recs n r1, slots := slots }
    ((s1.raiseIf (decide short) RRG.STAT_SHORT).raise RRG.STAT_FROZEN).postCapture 0 n 0 false at_

/-- Bell b: releases, then the freezes of every pending record whose bell is b or earlier (R147, R151). -/
def State.captureBell (s : State) (b : Nat) : State :=
  let s1 := s.each [0, 1, 2, 3] (fun s n => s.releaseAt b n)
  s1.each [0, 1, 2, 3] (fun s n =>
    match s.ring.recs[n]? with
    | some r => if r.st = 1 ∧ r.bell ≤ b then s.freezeRec b n r else s
    | none => s)

end Sys2Proof.Machine
end

