-- ==== Sys2Proof/Machine/Corr.lean ====
section
/-! DEFINITION. Correlation (R153 to R181): window stores and their loaders, tile-channels, partial sums, the integration
store, accumulation runs, dump events and the dump buffer; the overrun rules R34 to R36. -/
namespace Sys2Proof.Machine

def State.setCorr (s : State) (c : Corr) : State := { s with corr := c }

def State.die (s : State) (d : Nat) : StallDie := atD s.corr.dies d StallDie.reset

def State.setDie (s : State) (d : Nat) (x : StallDie) : State :=
  s.setCorr { s.corr with dies := setAt s.corr.dies d x }

/-- Whole ACLK cycles, 1.25 GHz, in a span of time. -/
def aclk (dt : Nat) : Nat := dt * 5 / (4 * ns)

/-- `n` ACLK cycles have passed since `t0`. -/
def State.cyclesPassed (s : State) (t0 n : Nat) : Bool := n * 4 * ns ≤ (s.now - t0) * 5

/-! ## Geometry (R156, R157, R161, R163) -/

/-- I, the canopy inputs (R157). -/
def State.canopyInputs (s : State) : Nat := s.fld (STL.ICFG_INPUTS 0) + 1

/-- R = ⌈I / 128⌉. -/
def State.blocks (s : State) : Nat := ceilDiv s.canopyInputs 128

/-- T = R(R + 1)/2 tiles of a channel (R162). -/
def State.tiles (s : State) : Nat := s.blocks * (s.blocks + 1) / 2

/-- B, the baselines of the device (R163). -/
def State.baselines (s : State) : Nat := s.canopyInputs * (s.canopyInputs + 1) / 2

/-- k = j(j + 1)/2 + i, i ≤ j (R163). -/
def baselineIndex (i j : Nat) : Nat := j * (j + 1) / 2 + i

/-- The pair (i, j) of a triangular number t = j(j + 1)/2 + i. -/
def triPair (t : Nat) : Nat × Nat :=
  let j := (natSqrt (8 * t + 1) - 1) / 2
  (t - j * (j + 1) / 2, j)

def State.mode4 (s : State) (d : Nat) : Bool := s.flag (STL.CTRL_MODE4 d)

/-- Bytes per sample, s_b (R156). -/
def State.sampBytes (s : State) (d : Nat) : Nat := if s.mode4 d then 1 else 2

/-- The k-th local channel of die d (R179). -/
def State.dieChannel (s : State) (d k : Nat) : Nat := s.fld (STL.CFG_FIRST d) + k

def State.dieChannels (s : State) (d : Nat) : Nat := s.fld (STL.CHCNT_COUNT d)

/-- Where the sample of canopy input n at spectrum t lies in the k-th window of die d (R156). -/
def State.winAddr (s : State) (d k n t : Nat) : Nat :=
  0xFC0000000000 + d * 0x10000000 + k % 2 * 0x8000000
    + (n / 128 * 128 * s.specW + t * 128 + n % 128) * s.sampBytes d

/-- Words of a memory with check bits are written whole: their errors end (R159, R434). -/
def State.storeChecked (s : State) (a : Nat) (l : List Byte) : State :=
  let n := l.length
  let s1 := s.write a l
  s1.setErrs (s1.dram.errs.filter (fun p => decide (p.1 * 32 < a ∨ a + n < p.1 * 32 + 32)))

/-! ## Loading windows (R141, R158, R184, R187) -/

def State.gainBase (s : State) (bank : Nat) : Nat :=
  s.regN AIS.GTAB_LO + s.fld AIS.GTAB_HI_ADDR * 2 ^ 32 + bank * (s.regN AIS.GTAB_HALF * 4096)

/-- The n gain words a read at a gave, those about a failing half excluded, and the failures counted. -/
def gainWords (n a : Nat) (r : List Byte × List Nat × State) : List Nat × State :=
  ((List.range n).map (fun i => if (r.2.1.map (· / 2)).contains ((a + 4 * i) / 64) then 0x8000 else leAt r.1 (4 * i) 4),
    if r.2.1 = [] then r.2.2 else (r.2.2.bump AIS.MEM_CNT r.2.1.length).raise AIS.STAT_MEM_ERR)

/-- The gain words of local channel c (R186, R187): the 16 words about each failing half of R259 exclude their inputs (DEDUCED, log
entry 60). -/
def State.fetchGains (s : State) (c : Nat) : List Nat × State :=
  let n := s.canopyInputs
  let a := s.gainBase (s.fld AIS.GSTATUS_BANK) + c * n * 4
  gainWords n a (s.dramRead 3 a (4 * n))

/-- Beam tiles with at least one allocated beam in the page in use (R183, R191). -/
def State.beamTiles (s : State) : List Nat :=
  (List.range 8).filter (fun g => (List.range 32).any (fun b => s.regN (AIS.BEAM_INFO (32 * g + b)) != 0))

/-- Every aisle pass of channel k has ended or been cut off (R184). -/
def State.passesOver (s : State) (d k : Nat) : Bool :=
  s.beamTiles.all (fun g => (s.die d).done.contains (k * 8 + g) || (s.die d).cut.contains (k * 8 + g))

/-- The channel the loader starts next. -/
def StallDie.nextLoad (x : StallDie) : Nat := x.wins.length

/-- The loader starts the window of channel k: the window of k − 1 is loaded and channel k − 2 is done with (R158, R184). -/
def State.loadReady (s : State) (d : Nat) : Bool :=
  let x := s.die d
  let k := x.nextLoad
  s.works (3 + d) (7 + d) && s.dramOpen && !x.closed && s.corr.frame.isSome && decide (2 ≤ s.slotNow) && decide (s.slotNow < 1022)
    && decide (k < s.dieChannels d)
    && (k == 0 || Store.getD x.wins (k - 1) 0 == s.blocks)
    && (decide (k < 2) || (decide (k ≤ x.k + 1) && s.passesOver d (k - 2)))

def execWindowLoadStart (die t : Nat) (s : State) : Out3 :=
  let s := s.at t
  doneIf s (decide (die < 6) && s.loadReady die) (fun s =>
    let k := (s.die die).nextLoad
    let (g, s1) := s.fetchGains (s.dieChannel die k)
    let x := s1.die die
    s1.setDie die { x with wins := Store.put x.wins k 0, gains := Store.put x.gains k g })

/-- The samples of canopy inputs 128b to 128b + 127 in spectrum group g of a channel: the cells of their pitches, and each
input's K samples (R135, R141, R157). -/
def State.loadGroup (s : State) (d k b slot g : Nat) : State :=
  let sb := s.sampBytes d
  let q4 := s.mode4 d
  let m := max 1 s.inputsHere
  let kk := s.packK
  let stride := ceilDiv (m * sb) 32 * 32
  let c := s.dieChannel d k
  let pitches := (List.range s.canopySize).filter (fun p => p * m < 128 * b + 128 && 128 * b < p * m + m)
  let r := pitches.foldl (fun (a : Store (List Byte) × State) p =>
    let (l, _, t) := a.2.readCell 1 slot (s.cellIndex g c p)
    (Store.put a.1 p l, t)) ([], s)
  let sample (n j : Nat) : List Byte :=
    if s.canopyInputs ≤ n then flagSample q4
    else match Store.get? r.1 (n / m) with
      | some l => (l.drop (j * stride + n % m * sb)).take sb
      | none => flagSample q4
  (List.range kk).foldl (fun t j =>
    t.storeChecked (t.winAddr d k (128 * b) (g * kk + j)) ((List.range 128).flatMap (fun i => sample (128 * b + i) j))) r.2

/-- The next block of the window being loaded is complete: from the ring slot of the frame, flag codes where R141 says. -/
def State.loadBlock (s : State) (d k b f : Nat) : State :=
  let s1 := match s.slotBefore f with
    | some slot => (List.range s.specGroups).foldl (fun (t : State) g => t.loadGroup d k b slot g) s
    | none =>
      (List.range s.specW).foldl (fun t q =>
        t.storeChecked (t.winAddr d k (128 * b) q) ((List.range 128).flatMap (fun _ => flagSample (s.mode4 d)))) s
  let x := s1.die d
  s1.setDie d { x with wins := Store.put x.wins k (b + 1) }

def execWindowBlockLoaded (die t : Nat) (s : State) : Out3 :=
  let s := s.at t
  let x := s.die die
  match x.wins.reverse, s.corr.frame with
  | (k, b) :: _, some f =>
    doneIf s (decide (die < 6) && s.works (3 + die) (7 + die) && !x.closed && decide (x.k < s.dieChannels die) && decide (s.slotNow < 1022)
      && s.dramOpen && decide (b < s.blocks)) (fun s => s.loadBlock die k b f)
  | _, _ => done s

/-! ## Tile-channels (R153, R154, R159, R161 to R164) -/

/-- A sample of the window store: none where it holds the flag code or its word is uncorrectable (R102, R154, R159). -/
def State.winSample (s : State) (d k n t : Nat) : Option (Int × Int) :=
  let a := s.winAddr d k n t
  if Store.get? s.dram.errs (a / 32) = some true then none
  else if s.mode4 d then
    let b := (s.byte a).toNat
    let v := (toSigned 4 b, toSigned 4 (b / 16))
    if v.1 = -8 ∨ v.2 = -8 then none else some v
  else
    let v := (toSigned 8 (s.byte a).toNat, toSigned 8 (s.byte (a + 1)).toNat)
    if v.1 = -128 ∨ v.2 = -128 then none else some v

/-- Window-store errors that a read of block b finds (R159). -/
def State.windowErrors (s : State) (d k b : Nat) : State :=
  let lo := s.winAddr d k (128 * b) 0 / 32
  let hi := s.winAddr d k (128 * b + 127) (s.specW - 1) / 32
  let l := s.dram.errs.filter (fun p => decide (lo ≤ p.1 ∧ p.1 ≤ hi))
  let u := (l.filter (·.2)).length
  let c := l.length - u
  let s1 := if u = 0 then s else (s.bump (STL.WS_UERR d) u).raise (STL.STAT_WS_UERR d)
  if c = 0 then s1 else (s1.bump (STL.WS_CERR d) c).raise (STL.STAT_WS_CERR d)

/-- The shadow registers are empty: 2,048 cycles after the last copy (R164). -/
def State.shadowEmpty (s : State) (x : StallDie) : Bool :=
  match x.ended with
  | some e => s.cyclesPassed e 2048
  | none => true

/-- The work that an entry of a stall die places, as `Config.itemOf` names it: local channel and tile. Entries name logical
positions. -/
def State.tileItems (s : State) (d c t : Nat) : List (Nat × SchedEntry) := s.itemsFor (8 + s.fld (STL.CFG_LPOS d)) [c, t]

/-- Tile t of local channel c is cut off: every item that places it is over (R28). -/
def State.tileCut (s : State) (d c t : Nat) : Bool := s.itemShut (8 + s.fld (STL.CFG_LPOS d)) [c, t]

/-- A tile-channel may start (R28, R162). -/
def State.tileReady (s : State) (d : Nat) : Bool :=
  let x := s.die d
  s.works (3 + d) (7 + d) && s.itemOpen (8 + s.fld (STL.CFG_LPOS d)) [s.dieChannel d x.k, x.tile] && !x.closed && s.corr.frame.isSome && x.running.isNone && decide (3 ≤ s.slotNow) && decide (s.slotNow < 1022)
    && decide (x.k < s.dieChannels d) && s.shadowEmpty x && decide ((triPair x.tile).2 < Store.getD x.wins x.k 0)

/-- The array starts the next tile-channel; idle cycles since slot 3 or the last end are counted (R162). -/
def State.startTile (s : State) (d : Nat) : State :=
  let x := s.die d
  let idle := aclk (s.now - max (s.slotAt 3) (x.ended.getD 0))
  let (r, q) := triPair x.tile
  let s1 := s.windowErrors d x.k r
  let s2 := if r = q then s1 else s1.windowErrors d x.k q
  let s3 := s2.setDie d { x with running := some s.now, wait := x.wait + idle }
  (s3.setRegN (STL.STATUS d) (1 + 4 * x.tile + 2 ^ 14 * s3.dieChannel d x.k + 2 ^ 28 * (x.k % 2))).raiseIf
    (decide (0 < idle)) (STL.STAT_WAIT d)

def execTileChannelStart (die t : Nat) (s : State) : Out3 :=
  let s := s.at t
  doneIf s (decide (die < 6) && s.tileReady die) (fun s => s.startTile die)

/-- The stalls of tile t whose results are kept, as input pairs (R161). -/
def State.keptPairs (s : State) (t : Nat) : List (Nat × Nat) :=
  let (r, q) := triPair t
  (List.range 128).flatMap (fun b => (List.range 128).filterMap (fun a =>
    let i := 128 * r + a
    let j := 128 * q + b
    if i ≤ j ∧ i < s.canopyInputs ∧ j < s.canopyInputs then some (i, j) else none))

/-- The registers of a stall at the end of its tile-channel: Σ x_i conj(x_j) over the valid products (R153, R154). -/
def State.stallSum (s : State) (d k i j : Nat) : Int × Int × Nat :=
  (List.range s.specW).foldl (fun (z : Int × Int × Nat) t =>
    match s.winSample d k i t, s.winSample d k j t with
    | some (a, b), some (c, e) => (z.1 + (a * c + b * e), z.2.1 + (b * c - a * e), z.2.2 + 1)
    | _, _ => z) (0, 0, 0)

/-- Record number of baseline (i, j) in local channel c (R167). -/
def State.recNo (s : State) (c i j : Nat) : Nat := c * s.baselines + baselineIndex i j

/-- Cycles of a tile-channel: W at 8 bits, W / 4 at 4 bits (R161). -/
def State.tileCycles (s : State) (d : Nat) : Nat := if s.mode4 d then s.specW / 4 else s.specW

/-- The next tile-channel after (k, tile) (R162). -/
def State.nextTile (s : State) (x : StallDie) : StallDie :=
  if x.tile + 1 < s.tiles then { x with tile := x.tile + 1 } else { x with tile := 0, k := x.k + 1 }

/-- The first tile-channel from there on that is not cut off. -/
def State.seekTile (s : State) (d : Nat) : Nat → StallDie → StallDie
  | 0, x => x
  | n + 1, x =>
    if x.k < s.dieChannels d ∧ s.tileCut d (s.dieChannel d x.k) x.tile = true then s.seekTile d n (s.nextTile x) else x

/-- How many tile-channels a die has. -/
def State.tileCount (s : State) (d : Nat) : Nat := s.dieChannels d * s.tiles

/-- The registers go to the shadow and are cleared; the partial sums of kept stalls start for the trunk (R164). -/
def State.endTile (s : State) (d : Nat) : State :=
  let x := s.die d
  let c := s.dieChannel d x.k
  let sums := (s.keptPairs x.tile).map (fun p =>
    let z := s.stallSum d x.k p.1 p.2
    (s.recNo c p.1 p.2, z.1, z.2.1, z.2.2))
  let x1 := { x with running := none, ended := some s.now, busy := x.busy + s.tileCycles d,
                     out := x.out ++ [{ chan := c, tile := x.tile, begun := false, sums := sums }] }
  let y := s.seekTile d (s.tileCount d) (s.nextTile x1)
  let s1 := (s.setDie d y).bump (STL.TC_DONE d) 1
  if y.k < s1.dieChannels d then s1 else s1.setFld (STL.STATUS_STATE d) 0

def execTileChannelEnd (die t : Nat) (s : State) : Out3 :=
  let s := s.at t
  match (s.die die).running with
  | some t0 =>
    doneIf s (decide (die < 6) && s.works (3 + die) (7 + die) && s.cyclesPassed t0 (s.tileCycles die)) (fun s => s.endTile die)
  | none => done s

/-! ## Dump buffer and dump conversion (R175 to R177, R211, R237) -/

def State.dbufHalf (s : State) (q : Nat) : Nat :=
  s.regN (STL.DBUF_LO 0) + s.fld (STL.DBUF_HI_ADDR 0) * 2 ^ 32 + q % 2 * (s.regN (STL.DBUF_HALF 0) * 4096)

def State.istAddr (s : State) (rec : Nat) : Nat :=
  s.regN (STL.IST_LO 0) + s.fld (STL.IST_HI_ADDR 0) * 2 ^ 32 + rec * 16

/-- The correction a read gave, none where the word excludes the input or a half failed; the failures are counted. -/
def correctionWord (r : List Byte × List Nat × State) : Option (Nat × Nat) × State :=
  if r.2.1 = [] then
    (if (leAt r.1 0 4, leAt r.1 4 4) = (0x7FC00000, 0x7FC00000) then none else some (leAt r.1 0 4, leAt r.1 4 4), r.2.2)
  else (none, (r.2.2.bump CAL.MEM_CNT r.2.1.length).raise CAL.STAT_MEM_ERR)

/-- c_n of the dump correction bank in use (R227); none where it is excluded or unreadable (R237, R238). -/
def State.correction (s : State) (c n : Nat) : Option (Nat × Nat) × State :=
  let a := s.regN CAL.DCOR_LO + s.fld CAL.DCOR_HI_ADDR * 2 ^ 32
    + s.fld CAL.STATUS_DBANK * (s.regN CAL.DCOR_HALF * 4096) + (c * s.canopyInputs + n) * 8
  correctionWord (s.dramRead 11 a 8)

/-- A CAL control as sampled at the last first bell of a solve window (R217). -/
def State.calWord (s : State) (r : Reg) : Nat := (Store.getD s.cal.cfg r (resetOf s.part s.serial r)).toNat

/-- The feed entry of a replaced record (R211); MINCNT is a sampled control (R217). -/
def State.feedRecord (s : State) (rec r : Nat) : State :=
  let a := s.regN CAL.FEED_LO + s.fld CAL.FEED_HI_ADDR * 2 ^ 32 + rec * 8
  let n := recN r
  let l := if n < max 1 (s.calWord CAL.MINCNT) ∨ n = 2 ^ 32 - 1 then toBytes 4 0x7FC00000 ++ toBytes 4 0x7FC00000
    else toBytes 4 (f32ofRat (recRe r) n) ++ toBytes 4 (f32ofRat (recIm r) n)
  (s.dramWrite 2 a l).2

/-- POISON_CNT and POISON for `k` records (R170). -/
def State.countPoison (s : State) (k : Nat) : State :=
  if k = 0 then s else (s.bump (STL.POISON_CNT 0) k).raise (STL.STAT_POISON 0)

/-- Dump q − 2 still in the half ends where it stands (R176, R241): the rest is lost, and its manifest is marked TRUNC. -/
def State.cutDump (s : State) (q : Nat) : State :=
  match s.outs.dumps.find? (fun d => d.q == q) with
  | some d => ((s.endDump d true).bump (STL.DBUF_OVR_CNT 0) 1).raise (STL.STAT_DBUF_OVR 0)
  | none => s

/-- The trunk begins to write the filling dump's half (R176). -/
def State.beginHalf (s : State) : State :=
  match s.corr.filling with
  | some d =>
    if s.corr.begun then s
    else
      let s1 := s.setCorr { s.corr with begun := true }
      s1.cutDump ((d.q + (2 ^ 32 - 2)) % 2 ^ 32)
  | none => s

/-- A replaced record's contents are taken into the dump (R175, R237). -/
def State.takeRecord (s : State) (rec old : Nat) : State :=
  match s.beginHalf.corr.filling with
  | some d =>
    let s0 := s.beginHalf
    let (corr, s1) := if d.corr then
        let c := rec / s0.baselines
        let p := triPair (rec % s0.baselines)
        let (ci, t1) := s0.correction c p.1
        let (cj, t2) := t1.correction c p.2
        (some (ci, cj), t2)
      else (none, s0)
    let (l, sat) := convertRecord d.fmt old corr
    let s2 := (s1.dramWrite 2 (s1.dbufHalf d.q + rec * fmtSize d.fmt) l).2
    let s3 := if sat = 0 then s2 else (s2.bump OUT.CF16_SAT sat).raise OUT.STAT_CF16_SAT
    let s4 := if recN old = 2 ^ 32 - 1 then s3.setCorr { s3.corr with filling := some { d with poison := true } } else s3
    if s4.corr.feed then s4.feedRecord rec old else s4
  | none => s

/-- Both records of a 32-byte half are written, `rec` with v and the other with the poison value (R170). -/
def State.writeHalfRec (s : State) (rec v : Nat) : State :=
  let l := if rec % 2 = 0 then toBytes 16 v ++ toBytes 16 poisonRec else toBytes 16 poisonRec ++ toBytes 16 v
  (s.dramWrite 2 (s.istAddr (rec / 2 * 2)) l).2

/-- The other record of a half. -/
def otherRec (rec : Nat) : Nat := if rec % 2 = 0 then rec + 1 else rec - 1

/-- A record replaced by v, of the old record's bytes, failing halves and the machine after their read. -/
def State.replaceRead (rec v : Nat) (r : List Byte × List Nat × State) : State :=
  let s1 := r.2.2
  let taken := s1.corr.filling.isSome
  let s2 :=
    if r.2.1 = [] then
      let s2 := s1.takeRecord rec (ofBytes r.1)
      let s2 := if taken && s2.corr.owed.contains rec then s2.countPoison 1 else s2
      State.afterWrite (s2.dramWrite 2 (s2.istAddr rec) (toBytes 16 v))
    else
      let o := otherRec rec
      let s2 := if taken then (s1.takeRecord rec poisonRec).countPoison 1 else s1
      let lost := s2.corr.got.contains o
      let s3 := (s2.writeHalfRec rec v).when lost (fun t => t.countPoison 1)
      if lost then s3 else s3.setCorr { s3.corr with owed := o :: s3.corr.owed }
  s2.setCorr { s2.corr with got := rec :: s2.corr.got }

/-- A record is replaced in the first frame of a run (R168, R170, R174, R175). -/
def State.replaceRecord (s : State) (rec v : Nat) : State :=
  State.replaceRead rec v (s.dramRead 2 (s.istAddr rec) 16)

/-- A partial sum added to a record, of its bytes, failing halves and the machine after their read. -/
def State.addRead (rec : Nat) (re im : Int) (n : Nat) (r : List Byte × List Nat × State) : State :=
  let s1 := r.2.2
  if r.2.1 = [] then
    let old := ofBytes r.1
    if recN old = 2 ^ 32 - 1 then s1
    else State.afterWrite (s1.dramWrite 2 (s1.istAddr rec) (toBytes 16 (mkRec (recRe old + re) (recIm old + im) (recN old + n))))
  else (s1.writeHalfRec rec poisonRec).countPoison (if otherRec rec < s1.cLoc * s1.baselines then 2 else 1)

/-- A partial sum is added to its record (R168); an unreadable half takes the poison value (R170). -/
def State.addRecord (s : State) (rec : Nat) (re im : Int) (n : Nat) : State :=
  State.addRead rec re im n (s.dramRead 2 (s.istAddr rec) 16)

def State.retireSum (s : State) (rec : Nat) (re im : Int) (n : Nat) : State :=
  if s.corr.replacing then s.replaceRecord rec (mkRec re im n) else s.addRecord rec re im n

/-- The records of a skipped tile-channel are written as zero with count 0 where the frame replaces records (R35). -/
def State.skipTile (s : State) (c t : Nat) : State :=
  if s.corr.replacing then
    (s.keptPairs t).foldl (fun s p => s.replaceRecord (s.recNo c p.1 p.2) (mkRec 0 0 0)) s
  else s

/-- Skipped tile-channels of the frame that is correlated (R36). -/
def State.addSkips (s : State) (d k : Nat) : State :=
  match s.corr.frame with
  | some _ => if k = 0 then s else { s with skips := Store.put s.skips d (Store.getD s.skips d 0 + k) }
  | none => s

/-- One partial sum reaches the trunk, or its tile-channel is lost on the link (R166, R168). -/
def execPartialSumRetire (die : Nat) (intact : Bool) (t : Nat) (s : State) : Out3 :=
  let s := s.at t
  let x := s.die die
  match x.out with
  | ts :: rest =>
    doneIf s (decide (die < 6) && s.dramOpen && (intact || !ts.begun)) (fun s =>
      if intact then
        match ts.sums with
        | (r, re, im, n) :: l =>
          (s.setDie die { x with out := if l = [] then rest else { ts with begun := true, sums := l } :: rest }).retireSum r re im n
        | [] => s.setDie die { x with out := rest }
      else
        (((((s.setDie die { x with out := rest }).addSkips die 1).skipTile ts.chan ts.tile).bump (STL.LINK_CNT die) 1).raise
          (STL.STAT_LINK_LOSS die)))
  | [] => done s

/-! ## Overrun (R34 to R36, R165) -/

/-- The tile-channels of a die that are not complete: (local channel, tile). -/
def State.unfinished (s : State) (d : Nat) : List (Nat × Nat) :=
  let x := s.die d
  (List.range (s.dieChannels d)).flatMap (fun k =>
    if k < x.k then [] else ((List.range s.tiles).filter (fun t =>
      decide (x.k < k ∨ x.tile ≤ t) && !s.tileCut d (s.dieChannel d k) t)).map (fun t => (s.dieChannel d k, t)))

/-- A die skips tile-channels of the frame (R35, R36). A closed die's channels get no sums and do not count (R178). -/
def State.skipTiles (s : State) (d : Nat) (l : List (Nat × Nat)) : State :=
  l.foldl (fun s p => s.skipTile p.1 p.2) (if (s.die d).closed then s else s.addSkips d l.length)

/-- The tile-channels that an END slot has just cut off (R28): they are skipped, the running one among them is abandoned, and the array
goes on with what is left. `s` holds the item as ended. -/
def State.cutTiles (s : State) (d : Nat) : State :=
  if s.corr.frame.isNone then s else
  let x := s.die d
  let before : State := { s with ended := s.ended.drop 1 }
  let l := (before.unfinished d).filter (fun p => s.tileCut d p.1 p.2)
  let run := x.running.isSome && l.contains (s.dieChannel d x.k, x.tile)
  let s1 := s.skipTiles d l
  let y : StallDie := if run then { s1.die d with running := none, busy := x.busy + aclk (s.now - x.running.getD s.now) } else s1.die d
  s1.setDie d (s1.seekTile d (s1.tileCount d) y)

/-- BUSY and WAIT at the start of slot 1,022 (R162): the cycles of an abandoned tile-channel, or those that the array idled for one
that never started. -/
def State.overrunCycles (s : State) (x : StallDie) (left : Bool) : Nat × Nat :=
  match x.running with
  | some t0 => (aclk (s.slotAt 1022 - t0), 0)
  | none => (0, if left && !x.closed then aclk (s.slotAt 1022 - max (s.slotAt 3) (x.ended.getD 0)) else 0)

/-- A die abandons what it has not completed (R34). -/
def State.overrunDie (s : State) (d : Nat) : State :=
  let l := s.unfinished d
  let x := s.die d
  let s1 := s.skipTiles d l
  let (busy, wait) := s.overrunCycles x (l != [])
  let s2 := (s1.setDie d { s1.die d with k := s1.dieChannels d, tile := 0, running := none, busy := x.busy + busy,
                                         wait := x.wait + wait }).raiseIf (wait != 0) (STL.STAT_WAIT d)
  if x.closed then s2 else if s2.fld (STL.STATUS_STATE d) = 1 then s2.setFld (STL.STATUS_STATE d) 0 else s2

def execStallOverrun (t : Nat) (s : State) : Out3 :=
  let s := s.at t
  doneIf s (decide (1022 ≤ s.slotNow) && s.corr.frame.isSome) (fun s =>
    s.each (List.range 6) (fun s d => s.overrunDie d))

/-! ## Bells: frames, runs and dumps (R32, R36, R171 to R178) -/

def State.dumpN (s : State) : Nat := max 1 (s.fld (STL.DUMP_N_N 0))

/-- F_max (R171). -/
def State.fMax (s : State) : Nat := (2 ^ 32 - 1) / s.specW

/-- FRAME_SHORT and the skip counters at bell f + 2 of the frame f that was correlated (R36); the skips go to its run. -/
def State.frameShort (s : State) : State :=
  let k (d : Nat) := Store.getD s.skips d 0
  if (List.range 6).all (fun d => k d == 0) then s
  else
    let s1 := s.each (List.range 6) (fun s d => if k d = 0 then s else s.bump (BEL.SKIP d) (k d))
    let run := Store.getD s.skips 8 0 + ((List.range 6).map k).sum
    ({ s1 with skips := [(8, run)] }.bump BEL.SHORT_CNT 1).raise BEL.STAT_FRAME_SHORT

/-- The dump that fills is complete (R175). -/
def State.completeDump (s : State) : State :=
  match s.corr.filling with
  | some d =>
    let s1 := s.setCorr { s.corr with filling := none, feed := false, last := some d }
    let s2 := (s1.setRegN (STL.DSEQ 0) d.q).raise (STL.STAT_DUMP 0)
    s2.setOuts { s2.outs with dumps := s2.outs.dumps ++ [d] }
  | none => s.setCorr { s.corr with feed := false }

/-- The descriptor of the run that ends (R177), with what the dump event samples (R237, R241). -/
def State.runDump (s : State) (forced : Bool) : Dump :=
  let skip := Store.getD s.skips 8 0
  let fl := s.corr.runFlags
  { q := s.corr.nextQ, first := s.corr.runFirst, nfr := s.corr.runFrames.length, forced := forced, short := decide (0 < skip),
    skip := min skip (2 ^ 32 - 1), stale := fl.testBit flagStale, step := fl.testBit flagStep,
    poison := false, isFirst := s.corr.isFirst, dieOut := fl.testBit flagDieOut, fmt := s.fld OUT.DUMP_FMT,
    corr := s.flag OUT.DUMP_CORR && s.fld OUT.DUMP_FMT != 0, manif := s.flag OUT.DUMP_MANIF, dbank := s.fld CAL.STATUS_DBANK }

/-- Per-die work of a frame starts afresh; BUSY and WAIT report the frame before. -/
def State.freshDie (s : State) (d : Nat) : State :=
  let x := s.die d
  let s1 := (s.setRegN (STL.BUSY d) x.busy).setRegN (STL.WAIT d) x.wait
  s1.setDie d { StallDie.reset with closed := x.closed, ended := x.ended, out := x.out }

/-- A closed die without a spare leaves channels out of frame f (R178). -/
def State.dieOutOf (s : State) : Bool :=
  (List.range 6).any (fun d => (s.die d).closed && s.fld (STL.CFG_LPOS d) != 7 && s.dieChannels d != 0)

/-- The frame f whose stall work starts at this bell begins a run under R174, ends one, or goes on with it (R32, R172); the flags
noted for it go to its run (R177). The result says whether a regular dump event was made. -/
def State.runEvent (s : State) (f : Nat) : State × Bool :=
  let c := s.corr
  let n := s.dumpN
  let fl := Store.getD s.frameFlags f 0
  let s0 : State := { s with frameFlags := Store.del s.frameFlags f }
  let new : State := { s0 with skips := [] }
  if c.fresh then
    ((new.setCorr { c with fresh := false, runFirst := f, runFrames := [f], runFlags := fl, isFirst := true, replacing := true, filling := none,
                           begun := false, got := [], owed := [] }).raise (STL.STAT_FIRST 0), false)
  else
    let regular : Bool := match c.runFrames with | g :: _ => g / n != f / n | [] => false
    let forced := !regular && decide (s.fMax ≤ c.runFrames.length)
    if regular || forced then
      let d := s.runDump forced
      let s1 := new.setCorr { c with runFirst := f, runFrames := [f], runFlags := fl, isFirst := false, replacing := true, filling := some d,
                                     begun := false, got := [], owed := [], nextQ := (c.nextQ + 1) % 2 ^ 32,
                                     feed := regular && s.flag CAL.CTRL_EN }
      (s1.raiseIf forced (STL.STAT_FORCED 0), regular)
    else
      (s0.setCorr { c with runFrames := f :: c.runFrames, runFlags := c.runFlags ||| fl, replacing := false, filling := none, begun := false, got := [],
                           owed := [] }, false)

/-- What a bell does for correlation: `prev` is the frame that ended at it. The result says whether it is a regular dump event. -/
def State.corrBell (s : State) (prev : Option Nat) : State × Bool :=
  let s1 := if s.corr.frame.isSome then s.frameShort else s
  let s2 := s1.completeDump
  let s3 := s2.each (List.range 6) (fun s d => s.freshDie d)
  let s4 := s3.setCorr { s3.corr with frame := prev }
  match prev with
  | none => (s4, false)
  | some f =>
    let s5 := if s4.dieOutOf then s4.flagFrame f flagDieOut else s4
    let (s6, r) := s5.runEvent f
    (s6.setRegN (STL.RUN 0) s6.corr.runFrames.length, r)

/-- DBUF_STAT as it reads (R175, R239). -/
def State.dbufStat (s : State) : Nat :=
  let send (h : Nat) : Bool := match s.outs.dumps with | d :: _ => d.q % 2 == h | [] => false
  boolNat (send 0) + 2 * boolNat (send 1) + (match s.corr.filling with | some d => 4 * (d.q % 2) + 8 | none => 0)

/-- A read of DSEQ latches the descriptor of the last dump (R175). -/
def State.latchDump (s : State) : State :=
  match s.corr.last with
  | some d =>
    let flags := boolNat d.forced + 2 * boolNat d.short + 4 * boolNat d.stale + 8 * boolNat d.step + 16 * boolNat d.poison
      + 32 * boolNat d.isFirst + 64 * boolNat d.dieOut + 128 * (d.q % 2)
    ((s.setPair (STL.DFIRST_LO 0) (STL.DFIRST_HI 0) d.first).setRegN (STL.DINFO 0) (d.nfr % 2 ^ 24 + 2 ^ 24 * flags)).setRegN
      (STL.DSKIP 0) d.skip
  | none => s

def execDseqRead (master : Nat) (s : State) : Out3 :=
  done (s.latchDump.emit (.readData master (s.regN (STL.DSEQ 0))))

end Sys2Proof.Machine
end

