-- ==== Sys2Proof/Machine/Aisle.lean ====
section
/-! DEFINITION. The aisles (R182 to R202): the gain stage, phase contexts and their pages, beam voltages, requantisation,
detection and the float32 sums; the cut-off of aisle work (R37, R185). -/
namespace Sys2Proof.Machine

def State.setAisle (s : State) (a : Aisle) : State := { s with aisle := a }

/-- A beam or watch register as sampled at the last bell (R202, R210). -/
def State.sampled (s : State) (f : Fld) : Nat :=
  bits (Store.getD s.aisle.cfg f.reg (resetOf s.part s.serial f.reg)).toNat f.lo f.wid

/-- The bell samples BEAMb_CFG, SCALE, DET, TS and the watches. -/
def State.sampleBeams (s : State) : State :=
  s.setAisle { s.aisle with cfg := s.regs.filter (fun p =>
    decide ((0xE1000 ≤ p.1 ∧ p.1 < 0xE2000) ∨ (0xF1000 ≤ p.1 ∧ p.1 < 0xF1800))) }

/-! ## Directories and contexts (R189 to R193) -/

def State.ninAt (s : State) (page b : Nat) : Nat := Store.getD s.aisle.nin (page * 256 + b) 0

/-- BASE_b of a page (R191). -/
def State.baseAt (s : State) (page b : Nat) : Nat := ((List.range b).map (s.ninAt page)).sum

def State.ctxUsed (s : State) (page : Nat) : Nat := s.baseAt page 256

/-- CTX_FREE and BEAMb_INFO follow the directories (R193). -/
def State.showDirectory (s : State) : State :=
  let p := s.aisle.page.active
  (s.each (List.range 256) (fun t b =>
    if t.regN (AIS.BEAM_INFO b) = t.ninAt p b then t else t.setRegN (AIS.BEAM_INFO b) (t.ninAt p b))).setRegN AIS.CTX_FREE
      (262144 - s.ctxUsed (1 - p))

def ctxPageBase (page : Nat) : Nat := 0xFE0001000000 + page * 0x400000

def ctxPhi0 (c : Nat) : Nat := bits c 0 32
def ctxDphi (c : Nat) : Nat := bits c 32 32
def ctxInput (c : Nat) : Nat := bits c 64 13
def ctxBeam (c : Nat) : Nat := bits c 80 8
def ctxAmp (c : Nat) : Nat := bits c 88 8
def ctxValid (c : Nat) : Bool := c.testBit 96

/-- The contexts of beam b that are used, with the ignored ones and those of words that failed to read (R191). -/
def State.beamContexts (s : State) (b : Nat) : List Nat × Nat × Nat :=
  let page := s.aisle.page.active
  let a := ctxPageBase page + 16 * s.baseAt page b
  let n := s.ninAt page b
  let bad := s.badWords a (16 * n)
  let r := (List.range n).foldl (fun (z : List Nat × Nat × Nat × Option Nat) i =>
    let (l, ign, err, last) := z
    let p := a + 16 * i
    if bad.contains (p / 32) then (l, ign, err + 1, last)
    else
      let c := s.readN p 16
      let after : Bool := match last with | some m => decide (m < ctxInput c) | none => true
      if ctxValid c && ctxBeam c == b && after && decide (ctxInput c < s.canopyInputs)
      then (l ++ [c], ign, err, some (ctxInput c)) else (l, ign + 1, err, last)) ([], 0, 0, none)
  (r.1, r.2.1, r.2.2.1)

/-- A write of PCOMMIT (R192): the page is for frame f, before bell f + 1. -/
def State.contextCommit (s : State) (v : Nat) : State :=
  let f := s.fullFrame 31 (v / 2)
  if s.aisle.page.inUse false (v % 2) then
    (s.raise AIS.STAT_CTX_REJ).when (!s.beforeDeadline (f + 1)) (fun s => (s.raise AIS.STAT_CTX_LATE).raise BEL.STAT_CTX_LATE)
  else if s.beforeDeadline (f + 1) then s.setAisle { s.aisle with page := s.aisle.page.commit (v % 2) f }
  else (s.raise AIS.STAT_CTX_LATE).raise BEL.STAT_CTX_LATE

def execContextCommit (v : Word) (t : Nat) (s : State) : Out3 := done ((s.at t).contextCommit v.toNat)

/-- Bell f + 1: the strip changes to the page committed for frame f, or goes on with a stale one (R192). -/
def State.contextBell (s : State) (f : Nat) : State :=
  let p := s.aisle.page
  match p.committed f with
  | some k =>
    let s1 := s.setAisle { s.aisle with page := p.change f }
    let nin := (List.range 256).foldl (fun m b => Store.set 0 m ((1 - k) * 256 + b) (s1.ninAt k b)) s1.aisle.nin
    (s1.setAisle { s1.aisle with nin := nin }).showDirectory
  | none =>
    ((s.setAisle { s.aisle with page := { p with stale := p.frame.isSome } }).raise AIS.STAT_CTX_LATE).raise BEL.STAT_CTX_LATE

/-- A write of BADD (R193). -/
def State.beamAdd (s : State) (v : Nat) : State :=
  let s1 := s.setRegN AIS.BADD (v % 2 ^ 27)
  if v.testBit 31 then
    let b := v % 256
    let n := bits v 8 19
    let page := 1 - s1.aisle.page.active
    let busy := Store.has s1.aisle.page.pend page
    let full := decide (262144 < s1.ctxUsed page - s1.ninAt page b + n)
    let res (r base : Nat) (t : State) : State := t.setRegN AIS.BADD_RES (r + 8 * base + 2 ^ 22 * b)
    if busy then (res 3 (s1.baseAt page b) s1).raise AIS.STAT_CTX_BUSY
    else if full then (res 2 (s1.baseAt page b) s1).raise AIS.STAT_CTX_FULL
    else
      let s2 := (s1.setAisle { s1.aisle with nin := Store.set 0 s1.aisle.nin (page * 256 + b) n }).showDirectory
      res 1 (s2.baseAt page b) s2
  else s1

def execBeamAdd (v : Word) (s : State) : Out3 := done (s.beamAdd v.toNat)

/-! ## Gain bank (R188) -/

/-- A write of GCOMMIT (R188). -/
def State.gainCommit (s : State) (v : Nat) : State :=
  if v.testBit 1 then
    if s.flag CAL.CTRL_AISLE_FB then s.raise AIS.STAT_GCMT_REJ
    else (s.setAisle { s.aisle with gpend := some (v % 2) }).setFlag AIS.GSTATUS_PEND true
  else s

def execGainCommit (v : Word) (s : State) : Out3 := done (s.gainCommit v.toNat)

/-- The bank changes at a bell (R188). -/
def State.gainBank (s : State) (bank : Nat) : State := (s.setFld AIS.GSTATUS_BANK bank).raise AIS.STAT_GAIN_SWAP

def State.gainBell (s : State) : State :=
  match s.aisle.gpend with
  | some b => ((s.setAisle { s.aisle with gpend := none }).setFlag AIS.GSTATUS_PEND false).gainBank b
  | none => s

/-! ## Passes (R182, R183, R185, R187) -/

/-- One component of R187: the result and whether it saturated. -/
def gainRound (gsh : Nat) (v : Int) : Int × Bool :=
  let q := roundAway (v * 2 ^ gsh) (2 ^ 12)
  (clampI (-2047) 2047 q, decide (q < -2047 ∨ 2047 < q))

/-- The gain-corrected sample of input n at spectrum t in window k; none where it is flagged. -/
def State.gainSample (s : State) (d k n t : Nat) : Option ((Int × Int) × Nat) :=
  let g := atD (Store.getD (s.die d).gains k []) n 0x8000
  if g % 65536 = 0x8000 then none
  else match s.winSample d k n t with
    | none => none
    | some (a, b) =>
      let gr := toSigned 16 g
      let gi := toSigned 16 (g / 65536)
      let gsh := min 4 (s.fld AIS.CTRL_GSH)
      let x := gainRound gsh (a * gr - b * gi)
      let y := gainRound gsh (a * gi + b * gr)
      some ((x.1, y.1), boolNat x.2 + boolNat y.2)

/-- The passes of die d in order: (k, beam tile). -/
def State.passList (s : State) (d : Nat) : List (Nat × Nat) :=
  (List.range (s.dieChannels d)).flatMap (fun k => s.beamTiles.map (fun g => (k, g)))

def StallDie.over (x : StallDie) (p : Nat × Nat) : Bool := x.done.contains (p.1 * 8 + p.2) || x.cut.contains (p.1 * 8 + p.2)

def State.nextPass (s : State) (d : Nat) : Option (Nat × Nat) := (s.passList d).find? (fun p => !(s.die d).over p)

/-- The aisle entries of the schedule that cover a pass, by number. -/
def State.aisleItems (s : State) (tile chan : Nat) : List (Nat × SchedEntry) := s.itemsFor 0x0E [tile, chan]

/-- A pass may start (R28, R183). -/
def State.passReady (s : State) (d : Nat) (p : Nat × Nat) : Bool :=
  let x := s.die d
  s.works (3 + d) (13 + d) && !x.closed && x.pass.isNone && s.corr.frame.isSome && decide (3 ≤ s.slotNow)
    && Store.getD x.wins p.1 0 == s.blocks
    && s.itemOpen 0x0E [p.2, s.dieChannel d p.1]

/-- Contexts go to the strip and the pass starts: ignored contexts, window-store errors and gain-stage saturations are counted
(R159, R187, R191). -/
def State.startPass (s : State) (d k g : Nat) : State :=
  let cs := (List.range 32).map (fun i => s.beamContexts (32 * g + i))
  let ign := (cs.map (·.2.1)).sum
  let err := (cs.map (·.2.2)).sum
  let s1 := if ign = 0 then s else (s.bump AIS.CTX_IGN ign).raise AIS.STAT_CTX_IGN
  let s2 := if err = 0 then s1 else (s1.bump AIS.MEM_CNT err).raise AIS.STAT_MEM_ERR
  let s3 := s2.each (List.range s2.blocks) (fun t b => t.windowErrors d k b)
  let sat := ((List.range s3.specW).map (fun t => ((List.range s3.canopyInputs).map (fun n =>
    match s3.gainSample d k n t with | some y => y.2 | none => 0)).sum)).sum
  let s4 := if sat = 0 then s3 else (s3.bump AIS.GSAT_CNT sat).raise AIS.STAT_GSAT
  s4.setDie d { s4.die d with pass := some (k, g, s4.now) }

def execAislePassStart (die t : Nat) (s : State) : Out3 :=
  let s := s.at t
  match s.nextPass die with
  | some p => doneIf s (decide (die < 6) && s.passReady die p) (fun s => s.startPass die p.1 p.2)
  | none => done s

/-! ## Beam voltages (R190, R194 to R196) -/

/-- 8 × AMP × exp(−iθ) for canopy channel c (R190). -/
def beamWeight (ctx c : Nat) : Int × Int :=
  let th := (ctxPhi0 ctx + c * ctxDphi ctx) % 2 ^ 32
  let p := (th + 2 ^ 19) / 2 ^ 20 % 4096
  let (x, y) := cosSin (8 * ctxAmp ctx) 12 p
  (x, -y)

/-- V and n_v of a beam at spectrum t (R194): `w` holds its inputs with their weights. -/
def State.beamVoltage (s : State) (d k t : Nat) (w : List (Nat × Int × Int)) : (Int × Int) × Nat :=
  w.foldl (fun (z : (Int × Int) × Nat) p =>
    match s.gainSample d k p.1 t with
    | some (y, _) => ((z.1.1 + (p.2.1 * y.1 - p.2.2 * y.2), z.1.2 + (p.2.1 * y.2 + p.2.2 * y.1)), z.2 + 1)
    | none => z) ((0, 0), 0)

/-- The voltages of beam b over the first `formed` spectra; none where a sample is flagged (R192, R195). -/
def State.beamSamples (s : State) (d k b formed : Nat) : List (Option (Int × Int)) :=
  let c := s.localChannels.getD (s.dieChannel d k) 0
  let w := ((s.beamContexts b).1.filter (fun x => ctxAmp x != 0)).map (fun x => (ctxInput x, beamWeight x c))
  let minv := max 1 (s.sampled (AIS.BEAM_CFG_MINV b))
  (List.range s.specW).map (fun t =>
    if t < formed && s.aisle.page.frame.isSome then
      let (v, n) := s.beamVoltage d k t w
      if n < minv then none else some v
    else none)

/-- An 8+8 beam sample (R195): its bytes and the components that saturated. -/
def State.beamRequant (s : State) (b : Nat) (v : Option (Int × Int)) : List Byte × Nat :=
  match v with
  | none => ([0x80#8, 0x80#8], 0)
  | some (x, y) =>
    let f (z : Int) : Int := roundAway (z * s.sampled (AIS.BEAM_SCALE_S b)) (2 ^ (12 + s.sampled (AIS.BEAM_SCALE_SH b)))
    let a := clampI (-127) 127 (f x)
    let c := clampI (-127) 127 (f y)
    ([BitVec.ofNat 8 (ofSigned 8 a), BitVec.ofNat 8 (ofSigned 8 c)], (if a = f x then 0 else 1) + (if c = f y then 0 else 1))

/-- CTX_STALE (R192): no commit was accepted for the frame, the frames before the first page is used among them. -/
def State.staleContexts (s : State) : Bool := s.aisle.page.stale || s.aisle.page.frame.isNone

/-- The BEAMV packets of a beam in a pass, one for each 4,096 spectra (R242). -/
def State.queueBeam (s : State) (b chan formed : Nat) (cut : Bool) (v : List (Option (Int × Int))) : State :=
  let r := v.map (s.beamRequant b)
  let sat := (r.map (·.2)).sum
  let s1 := if sat = 0 then s else (s.bump AIS.BSAT_CNT sat).raise AIS.STAT_BSAT
  let n := min 4096 s1.specW
  let m0 := s1.corr.frame.getD 0 * s1.specW
  let pk := (List.range (s1.specW / n)).map (fun i =>
    { beam := b, chan := chan, first := m0 + i * n, samples := ((r.drop (i * n)).take n).flatMap (·.1),
      cut := cut && decide (formed < (i + 1) * n), stale := s1.staleContexts : BeamPkt })
  s1.setAisle { s1.aisle with beamv := s1.aisle.beamv ++ pk }

/-- The power of a voltage (R196). -/
def powerOf (v : Int × Int) : Nat :=
  let a := f32ofInt v.1
  let b := f32ofInt v.2
  f32add (f32mul a a) (f32mul b b)

/-- The terms of beam b (R196): DIFF for even beams only. -/
def State.termsOf (s : State) (b : Nat) (v : List (Option (Int × Int))) (next : List (Option (Int × Int))) :
    List (Option Nat) :=
  if s.sampled (AIS.BEAM_CFG_DMODE b) = 1 ∧ b % 2 = 0 then
    (v.zip next).map (fun p => match p.1, p.2 with
      | some x, some y => some (f32sub (powerOf x) (powerOf y))
      | _, _ => none)
  else v.map (fun x => x.map powerOf)

/-! ## Detected sums (R197 to R202) -/

/-- One level of the pairwise tree (R197). -/
def pairLevel : List Nat → List Nat
  | a :: b :: l => f32add a b :: pairLevel l
  | [a] => [f32add a 0]
  | [] => []

def pairLevels : Nat → List Nat → List Nat
  | 0, l => l
  | k + 1, l => pairLevels k (pairLevel l)

/-- Levels until one value is left. -/
def pairDown : Nat → List Nat → Nat
  | 0, l => l.headD 0
  | k + 1, l => match l with
    | [] => 0
    | [a] => a
    | l => pairDown k (pairLevel l)

/-- Blocks of 4,096 leaves, each summed in 12 levels, and the block sums in the same way (R197). -/
def pairTree (l : List Nat) : Nat :=
  pairDown 12 ((List.range (ceilDiv l.length 4096)).map (fun k => (pairLevels 12 ((l.drop (4096 * k)).take 4096)).headD 0))

/-- A partial result between dies: sum, magnitude sum, terms, cross-die additions on its longest path (R198, R199). -/
structure DieSum where
  s : Nat
  a : Nat
  n : Nat
  x : Nat
deriving DecidableEq, Repr

def DieSum.add (p q : DieSum) : DieSum :=
  { s := f32add p.s q.s, a := f32add p.a q.a, n := p.n + q.n,
    x := max p.x q.x + (if p.n = 0 ∨ q.n = 0 then 0 else 1) }

def dieSum (l : List Nat) : DieSum := { s := pairTree l, a := pairTree (l.map f32abs), n := l.length, x := 0 }

/-- The cross-die order of the layout shape (R198). -/
def crossDie (shape : Nat) (d : Nat → DieSum) : DieSum :=
  match shape with
  | 0 => (((d 0).add (d 1)).add ((d 2).add (d 3))).add ((d 4).add (d 5))
  | 1 => (((d 0).add (d 1)).add ((d 2).add (d 3))).add (d 4)
  | _ => (d 0).add (d 1)

/-- ⌈log2 n⌉, 0 for n ≤ 1. -/
def clog2 (n : Nat) : Nat := if n ≤ 1 then 0 else Nat.log2 (n - 1) + 1

/-- |S| ≤ 2^−8 × A, compared exactly (R200): no ordering holds of a value that is not a number. -/
def isCanc (s a : Nat) : Bool :=
  f32val s != .nan && f32val a != .nan && !((((f32val a).mul (.fin false 1 (-8))).lt (f32val (f32abs s))))

/-- A record of R202. -/
def detRecord (s a n : Nat) (canc long part : Bool) (l : Nat) : Nat :=
  s + a * 2 ^ 32 + n * 2 ^ 64 + (boolNat canc + 2 * boolNat long + 4 * boolNat part + 8 * (l % 64)) * 2 ^ 96

def detS (r : Nat) : Nat := bits r 0 32
def detA (r : Nat) : Nat := bits r 32 32
def detN (r : Nat) : Nat := bits r 64 32
def detCanc (r : Nat) : Bool := r.testBit 96
def detLong (r : Nat) : Bool := r.testBit 97
def detPart (r : Nat) : Bool := r.testBit 98
def detL (r : Nat) : Nat := bits r 99 6

/-- G of beam b (R197). -/
def State.groupSize (s : State) (b : Nat) : Nat := s.sampled (AIS.BEAM_DET_GCM1 b) + 1

/-- T of beam b. -/
def State.timeSize (s : State) (b : Nat) : Nat := 2 ^ min (s.sampled (AIS.BEAM_TS_TSLOG b)) (s.fld (STL.ICFG_WLOG 0))

/-- The local channels of group h of beam b. -/
def State.groupChannels (s : State) (b h : Nat) : List Nat :=
  let g := s.groupSize b
  (List.range g).filterMap (fun i => if h * g + i < s.cLoc then some (h * g + i) else none)

/-- The logical position that holds local channel c (R179). -/
def State.positionOf (s : State) (c : Nat) : Nat :=
  match (List.range 6).find? (fun d => decide (s.dieChannel d 0 ≤ c ∧ c < s.dieChannel d (s.dieChannels d))) with
  | some d => s.fld (STL.CFG_LPOS d)
  | none => 0

/-- Output (h, u) of beam b (R197 to R202), with whether it is LONG and CANC. -/
def State.detectOut (s : State) (b h u : Nat) : Nat :=
  let t := s.timeSize b
  let leaves := (s.groupChannels b h).flatMap (fun c =>
    ((((Store.getD s.aisle.terms (b * 2 ^ 14 + c) []).drop (u * t)).take t).filterMap id).map (fun x => (s.positionOf c, x)))
  let long := decide (2 ^ 24 < leaves.length)
  let kept := leaves.take (2 ^ 24)
  let part (p : Nat) : List Nat := (kept.filter (fun q => q.1 == p)).map (·.2)
  let r := crossDie (s.fld (STL.ICFG_SHAPE 0)) (fun p => dieSum (part p))
  let nd := ((List.range 6).map (fun p => (part p).length)).foldl max 0
  let diff := s.sampled (AIS.BEAM_CFG_DMODE b) = 1 ∧ b % 2 = 0
  detRecord r.s r.a r.n (decide diff && isCanc r.s r.a) long false (clog2 nd + r.x)

/-- Every output of group h of beam b is formed; LONG and CANC are counted (R200, R201). -/
def State.formGroup (s : State) (b h : Nat) : State :=
  let l := (List.range (s.specW / s.timeSize b)).map (fun u => s.detectOut b h u)
  let long := (l.filter detLong).length
  let canc := (l.filter detCanc).length
  let s1 := s.setAisle { s.aisle with recs := Store.put s.aisle.recs (b * 2 ^ 14 + h) l }
  let s2 := if long = 0 then s1 else (s1.bump AIS.LONG_CNT long).raise AIS.STAT_LONG
  if canc = 0 then s2 else (s2.bump AIS.CANC_CNT canc).raise AIS.STAT_CANC

/-- The group is formed once the passes of all its channels have ended or been cut off. -/
def State.formIfReady (s : State) (b h : Nat) : State :=
  if Store.has s.aisle.recs (b * 2 ^ 14 + h) then s
  else if (s.groupChannels b h).all (fun c => Store.has s.aisle.terms (b * 2 ^ 14 + c)) then s.formGroup b h else s

/-- A pass is over with its first `formed` spectra (R182, R185, R195 to R197). -/
def State.finishPass (s : State) (d k g formed : Nat) (cut : Bool) : State :=
  let x := s.die d
  let key := k * 8 + g
  let run : Bool := match x.pass with | some (k', g', _) => k' == k && g' == g | none => false
  let x1 := { x with pass := if run then none else x.pass,
                     done := if cut then x.done else key :: x.done, cut := if cut then key :: x.cut else x.cut }
  let s1 := (s.setDie d x1).when cut (fun t => (t.bump AIS.CUT_CNT 1).raise AIS.STAT_AISLE_CUT)
  let chan := s1.dieChannel d k
  let beams := (List.range 32).map (fun i => (32 * g + i, s1.beamSamples d k (32 * g + i) formed))
  (beams.zip (beams.drop 1 ++ [(0, [])])).foldl (fun t p =>
    let b := p.1.1
    if s1.ninAt s1.aisle.page.active b = 0 then t
    else
      let t1 := if t.sampled (AIS.BEAM_CFG_OUTV b) = 1 then t.queueBeam b chan formed cut p.1.2 else t
      if t1.sampled (AIS.BEAM_CFG_DETEN b) = 1 then
        let terms := t1.termsOf b p.1.2 p.2.2
        let t2 := t1.setAisle { t1.aisle with terms := Store.put t1.aisle.terms (b * 2 ^ 14 + chan) terms }
        t2.formIfReady b (chan / t2.groupSize b)
      else t1) s1

def execAislePassEnd (die t : Nat) (s : State) : Out3 :=
  let s := s.at t
  match (s.die die).pass with
  | some (k, g, t0) =>
    doneIf s (decide (die < 6) && s.works (3 + die) (13 + die) && s.cyclesPassed t0 (max (s.blocks * s.specW) 4096)) (fun s =>
      s.finishPass die k g s.specW false)
  | none => done s

/-- Passes of the frame under way that `sel` names (beam tile, local channel) and that are not over are cut off (R37, R185). A running
pass has formed one spectrum in each R cycles. -/
def State.cutPasses (s : State) (sel : Nat → Nat → Bool) : State :=
  s.each (if s.corr.frame.isSome then List.range 6 else []) (fun s d =>
    (s.passList d).foldl (fun t p =>
      let x := t.die d
      if x.over p || !sel p.2 (t.dieChannel d p.1) then t
      else
        let formed := match x.pass with
          | some (k, g, t0) => if k = p.1 ∧ g = p.2 then min t.specW (aclk (t.now - t0) / max 1 t.blocks) else 0
          | none => 0
        t.finishPass d p.1 p.2 formed true) s)

/-- Every aisle pass of the frame is over. -/
def State.aislesOver (s : State) : Bool :=
  (List.range 6).all (fun d => (s.passList d).all (fun p => (s.die d).over p))

/-- A bell: the frame's terms and records start afresh; beams of a closed die without a spare are not formed (R185). -/
def State.aisleBell (s : State) (prev : Option Nat) : State :=
  let s1 := s.gainBell.sampleBeams
  let s2 := s1.setAisle { s1.aisle with terms := [], recs := [] }
  match prev with
  | some f => s2.contextBell f
  | none => s2

end Sys2Proof.Machine
end

