-- ==== Sys2Proof/Machine/Svc.lean ====
section
/-! DEFINITION. Frames on the service ports SVC0 and SVC1: sending, forwarding along the chain and discarding (R328, R329).
A frame is its bytes from the destination address to the end of the payload. -/
namespace Sys2Proof.Machine

def State.svcUp (s : State) (p : Nat) : Bool := s.flag (PTP.SVC_STATUS_UP p)

/-- SVC_MODE selects the chain. -/
def State.svcChain (s : State) : Bool := s.flag PTP.STATUS_CHAIN

/-- The service port an accepted frame from `port` is forwarded to: the other one. -/
def otherSvc (port : Nat) : Nat := 1 - port % 2

/-! ## Egress (R329) -/

def State.svcOut (s : State) (p : Nat) : SvcOut := atD s.ptp.egress p { freeAt := 0, frames := [] }

def State.setSvcOut (s : State) (p : Nat) (x : SvcOut) : State := { s with ptp := { s.ptp with egress := setAt s.ptp.egress p x } }

/-- How long a frame of n bytes takes at 10 Gb/s, 0.8 ns a byte, with its FCS, preamble and gap (those of IEEE 802.3: PRESUMED, log
entry 31). -/
def svcTime (n : Nat) : Nat := (n + 24) * 4 * ns / 5

/-- A frame begins on port p at device time u. -/
def State.svcBegin (s : State) (p u : Nat) (frame : List Byte) : State :=
  (s.setSvcOut p { s.svcOut p with freeAt := u + svcTime frame.length }).emit (.svcFrame p frame)

/-- The waiting frames that have begun by now leave, each as the one before it ends. -/
def State.svcLeave (s : State) (p : Nat) : List (List Byte) → State
  | [] => s.setSvcOut p { s.svcOut p with frames := [] }
  | f :: l =>
    let u := (s.svcOut p).freeAt
    if u ≤ s.up then (((s.svcBegin p u f).bump (PTP.SVC_FWD p) 1)).svcLeave p l
    else s.setSvcOut p { s.svcOut p with frames := f :: l }

def State.svcDrain (s : State) (p : Nat) : State := s.svcLeave p (s.svcOut p).frames

/-- A frame of the device's own leaves on a port that is up. -/
def State.svcSend (s : State) (p : Nat) (frame : List Byte) : State :=
  if s.svcUp p then
    let s1 := s.svcDrain p
    s1.svcBegin p (max (s1.svcOut p).freeAt s1.up) frame
  else s

/-- The egress buffer of port p has room for a frame: 256 KiB in all. -/
def State.svcRoom (s : State) (p : Nat) (frame : List Byte) : Bool :=
  decide (((s.svcOut p).frames.map (fun f => f.length + 4)).sum + frame.length + 4 ≤ 2 ^ 18)

/-- A frame from `port` is discarded (R329). -/
def State.svcDrop (s : State) (port : Nat) : State := (s.bump (PTP.SVC_DROP (port % 2)) 1).raise PTP.STAT_FWD_DROP

/-- A frame from `port` can go on to the other port: a chain, that port up, its buffer with room. -/
def State.svcOpen (s : State) (port : Nat) (frame : List Byte) : Bool :=
  let q := otherSvc port
  s.svcChain && s.svcUp q && (s.svcDrain q).svcRoom q frame

/-- A frame from `port` goes on to the other port, behind those that wait there, or is discarded (R329). -/
def State.svcForward (s : State) (port : Nat) (frame : List Byte) : State :=
  let q := otherSvc port
  if s.svcOpen port frame then
    let s1 := s.svcDrain q
    (s1.setSvcOut q { s1.svcOut q with freeAt := max (s1.svcOut q).freeAt (if (s1.svcOut q).frames = [] then s1.up else 0),
                                       frames := (s1.svcOut q).frames ++ [frame] }).svcDrain q
  else s.svcDrop port

/-- Device time at station time t. -/
def State.upAt (s : State) (t : Nat) : Nat := s.up + (t - s.now)

/-- When a PTP event message that could leave port q at station time tx does so: once the frame being sent ends. -/
def State.eventTx (s : State) (q tx : Nat) : Nat := max tx (s.now + ((s.svcOut q).freeAt - s.up))

/-- A PTP event message from `port` goes on to the other port ahead of every frame that waits there, its first bit at tx (R329). -/
def State.svcForwardEvent (s : State) (port : Nat) (frame : List Byte) (tx : Nat) : State :=
  let q := otherSvc port
  if s.svcOpen port frame then (((s.svcDrain q).svcBegin q (s.upAt tx) frame).bump (PTP.SVC_FWD q) 1) else s.svcDrop port

/-- The 14-byte Ethernet header of the device's own frames: PTP.SRC_MAC is the source. -/
def State.svcHeader (s : State) (dest ethertype : Nat) : List Byte :=
  toBytesBE 6 dest ++ toBytesBE 2 (s.regN PTP.SRC_MAC_HI % 65536) ++ toBytesBE 4 (s.regN PTP.SRC_MAC_LO)
    ++ toBytesBE 2 ethertype

end Sys2Proof.Machine
end

