-- ==== Sys2Proof/Machine/Crown.lean ====
section
/-! DEFINITION. The crown (R203 to R210): candidates, ranking, records, triggers and canopy-wide watches. -/
namespace Sys2Proof.Machine

def State.setCrown (s : State) (c : Crown) : State := { s with crown := c }

def State.watchOn (s : State) (w : Nat) : Bool := s.sampled (CRN.WATCH_CFG_EN w) == 1
def State.watchWide (s : State) (w : Nat) : Bool := s.sampled (CRN.WATCH_CFG_SCOPE w) == 1

/-- Beam b has group h. -/
def State.hasGroup (s : State) (b h : Nat) : Bool := decide (h * s.groupSize b < s.cLoc)

/-- The candidates of watch w (R203): (beam, time sample). -/
def State.candidates (s : State) (w : Nat) : List (Nat × Nat) :=
  let first := s.sampled (CRN.WATCH_BEAMS_FIRST w)
  let h := s.sampled (CRN.WATCH_CFG_GROUP w)
  (List.range (s.sampled (CRN.WATCH_BEAMS_LAST w) + 1)).flatMap (fun b =>
    if first ≤ b && s.sampled (AIS.BEAM_CFG_DETEN b) == 1 && s.hasGroup b h then
      (List.range (s.specW / s.timeSize b)).map (fun u => (b, u))
    else [])

/-- The record of output u of group h of beam b; COUNT is 0 where no term was formed. -/
def State.detAt (s : State) (b h u : Nat) : Nat := atD (Store.getD s.aisle.recs (b * 2 ^ 14 + h) []) u 0

/-- The local candidates of a watch: (position, record). -/
def State.localValues (s : State) (w : Nat) : List (Nat × Nat) :=
  (s.candidates w).map (fun p =>
    (p.1 * s.specW + p.2 * s.timeSize p.1, s.detAt p.1 (s.sampled (CRN.WATCH_CFG_GROUP w)) p.2))

/-- The index of a candidate in crown partial frames (R208). -/
def State.candidateIndex (s : State) (w : Nat) (p : Nat × Nat) : Nat :=
  (p.1 - s.sampled (CRN.WATCH_BEAMS_FIRST w)) * (s.specW / s.timeSize p.1) + p.2

/-- The local candidates of a watch with their indices: (index, position, record). -/
def State.indexedValues (s : State) (w : Nat) : List (Nat × Nat × Nat) :=
  ((s.candidates w).map (s.candidateIndex w)).zip (s.localValues w)

/-- A candidate is excluded (R203). -/
def State.excluded (s : State) (w r : Nat) : Bool :=
  decide (detN r < s.sampled (CRN.WATCH_MIN_COUNT w)) || (detCanc r && s.sampled (CRN.WATCH_CFG_EXCL_CANC w) == 1)
    || (detLong r && s.sampled (CRN.WATCH_CFG_EXCL_LONG w) == 1) || f32lt (detS r) (s.sampled (CRN.WATCH_TH_VALUE w))

/-- p ranks above q (R204). -/
def ranksAbove (p q : Nat × Nat) : Bool :=
  f32lt (detS q.2) (detS p.2) || (!f32lt (detS p.2) (detS q.2) && decide (p.1 < q.1))

def insertRank (p : Nat × Nat) : List (Nat × Nat) → List (Nat × Nat)
  | [] => [p]
  | q :: l => if ranksAbove p q then p :: q :: l else q :: insertRank p l

/-- The K best of a watch, in order (R204). -/
def State.rank (s : State) (w : Nat) (l : List (Nat × Nat)) : List (Nat × Nat) :=
  ((l.filter (fun p => !s.excluded w p.2)).foldl (fun a p => (insertRank p a).take (s.sampled (CRN.WATCH_CFG_KM1 w) + 1)) [])

/-- An entry of the crown record (R205). -/
def crownEntry (p : Nat × Nat) : List Byte :=
  toBytes 4 p.1 ++ toBytes 4 (detS p.2) ++ toBytes 4 (detA p.2)
    ++ toBytes 4 (detN p.2 % 2 ^ 25 + 2 ^ 25 * (boolNat (detCanc p.2) + 2 * boolNat (detLong p.2) + 4 * boolNat (detPart p.2)))

/-- Entry 0 triggers (R207). -/
def State.watchFires (s : State) (w : Nat) (l : List (Nat × Nat)) : Bool :=
  match l with
  | p :: _ =>
    s.sampled (CRN.WATCH_CFG_TRIG w) == 1 && s.sampled (CRN.WATCH_TTH_VALUE w) != 0x7F800000 && !f32lt (detS p.2) (s.sampled (CRN.WATCH_TTH_VALUE w))
      && f32val (s.sampled (CRN.WATCH_TTH_VALUE w)) != .nan
  | [] => false

/-- The record of watch w for frame f (R205, R209), its CROWN packet (R244), its trigger, and whether it found, triggered and lacked a
pitch. -/
def State.publishWatch (s : State) (f seq w : Nat) : State × Bool × Bool × Bool :=
  let wide := s.watchWide w
  let away := wide && !s.isLead
  let sums := Store.getD s.crown.sums w ([], 0)
  let cands := if away then [] else if wide then sums.1 else s.localValues w
  let l := s.rank w cands
  let part := cands.any (fun p => detPart p.2)
  let fire := s.watchFires w l
  let rec_ := toBytes 8 seq ++ toBytes 8 f
    ++ [BitVec.ofNat 8 w, BitVec.ofNat 8 (s.sampled (CRN.WATCH_CFG_KM1 w) + 1), BitVec.ofNat 8 l.length,
        BitVec.ofNat 8 (boolNat part + 2 * boolNat fire + 4 * boolNat wide + 8 * boolNat away)]
    ++ toBytes 4 0 ++ toBytes 8 (if wide then sums.2 else 0)
    ++ (l.flatMap crownEntry ++ List.replicate 256 0#8).take 256 ++ List.replicate 216 0#8 ++ toBytes 8 seq
  let a := s.regN CRN.RBASE_LO + s.fld CRN.RBASE_HI_ADDR * 2 ^ 32 + f % 16 * 32768 + w * 512
  let s1 := (s.dramWrite 3 a rec_).2
  let s2 := if fire then
      ((s1.trigger 1 (w + 256 * ((l.head?.map (·.1)).getD 0))).bump CRN.TRIG_CNT 1).raise CRN.STAT_TRIG
    else s1
  let s3 := s2.when (s2.works 1 27) (fun t => t.product 5 ([BitVec.ofNat 8 w] ++ toBytes 7 0 ++ toBytes 8 f) rec_ false)
  (s3, l != [], fire, part)

/-- The detected records of the frame go to the output engine (R243): by beam, group and time sample. -/
def State.queueDetected (s : State) (f : Nat) : State :=
  let l := s.aisle.recs.flatMap (fun p => p.2.zipIdx.map (fun q => (p.1 / 2 ^ 14, p.1 % 2 ^ 14, q.2, q.1)))
  if l = [] then s else s.setAisle { s.aisle with beamd := s.aisle.beamd ++ [{ frame := f, stale := s.staleContexts, cfg := s.aisle.cfg, recs := l }] }

/-- Groups that lack a channel (a closed die) are formed with the terms there are (R178, R185). -/
def State.formRest (s : State) : State :=
  s.each (List.range 256) (fun t b =>
    if t.sampled (AIS.BEAM_CFG_DETEN b) = 1 ∧ t.ninAt t.aisle.page.active b ≠ 0 then
      (List.range (ceilDiv t.cLoc (t.groupSize b))).foldl (fun t h =>
        if Store.has t.aisle.recs (b * 2 ^ 14 + h) then t else t.formGroup b h) t
    else t)

/-- The crown publishes frame f (R206). -/
def State.crownPublish (s : State) (f : Nat) : State :=
  let s0 := s.formRest
  let seq := (s0.crown.seq + 1) % 2 ^ 64
  let r := ((List.range 64).filter s0.watchOn).foldl (fun (z : State × Nat × Bool × Bool) w =>
    let (t, hit, fire, part) := z.1.publishWatch f seq w
    (t, z.2.1 + boolNat hit, z.2.2.1 || fire, z.2.2.2 || part)) (s0, 0, false, false)
  let (s1, hits, fire, part) := r
  let s2 := s1.setCrown { s1.crown with
    seq := seq, published := true,
    mb := s1.crown.mb.publish (fun q => [q, hits, boolNat fire, boolNat part, f]) }
  (s2.queueDetected f).raise CRN.STAT_DONE

def execCrownPublish (t : Nat) (s : State) : Out3 :=
  let s := s.at t
  match s.corr.frame with
  | some f =>
    let wide := s.isLead && (List.range 64).any (fun w => s.watchOn w && s.watchWide w)
    doneIf s (s.dramOpen && !s.crown.published && s.itemOpen 0x0F [] && s.aislesOver && (!wide || s.crown.ranked)) (fun s => s.crownPublish f)
  | none => done s

/-! ## Canopy-wide watches (R208, R209) -/

/-- A device value on the wire (R208): the 128-bit record of R202 in network byte order (DEDUCED, log entry 29). -/
def recordBytesBE (r : Nat) : List Byte := toBytesBE 16 r

/-- Values with consecutive indices share a frame, up to 92 in each: (index of the first, values). -/
def partialFrames (l : List (Nat × Nat)) : List (Nat × List Nat) :=
  (l.foldl (fun (a : List (Nat × List Nat)) p => match a with
    | q :: r => if p.1 = q.1 + q.2.length ∧ q.2.length < 92 then (q.1, q.2 ++ [p.2]) :: r else (p.1, [p.2]) :: a
    | [] => [(p.1, [p.2])]) []).reverse

/-- The crown partial frames of watch w (R208), on both ports. The destination address is not stated: a free value. -/
def State.sendPartials (s : State) (f w : Nat) : State :=
  s.each (partialFrames ((s.indexedValues w).map (fun p => (p.1, p.2.2)))) (fun t q =>
    let (dst, t1) := t.fresh 48
    let fr := t1.svcHeader dst 0x88B5 ++ toBytesBE 2 2 ++ [BitVec.ofNat 8 (t1.myPitch % 64), BitVec.ofNat 8 w]
      ++ toBytesBE 8 f ++ toBytesBE 4 q.1 ++ toBytesBE 2 q.2.length ++ toBytesBE 2 0 ++ q.2.flatMap recordBytesBE
    (t1.svcSend 0 fr).svcSend 1 fr)

def execCrownPartialTx (t : Nat) (s : State) : Out3 :=
  let s := s.at t
  match s.corr.frame with
  | some f =>
    doneIf s (!s.isLead && !s.crown.partSent && s.aislesOver) (fun s =>
      let s1 := s.formRest
      (s1.each ((List.range 64).filter (fun w => s1.watchOn w && s1.watchWide w)) (fun t w => t.sendPartials f w)).setCrown
        { s1.crown with partSent := true })
  | none => done s

/-- The lead takes the device values of a partial frame. -/
def State.takePartial (s : State) (pl : List Byte) : State :=
  let p := beAt pl 2 1 % 64
  let w := beAt pl 3 1
  let f := beAt pl 4 8
  let first := beAt pl 12 4
  let m := beAt pl 16 2
  if s.slotNow < 1012 ∧ some f = s.corr.frame ∧ w < 64 ∧ s.watchWide w ∧ s.crown.ranked = false then
    let key := w * 64 + p
    let l := (List.range m).foldl (fun a i => Store.put a (first + i) (beAt pl (20 + 16 * i) 16)) (Store.getD s.crown.parts key [])
    s.setCrown { s.crown with parts := Store.put s.crown.parts key l }
  else (s.bump CRN.LATE_CNT 1).raise CRN.STAT_LATE

/-- A crown partial frame arrives (R208): the lead consumes it, every other device forwards it. -/
def execCrownPartialRx (port : Nat) (frame : List Byte) (_room : Bool) (t : Nat) (s : State) : Out3 :=
  let s := s.at t
  let pl := frame.drop 14
  doneIf s (beAt frame 12 2 == 0x88B5 && beAt pl 0 2 == 2) (fun s =>
    if s.isLead then s.takePartial pl else s.svcForward port frame)

/-- A balanced pairwise tree, padded with +0 to a power of two (R198). -/
def balancedTree : Nat → List Nat → Nat
  | 0, l => l.headD 0
  | k + 1, l => f32add (balancedTree k (l.take (2 ^ k))) (balancedTree k (l.drop (2 ^ k)))

/-- The values of watch w of pitch q have all arrived (R209); the lead's own once its aisle work is over. -/
def State.pitchArrived (s : State) (w q : Nat) : Bool :=
  if q = s.myPitch then s.aislesOver
  else
    let l := Store.getD s.crown.parts (w * 64 + q) []
    (s.candidates w).all (fun p => Store.has l (s.candidateIndex w p))

/-- Candidate i of watch w, of beam b, summed over the pitches of `arrived` (R209): the record and the pitches whose values
entered. -/
def State.canopySum (s : State) (arrived : List Nat) (w b i own : Nat) : Nat × Nat :=
  let p := s.canopySize
  let got (q : Nat) : Option Nat :=
    if !arrived.contains q then none
    else if q = s.myPitch then some own else Store.get? (Store.getD s.crown.parts (w * 64 + q) []) i
  let step (z : List (Option Nat) × Nat × Bool) (q : Nat) : List (Option Nat) × Nat × Bool :=
    match got q with
    | some r => if z.2.2 || decide (2 ^ 24 < z.2.1 + detN r) then (z.1 ++ [none], z.2.1, true)
      else (z.1 ++ [some r], z.2.1 + detN r, false)
    | none => (z.1 ++ [none], z.2)
  let (vals, n, beyond) := (List.range p).foldl step ([], 0, false)
  let x (g : Nat → Nat) : List Nat := vals.map (fun v => (v.map g).getD 0)
  let k := clog2 p
  let sm := balancedTree k (x detS)
  let am := balancedTree k (x detA)
  let part := (List.range p).any (fun q => (got q).isNone)
  let long := beyond || vals.any (fun v => (v.map detLong).getD false)
  let diff := s.sampled (AIS.BEAM_CFG_DMODE b) == 1 && b % 2 == 0
  let depth := ((vals.map (fun v => (v.map detL).getD 0)).foldl max 0) + k
  (detRecord sm am n (diff && isCanc sm am) long part depth,
    ((List.range p).map (fun q => match atD vals q none with | some _ => 2 ^ q | none => 0)).sum)

/-- The lead ranks its canopy-wide watches at the start of slot 1,012 (R209). -/
def State.canopyRank (s : State) : State :=
  let s1 := s.when s.aislesOver State.formRest
  let s2 := s1.each ((List.range 64).filter (fun w => s1.watchOn w && s1.watchWide w)) (fun t w =>
    let arrived := (List.range t.canopySize).filter (t.pitchArrived w)
    let r := (t.indexedValues w).map (fun p => (p.2.1, t.canopySum arrived w (p.2.1 / t.specW) p.1 p.2.2))
    let parts := (r.filter (fun p => detPart p.2.1)).length
    let mask := r.foldl (fun m p => m ||| p.2.2) 0
    let t1 := t.setCrown { t.crown with sums := Store.put t.crown.sums w (r.map (fun p => (p.1, p.2.1)), mask) }
    if parts = 0 then t1 else (t1.bump CRN.PART_CNT parts).raise CRN.STAT_PART)
  s2.setCrown { s2.crown with ranked := true }

def execCrownCanopyRank (t : Nat) (s : State) : Out3 :=
  let s := s.at t
  doneIf s (s.isLead && s.corr.frame.isSome && !s.crown.ranked && decide (1012 ≤ s.slotNow)) (fun s => s.canopyRank)

/-- A bell: the crown starts on its next frame. -/
def State.crownBell (s : State) : State :=
  s.setCrown { s.crown with published := false, ranked := false, partSent := false, parts := [], sums := [] }

end Sys2Proof.Machine
end

