-- ==== Sys2Proof/Machine/Flags.lean ====
section
/-! DEFINITION. Every flag computation of the clerk cores' SR (R270, R272 to R276), and the arithmetic results they go
with. Accumulators are 40-bit words held as Nat. -/
namespace Sys2Proof.Machine

/-- SR bits (R270). -/
def srFRAC : Nat := 0
def srSLADAR : Nat := 1
def srIE : Nat := 4
def srAOV : Nat := 7
def srSAT : Nat := 8
def srSCL : Nat := 9
def srFERR : Nat := 10
def srZ : Nat := 11
def srN : Nat := 12

/-- SR.SC: 1 right 1, 2 left 1, 0 and 3 none. -/
def srSC (sr : Nat) : Nat := bits sr 2 2

/-- SR.LDEPTH: 3 acts as 2. -/
def srLDEPTH (sr : Nat) : Nat := min 2 (bits sr 5 2)

/-- The exact value of a 40-bit accumulator word. -/
def acc40 (v : Nat) : Int := toSigned 40 v

/-- An exact accumulator result, taken modulo 2^40, and whether it did not fit (AOV, R272). -/
def accResult (i : Int) : Nat × Bool :=
  (ofSigned 40 i, decide (i < -(2 ^ 39 : Int) ∨ (2 ^ 39 : Int) - 1 < i))

/-- Z and N of a 40-bit result, as the SR bits they set (R273). -/
def znBits (v : Nat) : Nat := (if v % 2 ^ 40 = 0 then 2 ^ srZ else 0) + (if v.testBit 39 then 2 ^ srN else 0)

/-- SR with Z and N replaced. -/
def srWithZN (sr zn : Nat) : Nat := putBits sr 11 2 (zn / 2 ^ 11)

/-- SR with sticky bits set. -/
def srSticky (sr m : Nat) : Nat := sr ||| m

/-- The product of MPY, MAC and MSU (R272), and whether it saturated. -/
def product (sr x y : Nat) : Int × Bool :=
  let p := toSigned 16 x * toSigned 16 y
  if sr.testBit srFRAC then
    if x = 0x8000 ∧ y = 0x8000 then (0x7FFFFFFF, true) else (2 * p, false)
  else (p, false)

/-- The Sladar shift of an accumulator read (R275). -/
def sladarShift (sr : Nat) (v : Int) : Int :=
  if sr.testBit srSLADAR then
    if srSC sr = 1 then v / 2 else if srSC sr = 2 then 2 * v else v
  else v

/-- Round to nearest of v / 2^16, ties away from zero (R274). -/
def roundHigh (v : Int) : Int :=
  if v < 0 then -((-v + 2 ^ 15) / 2 ^ 16) else (v + 2 ^ 15) / 2 ^ 16

/-- A read of an accumulator as a 16-bit word (R274, R275): the word, and the SAT and SCL bits it sets. -/
def accRead (sr : Nat) (rounded : Bool) (acc : Nat) : Nat × Nat :=
  let v := sladarShift sr (acc40 acc)
  let h := if rounded then roundHigh v else v / 2 ^ 16
  let r := ofSigned 16 (clampI (-32768) 32767 h)
  let sat := if h < -32768 ∨ 32767 < h then 2 ^ srSAT else 0
  let scl := if sr.testBit srSLADAR && (r.testBit 15 != r.testBit 14) then 2 ^ srSCL else 0
  (r, sat + scl)

/-- A 32-bit transfer from an accumulator (R274): clipped, with SAT when it clips; the Sladar shift comes first. -/
def accClip32 (sr acc : Nat) : Nat × Nat :=
  let v := sladarShift sr (acc40 acc)
  (ofSigned 32 (clampI (-(2 ^ 31)) (2 ^ 31 - 1) v),
    if v < -(2 ^ 31 : Int) ∨ (2 ^ 31 : Int) - 1 < v then 2 ^ srSAT else 0)

/-- One step of restoring division (R276). -/
def divStep (a d : Nat) : Nat :=
  let a := a * 2 % 2 ^ 40
  if d ≤ a / 2 ^ 16 then putBits ((a / 2 ^ 16 - d) * 2 ^ 16 + a % 2 ^ 16) 0 1 1 else a

end Sys2Proof.Machine
end

