-- ==== Sys2Proof/Machine/Operands.lean ====
section
/-! DEFINITION. The operand forms of the clerk cores: the instruction word's layout (R277), the move codes (R270), the
local address modes (R271) and the far address modes (R286). -/
namespace Sys2Proof.Machine

/-- The operations of R277. -/
inductive ClerkOp where
  | nop | br | brcc | call | ret | rti | loop | wait | halt | fence
  | mpy | mac | msu | dual
  | add | sub | neg | abs | clr | asl | asr | cmp | addd
  | divs | and | or | xor | add16 | sub16
  | mov | ld | st | ld2 | st2 | ldi | fld | fst | fsta
deriving DecidableEq, Repr

/-- Class and operation of an instruction word; none is ILLEGAL (R277). -/
def clerkDecode (w : Nat) : Option ClerkOp :=
  match bits w 28 4, bits w 24 4 with
  | 0, 0 => some .nop
  | 0, 1 => some .br
  | 0, 2 => if bits w 20 4 < 8 then some .brcc else none
  | 0, 3 => some .call
  | 0, 4 => some .ret
  | 0, 5 => some .rti
  | 0, 6 => some .loop
  | 0, 7 => some .wait
  | 0, 8 => some .halt
  | 0, 9 => some .fence
  | 1, o => match o / 4 with
    | 0 => some .mpy
    | 1 => some .mac
    | 2 => some .msu
    | _ => some .dual
  | 2, 0 => some .add
  | 2, 1 => some .sub
  | 2, 2 => some .neg
  | 2, 3 => some .abs
  | 2, 4 => some .clr
  | 2, 5 => some .asl
  | 2, 6 => some .asr
  | 2, 7 => some .cmp
  | 2, 8 => some .addd
  | 3, 0 => some .divs
  | 3, 1 => some .and
  | 3, 2 => some .or
  | 3, 3 => some .xor
  | 3, 4 => some .add16
  | 3, 5 => some .sub16
  | 4, 0 => some .mov
  | 5, 0 => if bits w 18 3 < 6 then some .ld else none
  | 5, 1 => if bits w 18 3 < 6 then some .st else none
  | 5, 2 => if bits w 18 3 < 6 then some .ld2 else none
  | 5, 3 => if bits w 18 3 < 6 then some .st2 else none
  | 6, 0 => some .ldi
  | 7, 0 => some .fld
  | 7, 1 => some .fst
  | 7, 2 => some .fsta
  | _, _ => none

/-- A register of a core by move code; the accumulators whole at 0x100 + a; the cycle counter at 0x300, the timer's
count at 0x301. -/
def Core.get (c : Core) (k : Nat) : Nat := Store.getD c.r k 0

def Core.put (c : Core) (k v : Nat) : Core := { c with r := Store.put c.r k v }

def Core.acc (c : Core) (a : Nat) : Nat := c.get (0x100 + a)

def Core.sr (c : Core) : Nat := c.get 0x40

def Core.d (c : Core) (k : Nat) : Nat := c.get k

/-- Is k a move code of R270? -/
def moveCode (k : Nat) : Bool :=
  k ≤ 0x23 || (0x40 ≤ k && k ≤ 0x52) || (0x58 ≤ k && k ≤ 0x6B) || (0x70 ≤ k && k ≤ 0x7B)

/-- The width of the register a move code names (R270). -/
def moveWidth (k : Nat) : Nat :=
  if k = 0x18 ∨ k = 0x1B ∨ k = 0x1E ∨ k = 0x21 then 8
  else if k = 0x40 then 13
  else if k = 0x41 ∨ k = 0x42 ∨ k = 0x45 ∨ k = 0x46 ∨ k = 0x48 ∨ k = 0x49 then 15
  else if k = 0x4A ∨ k = 0x4B then 32
  else 16

/-- What a move reads: its value, the SR bits the read sets, and the registers the read itself changes. -/
structure SrcRead where
  value : Nat
  sticky : Nat
  pop : Bool
  now : List (Nat × Nat)

/-- The source of a move (R270, R274): accumulator reads saturate; JOBQ pops; CYCL latches CYCH; DBELL clears. -/
def Core.source (c : Core) (k : Nat) : SrcRead :=
  if 0x10 ≤ k ∧ k ≤ 0x17 then
    let (v, st) := accRead c.sr (decide (0x14 ≤ k)) (c.acc (k % 4))
    ⟨v, st, false, []⟩
  else if 0x18 ≤ k ∧ k ≤ 0x23 then
    let a := c.acc ((k - 0x18) / 3)
    ⟨match (k - 0x18) % 3 with | 0 => bits a 32 8 | 1 => bits a 16 16 | _ => bits a 0 16, 0, false, []⟩
  else if k = 0x4C then ⟨match c.jobq with | [] => 0xFFFF | j :: _ => j, 0, true, []⟩
  else if k = 0x4D then ⟨0, 0, false, []⟩
  else if k = 0x4E then ⟨c.get 0x300 % 65536, 0, false, [(0x14F, c.get 0x300 / 65536 % 65536)]⟩
  else if k = 0x50 then ⟨c.get 0x301 % 65536, 0, false, []⟩
  else if k = 0x51 then ⟨c.get 0x301 / 65536 % 65536, 0, false, []⟩
  else if k = 0x52 then ⟨c.get 0x52, 0, false, [(0x152, 0)]⟩
  else ⟨c.get k, 0, false, []⟩

/-- A register write by move code, with the rules of its register (R270): whole accumulators at 0x100 + a, Z and N at
0x200, LDEPTH at 0x201, sticky bits at 0x202, CYCH's latch at 0x4F, a DBELL clear at 0x152. -/
def Core.write (c : Core) (k v : Nat) : Core :=
  if k < 0x10 then c.put k (v % 65536)
  else if k ≤ 0x17 then
    let a := ofSigned 40 (toSigned 16 v * 65536)
    (c.put (0x100 + k % 4) a).put 0x40 (srWithZN c.sr (znBits a))
  else if k ≤ 0x23 then
    let i := 0x100 + (k - 0x18) / 3
    match (k - 0x18) % 3 with
    | 0 => c.put i (putBits (c.get i) 32 8 v)
    | 1 => c.put i (putBits (c.get i) 16 16 v)
    | _ => c.put i (putBits (c.get i) 0 16 v)
  else if k = 0x4B then c.put k (c.get k - (c.get k &&& v % 2 ^ 32))
  else if k = 0x4C then c
  else if k = 0x4D then { c with done := v % 65536 :: c.done }
  else if k = 0x4E ∨ k = 0x4F ∨ k = 0x52 then c
  else if k = 0x14F then c.put 0x4F v
  else if k = 0x51 then c.put 0x301 (v % 65536 * 65536 + c.get 0x50)
  else if k = 0x152 then c.put 0x52 0
  else if 0x100 ≤ k ∧ k ≤ 0x103 then c.put k (v % 2 ^ 40)
  else if k = 0x200 then c.put 0x40 (srWithZN c.sr v)
  else if k = 0x201 then c.put 0x40 (putBits c.sr 5 2 v)
  else if k = 0x202 then c.put 0x40 (srSticky c.sr v)
  else c.put k (v % 2 ^ moveWidth k)

def Core.writeAll (c : Core) (l : List (Nat × Nat)) : Core := l.foldl (fun c p => c.write p.1 p.2) c

/-- Pk modified by m in its circular buffer (R271). -/
def Core.modify (c : Core) (k : Nat) (m : Int) : Nat :=
  let p : Int := c.get (8 + k)
  let l := min 32768 (c.get (0x60 + k))
  if l = 0 then ofSigned 16 (p + m)
  else
    let b : Int := c.get (0x58 + k)
    ofSigned 16 (b + (p - b + m) % (l : Int))

/-- A local access: the address, and Pk's new value where the mode modifies it (R271, class 0x5). -/
def Core.localAddr (c : Core) (w : Nat) : Nat × List (Nat × Nat) :=
  let k := bits w 13 3
  let p := c.get (8 + k)
  match bits w 18 3 with
  | 0 => (p, [])
  | 1 => (p, [(8 + k, c.modify k 1)])
  | 2 => (p, [(8 + k, c.modify k (-1))])
  | 3 => (p, [(8 + k, c.modify k (toSigned 16 (c.get (0x68 + bits w 16 2))))])
  | 4 => (ofSigned 16 (p + toSigned 8 (bits w 0 8)), [])
  | _ => (bits w 0 16, [])

/-- One operand of a dual fetch: the word address in its memory and Pk's new value (R271, R277). -/
def Core.dualAddr (c : Core) (k mod mreg : Nat) : Nat × List (Nat × Nat) :=
  let p := c.get (8 + k)
  let m := toSigned 16 (c.get (0x68 + mreg))
  (p % 32768, match mod with
    | 0 => []
    | 1 => [(8 + k, c.modify k 1)]
    | 2 => [(8 + k, c.modify k (-1))]
    | _ => [(8 + k, c.modify k m)])

/-- The far base FBk, 48 bits. -/
def Core.farBase (c : Core) (k : Nat) : Nat :=
  c.get (0x70 + 3 * k) + c.get (0x71 + 3 * k) * 2 ^ 16 + c.get (0x72 + 3 * k) * 2 ^ 32

/-- A far access: the address, and Pj's new value (R286). -/
def Core.farAddr (c : Core) (w : Nat) : Nat × List (Nat × Nat) :=
  let fb := c.farBase (bits w 22 2)
  if w.testBit 18 then
    let j := bits w 15 3
    ((fb + 4 * c.get (8 + j)) % 2 ^ 48,
      match bits w 13 2 with
      | 0 => []
      | 1 => [(8 + j, c.modify j 1)]
      | 2 => [(8 + j, c.modify j (-1))]
      | _ => [(8 + j, c.modify j (toSigned 16 (c.get 0x68)))])
  else ((fb + 4 * bits w 0 10) % 2 ^ 48, [])

/-- A word of XM or YM by data address (R268). -/
def Core.dm (c : Core) (a : Nat) : Nat :=
  if a % 65536 < 32768 then Store.getD c.xm (a % 65536) 0 else Store.getD c.ym (a % 65536 - 32768) 0

def Core.setDm (c : Core) (a v : Nat) : Core :=
  let e := Store.del c.errs (32768 + a % 65536)
  if a % 65536 < 32768 then { c with xm := Store.set 0 c.xm (a % 65536) (v % 65536), errs := e }
  else { c with ym := Store.set 0 c.ym (a % 65536 - 32768) (v % 65536), errs := e }

/-- The conditions of BRcc (R277). -/
def branchCond (sr cond : Nat) : Bool :=
  let z := sr.testBit srZ
  let n := sr.testBit srN
  match cond with
  | 0 => true
  | 1 => z
  | 2 => !z
  | 3 => n
  | 4 => !n
  | 5 => !n && !z
  | 6 => n || z
  | _ => sr.testBit srAOV

end Sys2Proof.Machine
end

