-- ==== Sys2Proof/Machine/Clerk.lean ====
section
/-! DEFINITION. The clerk cores' instructions (R268 to R291): one shared step that fetches at the PC, checks the faults of
R288 and applies the pipeline rules of R278 to R282, and one effect per instruction. A clerk command names its core and the
FCLK cycles since the core's last step; it acts when the word at the PC is that instruction (log entry 20). -/
namespace Sys2Proof.Machine

def State.core (s : State) (n : Nat) : Core := atD s.cores n Core.reset

def State.setCore (s : State) (n : Nat) (c : Core) : State := { s with cores := setAt s.cores n c }

/-- dc FCLK cycles pass for a core: CYC counts, TMR counts down to 0 and sets TIMER pending at the step from 1 to 0 (R283),
and the frame's busy count rises unless the core is in WAIT or HALTED. -/
def Core.advance (c : Core) (dc : Nat) : Core :=
  let tmr := c.get 0x301
  let c1 := c.put 0x300 ((c.get 0x300 + dc) % 2 ^ 32)
  let c2 := if tmr = 0 then c1 else c1.put 0x301 (tmr - dc)
  let c3 := if 0 < tmr ∧ tmr ≤ dc then c2.pend 3 else c2
  if c.st = 2 ∨ c.st = 5 then { c3 with busyNow := c3.busyNow + dc } else c3

/-- What an instruction does: register writes seen by the next instruction (`now`) and by the one after (`later`), local
memory writes, a far store, a branch it takes (target, RTI), whether the core goes to WAIT or halts, a fault code, a stall. -/
structure Eff where
  now : List (Nat × Nat) := []
  later : List (Nat × Nat) := []
  fwd : Option (Nat × Nat) := none
  noInt : Bool := false
  stores : List (Nat × Nat) := []
  far : Option (Nat × Nat) := none
  load : Option Nat := none
  pop : Bool := false
  branch : Option (Nat × Bool) := none
  wait : Bool := false
  halt : Bool := false
  stall : Bool := false
  reads : List Nat := []
  fault : Nat := 0

/-- An accumulator write by classes 0x1 to 0x3 (R272, R273, R278, R280): the next instruction still reads the old value, Z
and N; AOV is sticky at once. -/
def accWrite (a : Nat) (i : Int) (sticky : Nat) (fwd : Bool) : Eff :=
  let (v, ov) := accResult i
  { now := [(0x202, sticky + (if ov then 2 ^ srAOV else 0))], later := [(0x100 + a, v), (0x200, znBits v)],
    fwd := if fwd then some (a, v) else none, noInt := true }

/-- The accumulator that MAC, MSU and DIVS read: the forwarded result of R279, else the register. -/
def Core.accFwd (c : Core) (a : Nat) : Nat :=
  match c.fwd with
  | some (b, v) => if a = b then v else c.acc a
  | none => c.acc a

/-- The loads of a class 0x1 instruction (R277): X from XM by P0 to P3, Y from YM by P4 to P7; the Y load is written last. -/
def Core.dualLoads (c : Core) (w : Nat) (e : Eff) : Eff :=
  let ms := bits w 1 1
  let x := c.dualAddr (bits w 12 2) (bits w 10 2) ms
  let y := c.dualAddr (4 + bits w 4 2) (bits w 2 2) (2 + ms)
  let e := if w.testBit 17 then
      { e with now := e.now ++ x.2, later := e.later ++ [(bits w 14 3, Store.getD c.xm x.1 0)], noInt := true,
               reads := e.reads ++ [x.1] }
    else e
  if w.testBit 9 then
    { e with now := e.now ++ y.2, later := e.later ++ [(bits w 6 3, Store.getD c.ym y.1 0)], noInt := true,
             reads := e.reads ++ [32768 + y.1] }
  else e

/-- MPY, MAC and MSU (R272): `f` combines the accumulator with the product. -/
def Core.multiply (c : Core) (w : Nat) (f : Int → Int → Int) : Eff :=
  let (p, sat) := product c.sr (c.d (bits w 21 3)) (c.d (bits w 18 3))
  let a := bits w 24 2
  c.dualLoads w (accWrite a (f (acc40 (c.accFwd a)) p) (if sat then 2 ^ srSAT else 0) true)

def effMpy (c : Core) (w : Nat) : Eff := c.multiply w (fun _ p => p)
def effMac (c : Core) (w : Nat) : Eff := c.multiply w (fun a p => a + p)
def effMsu (c : Core) (w : Nat) : Eff := c.multiply w (fun a p => a - p)
def effDual (c : Core) (w : Nat) : Eff := c.dualLoads w {}

/-- Class 0x2 (R277): destination and source accumulators. -/
def Core.accOp (c : Core) (w : Nat) (f : Int → Int → Int) : Eff :=
  accWrite (bits w 22 2) (f (acc40 (c.acc (bits w 22 2))) (acc40 (c.acc (bits w 20 2)))) 0 false

def effAdd (c : Core) (w : Nat) : Eff := c.accOp w (fun a b => a + b)
def effSub (c : Core) (w : Nat) : Eff := c.accOp w (fun a b => a - b)
def effNeg (c : Core) (w : Nat) : Eff := c.accOp w (fun _ b => -b)
def effAbs (c : Core) (w : Nat) : Eff := c.accOp w (fun _ b => if b < 0 then -b else b)
def effClr (c : Core) (w : Nat) : Eff := c.accOp w (fun _ _ => 0)
def effAsl (c : Core) (w : Nat) : Eff := c.accOp w (fun _ b => b * 2 ^ bits w 0 6)
def effAsr (c : Core) (w : Nat) : Eff := c.accOp w (fun _ b => b / 2 ^ bits w 0 6)
def effAddd (c : Core) (w : Nat) : Eff := c.accOp w (fun a _ => a + toSigned 16 (c.d (bits w 17 3)) * 65536)

/-- CMP sets the flags of the difference and writes no accumulator, so the next instruction sees them (log entry 21). -/
def effCmp (c : Core) (w : Nat) : Eff :=
  let (v, ov) := accResult (acc40 (c.acc (bits w 22 2)) - acc40 (c.acc (bits w 20 2)))
  { now := [(0x200, znBits v), (0x202, if ov then 2 ^ srAOV else 0)] }

def effDivs (c : Core) (w : Nat) : Eff :=
  let a := bits w 22 2
  let v := divStep (c.accFwd a) (c.d (bits w 19 3))
  { later := [(0x100 + a, v), (0x200, znBits v)], fwd := some (a, v), noInt := true }

/-- D := D op D modulo 2^16 (R277). -/
def Core.dOp (c : Core) (w : Nat) (f : Nat → Nat → Nat) : Eff :=
  { now := [(bits w 19 3, f (c.d (bits w 19 3)) (c.d (bits w 16 3)) % 65536)] }

def effAnd (c : Core) (w : Nat) : Eff := c.dOp w (fun a b => a &&& b)
def effOr (c : Core) (w : Nat) : Eff := c.dOp w (fun a b => a ||| b)
def effXor (c : Core) (w : Nat) : Eff := c.dOp w (fun a b => a ^^^ b)
def effAdd16 (c : Core) (w : Nat) : Eff := c.dOp w (fun a b => a + b)
def effSub16 (c : Core) (w : Nat) : Eff := c.dOp w (fun a b => a + 65536 - b % 65536)

/-- A write by move code: into D or an accumulator it is seen by the next instruction, into P, B, L, M, FB or a special
register by the one after (R278); no interrupt comes between an accumulator write and the next instruction (R280). -/
def moveWrite (dst v : Nat) (e : Eff) : Eff :=
  if dst < 8 then { e with now := e.now ++ [(dst, v)] }
  else if 0x10 ≤ dst ∧ dst ≤ 0x23 then { e with now := e.now ++ [(dst, v)], noInt := true }
  else { e with later := e.later ++ [(dst, v)] }

/-- MOV (R270): an unassigned code is ILLEGAL. -/
def effMov (c : Core) (w : Nat) : Eff :=
  let dst := bits w 16 8
  let src := bits w 8 8
  if moveCode dst && moveCode src then
    let r := c.source src
    moveWrite dst r.value { now := r.now ++ [(0x202, r.sticky)], pop := r.pop }
  else { fault := 1 }

def effLdi (_ : Core) (w : Nat) : Eff :=
  if moveCode (bits w 16 8) then moveWrite (bits w 16 8) (bits w 0 16) {} else { fault := 1 }

def effLd (c : Core) (w : Nat) : Eff :=
  let (a, u) := c.localAddr w
  { now := u, later := [(bits w 21 3, c.dm a)], noInt := true, reads := [a] }

def effSt (c : Core) (w : Nat) : Eff :=
  let (a, u) := c.localAddr w
  { now := u, stores := [(a, c.d (bits w 21 3))] }

/-- A pair at address and address + 1 (R277): the even register of the pair at the first. -/
def effLd2 (c : Core) (w : Nat) : Eff :=
  let (a, u) := c.localAddr w
  let b := (a + 1) % 65536
  let k := 2 * bits w 21 2
  { now := u, later := [(k, c.dm a), (k + 1, c.dm b)], noInt := true, reads := [a, b] }

def effSt2 (c : Core) (w : Nat) : Eff :=
  let (a, u) := c.localAddr w
  let k := 2 * bits w 21 2
  { now := u, stores := [(a, c.d k), ((a + 1) % 65536, c.d (k + 1))] }

/-- A far load waits for every earlier far store, then is issued and stalls the core (R287). -/
def effFld (c : Core) (w : Nat) : Eff :=
  if c.storeQ = [] then { load := some (c.farAddr w).1, stall := true } else { stall := true }

/-- A far store is posted; a full queue of 16 stalls the core (R287). -/
def Core.farStore (c : Core) (w data : Nat) (sticky : Nat) : Eff :=
  if c.storeQ.length < 16 then
    let (a, u) := c.farAddr w
    { now := u ++ [(0x202, sticky)], far := some (a, data) }
  else { stall := true }

def effFst (c : Core) (w : Nat) : Eff :=
  let k := 2 * bits w 19 2
  c.farStore w (c.d k + c.d (k + 1) * 65536) 0

def effFsta (c : Core) (w : Nat) : Eff :=
  let (v, st) := accClip32 c.sr (c.acc (bits w 19 2))
  c.farStore w v st

def effNop (_ : Core) (_ : Nat) : Eff := {}
def effBr (_ : Core) (w : Nat) : Eff := { branch := some (bits w 0 15, false) }

/-- A BRcc that is not taken goes on after its two delay slots (R278). -/
def effBrcc (c : Core) (w : Nat) : Eff :=
  { branch := some (if branchCond c.sr (bits w 20 4) then bits w 0 15 else (c.pc + 3) % 32768, false) }

/-- CALL writes LR with the address after its second delay slot (R278). -/
def effCall (c : Core) (w : Nat) : Eff :=
  { now := [(0x41, (c.pc + 3) % 32768)], branch := some (bits w 0 15, false) }

def effRet (c : Core) (_ : Nat) : Eff := { branch := some (c.get 0x41, false) }
def effRti (c : Core) (_ : Nat) : Eff := { branch := some (c.get 0x42, true) }

/-- LOOP (R281): a count of 65,536 is written as 0. -/
def effLoop (c : Core) (w : Nat) : Eff :=
  let l := srLDEPTH c.sr
  let n := if w.testBit 23 then c.d (bits w 15 3) else bits w 15 8 + 1
  if l = 2 then { fault := 3 }
  else { now := [(0x201, l + 1), (0x44 + 3 * l, n % 65536), (0x45 + 3 * l, (c.pc + 1) % 32768), (0x46 + 3 * l, bits w 0 15)] }

def effWait (_ : Core) (_ : Nat) : Eff := { wait := true }
def effHalt (_ : Core) (_ : Nat) : Eff := { halt := true }
def effFence (c : Core) (_ : Nat) : Eff := if c.storeQ = [] then {} else { stall := true }

/-- The effect of each operation. -/
def clerkEff (op : ClerkOp) : Core → Nat → Eff :=
  match op with
  | .nop => effNop | .br => effBr | .brcc => effBrcc | .call => effCall | .ret => effRet | .rti => effRti | .loop => effLoop
  | .wait => effWait | .halt => effHalt | .fence => effFence | .mpy => effMpy | .mac => effMac | .msu => effMsu
  | .dual => effDual | .add => effAdd | .sub => effSub | .neg => effNeg | .abs => effAbs | .clr => effClr | .asl => effAsl
  | .asr => effAsr | .cmp => effCmp | .addd => effAddd | .divs => effDivs | .and => effAnd | .or => effOr | .xor => effXor
  | .add16 => effAdd16 | .sub16 => effSub16 | .mov => effMov | .ld => effLd | .st => effSt | .ld2 => effLd2 | .st2 => effSt2
  | .ldi => effLdi | .fld => effFld | .fst => effFst | .fsta => effFsta

/-- Class 0x0 operations other than NOP and FENCE, which R278 and R282 forbid in delay slots and at loop ends. -/
def ClerkOp.control : ClerkOp → Bool
  | .br | .brcc | .call | .ret | .rti | .loop | .wait | .halt => true
  | _ => false

/-- How far address b lies beyond a, as the PC counts (R268). -/
def pcGap (a b : Nat) : Nat := (b + 32768 - a % 32768) % 32768

/-- Does pc lie in the last three instructions of an active loop body (R282)? A body may run past 0x7FFF (R268). -/
def Core.nearLoopEnd (c : Core) : Bool :=
  (List.range (srLDEPTH c.sr)).any (fun l =>
    let first := c.get (0x45 + 3 * l)
    let last := c.get (0x46 + 3 * l)
    decide (pcGap first c.pc ≤ pcGap first last ∧ pcGap c.pc last < 3))

/-- The stop of a core (R288, R289): with far stores still queued it first completes them. -/
def State.stopCore (s : State) (n : Nat) (code : Nat) : State :=
  let c := s.core n
  if c.storeQ = [] then
    if code = 1 then (s.setCore n { c with st := 1, stopping := 0, haltNow := false, haltBell := false }).raise CLE.STAT_HALTED
    else ((s.setCore n { c with st := 4, stopping := 0, fault := code - 2, haltNow := false }).setRegN (CLE.CORE_FPC n) c.pc).raise
      CLE.STAT_CORE_FAULT
  else s.setCore n { c with st := 5, stopping := code }

/-- A boundary at which R280 permits an interrupt or a halt. -/
def Core.boundary (c : Core) : Bool := c.branch.isNone && !c.noInt && c.farLoad.isNone && c.st != 5

/-- A halt asked for takes effect at the first permitted boundary (R289). -/
def State.tryHalt (s : State) (n : Nat) : State :=
  let c := s.core n
  if c.haltNow && (c.boundary || c.st == 3) then s.stopCore n 1 else s

/-- Where the PC goes after the instruction at c.pc, with the delay slots of R278 and the loop end of R282. -/
def Core.goNext (c : Core) (e : Eff) : Core :=
  let pc1 := (c.pc + 1) % 32768
  match c.branch with
  | some (t, k, rti) =>
    if k ≤ 1 then
      let c := { c with pc := t, branch := none }
      if rti then c.put 0x40 (c.get 0x43 % 2 ^ 13) else c
    else { c with pc := pc1, branch := some (t, k - 1, rti) }
  | none =>
    match e.branch with
    | some (t, rti) => { c with pc := pc1, branch := some (t, 2, rti) }
    | none =>
      let l := srLDEPTH c.sr
      if l = 0 ∨ c.pc ≠ c.get (0x46 + 3 * (l - 1)) then { c with pc := pc1 }
      else
        let lc := 0x44 + 3 * (l - 1)
        if c.get lc = 1 then ({ c with pc := pc1 }).write 0x201 (l - 1)
        else ({ c with pc := c.get (0x45 + 3 * (l - 1)) }).put lc ((c.get lc + 65535) % 65536)

/-- The ECC errors met by an instruction fetch at pc and by reads of data words: none, corrected ones, or the fault code. -/
def Core.eccFault (c : Core) (keys : List Nat) (code : Nat) : Nat :=
  if keys.any (fun k => Store.getD c.errs k false) then code else 0

def Core.eccCorrect (c : Core) (keys : List Nat) : Nat :=
  (keys.filter (fun k => Store.has c.errs k && !(Store.getD c.errs k false))).length

/-- Corrected local-memory errors are counted, raised and gone (R288). -/
def State.eccCorrected (s : State) (n : Nat) (keys : List Nat) : State :=
  let c := s.core n
  let k := c.eccCorrect keys
  if k = 0 then s
  else ((s.setCore n { c with errs := c.errs.filter (fun p => p.2 || !(keys.contains p.1)) }).bump CLE.ECC_CNT k).raise CLE.STAT_ECC_CE

/-- An instruction's effect applied to its core (R278): the delayed writes of the one before become visible, then this one's. -/
def Core.apply (c : Core) (e : Eff) : Core :=
  let c1 := c.writeAll c.delayed
  let c2 := c1.writeAll e.now
  let c3 := e.stores.foldl (fun c p => c.setDm p.1 p.2) c2
  let c4 := { c3 with delayed := e.later, fwd := e.fwd, noInt := e.noInt, st := 2 }
  let c5 := if e.pop then { c4 with jobq := c4.jobq.drop 1 } else c4
  match e.far with
  | some st => { c5 with storeQ := c5.storeQ ++ [st] }
  | none => c5

/-- The rest of a core's step once the instruction's effect is known. -/
def State.clerkApply (s : State) (n : Nat) (e : Eff) : State :=
  let c := s.core n
  let ue := c.eccFault (e.reads.map (fun a => 32768 + a)) 7
  let s := s.eccCorrected n (e.reads.map (fun a => 32768 + a))
  let c := s.core n
  if e.fault ≠ 0 then s.stopCore n (2 + e.fault)
  else if ue ≠ 0 then s.stopCore n (2 + ue)
  else if e.stall then s.setCore n { c with st := 5, farLoad := e.load }
  else
    let c := (c.apply e).goNext e
    if e.halt then (s.setCore n c).stopCore n 1
    else if e.wait && (c.get 0x4A &&& c.get 0x4B) == 0 then (s.setCore n { c with st := 3 }).tryHalt n
    else (s.setCore n c).tryHalt n

/-- Core n takes its next step, if the instruction at its PC is one that `want` names (or meets a fault of R288): it runs only
in RUN, or in STALL with no far load out and no stop under way. -/
def State.clerkStep (s : State) (n dc : Nat) (want : ClerkOp → Nat → Bool) : State :=
  let s := if s.works 16 25 then s.setCore n ((s.core n).advance dc) else s
  let c := s.core n
  if n < 16 ∧ s.works 16 25 = true ∧ (c.st = 2 ∨ (c.st = 5 ∧ c.farLoad = none ∧ c.stopping = 0)) then
    let w := Store.getD c.pm c.pc 0
    if c.eccFault [c.pc] 6 ≠ 0 then s.stopCore n 8
    else
      match clerkDecode w with
      | none => (s.eccCorrected n [c.pc]).stopCore n 3
      | some op =>
        if want op w then
          let s := s.eccCorrected n [c.pc]
          if op.control && c.branch.isSome then s.stopCore n 4
          else if op.control && c.nearLoopEnd then s.stopCore n 6
          else s.clerkApply n (clerkEff op c w)
        else s
  else s

def execNop (core dc : Nat) (s : State) : Out3 := done (s.clerkStep core dc (fun o _ => o == .nop))
def execBr (core dc : Nat) (s : State) : Out3 := done (s.clerkStep core dc (fun o _ => o == .br))
def execBrcc (core dc : Nat) (s : State) : Out3 := done (s.clerkStep core dc (fun o _ => o == .brcc))
def execCall (core dc : Nat) (s : State) : Out3 := done (s.clerkStep core dc (fun o _ => o == .call))
def execRet (core dc : Nat) (s : State) : Out3 := done (s.clerkStep core dc (fun o _ => o == .ret))
def execRti (core dc : Nat) (s : State) : Out3 := done (s.clerkStep core dc (fun o _ => o == .rti))
def execLoop (core dc : Nat) (s : State) : Out3 := done (s.clerkStep core dc (fun o _ => o == .loop))
def execWait (core dc : Nat) (s : State) : Out3 := done (s.clerkStep core dc (fun o _ => o == .wait))
def execHalt (core dc : Nat) (s : State) : Out3 := done (s.clerkStep core dc (fun o _ => o == .halt))
def execFence (core dc : Nat) (s : State) : Out3 := done (s.clerkStep core dc (fun o _ => o == .fence))
def execMpy (core dc : Nat) (s : State) : Out3 := done (s.clerkStep core dc (fun o _ => o == .mpy))
def execMac (core dc : Nat) (s : State) : Out3 := done (s.clerkStep core dc (fun o _ => o == .mac))
def execMsu (core dc : Nat) (s : State) : Out3 := done (s.clerkStep core dc (fun o _ => o == .msu))
def execDualFetch (core dc : Nat) (s : State) : Out3 := done (s.clerkStep core dc (fun o _ => o == .dual))
def execAccAdd (core dc : Nat) (s : State) : Out3 := done (s.clerkStep core dc (fun o _ => o == .add))
def execAccSub (core dc : Nat) (s : State) : Out3 := done (s.clerkStep core dc (fun o _ => o == .sub))
def execNeg (core dc : Nat) (s : State) : Out3 := done (s.clerkStep core dc (fun o _ => o == .neg))
def execAbs (core dc : Nat) (s : State) : Out3 := done (s.clerkStep core dc (fun o _ => o == .abs))
def execClr (core dc : Nat) (s : State) : Out3 := done (s.clerkStep core dc (fun o _ => o == .clr))
def execAsl (core dc : Nat) (s : State) : Out3 := done (s.clerkStep core dc (fun o _ => o == .asl))
def execAsr (core dc : Nat) (s : State) : Out3 := done (s.clerkStep core dc (fun o _ => o == .asr))
def execCmp (core dc : Nat) (s : State) : Out3 := done (s.clerkStep core dc (fun o _ => o == .cmp))
def execAddd (core dc : Nat) (s : State) : Out3 := done (s.clerkStep core dc (fun o _ => o == .addd))
def execDivs (core dc : Nat) (s : State) : Out3 := done (s.clerkStep core dc (fun o _ => o == .divs))
def execAnd (core dc : Nat) (s : State) : Out3 := done (s.clerkStep core dc (fun o _ => o == .and))
def execOr (core dc : Nat) (s : State) : Out3 := done (s.clerkStep core dc (fun o _ => o == .or))
def execXor (core dc : Nat) (s : State) : Out3 := done (s.clerkStep core dc (fun o _ => o == .xor))
def execAdd16 (core dc : Nat) (s : State) : Out3 := done (s.clerkStep core dc (fun o _ => o == .add16))
def execSub16 (core dc : Nat) (s : State) : Out3 := done (s.clerkStep core dc (fun o _ => o == .sub16))
def execMov (core dc : Nat) (s : State) : Out3 := done (s.clerkStep core dc (fun o _ => o == .mov))
def execLd (core dc : Nat) (s : State) : Out3 := done (s.clerkStep core dc (fun o _ => o == .ld))
def execSt (core dc : Nat) (s : State) : Out3 := done (s.clerkStep core dc (fun o _ => o == .st))
def execLd2 (core dc : Nat) (s : State) : Out3 := done (s.clerkStep core dc (fun o _ => o == .ld2))
def execSt2 (core dc : Nat) (s : State) : Out3 := done (s.clerkStep core dc (fun o _ => o == .st2))
def execLdi (core dc : Nat) (s : State) : Out3 := done (s.clerkStep core dc (fun o _ => o == .ldi))
def execFld (core dc : Nat) (s : State) : Out3 := done (s.clerkStep core dc (fun o _ => o == .fld))
def execFst (core dc : Nat) (s : State) : Out3 := done (s.clerkStep core dc (fun o _ => o == .fst))
def execFsta (core dc : Nat) (s : State) : Out3 := done (s.clerkStep core dc (fun o _ => o == .fsta))

/-- JOBQ_POP (R291): the core's next instruction is a MOV whose source is JOBQ. -/
def execJobqPop (core dc : Nat) (s : State) : Out3 :=
  done (s.clerkStep core dc (fun o w => o == .mov && bits w 8 8 == 0x4C))

/-- JOB_DONE (R291): the core's next instruction is a MOV or LDI whose destination is JDONE. -/
def execJobDone (core dc : Nat) (s : State) : Out3 :=
  done (s.clerkStep core dc (fun o w => (o == .mov || o == .ldi) && bits w 16 8 == 0x4D))

/-- The lowest interrupt both pending and enabled (R284). -/
def Core.irq (c : Core) : Option Nat := (setBits 32 (c.get 0x4A &&& c.get 0x4B)).head?

/-- Interrupt entry (R284): IPC and ISR are saved, IE and LDEPTH cleared, the IPEND bit cleared (JOB stays while the queue is
not empty), and the PC goes to 4n. -/
def Core.enter (c : Core) (k : Nat) : Core :=
  let sr := c.sr
  let c1 := (c.put 0x42 c.pc).put 0x43 sr
  let c2 := c1.put 0x40 (putBits (setBit sr srIE false) 5 2 0)
  let c3 := c2.put 0x4B (setBit (c2.get 0x4B) k (k == 1 && !c.jobq.isEmpty))
  { c3 with pc := 4 * k, st := 2 }

def execInterruptEntry (core : Nat) (s : State) : Out3 :=
  let c := s.core core
  match c.irq with
  | some k =>
    doneIf s (core < 16 && s.works 16 25 && (c.st == 2 || c.st == 3) && c.boundary && c.sr.testBit srIE) (fun s => s.setCore core (c.enter k))
  | none => done s

/-- A core in WAIT with IE = 0 goes on after WAIT (R289). -/
def execCoreWake (core : Nat) (s : State) : Out3 :=
  let c := s.core core
  doneIf s (core < 16 && s.works 16 25 && c.st == 3 && !c.sr.testBit srIE && c.irq.isSome) (fun s => s.setCore core { c with st := 2 })

/-- dc FCLK cycles pass, in which TMR counts to 0 (R283). -/
def execTimerExpire (core dc : Nat) (s : State) : Out3 :=
  let c := s.core core
  doneIf s (core < 16 && s.works 16 25 && decide (0 < c.get 0x301) && decide (c.get 0x301 ≤ dc)) (fun s => s.setCore core (c.advance dc))

/-- A doorbell write (R283, COREn_DBELL): the bits are ORed in, and a write that is not zero pends DOORBELL. -/
def State.doorbell (s : State) (core : Nat) (v : Nat) : State :=
  let c := s.core core
  let b := v % 65536
  let c1 := c.put 0x52 (c.get 0x52 ||| b)
  s.setCore core (if b = 0 then c1 else c1.pend 2)

def execDoorbellWrite (core : Nat) (v : Word) (s : State) : Out3 := doneIf s (core < 16) (fun s => s.doorbell core v.toNat)

/-- A read of MDATA: the word MSEL and MADDR name, a corrected error of it counted (R288); MADDR then increments (R269). -/
def State.mdataRead (s : State) : Nat × State :=
  let c := s.core (s.fld CLE.MSEL_CORE)
  let a := s.fld CLE.MADDR_ADDR
  let v := match s.fld CLE.MSEL_MEM with
    | 0 => Store.getD c.pm a 0
    | 1 => Store.getD c.xm a 0
    | 2 => Store.getD c.ym a 0
    | _ => 0
  (v, (if s.fld CLE.MSEL_MEM ≤ 2 then s.eccCorrected (s.fld CLE.MSEL_CORE) [32768 * s.fld CLE.MSEL_MEM + a] else s).setFld
    CLE.MADDR_ADDR (a + 1))

/-- A write of MDATA (R269): PM only while the core is in RESET, HALTED or FAULT, else it is discarded with PM_WR. -/
def State.mdataWrite (s : State) (v : Nat) : State :=
  let n := s.fld CLE.MSEL_CORE
  let c := s.core n
  let a := s.fld CLE.MADDR_ADDR
  let s1 := match s.fld CLE.MSEL_MEM with
    | 0 =>
      if c.st = 0 ∨ c.st = 1 ∨ c.st = 4 then
        s.setCore n { c with pm := Store.set 0 c.pm a (v % 2 ^ 32), errs := Store.del c.errs a }
      else s.raise CLE.STAT_PM_WR
    | 1 => s.setCore n (c.setDm a v)
    | 2 => s.setCore n (c.setDm (32768 + a) v)
    | _ => s
  s1.setFld CLE.MADDR_ADDR (a + 1)

/-- Core n starts (R289): at ENTRY with its registers reset from RESET or FAULT or with RSTART = 1, else where it halted. -/
def State.startCore (s : State) (n : Nat) : State :=
  let c := s.core n
  if c.st = 1 ∧ s.flag (CLE.CORE_CTRL_RSTART n) = false then
    s.setCore n { c with st := 2, startBell := false, fault := 0, werr := false, haltNow := false, haltBell := false }
  else
    let c1 := { Core.reset with pm := c.pm, xm := c.xm, ym := c.ym, errs := c.errs, jobq := c.jobq, done := c.done,
                                busyNow := c.busyNow, faddr := c.faddr, st := 2, pc := s.fld (CLE.CORE_CTRL_ENTRY n) }
    s.setCore n (if c.jobq.isEmpty then c1 else c1.pend 1)

/-- A write of COREn_CTRL (R289): its fields are stored; RUN going or staying 1 starts a core that is in RESET, HALTED or FAULT
(at the next bell with SBELL), RUN = 0 halts it at the next permitted boundary or at the next bell. -/
def State.coreCtrl (s : State) (n : Nat) (v : Nat) : State :=
  let s1 := s.setRegN (CLE.CORE_CTRL n) (v % 2 ^ 19)
  let c := s1.core n
  if v.testBit 0 then
    if c.st = 0 ∨ c.st = 1 ∨ c.st = 4 then
      if v.testBit 3 then s1.setCore n { c with startBell := true } else s1.startCore n
    else s1.setCore n { c with haltNow := false, haltBell := false }
  else
    let c := { c with startBell := false }
    if c.st = 2 ∨ c.st = 3 ∨ c.st = 5 then
      if v.testBit 1 then s1.setCore n { c with haltBell := true }
      else (s1.setCore n { c with haltNow := true }).tryHalt n
    else s1.setCore n c

def execCoreRun (core : Nat) (v : Word) (s : State) : Out3 :=
  doneIf s (core < 16 && v.toNat.testBit 0) (fun s => s.coreCtrl core v.toNat)

def execCoreHalt (core : Nat) (v : Word) (s : State) : Out3 :=
  doneIf s (core < 16 && !v.toNat.testBit 0) (fun s => s.coreCtrl core v.toNat)

/-- CLE.FLAGS_SET and FLAGS_CLR (R292). -/
def execFlagsSet (v : Word) (s : State) : Out3 := done (s.setReg CLE.FLAGS (s.reg CLE.FLAGS ||| v))
def execFlagsClr (v : Word) (s : State) : Out3 := done (s.setReg CLE.FLAGS (s.reg CLE.FLAGS &&& ~~~v))

end Sys2Proof.Machine
end

