-- ==== Sys2Proof/Machine/Cal.lean ====
section
/-! DEFINITION. The calibration engine (R211 to R229): the solve of a channel in float32, its results and their installation,
solve windows and the summary mailbox. -/
namespace Sys2Proof.Machine

def State.setCal (s : State) (c : CalEng) : State := { s with cal := c }

def missing32 : Nat := 0x7FC00000
def one32 : Nat := 0x3F800000
def half32 : Nat := 0x3F000000

abbrev C32 := Nat × Nat

def cadd32 (a b : C32) : C32 := (f32add a.1 b.1, f32add a.2 b.2)
def csub32 (a b : C32) : C32 := (f32sub a.1 b.1, f32sub a.2 b.2)
def cnorm32 (a : C32) : Nat := f32add (f32mul a.1 a.1) (f32mul a.2 a.2)
def cfinite (a : C32) : Bool := f32finite a.1 && f32finite a.2
/-- A complex sum as two pairwise trees (R221). -/
def ctree (l : List C32) : C32 := (pairTree (l.map (·.1)), pairTree (l.map (·.2)))

/-- A float32 of a binary16, exact (R219). -/
def f16to32 (x : Nat) : Nat := f32 6 [x] (fpVal 11 5 x)

/-- round(4,096 × x), ties away from zero; none for a NaN. The flag says whether it saturated at ±32,767 (R224). -/
def aislePart (x : Nat) : Option (Int × Bool) :=
  match f32val x with
  | .nan => none
  | .inf neg => some (if neg then -32767 else 32767, true)
  | .fin neg m e =>
    let e := e + 12
    let v := if 0 ≤ e then (m : Int) * 2 ^ e.toNat else roundAway m (2 ^ (-e).toNat)
    let v := if neg then -v else v
    some (clampI (-32767) 32767 v, decide (v < -32767 ∨ 32767 < v))

/-! ## Controls, sampled at the window's first bell (R217) -/

def State.calCtl (s : State) (f : Fld) : Nat :=
  bits (Store.getD s.cal.cfg f.reg (resetOf s.part s.serial f.reg)).toNat f.lo f.wid

def State.maxIt (s : State) : Nat := clampN 1 64 (s.calCtl CAL.ITER_MAXIT)
def State.minIn (s : State) : Nat := max 2 (s.calCtl CAL.ITER_MININ)
def State.minBl (s : State) : Nat := max 1 (s.calCtl CAL.ITER_MINBL)
def State.masked (s : State) (i : Nat) : Bool := (s.calWord (CAL.INMASK (i / 32))).testBit (i % 32)

def State.calBase (s : State) (lo : Reg) (hi : Fld) : Nat := s.regN lo + s.fld hi * 2 ^ 32

/-! ## One channel (R218 to R223) -/

/-- The data of a channel: feed and model words by baseline index; none where missing or unusable. -/
structure CalData where
  v : Store C32
  m : Store C32
  unit : Bool

/-- The feed entries of channel c, and the model's where it is used, are loaded into calibration SRAM (R213); failing halves make
theirs missing (R212, R219). A channel that does not exist is not loaded. -/
def State.loadChannel (s : State) (c : Nat) : State :=
  if s.cLoc ≤ c then s else
  let b := s.baselines
  let a := s.calBase CAL.FEED_LO CAL.FEED_HI_ADDR + c * b * 8
  let (_, bad, s1) := s.dramRead 11 a (8 * b)
  let model := s1.calCtl CAL.CTRL_MODEL == 1
  let ma := s1.calBase CAL.MBASE_LO CAL.MBASE_HI_ADDR + c * b * 4
  let (badM, s2) := if model then (let r := s1.dramRead 11 ma (4 * b); (r.2.1, r.2.2)) else ([], s1)
  let errs := bad.length + badM.length
  let s3 := if errs = 0 then s2 else (s2.bump CAL.MEM_CNT errs).raise CAL.STAT_MEM_ERR
  let v := (List.range b).filterMap (fun k =>
    let p := a + 8 * k
    let z := (s3.readN p 4, s3.readN (p + 4) 4)
    if bad.contains (p / 32) || z == (missing32, missing32) then none else some (k, z))
  let m := if model then (List.range b).filterMap (fun k =>
      let p := ma + 4 * k
      let w := s3.readN p 4
      let z := (f16to32 (w % 65536), f16to32 (w / 65536))
      let zero := (f32val z.1).isZero && (f32val z.2).isZero
      if badM.contains (p / 32) || !cfinite z || zero then none else some (k, z))
    else []
  s3.setCal { s3.cal with bufs := Store.put s3.cal.bufs c (v, m) }

/-- The data that the double buffer holds of channel c. -/
def State.loaded (s : State) (c : Nat) : CalData :=
  let b := Store.getD s.cal.bufs c ([], [])
  { v := b.1, m := b.2, unit := s.calCtl CAL.CTRL_MODEL != 1 }

/-- V̄_ij and M_ij, conjugated for i > j; none where the baseline is not usable (R218). -/
def CalData.at (d : CalData) (i j : Nat) : Option (C32 × Option C32) :=
  let k := baselineIndex (min i j) (max i j)
  let c (z : C32) : C32 := if j < i then conj32 z else z
  match Store.get? d.v k with
  | none => none
  | some v =>
    if d.unit then some (c v, none)
    else match Store.get? d.m k with
      | none => none
      | some m => some (c v, some (c m))

/-- How a solve stands. -/
structure Solve where
  u : List Nat
  g : Store C32
  iter : Nat
  dd : Option Nat
  ee : Option Nat
  weak : List Nat
  /-- 0 going on, 1 converged, 2 all iterations made, 3 FEW, 4 NONFINITE. -/
  st : Nat

def Solve.gain (z : Solve) (i : Nat) : C32 := Store.getD z.g i (one32, 0)

/-- num and den of input i (R220), with whether each part of num is CANC. -/
def CalData.update (d : CalData) (z : Solve) (i : Nat) : C32 × Nat × Bool :=
  let t := (z.u.filter (· != i)).filterMap (fun j => (d.at i j).map (fun p =>
    let g := z.gain j
    let x := cmul32 p.1 g
    match p.2 with
    | none => (x, cnorm32 g)
    | some m => (cmul32 x (conj32 m), f32mul (cnorm32 g) (cnorm32 m))))
  let num := ctree (t.map (·.1))
  let mag : C32 := ctree (t.map (fun q => (f32abs q.1.1, f32abs q.1.2)))
  (num, pairTree (t.map (·.2)), isCanc num.1 mag.1 && isCanc num.2 mag.2)

/-- The first loop of an iteration, in ascending order (R220): the new gains, the inputs removed from U, the weak ones (R222), and 0, or
how the channel ended at once: 3 FEW where a removal leaves too few inputs, 4 NONFINITE. -/
structure NewGains where
  gn : List (Nat × C32)
  gone : List Nat
  weak : List Nat
  st : Nat

/-- Input i of an iteration over `n` inputs, with its num and den. -/
def NewGains.input (n minIn : Nat) (a : NewGains) (i : Nat) (up : C32 × Nat × Bool) : NewGains :=
  if a.st ≠ 0 then a
  else if !cfinite up.1 || !f32finite up.2.1 then { a with st := 4 }
  else if (f32val up.2.1).isZero then { a with gone := i :: a.gone, st := if n < minIn + (a.gone.length + 1) then 3 else 0 }
  else
    let q : C32 := (f32div up.1.1 up.2.1, f32div up.1.2 up.2.1)
    { a with gn := a.gn ++ [(i, q)], weak := if up.2.2 then a.weak ++ [i] else a.weak, st := if cfinite q then 0 else 4 }

/-- Iteration k of R220. One that ends the channel at once forms no dd and ee. -/
def CalData.iterate (d : CalData) (tol minIn maxIt : Nat) (z : Solve) : Solve :=
  let k := z.iter + 1
  let a := z.u.foldl (fun (a : NewGains) i => a.input z.u.length minIn i (d.update z i)) { gn := [], gone := [], weak := [], st := 0 }
  let u := z.u.filter (fun i => !a.gone.contains i)
  let gn := a.gn.map (fun p =>
    (p.1, if k % 2 = 0 then (let x := cadd32 p.2 (z.gain p.1); (f32mul x.1 half32, f32mul x.2 half32)) else p.2))
  let st := if a.st ≠ 0 then a.st else if gn.any (fun p => !cfinite p.2) then 4 else 0
  if st ≠ 0 then { u := u, g := z.g, iter := k, dd := none, ee := none, weak := a.weak, st := st }
  else
    let dd := pairTree (gn.map (fun p => cnorm32 (csub32 p.2 (z.gain p.1))))
    let ee := pairTree (gn.map (fun p => cnorm32 p.2))
    let g := gn.foldl (fun m p => Store.put m p.1 p.2) z.g
    let lim := f32mul (f32mul tol tol) ee
    let st := if !f32finite dd || !f32finite ee then 4
      else if 2 ≤ k && !f32lt lim dd && f32val lim != .nan then 1
      else if maxIt ≤ k then 2 else 0
    { u := u, g := g, iter := k, dd := some dd, ee := some ee, weak := a.weak, st := st }

/-- Iterations until the solve ends. -/
def CalData.run (d : CalData) (tol minIn maxIt : Nat) : Nat → Solve → Solve
  | 0, z => z
  | n + 1, z =>
    let y := d.iterate tol minIn maxIt z
    if y.st = 0 then d.run tol minIn maxIt n y else y

/-- ρ (R223). -/
def CalData.residual (d : CalData) (z : Solve) : Nat :=
  let row (i : Nat) : Nat × Nat :=
    let t := (z.u.filter (· != i)).filterMap (fun j => (d.at i j).map (fun p =>
      let w := cmul32 (z.gain i) (conj32 (z.gain j))
      let w := match p.2 with | none => w | some m => cmul32 w m
      (cnorm32 (csub32 p.1 w), cnorm32 p.1)))
    (pairTree (t.map (·.1)), pairTree (t.map (·.2)))
  let r := z.u.map row
  f32div (pairTree (r.map (·.1))) (pairTree (r.map (·.2)))

/-- Every gain turned to the phase of reference r (R223). -/
def Solve.refer (z : Solve) (r : Nat) : Solve :=
  let c := conj32 (z.gain r)
  let a := f32sqrt (cnorm32 (z.gain r))
  { z with g := z.u.foldl (fun m i => (let x := cmul32 (z.gain i) c; Store.put m i (f32div x.1 a, f32div x.2 a))) z.g }

/-- The outcome of a channel: status, the solve, ρ, and whether the reference was moved. -/
structure CalOut where
  status : Nat
  z : Solve
  rho : Option Nat
  moved : Bool

def State.gstAddr (s : State) (c n : Nat) : Nat := s.calBase CAL.GST_LO CAL.GST_HI_ADDR + (c * s.canopyInputs + n) * 8

/-- The gain that input n starts from (R220). -/
def State.startGain (s : State) (c n : Nat) : C32 :=
  let a := s.gstAddr c n
  let v := (s.readN a 4, s.readN (a + 4) 4)
  if s.calCtl CAL.CTRL_INIT = 1 ∧ Store.has s.cal.age c ∧ s.badWords a 8 = [] ∧ v ≠ (missing32, missing32) then v
  else (one32, 0)

/-- The solve of channel c before its first iteration: its usable inputs and the gains they start from (R218, R220). -/
def State.solve0 (s : State) (c : Nat) : Solve :=
  let d := s.loaded c
  let all := (List.range s.canopyInputs).filter (fun i => !s.masked i)
  let u := all.filter (fun i => decide (s.minBl ≤ (all.filter (fun j => j != i && (d.at i j).isSome)).length))
  { u := u, g := u.foldl (fun m i => Store.put m i (s.startGain c i)) [], iter := 0, dd := none, ee := none, weak := [], st := 0 }

/-- The solve of channel c (R218 to R223). -/
def State.solveChannel (s : State) (c : Nat) : CalOut :=
  let d := s.loaded c
  let z0 := s.solve0 c
  if z0.u.length < s.minIn then { status := 3, z := z0, rho := none, moved := false }
  else
    let z := d.run (s.calWord CAL.TOL) s.minIn s.maxIt s.maxIt z0
    if z.st = 3 ∨ z.st = 4 then { status := z.st, z := z, rho := none, moved := false }
    else
      let rho := d.residual z
      let r := s.calCtl CAL.REFIN_INPUT
      let moved := !z.u.contains r
      let y := z.refer (if moved then z.u.headD 0 else r)
      let nonfinite := !f32finite rho || y.u.any (fun i => !cfinite (y.gain i))
      let status := if nonfinite then 4 else if z.st = 2 then 1
        else if f32lt (s.calWord CAL.RESMAX) rho || f32val (s.calWord CAL.RESMAX) == .nan then 2 else 0
      { status := status, z := y, rho := some rho, moved := moved }

/-! ## Results (R222, R224 to R228) -/

/-- c_i = conj(g_i) / |g_i|² (R224). -/
def correctionOf (g : C32) : C32 :=
  let n := cnorm32 g
  (f32div g.1 n, f32div (f32neg g.2) n)

/-- An aisle word (R224): the parts that saturated are counted; the part of a NaN is a free value. -/
def State.aisleWord (s : State) (c : C32) : Nat × Nat × State :=
  let k := s.calWord CAL.GNORM
  let part (t : State) (x : Nat) : Nat × Nat × State :=
    match aislePart (f32mul k x) with
    | some (v, sat) => (ofSigned 16 v, boolNat sat, t)
    | none => let r := t.fresh 16; (r.1, 0, r.2)
  let (a, i, s1) := part s c.1
  let (b, j, s2) := part s1 c.2
  (a + b * 65536, i + j, s2)

/-- The gains, corrections and solutions of a channel with status OK (R224 to R227). -/
def State.storeGains (s : State) (c : Nat) (z : Solve) : State :=
  let n := s.canopyInputs
  let keep (i : Nat) : Bool := z.u.contains i && !z.weak.contains i
  let r := (List.range n).foldl (fun (p : List Byte × List Byte × List Byte × Nat × State) i =>
    let (gw, dc, gs, clips, t) := p
    let g := z.gain i
    let st := if z.u.contains i then toBytes 4 g.1 ++ toBytes 4 g.2 else toBytes 4 missing32 ++ toBytes 4 missing32
    if keep i then
      let x := correctionOf g
      let (w, k, t1) := t.aisleWord x
      (gw ++ toBytes 4 w, dc ++ toBytes 4 x.1 ++ toBytes 4 x.2, gs ++ st, clips + k, t1)
    else (gw ++ toBytes 4 0x8000, dc ++ toBytes 4 missing32 ++ toBytes 4 missing32, gs ++ st, clips, t)) ([], [], [], 0, s)
  let (gw, dc, gs, clips, s1) := r
  let s2 := (s1.dramWrite 11 (s1.gstAddr c 0) gs).2
  let s3 := if s2.flag CAL.STATUS_FB_ARMED then
      (s2.dramWrite 11 (s2.gainBase (1 - s2.fld AIS.GSTATUS_BANK) + c * n * 4) gw).2 else s2
  let s4 := if s3.flag CAL.STATUS_DC_ARMED then
      (s3.dramWrite 11 (s3.calBase CAL.DCOR_LO CAL.DCOR_HI_ADDR
        + (1 - s3.fld CAL.STATUS_DBANK) * (s3.regN CAL.DCOR_HALF * 4096) + c * n * 8) dc).2 else s3
  if clips = 0 then s4 else (s4.bump CAL.GCLIP_CNT clips).raise CAL.STAT_GCLIP

def State.solBase (s : State) : Nat := s.calBase CAL.SOL_LO CAL.SOL_HI_ADDR + s.cal.seq % 2 * 0x42000

/-- The record of channel c (R228). -/
def State.writeChannelRecord (s : State) (c status iter nuse nweak : Nat) (moved : Bool) (rho delta : Option Nat) : State :=
  let age := if status = 0 then 0 else min 255 ((match Store.get? s.cal.age c with | some a => a | none => 254) + 1)
  let w := status + 16 * boolNat (status != 0) + 32 * iter + 2 ^ 12 * boolNat moved + 2 ^ 16 * nuse
    + 2 ^ 32 * rho.getD missing32 + 2 ^ 64 * delta.getD missing32 + 2 ^ 96 * nweak + 2 ^ 109 * age
  let s1 := (s.dramWrite 11 (s.solBase + 16 + 16 * c) (toBytes 16 w)).2
  let a := if status = 0 then Store.put s1.cal.age c 0
    else match Store.get? s1.cal.age c with | some _ => Store.put s1.cal.age c age | none => s1.cal.age
  s1.setCal { s1.cal with age := a }

/-- The counter and event of a status (R223). -/
def State.countStatus (s : State) (status : Nat) : State :=
  match status with
  | 0 => s
  | 1 => (s.bump CAL.NOCONV_CNT 1).raise CAL.STAT_NOCONV
  | 5 => (s.bump CAL.UNFIN_CNT 1).raise CAL.STAT_UNFINISHED
  | _ => (s.bump CAL.FAIL_CNT 1).raise CAL.STAT_FAIL

/-- STATE 1 SOLVE while channels are left, 2 WAIT after the last (CAL.STATUS). -/
def State.calProgress (s : State) : State :=
  let s1 := s.setRegN CAL.PROG s.cal.next
  if s1.cal.next < s1.cLoc then (s1.setFld CAL.STATUS_STATE 1).setFld CAL.STATUS_CHAN s1.cal.next
  else (s1.setFld CAL.STATUS_STATE 2).setFld CAL.STATUS_CHAN (s1.cLoc - 1)

/-- dd / ee of the last iteration (R228). -/
def Solve.delta (z : Solve) : Option Nat :=
  match z.dd, z.ee with | some a, some b => some (f32div a b) | _, _ => none

/-- Channel c of the double buffer is done with, and the load of channel c + 2 begins as the iterations of c + 1 do (R213). -/
def State.swapBuffers (s : State) (c : Nat) : State :=
  (s.setCal { s.cal with bufs := Store.del s.cal.bufs c }).loadChannel (c + 2)

/-- The solve of the next channel ends (R222 to R228). -/
def State.endChannel (s : State) : State :=
  let c := s.cal.next
  let o := s.solveChannel c
  let delta := o.z.delta
  let weak := o.z.weak.length
  let s1 := s.swapBuffers c
  let s2 := if o.status = 0 then s1.storeGains c o.z else s1
  let s3 := s2.writeChannelRecord c o.status o.z.iter o.z.u.length weak o.moved o.rho delta
  let s4 := (s3.countStatus o.status).raiseIf o.moved CAL.STAT_REFMOVED
  let s5 := if weak = 0 then s4 else (s4.bump CAL.WEAK_CNT weak).raise CAL.STAT_WEAK
  (s5.setCal { s5.cal with next := c + 1, good := s5.cal.good + boolNat (o.status == 0),
                           failed := s5.cal.failed + boolNat (o.status != 0) }).calProgress

/-- Calibration is deferred in the running frame (R215, R378). -/
def State.calDeferred (s : State) : Bool :=
  s.deferred.any (fun k => (s.schedule[k]?.map (·.engine)) == some 0x10)

def execCalChannelEnd (t : Nat) (s : State) : Out3 :=
  let s := s.at t
  doneIf s (s.works 15 19 && s.dramOpen && s.cal.active && decide (s.cal.next < s.cLoc) && !s.calDeferred && s.itemOpen 0x10 [s.cal.next])
    (fun s => s.endChannel)

/-! ## Windows (R213, R216, R217, R225, R227 to R229) -/

/-- n bytes at a are copied to b, with the errors of their 32-byte words. -/
def State.copyMem (s : State) (a b n : Nat) : State :=
  let cells := s.mem.filter (fun (c : Host.Cell) => decide (a ≤ c.1 ∧ c.1 < a + n))
  let errs := s.dram.errs.filter (fun (p : Nat × Bool) => decide (a / 32 ≤ p.1 ∧ p.1 < (a + n) / 32))
  let s1 := s.clear b n
  let s2 := { s1 with mem := cells.foldl (fun (m : List Host.Cell) (c : Host.Cell) => Store.put m (b + (c.1 - a)) c.2) s1.mem }
  let keep := s2.dram.errs.filter (fun (p : Nat × Bool) => !decide (b / 32 ≤ p.1 ∧ p.1 < (b + n) / 32))
  s2.setErrs (errs.foldl (fun (m : Store Bool) (p : Nat × Bool) => Store.put m (b / 32 + (p.1 - a / 32)) p.2) keep)

/-- The first bell of a solve window (R213, R217): controls are sampled, banks copied, the table begun. -/
def State.calStart (s : State) (q : Nat) : State :=
  let fb := s.flag CAL.CTRL_AISLE_FB
  let dc := s.flag CAL.CTRL_DCOR
  let n := s.cLoc * s.canopyInputs
  let s1 := s.setCal { s.cal with
    active := true, q := q, next := 0, good := 0, failed := 0, seq := s.cal.seq + 1, bufs := [],
    cfg := s.regs.filter (fun p => decide (0x100000 ≤ p.1 ∧ p.1 < 0x110000)) }
  let bank := s1.fld AIS.GSTATUS_BANK
  let s2 := if fb then s1.copyMem (s1.gainBase bank) (s1.gainBase (1 - bank)) (4 * n) else s1
  let db := s2.fld CAL.STATUS_DBANK
  let base (k : Nat) : Nat := s2.calBase CAL.DCOR_LO CAL.DCOR_HI_ADDR + k * (s2.regN CAL.DCOR_HALF * 4096)
  let s3 := if dc then s2.copyMem (base db) (base (1 - db)) (8 * n) else s2
  let s4 := (s3.clear (s3.solBase + 16 + 16 * s3.cLoc) (16 * (16384 - s3.cLoc)))
  let s5 := (s4.dramWrite 11 s4.solBase (toBytes 8 s4.cal.seq ++ toBytes 4 q ++ toBytes 2 s4.cLoc ++ toBytes 2 0)).2
  ((((s5.setFlag CAL.STATUS_FB_ARMED fb).setFlag CAL.STATUS_DC_ARMED dc).loadChannel 0).loadChannel 1).calProgress

/-- The record of the channel in progress at the end of its window (R213, R228): how many iterations it has made by then is not
stated, a free value (log entry 5). -/
def State.unfinishedRecord (s : State) (c : Nat) : State :=
  let (k, s1) := s.fresh 7
  let z0 := s1.solve0 c
  let z := if z0.u.length < s1.minIn then z0 else (s1.loaded c).run (s1.calWord CAL.TOL) s1.minIn s1.maxIt (min k s1.maxIt) z0
  s1.writeChannelRecord c 5 z.iter z.u.length 0 false none z.delta

/-- The dump correction bank changes (R227), for the conversion of the dump that begins at this bell too. -/
def State.swapDbank (s : State) : State :=
  let k := 1 - s.fld CAL.STATUS_DBANK
  let s1 := s.setFld CAL.STATUS_DBANK k
  s1.setCorr { s1.corr with filling := s1.corr.filling.map (fun d => { d with dbank := k }) }

/-- The dump event that ends the window (R213, R225, R227, R228): unsolved channels are UNFINISHED, armed results installed,
the solve published. -/
def State.calEnd (s : State) : State :=
  let left := (List.range s.cLoc).filter (fun c => s.cal.next ≤ c)
  let s1 := s.each left (fun t c =>
    (if c = s.cal.next then t.unfinishedRecord c else t.writeChannelRecord c 5 0 0 0 false none none).countStatus 5)
  let fa := s1.flag CAL.STATUS_FB_ARMED
  let da := s1.flag CAL.STATUS_DC_ARMED
  let inst := fa && s1.flag CAL.CTRL_AISLE_FB
  let dinst := da && s1.flag CAL.CTRL_DCOR
  let s2 := if inst then s1.gainBank (1 - s1.fld AIS.GSTATUS_BANK) else s1
  let s3 := if dinst then s2.swapDbank else s2
  let s4 := s3.raiseIf ((fa && !inst) || (da && !dinst)) CAL.STAT_INST_SKIP
  let s5 := (s4.dramWrite 11 (s4.solBase + 262160) (toBytes 8 s4.cal.seq)).2
  let c := s5.cal
  let s6 := s5.setCal { c with
    active := false, bufs := [],
    mb := c.mb.publishAs (c.seq % 65536) (fun q => [q, boolNat inst, boolNat dinst, c.q, c.good, c.failed + left.length, left.length]) }
  ((((s6.setRegN CAL.SEQ (c.seq % 2 ^ 32)).setFld CAL.STATUS_STATE 0).setFlag CAL.STATUS_FB_ARMED false).setFlag
    CAL.STATUS_DC_ARMED false).raise CAL.STAT_SOLVED

/-- The bell engine reaches STOPPED during a solve (R216). -/
def State.calAbandon (s : State) : State :=
  if s.cal.active then
    ((((s.setCal { s.cal with active := false, bufs := [] }).setFld CAL.STATUS_STATE 0).setFlag CAL.STATUS_FB_ARMED false).setFlag
      CAL.STATUS_DC_ARMED false).raise CAL.STAT_ABANDONED
  else s

/-- What a bell does for calibration: `regular` names a regular dump event, `feed` the dump whose feed is complete. -/
def State.calBell (s : State) (regular : Bool) (feed : Option Nat) : State :=
  let s1 := if regular && s.cal.active then s.calEnd else s
  match feed with
  | some q => s1.calStart q
  | none => s1

end Sys2Proof.Machine
end

