-- ==== Sys2Proof/Machine/Matrix.lean ====
section
/-! DEFINITION. The fast matrix (R422 to R431): address decoding, the outstanding pool, error responses and their latch, the
bytes that the performance counters count, and the resets of masters. -/
namespace Sys2Proof.Machine

def State.setMtx (s : State) (m : Matrix) : State := { s with mtx := m }

/-! ## Addresses (R2, R5, R423) -/

/-- What an address names. -/
inductive Place where
  | dram
  | window (die : Nat)
  | trunk
  | bank (n : Nat)
  | canopyBuf
  | calSram
  | clerkSram
  | reg
  | none
deriving DecidableEq, Repr

def diesOf (p : Part) : Nat := match p with | .iz8 => 6 | .iz4 => 2

/-- The region of the address map that holds a. Retention bank n lies in the trunk SRAM (R369). -/
def State.place (s : State) (a : Nat) : Place :=
  if a < s.dramSize then .dram
  else if 0xFC0000000000 ≤ a ∧ a < 0xFC0000000000 + diesOf s.part * 0x10000000 then .window ((a - 0xFC0000000000) / 0x10000000)
  else if 0xFE0001E00000 ≤ a ∧ a < 0xFE0002000000 then .bank ((a - 0xFE0001E00000) / 0x40000)
  else if 0xFE0000000000 ≤ a ∧ a < 0xFE0002000000 then .trunk
  else if 0xFE0010000000 ≤ a ∧ a < 0xFE0016000000 then .canopyBuf
  else if 0xFE0020000000 ≤ a ∧ a < 0xFE0024000000 then .calSram
  else if 0xFE0030000000 ≤ a ∧ a < 0xFE0030200000 then .clerkSram
  else if 0xFF0000000000 ≤ a ∧ a < 0xFF00001F0000 then .reg
  else .none

/-- The target that takes address a: 0 to 3 DRAM ports, 4 trunk SRAM, 5 window-store bridge, 6 register bridge, 9 clerk SRAM;
10 where none does. -/
def State.targetOf (s : State) (a : Nat) : Nat :=
  match s.place a with
  | .dram => (s.dramLoc a).ch / 4
  | .window _ => 5
  | .trunk => 4
  | .bank _ => 4
  | .canopyBuf => 4
  | .calSram => 4
  | .clerkSram => 9
  | .reg => 6
  | .none => 10

/-- The register block that issues as master m (R422, R447). -/
def masterBlock (m : Nat) : Nat :=
  if m = 0 then 30 else if m ≤ 2 then 20 else if m ≤ 6 then 28 else atD [16, 2, 7, 17, 19] (m - 7) 31

/-! ## Chunks (R425) -/

/-- [a, a + n) cut at the multiples of `size`, in address order. -/
def chunkList (size : Nat) : Nat → Nat → Nat → List (Nat × Nat)
  | 0, _, _ => []
  | fuel + 1, a, n =>
    if n = 0 then []
    else
      let k := min n (size - a % size)
      (a, k) :: chunkList size fuel (a + k) (n - k)

/-- The chunks of a transaction of n bytes at a: one of up to 256 bytes is not split. -/
def chunksOf (a n : Nat) : List (Nat × Nat) := if n ≤ 256 then [(a, n)] else chunkList 256 (n / 256 + 2) a n

/-- A master's own access of any length, as transactions that cross no 4 KiB boundary (R424). -/
def piecesOf (a n : Nat) : List (Nat × Nat) := chunkList 4096 (n / 4096 + 2) a n

/-! ## Counting (R447) -/

def State.count (s : State) (b code k : Nat) : State := { s with regs := pmcCount s.part s.serial s.regs b code k }

/-- n bytes counted in units of 64 by code `code` of block b, the remainder carried. -/
def State.countBytes (s : State) (b code n : Nat) : State :=
  let key := b * 256 + code
  let r := Store.getD s.mtx.rem key 0 + n
  (s.setMtx { s.mtx with rem := Store.set 0 s.mtx.rem key (r % 64) }).count b code (r / 64)

/-- A transaction of n bytes at a by master m; each chunk's bytes count at its target. -/
def State.countTxn (s : State) (m a n : Nat) : State :=
  let b := masterBlock m
  (((s.count b 3 1).countBytes b 4 n).countBytes 27 (0x40 + m) n).each (chunksOf a n)
    (fun s c => s.countBytes 27 (0x50 + s.targetOf c.1) c.2)

/-! ## Error responses (R429, R451) -/

/-- The latch of the first error address since it was last read. -/
def State.latchErr (s : State) (m a : Nat) (write : Bool) : State :=
  match s.mtx.err with
  | some _ => s
  | none => ((s.setMtx { s.mtx with err := some (a, m, write) }).setRegN MTX.ERR_ADDR_LO (a % 2 ^ 32)).raise MTX.STAT_ERR_RESP

/-- An error response to master m; the PCIe endpoint raises WR_ERR or RD_ERR. -/
def State.errorTo (s : State) (m a : Nat) (write : Bool) : State :=
  let s1 := (s.latchErr m a write).emit (.errResp m a write)
  if m = 0 then s1.raise (if write then PCI.STAT_WR_ERR else PCI.STAT_RD_ERR) else s1

/-- A read of ERR_ADDR_LO: the latched address, ERR_ADDR_HI latched, the latch armed again. -/
def State.errAddrRead (s : State) : Nat × State :=
  let hi := match s.mtx.err with
    | some (a, m, w) => a / 2 ^ 32 % 65536 + 65536 * m + 2 ^ 20 * boolNat w
    | none => 0
  (s.regN MTX.ERR_ADDR_LO, ((s.setMtx { s.mtx with err := none }).setRegN MTX.ERR_ADDR_LO 0).setRegN MTX.ERR_ADDR_HI hi)

def execErrAddrRead (master : Nat) (s : State) : Out3 :=
  let (v, s1) := s.errAddrRead
  done (s1.emit (.readData master v))

/-! ## The outstanding pool (R427, R428) -/

/-- The transactions outstanding become l; OUT_USE shows their number, and a pool with room ends a full one's occurrence. -/
def State.setOut (s : State) (l : List Txn) : State :=
  (s.setMtx { s.mtx with out := l, fullNoted := s.mtx.fullNoted && decide (8192 ≤ l.length) }).setRegN MTX.OUT_USE l.length

/-- MTX.OUTm.MAX: 0 acts as 1, above 8,192 as 8,192. -/
def State.outMax (s : State) (m : Nat) : Nat := clampN 1 8192 (s.fld (MTX.OUT_MAX m))

/-- Master m may issue: it is not in reset, below its limit, and the pool has room. -/
def State.outRoom (s : State) (m : Nat) : Bool :=
  decide (s.mtx.out.length < 8192) && decide ((s.mtx.out.filter (fun x => x.master == m)).length < s.outMax m)

/-- A full pool is noted once per occurrence. -/
def State.noteFull (s : State) : State :=
  if s.mtx.out.length < 8192 ∨ s.mtx.fullNoted = true then s
  else (s.setMtx { s.mtx with fullNoted := true }).raise MTX.STAT_OUT_FULL

/-- A transaction that waits for its target joins the pool. -/
def State.holdTxn (s : State) (m : Nat) (write : Bool) (a n be : Nat) (l : List Byte) (waits : Bool) : State :=
  (s.setOut (s.mtx.out ++ [{ master := m, write := write, addr := a, len := n, be := be, data := l, issuedAt := s.up, waits := waits,
                             moved := 0, got := [], failed := false }])).noteFull

/-- Transactions in flight that `sel` names complete with an error response (R359, R433). -/
def State.failOut (s : State) (sel : Txn → Bool) : State :=
  let gone := s.mtx.out.filter sel
  (s.setOut (s.mtx.out.filter (fun x => !sel x))).each gone (fun (s : State) x => s.errorTo x.master x.addr x.write)

/-! ## Master reset (R430, R431) -/

/-- Master m is held in reset: its MRST bit, and for the PCIe master a link that is down. -/
def State.inReset (s : State) (m : Nat) : Bool :=
  (s.fld MTX.MRST_MASTERS).testBit m || (m == 0 && !s.flag PCI.LINK_UP)

/-- The gate that stops master m from issuing (R354), and the domain it lies in. -/
def State.masterLive (s : State) (m : Nat) : Bool :=
  s.domOn 1 && !s.inReset m && (match masterBlock m with
    | 20 => s.works 16 25
    | 28 => s.clocked 28
    | 16 => s.works 15 19
    | 7 => s.clocked 26
    | 19 => s.clocked 27
    | _ => true)

/-- An interrupted write leaves its destination undefined: every byte of it is what it was or what was to be written (R430). -/
def State.tornWrite (s : State) (a be : Nat) : List Byte → State
  | [] => s
  | b :: l =>
    let (k, s1) := s.fresh 1
    (if k = 1 ∧ be.testBit 0 = true then s1.write a [b] else s1).tornWrite (a + 1) (be / 2) l

/-- The drain of master m starts: its requests are cut short at the targets. Their responses stay owed until it ends. -/
def State.drainStart (s : State) (m : Nat) : State :=
  let mine := s.mtx.out.filter (fun x => x.master == m)
  mine.foldl (fun (s : State) x =>
    if x.write then (match s.place x.addr with | .reg => s | .none => s | _ => s.tornWrite x.addr x.be x.data) else s)
    (s.setReg MTX.MSTAT (BitVec.ofNat 32 (setBit (s.regN MTX.MSTAT) m false)))

/-- A write of MRST: a bit that rises starts a drain, a bit that falls releases the master. -/
def State.masterResets (s : State) (v : Nat) : State :=
  let was := s.fld MTX.MRST_MASTERS
  let s1 := s.setRegN MTX.MRST (v % 4096)
  s1.each (List.range 12) (fun (s : State) m =>
    if v.testBit m && !was.testBit m then s.drainStart m
    else if !v.testBit m && was.testBit m && !s.inReset m then
      s.setReg MTX.MSTAT (BitVec.ofNat 32 (setBit (s.regN MTX.MSTAT) m false))
    else s)

def execMasterReset (v : Word) (t : Nat) (s : State) : Out3 := done ((s.at t).masterResets v.toNat)
def execMasterRelease (v : Word) (t : Nat) (s : State) : Out3 := done ((s.at t).masterResets v.toNat)

/-- The drain ends, with `left` transactions still unanswered: they are abandoned, every other is retired. -/
def execMasterDrained (m left t : Nat) (s : State) : Out3 :=
  doneIf (s.at t) (m < 12 && s.inReset m && !(s.regN MTX.MSTAT).testBit m) (fun s =>
    let n := min left (s.mtx.out.filter (fun x => x.master == m)).length
    let s1 := s.setOut (s.mtx.out.filter (fun x => x.master != m))
    let s2 := if n = 0 then s1 else (s1.bump MTX.ABANDON_CNT n).raise MTX.STAT_ABANDON
    (s2.setReg MTX.MSTAT (BitVec.ofNat 32 (setBit (s2.regN MTX.MSTAT) m true))).raise MTX.STAT_DRAINED)

/-! ## The PCIe link (R430, R450, R451) -/

/-- The link comes up with its speed code and width; WIN.SIZE is sampled and master 0 released. -/
def execPcieLinkUp (speed width t : Nat) (s : State) : Out3 :=
  doneIf (s.at t) (s.domOn 13 && !s.flag PCI.LINK_UP) (fun s =>
    let z := s.fld PCI.WIN_SIZE
    let s1 := ((s.setRegN PCI.LINK (1 + 2 * (speed % 8) + 16 * (width % 8))).setMtx { s.mtx with winSize := if 28 ≤ z ∧ z ≤ 36 then z else 28 }).raise
      PCI.STAT_LINK_UP
    if (s1.fld MTX.MRST_MASTERS).testBit 0 then s1
    else s1.setReg MTX.MSTAT (BitVec.ofNat 32 (setBit (s1.regN MTX.MSTAT) 0 false)))

/-- The device address of offset x in a BAR (R451), at which a host's request there is master 0's transaction; none beyond the BAR, and in
BAR4, which holds the MSI-X table and its pending bits. -/
def State.barAddress (s : State) (bar x : Nat) : Option Nat :=
  let size := 2 ^ s.mtx.winSize
  if bar = 0 ∧ x < 2 ^ 21 then some (0xFF0000000000 + x)
  else if bar = 2 ∧ x < size then some ((s.regN PCI.WINBASE_LO + s.fld PCI.WINBASE_HI_ADDR * 2 ^ 32) / size * size + x)
  else none

def State.pcieDown (s : State) : State :=
  if s.flag PCI.LINK_UP then ((s.setRegN PCI.LINK 0).raise PCI.STAT_LINK_DOWN).drainStart 0 else s

def execPcieLinkDown (t : Nat) (s : State) : Out3 := done (s.at t).pcieDown

/-- A function-level reset holds master 0 for 1 µs: its transactions are cut short and retired, `left` of them unanswered. The
MSI-X mask and pending bits take their reset values, as the PCI Express rules say (log entry 32). -/
def execFunctionLevelReset (left t : Nat) (s : State) : Out3 :=
  doneIf (s.at t) (s.flag PCI.LINK_UP) (fun s =>
    let s1 := { s with msixMask := 2 ^ 64 - 1, msixPend := 0 }
    let s2 := (s1.raise PCI.STAT_FLR).drainStart 0
    let n := min left (s2.mtx.out.filter (fun x => x.master == 0)).length
    let s3 := s2.setOut (s2.mtx.out.filter (fun x => x.master != 0))
    let s4 := if n = 0 then s3 else (s3.bump MTX.ABANDON_CNT n).raise MTX.STAT_ABANDON
    s4.raise MTX.STAT_DRAINED)

end Sys2Proof.Machine
end

