-- ==== Sys2Proof/Machine/Melier.lean ====
section
/-! DEFINITION. References, holdover and the Melier pair (R293 to R319). Candidates r: 0 to 2 REF_A to REF_C, 3 and 4 SYNCE0
and SYNCE1, 5 PTP. What a clock detector, phase detector, comparator or self-check observes comes with the command. -/
namespace Sys2Proof.Machine

def second : Nat := 1000000000 * ns

def State.setMel (s : State) (m : MelEng) : State := { s with mel := m }

/-! ## States -/

def State.melState (s : State) : Nat := s.fld MEL.STATUS_STATE

def State.setMelState (s : State) (st : Nat) : State := s.setFld MEL.STATUS_STATE st

/-- The candidate the DPLL follows, 7 none. -/
def State.melActive (s : State) : Nat := s.fld MEL.STATUS_ACTIVE

/-- A candidate is followed from now on; STATUS.TFLY reads 1 while it is a SYNCE candidate (R304). -/
def State.follow (s : State) (r : Nat) : State :=
  (s.setFld MEL.STATUS_ACTIVE r).setFlag MEL.STATUS_TFLY (r == 3 || r == 4)

def State.noSelection (s : State) : Bool := s.melActive == 7

/-- HAVG + 2 s (R307). -/
def State.holdWindow (s : State) : Nat := (max 1 (s.fld MEL.DPLL_HAVG) + 2) * second

/-- The lock under way has lasted HAVG + 2 s, up to the loss of the reference (R307). -/
def State.lockedLong (s : State) : Bool :=
  match s.mel.lockSince with
  | some l => decide (l + s.holdWindow ≤ s.mel.lostAt.getD s.up)
  | none => false

/-- A holdover frequency exists (R307). -/
def State.hasHoldover (s : State) : Bool := s.mel.hoFreq.isSome || s.lockedLong

/-- The mean DPLL frequency over the HAVG seconds that end 2 s before the loss (R307): that of the frequencies measured each second of the
lock; a free value where none was. -/
def State.meanFreq (s : State) : Int × State :=
  let e := s.mel.lostAt.getD s.up - 2 * second
  let l := (s.mel.freqs.filter (fun p => decide (e ≤ p.1 + max 1 (s.fld MEL.DPLL_HAVG) * second ∧ p.1 ≤ e))).map (·.2)
  if l = [] then
    let (x, s1) := s.fresh 32
    (toSigned 32 x, s1)
  else (roundOpen 307 l.sum l.length, s)

/-- The holdover frequency that stands as the pair leaves lock. -/
def State.holdFreq (s : State) : Option Int × State :=
  if s.lockedLong then
    let (x, s1) := s.meanFreq
    (some x, s1)
  else (s.mel.hoFreq, s)

/-- The pair leaves lock: its holdover frequency is kept, slewing ends. -/
def State.unlock (s : State) : State :=
  let (f, s1) := s.holdFreq
  s1.setMel { s1.mel with hoFreq := f, lockSince := none, lostAt := none, freqs := [], offset := 0 }

/-- The loop bandwidth code in force (R305): BW, two codes wider while acquiring, at most 100 Hz. -/
def State.dpllBandwidth (s : State) : Nat :=
  if s.melState = 1 then min 6 (s.fld MEL.DPLL_BW + 2) else min 6 (s.fld MEL.DPLL_BW)

/-- The holdover timer starts unless it is running (R308). -/
def State.startHoldTimer (s : State) : State := s.setMel { s.mel with hoStart := some (s.mel.hoStart.getD s.up) }

/-- No reference is followed any more: holdover at the holdover frequency, or free-run where none exists, unsteered (R307, R310). HOLDOVER is
raised on the way from locked, reference disagreement and a switch, not from acquiring. -/
def State.holdOver (s : State) : State :=
  let s1 := s.unlock.follow 7
  match s1.mel.hoFreq with
  | some f => ((s1.setMel { s1.mel with steer := f }).startHoldTimer.setMelState 3).raiseIf (s.melState != 1) MEL.STAT_HOLDOVER
  | none => (s1.setMel { s1.mel with steer := 0 }).setMelState 0

/-- The state becomes locked: the timer resets and the HOLDOVER_OOS pin goes low (R308). -/
def State.lockEntered (s : State) : State :=
  ((s.setMel { s.mel with hoStart := none, lockSince := some (s.mel.lockSince.getD s.up) }).setFlag MEL.STATUS_OOS false).setMelState 2

/-! ## Rank (R297) -/

/-- The rank of a clockClass. -/
def classRank (c : Nat) : Nat :=
  if c = 6 then 1 else if c = 13 then 2 else if c = 7 then 3 else if c = 14 then 5
  else if c = 135 ∨ c = 140 ∨ c = 150 ∨ c = 160 ∨ c = 165 then 8
  else if c = 52 ∨ c = 58 ∨ c = 187 ∨ c = 193 then 9
  else if c = 248 then 12 else 15

def State.qlRank (s : State) (q : Nat) : Nat :=
  if q < 8 then bits (s.regN MEL.QLMAP_LO) (4 * q) 4 else bits (s.regN MEL.QLMAP_HI) (4 * (q - 8)) 4

def State.rankOf (s : State) (r : Nat) : Nat :=
  let c := s.fld (MEL.REF_QL_CODE r)
  if r = 5 then classRank c
  else if (r == 3 || r == 4) && s.mel.esmcFailed.contains (r - 3) then 15
  else s.qlRank (c % 16)

def State.refPrio (s : State) (r : Nat) : Nat := bits (s.regN MEL.PRIO) (3 * r) 3

def State.refOn (s : State) (r : Nat) : Bool := r < 6 && (s.fld MEL.REFCFG_EN).testBit r

/-- 0 disqualified, 1 qualified and waiting, 2 available. -/
def State.refQual (s : State) (r : Nat) : Nat := s.fld (MEL.REF_STATUS_QUAL r)

def State.qualified (s : State) (r : Nat) : Bool := s.refOn r && s.refQual r != 0

/-- Disagreements that involve a candidate that is no longer qualified have ended; a pair in reference disagreement that is in
none goes back to locked (R303, R310). -/
def State.trimPairs (s : State) : State :=
  let l := s.mel.pairs.filter (fun (p : Nat × Nat) => s.qualified p.1 && s.qualified p.2)
  let s1 := s.setMel { s.mel with pairs := l }
  if s1.melState = 5 && s1.qualified s1.melActive && !l.any (fun (p : Nat × Nat) => p.1 == s1.melActive || p.2 == s1.melActive)
  then s1.setMelState 2 else s1

/-- From its first break on, a candidate waits WTR and not QUAL_S (R299). -/
def State.onceQualified (s : State) (r : Nat) : State :=
  if s.mel.everQual.contains r then s else s.setMel { s.mel with everQual := r :: s.mel.everQual }

/-- Candidate r fails the check `cause` (0 NOSIG, 1 FREQ, 2 PPS, 3 TOD, 4 PTP, 5 RANK, 6 DISAG) and is disqualified at once
(R298); the target of a switch takes the device to holdover (R301). -/
def State.disqualify (s : State) (r cause : Nat) : State :=
  let c := s.setFld (MEL.REF_STATUS_CAUSE r) (setBit (s.fld (MEL.REF_STATUS_CAUSE r)) cause true)
  if s.refQual r = 0 then c
  else
    let s1 := ((c.setFld (MEL.REF_STATUS_QUAL r) 0).onceQualified r).raise MEL.STAT_REF_LOST
    let s2 := if s1.melActive = r then s1.setMel { s1.mel with lostAt := some (s1.mel.lostAt.getD s1.up) } else s1
    if s2.melState = 6 && s2.melActive = r then s2.holdOver.trimPairs else s2.trimPairs

/-- The rank of each candidate as it now stands; rank 15 disqualifies (R297, R298). -/
def State.refreshRanks (s : State) : State :=
  s.each (List.range 6) (fun (s : State) r =>
    let k := s.rankOf r
    let s1 := s.setFld (MEL.REF_STATUS_RANK r) k
    if k = 15 && s1.refQual r != 0 then s1.disqualify r 5 else s1)

/-- Candidates whose enable is cleared take no part any more (R293). -/
def State.refEnables (s : State) : State :=
  (s.each (List.range 6) (fun (s : State) r =>
    if s.refOn r then s
    else
      let s1 := if s.refQual r = 0 then s else (s.setFld (MEL.REF_STATUS_QUAL r) 0).onceQualified r
      if s1.melState = 6 && s1.melActive = r then s1.holdOver else s1)).trimPairs

/-! ## Time of day and ESMC (R294 to R296) -/

/-- The CRC-16 of R294. -/
def crc16 (l : List Byte) : Nat :=
  l.foldl (fun c b => (List.range 8).foldl (fun c _ => if c.testBit 15 then (2 * c) % 65536 ^^^ 0x1021 else (2 * c) % 65536)
    (c ^^^ (b.toNat * 256))) 0xFFFF

/-- SYNC, VER and CRC are correct. -/
def todFormat (m : List Byte) : Bool :=
  m.length == 16 && leAt m 0 2 == 0xC35A && leAt m 2 1 == 1 && crc16 (m.take 14) == leAt m 14 2

/-- The SEC of the predecessor of a message that follows the PPS edge at `edge`: the one that followed the edge before it, if it was not
discarded (R295). A second without one is a gap. -/
def State.todBefore (s : State) (r edge : Nat) : Option Nat :=
  match Store.get? s.mel.todPred r with
  | some (sec, e) => if 2 * edge < 2 * e + 3 * second then some sec else none
  | none => none

/-- A time-of-day message on candidate r that ends `after` the last PPS edge (R295). A message without a predecessor becomes the predecessor
of the next; one that does not follow its predecessor is only discarded. -/
def execTodMessageRx (r : Nat) (msg : List Byte) (after t : Nat) (s : State) : Out3 :=
  doneIf (s.at t) (r < 3) (fun s =>
    let sec := leAt msg 4 6
    let inTime := 10000000 * ns ≤ after && after ≤ 900000000 * ns
    let edge := s.up - after
    let keep := s.setMel { s.mel with todPred := Store.put s.mel.todPred r (sec, edge) }
    if todFormat msg && inTime then
      match s.todBefore r edge with
      | some p =>
        if p = (sec + 2 ^ 48 - 1) % 2 ^ 48 then
          ((keep.setMel { keep.mel with todSec := Store.put s.mel.todSec r sec, todAt := Store.put s.mel.todAt r s.up }).setFld
            (MEL.REF_QL_CODE r) (leAt msg 3 1 % 16)).refreshRanks
        else s.raise MEL.STAT_TOD_ERR
      | none => keep.raise MEL.STAT_TOD_ERR
    else s.raise MEL.STAT_TOD_ERR)

/-- An ESMC PDU sets the QL of its port (R296). -/
def execEsmcPduRx (port : Nat) (event : Bool) (ql t : Nat) (s : State) : Out3 :=
  doneIf (s.at t) (port < 2 && s.svcUp port) (fun s =>
    let s1 := if event then s else s.setMel { s.mel with esmcAt := Store.put s.mel.esmcAt port s.up }
    ((s1.setMel { s1.mel with esmcFailed := s1.mel.esmcFailed.filter (· != port) }).setFld (MEL.REF_QL_CODE (3 + port)) (ql % 16)).refreshRanks)

def execEsmcTimeout (port t : Nat) (s : State) : Out3 :=
  doneIf (s.at t) (port < 2 && !s.mel.esmcFailed.contains port &&
      decide (Store.getD s.mel.esmcAt port 0 + 5 * second ≤ (s.at t).up)) (fun s =>
    ((s.setMel { s.mel with esmcFailed := port :: s.mel.esmcFailed }).raise MEL.STAT_ESMC_TO).refreshRanks)

/-- The QL sent on a service port (R296): open while the pair is acquiring or in time core fault. -/
def State.esmcQl (s : State) (port : Nat) : Nat × State :=
  let a := s.melActive
  let st := s.melState
  if a = 3 + port then (0xF, s)
  else if st = 0 ∨ st = 3 ∨ st = 4 then (0xB, s)
  else if st = 2 ∨ st = 5 ∨ st = 6 then
    (if a = 5 then (if s.fld (MEL.REF_QL_CODE 5) = 6 then 0x2 else 0xB) else s.fld (MEL.REF_QL_CODE a) % 16, s)
  else s.fresh 4

/-- One information PDU on a service port: its ITU-T G.8264 layout is PRESUMED (log entry 30). -/
def execEsmcPduTx (port t : Nat) (s : State) : Out3 :=
  doneIf (s.at t) (decide (port < 2)) (fun s =>
    let (q, s1) := s.esmcQl port
    s1.svcSend port (s1.svcHeader 0x0180C2000002 0x8809 ++ [0x0A#8, 0x00#8, 0x19#8, 0xA7#8, 0x00#8, 0x01#8, 0x10#8, 0#8, 0#8, 0#8,
      0x01#8, 0x00#8, 0x04#8, BitVec.ofNat 8 q] ++ List.replicate 32 0#8))

/-! ## Qualification (R298, R299) -/

/-- The checks of R298 that the device's own state decides. -/
def State.checksPass (s : State) (r : Nat) : Bool :=
  s.rankOf r != 15 && !s.flag MEL.STATUS_OSC && !Store.has s.mel.disagBy r &&
    (if r < 3 then (match Store.get? s.mel.todAt r with | some a => decide (s.up < a + 2 * second) | none => false)
     else if r < 5 then s.svcUp (r - 3)
     else s.svcUp 0 && s.fld PTP.SLV_STATUS_STATE == 3)

/-- A check fails. The cause TOD, PTP and RANK are decided by state; DISAG belongs to DISAGREE_CHECK. -/
def execRefDisqualify (r cause t : Nat) (s : State) : Out3 :=
  doneIf (s.at t) (s.refOn r && s.mel.started && (match cause with
      | 0 => true
      | 1 => true
      | 2 => decide (r < 3)
      | 3 => decide (r < 3) && decide (Store.getD s.mel.todAt r 0 + 2 * second ≤ (s.at t).up)
      | 4 => r == 5 && s.fld PTP.SLV_STATUS_STATE != 3
      | 5 => s.rankOf r == 15
      | _ => false)) (fun s => s.disqualify r cause)

def execRefQualify (r t : Nat) (s : State) : Out3 :=
  doneIf (s.at t) (s.refOn r && s.mel.started && s.refQual r == 0 && (s.at t).checksPass r) (fun s =>
    let s1 := (s.setFld (MEL.REF_STATUS_QUAL r) 1).setFld (MEL.REF_STATUS_CAUSE r) 0
    s1.setMel { s1.mel with qualSince := Store.put s1.mel.qualSince r s1.up,
                            lostAt := if s1.melActive = r then none else s1.mel.lostAt })

/-- The wait before a qualified candidate is available (R299), in seconds. -/
def State.qualWait (s : State) (r : Nat) : Nat :=
  if s.mel.everQual.contains r then min 3600 (s.fld MEL.QUAL_WTR) else max 1 (s.fld MEL.QUAL_QUAL_S)

/-- The wait left for a waiting candidate; a candidate counts as once qualified from its first break or availability on. -/
def State.waitLeft (s : State) (r : Nat) : Nat :=
  Store.getD s.mel.qualSince r 0 + s.qualWait r * second - s.up

/-- REFr_STATUS as it reads: WAIT is the seconds that remain. -/
def State.refStatusRead (s : State) (r : Nat) : Nat :=
  putBits (s.regN (MEL.REF_STATUS r)) 6 12 (if s.refQual r = 1 then ceilDiv (s.waitLeft r) second else 0)

def execRefAvailable (r t : Nat) (s : State) : Out3 :=
  doneIf (s.at t) (s.refOn r && s.refQual r == 1 && (s.at t).waitLeft r == 0) (fun s =>
    (s.setFld (MEL.REF_STATUS_QUAL r) 2).raise MEL.STAT_REF_AVAIL)

/-! ## Selection and switches (R300 to R303) -/

/-- Does candidate a come before b? Rank, then priority, then index. -/
def State.refBefore (s : State) (a b : Nat) : Bool :=
  let k (r : Nat) := (s.rankOf r * 8 + s.refPrio r) * 8 + r
  decide (k a < k b)

def State.bestRef (s : State) : Option Nat :=
  ((List.range 6).filter (fun r => s.refOn r && s.refQual r == 2)).foldl (fun (b : Option Nat) r => match b with
    | some x => if s.refBefore r x then some r else b
    | none => some r) none

/-- Selection of `best` is due while `a` is followed (R300). -/
def State.selectionDue (s : State) (a best : Nat) : Bool :=
  !s.qualified a ||
    (if s.flag MEL.CTRL_REVERT then decide (s.rankOf best * 8 + s.refPrio best < s.rankOf a * 8 + s.refPrio a)
     else decide (s.rankOf best < s.rankOf a))

/-- A reference is selected: from lock by a switch, otherwise the pair acquires it. -/
def State.selectRef (s : State) (r : Nat) : State :=
  if s.melState = 2 ∨ s.melState = 5 then
    (((s.follow r).setFld MEL.STATUS_TARGET r).setMelState 6).raise MEL.STAT_SWITCH
  else ((s.setMel { s.mel with acqSince := some s.up }).follow r).setMelState 1

/-- The evaluation at a 100 ms boundary of station time. -/
def State.refEvaluate (s : State) : State :=
  if s.melState = 6 ∨ s.melState = 7 ∨ s.flag MEL.CTRL_FORCE_HO then s
  else
    match s.bestRef, s.noSelection with
    | some b, true => s.selectRef b
    | some b, false => if b ≠ s.melActive ∧ s.selectionDue s.melActive b then s.selectRef b else s
    | none, true => s
    | none, false => if s.qualified s.melActive then s else s.holdOver.trimPairs

def execRefSelectEval (t : Nat) (s : State) : Out3 :=
  doneIf (s.at t) (s.mel.started && t % (100000000 * ns) == 0) (fun s => s.refEvaluate)

def execSwitchSettled (t : Nat) (s : State) : Out3 :=
  doneIf (s.at t) (s.melState == 6) (fun s =>
    ((s.setMel { s.mel with lostAt := none }).lockEntered.bump MEL.SWITCH_CNT 1).raise MEL.STAT_SWITCH_DONE)

def State.foff (s : State) (r : Nat) : Int := toSigned 32 (s.regN (MEL.REF_FOFF r))

/-- Two candidates agree within DISAG. -/
def State.agree (s : State) (a b : Nat) : Bool :=
  decide ((s.foff a - s.foff b).natAbs ≤ max 1 (s.fld MEL.DISAG_THR))

def allPairs : List (Nat × Nat) :=
  (List.range 6).flatMap (fun j => (List.range j).map (fun i => (i, j)))

/-- A disagreement of i and j is settled (R303): by the lowest third candidate that agrees with exactly one, else it stands. -/
def State.settlePair (s : State) (i j : Nat) : State :=
  if s.qualified i && s.qualified j && s.rankOf i == s.rankOf j && s.refPrio i == s.refPrio j && !s.agree i j then
    match (List.range 6).find? (fun k => k != i && k != j && s.qualified k && (s.agree i k != s.agree j k)) with
    | some k =>
      let (l, o) := if s.agree i k then (j, i) else (i, j)
      (s.setMel { s.mel with disagBy := Store.put s.mel.disagBy l o }).disqualify l 6
    | none =>
      let known := s.mel.pairs.contains (i, j)
      let s1 := if known then s else s.setMel { s.mel with pairs := (i, j) :: s.mel.pairs }
      let enters := s1.melState == 2 && (s1.melActive == i || s1.melActive == j)
      let s2 := s1.raiseIf (!known || enters) MEL.STAT_REF_DISAGREE
      if enters then s2.setMelState 5 else s2
  else (s.setMel { s.mel with pairs := s.mel.pairs.filter (fun (p : Nat × Nat) => p != (i, j)) }).trimPairs

/-- Candidates that give time (R293). -/
def givesTime (r : Nat) : Bool := r < 3 || r == 5

/-- What the second's measurements mean for the candidate followed: its frequency is what the DPLL steers to and, in lock, enters the
holdover mean (R307, DEDUCED, log entry 30); its offset is slewed out from now on (R306): TOFF is the PPS edge minus the second of
station time, for PTP master time minus station time (R337). -/
def State.trackRef (s : State) : State :=
  let a := s.melActive
  let on := (s.melState == 2 || s.melState == 5) && s.qualified a
  let f := toSigned 32 (s.regN (MEL.REF_FOFF a))
  let off := toSigned 32 (s.regN (MEL.REF_TOFF a)) * ns
  if !s.qualified a || s.melState == 0 || s.melState == 7 then s
  else s.setMel { s.mel with
    steer := f,
    freqs := if on || s.melState == 6 then ((s.up, f) :: s.mel.freqs).take 4100 else s.mel.freqs,
    offset := if on && givesTime a then (if a = 5 then off else -off) else s.mel.offset,
    slew := max 1 (s.fld MEL.DPLL_SLEW) }

/-- Once per second: the frequencies measured against OSC_IN (10^−12, 10 s mean) and the PPS offsets (ns) enter FOFF and TOFF,
offsets above 1 µs that are being slewed raise TOFF_BIG (R306), and candidates are compared. -/
def execDisagreeCheck (foff toff : List Int) (t : Nat) (s : State) : Out3 :=
  doneIf (s.at t) (s.mel.started) (fun s =>
    let s1 := s.each (List.range 6) (fun (s : State) r =>
      let s := s.setRegN (MEL.REF_FOFF r) (ofSigned 32 (clampI (-(2 ^ 31)) (2 ^ 31 - 1) (atD foff r 0)))
      if r < 3 then s.setRegN (MEL.REF_TOFF r) (ofSigned 32 (clampI (-(2 ^ 31)) (2 ^ 31 - 1) (atD toff r 0))) else s)
    let a := s1.melActive
    let big := (s1.melState == 2 || s1.melState == 5) && givesTime a &&
      decide (1000 < (toSigned 32 (s1.regN (MEL.REF_TOFF a))).natAbs)
    let s2 := s1.trackRef.raiseIf big MEL.STAT_TOFF_BIG
    let s3 := s2.setMel { s2.mel with disagBy := s2.mel.disagBy.filter (fun (p : Nat × Nat) => !s2.agree p.1 p.2) }
    s3.each allPairs (fun (s : State) (p : Nat × Nat) => s.settlePair p.1 p.2))

/-! ## Lock and holdover (R305 to R308) -/

/-- The DPLL declares lock (R305): the phase error, which the command stands for, has stayed within ±5 ns for 2 s, so acquiring began no
later. -/
def execDpllLock (t : Nat) (s : State) : Out3 :=
  doneIf (s.at t) (s.melState == 1 && s.qualified s.melActive && decide (s.mel.acqSince.getD 0 + 2 * second ≤ (s.at t).up)) (fun s => s.lockEntered.raise MEL.STAT_LOCKED)

/-- FORCE_HO takes the pair off its reference. -/
def State.forceHold (s : State) : State :=
  if s.flag MEL.CTRL_FORCE_HO && (s.melState == 1 || s.melState == 2 || s.melState == 5 || s.melState == 6) then s.holdOver.trimPairs
  else s

/-- TE(t) of R308 in ns as a fraction, t the time on the holdover timer. -/
def State.holdTe (s : State) : Nat × Nat :=
  match s.mel.hoStart with
  | some a =>
    let d := s.up - a
    (s.regN MEL.HO_E0 * 1728000000 * second ^ 2 + s.regN MEL.HO_Y0 * 172800 * d * second + s.regN MEL.HO_AGE * d ^ 2,
      1728000000 * second ^ 2)
  | none => (0, 1)

/-- MEL.HO_TE and HO_TIME as they read. -/
def State.hoTeRead (s : State) : Nat := min (2 ^ 32 - 1) (roundOpen 308 s.holdTe.1 s.holdTe.2).toNat

def State.hoTimeRead (s : State) : Nat := match s.mel.hoStart with | some a => (s.up - a) / second | none => 0

/-- The prediction has expired, or OSC_IN is lost: the pin goes high. -/
def State.outOfSpec (s : State) : State := ((s.setMelState 4).setFlag MEL.STATUS_OOS true).raise MEL.STAT_HOLDOVER_OOS

def execHoldoverExpired (t : Nat) (s : State) : Out3 :=
  doneIf (s.at t) (s.melState == 3 && (let (n, d) := (s.at t).holdTe; decide (s.regN MEL.HO_LIM * d < n))) (fun s => s.outOfSpec)

/-! ## Loss of OSC_IN (R309, R343, R344) -/

/-- The outputs hold from now on, for `cycles` of the timebase (R309, R313). -/
def State.holdFor (s : State) (cycles : Nat) : State :=
  s.setMel { s.mel with gapFrom := s.now, gapTo := s.now + cycles * 4 * ns / 5 }

/-- A switch-over gap of at most 20 timebase cycles; how many is a free value. -/
def State.holdGap (s : State) : State :=
  let (k, s1) := s.fresh 5
  s1.holdFor (min 20 k)

/-- CLEAN and OSC_IN leave READY, with every PLL. -/
def State.oscStops (s : State) : State :=
  let s0 := (((s.setReady 4 false).setReady 5 false).raise CKG.STAT_REF_LOST).setStopped (fun k => s.inUse k < 2) true
  let s1 := s0.abortSwitches (fun _ t => t == 1)
  s1.each (List.range 4) (fun (s : State) k => if s.ready k then (s.raise CKG.STAT_PLL_UNLOCK).pllOff k else s)

def execOscLost (t : Nat) (s : State) : Out3 :=
  doneIf (s.at t) (!s.flag MEL.STATUS_OSC) (fun s =>
    let s1 := (s.oscStops.setFlag MEL.STATUS_OSC true).holdGap
    let s2 := if s1.mel.started && s1.melState != 7 && s1.melState != 0
      then (s1.unlock.follow 7).startHoldTimer.outOfSpec else s1
    (s2.each (List.range 6) (fun (s : State) r => if s.refOn r then s.disqualify r 1 else s)).raise MEL.STAT_OSC_LOST)

/-- OSC_IN has edges (R309, R343): the first after power-up, or again after a loss, when the pair's clean output is back too. -/
def State.oscBack (s : State) : State :=
  let lost := s.flag MEL.STATUS_OSC
  let s1 := (s.setFlag MEL.STATUS_OSC false).setReady 5 true
  let s2 := if s1.mel.started then s1.setReady 4 true else s1
  (if lost then s2.holdGap else s2).refsRun.raiseIf lost MEL.STAT_OSC_BACK

/-! ## The lockstep pair (R312 to R319) -/

/-- The OK and latent marks of side c, 0 A and 1 B. -/
def okFld (c : Nat) : Fld := if c = 0 then MEL.STATUS_A_OK else MEL.STATUS_B_OK
def latFld (c : Nat) : Fld := if c = 0 then MEL.STATUS_A_LAT else MEL.STATUS_B_LAT

def State.melCore (s : State) : Nat := s.fld MEL.STATUS_CORE

def State.standbyGood (s : State) : Bool :=
  let o := 1 - s.melCore
  s.flag (okFld o) && !s.flag (latFld o)

/-- FR, the free-running nanosecond count (R324). -/
def State.freeRun (s : State) : Nat := s.heldNow / ns % 2 ^ 32

/-- Output passes to the other side under R313, with its gap. -/
def State.passOutput (s : State) : State :=
  let c := s.melCore
  ((((s.holdGap.setFlag (okFld c) false).setFld MEL.STATUS_CORE (1 - c)).setRegN MEL.TKO_NS s.freeRun).bump MEL.TKO_CNT 1).raise MEL.STAT_TAKEOVER

/-- A planned swap that is being monitored fails: output returns under R313 and the tried side is latent-faulty (R316). -/
def State.swapFails (s : State) : State :=
  let c := s.melCore
  ((s.setMel { s.mel with swapAt := none }).passOutput.setFlag (latFld c) true).raise MEL.STAT_SWAP_FAIL

def execTakeover (t : Nat) (s : State) : Out3 :=
  doneIf (s.at t) (s.mel.started && s.melState != 7 && s.standbyGood && !s.mel.resync) (fun s =>
    if s.mel.swapAt.isSome then s.swapFails else s.passOutput)

def execMelierMismatch (t : Nat) (s : State) : Out3 :=
  doneIf (s.at t) (s.mel.started && s.melState != 7) (fun s =>
    (s.setFlag (okFld (1 - s.melCore)) false).raise MEL.STAT_MISMATCH)

/-- The active side fails with no healthy side to take over (R318): the outputs hold for 20 cycles, and OSC_IN is then counted unsteered. -/
def State.coreFault (s : State) : State :=
  let s1 := s.unlock.holdFor 20
  (((s1.setMel { s1.mel with swapAt := none, resync := false, pairs := [], steer := 0 }).follow 7).setMelState 7).raise MEL.STAT_CORE_FAULT

def execTimeCoreFault (t : Nat) (s : State) : Out3 :=
  doneIf (s.at t) (s.mel.started && s.melState != 7 && (!s.standbyGood || s.mel.resync)) (fun s => s.coreFault)

def State.plannedSwap (s : State) : State :=
  if !s.mel.started || !s.standbyGood || s.melState == 6 || s.melState == 7 || s.mel.swapAt.isSome || s.mel.resync then
    s.raise MEL.STAT_SWAP_REJ
  else (s.setFld MEL.STATUS_CORE (1 - s.melCore)).setMel { s.mel with swapAt := some s.up }

/-- The monitor of a planned swap ends (R316): with a mismatch output returns to the side before it, or, where that was marked faulted in the
meantime, there is no side to return to (R318). -/
def execSwapMonitorEnd (mismatch : Bool) (t : Nat) (s : State) : Out3 :=
  match s.mel.swapAt with
  | some a =>
    doneIf (s.at t) (mismatch || decide (a + 1000000 * ns ≤ (s.at t).up)) (fun s =>
      if mismatch then (if s.standbyGood then s.swapFails else s.coreFault) else (s.setMel { s.mel with swapAt := none }).raise MEL.STAT_SWAP_OK)
  | none => done (s.at t)

/-- RESYNC: into a faulted standby, while no swap or resync is in flight. -/
def State.melResync (s : State) : State :=
  if s.mel.started && s.melState != 7 && s.mel.swapAt.isNone && !s.mel.resync && !s.flag (okFld (1 - s.melCore)) then
    s.setMel { s.mel with resync := true } else s

def execResyncDone (t : Nat) (s : State) : Out3 :=
  doneIf (s.at t) s.mel.resync (fun s =>
    ((s.setMel { s.mel with resync := false }).setFlag (okFld (1 - s.melCore)) true).raise MEL.STAT_RESYNC_DONE)

/-- Both cores restart in free-run: every mark is cleared and the holdover frequency discarded (R319). A restart before the first
start-up check stands for it. -/
def State.pairReset (s : State) : State :=
  if s.bellState = stSTOPPED then
    let s1 := s.setMel { s.mel with started := true, swapAt := none, resync := false, hoFreq := none, lockSince := none,
                                    lostAt := none, pairs := [], freqs := [], steer := 0, offset := 0 }
    let s2 := (((s1.setFlag MEL.STATUS_A_OK true).setFlag MEL.STATUS_B_OK true).setFlag MEL.STATUS_A_LAT false).setFlag
      MEL.STATUS_B_LAT false
    let s3 := ((s2.setFld MEL.STATUS_CORE 0).follow 7).setMelState 0
    if s.mel.started || s3.flag MEL.STATUS_OSC then s3 else ((s3.setReady 4 true).setReady 5 true).refsRun
  else s.raise MEL.STAT_RST_REJ

/-- A write of MEL.CTRL. -/
def State.melCtrl (s : State) (v : Nat) : State :=
  let s1 := (s.setRegN MEL.CTRL (v % 4)).forceHold
  let s2 := if v.testBit 2 then s1.plannedSwap else s1
  let s3 := if v.testBit 3 then s2.melResync else s2
  if v.testBit 4 then s3.pairReset else s3

def execForceHoldover (v : Word) (t : Nat) (s : State) : Out3 := doneIf (s.at t) (v.toNat.testBit 1) (fun s => s.melCtrl v.toNat)
def execPlannedSwap (v : Word) (t : Nat) (s : State) : Out3 := doneIf (s.at t) (v.toNat.testBit 2) (fun s => s.melCtrl v.toNat)
def execResync (v : Word) (t : Nat) (s : State) : Out3 := doneIf (s.at t) (v.toNat.testBit 3) (fun s => s.melCtrl v.toNat)
def execPairRst (v : Word) (t : Nat) (s : State) : Out3 := doneIf (s.at t) (v.toNat.testBit 4) (fun s => s.melCtrl v.toNat)

/-- The pair has no power to run on in DEEP_LP and WAKE_FAIL (R362, R364). -/
def State.melStopped (s : State) : Bool := s.fld PWR.STATUS_STATE == 3 || s.fld PWR.STATUS_STATE == 7

/-- The start-up check passes: free-run, both sides good, CLEAN ready (R312, R343). -/
def execMelierStartupDone (t : Nat) (s : State) : Out3 :=
  doneIf (s.at t) (!s.mel.started && !s.melStopped) (fun s =>
    let s1 := (s.setMel { s.mel with started := true }).setRegN MEL.STATUS (putBits 0x0C38 16 1 (s.fld MEL.STATUS_OSC))
    if s1.flag MEL.STATUS_OSC then s1 else ((s1.setReady 4 true).setReady 5 true).refsRun)

end Sys2Proof.Machine
end

