-- ==== Sys2Proof/Machine/Pitch.lean ====
section
/-! DEFINITION. Pitch call (R110 to R113): the pitch chain's words, the 100 ms timer, recall and host assignment. -/
namespace Sys2Proof.Machine

/-- The 100 ms of the pitch timer. -/
def pitchTimer : Nat := 100000000 * ns

/-- The word a device that holds pitch p sends (R110, R111): VALUE p + 1, or END with VALUE 63 at pitch 63; CHECK is the
bitwise NOT of bits [7:0]. -/
def pitchWordOf (p : Nat) : Nat :=
  let low := if p = 63 then 63 + 0xC0 else (p + 1) % 64 + 0x80
  low + 256 * (255 - low)

/-- A word is valid when its framing is intact, MARK is 0b10 or 0b11, and CHECK matches (R110). -/
def pitchWordValid (w : PitchWord) : Bool :=
  let low := w.word % 256
  w.framed && (low / 64 == 2 || low / 64 == 3) && w.word / 256 % 256 == 255 - low

/-- The pitch is checked against the canopy size while a full image is in force (R112). -/
def State.pitchRangeCheck (s : State) : State :=
  s.raiseIf (s.hasPitch && s.regN BEL.SCHED_ID != 0 && s.canopySize ≤ s.myPitch) PIT.STAT_PITCH_RANGE

/-- The device takes pitch p (R111): it starts sending, PITCHED is raised, and the mismatch report is armed. -/
def State.takePitch (s : State) (p src st : Nat) : State :=
  let s1 := ((s.setFld PIT.STATUS_STATE st).setFld PIT.STATUS_PITCH p).setFld PIT.STATUS_SRC src
  let s2 := { s1 with pit := { s1.pit with timerOn := false, lastWord := none, armed := true } }
  (s2.raise PIT.STAT_PITCHED).pitchRangeCheck

/-- Pitch call starts (R111): the lead takes pitch 0, a follower listens with its timer started. -/
def State.pitchCall (s : State) : State :=
  if s.isLead then s.takePitch 0 0 3
  else
    let s1 := ((s.setFld PIT.STATUS_STATE 0).setFld PIT.STATUS_PITCH 0).setFld PIT.STATUS_SRC 0
    { s1 with pit := { timerAt := s.up, timerOn := true, lastWord := none, armed := false } }

/-- A device that holds a pitch sends its word (R110). -/
def execPitchWordTx (t : Nat) (s : State) : Out3 :=
  let s := s.at t
  doneIf s s.hasPitch (fun s => s.emit (.pitchWord (pitchWordOf s.myPitch)))

/-- A valid word in LISTEN, ORPHAN or PITCHED (R111): `low` is its VALUE and MARK. -/
def State.pitchWordCounted (s : State) (low : Nat) : State :=
  let prev := s.pit.lastWord
  let v := low % 64
  let isEnd := low / 64 == 3
  let s1 := { s with pit := { s.pit with lastWord := some low } }
  match s.fld PIT.STATUS_STATE with
  | 1 =>
    if v = s.myPitch then { s1 with pit := { s1.pit with armed := true } }
    else
      match prev with
      | some q =>
        if s1.pit.armed && q % 64 != s.myPitch then
          { s1 with pit := { s1.pit with armed := false } }.raise PIT.STAT_PITCH_MISMATCH
        else s1
      | none => s1
  | st =>
    if isEnd then s1.raiseIf (st == 0) PIT.STAT_PITCH_RANGE
    else if prev = some low then s1.takePitch v 1 1 else s1

/-- A word on PITCH_IN (R110 to R112): an invalid one breaks a pair, a pitch word with VALUE 0 breaks nothing, and the lead
takes no action on any. -/
def execPitchWordRx (w : PitchWord) (s : State) : Out3 :=
  if pitchWordValid w then
    let s1 := s.setFld PIT.RXWORD_WORD w.word
    let low := w.word % 256
    if s.fld PIT.STATUS_STATE = 3 ∨ low = 0x80 then done s1 else done (s1.pitchWordCounted low)
  else done { s with pit := { s.pit with lastWord := none } }

/-- The 100 ms timer expires in LISTEN (R111). -/
def execOrphan (t : Nat) (s : State) : Out3 :=
  let s := s.at t
  doneIf s (s.fld PIT.STATUS_STATE == 0 && s.pit.timerOn && s.pit.timerAt + pitchTimer ≤ s.up) (fun s =>
    ({ s with pit := { s.pit with timerOn := false } }.setFld PIT.STATUS_STATE 2).raise PIT.STAT_ORPHAN)

/-- A write of 1 to PIT.CTRL.RECALL (R111, R114): accepted only while the bell is STOPPED, else ASSIGN_REJ. -/
def State.pitchRecall (s : State) : State :=
  if s.bellState = stSTOPPED then s.forgetLead.pitchCall else s.raise PIT.STAT_ASSIGN_REJ

def execPitchRecall (t : Nat) (s : State) : Out3 := done (s.at t).pitchRecall

/-- A write of PIT.ASSIGN (R113): with GO = 1 an orphan takes the pitch; outside ORPHAN or naming pitch 0 it is discarded. -/
def State.pitchAssign (s : State) (v : Nat) : State :=
  if v.testBit 6 then
    if s.fld PIT.STATUS_STATE = 2 ∧ v % 64 ≠ 0 then s.takePitch (v % 64) 2 1 else s.raise PIT.STAT_ASSIGN_REJ
  else s

def execPitchAssign (v : Word) (s : State) : Out3 := done (s.pitchAssign v.toNat)

/-- An assignment frame (R113), an Ethernet frame with EtherType 0x88B5 and subtype 0x0001: the orphan whose serial it
carries consumes it, taking the pitch or raising ASSIGN_REJ; every other device forwards it. -/
def execAssignmentFrameRx (port : Nat) (frame : List Byte) (_room : Bool) (s : State) : Out3 :=
  let pl := frame.drop 14
  if beAt frame 12 2 = 0x88B5 ∧ beAt pl 0 2 = 1 then
    if s.fld PIT.STATUS_STATE = 2 ∧ beAt pl 2 8 = s.serial then
      let p := beAt pl 10 1
      if p = 0 ∨ 63 < p ∨ beAt pl 11 1 ≠ 0 then done (s.raise PIT.STAT_ASSIGN_REJ) else done (s.takePitch p 2 1)
    else done (s.svcForward port frame)
  else done s

end Sys2Proof.Machine
end

