-- ==== Sys2Proof/Machine/Ptp.lean ====
section
/-! DEFINITION. Station time, time-stamps, the service chain, the transparent clock, peer delay, the PTP slave and the input
delays (R320 to R339). Message layouts are those of IEEE 1588-2019 (PRESUMED, log entry 31). A frame is its bytes from the
destination address to the end of the payload, its FCS left out. -/
namespace Sys2Proof.Machine

def State.setPtp (s : State) (p : PtpEng) : State := { s with ptp := p }

/-! ## Station time (R320 to R325) -/

/-- A load of station time: VALID, TIME_SET, SETCNT (R321, R322). -/
def State.loadTime (s : State) (v : Nat) : State :=
  let s1 := { s with now := v, mel := { s.mel with offset := 0, gapTo := 0 } }
  ((s1.setFlag PTP.STATUS_VALID true).setFld PTP.STATUS_SETCNT (s1.fld PTP.STATUS_SETCNT + 1)).raise PTP.STAT_TIME_SET

def State.tsetSec (s : State) : Nat := s.regN PTP.TSET_SEC_LO + s.fld PTP.TSET_SEC_HI_SEC * 2 ^ 32

/-- A write of TSET_CMD (R322). -/
def State.timeSet (s : State) (v : Nat) : State :=
  let s1 := s.setFld PTP.TSET_CMD_MODE (bits v 1 1)
  if !v.testBit 0 then s1
  else if s1.bellState ≠ stSTOPPED then s1.raise PTP.STAT_TSET_REJ
  else if v.testBit 1 then (s1.setFlag PTP.TSET_CMD_PEND false).loadTime (s1.tsetSec * second + s1.fld PTP.TSET_NS_NS * ns)
  else (s1.setPtp { s1.ptp with tset := s1.tsetSec, tsetGo := s1.up }).setFlag PTP.TSET_CMD_PEND true

def execTimeSetCmd (v : Word) (t : Nat) (s : State) : Out3 := done ((s.at t).timeSet v.toNat)

/-- The bell leaves STOPPED: a pending load is cancelled (R322). -/
def State.tsetCancel (s : State) : State :=
  if s.flag PTP.TSET_CMD_PEND then (s.setFlag PTP.TSET_CMD_PEND false).raise PTP.STAT_TSET_REJ else s

/-- A read of NOW_NS latches all four (R323). -/
def State.nowRead (s : State) : Nat × State :=
  let n := s.heldNow / ns % 1000000000
  let sec := s.heldNow / second
  let s1 := (((s.setRegN PTP.NOW_NS n).setRegN PTP.NOW_SEC_LO sec).setRegN PTP.NOW_SEC_HI (sec / 2 ^ 32 % 65536)).setRegN
    PTP.NOW_FR s.freeRun
  (n, s1)

def execNowRead (master t : Nat) (s : State) : Out3 :=
  let (n, s1) := (s.at t).nowRead
  done (s1.emit (.readData master n))

/-! ## Stamps (R326, R327) -/

/-- An exact instant as a stamp of FR, to the nearest nanosecond, within the ±1 ns of R326; in a switch-over gap the held value (R313,
R327). -/
def State.stampOf (s : State) : Nat :=
  if s.inGap then s.freeRun
  else ofSigned 32 (((s.now + ns / 2) / ns : Nat) + clampI (-1) 1 (Config.error 326 [s.now]))

/-- The PPS edge of the followed time-giving reference: a pending MODE 0 load takes effect (R322), else an unset station time is
loaded with the second that the reference's valid message names (R321). -/
def State.ppsEdge (s : State) (r : Nat) : State :=
  if s.melActive ≠ r then s
  else if s.flag PTP.TSET_CMD_PEND then (s.setFlag PTP.TSET_CMD_PEND false).loadTime (s.ptp.tset * second)
  else if !s.flag PTP.STATUS_VALID && s.melState == 2 && (match Store.get? s.mel.todAt r with
      | some a => decide (s.up < a + second)
      | none => false) then s.loadTime (Store.getD s.mel.todSec r 0 * second)
  else s

def State.queueStamp (s : State) (src : Nat) (fall : Bool) (fr : Nat) : State :=
  if (if fall then s.fld PTP.TS_EN_FALL else s.fld PTP.TS_EN_RISE).testBit src then
    if s.ptp.queue.length < 64 then
      s.setPtp { s.ptp with queue := s.ptp.queue ++ [{ src := src, fall := fall, fr := fr, ovf := s.ptp.ovf }], ovf := false }
    else (s.setPtp { s.ptp with ovf := true }).raise PTP.STAT_TS_OVF
  else s

/-- An edge on EVT0 to EVT7 (0 to 7) or REF_A_PPS to REF_C_PPS (8 to 10). -/
def execStampEdge (src : Nat) (fall : Bool) (t : Nat) (s : State) : Out3 :=
  doneIf (s.at t) (src < 11) (fun s =>
    let s1 := if src < 8 && !fall then s.pulse (65 + src) else s
    let soon := match Store.get? s1.ptp.lastEdge src with
      | some a => decide (s1.up < a + 100 * ns)
      | none => false
    let s2 :=
      if soon then (s1.bump PTP.TSQ_LOST 1).raise PTP.STAT_TS_LOST
      else
        let fr := s1.stampOf
        let s := ((s1.setPtp { s1.ptp with lastEdge := Store.put s1.ptp.lastEdge src s1.up }).setRegN (PTP.TSLAST src) fr).queueStamp
          src fall fr
        if src < 8 && (s.fld RRG.PIN_EN).testBit src && (s.fld RRG.PIN_FALL).testBit src == fall
        then s.trigger 3 (src + fr * 256) else s
    if 8 ≤ src && !fall then s2.ppsEdge (src - 8) else s2)

/-- A read of TSQ_INFO (R327). -/
def State.stampPop (s : State) : Nat × State :=
  match s.ptp.queue with
  | [] => (0, s)
  | q :: l => (1 + 2 * q.src + 32 * boolNat q.fall + 64 * l.length + 8192 * boolNat q.ovf,
      (s.setPtp { s.ptp with queue := l }).setRegN PTP.TSQ_NS q.fr)

def execStampQueuePop (master : Nat) (s : State) : Out3 :=
  let (v, s1) := s.stampPop
  done (s1.emit (.readData master v))

/-! ## PTP messages (R330, R331) -/

/-- Where a PTP version 2 message of minor version 0 or 1 lies in a frame: its offset, the transport (0 layer 2, 1 UDP/IPv4, 2
UDP/IPv6) and the offset of its UDP header. Up to two 802.1Q tags are passed over. -/
structure PtpLoc where
  off : Nat
  trans : Nat
  udp : Nat
deriving DecidableEq, Repr

def tagType (x : Nat) : Bool := x == 0x8100 || x == 0x88A8

def etherTypeAt (f : List Byte) : Nat :=
  if tagType (beAt f 12 2) then (if tagType (beAt f 16 2) then 20 else 16) else 12

/-- The UDP ports of PTP: 319 event, 320 general. -/
def ptpPort (f : List Byte) (udp : Nat) (ty : Nat) : Bool := beAt f (udp + 2) 2 == (if ty < 8 then 319 else 320)

def ptpType (f : List Byte) (off : Nat) : Nat := beAt f off 1 % 16

def ptpLoc (f : List Byte) : Option PtpLoc :=
  let e := etherTypeAt f
  let ty := beAt f e 2
  let l : Option PtpLoc :=
    if ty = 0x88F7 then some { off := e + 2, trans := 0, udp := 0 }
    else if ty = 0x0800 ∧ beAt f (e + 11) 1 = 17 ∧ beAt f (e + 2) 1 / 16 = 4 then
      let u := e + 2 + 4 * (beAt f (e + 2) 1 % 16)
      some { off := u + 8, trans := 1, udp := u }
    else if ty = 0x86DD ∧ beAt f (e + 8) 1 = 17 then some { off := e + 50, trans := 2, udp := e + 42 }
    else none
  match l with
  | none => none
  | some l =>
    if f.length < l.off + 34 then none
    else if beAt f (l.off + 1) 1 % 16 ≠ 2 ∨ 1 < beAt f (l.off + 1) 1 / 16 then none
    else if l.trans ≠ 0 ∧ !ptpPort f l.udp (ptpType f l.off) then none
    else some l

/-- Fields of a PTP header at `o`. -/
def ptpDomain (f : List Byte) (o : Nat) : Nat := beAt f (o + 4) 1
def ptpTwoStep (f : List Byte) (o : Nat) : Bool := (beAt f (o + 6) 1).testBit 1
def ptpTimescale (f : List Byte) (o : Nat) : Bool := (beAt f (o + 7) 1).testBit 3
def ptpCorr (f : List Byte) (o : Nat) : Int := toSigned 64 (beAt f (o + 8) 8)
def ptpSpi (f : List Byte) (o : Nat) : Nat := beAt f (o + 20) 10
def ptpSeq (f : List Byte) (o : Nat) : Nat := beAt f (o + 30) 2
def ptpLog (f : List Byte) (o : Nat) : Int := toSigned 8 (beAt f (o + 33) 1)

/-- A PTP timestamp in 2^−16 ns. -/
def ptpStamp (f : List Byte) (o : Nat) : Int := beAt f o 6 * second + beAt f (o + 6) 4 * ns

/-- An instant as a PTP timestamp of whole nanoseconds. -/
def stampBytes (t : Int) : List Byte :=
  let n := t.toNat / ns
  toBytesBE 6 (n / 1000000000) ++ toBytesBE 4 (n % 1000000000)

/-- Picoseconds in 2^−16 ns. -/
def psFine (ps : Int) : Int := roundOpen 331 (ps * 65536) 1000

/-- The ingress stamp of a frame that crosses the ball now, and the egress stamp of one that does at t (R331). -/
def State.ingressStamp (s : State) (port : Nat) : Int := s.heldNow - psFine (s.fld (PTP.SVC_RXDLY_PS port))
def State.egressStamp (s : State) (port t : Nat) : Int := t + psFine (s.fld (PTP.SVC_TXDLY_PS port))

/-- 2^k seconds, k signed. -/
def logSeconds (k : Int) : Nat := if k < 0 then second / 2 ^ k.natAbs else second * 2 ^ k.natAbs

def putBytes (f : List Byte) (o : Nat) (l : List Byte) : List Byte := f.take o ++ l ++ f.drop (o + l.length)

/-! ## The transparent clock (R332 to R334) -/

def State.p2p (s : State) : Bool := s.flag PTP.TC_CTRL_MECH

/-- Counted in TC_DISC, and raised. -/
def State.tcDisc (s : State) : State := (s.bump PTP.TC_DISC 1).raise PTP.STAT_TC_DISC

def State.tcUnmatched (s : State) : State := (s.bump PTP.TC_UNM 1).raise PTP.STAT_TC_UNMATCHED

/-- The sum of 16-bit words modulo 65,535. -/
def onesMod (l : List Byte) : Nat := ((l.zipIdx).map (fun p => p.1.toNat * (if p.2 % 2 = 0 then 256 else 1))).sum % 65535

/-- A message with `add` in its correctionField, its checksum treated as R334 says; none where it lacks the Annex E suffix. -/
def corrected (f : List Byte) (l : PtpLoc) (add : Int) : Option (List Byte) :=
  let c := ptpCorr f l.off + add
  let c := if 2 ^ 63 - 1 < c then 2 ^ 63 - 1 else c
  let new := toBytesBE 8 (ofSigned 64 c)
  let old := (f.drop (l.off + 8)).take 8
  let g := putBytes f (l.off + 8) new
  match l.trans with
  | 0 => some g
  | 1 => some (putBytes g (l.udp + 6) [0#8, 0#8])
  | _ =>
    let len := beAt f (l.off + 2) 2
    if beAt f (l.udp + 4) 2 < len + 10 then none
    else
      let o := l.off + len
      let pad := if len % 2 = 0 then [] else [0#8]
      let was := onesMod (pad ++ (f.drop o).take 2)
      let x := (was + onesMod old + 65535 - onesMod new) % 65535
      let x := if len % 2 = 0 then x else x % 256 * 256 + x / 256
      some (putBytes g o (toBytesBE 2 x))

/-- A PTP message goes on (R329): an event message (types 0 to 3) ahead of the frames that wait, with its first bit at tx. -/
def State.svcForwardPtp (s : State) (port : Nat) (f : List Byte) (o tx : Nat) : State :=
  if ptpType f o < 4 then s.svcForwardEvent port f tx else s.svcForward port f

/-- A corrected message goes on, or is discarded for want of the suffix. -/
def State.sendCorrected (s : State) (port : Nat) (f : List Byte) (l : PtpLoc) (add : Int) (tx : Nat) : State :=
  match corrected f l add with
  | some g => s.svcForwardPtp port g l.off tx
  | none => s.tcDisc

/-- The residence time (R331), accurate within ±2 ns. -/
def State.residence (s : State) (port tx : Nat) : Int :=
  s.egressStamp (otherSvc port) tx - s.ingressStamp port + clampI (-131072) 131072 (Config.error 331 [port, s.now, tx])

/-- What a Sync receives (R332). -/
def State.syncSum (s : State) (port tx : Nat) : Int :=
  if s.p2p then s.residence port tx + 256 * s.regN (PTP.SVC_MLD port) + psFine (toSigned 32 (s.regN (PTP.SVC_ASYM port)))
  else s.residence port tx

def State.tcMessage (s : State) (port : Nat) (f : List Byte) (l : PtpLoc) (tx : Nat) : State :=
  let o := l.off
  let out := otherSvc port
  let same (e : TcEntry) : Bool := e.domain == ptpDomain f o && e.seq == ptpSeq f o && e.spi == ptpSpi f o && e.out == out
  match ptpType f o with
  | 0 =>
    if s.p2p && !s.flag (PTP.SVC_STATUS_PD_OK port) then s.tcDisc.svcForwardPtp port f o tx
    else if ptpTwoStep f o then
      let s1 := if s.ptp.tc.length < 64 then
          s.setPtp { s.ptp with tc := s.ptp.tc ++ [{ domain := ptpDomain f o, seq := ptpSeq f o, spi := ptpSpi f o, out := out,
                                                     sum := s.syncSum port tx, since := s.up }] }
        else s.raise PTP.STAT_TC_UNMATCHED
      s1.svcForwardPtp port f o tx
    else s.sendCorrected port f l (s.syncSum port tx) tx
  | 8 =>
    match s.ptp.tc.find? same with
    | some e => (s.setPtp { s.ptp with tc := s.ptp.tc.erase e }).sendCorrected port f l e.sum tx
    | none => s.tcUnmatched.svcForwardPtp port f o tx
  | 1 => if s.p2p then s.tcDisc.svcForwardPtp port f o tx else s.sendCorrected port f l (s.residence port tx) tx
  | 2 => s.sendCorrected port f l (s.residence port tx) tx
  | 3 => s.sendCorrected port f l (s.residence port tx) tx
  | _ => s.svcForwardPtp port f o tx

/-- Peer-delay messages that this device consumes: in P2P mode, or to 01-80-C2-00-00-0E (R329, R335). -/
def State.consumesPdelay (s : State) (f : List Byte) : Bool :=
  beAt f 0 6 == 0x0180C200000E ||
    (match ptpLoc f with
     | some l => s.p2p && (ptpType f l.off == 2 || ptpType f l.off == 3 || ptpType f l.off == 10)
     | none => false)

/-- A PTP message that crosses the chain; `tx` is when its first bit can leave the other port. -/
def State.ptpMessage (s : State) (port : Nat) (f : List Byte) (tx : Nat) : State :=
  match ptpLoc f with
  | some l =>
    if s.consumesPdelay f then s
    else
      let q := otherSvc port
      let s1 := if s.svcOpen port f then s.svcDrain q else s
      let tx := s1.eventTx q tx
      if s1.flag PTP.TC_CTRL_EN && s1.svcOpen port f then s1.tcMessage port f l tx else s1.svcForwardPtp port f l.off tx
  | none => s

def execPtpMessageRx (port : Nat) (frame : List Byte) (_room : Bool) (tx t : Nat) (s : State) : Out3 :=
  doneIf (s.at t) (port < 2 && s.svcUp port) (fun s => s.ptpMessage port frame tx)

/-- A two-step entry not matched within 1 s is freed (R333). -/
def execTwoStepEntryTimeout (t : Nat) (s : State) : Out3 :=
  let s := s.at t
  match s.ptp.tc with
  | e :: l => doneIf s (decide (e.since + second ≤ s.up)) (fun s => (s.setPtp { s.ptp with tc := l }).tcUnmatched)
  | [] => done s

/-! ## The chain (R329) -/

/-- The state a command's effect leads to. -/
def resultState (o : Out3) (s : State) : State := match o with
  | .next s1 => s1
  | _ => s

/-- SVC0 down, or 16 consecutive PTP messages with a receive error on it, send the slave from any state but DISABLED to FAULTY (R336). -/
def State.slaveFaulty (s : State) : State :=
  if s.fld PTP.SLV_STATUS_STATE = 0 then s
  else
    let s1 := ((s.setPtp { s.ptp with sel := none, masters := [], offsets := 0, sync := none, faultAt := s.up, rxErr := 0 }).setFld
      PTP.SLV_STATUS_STATE 4).raise PTP.STAT_SLV_LOST
    if s1.refQual 5 = 0 then s1 else s1.disqualify 5 4

def State.slaveRx (s : State) (port : Nat) (f : List Byte) (ok : Bool) : State :=
  if port = 0 && (ptpLoc f).isSome then
    if ok then s.setPtp { s.ptp with rxErr := 0 }
    else
      let s1 := s.setPtp { s.ptp with rxErr := s.ptp.rxErr + 1 }
      if 16 ≤ s1.ptp.rxErr then s1.slaveFaulty else s1
  else s

/-! ## The device's own messages (R335, R336) -/

def State.clockId (s : State) : Nat := s.pair PTP.CLKID_LO PTP.CLKID_HI

def State.ownSpi (s : State) (port : Nat) : Nat := s.clockId * 65536 + port + 1

/-- A PTP header and body. -/
def ptpMsg (ty domain flags : Nat) (corr : Int) (spi seq : Nat) (log : Nat) (body : List Byte) : List Byte :=
  [BitVec.ofNat 8 ty, 0x12#8] ++ toBytesBE 2 (34 + body.length) ++ [BitVec.ofNat 8 domain, 0#8] ++ toBytesBE 2 flags
    ++ toBytesBE 8 (ofSigned 64 corr) ++ [0#8, 0#8, 0#8, 0#8] ++ toBytesBE 10 spi ++ toBytesBE 2 seq
    ++ [if ty = 1 then 1#8 else 5#8, BitVec.ofNat 8 log] ++ body

/-- The MAC, IPv4 and IPv6 destination of a message: peer-delay or the others. -/
def ptpDest (peer : Bool) (trans : Nat) : Nat :=
  match trans with
  | 1 => if peer then 0x01005E00006B else 0x01005E000181
  | 2 => if peer then 0x33330000006B else 0x333300000181
  | _ => if peer then 0x0180C200000E else 0x011B19000000

/-- The link-local address that modified EUI-64 forms from SRC_MAC. -/
def State.linkLocal (s : State) : List Byte :=
  let hi := s.regN PTP.SRC_MAC_HI % 65536
  let lo := s.regN PTP.SRC_MAC_LO
  [0xFE#8, 0x80#8, 0#8, 0#8, 0#8, 0#8, 0#8, 0#8] ++ toBytesBE 2 (hi ^^^ 0x0200) ++ [BitVec.ofNat 8 (lo / 2 ^ 24), 0xFF#8, 0xFE#8]
    ++ toBytesBE 3 (lo % 2 ^ 24)

/-- A message of the device's own as a frame on transport `trans`. -/
def State.ptpFrame (s : State) (trans : Nat) (peer event : Bool) (m : List Byte) : List Byte :=
  let port := if event then 319 else 320
  let ttl : Nat := if peer then 1 else 64
  let entry (v6 : Nat) (src dst : List Byte) : List Byte :=
    List.replicate 12 0#8 ++ [BitVec.ofNat 8 v6, 0#8, 0#8, BitVec.ofNat 8 ttl, 0#8, 0#8] ++ toBytesBE 2 port ++ toBytesBE 2 port ++ [0#8, 0#8]
      ++ src ++ List.replicate (16 - src.length) 0#8 ++ dst
  match trans with
  | 1 =>
    let dst := if peer then [224#8, 0#8, 0#8, 107#8] else [224#8, 0#8, 1#8, 129#8]
    s.svcHeader (ptpDest peer 1) 0x0800 ++ ipPacket (entry 0 (toBytesBE 4 (s.regN PTP.SRC_IP4)) dst) m
  | 2 =>
    let dst := if peer then [0xFF#8, 0x02#8] ++ List.replicate 13 0#8 ++ [0x6B#8]
      else [0xFF#8, 0x0E#8] ++ List.replicate 12 0#8 ++ [0x01#8, 0x81#8]
    s.svcHeader (ptpDest peer 2) 0x86DD ++ ipPacket (entry 1 s.linkLocal dst) (m ++ [0#8, 0#8])
  | _ => s.svcHeader (ptpDest peer 0) 0x88F7 ++ m

/-! ## Peer delay (R335) -/

def State.pd (s : State) (port : Nat) : PdPort := atD s.ptp.pd port PdPort.reset

def State.setPd (s : State) (port : Nat) (p : PdPort) : State := s.setPtp { s.ptp with pd := setAt s.ptp.pd port p }

/-- 2^(LOGPD − 3) s. -/
def State.pdInterval (s : State) : Nat := second * 2 ^ s.fld PTP.TC_CTRL_LOGPD / 8

def execPdelayReqTx (port t : Nat) (s : State) : Out3 :=
  let s := s.at t
  let p := s.pd port
  doneIf s (port < 2 && s.p2p && s.svcUp port && (match p.sentAt with
      | some a => decide (a + s.pdInterval ≤ s.up)
      | none => true)) (fun s =>
    let q := (p.seq + 1) % 65536
    let m := ptpMsg 2 (s.fld PTP.TC_CTRL_DOMAIN) 0 0 (s.ownSpi port) q 0x7F (List.replicate 20 0#8)
    ((s.setPd port { p with seq := q, req := some (q, s.egressStamp port s.now), sentAt := some s.up,
                            unanswered := p.unanswered + 1, resp := none })).svcSend port
      (s.ptpFrame (s.fld PTP.TC_CTRL_TRANS) true true m))

/-- A Pdelay_Req is consumed and answered; `tx` is when the response leaves the ball. -/
def execPdelayReqRx (port : Nat) (frame : List Byte) (tx t : Nat) (s : State) : Out3 :=
  let s := s.at t
  match ptpLoc frame with
  | some l =>
    doneIf s (port < 2 && s.svcUp port && s.p2p && ptpType frame l.off == 2) (fun s =>
      let o := l.off
      let t2 := s.ingressStamp port
      let t3 := s.egressStamp port tx
      let c := ptpCorr frame o
      let req := toBytesBE 10 (ptpSpi frame o)
      let trans := s.fld PTP.TC_CTRL_TRANS
      let m (ty flags : Nat) (corr : Int) (stamp : List Byte) : List Byte :=
        ptpMsg ty (ptpDomain frame o) flags corr (s.ownSpi port) (ptpSeq frame o) 0x7F (stamp ++ req)
      if s.flag PTP.TC_CTRL_ONESTEP then
        s.svcSend port (s.ptpFrame trans true true (m 3 0 (c + (t3 - t2)) (List.replicate 10 0#8)))
      else
        (s.svcSend port (s.ptpFrame trans true true (m 3 0x0200 (-(t2 % ns)) (stampBytes t2)))).svcSend port
          (s.ptpFrame trans true false (m 10 0 (c + t3 % ns) (stampBytes t3))))
  | none => done s

/-- An exchange is complete: the mean of the last eight values is the port's MLD (2^−8 ns); where it is negative the register's
value is open. -/
def State.pdValue (s : State) (port : Nat) (twice : Int) : State :=
  let p := s.pd port
  let v := (twice :: p.vals).take 8
  let n := p.cnt + 1
  let s1 := s.setPd port { p with vals := v, cnt := n, req := none, resp := none, unanswered := 0, failed := false }
  if n < 8 then s1
  else
    let mean := roundOpen 335 v.sum 4096
    let s2 := s1.setFlag (PTP.SVC_STATUS_PD_OK port) true
    if mean < 0 then
      let (x, s3) := s2.fresh 32
      s3.setRegN (PTP.SVC_MLD port) x
    else s2.setRegN (PTP.SVC_MLD port) (min mean.toNat (2 ^ 32 - 1))

def execPdelayRespRx (port : Nat) (frame : List Byte) (t : Nat) (s : State) : Out3 :=
  let s := s.at t
  let p := s.pd port
  match ptpLoc frame, p.req with
  | some l, some (q, t1) =>
    let o := l.off
    let mine := port < 2 && s.svcUp port && s.p2p && ptpSeq frame o == q && beAt frame (o + 44) 10 == s.ownSpi port
    let stamp := ptpStamp frame (o + 34)
    let c := ptpCorr frame o
    doneIf s (mine && (ptpType frame o == 3 || ptpType frame o == 10)) (fun s =>
      if ptpType frame o = 3 then
        let t4 := s.ingressStamp port
        if ptpTwoStep frame o then s.setPd port { p with resp := some (stamp, c, t4) }
        else s.pdValue port (t4 - t1 - c)
      else match p.resp with
        | some (t2, c2, t4) => s.pdValue port ((t4 - t1) - (stamp - t2 + c + c2))
        | none => s)
  | _, _ => done s

/-- Three consecutive requests without response; the last MLD is held. -/
def execPdFail (port t : Nat) (s : State) : Out3 :=
  let p := s.pd port
  doneIf (s.at t) (port < 2 && s.p2p && 3 ≤ p.unanswered && !p.failed) (fun s =>
    (s.setPd port { p with failed := true }).raise PTP.STAT_PD_FAIL)

/-! ## The slave (R336, R337) -/

def State.slaveState (s : State) : Nat := s.fld PTP.SLV_STATUS_STATE

/-- The slave's state changes; outside SLAVE candidate PTP fails its check at once (R298). -/
def State.slaveTo (s : State) (st : Nat) : State :=
  let s1 := s.setFld PTP.SLV_STATUS_STATE st
  if st ≠ 3 && s1.refQual 5 != 0 then s1.disqualify 5 4 else s1

/-- The slave waits for a master: what it held of one is gone. -/
def State.slaveListen (s : State) (st : Nat) : State :=
  (s.setPtp { s.ptp with sel := none, offsets := 0, lastSeq := none, sync := none, msDelay := none, delayReq := none,
                         masterAt := none }).slaveTo st

/-- A write of SLV_CTRL. -/
def State.slaveCtrl (s : State) (v : Nat) : State :=
  let s1 := s.setRegN PTP.SLV_CTRL (v % 65536)
  if !v.testBit 0 then (s1.setPtp { s1.ptp with masters := [] }).slaveListen 0
  else if s1.slaveState = 0 && s1.svcUp 0 then s1.slaveListen 1
  else s1

def execSlaveEnable (v : Word) (t : Nat) (s : State) : Out3 := done ((s.at t).slaveCtrl v.toNat)

/-- The message is for the slave: on its transport, in its domain. -/
def State.slaveLoc (s : State) (f : List Byte) : Option Nat :=
  match ptpLoc f with
  | some l => if l.trans = s.fld PTP.SLV_CTRL_TRANS % 3 && ptpDomain f l.off == s.fld PTP.SLV_CTRL_DOMAIN then some l.off else none
  | none => none

/-- The data set comparison of the default best-master algorithm. -/
def PtpMaster.better (a b : PtpMaster) : Bool :=
  let lex (l : List (Nat × Nat)) : Bool := match l.find? (fun p => p.1 != p.2) with
    | some p => decide (p.1 < p.2)
    | none => false
  if a.gm = b.gm then lex [(a.steps, b.steps), (a.spi, b.spi)]
  else lex [(a.prio1, b.prio1), (a.cls, b.cls), (a.accuracy, b.accuracy), (a.variance, b.variance), (a.prio2, b.prio2), (a.gm, b.gm)]

/-- Two Announce messages within four announce intervals qualify a master. -/
def PtpMaster.qualifies (m : PtpMaster) (now : Nat) : Bool :=
  (match m.prev with | some p => decide (now ≤ p + 4 * logSeconds m.logAnn) | none => false) && m.steps < 255

def State.selMaster (s : State) : Option PtpMaster := s.ptp.masters.find? (fun m => some m.spi == s.ptp.sel)

/-- SLV_STATUS, SLV_GM and candidate PTP's clockClass show the selected master. -/
def State.showMaster (s : State) : State :=
  match s.selMaster with
  | some m => ((((s.setFld PTP.SLV_STATUS_CLASS m.cls).setFld PTP.SLV_STATUS_STEPS m.steps).setPair PTP.SLV_GM_LO PTP.SLV_GM_HI m.gm).setFld
      (MEL.REF_QL_CODE 5) m.cls).refreshRanks
  | none => s

/-- The best of the masters that may be selected: the selected one stands until a better one qualifies, or its stepsRemoved reaches 255. -/
def State.bestMaster (s : State) : Option PtpMaster :=
  (s.ptp.masters.filter (fun m => m.steps < 255 && (m.qualifies s.up || some m.spi == s.ptp.sel))).foldl
    (fun (b : Option PtpMaster) m => match b with
      | some x => if m.better x then some m else b
      | none => some m) none

/-- The selected master is lost from selection (R336). -/
def State.masterLost (s : State) : State := (s.slaveListen 1).raise PTP.STAT_SLV_LOST

/-- Selection among the masters (R336): a selected one that may not stand is lost, a better one restarts measurement. -/
def State.selectMaster (s : State) : State :=
  let s := if s.selMaster.any (fun m => decide (255 ≤ m.steps)) then s.masterLost else s
  match s.bestMaster with
  | some m => if s.ptp.sel = some m.spi then s.showMaster
      else ((s.slaveListen 2).setPtp { (s.slaveListen 2).ptp with sel := some m.spi }).showMaster
  | none => s

def execAnnounceRx (frame : List Byte) (t : Nat) (s : State) : Out3 :=
  let s := s.at t
  match s.slaveLoc frame with
  | some o =>
    let scale := ptpTimescale frame o || s.flag PTP.CTRL_ARB
    doneIf s (s.svcUp 0 && 1 ≤ s.slaveState && s.slaveState ≤ 3 && ptpType frame o == 11 && scale &&
        ptpSpi frame o / 65536 != s.clockId) (fun s =>
      let spi := ptpSpi frame o
      let prev := (s.ptp.masters.find? (fun m => m.spi == spi)).map (fun m => m.last)
      let m : PtpMaster := { spi := spi, prio1 := beAt frame (o + 47) 1, cls := beAt frame (o + 48) 1,
                             accuracy := beAt frame (o + 49) 1, variance := beAt frame (o + 50) 2,
                             prio2 := beAt frame (o + 52) 1, gm := beAt frame (o + 53) 8, steps := beAt frame (o + 61) 2,
                             logAnn := ptpLog frame o, last := s.up, prev := prev }
      (s.setPtp { s.ptp with masters := m :: s.ptp.masters.filter (fun x => x.spi != spi) }).selectMaster)
  | none => done s

/-- Announce receipt times out after ANN_TO announce intervals. -/
def execAnnounceTimeout (t : Nat) (s : State) : Out3 :=
  let s := s.at t
  match s.selMaster with
  | some m =>
    doneIf s ((s.slaveState == 2 || s.slaveState == 3) &&
        decide (m.last + max 2 (s.fld PTP.SLV_CTRL_ANN_TO) * logSeconds m.logAnn ≤ s.up)) (fun s =>
      (s.setPtp { s.ptp with masters := s.ptp.masters.filter (fun x => x.spi != m.spi) }).masterLost)
  | none => done s

/-- The mean path delay in use: the measured one under E2E, SVC0's MLD under P2P. -/
def State.pathDelay (s : State) : Int :=
  if s.flag PTP.SLV_CTRL_MECH then 256 * s.regN (PTP.SVC_MLD 0) else s.ptp.mpd

/-- The first instant of device time after g at which master time reaches a whole second, master time being m at u. -/
def nextSecond (m u g : Nat) : Nat := g + (second - (m + (g - u)) % second)

/-- A Sync gives master time m. The master's whole second is candidate PTP's PPS edge (R337): where the Sync before this one puts one since
then, and since the GO of a pending load, that load takes effect as of the edge (R322), else an unset station time is loaded (R321). -/
def State.ptpSecond (s : State) (m : Int) : State :=
  let s1 := s.setPtp { s.ptp with masterAt := some (m.toNat, s.up) }
  let pend := s.flag PTP.TSET_CMD_PEND
  match s.ptp.masterAt with
  | some (m0, u) =>
    let e := nextSecond m0 u (if pend then max u s.ptp.tsetGo else u)
    if s.melActive = 5 ∧ e ≤ s.up then
      if pend then (s1.setFlag PTP.TSET_CMD_PEND false).loadTime (s.ptp.tset * second + (s.up - e))
      else if !s.flag PTP.STATUS_VALID && s.melState == 2 then s1.loadTime m.toNat
      else s1
    else s1
  | none => s1

/-- One offset measured: master time at the Sync, and the Sync's stamp. -/
def State.slaveOffset (s : State) (seq : Nat) (origin stamp : Int) : State :=
  let m := origin + s.pathDelay
  let off := clampI (-(2 ^ 31)) (2 ^ 31 - 1) (roundOpen 337 (m - stamp) ns)
  let n := if s.ptp.lastSeq = some ((seq + 65535) % 65536) then s.ptp.offsets + 1 else 1
  let s1 := (s.setPtp { s.ptp with offsets := n, lastSeq := some seq, sync := none, msDelay := some (stamp - origin) }).setRegN
    PTP.SLV_OFFSET (ofSigned 32 off)
  let s2 := if s1.slaveState = 2 && decide (16 ≤ n) then (s1.slaveTo 3).raise PTP.STAT_SLV_LOCK else s1
  if s2.slaveState = 3 then (s2.setRegN (MEL.REF_TOFF 5) (ofSigned 32 off)).ptpSecond (m + (s2.now - stamp)) else s2

def execSyncRx (frame : List Byte) (t : Nat) (s : State) : Out3 :=
  let s := s.at t
  match s.slaveLoc frame with
  | some o =>
    doneIf s (s.svcUp 0 && (s.slaveState == 2 || s.slaveState == 3) && some (ptpSpi frame o) == s.ptp.sel) (fun s =>
      let c := ptpCorr frame o
      let seq := ptpSeq frame o
      match ptpType frame o with
      | 0 =>
        if ptpTwoStep frame o then s.setPtp { s.ptp with sync := some (seq, s.ingressStamp 0, c) }
        else s.slaveOffset seq (ptpStamp frame (o + 34) + c) (s.ingressStamp 0)
      | 8 => match s.ptp.sync with
        | some (q, stamp, c0) => if q = seq then s.slaveOffset seq (ptpStamp frame (o + 34) + c0 + c) stamp else s
        | none => s
      | _ => s)
  | none => done s

/-- Under E2E, a Delay_Req every 2^logMinDelayReqInterval s. -/
def execDelayReqTx (t : Nat) (s : State) : Out3 :=
  let s := s.at t
  doneIf s (s.svcUp 0 && (s.slaveState == 2 || s.slaveState == 3) && !s.flag PTP.SLV_CTRL_MECH && (match s.ptp.delayAt with
      | some a => decide (a + logSeconds s.ptp.logDelay ≤ s.up)
      | none => true)) (fun s =>
    let q := (s.ptp.delaySeq + 1) % 65536
    let m := ptpMsg 1 (s.fld PTP.SLV_CTRL_DOMAIN) 0 0 (s.ownSpi 0) q 0x7F (List.replicate 10 0#8)
    (s.setPtp { s.ptp with delaySeq := q, delayReq := some (q, s.egressStamp 0 s.now), delayAt := some s.up }).svcSend 0
      (s.ptpFrame (s.fld PTP.SLV_CTRL_TRANS) false true m))

/-- A Delay_Resp completes the delay measurement; a negative mean leaves the register's value open. -/
def execDelayRespRx (frame : List Byte) (t : Nat) (s : State) : Out3 :=
  let s := s.at t
  match s.slaveLoc frame, s.ptp.delayReq, s.ptp.msDelay with
  | some o, some (q, t3), some d =>
    doneIf s (s.svcUp 0 && (s.slaveState == 2 || s.slaveState == 3) && !s.flag PTP.SLV_CTRL_MECH && ptpType frame o == 9 &&
        some (ptpSpi frame o) == s.ptp.sel && ptpSeq frame o == q && beAt frame (o + 44) 10 == s.ownSpi 0) (fun s =>
      let twice := d + (ptpStamp frame (o + 34) - ptpCorr frame o - t3)
      let mpd := roundOpen 336 twice 2
      let s1 := s.setPtp { s.ptp with mpd := mpd, delayReq := none, logDelay := ptpLog frame o }
      let reg := roundOpen 336 twice 512
      if reg < 0 then
        let (x, s2) := s1.fresh 32
        s2.setRegN PTP.SLV_MPD x
      else s1.setRegN PTP.SLV_MPD (min reg.toNat (2 ^ 32 - 1)))
  | _, _, _ => done s

/-- SLV_MPD as it reads. -/
def State.slvMpdRead (s : State) : Nat := if s.flag PTP.SLV_CTRL_MECH then s.regN (PTP.SVC_MLD 0) else s.regN PTP.SLV_MPD

/-! ## Service ports (R328, R336) -/

def execSvcLinkUp (port t : Nat) (s : State) : Out3 :=
  doneIf (s.at t) (port < 2 && s.flag (PTP.SVC_CTRL_EN port) && !s.svcUp port) (fun s =>
    let s1 := ((s.setFlag (PTP.SVC_STATUS_UP port) true).setPtp { s.ptp with upAt := Store.put s.ptp.upAt port s.up }).raise
      PTP.STAT_LINK_UP
    if port = 0 && s1.flag PTP.SLV_CTRL_EN && s1.slaveState == 0 then s1.slaveListen 1 else s1)

/-- A service port goes down: the frames that wait for it are lost, the slave of SVC0 becomes FAULTY, and the candidates it carries fail NOSIG. -/
def State.svcDown (s : State) (port : Nat) : State :=
  if s.svcUp port then
    let s0 := (s.svcDrain port).setSvcOut port { freeAt := s.up, frames := [] }
    let s1 := (s0.setFlag (PTP.SVC_STATUS_UP port) false).raise PTP.STAT_LINK_DOWN
    let s2 := if port = 0 then s1.slaveFaulty else s1
    let drop (s : State) (r : Nat) : State := if s.refQual r = 0 then s else s.disqualify r 0
    if port = 0 then drop (drop s2 3) 5 else drop s2 4
  else s

def execSvcLinkDown (port t : Nat) (s : State) : Out3 := doneIf (s.at t) (decide (port < 2)) (fun s => s.svcDown port)

/-- A write of SVCp_CTRL: a port that is disabled goes down. -/
def State.svcCtrl (s : State) (port v : Nat) : State :=
  let s1 := s.setRegN (PTP.SVC_CTRL port) (v % 128)
  if v.testBit 0 then s1 else s1.svcDown port

def execSlaveFaultRecover (t : Nat) (s : State) : Out3 :=
  let s := s.at t
  doneIf s (s.slaveState == 4 && s.svcUp 0 && decide (max s.ptp.faultAt (Store.getD s.ptp.upAt 0 0) + second ≤ s.up)) (fun s =>
    s.slaveListen 1)

/-! ## Input delays (R338, R339) -/

/-- A write of CDCOMMIT. -/
def State.cdCommit (s : State) (v : Nat) : State :=
  if v.testBit 1 && !s.flag PTP.CDSTATUS_PEND then
    (s.setPtp { s.ptp with cdBank := v % 2 }).setFlag PTP.CDSTATUS_PEND true
  else s

def execInputDelayCommit (v : Word) (t : Nat) (s : State) : Out3 := done ((s.at t).cdCommit v.toNat)

/-- The change at the bell. -/
def State.cdBell (s : State) : State :=
  if s.flag PTP.CDSTATUS_PEND then
    ((s.setFld PTP.CDSTATUS_BANK s.ptp.cdBank).setFlag PTP.CDSTATUS_PEND false).raise PTP.STAT_CD_SWAP
  else s

end Sys2Proof.Machine
end

