-- ==== Sys2Proof/Machine/Power.lean ====
section
/-! DEFINITION. Power domains, votes, power states, the power-up and wake sequence and the retention banks (R356 to R371). -/
namespace Sys2Proof.Machine

def State.setPwr (s : State) (p : Power) : State := { s with pwr := p }

/-! ## Domains and votes (R356 to R358) -/

def domainParent (d : Nat) : Option Nat := if d = 0 then none else if d = 1 then some 0 else if d = 9 then some 2 else some 1

/-- Power states (R362). -/
def State.powerState (s : State) : Nat := s.fld PWR.STATUS_STATE

def State.setPowerState (s : State) (st : Nat) : State := s.setFld PWR.STATUS_STATE st

/-- SEC.STATUS.STATE is LOCKOUT (R421). -/
def State.lockout (s : State) : Bool := s.fld SEC.STATUS_STATE == 3

/-- The domains that hold engine e of the schedule: an STL entry names a logical position, AIS runs on every stall die (R404). -/
def State.engineDomains (s : State) (e : Nat) : List Nat :=
  if 8 ≤ e ∧ e ≤ 13 then ((List.range 6).filter (fun d => s.fld (STL.CFG_LPOS d) == e - 8)).map (· + 3)
  else if e = 14 then [3, 4, 5, 6, 7, 8]
  else if e = 5 ∨ e = 6 then [2]
  else if e = 16 then [15]
  else if e = 20 then [16]
  else [1]

/-- An image held in DRAM is being verified. -/
def State.verifyingDram (s : State) : Bool :=
  match s.cfg.job with
  | some j => decide (j.base < s.dramSize)
  | none => false

/-- The votes of domain d (R358). -/
def State.votes (s : State) (d : Nat) : Nat :=
  let b (k : Nat) (c : Bool) : Nat := if c then 2 ^ k else 0
  s.regN (PWR.VOTE d) % 4 + b 2 (d == 15 && s.cal.active) + b 3 (d == 14 && s.verifyingDram)
    + b 4 ((d == 10 && (List.range 4).any (fun p => s.flag (CAN.PORT_CTRL_EN p))) ||
        (d == 12 && (List.range 2).any (fun p => s.flag (PTP.SVC_CTRL_EN p))))
    + b 5 (Store.has s.pwr.trimAt d)
    + b 6 (s.bellState != stSTOPPED && s.schedule.any (fun e => (s.engineDomains e.engine).contains d))
    + b 7 ((d == 14 || d == 11) && s.ring.reading.isSome)

/-- PWR.VOTEd as it reads. -/
def State.voteRead (s : State) (d : Nat) : Nat :=
  if domainPresent s.part d then (if d = 0 ∨ d = 1 ∨ d = 13 then 0 else s.votes d) + 256 * boolNat (s.domOn d) else 0

def State.vetoed (s : State) (d : Nat) : Bool := (s.regN PWR.VETO).testBit d

/-- Domain d is to be on (R357, R421). Through ENTERING the domains stay as their votes have them until the entry takes them down (R364). -/
def State.domDue (s : State) (d : Nat) : Bool :=
  if !domainPresent s.part d then false
  else if d = 0 then true
  else if s.lockout then d == 1 || d == 13
  else if s.powerState = 0 ∨ s.powerState = 4 ∨ s.powerState = 6 ∨ (s.powerState = 1 ∧ s.pwr.step = 4) then
    d == 1 || d == 13 || (!s.vetoed d && ((s.votes d != 0) || (d == 2 && s.votes 9 != 0)))
  else false

/-- A write of VOTEd: the PCIe master writes the host's vote, a clerk port the clerks'. -/
def State.voteWrite (s : State) (d master v : Nat) : State :=
  if d = 0 ∨ d = 1 ∨ d = 13 ∨ !domainPresent s.part d then s
  else if master = 0 then s.setFld (PWR.VOTE_HOST d) v
  else if master = 1 ∨ master = 2 then s.setFld (PWR.VOTE_CLERK d) (v / 2)
  else s

def execVoteWrite (d master : Nat) (v : Word) (t : Nat) (s : State) : Out3 :=
  doneIf (s.at t) (decide (d < 17)) (fun s => s.voteWrite d master v.toNat)

/-- 10 ms after a die core domain has powered up its thermal vote is withdrawn. -/
def execThermalVoteRelease (d t : Nat) (s : State) : Out3 :=
  let s := s.at t
  match Store.get? s.pwr.trimAt d with
  | some a => doneIf s (decide (a + 10000000 * ns ≤ s.up)) (fun s => s.setPwr { s.pwr with trimAt := Store.del s.pwr.trimAt d })
  | none => done s

/-! ## What a domain loses (R359) -/

/-- The domain that holds register r; a lane front end's registers are those of its block. -/
def domainOfReg (r : Reg) : Nat :=
  let b := r / 65536
  let o := r % 65536
  if b = 4 ∨ b = 5 ∨ b = 6 then 2
  else if 8 ≤ b ∧ b ≤ 13 then (if o < 0x100 then b - 5 else 1)
  else if b = 16 then 15
  else if b = 20 then 16
  else if b = 3 ∨ b = 21 ∨ b = 22 ∨ b = 24 then 0
  else if b = 23 then (if 0x20 ≤ o ∧ o < 0x70 then 1 else 0)
  else if r = CFG.STRAP ∨ r = DMC.SR ∨ r = DMC.GEOM ∨ r = SEC.VLOG_IDX then 0
  else 1

/-- The registers of domain d take their reset values. -/
def State.dropRegs (s : State) (d : Nat) : State := { s with regs := s.regs.filter (fun p => domainOfReg p.1 != d) }

/-- The bytes of [a, a + n) and their errors are gone. -/
def State.wipe (s : State) (a n : Nat) : State :=
  let s1 := s.clear a n
  s1.setDram { s1.dram with errs := s1.dram.errs.filter (fun e => decide (e.1 * 32 < a ∨ a + n ≤ e.1 * 32)) }

/-- DRAM is in no self-refresh: what it held is lost, and it must be trained again. -/
def State.dramLose (s : State) : State :=
  ((s.dramZero (fun _ => false)).setFlag DMC.STATUS_READY false).setDram { (s.dramZero (fun _ => false)).dram with queue := [], rows := [] }

/-- The strap-derived registers (R395). -/
def State.strapRegs (s : State) : State :=
  let v := s.regN CFG.STRAP
  ((s.setFld BEL.STATUS_LEAD (bits v 0 1)).setFld LED.STATUS_CLASS (classWatts s.part (bits v 3 2))).setFld PTP.STATUS_CHAIN
    (1 - bits v 7 1)

/-- Everything outside domain 0 is as after reset; the boot lock, straps, serial and domain 0 stay. -/
def State.trunkOff (s : State) : State :=
  let r := State.reset
  let locked := s.fld CFG.STATUS_LOCKED
  let s1 : State := { r with part := s.part, serial := s.serial, now := s.now, up := s.up, sent := s.sent, free := s.free,
                             regs := s.regs.filter (fun p => domainOfReg p.1 == 0), mem := s.mem, dram := { r.dram with errs := s.dram.errs },
                             pit := s.pit, mel := s.mel, ptp := s.ptp, pwr := s.pwr, otp := s.otp, flash := s.flash,
                             sec := { r.sec with keys := s.sec.keys, vlog := s.sec.vlog, alarm := s.sec.alarm, slot := s.sec.slot },
                             clk := { target := [], stopped := 0 }, pending := s.pending }
  let s2 := ((s1.wipe 0xFE0000000000 0x1E00000).wipe 0xFE0010000000 0x6000000).strapRegs.setFld CFG.STATUS_LOCKED locked
  s2.setReg CKG.READY (s.reg CKG.READY &&& 0xF0#32)

/-- What domain d held is lost. -/
def State.loseDomain (s : State) (d : Nat) : State :=
  if d = 1 then s.trunkOff
  else if d = 2 then
    let s1 := s.dropRegs 2
    { s1 with ing := Ingest.reset, front := Front.reset, chan := Channelizer.reset }
  else if 3 ≤ d ∧ d ≤ 8 then
    let n := d - 3
    let x := atD s.corr.dies n StallDie.reset
    let s1 := (s.dropRegs d).wipe (0xFC0000000000 + n * 0x10000000) 0x10000000
    let y : StallDie := { x with wins := [], running := none, gains := [], pass := none }
    let s2 := { s1 with corr := { s1.corr with dies := setAt s1.corr.dies n y } }
    if x.closed then s2.setFld (STL.STATUS_STATE n) 2 else s2
  else if d = 9 then
    s.each (List.range 80) (fun (s : State) n =>
      let s1 := if s.laneLocked n then s.lockLost n else s
      s1.setLane n { s1.lane n with on := false, adaptDue := true, adapting := false })
  else if d = 10 then s.each (List.range 4) (fun (s : State) p =>
    (if s.portLive p then s.portFail p else s).mapLanes p (fun _ l => l.off))
  else if d = 11 then s.each (List.range 4) (fun (s : State) p =>
    let was := s.outUp p
    (s.setRegN (OUT.PORT_STATUS p) 0).portMoved p was)
  else if d = 12 then (s.svcDown 0).svcDown 1
  else if d = 13 then s.pcieDown
  else if d = 14 then s.dramLose
  else if d = 15 then (s.calAbandon.dropRegs 15).wipe 0xFE0020000000 0x4000000
  else if d = 16 then
    let s1 := (s.dropRegs 16).wipe 0xFE0030000000 0x200000
    { s1 with cores := List.replicate 16 Core.reset }
  else s

/-- The domain whose target a transaction waits for. -/
def State.txnDomain (s : State) (x : Txn) : Nat :=
  match s.place x.addr with
  | .dram => 14
  | .window n => 3 + n
  | .calSram => 15
  | .clerkSram => 16
  | .reg => domainOfReg (x.addr - 0xFF0000000000)
  | _ => 1

/-- Domain d powers down; transactions that still wait for it complete with an error response. -/
def State.powerDown (s : State) (d : Nat) : State :=
  if s.domOn d then
    let s1 := (s.failOut (fun x => s.txnDomain x == d)).loseDomain d
    (s1.setRegN PWR.DOM_ON (setBit (s1.regN PWR.DOM_ON) d false)).raise PWR.STAT_DOM_DOWN
  else s

/-- Every domain but 0 powers down, children first. -/
def State.allDown (s : State) : State := s.each ((List.range 16).reverse.map (· + 1)) (fun (s : State) d => s.powerDown d)

/-- Domain d and its children are to power down now. -/
def State.mayGoDown (s : State) (d : Nat) : Bool :=
  0 < d && d < 17 && s.domOn d && !s.domDue d && (List.range 17).all (fun c => domainParent c != some d || !s.domOn c)

def execDomainPowerDown (d t : Nat) (s : State) : Out3 := doneIf (s.at t) (s.mayGoDown d) (fun s => s.powerDown d)

/-- Interfaces not quiet within 65,536 FCLK cycles: the domain powers down anyway. In ENTERING its transactions in flight fail, and the
domain goes with the others at the end of the entry (R359, R364). -/
def execDomainDrainTimeout (d t : Nat) (s : State) : Out3 :=
  let s := s.at t
  if s.mayGoDown d then done ((s.powerDown d).raise PWR.STAT_PD_FORCED)
  else doneIf s (s.powerState == 6 && 0 < d && d < 17 && s.domOn d) (fun s =>
    (s.failOut (fun x => s.txnDomain x == d)).raise PWR.STAT_PD_FORCED)

/-- Domain d is to power up, its parent on; none does in ENTERING. -/
def State.mayComeUp (s : State) (d : Nat) : Bool :=
  d < 17 && !s.domOn d && s.domDue d && s.powerState != 6 && (match domainParent d with | some p => s.domOn p | none => false)

/-- Domain d powers up with its contents at reset: a die core's sensors are trimmed for 10 ms (R358). -/
def State.powerUp (s : State) (d : Nat) : State :=
  let s1 := (s.setRegN PWR.DOM_ON (setBit (s.regN PWR.DOM_ON) d true)).raise PWR.STAT_DOM_UP
  if 2 ≤ d ∧ d ≤ 8 then s1.setPwr { s1.pwr with trimAt := Store.put s1.pwr.trimAt d s1.up } else s1

/-! ## The trip log and the hold (R363, R385, R386) -/

def logUnacked (e : Nat) : Bool := bits e 16 8 == 1 && !e.testBit 29

def State.logFull (s : State) : Bool := decide (256 ≤ s.otp.log.length)

/-- A trip entry is unacknowledged, or the full log holds the device at this power-up. -/
def State.tripHold (s : State) : Bool := s.otp.log.any logUnacked || (s.logFull && !s.pwr.holdEnded)

def stallMask : Nat := 0x1F8

/-- THERMAL_HOLD ends with its veto. -/
def State.holdExit (s : State) : State :=
  if s.powerState = 4 && !s.tripHold then
    ((s.setRegN PWR.VETO 0).setPowerState 0).setFlag PWR.STATUS_HOLD false
  else s

/-! ## Deep entry (R363, R364, R369, R370) -/

def bankAddr (n : Nat) : Nat := 0xFE0001E00000 + n * 0x40000

def State.bankCrc (s : State) (n : Nat) : Nat := crc32c (s.read (bankAddr n) 262144)

/-- A write of PWR.CTRL. -/
def State.pwrCtrl (s : State) (v : Nat) : State :=
  let s1 := s.setFld PWR.CTRL_MODE (v / 2)
  if !v.testBit 0 then s1
  else if s1.powerState = 0 && s1.bellState = stSTOPPED then s1.setPowerState 6
  else if s1.powerState = 0 ∨ s1.powerState = 4 then s1.raise PWR.STAT_ENTRY_REJ
  else s1

def execDeepEntryRequest (v : Word) (t : Nat) (s : State) : Out3 := doneIf (s.at t) (v.toNat.testBit 0) (fun s => s.pwrCtrl v.toNat)

/-- 262,144 bytes whose values the spec does not give, from the free counter on. -/
def State.freeBank (s : State) (n : Nat) : State :=
  let l := (List.range 262144).map (fun k => BitVec.ofNat 8 (Config.freeNat (s.free + k)))
  { (s.write (bankAddr n) l) with free := s.free + 262144 }

/-- The ledger's coefficient of entry e, as the table in memory holds it (R375). -/
def State.coefOf (s : State) (e : Nat) : Nat := s.readN (s.regN LED.COEF_LO + s.fld LED.COEF_HI_ADDR * 2 ^ 32 + 4 * e) 4

/-- Each device consumer writes its bank: what it keeps, in a form the spec does not give. -/
def State.saveBanks (s : State) : State :=
  let peaks := ((List.range 80).filter (fun n => s.flag (ING.LANE_STATUS_ADAPTED n))).map (fun n => (n, s.fld (ING.LANE_STATUS_PEAK_NOW n)))
  let sv : Saved := { holdover := s.holdFreq.1, peaks := peaks, sched := s.regN BEL.SCHED_ID, base := s.regN LED.BASE,
                      coefs := if s.flag LED.STATUS_METERED then (List.range s.schedule.length).map s.coefOf else [],
                      image := s.cfg, geom := s.regN DMC.GEOM % 16 + 16 * s.fld DMC.SR_NOPASR + 32 * boolNat s.dram.rfm }
  ((((s.setPwr { s.pwr with saved := sv }).freeBank 0).freeBank 1).freeBank 2).freeBank 3 |>.freeBank 4

/-- The segments that self-refresh keeps, as bits: those of SR.KEEP, every one where none can be masked, none where DRAM is off
(R266, R364). -/
def State.keptSegments (s : State) : Nat :=
  if s.fld DMC.SR_KEEP = 0 ∨ !s.flag DMC.STATUS_READY then 0 else if s.flag DMC.SR_NOPASR then 255 else s.fld DMC.SR_KEEP

/-- DRAM enters self-refresh with the segments it keeps, or is off and holds nothing (R266, R364). -/
def State.selfRefresh (s : State) : State := s.dramZero (fun a => s.keptSegments.testBit (s.dramSegment a))

/-- The conditions of DEEP_LP: the pair and the crystal stopped, the always-on clock on RC, the regulator in low-power mode. -/
def State.lowPower (s : State) : State :=
  let s1 := ((s.setReady 4 false).setReady 6 false).setFlag CKG.AON_SRC false
  let s2 := ((s1.setMel { s1.mel with started := false }).setFlag CKG.AON_XRUN false).setFlag PWR.STATUS_REG_LP true
  s2.setFlag PTP.STATUS_VALID false

def State.beginStep (s : State) (k : Nat) : State :=
  let n := atD s.pwr.attempts (k - 1) 0 + 1
  let a := setAt s.pwr.attempts (k - 1) n
  let s1 := (s.setPwr { s.pwr with step := k, attempts := a, undoneAt := none, stepAt := s.up }).setFld PWR.STATUS_ATTEMPTS
    (a.foldl max 0)
  match k with
  | 2 => if s1.ready 6 then s1 else s1.xtalStart
  | 3 => s1.each (List.range 4) (fun (s : State) j => s.setFlag (CKG.PLL_CTRL_EN j) true)
  | 4 => if s1.tripHold then s1.setRegN PWR.VETO stallMask else s1.setRegN PWR.VETO 0
  | _ => s1

/-- The wake sequence starts; CAUSE 2 is a wake from DEEP, 3 from DEEP_LP or WAKE_FAIL. -/
def State.wakeStart (s : State) (cause : Nat) : State :=
  let s1 := s.setPwr { s.pwr with attempts := [0, 0, 0, 0], waking := true, wakeHeld := false }
  (({ s1 with alertDirect := false }.setPowerState 1).setFld PWR.STATUS_CAUSE cause).beginStep 1

/-- A rising edge on WAKE: acted on in a deep state, held through ENTERING, ignored after a trip and in LOCKOUT (R363, R384, R421). -/
def execWakeEdge (t : Nat) (s : State) : Out3 :=
  doneIf (s.at t) (!s.lockout) (fun s =>
    match s.powerState with
    | 2 => s.wakeStart 2
    | 3 => s.wakeStart 3
    | 7 => s.wakeStart 3
    | 6 => s.setPwr { s.pwr with wakeHeld := true }
    | _ => s)

/-! ## Power-up and wake (R363, R367, R368, R370) -/

/-- The device as PWRGOOD or the end of a brown-out finds it: only domain 0 on, the straps sampled, every bank invalid, pitch call
and the power-up sequence running. -/
def State.powerOn (s : State) (straps cause : Nat) : State :=
  let s1 : State := { State.reset with part := s.part, serial := s.serial, sent := s.sent, free := s.free, otp := s.otp, flash := s.flash,
                                       pending := s.pending }
  let s2 := ((s1.setRegN CFG.STRAP (straps % 256)).setRegN MEL.PRIO (prioOf (bits straps 5 2))).strapRegs
  let s3 := ((s2.setRegN PWR.DOM_ON 1).setPowerState 1).setFld PWR.STATUS_CAUSE cause
  (s3.setFlag PWR.STATUS_REG_LP true).pitchCall.beginStep 1

def execPwrgoodRise (straps : Nat) (s : State) : Out3 := done (s.powerOn straps 0)

/-- The regulator's output recovers after a brown-out (R366). -/
def execBrownout (straps : Nat) (s : State) : Out3 := done ((s.powerOn straps 1).raise PWR.STAT_BROWNOUT)

/-- Every output outside domain 0 floats: the other domains' work ends; THERM_TRIP_N is released (R465). -/
def execPwrgoodFall (t : Nat) (s : State) : Out3 :=
  let s1 := (s.at t).allDown
  done (s1.setPwr { s1.pwr with pwrGood := false, tripPin := false, step := 0, undoneAt := none })

/-- What completes step k. -/
def State.stepSatisfied (s : State) (k : Nat) : Bool :=
  match k with
  | 1 => true
  | 2 => s.ready 6
  | 3 => (List.range 4).all s.ready
  | 4 => (List.range 17).all (fun d => !s.domDue d || s.domOn d)
  | _ => false

/-- The check of R370 after step 4 of a wake; `upset` names banks whose contents did not hold. -/
def State.retentionCheck (s : State) (upset : Nat) : State :=
  let s1 := s.each (setBits 8 upset) (fun (s : State) n => s.freeBank n)
  let bad := ((List.range 8).filter (fun n => s1.bankCrc n != s1.regN (PWR.RET_CRC n))).foldl (fun a n => a + 2 ^ n) 0
  let s2 := s1.setReg PWR.RET_BAD (s1.reg PWR.RET_BAD ||| BitVec.ofNat 32 bad)
  (s2.setPwr { s2.pwr with banksOk := 255 - bad }).raiseIf (bad != 0) PWR.STAT_RET_BAD

/-- A lane receiver keeps the peaking of bank 1 (R369). -/
def State.restoreLanes (s : State) : State :=
  s.each s.pwr.saved.peaks (fun (s : State) (p : Nat × Nat) =>
    ((s.setLane p.1 { s.lane p.1 with adaptDue := false }).setFld (ING.LANE_STATUS_PEAK_NOW p.1) p.2).setFlag
      (ING.LANE_STATUS_ADAPTED p.1) true)

/-- The pair runs again after DEEP_LP as after PAIR_RST, with the holdover frequency of bank 2 (R364, R369). -/
def State.melRestart (s : State) (held : Option Int) : State :=
  let s1 := s.pairReset
  let s2 := s1.setMel { s1.mel with hoFreq := held }
  if s2.flag MEL.STATUS_OSC then s2 else (s2.setReady 4 true).setReady 5 true

/-- The device returns to the conditions of DEEP_LP after a third failure of step k (R368). -/
def State.wakeFail (s : State) (k : Nat) : State :=
  let s1 := s.allDown.lowPower
  let s2 := { s1 with alertDirect := true }
  (((s2.setPwr { s2.pwr with step := 0, undoneAt := none }).setFld PWR.STATUS_FAILSTEP k).setPowerState 7).raise PWR.STAT_WAKE_FAIL

/-- Step k is undone. -/
def State.undoStep (s : State) (k : Nat) : State :=
  match k with
  | 1 => s.setFlag PWR.STATUS_REG_LP true
  | 2 => ((s.setFlag CKG.AON_XRUN false).setReady 6 false).setFlag CKG.AON_SRC false
  | 3 => s.each (List.range 4) (fun (s : State) j => ((s.setFlag (CKG.PLL_CTRL_EN j) false).setReady j false).setFld
      (CKG.DOM_STATUS_CUR j) 2)
  | _ => s.allDown

/-- The time limit of step k; the crystal's is its own count (R340). -/
def stepLimit (k : Nat) : Nat := (match k with | 1 => 2000000 | 3 => 1000000 | 4 => 4000000 | _ => 0) * ns

def execPowerUpStepTimeout (t : Nat) (s : State) : Out3 :=
  let s := s.at t
  let k := s.pwr.step
  doneIf s (k != 0 && s.pwr.undoneAt.isNone && decide (s.pwr.stepAt + stepLimit k ≤ s.up) && (k == 1 || !s.stepSatisfied k) &&
      (k != 2 || !s.flag CKG.AON_XRUN)) (fun s =>
    if 3 ≤ atD s.pwr.attempts (k - 1) 0 then s.wakeFail k
    else
      let s1 := s.undoStep k
      (s1.setPwr { s1.pwr with undoneAt := some s1.up }).raise PWR.STAT_WAKE_RETRY)

/-- 1 ms after a step was undone it is attempted again. -/
def execPowerUpRetry (t : Nat) (s : State) : Out3 :=
  let s := s.at t
  match s.pwr.undoneAt with
  | some a => doneIf s (decide (a + 1000000 * ns ≤ s.up)) (fun s => s.beginStep s.pwr.step)
  | none => done s

/-- A write of 1 to a bit of RET_BAD clears it (R371). -/
def State.retBadClear (s : State) (v : Nat) : State := s.setReg PWR.RET_BAD (s.reg PWR.RET_BAD &&& ~~~(BitVec.ofNat 32 v))

def execRetentionBadClear (v : Word) (t : Nat) (s : State) : Out3 := done ((s.at t).retBadClear v.toNat)

end Sys2Proof.Machine
end

