-- ==== Sys2Proof/Machine/Fabric.lean ====
section
/-! DEFINITION. Reads and writes of memory that a fast-matrix master makes (R422 to R424): which targets answer, the error
responses of DRAM, window stores, SRAMs and retention banks, and the bytes that byte enables let through. -/
namespace Sys2Proof.Machine

/-- The gate of the block whose memory holds a (R354). -/
def State.memGate (s : State) (a : Nat) : Option Nat :=
  match s.place a with
  | .window d => some (1 + d)
  | .canopyBuf => some 26
  | .calSram => some 19
  | .clerkSram => some 25
  | _ => none

/-- The power domain of the memory that holds a. -/
def Place.domain : Place → Nat
  | .dram => 14
  | .window d => 3 + d
  | .calSram => 15
  | .clerkSram => 16
  | _ => 1

/-- The memory that holds a answers: its domain is on (R359), its block's gate is open (R354). -/
def State.memOn (s : State) (a : Nat) : Bool :=
  s.domOn 1 && s.place a != .reg && s.place a != .none && s.domOn (s.place a).domain
    && (match s.memGate a with | some g => s.ungated g | none => true)

/-- Requests of master m for the memory that holds a wait: the matrix's clock stands still; DRAM is not open (R249, R267), or holds
LOW requesters back under panic (R256); the block's gate has a close pending or its clock stands still (R353). -/
def State.memWaits (s : State) (m a : Nat) : Bool :=
  !s.clockRuns 2
    || (s.place a == .dram && s.domOn 14 && (!s.dramOpen || (s.panic && s.dramClass (m + 4) == 3)))
    || (match s.memGate a with | some g => s.gateHolds g | none => false)

/-- The 256-bit words of [a, a + n) that hold a corrected error. -/
def State.softWords (s : State) (a n : Nat) : List Nat :=
  if n = 0 then []
  else (s.dram.errs.filter (fun p => !p.2 && decide (a / 32 ≤ p.1 ∧ p.1 ≤ (a + n - 1) / 32))).map (·.1)

/-- A read of die d's window store (R159, R160): its errors are counted as any read of it counts them. -/
def State.windowRead (s : State) (d a n : Nat) : Option (List Byte) × State :=
  let u := (s.badWords a n).length
  let c := (s.softWords a n).length
  let s1 := if u = 0 then s else (s.bump (STL.WS_UERR d) u).raise (STL.STAT_WS_UERR d)
  let s2 := if c = 0 then s1 else (s1.bump (STL.WS_CERR d) c).raise (STL.STAT_WS_CERR d)
  (if u = 0 then some (s.read a n) else none, s2)

/-- Master m reads n bytes of memory from a with a page hint: none is an error response. -/
def State.memRead (s : State) (m a n hint : Nat) : Option (List Byte) × State :=
  if !s.memOn a || s.memWaits m a then (none, s)
  else
    match s.place a with
    | .dram =>
      let (l, bad, s1) := s.dramReadHint (m + 4) a n hint
      (if bad = [] then some l else none, s1)
    | .window d => s.windowRead d a n
    | .bank k => (if (s.regN PWR.RET_BAD).testBit k then none else some (s.read a n), s)
    | _ => (if s.badWords a n = [] then some (s.read a n) else none, s)

/-- Bytes of l whose bit of `be` is 1 are written from a; a 256-bit word written whole has no error left. -/
def State.sramWrite (s : State) (a be : Nat) (l : List Byte) : State :=
  let s1 := (l.zipIdx).foldl (fun (s : State) p => if be.testBit p.2 then s.write (a + p.2) [p.1] else s) s
  let whole (w : Nat) : Bool := a ≤ w * 32 && w * 32 + 32 ≤ a + l.length
    && (List.range 32).all (fun i => be.testBit (w * 32 + i - a))
  s1.setDram { s1.dram with errs := s1.dram.errs.filter (fun p => !whole p.1) }

/-- The context page in use that holds a (R191). -/
def State.ctxInUse (s : State) (a : Nat) : Bool :=
  (List.range 2).any (fun p => s.aisle.page.inUse false p && decide (ctxPageBase p ≤ a ∧ a < ctxPageBase p + 0x400000))

/-- Master m writes the bytes of l whose bit of `be` is 1 from a: false is an error response. -/
def State.memWrite (s : State) (m a be : Nat) (l : List Byte) (hint : Nat) : Bool × State :=
  if !s.memOn a || s.memWaits m a then (false, s)
  else
    match s.place a with
    | .dram =>
      let (err, s1) := s.dramWriteBe (m + 4) a be l hint
      (!err, s1)
    | .window d => if (s.die d).closed then (true, s.sramWrite a be l) else (false, s)
    | .trunk => if s.ctxInUse a then (true, s.raise AIS.STAT_CTX_WR) else (true, s.sramWrite a be l)
    | _ => (true, s.sramWrite a be l)

/-! ## Accesses that a unit of the device makes itself (R2, R5) -/

/-- Master m reads n bytes from a: none where an error response comes back. -/
def State.ownRead (s : State) (m a n : Nat) : Option (List Byte) × State :=
  (piecesOf a n).foldl (fun (p : Option (List Byte) × State) c =>
    match p.2.memRead m c.1 c.2 0 with
    | (some l, t) => (p.1.map (· ++ l), t)
    | (none, t) => (none, t.errorTo m c.1 false)) (some [], s)

/-- Master m writes the bytes l from a: an error response to it changes no memory. -/
def State.ownWrite (s : State) (m a : Nat) (l : List Byte) : State :=
  s.each (piecesOf a l.length) (fun s c =>
    match s.memWrite m c.1 (2 ^ c.2 - 1) ((l.drop (c.1 - a)).take c.2) 0 with
    | (true, t) => t
    | (false, t) => t.errorTo m c.1 true)

/-- The ledger stores bytes at a. No rule gives it a requester or master number: that number is a free value (log entry 5). -/
def State.ledgerStore (s : State) (a : Nat) (l : List Byte) : State :=
  let (r, s1) := s.fresh 4
  if s1.place a = .dram then (s1.dramWrite r a l).2
  else if s1.memOn a then s1.sramWrite a (2 ^ l.length - 1) l
  else s1.errorTo (r % 12) a true

/-- The ledger reads the coefficient at a, with the checks of the memory that holds it; one that fails them is used as stored. -/
def State.ledgerTouch (s : State) (a n : Nat) : State :=
  let (r, s1) := s.fresh 4
  if s1.place a = .dram then (s1.dramRead r a n).2.2
  else if s1.memOn a then s1
  else s1.errorTo (r % 12) a false

/-! ## Porter channels (R435 to R440) -/

def State.porter (s : State) (c : Nat) : Porter := atD s.por c Porter.reset
def State.setPorter (s : State) (c : Nat) (p : Porter) : State := { s with por := setAt s.por c p }

/-- The matrix master of channel c. -/
def porterMaster (c : Nat) : Nat := 3 + c / 8

/-- Porters may issue: the trunk's domain on, their gate open, their port not in reset. -/
def State.porterLive (s : State) (c : Nat) : Bool := s.works 1 28 && !s.inReset (porterMaster c)

/-- A descriptor's 32 bytes. -/
def descOf (l : List Byte) : Desc :=
  let b := leAt l 20 1
  let f := leAt l 21 1
  { src := leAt l 0 6, dst := leAt l 8 6, len := leAt l 16 4, sw := b % 8, dw := bits b 3 3, sfix := b.testBit 6, dfix := b.testBit 7,
    ev := f.testBit 0, chain := f.testBit 1, wait := f.testBit 2, hint := bits f 3 2, next := leAt l 24 6 }

def Desc.swBytes (d : Desc) : Nat := 2 ^ d.sw
def Desc.dwBytes (d : Desc) : Nat := 2 ^ d.dw

def Desc.valid (d : Desc) : Bool :=
  d.sw != 7 && d.dw != 7 && d.len != 0 && d.len % max d.swBytes d.dwBytes == 0 && d.src % d.swBytes == 0 && d.dst % d.dwBytes == 0
    && (!d.chain || d.next % 32 == 0)

/-- Channel c stops with an error (R439): cause 1 DESC_ERR, 2 XFER_ERR. -/
def State.porterStop (s : State) (c cause : Nat) : State :=
  ((s.setPorter c { s.porter c with st := 0, held := [] }).setFld (POR.CH_STATUS_ERR c) cause).raise
    (if cause = 1 then POR.STAT_DESC_ERR else POR.STAT_XFER_ERR)

/-- Channel c loads the descriptor at a; `go` starts it whatever its WAIT. -/
def State.porterLoad (s : State) (c a : Nat) (go : Bool) : State :=
  if !s.porterLive c || s.memWaits (porterMaster c) a then s.setPorter c { s.porter c with st := 4, held := [], desc := { Desc.none with next := a, wait := go } }
  else
    let (r, s1) := s.memRead (porterMaster c) a 32 0
    let s2 := s1.countTxn (porterMaster c) a 32
    match r with
    | none => (s2.errorTo (porterMaster c) a false).porterStop c 2
    | some l =>
      let d := descOf l
      if d.valid then
        s2.setPorter c { st := if d.wait && !go then 1 else 2, desc := d, read := 0, written := 0, held := [], cntOpen := false }
      else s2.porterStop c 1

def State.porterFirst (s : State) (c : Nat) : Nat := s.regN (POR.CH_DESC_LO c) + s.fld (POR.CH_DESC_HI_ADDR c) * 2 ^ 32

/-- A write of CHc_CTRL (R437, R440): EN from 0 to 1 clears ERR and loads the first descriptor, 0 drops the channel. -/
def State.porterCtrl (s : State) (c v : Nat) : State :=
  let was := s.flag (POR.CH_CTRL_EN c)
  let s1 := s.setFld (POR.CH_CTRL_EN c) v
  if v.testBit 0 then (if was then s1 else (s1.setFld (POR.CH_STATUS_ERR c) 0).porterLoad c (s1.porterFirst c) false)
  else if was then s1.setPorter c { s1.porter c with st := 0, held := [], cntOpen := true }
  else s1

end Sys2Proof.Machine
end

