-- ==== Sys2Proof/Machine/Ledger.lean ====
section
/-! DEFINITION. The energy ledger (R372 to R380): rail factors, the plan, metering, the slot brake and the frame reports. -/
namespace Sys2Proof.Machine

def State.setLed (s : State) (l : Ledger) : State := { s with led := l }

def State.rail (s : State) (r : Nat) : RailMeter := atD s.led.rails r RailMeter.reset

def State.setRail (s : State) (r : Nat) (x : RailMeter) : State := s.setLed { s.led with rails := setAt s.led.rails r x }

/-! ## PMBus telemetry (R373) -/

/-- A Linear11 word in 2^−16 of its unit: an 11-bit mantissa and a 5-bit exponent, both signed. -/
def linear11 (raw : Nat) : Int := toSigned 11 (raw % 2048) * 2 ^ (16 + toSigned 5 (raw / 2048 % 32)).toNat

/-- A write of RAILr_CFG: a rail that is not read over PMBus has a factor of 1. -/
def State.railCfg (s : State) (r v : Nat) : State :=
  let was := s.flag (LED.RAIL_CFG_EN r)
  let s1 := s.setRegN (LED.RAIL_CFG r) (v % 65536)
  let s2 := if v.testBit 7 then s1 else s1.setRegN (LED.RAIL_CORR r) 0x4000
  if v.testBit 7 && !was then s2.setRail r { watts := [], sensed := 0, replyAt := s2.up, lost := false }
  else s2

/-- The ledger reads READ_POUT of the rail's regulator, after PAGE, over PMBus; `valid` says whether `raw` is a valid reply. -/
def execPmbusRead (rail raw : Nat) (valid : Bool) (t : Nat) (s : State) : Out3 :=
  doneIf (s.at t) (decide (rail < 13) && s.flag (LED.RAIL_CFG_EN rail)) (fun s =>
    let s := s.emit (.pmbus (s.fld (LED.RAIL_CFG_ADDR rail)) (s.fld (LED.RAIL_CFG_PAGE rail)) 0x96)
    let x := s.rail rail
    if valid then s.setRail rail { x with watts := linear11 raw :: x.watts, replyAt := s.up, lost := false } else s)

/-- PMBus energy over sensor energy with 14 fraction bits, held to 0.75 to 1.25; a sensor energy of 0 leaves it free. -/
def State.factorOf (s : State) (x : RailMeter) : Nat × State :=
  -- watts × 2^16 over n readings, one second: energy in µJ × 2^16
  let num : Int := x.watts.sum * 1000000 * 2 ^ 14
  let den : Int := x.sensed * x.watts.length * 2 ^ 16
  if den = 0 then
    let (k, s1) := s.fresh 14
    (clampN 0x3000 0x5000 (0x3000 + k % 0x2001), s1)
  else ((clampI 0x3000 0x5000 (roundOpen 373 num den)).toNat, s)

/-- The factor of the last second; a rail that gave no valid reply in it keeps its factor. -/
def execCorrectionUpdate (rail t : Nat) (s : State) : Out3 :=
  doneIf (s.at t) (decide (rail < 13) && s.flag (LED.RAIL_CFG_EN rail)) (fun s =>
    let x := s.rail rail
    let y : RailMeter := { x with watts := [], sensed := 0 }
    if x.watts = [] then s.setRail rail y
    else
      let (f, s1) := s.factorOf x
      (s1.setRegN (LED.RAIL_CORR rail) f).setRail rail y)

def execPmbLost (rail t : Nat) (s : State) : Out3 :=
  let s := s.at t
  let x := s.rail rail
  doneIf s (decide (rail < 13) && s.flag (LED.RAIL_CFG_EN rail) && !x.lost && decide (x.replyAt + 3000000000 * ns ≤ s.up)) (fun s =>
    (s.setRail rail { x with lost := true }).raise LED.STAT_PMB_LOST)

/-! ## The ceiling (R374, R383) -/

/-- The largest step in force. -/
def State.thermalStep (s : State) : Nat := (List.range 8).foldl (fun m d => max m (bits (s.regN THM.STEP) (4 * d) 4)) 0

/-- C in 1/16 W. -/
def State.ceiling16 (s : State) : Nat :=
  let cls := classWatts s.part (bits (s.regN CFG.STRAP) 3 2)
  min (16 * min cls (max 1 (s.fld LED.CEIL_SW_W))) (cls * (16 - s.thermalStep))

/-! ## Coefficients and plans (R375, R377) -/

def clsMANDATORY : Nat := 0
def clsDEFERRABLE : Nat := 1
def clsSHEDDABLE : Nat := 2

def State.schedEntry (s : State) (e : Nat) : SchedEntry :=
  atD s.schedule e { engine := 0, kind := 0, start := 0, endSlot := 0, cls := 0, rank := 0, arg := 0 }

/-- The energy of entry e in the slots up to s. -/
def State.costTo (s : State) (e slot : Nat) : Nat :=
  let x := s.schedEntry e
  s.coefOf e * (min x.endSlot slot + 1 - x.start)

def State.baseUj (s : State) : Nat := s.regN LED.BASE

/-- The entries of a class, highest rank first, the higher index first among equals. -/
def State.inOrder (s : State) (cls : Nat) : List Nat :=
  let l := (List.range s.schedule.length).filter (fun e => (s.schedEntry e).cls == cls)
  l.mergeSort (fun a b =>
    let ra := (s.schedEntry a).rank
    let rb := (s.schedEntry b).rank
    decide (rb < ra ∨ (ra = rb ∧ b ≤ a)))

/-- Entries are dropped in order until the plan fits: those dropped, the plan. -/
def State.dropFrom (s : State) (budget : Int) : List Nat → Nat → List Nat × Nat
  | [], p => ([], p)
  | e :: l, p =>
    if (p : Int) ≤ budget then ([], p)
    else
      let (d, q) := s.dropFrom budget l (p - s.costTo e 1023)
      (e :: d, q)

/-- W/16 over a frame, in µJ, rounded down. -/
def State.wattsOver (s : State) (c16 : Int) : Int := c16 * s.frameLen / (16000 * ns)

/-- The plan of frame f; `fit` sheds and defers. -/
def State.planFor (s : State) (f : Nat) (fit : Bool) : FramePlan :=
  let c := s.ceiling16
  let budget := s.wattsOver ((c : Int) - 16 * s.fld LED.RESERVE_W)
  let all := List.range s.schedule.length
  let whole := 1024 * s.baseUj + (all.map (fun e => s.costTo e 1023)).sum
  let must := 1024 * s.baseUj + ((all.filter (fun e => (s.schedEntry e).cls == clsMANDATORY)).map (fun e => s.costTo e 1023)).sum
  let (shed, p1) := if fit then s.dropFrom budget (s.inOrder clsSHEDDABLE) whole else ([], whole)
  let (dfr, p2) := if fit then s.dropFrom budget (s.inOrder clsDEFERRABLE) p1 else ([], p1)
  { frame := f, c16 := c, step := s.thermalStep, budget := budget, plan := p2, deficit := decide (s.wattsOver c < must), shed := shed,
    deferred := dfr }

/-- The plan reads every entry's coefficient (R375). -/
def State.readCoefs (s : State) : State :=
  s.each (List.range s.schedule.length) (fun s e => s.ledgerTouch (s.regN LED.COEF_LO + s.fld LED.COEF_HI_ADDR * 2 ^ 32 + 4 * e) 4)

/-- The frame after the running one is planned in slot 1,023. A metering frame and CTRL.EN = 0 shed and defer nothing. -/
def execLedgerPlan (t : Nat) (s : State) : Out3 :=
  let s := s.at t
  match s.curFrame with
  | some f =>
    doneIf s (decide (s.slotAt 1023 ≤ s.now) && s.led.next.isNone) (fun s =>
      let p := s.planFor (f + 1) (s.flag LED.CTRL_EN && !s.led.meterReq)
      let s1 := (s.readCoefs.setLed { s.led with next := some p }).setFld LED.STATUS_CEIL p.c16
      if p.deficit then (s1.bump LED.DEFICIT_CNT 1).raise LED.STAT_LEDGER_DEFICIT else s1)
  | none => done s

/-! ## Metering (R376) -/

/-- LED.CTRL is written. -/
def State.ledCtrl (s : State) (v : Nat) : State :=
  let s1 := (s.setFld LED.CTRL_EN v).setFld LED.CTRL_BRAKE_EN (v / 4)
  let s2 := if v.testBit 0 then s1 else s1.setFlag LED.STATUS_BRAKE false
  if v.testBit 1 then s2.setLed { s2.led with meterReq := true } else s2

def execMeterRequest (v : Word) (t : Nat) (s : State) : Out3 := doneIf (s.at t) (v.toNat.testBit 1) (fun s => s.ledCtrl v.toNat)

/-- Does rail r feed engine e (R376)? -/
def railFeeds (r e : Nat) : Bool :=
  if r ≤ 5 then e == 8 + r || e == 14
  else if r = 6 then e == 6 || e == 5
  else if r = 7 then e == 16 || e == 20 || e == 15 || e == 19 || e == 17
  else false

/-- A rail's energy is split among the entries active on it in proportion to their cycles; what is left goes to the base. -/
def State.meterRail (s : State) (active : List Active) (r e : Nat) : State :=
  let mine := active.filter (fun a => a.rail == r && railFeeds r (s.schedEntry a.entry).engine && decide (a.entry < s.schedule.length))
  let all := (mine.map (·.cycles)).sum
  let share (a : Active) : Nat := if all = 0 then 0 else e * a.cycles / all
  let given := (mine.map share).sum
  let attr := mine.foldl (fun (m : Store Nat) a => Store.put m a.entry (Store.getD m a.entry 0 + share a)) s.led.attr
  s.setLed { s.led with attr := attr, base := s.led.base + (e - given) }

/-- The end of a metering frame: coefficients and base are stored, or the frame is void. -/
def State.meterEnd (s : State) : State :=
  if s.led.brakeAt.isSome then s.raise LED.STAT_METER_VOID
  else
    let a := s.regN LED.COEF_LO + s.fld LED.COEF_HI_ADDR * 2 ^ 32
    let s1 := s.each (List.range s.schedule.length) (fun (s : State) e =>
      let x := s.schedEntry e
      let n := x.endSlot + 1 - x.start
      s.ledgerStore (a + 4 * e) (toBytes 4 (roundOpen 376 (Store.getD s.led.attr e 0 : Nat) (2 ^ 14 * max 1 n : Nat)).toNat))
    ((s1.setRegN LED.BASE (roundOpen 376 s1.led.base (2 ^ 24)).toNat).setFlag LED.STATUS_METERED true).raise LED.STAT_METERED

/-! ## Reports (R380) -/

/-- Bytes 8 to 55 of the report of the running plan. -/
def State.reportBody (s : State) (p : FramePlan) : List Byte :=
  toBytes 8 p.frame ++ toBytes 2 p.c16 ++ toBytes 1 p.step
    ++ toBytes 1 (boolNat p.deficit + 2 * boolNat s.led.brakeAt.isSome + 4 * boolNat s.led.metering
        + 8 * boolNat (s.led.metering && s.led.brakeAt.isSome))
    ++ toBytes 8 p.plan ++ toBytes 8 (roundOpen 380 s.led.spent (2 ^ 14)).toNat ++ toBytes 2 (s.led.brakeAt.getD 0xFFFF) ++ toBytes 2 p.shed.length
    ++ toBytes 2 p.deferred.length ++ toBytes 14 0

/-- The frame's account closes: a metering frame is stored, its report is due. -/
def State.ledgerClose (s : State) : State :=
  match s.led.cur with
  | none => s
  | some p =>
    let s1 := if s.led.metering then s.meterEnd else s
    let r : FrameReport := { frame := p.frame, deficit := p.deficit, brake := s1.led.brakeAt.isSome, body := s1.reportBody p }
    (s1.setLed { s1.led with cur := none, due := s1.led.due ++ [r], metering := false }).setFlag LED.STATUS_BRAKE false

/-- Entries stop in this frame: aisle passes are cut off, deferred work pauses (R378). -/
def State.dropEntries (s : State) (shed deferred : List Nat) : State :=
  let a := { s with shed := s.shed ++ shed, deferred := s.deferred ++ deferred }
  let b := if shed = [] then a else (a.bump LED.SHED_CNT shed.length).raise LED.STAT_SHED
  let c := if deferred = [] then b else (b.bump LED.DEFER_CNT deferred.length).raise LED.STAT_DEFER
  if shed.any (fun e => (c.schedEntry e).engine == 14) then
    c.cutPasses (fun g ch => (c.aisleItems g ch).any (fun p => shed.contains p.1))
  else c

/-- Bell of frame f: the account of the last frame closes, the plan made in its slot 1,023 takes effect whatever index the bell carries
(R24), a metering frame begins if one is requested. -/
def State.ledgerBell (s : State) (f : Nat) : State :=
  let s1 := s.ledgerClose
  let p := match s1.led.next with
    | some p => { p with frame := f }
    | none => s1.planFor f false
  let m := s1.led.meterReq
  let q : FramePlan := if m then { p with shed := [], deferred := [] } else p
  let s2 := s1.setLed { s1.led with next := none, cur := some q, spent := 0, slots := 0, brakeAt := none, meterReq := false,
                                    metering := m, attr := [], base := 0 }
  ({ s2 with shed := [], deferred := [] }).dropEntries q.shed q.deferred

/-- The engine leaves STOPPED without coefficients: its first frame is a metering frame. -/
def State.ledgerStart (s : State) : State :=
  let s1 := s.setLed { s.led with next := none }
  if s1.flag LED.STATUS_METERED then s1 else s1.setLed { s1.led with meterReq := true }

/-! ## Slot ends (R379) -/

/-- The planned energy of slots 0 to `slot`, µJ. -/
def State.plannedTo (s : State) (slot : Nat) : Nat :=
  let kept := (List.range s.schedule.length).filter (fun e => !s.shed.contains e && !s.deferred.contains e)
  (slot + 1) * s.baseUj + (kept.map (fun e => s.costTo e slot)).sum

def State.overPlan (s : State) (slot : Nat) (p : FramePlan) : Bool :=
  decide (((s.plannedTo slot : Nat) : Int) * 2 ^ 22 + max 1 (s.fld LED.MARGIN_M) * p.budget * 2 ^ 14 < (s.led.spent : Int) * 2 ^ 8)

/-- The slot brake engages after `slot`. -/
def State.brake (s : State) (slot : Nat) (p : FramePlan) : State :=
  let kept (cls : Nat) := (List.range s.schedule.length).filter (fun e =>
    (s.schedEntry e).cls == cls && decide (slot < (s.schedEntry e).endSlot) && !s.shed.contains e && !s.deferred.contains e)
  let sh := kept clsSHEDDABLE
  let df := kept clsDEFERRABLE
  let q : FramePlan := { p with shed := p.shed ++ sh, deferred := p.deferred ++ df }
  let s1 := (s.setLed { s.led with brakeAt := some (slot + 1), cur := some q }).setFlag LED.STATUS_BRAKE true
  ((s1.bump LED.BRAKE_CNT 1).raise LED.STAT_BRAKE).dropEntries sh df

/-- A slot's rail energies, µJ by the sensors, corrected and counted in 2^−14 µJ. -/
def State.spendRail (s : State) (active : List Active) (r e : Nat) : State :=
  let f := s.fld (LED.RAIL_CORR_F r)
  let s1 := s.setLed { s.led with spent := s.led.spent + e * f }
  let s2 := s1.setRail r { s1.rail r with sensed := (s1.rail r).sensed + e }
  if s2.led.metering then s2.meterRail active r (e * f) else s2

/-- The next slot of the frame ends, with each rail's energy and what was active. -/
def execLedgerSlotEnd (rails : List Nat) (active : List Active) (t : Nat) (s : State) : Out3 :=
  let s := s.at t
  match s.led.cur with
  | some _ =>
    let slot := s.led.slots
    doneIf s (decide (slot < 1024) && decide (s.slotAt (slot + 1) ≤ s.now)) (fun s =>
      let s1 := s.each (List.range 13) (fun (s : State) r => s.spendRail active r (atD rails r 0))
      let s2 := s1.setLed { s1.led with slots := slot + 1 }
      let s3 := match s2.led.cur with
        | some p =>
          if s2.flag LED.CTRL_EN && s2.flag LED.CTRL_BRAKE_EN && s2.led.brakeAt.isNone && s2.overPlan slot p then s2.brake slot p else s2
        | none => s2
      if slot = 1023 then s3.ledgerClose else s3)
  | none => done s

/-- The oldest report that is due is written, SEQ before its body and after it, and posted. -/
def execLedgerReport (t : Nat) (s : State) : Out3 :=
  let s := s.at t
  match s.led.due with
  | r :: l =>
    let q := (s.led.seq + 1) % 2 ^ 64
    let a := s.regN LED.RPT_LO + s.fld LED.RPT_HI_ADDR * 2 ^ 32 + r.frame % 16 * 64
    let s1 := s.ledgerStore a (toBytes 8 q ++ r.body ++ toBytes 8 q)
    done (s1.setLed { s1.led with due := l, seq := q,
                                  mb := s1.led.mb.publish (fun n => [n, boolNat r.deficit, boolNat r.brake, r.frame]) })
  | [] => done s

end Sys2Proof.Machine
end

