-- ==== Sys2Proof/Machine/Image.lean ====
section
/-! DEFINITION. Configuration images: their layout, the checks of R391, R392 and R412, and what each verdict does
(R387 to R401, R403, R406, R407, R411 to R413). -/
namespace Sys2Proof.Machine

def State.setCfg (s : State) (c : Loader) : State := { s with cfg := c }

/-- Loader states (CFG.STATUS.STATE). -/
def ldBOOT : Nat := 0
def ldNO_IMAGE : Nat := 1
def ldSTAGING : Nat := 2
def ldVERIFY : Nat := 3
def ldWAIT_PITCH : Nat := 4
def ldAPPLY : Nat := 5
def ldREADY : Nat := 6

def State.ldState (s : State) : Nat := s.fld CFG.STATUS_STATE
def State.setLd (s : State) (k : Nat) : State := s.setFld CFG.STATUS_STATE k

/-- A full image is in force (R387). -/
def State.imaged (s : State) : Bool := s.regN BEL.SCHED_ID != 0

def State.recovery (s : State) : Bool := s.flag SEC.STATUS_RECOVERY
def State.secState (s : State) : Nat := s.fld SEC.STATUS_STATE

def State.stageBase (s : State) : Nat := s.regN CFG.STAGE_LO + s.fld CFG.STAGE_HI_ADDR * 2 ^ 32

/-! ## Layout (R388 to R390) -/

/-- A section table entry. -/
structure Sect where
  type : Nat
  pitch : Nat
  off : Nat
  len : Nat
  dest : Nat
  digest : List Byte
deriving DecidableEq, Repr

/-- Field of n bytes at offset o of the image at base. -/
def State.img (s : State) (base o n : Nat) : Nat := s.readN (base + o) n

def State.imgKind (s : State) (base : Nat) : Nat := s.img base 7 1
def State.imgLength (s : State) (base : Nat) : Nat := s.img base 0x10 8
def State.imgCount (s : State) (base : Nat) : Nat := min 256 (s.img base 0xA 2)
def State.imgCores (s : State) (base : Nat) : Nat := s.img base 0x1C 2
def State.imgDies (s : State) (base : Nat) : Nat := s.img base 8 1
def State.imgEnc (s : State) (base : Nat) : Bool := (s.img base 9 1).testBit 0

def State.sect (s : State) (base k : Nat) : Sect :=
  let o := 0x100 + 64 * k
  { type := s.img base o 2, pitch := s.img base (o + 2) 1, off := s.img base (o + 8) 8, len := s.img base (o + 16) 8,
    dest := s.img base (o + 24) 8, digest := s.read (base + o + 32) 32 }

def State.sects (s : State) (base : Nat) : List Sect := (List.range (s.imgCount base)).map (s.sect base)

/-- Header and section table: what the signature covers, and what an image digest is taken of (R389, R416). -/
def State.imgHead (s : State) (base : Nat) : List Byte := s.read base (0x100 + 64 * s.imgCount base)

def State.imgDigest (s : State) (base : Nat) : List Byte := shake256 32 (s.imgHead base)

def bytesNat (l : List Byte) : List Nat := l.map (·.toNat)

/-- The key that KEYSLOT names. -/
def State.imgKey (s : State) (base : Nat) : Option (List Byte) := Store.get? s.sec.keys.keys (s.img base 0x1E 1)

def State.firstOffset (s : State) (base : Nat) : Nat :=
  match (s.sects base).map (·.off) with
  | [] => 0
  | o :: l => l.foldl min o

/-- The plaintext of n bytes at offset o: with ENC = 1 the ciphertext under the key's stream, where the cipher's bytes come from the
crypto unit (log entry 9). -/
def State.imgPlain (s : State) (base o n : Nat) : List Byte :=
  let raw := s.read (base + o) n
  if s.imgEnc base then
    let k := bytesNat ((s.imgKey base).getD []) ++ bytesNat (s.read (base + 0x20) 12)
    let f := s.firstOffset base
    raw.zipIdx.map (fun p => p.1 ^^^ BitVec.ofNat 8 (Config.cryptoByte 4 k (o + p.2 - f)))
  else raw

def State.sectData (s : State) (base : Nat) (x : Sect) : List Byte := s.imgPlain base x.off x.len

/-- Applied on this device (R394). -/
def State.sectHere (s : State) (x : Sect) : Bool := x.pitch == 0xFF || (s.hasPitch && x.pitch == s.myPitch)

def State.sectsOf (s : State) (base type : Nat) : List Sect := (s.sects base).filter (fun x => x.type == type && s.sectHere x)

/-- The (address, value) entries of PRESET data. -/
def presetEntries (l : List Byte) : List (Nat × Nat) :=
  (List.range (l.length / 16)).map (fun k => (leAt l (16 * k) 8, leAt l (16 * k + 8) 4))

/-- The words of PORT data. -/
def portWords (l : List Byte) : List Nat := (List.range (l.length / 4)).map (fun k => leAt l (4 * k) 4)

def regionBase : Nat := 0xFF0000000000

def State.presets (s : State) (base : Nat) : List (Nat × Nat) := (s.sectsOf base 1).flatMap (fun x => presetEntries (s.sectData base x))

/-- The last value that the presets give register r. -/
def lastPreset (l : List (Nat × Nat)) (r : Reg) (d : Nat) : Nat :=
  ((l.filter (fun p => p.1 == regionBase + r)).getLast?.map (·.2)).getD d

/-- A schedule entry (R27's table). -/
def schedOf (l : List Byte) (k : Nat) : SchedEntry :=
  let w := leAt l (16 * k) 8
  { engine := bits w 0 8, kind := bits w 8 8, start := bits w 16 10, endSlot := bits w 26 10, cls := bits w 36 2, rank := bits w 38 8,
    arg := leAt l (16 * k + 8) 8 }

def schedEntries (l : List Byte) : List SchedEntry := (List.range (l.length / 16)).map (schedOf l)

/-! ## Checks (R391, R392) -/

def presentDies (p : Part) : Nat := match p with | .iz8 => 0x3F | .iz4 => 3

/-- DIEMASK names the dies that R388 asks for, all of them present. -/
def State.diemaskOk (s : State) (base : Nat) : Bool :=
  let dies := s.imgDies base
  match s.imgKind base with
  | 1 => dies == presentDies s.part
  | 2 => popCount 8 dies == 1 && dies &&& presentDies s.part == dies
  | _ => dies == 0

def headerOk (s : State) (base staged : Nat) : Bool :=
  let k := s.imgKind base
  let n := s.img base 0xA 2
  s.img base 0 4 == 0x46435A49 && s.img base 4 2 == 1 && 1 ≤ k && k ≤ 4 && decide (s.img base 9 1 < 2) && 1 ≤ n && n ≤ 256
    && decide (s.imgLength base ≤ 2 ^ 28) && decide (s.imgLength base ≤ staged)
    && (k != 1 || s.img base 0xC 4 != 0) && (k == 4 || s.imgCores base == 0)
    && s.img base 0x1F 1 == 0 && s.img base 0x3C 196 == 0

def sectOk (s : State) (base : Nat) (x : Sect) (k : Nat) : Bool :=
  let start := ceilDiv (0x100 + 64 * s.imgCount base + 3309) 4096 * 4096
  s.img base (0x100 + 64 * k + 3) 5 == 0 && (x.pitch == 0xFF || x.pitch < 64) && x.off % 4096 == 0 && x.len % 4 == 0
    && decide (start ≤ x.off) && decide (x.off + x.len ≤ s.imgLength base)

def State.formatOk (s : State) (base staged : Nat) : Bool :=
  headerOk s base staged && ((s.sects base).zipIdx).all (fun p => sectOk s base p.1 p.2)

/-- The signature under the root that R412 names. -/
def State.signatureOk (s : State) (base : Nat) : Bool :=
  let h := s.imgHead base
  let sig := s.read (base + h.length) 3309
  if s.secState = 2 ∧ !s.recovery then
    match s.sec.keys.root with
    | some r => Config.authentic 1 (bytesNat r ++ bytesNat h ++ bytesNat sig)
    | none => false
  else Config.authentic 0 (bytesNat h ++ bytesNat sig)

/-- With ENC = 1, the tag over the data area, with the header (TAG zero) and table as additional data (R389, R412). -/
def State.decryptOk (s : State) (base : Nat) : Bool :=
  if s.imgEnc base then
    match (if s.img base 0x1E 1 ≤ 15 then s.imgKey base else none) with
    | none => false
    | some k =>
      let h := s.imgHead base
      let aad := h.take 0x2C ++ List.replicate 16 0#8 ++ h.drop 0x3C
      let f := s.firstOffset base
      Config.authentic 2 (bytesNat k ++ bytesNat aad ++ bytesNat (s.read (base + f) (s.imgLength base - f))
        ++ bytesNat (s.read (base + 0x2C) 16))
  else true

def State.digestsOk (s : State) (base : Nat) : Bool := (s.sects base).all (fun x => shake256 32 (s.sectData base x) == x.digest)

/-- Kinds that may carry a type (R390). -/
def kindCarries (kind type : Nat) : Bool :=
  match type with
  | 1 => true
  | 2 => kind == 1 || kind == 3
  | 3 => kind == 1
  | 4 => kind == 1
  | 5 => kind == 1 || kind == 2
  | 6 => kind == 1 || kind == 4
  | 7 => kind == 1 || kind == 4
  | 8 => kind == 1 || kind == 4
  | _ => false

/-- [a, a + n) lies in DRAM or SRAM of the address map (R5). -/
def State.inMemory (s : State) (a n : Nat) : Bool :=
  decide (a + n ≤ s.dramSize) || decide (0xFE0000000000 ≤ a ∧ a + n ≤ 0xFE0002000000)
    || decide (0xFE0010000000 ≤ a ∧ a + n ≤ 0xFE0016000000) || decide (0xFE0020000000 ≤ a ∧ a + n ≤ 0xFE0024000000)
    || decide (0xFE0030000000 ≤ a ∧ a + n ≤ 0xFE0030200000)

/-- The registers a COEF image may address (R390). -/
def coefRegs : List Reg :=
  [FFL.CSEL, FFL.CADDR, FFL.CDATA, CHN.WSEL, CHN.WADDR, CHN.WDATA, CHN.SSEL, CHN.SADDR, CHN.SDATA]

/-- The die that a STALL image names. -/
def State.imgDie (s : State) (base : Nat) : Nat := ((setBits 6 (s.imgDies base)).head?).getD 0

/-- May register address a be preset by an image of this kind? -/
def State.presetOk (s : State) (base kind a : Nat) : Bool :=
  if kind = 2 then
    let r := STL.CTRL (s.imgDie base)
    decide (regionBase + r ≤ a ∧ a ≤ regionBase + r + 8)
  else if kind = 3 then coefRegs.any (fun r => a == regionBase + r)
  else true

def State.destOk (s : State) (base kind : Nat) (x : Sect) : Bool :=
  kindCarries kind x.type &&
  (match x.type with
   | 1 => (presetEntries (s.sectData base x)).all (fun p => s.presetOk base kind p.1)
   | 2 => s.presetOk base kind x.dest
   | 3 => s.inMemory x.dest x.len
   | 5 => decide (x.dest < 6) && (s.imgDies base).testBit x.dest && decide (x.len ≤ 2 ^ 20)
   | 6 => decide (x.dest < 16) && (kind == 1 || (s.imgCores base).testBit x.dest) && decide (x.len ≤ 2 ^ 17)
   | 7 => decide (x.dest < 16) && (kind == 1 || (s.imgCores base).testBit x.dest) && decide (x.len ≤ 2 ^ 16)
   | 8 => decide (x.dest < 16) && (kind == 1 || (s.imgCores base).testBit x.dest) && decide (x.len ≤ 2 ^ 16)
   | _ => true)

/-- An engine that schedule entries may name, present on the part (R27). -/
def engineOk (p : Part) (e : Nat) : Bool :=
  (8 ≤ e && e ≤ 13 && (presentDies p).testBit (e - 8)) || [14, 15, 16, 20, 19, 17, 6, 5].contains e

def startsSorted : List SchedEntry → Bool
  | a :: b :: l => decide (a.start ≤ b.start) && startsSorted (b :: l)
  | _ => true

/-- R27. -/
def scheduleOk (p : Part) (l : List SchedEntry) : Bool :=
  decide (l.length ≤ 16384) && startsSorted l
    && l.all (fun e => decide (e.start ≤ e.endSlot) && engineOk p e.engine && e.cls != 3)

/-- D as a full image leaves it (R38): presets it does not give leave 0. -/
def State.imgFrameLen (s : State) (base : Nat) : Nat :=
  let l := s.presets base
  lastPreset l BEL.FLEN_FRAC 0 % 65536 + lastPreset l BEL.FLEN_LO 0 * ns + lastPreset l BEL.FLEN_HI 0 % 65536 * 2 ^ 48

/-- R403. -/
def State.layoutOk (s : State) (base : Nat) : Bool :=
  let n := s.imgDie base
  let l := s.presets base
  lastPreset l (STL.CTRL n) (s.regN (STL.CTRL n)) % 2 == s.regN (STL.CTRL n) % 2
    && lastPreset l (STL.CFG n) (s.regN (STL.CFG n)) % 2 ^ 17 == s.regN (STL.CFG n) % 2 ^ 17
    && lastPreset l (STL.CHCNT n) (s.regN (STL.CHCNT n)) % 2 ^ 15 == s.regN (STL.CHCNT n) % 2 ^ 15

/-- Register writes of a COEF image, in table order. -/
def State.imgWrites (s : State) (base : Nat) : List (Nat × Nat) :=
  ((s.sects base).filter s.sectHere).flatMap (fun x =>
    if x.type = 1 then presetEntries (s.sectData base x)
    else if x.type = 2 then (portWords (s.sectData base x)).map (fun w => (x.dest, w)) else [])

/-- A bank that a selection names is in use, or has a swap or commit pending (R407). -/
def State.bankBusy (s : State) (a v : Nat) : Bool :=
  if a = regionBase + FFL.CSEL then
    let w := putBits 0 0 32 v
    let g := bits w FFL.CSEL_GROUP.lo FFL.CSEL_GROUP.wid
    let k := bits w FFL.CSEL_KIND.lo FFL.CSEL_KIND.wid
    let b := bits w FFL.CSEL_BANK.lo FFL.CSEL_BANK.wid
    Store.has s.front.swaps g || b == (if k = 0 then s.fld (FFL.GRP_BANK_COMP g) else s.fld (FFL.GRP_BANK_RES g))
  else if a = regionBase + CHN.WSEL then s.chan.swap.isSome || v % 2 == s.fld CHN.SWAP_CMD_BANK
  else if a = regionBase + CHN.SSEL then s.chan.scale.inUse true (v % 2) || s.chan.scale.pend != []
  else false

/-- Some job's mask lies wholly in CORES (R406). -/
def State.jobMasked (s : State) (cores : Nat) : Bool :=
  s.schedule.any (fun e => e.engine == 20 && e.kind == 1 && e.arg % 65536 != 0 && (e.arg % 65536) &&& cores == e.arg % 65536)

/-- Reasons of LOAD_RES. -/
def rsSIG : Nat := 1
def rsDECRYPT : Nat := 2
def rsDIGEST : Nat := 3
def rsFORMAT : Nat := 4
def rsVARIANT : Nat := 5
def rsSCHED : Nat := 6
def rsLIMIT : Nat := 7
def rsSTATE : Nat := 8
def rsBUSY : Nat := 9
def rsGEOM : Nat := 10
def rsLAYOUT : Nat := 11
def rsBANK_BUSY : Nat := 12
def rsVERSION : Nat := 13
def rsJOBMASK : Nat := 14
def rsINCOMPLETE : Nat := 15
def rsDEST : Nat := 16

/-- The reason the image of job j is rejected; 0 where it passes. -/
def State.verdict (s : State) (j : LoadJob) : Nat :=
  let b := j.base
  let k := s.imgKind b
  if !s.formatOk b j.len then rsFORMAT
  else if !s.signatureOk b then rsSIG
  else if !s.decryptOk b then rsDECRYPT
  else if !s.digestsOk b then rsDIGEST
  else if s.img b 6 1 != (match s.part with | .iz8 => 8 | .iz4 => 4) then rsVARIANT
  else if (k = 1 ∧ s.bellState ≠ stSTOPPED) ∨ (s.recovery ∧ (k ≠ 1 ∨ j.src ≠ 2)) then rsSTATE
  else if !s.diemaskOk b then rsFORMAT
  else if !(s.sects b).all (s.destOk b k) then rsDEST
  else if !(s.sects b).all (fun x => x.type != 4 || scheduleOk s.part (schedEntries (s.sectData b x))) then rsSCHED
  else if k = 1 ∧ (s.imgFrameLen b < 1048576 * ns ∨ 2 ^ 40 * ns < s.imgFrameLen b) then rsLIMIT
  else if k ≠ 1 ∧ s.img b 0xC 4 ≠ s.regN BEL.SCHED_ID then rsSCHED
  else if s.img b 0x1B 1 < s.otp.epoch then rsVERSION
  else if k = 2 ∧ !s.layoutOk b then rsLAYOUT
  else if k = 3 ∧ (s.imgWrites b).any (fun p => s.bankBusy p.1 p.2) then rsBANK_BUSY
  else if k = 4 ∧ s.jobMasked (s.imgCores b) then rsJOBMASK
  else if k = 1 ∧ !s.imaged ∧ lastPreset (s.presets b) DMC.GEOM (s.regN DMC.GEOM) ≠ s.regN DMC.GEOM then rsGEOM
  else 0

/-! ## Results (R391, R396, R400) -/

def State.loadRes (s : State) (result reason kind : Nat) : State :=
  s.setRegN CFG.LOAD_RES (result + 4 * reason + 128 * (kind % 8))

def State.refuseLoad (s : State) (reason kind : Nat) : State := (s.loadRes 3 reason kind).raise CFG.STAT_LOAD_REFUSED

/-- Neither flash slot yielded an image. -/
def State.bootFail (s : State) : State := ({ s with alertDirect := true }.setLd ldNO_IMAGE).raise CFG.STAT_BOOT_FAIL

def State.bootSrc (s : State) : Nat := s.fld CFG.STRAP_BOOT_SRC

/-- Where the loader goes after a rejected image. -/
def State.afterReject (s : State) (j : LoadJob) : State :=
  if s.imaged then s.setLd ldREADY
  else match j.src with
    | 0 => (s.setCfg { s.cfg with flashSlot := 1 }).setLd ldSTAGING
    | 1 => s.bootFail
    | 3 => (s.setCfg { s.cfg with rejected := s.img j.base 0xC 4 :: s.cfg.rejected, rx := none }).setLd ldSTAGING
    | _ => if s.alertDirect && s.bootSrc = 0 then s.setLd ldNO_IMAGE else s.setLd ldSTAGING

def State.rejectLoad (s : State) (j : LoadJob) (reason : Nat) : State :=
  let s1 := (s.setCfg { s.cfg with job := none }).loadRes 2 reason j.kind
  ((s1.bump CFG.REJ_CNT 1).raise CFG.STAT_IMG_REJ).afterReject j

/-- A staged image that bank 3 does not confirm at a wake is loaded in full again. -/
def State.rejectWake (s : State) (j : LoadJob) : State :=
  let s1 := (s.setCfg { s.cfg with job := none, digFull := [] }).loadRes 2 rsDIGEST j.kind
  ((s1.bump CFG.REJ_CNT 1).raise CFG.STAT_IMG_REJ).setLd ldSTAGING

/-! ## The boot lock (R399) -/

def State.locked (s : State) : Bool := s.flag CFG.STATUS_LOCKED

def State.bootLock (s : State) : State := if s.locked then s else (s.setFlag CFG.STATUS_LOCKED true).raise CFG.STAT_LOCKED

def execBootLockClose (v : Word) (t : Nat) (s : State) : Out3 := doneIf (s.at t) (v.toNat.testBit 0) (fun s => s.bootLock)

/-! ## Clerk memories -/

/-- Words written to a core's local memory from word 0: mem 0 PM, 1 XM, 2 YM. -/
def State.loadLocal (s : State) (n mem : Nat) (l : List Byte) : State :=
  let c := s.core n
  let z := if mem = 0 then 4 else 2
  let ws := (List.range (l.length / z)).map (fun k => (k, leAt l (z * k) z))
  let put (m : Store Nat) : Store Nat := ws.foldl (fun m p => Store.set 0 m p.1 p.2) m
  let e := c.errs.filter (fun p => p.1 / 32768 != mem || decide (ws.length ≤ p.1 % 32768))
  s.setCore n (match mem with
    | 0 => { c with pm := put c.pm, errs := e }
    | 1 => { c with xm := put c.xm, errs := e }
    | _ => { c with ym := put c.ym, errs := e })

/-- The CLERK sections of the image at base that `sel` names go into their cores. -/
def State.loadClerks (s : State) (base : Nat) (sel : Nat → Bool) : State :=
  (((s.sects base).filter (fun x => s.sectHere x && 6 ≤ x.type && x.type ≤ 8 && sel x.dest))).foldl
    (fun (t : State) x => t.loadLocal x.dest (x.type - 6) (s.sectData base x)) s

/-! ## Stall-die and clerk changes (R401 to R406) -/

def State.setChange (s : State) (c : Option Change) : State := s.setCfg { s.cfg with change := c }

def State.showPart (s : State) (st die : Nat) (takeover hold : Bool) : State :=
  s.setRegN CFG.PART (st + 4 * die + 32 * boolNat takeover + 64 * boolNat hold)

/-- The spare die of the five-plus-spare shape, in SPARE with its domain on (R404). -/
def State.spareDie (s : State) : Option Nat :=
  if s.fld (STL.ICFG_SHAPE 0) = 1 then
    (List.range 6).find? (fun d => s.fld (STL.CFG_LPOS d) == 7 && s.fld (STL.STATUS_STATE d) == 3 && s.domOn (3 + d))
  else none

/-- The spare takes the die's logical position and channels, at a bell (R180): its OPENED is raised (R181). -/
def State.handOver (s : State) (n : Nat) : State :=
  match s.spareDie with
  | some d =>
    let s1 := (s.setReg (STL.CFG d) (s.reg (STL.CFG n))).setReg (STL.CHCNT d) (s.reg (STL.CHCNT n))
    let s2 := (s1.setFld (STL.CFG_LPOS n) 7).setRegN (STL.CHCNT n) 0
    ((s2.setFld (STL.STATUS_STATE d) 0).raise (STL.STAT_OPENED d)).raise CFG.STAT_TAKEOVER
  | none => s

/-- Die n's MODE4, LPOS, FIRST and CHCNT are those of state o (R403). -/
def State.keepLayout (s o : State) (n : Nat) : State :=
  ((s.setReg (STL.CTRL n) (o.reg (STL.CTRL n))).setReg (STL.CFG n) (o.reg (STL.CFG n))).setReg (STL.CHCNT n) (o.reg (STL.CHCNT n))

/-- The reload of a closed die starts (step 2), or without an image the die stays closed. -/
def State.reloadDie (s : State) (c : Change) : State :=
  if c.noimg then (s.setChange (some { c with phase := 3 })).showPart 3 c.die c.takeover c.hold
  else
    let s3 := (s.setChange (some { c with phase := 1 })).showPart 2 c.die c.takeover c.hold
    if c.pcycle then
      let s4 := s3.powerDown (3 + c.die)
      let s5 := if s4.domDue (3 + c.die) then s4.powerUp (3 + c.die) else s4
      s5.keepLayout s3 c.die
    else s3

/-- Step 1 at the change bell: the die, unless closed before, closes, and hands over. -/
def State.closeDie (s : State) (c : Change) : State :=
  let x := s.die c.die
  let s1 := if x.closed then s
    else (((s.setDie c.die { x with closed := true, running := none, pass := none }).setFld (STL.STATUS_STATE c.die) 2).raise
      (STL.STAT_CLOSED c.die)).raise CFG.STAT_PART_CLOSED
  (if c.takeover then s1.handOver c.die else s1).reloadDie c

/-- Step 3: the die reopens. -/
def State.reopenDie (s : State) (n : Nat) : State :=
  let x := s.die n
  let st := if s.fld (STL.CFG_LPOS n) = 7 then 3 else 1
  ((((s.setDie n { x with closed := false }).setFld (STL.STATUS_STATE n) st).raise (STL.STAT_OPENED n)).raise
    CFG.STAT_PART_OPENED)

/-- Step 1 at the change bell: the cores halt as R289 says and leave CLE_LIVE. -/
def State.haltCores (s : State) (c : Change) : State :=
  let s1 := s.each (setBits 16 c.cores) (fun (s : State) n =>
    let x := s.core n
    if x.st = 2 ∨ x.st = 3 ∨ x.st = 5 then (s.setCore n { x with haltNow := true, haltBell := false }).tryHalt n
    else s.setCore n { x with startBell := false })
  let live := (List.range 16).foldl (fun v n => if c.cores.testBit n then setBit v n false else v) (s1.regN CFG.CLE_LIVE)
  ((s1.setRegN CFG.CLE_LIVE live).raise CFG.STAT_CUPD_HALTED).setChange (some { c with phase := 1 })

/-- Step 3: the cores restart at ENTRY with registers reset and their queues emptied, and rejoin CLE_LIVE. -/
def State.restartCores (s : State) (c : Change) : State :=
  let s1 := s.each (setBits 16 c.cores) (fun (s : State) n =>
    (s.setCore n { s.core n with jobq := [], done := [], st := 4 }).startCore n)
  ((s1.setRegN CFG.CLE_LIVE (s1.regN CFG.CLE_LIVE ||| c.cores)).raise CFG.STAT_CUPD_DONE).setChange none

/-- The next step of a change. -/
def State.changeOn (s : State) : State :=
  match s.cfg.change with
  | some c =>
    if c.phase = 0 then (if c.clerk then s.haltCores c else s.closeDie c)
    else if c.phase = 2 then
      (if c.clerk then s.restartCores c
       else ((s.reopenDie c.die).setChange none).setRegN CFG.PART 0)
    else s
  | none => s

/-- The change moves on at a bell, or at once while the engine is STOPPED; a takeover of a die closed before comes first (R404). -/
def State.changeStep (s : State) : State :=
  match s.cfg.change with
  | some c => if c.handDue then ((s.handOver c.die).setChange (some { c with handDue := false })).changeOn else s.changeOn
  | none => s

/-- What bell b does for a change: neither its first step nor its takeover comes before the change bell. -/
def State.changeBell (s : State) (b : Nat) : State :=
  match s.cfg.change with
  | some c => if (c.phase = 0 ∨ c.handDue) ∧ b < c.bell then s else s.changeStep
  | none => s

/-- The engine reaches STOPPED, or the next step of a change falls in STOPPED: it takes place at once. -/
def State.changeNow (s : State) : State := if s.bellState = stSTOPPED then s.changeStep else s

/-- The change bell of a change that is ready now (R401). -/
def State.changeIndex (s : State) : Nat :=
  match s.curFrame with
  | some n => if s.now < s.slotAt 1023 then n + 1 else n + 2
  | none => s.bell.nextIdx

/-- A verified change waits for its bell; the reload of a die already closed starts now. -/
def State.beginChange (s : State) (c : Change) : State :=
  let b := if s.bellState = stSTOPPED then s.bellIndex else s.changeIndex
  let c := { c with bell := b, phase := 0 }
  let s1 := (s.setPair CFG.CBELL_LO CFG.CBELL_HI b).setChange (some c)
  let s2 := if c.clerk then s1 else s1.showPart 1 c.die c.takeover c.hold
  if !c.clerk && !c.noimg && (s.die c.die).closed && s.bellState != stSTOPPED then s2.reloadDie { c with handDue := c.takeover }
  else s2.changeNow

/-- After a reload or load: reopening or restart waits for the next bell, or for OPEN. -/
def State.changeLoaded (s : State) (c : Change) : State :=
  if c.hold then (s.setChange (some { c with phase := 3 })).showPart 3 c.die c.takeover c.hold
  else ((s.setChange (some { c with phase := 2 })).changeNow)

/-! ## Commands -/

/-- A change or load is in flight (R400); a die closed without an image is not. -/
def State.loadBusy (s : State) : Bool :=
  s.cfg.job.isSome || s.cfg.accepted.isSome ||
    (match s.cfg.change with | some c => !(c.noimg && c.phase == 3 && !c.handDue) | none => false)

/-- R404's conditions on a takeover of die n. -/
def State.takeoverOk (s : State) (n : Nat) : Bool := s.spareDie.isSome && s.fld (STL.CFG_LPOS n) ≤ 4

/-- A write of CFG.LOAD. -/
def State.loadCmd (s : State) (v : Nat) : State :=
  let s := s.setRegN CFG.LOAD (v % 256 / 2 * 2)
  let noimg := v.testBit 1
  let base := s.stageBase
  let kind := if noimg then 2 else s.imgKind base % 8
  let die := if noimg then bits v 5 3 else s.imgDie base
  if !v.testBit 0 then s
  else if s.loadBusy then s.refuseLoad rsBUSY kind
  else if noimg ∧ !((presentDies s.part).testBit die) then s.refuseLoad rsDEST kind
  else if s.ldState = ldBOOT ∨ (kind = 1 ∧ s.bellState ≠ stSTOPPED) ∨ (kind = 2 ∧ v.testBit 2 ∧ !s.takeoverOk die) then
    s.refuseLoad rsSTATE kind
  else if noimg then
    ((s.loadRes 1 0 kind).beginChange { clerk := false, die := die, cores := 0, noimg := true, takeover := v.testBit 2, hold := false,
                                        pcycle := false, handDue := false, bell := 0, phase := 0, base := 0, len := 0 })
  else
    let j : LoadJob := { src := 2, base := base, len := s.fld CFG.STAGE_LEN_BYTES, kind := kind, takeover := v.testBit 2,
                         hold := v.testBit 3, pcycle := v.testBit 4, recheck := false }
    ((s.setCfg { s.cfg with job := some j }).loadRes 0 0 kind).setLd ldVERIFY

def execImageLoad (v : Word) (t : Nat) (s : State) : Out3 := doneIf (s.at t) (v.toNat.testBit 0) (fun s => s.loadCmd v.toNat)

/-- A load that carries no image closes its die. -/
def execDieCloseNoimg (v : Word) (t : Nat) (s : State) : Out3 :=
  doneIf (s.at t) (v.toNat.testBit 0 && v.toNat.testBit 1) (fun s => s.loadCmd v.toNat)

/-- An accepted image: a full or coefficient image waits to be applied, a stall or clerk image for its bell. -/
def State.acceptLoad (s : State) (j : LoadJob) : State :=
  let k := s.imgKind j.base
  let s1 := (s.setCfg { s.cfg with job := none }).loadRes 1 0 k
  let c : Change := { clerk := k == 4, die := s.imgDie j.base, cores := s.imgCores j.base, noimg := false,
                      takeover := k == 2 && j.takeover, hold := k == 2 && j.hold, pcycle := k == 2 && j.pcycle, handDue := false, bell := 0,
                      phase := 0, base := j.base, len := j.len }
  if k = 1 ∨ k = 3 then
    let wait := (s.sects j.base).any (fun x => x.pitch != 0xFF) && !s.hasPitch
    (s1.setCfg { s1.cfg with accepted := some { j with kind := k } }).setLd (if wait then ldWAIT_PITCH else ldAPPLY)
  else (s1.setLd ldREADY).beginChange c

/-- Verification ends. A wake's re-check compares the staged digests with what bank 3 kept (R398). -/
def execImageVerified (t : Nat) (s : State) : Out3 :=
  let s := s.at t
  match s.cfg.job with
  | some j =>
    if j.recheck then
      done (if s.formatOk j.base j.len && s.imgDigest j.base == s.cfg.digFull && s.digestsOk j.base then s.acceptLoad j
        else s.rejectWake j)
    else
      let r := s.verdict j
      done (if r = 0 then s.acceptLoad j else s.rejectLoad j r)
  | none => done s

/-- A write of CFG.OPEN: a held die reopens at the next bell. -/
def State.openDie (s : State) (v : Nat) : State :=
  match s.cfg.change with
  | some c => if v.testBit 0 && c.phase == 3 && !c.noimg then (s.setChange (some { c with phase := 2 })).changeNow else s
  | none => s

def execDieOpen (v : Word) (t : Nat) (s : State) : Out3 := done ((s.at t).openDie v.toNat)

def execStallReloadFail (t : Nat) (s : State) : Out3 :=
  let s := s.at t
  match s.cfg.change with
  | some c =>
    doneIf s (!c.clerk && c.phase == 1) (fun s =>
      ((s.setChange (some { c with phase := 3, noimg := true })).showPart 3 c.die c.takeover c.hold).raise CFG.STAT_PART_FAIL)
  | none => done s

/-- The CLERK sections are in the cores' memories. -/
def execClerkLoadDone (t : Nat) (s : State) : Out3 :=
  let s := s.at t
  match s.cfg.change with
  | some c =>
    doneIf s (c.clerk && c.phase == 1) (fun s =>
      let dig := s.imgDigest c.base
      let s1 := s.loadClerks c.base (fun n => c.cores.testBit n)
      let d := (setBits 16 c.cores).foldl (fun m n => Store.put m n dig) s1.cfg.digClerk
      (s1.setCfg { s1.cfg with digClerk := d }).changeLoaded c)
  | none => done s

/-! ## Flash boot and cast frames (R396, R397) -/

def flashSlotAt (k : Nat) : Nat := 0x2000000 * k

def State.flashByte (s : State) (a : Nat) : Nat := Store.getD s.flash a 0xFF

def State.flashRead (s : State) (a n : Nat) : List Byte := (List.range n).map (fun k => BitVec.ofNat 8 (s.flashByte (a + k)))

/-- The next flash slot is read into the staging region and verified; a slot of no length fit for it is unreadable. -/
def execFlashBootRead (t : Nat) (s : State) : Out3 :=
  doneIf (s.at t) (s.ldState == ldSTAGING && s.bootSrc == 0 && !s.recovery && !s.imaged && s.cfg.job.isNone && s.cfg.flashSlot < 2)
    (fun s =>
      let k := s.cfg.flashSlot
      let a := flashSlotAt k
      let n := ofBytes (s.flashRead (a + 0x10) 8)
      if n = 0 ∨ 2 ^ 25 < n then
        if k = 0 then s.setCfg { s.cfg with flashSlot := 1 } else (s.setCfg { s.cfg with flashSlot := 2 }).bootFail
      else
        let s1 := s.write s.stageBase (s.flashRead a n)
        let j : LoadJob := { src := k, base := s1.stageBase, len := n, kind := s1.imgKind s1.stageBase % 8, takeover := false, hold := false,
                             pcycle := false, recheck := false }
        (s1.setCfg { s1.cfg with job := some j, flashSlot := k + 1 }).setLd ldVERIFY)

/-- A write of CFG.CAST. -/
def State.castCtrl (s : State) (v : Nat) : State :=
  let on := v.testBit 0
  let s1 := s.setFlag CFG.CAST_GO on
  if s1.imaged then
    let s2 := s1.setFlag CFG.CAST_ACTIVE on
    if on then (s2.setCfg { s2.cfg with castOff := 0 }).setRegN CFG.CAST_PROG 0 else s2
  else s1

def execCastSend (v : Word) (t : Nat) (s : State) : Out3 := done ((s.at t).castCtrl v.toNat)

/-- The cast frame of n image bytes at offset o, its fields in network byte order (R12), to destination dst. -/
def State.castFrame (s : State) (dst base len o n : Nat) : List Byte :=
  s.svcHeader dst 0x88B5 ++ toBytesBE 2 3 ++ toBytesBE 4 (s.regN BEL.SCHED_ID) ++ toBytesBE 2 0 ++ toBytesBE 8 o ++ toBytesBE 2 n
    ++ toBytesBE 2 0 ++ toBytesBE 8 len ++ s.read (base + o) n

/-- The next cast frame leaves on both service ports; a round ends with the last of the image. The destination address is not
stated: a free value. -/
def execCastFrameTx (t : Nat) (s : State) : Out3 :=
  let s := s.at t
  match s.cfg.full with
  | some (base, len) =>
    doneIf s (s.flag CFG.CAST_GO && s.imaged && decide (0 < len)) (fun s =>
      let o := s.cfg.castOff
      let n := min 8192 (len - o)
      let (dst, s0) := s.fresh 48
      let f := s0.castFrame dst base len o n
      let s1 := (s0.svcSend 0 f).svcSend 1 f
      if o + n < len then s1.setCfg { s1.cfg with castOff := o + n }
      else (s1.setCfg { s1.cfg with castOff := 0 }).bump CFG.CAST_PROG 1)
  | none => done s

/-- The device boots from the canopy and waits for its image. -/
def State.castWaiting (s : State) : Bool :=
  s.bootSrc == 2 && s.ldState == ldSTAGING && !s.imaged && !s.recovery && s.cfg.job.isNone

/-- The payload of a cast frame is taken: the first fixes SCHED_ID and LENGTH; when every byte is there, verification starts. -/
def State.castTake (s : State) (pl : List Byte) : State :=
  let id := beAt pl 2 4
  let o := beAt pl 8 8
  let n := beAt pl 16 2
  let len := beAt pl 20 8
  let same := match s.cfg.rx with
    | some x => x.sched == id && x.len == len
    | none => !s.cfg.rejected.contains id
  if n % 4 = 0 ∧ 4 ≤ n ∧ n ≤ 8192 ∧ o + n ≤ len ∧ len ≤ 2 ^ 28 ∧ 28 + n ≤ pl.length ∧ same = true then
    let got := addSpan o (o + n - 1) (match s.cfg.rx with | some x => x.got | none => [])
    let sum := (got.map (fun r => r.2 + 1 - r.1)).sum
    let s1 := (s.write (s.stageBase + o) ((pl.drop 28).take n)).setRegN CFG.CAST_PROG sum
    let s2 := (s1.setCfg { s1.cfg with rx := some { sched := id, len := len, got := got } }).setFlag CFG.CAST_ACTIVE true
    if sum < len then s2
    else
      let j : LoadJob := { src := 3, base := s2.stageBase, len := len, kind := s2.imgKind s2.stageBase % 8, takeover := false, hold := false,
                           pcycle := false, recheck := false }
      (((s2.setCfg { s2.cfg with job := some j }).setFlag CFG.CAST_ACTIVE false).raise CFG.STAT_CAST_DONE).setLd ldVERIFY
  else s

/-- A cast frame on a service port: forwarded like any other (R329), and taken by a device that boots from it. -/
def execCastFrameRx (port : Nat) (frame : List Byte) (_room : Bool) (t : Nat) (s : State) : Out3 :=
  doneIf (s.at t) (decide (port < 2) && s.svcUp port && beAt frame 12 2 == 0x88B5 && beAt frame 14 2 == 3) (fun s =>
    let s1 := s.svcForward port frame
    if s1.castWaiting then s1.castTake (frame.drop 14) else s1)

/-! ## The chain (R329) -/

/-- A frame on a service port is stored, checked, and consumed or forwarded by its type. -/
def execSvcFrameRx (port : Nat) (frame : List Byte) (fcsOk room : Bool) (tx t : Nat) (s : State) : Out3 :=
  doneIf (s.at t) (port < 2 && s.svcUp port) (fun s =>
    let s := s.slaveRx port frame fcsOk
    let ty := beAt frame (etherTypeAt frame) 2
    let sub := beAt frame 14 2
    if !fcsOk || 9216 < frame.length + 4 then (s.bump (PTP.SVC_DROP port) 1).raise PTP.STAT_FWD_DROP
    else if beAt frame 12 2 = 0x88B5 ∧ sub = 1 then resultState (execAssignmentFrameRx port frame room s) s
    else if beAt frame 12 2 = 0x88B5 ∧ sub = 2 then resultState (execCrownPartialRx port frame room t s) s
    else if beAt frame 12 2 = 0x88B5 ∧ sub = 3 then resultState (execCastFrameRx port frame room t s) s
    else if ty = 0x8809 ∧ beAt frame (etherTypeAt frame + 2) 1 = 0x0A then s
    else if s.consumesPdelay frame then s
    else if (ptpLoc frame).isSome then s.ptpMessage port frame tx
    else s.svcForward port frame)

end Sys2Proof.Machine
end

