-- ==== Sys2Proof/Machine/Engine.lean ====
section
/-! DEFINITION. The bell engine (R16 to R22, R25): starting, stopping, and following the lead's bell words. -/
namespace Sys2Proof.Machine

def State.setBell (s : State) (b : BellEng) : State := { s with bell := b }

def State.setBellState (s : State) (st : Nat) : State := s.setFld BEL.STATUS_STATE st

/-- 1 ns in 2^−34 ns. -/
def nsFine : Int := 2 ^ 34

/-! ## STOPPED -/

/-- The engine enters STOPPED: the frame's work ends, a solve is abandoned (R216), a change that waits for a bell happens (R401), a
follower forgets its lead (R114). -/
def State.enterStopped (s : State) : State :=
  let s1 := ((s.setBell BellEng.reset).setBellState stSTOPPED).ledgerClose
  let s2 := s1.setCorr { s1.corr with frame := none, filling := none, feed := false, begun := false,
                                      dies := s1.corr.dies.map (fun x => { StallDie.reset with closed := x.closed }) }
  let s3 := { s2 with shed := [], deferred := [] }
  let s4 := (if s3.isLead then s3 else s3.forgetLead).calAbandon
  s4.changeNow

/-- STOPPED is raised with it. -/
def State.bellStopped (s : State) : State := s.enterStopped.raise BEL.STAT_STOPPED

/-! ## RUN (R17, R25, R411) -/

/-- The first bell index at least 100 ms ahead (R17). -/
def State.firstBell (s : State) : Nat :=
  let gap : Int := s.now + 100000000 * ns - s.t0
  if gap ≤ 0 then 0 else ceilDiv gap.toNat (max 1 s.frameLen)

/-- The engine leaves STOPPED: a pending time load is cancelled (R322), the first frame begins a run (R174) and, without
coefficients, is metered (R376). -/
def State.leaveStopped (s : State) : State :=
  let s1 := s.tsetCancel.ledgerStart
  { s1.setCorr { s1.corr with fresh := true, runFlags := 0 } with frameFlags := [], skips := [] }

def State.waitLead (s : State) : State :=
  (s.setBell { BellEng.reset with waitSince := s.up }).setBellState stWAIT_LEAD

def State.startEngine (s : State) : State :=
  let s1 := s.leaveStopped
  if s1.isLead then
    if s1.secondLead then (s1.setBellState stREFUSED).raise BEL.STAT_CONFLICT
    else
      let n := s1.firstBell
      (s1.setBell { BellEng.reset with nextIdx := n, firstIdx := n }).setBellState stRINGING
  else s1.waitLead

/-- RUN goes from 1 to 0 (R25). -/
def State.clearRun (s : State) : State :=
  let s1 := s.setFlag BEL.CTRL_RUN false
  let st := s1.bellState
  if st = stRINGING then (if s1.bell.stopLeft = 0 then s1.setBell { s1.bell with stopLeft := 2 } else s1)
  else if st = stWAIT_LEAD ∨ st = stACQUIRE then s1.bellStopped
  else if st = stALIGNED ∨ st = stFLYWHEEL then
    (if s1.bell.clearCnt.isNone then s1.setBell { s1.bell with clearCnt := some 2 } else s1)
  else s1

/-- A write of BEL.CTRL. DESIGN CHOICE (log entry 57): a write of 1 to RUN while PIT.STATUS.PARKED is 1 starts the engine as it does
on a device that is not parked; the spec gives the park and the join of R132 and R133 and not this case. -/
def State.runWrite (s : State) (v : Nat) : State :=
  if v.testBit 0 then
    if s.recovery then s.raise SEC.STAT_RECOV_REJ
    else if !s.imaged || !s.frameLenOk then s.raise BEL.STAT_RUN_REJ
    else if s.flag BEL.CTRL_RUN then s
    else
      let s1 := (s.setFlag BEL.CTRL_RUN true).bootLock
      if s1.bellState = stSTOPPED then s1.startEngine else s1
  else if s.flag BEL.CTRL_RUN then s.clearRun
  else s

def execBellRunSet (t : Nat) (s : State) : Out3 := done ((s.at t).runWrite 1)

def execBellRunClear (t : Nat) (s : State) : Out3 := done ((s.at t).runWrite 0)

/-- Software has cleared CONFLICT and RUN, and one lead is left. -/
def execRefusedExit (s : State) : Out3 :=
  doneIf s (s.bellState == stREFUSED && !s.flag BEL.STAT_CONFLICT && !s.flag BEL.CTRL_RUN && !s.secondLead) (fun s => s.enterStopped)

/-! ## T0 (R16) -/

/-- A write of T0_NS (0), T0_SEC_LO (1) or T0_SEC_HI (2). -/
def State.t0Write (s : State) (which v : Nat) : State :=
  if !s.isLead || s.flag BEL.CTRL_RUN then s
  else match which with
    | 0 => if 1000000000 ≤ v then s else s.setRegN BEL.T0_NS v
    | 1 => s.setRegN BEL.T0_SEC_LO v
    | 2 => s.setRegN BEL.T0_SEC_HI (v % 65536)
    | _ => s

def execT0Write (which : Nat) (v : Word) (s : State) : Out3 := done (s.t0Write which v.toNat)

/-- The T0 registers are loaded from an adopted bell word. -/
def State.loadT0 (s : State) (w : BellWord) : State :=
  ((s.setRegN BEL.T0_NS (w.t0Ns % 2 ^ 30)).setRegN BEL.T0_SEC_LO (w.t0Sec % 2 ^ 32)).setRegN BEL.T0_SEC_HI (w.t0Sec / 2 ^ 32 % 65536)

/-! ## The port that bell words are taken from (R18, R20, R129) -/

/-- Hops of a pitch to pitch 0, the short way round each dimension. -/
def State.hopsTo0 (s : State) (p : Nat) : Nat :=
  let x := s.coordX p
  let y := s.coordY p
  min x (s.dimX - x) + min y (s.dimY - y)

/-- The first hop of the route to pitch 0, the even-channel way where it depends on parity. -/
def State.parentPort (s : State) : Option Nat :=
  let x := s.coordX s.myPitch
  let y := s.coordY s.myPitch
  if x ≠ 0 then some (if 2 * (s.dimX - x) ≤ s.dimX then 1 else 3)
  else if y ≠ 0 then some (if 2 * (s.dimY - y) ≤ s.dimY then 2 else 0)
  else none

/-- UP, with a neighbour that is the lead or reports ALIGNED, and 16 exchanges since it entered UP. -/
def State.bellSource (s : State) (p : Nat) : Bool :=
  s.portUp p && decide (16 ≤ (s.port p).rtts.length) &&
    (match (s.port p).hello with | some h => h.lead || h.aligned | none => false)

def State.bellPort (s : State) : Option Nat :=
  match s.parentPort with
  | none => none
  | some q =>
    if s.bellSource q then some q
    else
      let l := (List.range 4).filter s.bellSource
      l.foldl (fun (best : Option Nat) p =>
        match best with
        | none => some p
        | some b => if s.hopsTo0 (s.neighbour p) < s.hopsTo0 (s.neighbour b) then some p else some b) none

/-! ## Bell words (R16, R18, R19, R22) -/

def State.stepFine (s : State) : Int := (max 1 (s.fld BEL.LOOP_STEP_NS) : Nat) * nsFine

def State.lostLimit (s : State) : Nat := max 1 (s.fld BEL.LOOP_LOST)

/-- Bell k's own instant as this device now aligns it, in 2^−34 ns: a step that waits for the next bell counts. -/
def State.instantFine (s : State) (k : Nat) : Int :=
  if s.bell.ticking then
    match s.bell.pend with
    | some p => s.localFine (k - ((p.index : Int) - s.bell.nextIdx)) + p.by_
    | none => s.localFine k
  else s.bellAt k * 2 ^ 18

/-- OFFSET in picoseconds, saturating. -/
def State.showOffset (s : State) (off : Int) : State :=
  s.setRegN BEL.OFFSET (ofSigned 32 (clampI (-(2 ^ 31 - 1)) (2 ^ 31 - 1) (roundOpen 18 (off * 1000) nsFine)))

/-- The type-2 loop of R19 about bell k. -/
def State.loopUpdate (s : State) (k : Int) (off : Int) : State :=
  let bw := s.fld BEL.LOOP_BW
  s.setBell { s.bell with baseIdx := k.toNat, baseFine := s.localFine k - roundOpen 19 off (2 ^ bw),
                          freq := s.bell.freq - roundOpen 19 off (2 ^ (2 * bw + 2)) }

/-- WAIT_LEAD: index and T0 are adopted, the phase steps to the word. -/
def State.adoptWord (s : State) (w : BellWord) (inst : Int) : State :=
  let d : Int := s.frameLen * 2 ^ 18
  let k : Int := max 1 (-((inst - s.now * 2 ^ 18) / d))
  ((s.loadT0 w).setBell { BellEng.reset with ticking := true, baseIdx := w.index, baseFine := inst, nextIdx := w.index + k.toNat,
                                             heard := true }).setBellState stACQUIRE

/-- A word whose index matches and whose offset is within the step. -/
def State.matchWord (s : State) (k off : Int) : State :=
  let s1 := s.loopUpdate k off
  let st := s1.bellState
  if st = stACQUIRE then
    if off.natAbs ≤ nsFine.natAbs then
      if s1.bell.acq = 3 then (s1.setBellState stALIGNED).raise BEL.STAT_ALIGNED
      else s1.setBell { s1.bell with acq := s1.bell.acq + 1 }
    else s1.setBell { s1.bell with acq := 0 }
  else if st = stFLYWHEEL then s1.setBellState stALIGNED
  else s1

/-- A word that steps phase, or adopts an index, at the next bell. -/
def State.stepWord (s : State) (w : BellWord) (k off : Int) : State :=
  let s1 := s.setBell { s.bell with acq := 0, pend := some { by_ := -off, index := ((w.index : Int) + (s.bell.nextIdx - k)).toNat, word := w } }
  if s1.bellState = stACQUIRE then s1
  else (s1.setBellState stALIGNED).raise BEL.STAT_BELL_STEP

/-- STOP words: the engine stops once the bell of the second in a row has rung. -/
def State.noteStop (s : State) (w : BellWord) : State :=
  if s.bellState ≠ stALIGNED ∧ s.bellState ≠ stFLYWHEEL then s
  else if w.stop then
    let s1 := s.setBell { s.bell with stopWords := s.bell.stopWords + 1, stopHeard := true }
    if 2 ≤ s1.bell.stopWords ∧ s1.bell.rungs ≠ [] ∧ w.index ≤ s1.bellIndex then s1.bellStopped else s1
  else s.setBell { s.bell with stopWords := 0, stopHeard := false }

/-- A taken word goes on to every other UP port of an aligned device that is not parked. -/
def State.forwardWord (s : State) (port : Nat) (w : BellWord) : State :=
  if (s.bellState = stALIGNED ∨ s.bellState = stFLYWHEEL) ∧ !s.isParked then
    s.each (s.upPorts.filter (· != port)) (fun (s : State) p => s.queueCtl p (.bell w))
  else s

/-- A bell word from port p with arrival time-stamp rx (2^−5 ns). -/
def State.bellWord (s : State) (port : Nat) (w : BellWord) (rx : Nat) : State :=
  let st := s.bellState
  if s.isLead ∨ !(st = stWAIT_LEAD ∨ st = stACQUIRE ∨ st = stALIGNED ∨ st = stFLYWHEEL) ∨ s.bellPort ≠ some port then s
  else if w.dNs * ns + w.dFrac ≠ s.frameLen then s.raise BEL.STAT_FLEN_MISMATCH
  else
    let inst : Int := ((rx : Int) - s.dIn port - w.txoff) * 2 ^ 29
    let s1 := (s.setFld BEL.STATUS_PARENT port).setFld BEL.STATUS_HOPS (1 + s.hopsTo0 (s.neighbour port))
    if st = stWAIT_LEAD then s1.adoptWord w inst
    else
      let d : Int := s1.frameLen * 2 ^ 18 + s1.bell.freq
      let k : Int := s1.bell.baseIdx + (inst - s1.bell.baseFine + d / 2) / d
      let off := s1.localFine k - inst
      let s2 := (s1.setBell { s1.bell with heard := true, miss := 0 }).showOffset off
      let s3 := if (w.index : Int) = k ∧ off.natAbs ≤ s2.stepFine.natAbs then s2.matchWord k off else s2.stepWord w k off
      (s3.forwardWord port w).noteStop w

/-- A bell passed without a bell word (R20, R22). -/
def execBellWordMissing (s : State) : Out3 :=
  doneIf s (!s.bell.heard && (s.bellState == stACQUIRE || s.bellState == stALIGNED || s.bellState == stFLYWHEEL)) (fun s =>
    let s1 := s.setBell { s.bell with heard := true, miss := s.bell.miss + 1 }
    if s1.bellState = stACQUIRE ∧ s1.lostLimit ≤ s1.bell.miss then s1.waitLead else s1)

def execBellLost (t : Nat) (s : State) : Out3 :=
  doneIf (s.at t) (s.bellState == stALIGNED && decide (s.lostLimit ≤ s.bell.miss)) (fun s =>
    (s.setBellState stFLYWHEEL).raise BEL.STAT_BELL_LOST)

/-- No bell word in WAIT_LEAD for 2 s or 3 × D. -/
def execNoLead (t : Nat) (s : State) : Out3 :=
  let s := s.at t
  doneIf s (s.bellState == stWAIT_LEAD && !s.bell.noLeadRaised
      && decide (s.bell.waitSince + max (2000000000 * ns) (3 * s.frameLen) ≤ s.up)) (fun s =>
    (s.setBell { s.bell with noLeadRaised := true }).raise BEL.STAT_NO_LEAD)

end Sys2Proof.Machine
end

