-- ==== Sys2Proof/Machine/Canopy.lean ====
section
/-! DEFINITION. The canopy's commands (R114 to R133): port power and bring-up, the link's numbering and replay, routing and
credits, probes, broadcasts, parking and rejoining. -/
namespace Sys2Proof.Machine

def State.setCan (s : State) (c : Canopy) : State := { s with can := c }

/-- A time-stamp of station time, in 2^−5 ns (R117). -/
def State.stampNow (s : State) : Int := roundOpen 117 s.heldNow 2048

/-! ## Port power and enable (R116, R122) -/

/-- A write of CAN.PORTp_CTRL: lowering the power of an enabled port is refused, code 0b11 is discarded. -/
def State.portCtrl (s : State) (p v : Nat) : State :=
  let old := s.regN (CAN.PORT_CTRL p)
  let en := s.flag (CAN.PORT_CTRL_EN p)
  let refused := en && decide (old % 4 < v % 4) && v % 4 != 3
  let pwr := if v % 4 = 3 ∨ refused then old % 4 else v % 4
  let s1 := s.raiseIf refused CAN.STAT_REFUSED
  let s2 := s1.setRegN (CAN.PORT_CTRL p) (v % 256 / 4 * 4 + pwr)
  let s3 := if v.testBit 7 ∨ s2.portState p = 0 then s2 else (s2.clearLink p).portTo p 0
  (s3.portPower p).portStart p

def execCanPortPowerWrite (port : Nat) (v : Word) (s : State) : Out3 := done (s.portCtrl (port % 4) v.toNat)

def execPortEnable (port : Nat) (s : State) : Out3 :=
  done (s.portCtrl (port % 4) (setBit (s.regN (CAN.PORT_CTRL (port % 4))) 7 true))

def execPortDisable (port : Nat) (s : State) : Out3 :=
  done (s.portCtrl (port % 4) (setBit (s.regN (CAN.PORT_CTRL (port % 4))) 7 false))

/-- All 32 lanes LOCKED and deskewed (R116, R122). -/
def execPortTrained (port t : Nat) (s : State) : Out3 :=
  let p := port % 4
  let s := s.at t
  doneIf s (s.portState p == 1 && s.domOn 10 && s.portAligned p) (fun s =>
    let s1 := s.portTo p 2
    let s2 := s1.setPort p { s1.port p with helloAt := s1.up }
    s2.sendHelloNow p)

/-- The HELLO of every 1 ms (R122): numbered in UP, with SEQ 0 and not held before it. -/
def execHelloTx (port : Nat) (s : State) : Out3 :=
  let p := port % 4
  doneIf s (s.portLive p) (fun s =>
    if s.portUp p then s.queueCtl p (.hello (s.helloOf p)) else s.sendHelloNow p)

/-- A lane leaves LOCKED (R122): those from lane `lanes` on, the last one at the least. -/
def execPortDown (port lanes : Nat) (s : State) : Out3 :=
  let p := port % 4
  doneIf s (s.portLive p) (fun s => (s.mapLanes p (fun k l => if min lanes 31 ≤ k then l.unlock else l)).portFail p)

/-- 5 ms without a HELLO (R122). -/
def execHelloTimeout (port t : Nat) (s : State) : Out3 :=
  let p := port % 4
  let s := s.at t
  doneIf s (s.portLive p && decide ((s.port p).helloAt + 5000000 * ns ≤ s.up)) (fun s => s.portFail p)

/-! ## Numbering, acknowledgement and replay (R120) -/

/-- `ack` acknowledges sequence number q. -/
def acked (ack q : Nat) : Bool := decide ((ack + 65536 - q % 65536) % 65536 < 32768)

/-- A replay round: every held packet is resent, at most 16 rounds in a row. -/
def State.replayRound (s : State) (p : Nat) : State :=
  let c := s.port p
  if c.held = [] then s
  else if 16 ≤ c.rounds then s.portFail p
  else s.setPort p { c with replay := c.held, rounds := c.rounds + 1, progressAt := s.up }

/-- ACK and NAK of a trailer. -/
def State.takeAck (s : State) (p : Nat) (tr : Trailer) : State :=
  let c := s.port p
  let n := (c.held.takeWhile (fun h => acked tr.ack h.1.seq)).length
  let c1 := if n = 0 then c
    else { c with held := c.held.drop n, replay := c.replay.filter (fun h => !acked tr.ack h.1.seq), rounds := 0,
                  progressAt := s.up }
  (s.setPort p c1).when tr.nak (fun s => s.replayRound p)

/-- The credits of a trailer (R126). -/
def State.takeCredits (s : State) (p : Nat) (tr : Trailer) : State :=
  (tr.cred.take 3).foldl (fun (s : State) (vc : Nat × Nat) =>
    let c := s.port p
    s.setPort p { c with credUsed := Store.set 0 c.credUsed vc.1 (Store.getD c.credUsed vc.1 0 - vc.2) }) s

/-- The first CRC failure or gap for an expected SEQ asks for replay once. -/
def State.linkNak (s : State) (p : Nat) : State :=
  let c := s.port p
  if c.nakSent then s else s.setPort p { c with nakSent := true, nakOwed := true }

/-- A packet whose CRC fails. -/
def State.crcFailed (s : State) (p : Nat) : State :=
  let s1 := s.bump (CAN.PORT_CRCERR p) 1
  if s1.portUp p then s1.linkNak p else s1

/-- The receiver of a port in UP: the packet counts only where the answer is true. -/
def State.linkAccept (s : State) (p : Nat) (k : Packet) (tr : Trailer) (crcOk : Bool) : State × Bool :=
  if !s.portLive p then (s, false)
  else if !crcOk then (s.crcFailed p, false)
  else if !s.portUp p then (s, false)
  else
    let c := s.port p
    if k.seq = c.rxSeq then
      let c1 := { c with rxSeq := (c.rxSeq + 1) % 65536, nakSent := false, ackOwed := true }
      let s1 := ((s.setPort p c1).takeCredits p tr).takeAck p tr
      (s1, s1.portUp p)
    else if (k.seq + 65536 - c.rxSeq) % 65536 < 32768 then (s.linkNak p, false)
    else (s, false)

/-- The meaning of a packet that arrives on a port in UP: `f` is its effect once accepted. -/
def State.linkRx (s : State) (p : Nat) (k : Packet) (tr : Trailer) (crcOk : Bool) (f : State → State) : State :=
  let (s1, ok) := s.linkAccept p k tr crcOk
  if ok then f s1 else s1

/-- A CREDIT packet (R120): one without credits carries only ACK and NAK, whatever its SEQ. -/
def execCreditPacketRx (port : Nat) (p : Packet) (tr : Trailer) (crcOk : Bool) (t : Nat) (s : State) : Out3 :=
  let q := port % 4
  let s := s.at t
  if tr.cred = [] ∧ crcOk then doneIf s (s.portUp q) (fun s => s.takeAck q tr)
  else done (s.linkRx q p tr crcOk id)

/-- A packet of a KIND that R118 does not name: acknowledged, its credits applied, discarded. -/
def execUnknownKindPacketRx (port : Nat) (p : Packet) (tr : Trailer) (crcOk : Bool) (t : Nat) (s : State) : Out3 :=
  done ((s.at t).linkRx (port % 4) p tr crcOk id)

/-- ACK makes no progress for 4 µs. -/
def execReplayTimeout (port t : Nat) (s : State) : Out3 :=
  let p := port % 4
  let s := s.at t
  doneIf s (s.portUp p && (s.port p).held != [] && decide ((s.port p).progressAt + 4000 * ns ≤ s.up)) (fun s => s.replayRound p)

/-- 16 rounds without progress: the port goes to TRAIN (R122). -/
def execReplayLimit (port : Nat) (s : State) : Out3 :=
  let p := port % 4
  doneIf s (s.portUp p && decide (16 ≤ (s.port p).rounds) && (s.port p).held != [] && (s.port p).replay == []) (fun s => s.portFail p)

/-! ## HELLO (R114, R115, R122) -/

/-- R122's checks of a HELLO on port p. -/
def State.helloOk (s : State) (p : Nat) (h : Hello) : Bool :=
  h.pitched && s.hasPitch && decide (s.myPitch < s.canopySize) && h.pitch == s.neighbour p && h.port == (p + 2) % 4
    && h.topo == s.topo && h.xm1 == s.fld CAN.SHAPE_XM1 && h.ym1 == s.fld CAN.SHAPE_YM1 && h.schedId == s.regN BEL.SCHED_ID

/-- The port enters UP: SEQ 0, full credits, no exchanges (R122, R126, R129). -/
def State.portToUp (s : State) (p : Nat) : State :=
  let c := s.port p
  let s1 := s.setPort p { CanPort.reset with hello := c.hello, helloAt := c.helloAt, rr := c.rr, credMax := s.fld CAN.CRED_COUNT }
  let s2 := (s1.setRegN (CAN.PORT_RTT p) 0).setRegN (CAN.PORT_DIN p) 0
  (s2.portTo p 3).raise CAN.STAT_PORT_UP

/-- The port enters MISMATCH: what it holds is discarded. -/
def State.portMismatch (s : State) (p : Nat) : State :=
  let c := s.port p
  let s1 := s.setPort p { CanPort.reset with hello := c.hello, helloAt := c.helloAt, rr := c.rr }
  (s1.portTo p 4).raise CAN.STAT_MISMATCH

/-- What a HELLO says of the lead (R114, R115). -/
def State.leadNews (s : State) (p : Nat) (h : Hello) : State :=
  if s.isLead then
    if h.conflict ∨ (h.leadSerial ≠ 0 ∧ h.leadSerial ≠ s.serial) then
      let s1 := s.raise CAN.STAT_CANOPY_CONFLICT
      if s1.bellState = stRINGING ∧ s1.flag BEL.CTRL_RUN then s1.clearRun else s1
    else s
  else if h.leadSerial = 0 then s
  else if s.can.leadSerial = 0 then
    (if s.portUp p then s.setCan { s.can with leadSerial := h.leadSerial } else s)
  else if s.can.leadSerial = h.leadSerial then s
  else s.setCan { s.can with conflict := true }

/-- A HELLO taken on port p. -/
def State.takeHello (s : State) (p : Nat) (h : Hello) : State :=
  let s1 := s.setPort p { s.port p with hello := some h, helloAt := s.up }
  let s2 := ((s1.setFld (CAN.PORT_STATUS_NBR p) h.pitch).setFlag (CAN.PORT_STATUS_NBR_ALIGNED p) h.aligned).setFlag
    (CAN.PORT_STATUS_NBR_PARKED p) h.parked
  let ok := s2.helloOk p h
  let st := s2.portState p
  let s3 := if ok then (if st = 2 ∨ st = 4 then s2.portToUp p else s2)
    else (if st = 2 ∨ st = 3 then s2.portMismatch p else s2)
  s3.leadNews p h

def execHelloRx (port : Nat) (p : Packet) (tr : Trailer) (crcOk : Bool) (t : Nat) (s : State) : Out3 :=
  let q := port % 4
  let s := s.at t
  match p.body with
  | .hello h =>
    if s.portUp q then done (s.linkRx q p tr crcOk (fun s => s.takeHello q h))
    else if s.portLive q then done (if crcOk then s.takeHello q h else s.crcFailed q)
    else done s
  | _ => done s

/-! ## DATA (R125, R126, R128, R132) -/

/-- This device is parked for frame f: parked now, or not yet back by f. -/
def State.ownParked (s : State) (f : Nat) : Bool := s.isParked || (s.hasPitch && s.parkedFor s.myPitch f)

/-- A DATA packet accepted on port p. -/
def State.takeData (s : State) (p : Nat) (k : Packet) : State :=
  let back (s : State) : State := s.returnCredit (s.voqOf k) (some p)
  match s.routePort k with
  | none =>
    if s.ownParked (s.frameOf k) then back ((s.bump CAN.PARK_CNT 1).raise CAN.STAT_PARK_DROP)
    else s.enqueue k (some p)
  | some q =>
    if s.portUp q then s.enqueue k (some p)
    else back ((s.bump CAN.ROUTE_CNT 1).raise CAN.STAT_ROUTE_DROP)

def execDataPacketRx (port : Nat) (p : Packet) (tr : Trailer) (crcOk : Bool) (t : Nat) (s : State) : Out3 :=
  let q := port % 4
  match p.body with
  | .data _ => done ((s.at t).linkRx q p tr crcOk (fun s => s.takeData q p))
  | _ => done (s.at t)

/-- No DATA of this device goes to a pitch that is parked, from the receipt of its last PARK to the frames of a JOIN after it (R132,
R133). -/
def State.destParked (s : State) (dest f : Nat) : Bool :=
  match s.can.parked.find? (fun q => q.1 == dest) with
  | some q => !(s.can.joining.any (fun j => j.1 == dest && q.2 ≤ j.2 && j.2 ≤ f))
  | none => false

/-- The queue's head may leave on port p but for credit. -/
def State.headFor (s : State) (p : Nat) (h : VPkt) : Bool :=
  s.headPort h == some p && !(h.from?.isNone && s.destParked h.pkt.dest (s.frameOf h.pkt))

/-- Queues that may send on port p now: (VOQ, frame of the head). -/
def State.readyVoqs (s : State) (p : Nat) : List (Nat × Nat) :=
  s.can.voqs.filterMap (fun (v, l) =>
    match l with
    | h :: _ => if s.headFor p h ∧ 0 < s.credits p v then some (v, s.frameOf h.pkt) else none
    | [] => none)

/-- The lowest frame first, ties round-robin by VOQ number after the last one served (R126). -/
def pickVoq (rr : Nat) (l : List (Nat × Nat)) : Option Nat :=
  let f := l.foldl (fun (m : Option Nat) q => match m with | none => some q.2 | some x => some (min x q.2)) none
  let c := (l.filter (fun q => some q.2 == f)).map (·.1)
  match c.find? (fun v => decide (rr < v)) with
  | some v => some v
  | none => c.head?

/-- A packet other than an acknowledgement is due on port p (R120, R121): its trailer takes the ACK. -/
def State.sendDue (s : State) (p : Nat) : Bool :=
  let c := s.port p
  c.replay != [] || (decide (c.held.length < 128) && (c.ctl != [] || c.credOwed != [] || s.readyVoqs p != []))

/-- An acknowledgement-only packet, where no other packet is due (R120): not numbered, the next SEQ to be used, no credits. -/
def execAckTx (port : Nat) (s : State) : Out3 :=
  let p := port % 4
  doneIf s (s.portUp p && ((s.port p).ackOwed || (s.port p).nakOwed) && !s.sendDue p) (fun s =>
    let c := s.port p
    (s.setPort p { c with ackOwed := false, nakOwed := false }).emit
      (.canopy p { body := .credit, src := s.myPitch, seq := c.txSeq } { c.trailer with cred := [] }))

/-- The head of queue v leaves on port p. -/
def State.sendData (s : State) (p v : Nat) : State :=
  match s.voq v with
  | [] => s
  | h :: l =>
    let k := if h.from?.isNone then s.ownDirs h.pkt else h.pkt
    let l1 := match l with | n :: r => { n with since := s.up } :: r | [] => []
    let s1 := (s.setVoq v l1).returnCredit v h.from?
    let c := s1.port p
    let s2 := s1.setPort p { c with credUsed := Store.put c.credUsed v (Store.getD c.credUsed v 0 + 1), rr := v }
    s2.sendNumbered p k

/-- The order of R121 among control packets. -/
def bodyOrder : Body → Nat
  | .bell _ => 0
  | .cast _ => 1
  | .probe _ => 2
  | .probeReply _ _ _ => 3
  | .hello _ => 4
  | _ => 5

/-- What is stamped as the header leaves (R117, R129, R130). -/
def State.stampBody (s : State) (b : Body) : Body :=
  match b with
  | .bell w => .bell { w with txoff := roundOpen 130 (s.stampNow * 2 ^ 29 - s.instantFine w.index) (2 ^ 29) }
  | .probe _ => .probe s.stampNow.toNat
  | .probeReply a c _ => .probeReply a c s.stampNow.toNat
  | b => b

/-- The first control packet in R121's order, by its place in the queue. -/
def firstCtl (l : List Packet) : Option Nat :=
  (l.zipIdx.foldl (fun (b : Option (Nat × Nat)) (q : Packet × Nat) =>
    let o := bodyOrder q.1.body
    match b with
    | none => some (o, q.2)
    | some x => if o < x.1 then some (o, q.2) else b) none).map (·.2)

/-- Port p sends its next packet (R121): a replay, a control packet, DATA, or the credits it owes where nothing else is due. -/
def State.transmit (s : State) (p : Nat) : State :=
  let c := s.port p
  match c.replay with
  | (k, tr) :: l =>
    (((s.setPort p { c with replay := l }).bump (CAN.PORT_REPLAY p) 1).raise CAN.STAT_REPLAY).emit (.canopy p k tr)
  | [] =>
    if 128 ≤ c.held.length then s
    else match firstCtl c.ctl with
      | some i =>
        let s1 := s.setPort p { c with ctl := c.ctl.eraseIdx i }
        (match c.ctl[i]? with
          | some k => s1.sendNumbered p { k with body := s.stampBody k.body }
          | none => s1)
      | none =>
        match pickVoq c.rr (s.readyVoqs p) with
        | some v => s.sendData p v
        | none => if c.credOwed = [] then s else s.sendNumbered p { body := .credit, src := s.myPitch }

def execPortTransmit (port t : Nat) (s : State) : Out3 :=
  let p := port % 4
  let s := s.at t
  doneIf s (s.portUp p && s.works 1 26) (fun s => s.transmit p)

/-- A queue has waited for a credit for more than CAN.STARVE (R128), counted once for each wait. -/
def execVoqStarve (port voq t : Nat) (s : State) : Out3 :=
  let p := port % 4
  let s := s.at t
  match s.voq voq with
  | h :: l =>
    doneIf s (s.portUp p && s.headFor p h && s.credits p voq == 0 && !h.starved
        && decide (h.since + 1000 * max 1 (s.fld CAN.STARVE_US) * ns < s.up)) (fun s =>
      ((s.setVoq voq ({ h with starved := true } :: l)).bump CAN.STARVE_CNT 1).raise CAN.STAT_STARVE)
  | [] => done s

/-! ## Probes (R129) -/

def execProbeTx (port t : Nat) (s : State) : Out3 :=
  let p := port % 4
  let s := s.at t
  doneIf s (s.portUp p) (fun s => s.queueCtl p (.probe 0))

def execProbeRx (port : Nat) (p : Packet) (tr : Trailer) (crcOk : Bool) (rx t : Nat) (s : State) : Out3 :=
  let q := port % 4
  match p.body with
  | .probe t1 => done ((s.at t).linkRx q p tr crcOk (fun s => s.queueCtl q (.probeReply t1 rx 0)))
  | _ => done (s.at t)

/-- PORTp_RTT and PORTp_DIN from the last 16 exchanges. -/
def State.showDelay (s : State) (p : Nat) : State :=
  (s.setRegN (CAN.PORT_RTT p) ((s.port p).meanRtt.toNat)).setRegN (CAN.PORT_DIN p) ((s.dIn p).toNat)

/-- One exchange: RTT = (T4 − T1) − (T3 − T2). -/
def State.takeExchange (s : State) (p t1 t2 t3 t4 : Nat) : State :=
  let rtt : Int := ((t4 : Int) - t1) - ((t3 : Int) - t2)
  let c := s.port p
  (s.setPort p { c with rtts := (rtt :: c.rtts).take 16 }).showDelay p

def execProbeReplyRx (port : Nat) (p : Packet) (tr : Trailer) (crcOk : Bool) (rx t : Nat) (s : State) : Out3 :=
  let q := port % 4
  match p.body with
  | .probeReply t1 t2 t3 => done ((s.at t).linkRx q p tr crcOk (fun s => s.takeExchange q t1 t2 t3 rx))
  | _ => done (s.at t)

/-! ## Bell words (R18, R22) -/

def execBellWordRx (port : Nat) (p : Packet) (tr : Trailer) (crcOk : Bool) (rx t : Nat) (s : State) : Out3 :=
  let q := port % 4
  match p.body with
  | .bell w => done ((s.at t).linkRx q p tr crcOk (fun s => s.bellWord q w rx))
  | _ => done (s.at t)

/-! ## Broadcasts (R131, R148) -/

/-- A CAST taken on port p: one seen in the last second is discarded, a new one is forwarded on every other UP port. -/
def State.takeCast (s : State) (p : Nat) (c : Cast) (f : State → State) : State :=
  let live := s.can.castsSeen.filter (fun q => decide (s.up ≤ q.2.2 + 1000000000 * ns))
  if live.any (fun q => q.1 == c.origin && q.2.1 == c.cseq) then s.setCan { s.can with castsSeen := live }
  else
    let s1 := (s.setCan { s.can with castsSeen := (c.origin, c.cseq, s.up) :: live }).raise CAN.STAT_CAST_RX
    f (s1.each (s1.upPorts.filter (· != p)) (fun (s : State) q => s.queueCtl q (.cast c)))

def execCaptureCastRx (port : Nat) (p : Packet) (tr : Trailer) (crcOk : Bool) (t : Nat) (s : State) : Out3 :=
  let q := port % 4
  match p.body with
  | .cast c =>
    if c.ckind = 1 then
      done ((s.at t).linkRx q p tr crcOk (fun s => s.takeCast q c (fun s =>
        if s.flag RRG.CTRL_CAST_EN ∧ (s.fld RRG.TRIG_EN).testBit 4 ∧ !s.isParked then
          { s with trigQ := s.trigQ ++ [{ source := 4, tag := c.tag, bell := c.bell, pre := c.pre, post := c.post, origin := c.origin }] }
        else s)))
    else done (s.at t)
  | _ => done (s.at t)

/-- The last four entries of a pitch are kept, the newest in front. -/
def newest4 (pitch k : Nat) (l : List (Nat × Nat)) : List (Nat × Nat) :=
  (pitch, k) :: (l.filter (fun q => q.1 == pitch)).take 3 ++ l.filter (fun q => q.1 != pitch)

/-- The pitch of a JOIN is served again for frames J onwards (R133). -/
def State.noteJoin (s : State) (pitch j : Nat) : State := s.setCan { s.can with joining := newest4 pitch j s.can.joining }

/-- The open frames of the ring. -/
def State.openFrames (s : State) : List Nat := s.ringSlots.filterMap (fun q => if q.1.isOpen then q.1.frame else none)

/-- The pitch of a PARK is parked from frame P on, or, with P = 0, for every frame not yet closed (R132): joins from there on are off, and
open slots of those frames read flag codes for its inputs. -/
def State.notePark (s : State) (pitch p : Nat) : State :=
  let from_ := if p = 0 then (match s.openFrames with | f :: l => l.foldl min f | [] => 0) else p
  let s1 := s.setCan { s.can with parked := newest4 pitch from_ s.can.parked,
                                  joining := s.can.joining.filter (fun q => q.1 != pitch || decide (q.2 < from_)) }
  s1.setRing { s1.ring with slots := s1.ring.slots.map (fun r =>
    if r.isOpen && (p == 0 || r.frame.any (fun f => decide (p ≤ f))) then { r with parked := pitch :: r.parked } else r) }

def execJoinCastRx (port : Nat) (p : Packet) (tr : Trailer) (crcOk : Bool) (t : Nat) (s : State) : Out3 :=
  let q := port % 4
  match p.body with
  | .cast c =>
    if c.ckind = 2 then done ((s.at t).linkRx q p tr crcOk (fun s => s.takeCast q c (fun s => s.noteJoin c.origin c.bell)))
    else done (s.at t)
  | _ => done (s.at t)

def execParkCastRx (port : Nat) (p : Packet) (tr : Trailer) (crcOk : Bool) (t : Nat) (s : State) : Out3 :=
  let q := port % 4
  match p.body with
  | .cast c =>
    if c.ckind = 3 then done ((s.at t).linkRx q p tr crcOk (fun s => s.takeCast q c (fun s => s.notePark c.origin c.bell)))
    else done (s.at t)
  | _ => done (s.at t)

/-! ## Parking and rejoining (R132, R133) -/

/-- The park takes effect for frames from `first` on: the bell engine is STOPPED, RUN is cleared, PARKED follows PARK. -/
def State.parkNow (s : State) (first : Nat) : State :=
  let lo := max s.bell.firstIdx (s.can.joinAt.getD 0)
  let tail := if s.isRinging then some (lo, first) else none
  let s1 := s.setFlag BEL.CTRL_RUN false
  let s2 := if s1.bellState = stSTOPPED then s1 else s1.enterStopped
  let s3 := (s2.setFlag PIT.STATUS_PARKED (s2.flag PIT.CTRL_PARK)).raise PIT.STAT_PARKED
  let s4 := if s3.hasPitch then s3.notePark s3.myPitch first else s3
  s4.setCan { s4.can with parkAt := none, parkSent := false, rejoin := true, joinAt := none, tail := tail }

/-- PARK is set: while ringing, P is the first bell dN + N + 2 whose bell P − 2 has still to ring; else the park is at once. -/
def State.parkSet (s : State) : State :=
  if s.isParked ∨ s.can.parkAt.isSome then s
  else if s.isRinging then
    let n := s.dumpN
    s.setCan { s.can with parkAt := some (n * max 1 (ceilDiv s.bell.nextIdx n) + 2), parkSent := false }
  else (s.parkNow 0).sendCast { ckind := 3, origin := 0, cseq := 0, bell := 0, source := 0, pre := 0, post := 0, tag := 0 }

/-- PARK is cleared: a park that was not broadcast is off. -/
def State.parkClear (s : State) : State :=
  let s1 := s.setFlag PIT.STATUS_PARKED false
  if s1.can.parkSent then s1 else s1.setCan { s1.can with parkAt := none }

/-- A write of PIT.CTRL. -/
def State.pitCtrl (s : State) (v : Nat) : State :=
  let was := s.flag PIT.CTRL_PARK
  let s1 := s.setFlag PIT.CTRL_PARK (v.testBit 0)
  let s2 := if v.testBit 0 then (if was then s1 else s1.parkSet) else (if was then s1.parkClear else s1)
  if v.testBit 1 then s2.pitchRecall else s2

def execParkSet (t : Nat) (s : State) : Out3 := done ((s.at t).pitCtrl 1)

def execParkClear (t : Nat) (s : State) : Out3 := done ((s.at t).pitCtrl 0)

/-- Parking at a bell that rings with index k (R132): PARK goes out at P − 2, the park takes effect at P. -/
def State.parkBell (s : State) (k : Nat) : State :=
  match s.can.parkAt with
  | none => s
  | some p =>
    let s1 := if !s.can.parkSent ∧ p ≤ k + 2 then
        (s.setCan { s.can with parkSent := true }).sendCast
          { ckind := 3, origin := 0, cseq := 0, bell := p, source := 0, pre := 0, post := 0, tag := 0 }
      else s
    if p ≤ k then s1.parkNow p else s1

/-- Rejoining at a bell that rings with index k (R133): JOIN goes out at the first one, JOINED comes at J. -/
def State.joinBell (s : State) (k : Nat) : State :=
  let n := s.dumpN
  let s1 := if s.can.rejoin then
      let j := n * ceilDiv (k + 2) n
      let s2 := (s.setCan { s.can with rejoin := false, joinAt := some j, tail := none }).setPair PIT.JOIN_LO PIT.JOIN_HI j
      (if s2.hasPitch then s2.noteJoin s2.myPitch j else s2).sendCast
        { ckind := 2, origin := 0, cseq := 0, bell := j, source := 0, pre := 0, post := 0, tag := 0 }
    else s
  match s1.can.joinAt with
  | some j => if j ≤ k ∧ s1.bellIndex = k ∧ (s1.bell.rungs.drop 1).all (fun q => q.1 < j) then s1.raise PIT.STAT_JOINED else s1
  | none => s1

end Sys2Proof.Machine
end

