-- ==== Sys2Proof/Machine/Security.lean ====
section
/-! DEFINITION. The security processor (R408 to R421): the key store and its helper slots, provisioning, attestation and signing,
the violation sensors, erasure and LOCKOUT. Keys, signatures and wrapping are opaque (log entry 9). -/
namespace Sys2Proof.Machine

def State.setSec (s : State) (x : SecEng) : State := { s with sec := x }

/-- Device states (SEC.STATUS.STATE). -/
def scBLANK : Nat := 0
def scPROVISIONING : Nat := 1
def scPROVISIONED : Nat := 2
def scLOCKOUT : Nat := 3
def scERASED : Nat := 4
def scKEYFAULT : Nat := 5

/-- The device state, with recovery as R411 defines it. -/
def State.setSecState (s : State) (st : Nat) : State :=
  (s.setFld SEC.STATUS_STATE st).setFlag SEC.STATUS_RECOVERY (s.bootSrc == 3 || st == scERASED || st == scKEYFAULT)

/-- Programmed helper slots. -/
def State.helperSlots (s : State) : Nat := s.otp.helpers.length

/-- SEC.STATUS as it reads. -/
def State.secStatus (s : State) : Nat :=
  s.regN SEC.STATUS % 16 + 16 * (s.helperSlots % 16) + 256 * ((s.otp.helpers.filter (·.killed)).length % 16)
    + 4096 * ((List.range 16).map (fun k => boolNat (Store.has s.sec.keys.keys k) * 2 ^ k)).sum
    + 2 ^ 28 * boolNat s.sec.keys.root.isSome + 2 ^ 29 * boolNat s.sec.signing.isSome

/-! ## Memory at BUF and RPT -/

def State.bufAddr (s : State) : Nat := s.regN SEC.BUF_LO + s.fld SEC.BUF_HI_ADDR * 2 ^ 32
def State.rptAddr (s : State) : Nat := s.regN SEC.RPT_LO + s.fld SEC.RPT_HI_ADDR * 2 ^ 32

/-! ## The key blob (R409, R410, R414) -/

def blobBase : Nat := 0x4000000

/-- The blob's size, at most 64 KiB. -/
def blobLen : Nat := 1 + Config.cryptoByte 8 [] 0 % 65536

def keyStoreNats (k : KeyStore) : List Nat :=
  bytesNat k.seed ++ bytesNat (k.root.getD []) ++ k.keys.flatMap (fun p => p.1 :: bytesNat p.2) ++ bytesNat k.cert

/-- n bytes that unit u of the crypto hardware gives for an input. -/
def cryptoBytes (u n : Nat) (input : List Nat) : List Byte := (List.range n).map (fun i => BitVec.ofNat 8 (Config.cryptoByte u input i))

/-- The key store wrapped under the key of helper slot n. -/
def State.wrapKeys (s : State) (n : Nat) : List Byte := cryptoBytes 7 blobLen (s.serial :: n :: keyStoreNats s.sec.keys)

/-- Bytes stored in the flash. -/
def State.flashStore (s : State) (a : Nat) (l : List Byte) : State :=
  { s with flash := (l.zipIdx).foldl (fun f p => Store.set 0xFF f (a + p.2) p.1.toNat) s.flash }

/-- The device state at a power-up (R410, R411). A wake keeps the key store and reads no flash. -/
def State.secBoot (s : State) (waking : Bool) : State :=
  let none_ (s : State) (st : Nat) : State := ((s.setSec { s.sec with keys := KeyStore.empty, slot := none }).setSecState st)
  match s.otp.helpers.getLast? with
  | none => none_ s scBLANK
  | some h =>
    let n := s.helperSlots - 1
    if h.killed then none_ s scERASED
    else if s.bootSrc = 3 then none_ s scPROVISIONED
    else if waking then
      (if s.sec.slot = some n ∧ s.sec.keys = h.keys then s.setSecState scPROVISIONED else none_ s scKEYFAULT)
    else if s.flashRead blobBase h.blob.length = h.blob then
      (s.setSec { s.sec with keys := h.keys, slot := some n }).setSecState scPROVISIONED
    else none_ s scKEYFAULT

/-! ## Signing (R417) -/

/-- The identity key is usable for signatures. -/
def State.canSign (s : State) : Bool := s.secState == scPROVISIONED && !s.recovery && s.sec.keys.seed != []

/-- The idle signer takes the next manifest, then a waiting attestation. -/
def State.nextSign (s : State) : State :=
  match s.sec.signing with
  | some _ => s
  | none =>
    match s.sec.manifests with
    | q :: l => s.setSec { s.sec with signing := some (.manifest q), manifests := l }
    | [] => if s.sec.attWait then s.setSec { s.sec with signing := some .attest, attWait := false } else s

/-- A manifest whose body has gone waits for its signature. -/
def State.askSign (s : State) (q : Nat) : State := (s.setSec { s.sec with manifests := s.sec.manifests ++ [q] }).nextSign

/-- The hedged ML-DSA-65 signature over a message. -/
def State.sign (s : State) (msg : List Byte) : List Byte × State :=
  (cryptoBytes 5 3309 (Config.freeNat s.free :: bytesNat s.sec.keys.seed ++ bytesNat msg), { s with free := s.free + 1 })

/-! ## Commands (R414 to R418) -/

def State.cmdResult (s : State) (result reason code : Nat) : State :=
  s.setRegN SEC.CMD_RES (result + 4 * (reason % 16) + 64 * (code % 16))

/-- A refused command changes nothing else: 1 STATE, 2 EXHAUSTED, 3 FLASH, 4 ARG, 5 BUSY. -/
def State.cmdRefuse (s : State) (code reason : Nat) : State := (s.cmdResult 2 reason code).raise SEC.STAT_CMD_REF

def State.cmdDone (s : State) (code : Nat) : State := (s.cmdResult 1 0 code).raise SEC.STAT_CMD_DONE

/-- PROVISION: an identity seed from the random source, the public key at BUF. -/
def State.cmdProvision (s : State) : State :=
  if !(s.secState = scBLANK ∨ s.secState = scERASED) ∨ s.bellState ≠ stSTOPPED then s.cmdRefuse 1 1
  else if 8 ≤ s.helperSlots then s.cmdRefuse 1 2
  else
    let (v, s1) := s.fresh 256
    let seed := toBytes 32 v
    let s2 := (s1.setSec { s1.sec with keys := { KeyStore.empty with seed := seed } }).setSecState scPROVISIONING
    (s2.ownWrite 8 s2.bufAddr (cryptoBytes 6 1952 (bytesNat seed))).cmdDone 1

/-- Command `code` takes n bytes at BUF; where that read gets an error response it is refused, for a reason that is a free value (log
entry 5). -/
def State.withBuf (s : State) (code n : Nat) (f : State → List Byte → State) : State :=
  match s.ownRead 8 s.bufAddr n with
  | (some l, s1) => (f s1 l).cmdDone code
  | (none, s1) => (s1.fresh 4).2.cmdRefuse code (s1.fresh 4).1

def State.cmdSetRoot (s : State) : State :=
  if s.secState ≠ scPROVISIONING then s.cmdRefuse 2 1
  else s.withBuf 2 1952 (fun s l => s.setSec { s.sec with keys := { s.sec.keys with root := some l } })

def State.cmdSetKey (s : State) (slot : Nat) : State :=
  if s.secState ≠ scPROVISIONING then s.cmdRefuse 3 1
  else s.withBuf 3 32 (fun s l => s.setSec { s.sec with keys := { s.sec.keys with keys := Store.put s.sec.keys.keys (slot % 16) l } })

def State.cmdCert (s : State) (len : Nat) : State :=
  if s.secState ≠ scPROVISIONING then s.cmdRefuse 4 1
  else if len = 0 ∨ 65536 < len then s.cmdRefuse 4 4
  else s.withBuf 4 len (fun s l => s.setSec { s.sec with keys := { s.sec.keys with cert := shake256 32 l } })

/-- SEAL: the blob is wrapped and written to flash; nothing is programmed before its read-back. -/
def State.cmdSeal (s : State) : State :=
  if s.secState ≠ scPROVISIONING ∨ s.sec.keys.root.isNone then s.cmdRefuse 5 1
  else ((s.flashStore blobBase (s.wrapKeys s.helperSlots)).setSec { s.sec with sealing := true }).cmdResult 3 0 5

/-- The attestation report but for its signature (R416). -/
def State.attReport (s : State) : List Byte :=
  let dig (l : List Byte) : List Byte := (l ++ List.replicate 32 0#8).take 32
  toBytes 4 0x54415A49 ++ toBytes 8 s.serial
    ++ [BitVec.ofNat 8 (if s.hasPitch then s.myPitch else 255), BitVec.ofNat 8 s.secState, BitVec.ofNat 8 s.otp.epoch,
        BitVec.ofNat 8 s.helperSlots]
    ++ toBytes 4 (s.regN BEL.SCHED_ID) ++ toBytes 4 (s.regN CFG.IMG_VER)
    ++ (List.range 8).flatMap (fun k => toBytes 4 (s.regN (SEC.NONCE k)))
    ++ dig s.cfg.digFull ++ (List.range 6).flatMap (fun n => dig (Store.getD s.cfg.digStall n [])) ++ dig s.cfg.digCoef
    ++ (List.range 16).flatMap (fun n => dig (Store.getD s.cfg.digClerk n [])) ++ dig s.sec.keys.cert
    ++ toBytes 4 (s.regN SEC.VIOL_CNT) ++ toBytes 36 0

def State.attPending (s : State) : Bool := s.sec.attWait || s.sec.signing == some .attest

def State.cmdAttest (s : State) : State :=
  if s.secState ≠ scPROVISIONED ∨ s.recovery then s.cmdRefuse 6 1
  else if s.attPending then s.cmdRefuse 6 5
  else
    let r := s.attReport
    (((s.ownWrite 8 s.rptAddr r).setSec { s.sec with report := r, attWait := true }).cmdResult 3 0 6).nextSign

def State.cmdEpoch (s : State) (v : Nat) : State :=
  if s.secState = scLOCKOUT then s.cmdRefuse 7 1
  else if v % 256 ≤ s.otp.epoch then s.cmdRefuse 7 4
  else State.cmdDone { s with otp := { s.otp with epoch := v % 256 } } 7

/-! ## Erasure and LOCKOUT (R420, R421) -/

/-- LOCKOUT: the bell stops at once, every domain but 0, 1 and 13 powers down, DDR_RESET_N goes low (R456). -/
def State.enterLockout (s : State) : State :=
  let s1 := if s.bellState = stSTOPPED then s else s.enterStopped
  let s2 := s1.setDram { s1.dram with resetN := false }
  [16, 15, 14, 12, 11, 10, 9, 8, 7, 6, 5, 4, 3, 2].foldl (fun (s : State) d => s.powerDown d) s2

def killHelper (l : List Helper) (n : Nat) : List Helper := l.zipIdx.map (fun p => if p.2 = n then { p.1 with killed := true } else p.1)

def State.erase (s : State) : State :=
  let otp := match s.sec.slot with
    | some n => { s.otp with helpers := killHelper s.otp.helpers n }
    | none => s.otp
  let x := { s.sec with keys := KeyStore.empty, slot := none, sealing := false, signing := none, manifests := [], attWait := false,
                        alarm := true }
  let s0 : State := { s with otp := otp, sec := x }
  let s1 := (s0.setSecState scLOCKOUT).raise SEC.STAT_ERASED
  let s2 := match s1.cfg.job with
    | some j => s1.rejectLoad j rsSIG
    | none => s1
  s2.enterLockout

def State.cmdErase (s : State) (v : Nat) : State :=
  if s.secState = scLOCKOUT then s.cmdRefuse 8 1
  else if v ≠ 0x45524153 then s.cmdRefuse 8 4
  else (s.erase).cmdDone 8

/-- The command with this code and argument (R418); while a SEAL runs every command is refused as BUSY. A code outside the table is
refused with a reason the spec does not state. -/
def State.secRun (s : State) (code arg : Nat) : State :=
  if s.sec.sealing ∧ code ≠ 8 then s.cmdRefuse code 5
  else match code with
    | 1 => s.cmdProvision
    | 2 => s.cmdSetRoot
    | 3 => s.cmdSetKey arg
    | 4 => s.cmdCert arg
    | 5 => s.cmdSeal
    | 6 => s.cmdAttest
    | 7 => s.cmdEpoch arg
    | 8 => s.cmdErase arg
    | _ => (s.fresh 4).2.cmdRefuse code (s.fresh 4).1

/-- A write of SEC.CMD. -/
def State.secCmd (s : State) (v : Nat) : State :=
  let s1 := s.setRegN SEC.CMD (v % 16)
  if v.testBit 4 then s1.secRun (v % 16) (s1.regN SEC.ARG) else s1

def execProvision (t : Nat) (s : State) : Out3 := done ((s.at t).secCmd 0x11)
def execSetroot (t : Nat) (s : State) : Out3 := done ((s.at t).secCmd 0x12)
def execSetkey (slot t : Nat) (s : State) : Out3 := done (((s.at t).setRegN SEC.ARG slot).secCmd 0x13)
def execCert (len t : Nat) (s : State) : Out3 := done (((s.at t).setRegN SEC.ARG len).secCmd 0x14)
def execSeal (t : Nat) (s : State) : Out3 := done ((s.at t).secCmd 0x15)
def execAttest (t : Nat) (s : State) : Out3 := done ((s.at t).secCmd 0x16)
def execEpoch (v : Word) (t : Nat) (s : State) : Out3 := done (((s.at t).setReg SEC.ARG v).secCmd 0x17)
def execErase (v : Word) (t : Nat) (s : State) : Out3 := done (((s.at t).setReg SEC.ARG v).secCmd 0x18)

/-- SEAL ends: with a read-back that matches, the helper slot is programmed; else nothing is (R414, R415). -/
def execSealComplete (ok : Bool) (t : Nat) (s : State) : Out3 :=
  doneIf (s.at t) s.sec.sealing (fun s =>
    let n := s.helperSlots
    let blob := s.wrapKeys n
    let s1 := s.setSec { s.sec with sealing := false }
    if ok && s1.flashRead blobBase blob.length == blob then
      let h : Helper := { killed := false, blob := blob, keys := s1.sec.keys }
      let s2 : State := { s1 with otp := { s1.otp with helpers := s1.otp.helpers ++ [h] } }
      (((s2.setSec { s2.sec with slot := some n }).setSecState scPROVISIONED).cmdDone 5)
    else s1.cmdRefuse 5 3)

/-- The signer finishes: a manifest's signature is kept for its packet, an attestation's completes the report. -/
def execSignatureComplete (t : Nat) (s : State) : Out3 :=
  let s := s.at t
  match s.sec.signing with
  | some (.manifest q) =>
    let body := match s.outs.manifests.find? (fun m => m.q == q) with | some m => m.body | none => []
    let (sig, s1) := s.sign body
    done (s1.setSec { s1.sec with signing := none, sigs := Store.put s1.sec.sigs q sig }).nextSign
  | some .attest =>
    let (sig, s1) := s.sign s.sec.report
    let s2 := (s1.ownWrite 8 (s1.rptAddr + 896) sig).setSec { s1.sec with signing := none }
    let s3 := if s2.fld SEC.CMD_RES_CODE = 6 then s2.cmdResult 1 0 6 else s2
    done ((s3.raise SEC.STAT_CMD_DONE).raise SEC.STAT_ATT_DONE).nextSign
  | none => done s

/-! ## Violation sensors (R419) -/

/-- The policy of a sensor: 0 LOG, 1 ALARM, 2 ERASE. -/
def State.secPolicy (s : State) (k : Nat) : Nat := min 2 (bits (s.regN SEC.POLICY) (2 * k) 2)

/-- The power domain whose supply sensor k watches; the others watch at all times. -/
def sensorDomain (k : Nat) : Nat := if k = 0 then 2 else if k = 1 then 1 else if k < 8 then k + 1 else 0

/-- The sensors that may fire: those of this part, a supply's while its domain is on. -/
def State.sensorMask (s : State) : Nat :=
  let here := match s.part with | .iz8 => 0xFFF | .iz4 => 0xF0F
  ((setBits 12 here).filter (fun k => s.domOn (sensorDomain k))).foldl (fun m k => m + 2 ^ k) 0

/-- One sensor fires: VIOL, its counter, its entry in the ring of 64. -/
def State.logViolation (s : State) (k : Nat) : State :=
  let n := s.fld SEC.VLOG_IDX_NEXT
  let s1 := s.setSec { s.sec with vlog := Store.put s.sec.vlog n (k, s.secPolicy k, s.freeRun) }
  (((s1.setFld SEC.VLOG_IDX_NEXT (n + 1)).setFld SEC.VIOL_SENSORS (setBit (s1.fld SEC.VIOL_SENSORS) k true)).bump SEC.VIOL_CNT 1).raise
    SEC.STAT_VIOL

/-- Sensors fire together: each is logged, the highest policy is applied once. -/
def State.violate (s : State) (sensors : Nat) : State :=
  let l := (setBits 12 (sensors &&& s.sensorMask)).filter (fun k => !(s.fld SEC.VIOL_SENSORS).testBit k)
  if l = [] then s
  else
    let top := (l.map s.secPolicy).foldl max 0
    let s1 := s.each l (fun (s : State) k => s.logViolation k)
    let s2 := if 1 ≤ top then (s1.raise SEC.STAT_ALARM).setSec { s1.sec with alarm := true } else s1
    if top = 2 ∧ s2.secState ≠ scLOCKOUT then s2.erase else s2

def execViolationSensorFire (sensors t : Nat) (s : State) : Out3 := done ((s.at t).violate sensors)

/-- SEC_ALARM_N deasserts once STAT.ALARM is clear and no ALARM or ERASE sensor fires; not in LOCKOUT. -/
def State.alarmPin (s : State) : State :=
  let firing := (setBits 12 (s.fld SEC.VIOL_SENSORS)).any (fun k => 1 ≤ s.secPolicy k)
  if s.flag SEC.STAT_ALARM || firing || s.secState == scLOCKOUT then s else s.setSec { s.sec with alarm := false }

def execViolationSensorClear (sensors t : Nat) (s : State) : Out3 :=
  let s := s.at t
  done ((setBits 12 sensors).foldl (fun (s : State) k => s.setFld SEC.VIOL_SENSORS (setBit (s.fld SEC.VIOL_SENSORS) k false)) s).alarmPin

/-- A write of POLICY: after the boot lock, one that would lower a field is discarded whole. -/
def State.policyWrite (s : State) (v : Nat) : State :=
  let old := s.regN SEC.POLICY
  if s.flag CFG.STATUS_LOCKED && (List.range 12).any (fun k => decide (bits v (2 * k) 2 < bits old (2 * k) 2)) then s.raise SEC.STAT_POL_REJ
  else (s.setRegN SEC.POLICY (v % 2 ^ 24)).alarmPin

def execPolicyWrite (v : Word) (t : Nat) (s : State) : Out3 := done ((s.at t).policyWrite v.toNat)

/-- VLOG_LO and VLOG_HI as they read. -/
def State.vlogRead (s : State) : Nat × Nat :=
  match Store.get? s.sec.vlog (s.fld SEC.VLOG_IDX_IDX) with
  | some (k, p, fr) => (k % 16 + 16 * (p % 4), fr)
  | none => (0, 0)

end Sys2Proof.Machine
end

