-- ==== Sys2Proof/Machine/OutTx.lean ====
section
/-! DEFINITION. Dump, manifest, beam-voltage and detected-beam packets (R239 to R243). -/
namespace Sys2Proof.Machine

/-! ## Dump packets (R239, R240) -/

def recsPerPacket (fmt : Nat) : Nat := 8192 / fmtSize fmt

/-- Records of a dump: C_loc × B (R167). -/
def State.dumpRecords (s : State) : Nat := s.cLoc * s.baselines

/-- The extension of a dump packet. -/
def State.dumpExt (s : State) (d : Dump) (first n : Nat) (rpoison : Bool) : List Byte :=
  let fl := boolNat d.forced + 2 * boolNat d.short + 4 * boolNat d.stale + 8 * boolNat d.step + 16 * boolNat d.poison
    + 32 * boolNat d.isFirst + 64 * boolNat d.dieOut + 128 * boolNat rpoison
  toBytes 4 d.q ++ [BitVec.ofNat 8 d.fmt, BitVec.ofNat 8 fl, BitVec.ofNat 8 (boolNat d.corr + 2 * (d.dbank % 2)), 0#8]
    ++ toBytes 8 d.first ++ toBytes 4 d.nfr ++ toBytes 4 d.skip ++ toBytes 8 first ++ toBytes 4 n ++ toBytes 4 s.baselines
    ++ toBytes 2 s.cLoc

/-- The packet's record bytes, with the records that overlap a failing half replaced by their poison codes; how many were. -/
def dumpData (fmt a : Nat) (l : List Byte) (bad : List Nat) : List Byte × Nat :=
  let z := fmtSize fmt
  let r := (List.range (l.length / z)).map (fun i =>
    let b := a + i * z
    if bad.any (fun h => decide (h * 32 < b + z ∧ b < h * 32 + 32)) then (poisonBytes fmt, true)
    else ((l.drop (i * z)).take z, false))
  (r.flatMap (·.1), (r.filter (·.2)).length)

/-- OUT.DRATE: 0 acts as 1, above 500 as 500; units of 100 MB/s. -/
def State.dumpRate (s : State) : Nat := clampN 1 500 (s.fld OUT.DRATE_RATE)

/-- The next packet of dump d. -/
def State.dumpPacket (s : State) (d : Dump) : State :=
  let z := fmtSize d.fmt
  let first := s.outs.nextRec
  let n := min (recsPerPacket d.fmt) (s.dumpRecords - first)
  let a := s.dbufHalf d.q + first * z
  let s0 := s.raiseIf (first == 0) OUT.STAT_DUMP_START
  let (l, bad, s1) := s0.dramRead 15 a (n * z)
  let (data, poisoned) := dumpData d.fmt a l bad
  let s2 := s1.countPoison poisoned
  let ext := s2.dumpExt d first n (poisoned != 0)
  let st := s2.streamOf 1
  let pl := s2.payloadOf { kind := 1, stream := st, pseq := Store.getD s2.outs.pseq st 0, port := 0, ext := ext, data := data,
                             entry := s2.streamEntry st }
  let s3 := s2.product 1 ext data false
  let dig := if d.manif && s2.kindOn 1 then s3.outs.digests ++ [shake256 32 pl] else s3.outs.digests
  let s4 := s3.setOuts { s3.outs with nextRec := first + n, digests := dig,
                                      dumpAt := max s3.up s3.outs.dumpAt + n * z * 10 * ns / s3.dumpRate }
  if first + n < s4.dumpRecords then s4 else (s4.endDump d false).raise OUT.STAT_DUMP_SENT

def execDumpPacket (t : Nat) (s : State) : Out3 :=
  let s := s.at t
  match s.outs.dumps with
  | d :: _ => doneIf s (s.works 1 27 && s.dramOpen && decide (s.outs.dumpAt ≤ s.up)) (fun s => s.dumpPacket d)
  | [] => done s

/-! ## Manifests (R241) -/

def Manifest.ext (m : Manifest) (sig : Bool) (siglen off : Nat) : List Byte :=
  toBytes 4 m.q ++ [BitVec.ofNat 8 (boolNat sig + 2 * boolNat m.trunc), 0#8] ++ toBytes 2 siglen ++ toBytes 8 off
    ++ toBytes 8 m.body.length

/-- The next packet of the manifest's body; with the last one the signature is asked for. -/
def State.manifestPacket (s : State) (m : Manifest) (rest : List Manifest) : State :=
  let n := min 8192 (m.body.length - m.sent)
  let s1 := s.product 2 (m.ext false 0 m.sent) ((m.body.drop m.sent).take n) false
  let m1 := { m with sent := m.sent + n }
  let s2 := s1.setOuts { s1.outs with manifests := m1 :: rest }
  if m1.sent < m1.body.length then s2 else if s2.canSign then s2.askSign m.q else s2

def execManifestPacket (t : Nat) (s : State) : Out3 :=
  let s := s.at t
  match s.outs.manifests with
  | m :: rest => doneIf s (s.works 1 27 && decide (m.sent < m.body.length)) (fun s => s.manifestPacket m rest)
  | [] => done s

/-- The signature packet: SIGLEN 3,309, or 0 with SIGN_FAIL where the device holds no usable identity key. -/
def State.signaturePacket (s : State) (m : Manifest) (rest : List Manifest) (sig : List Byte) : State :=
  let s1 := s.product 2 (m.ext true sig.length m.body.length) sig false
  let s2 := ((s1.setOuts { s1.outs with manifests := rest }).setSec { s1.sec with sigs := Store.del s1.sec.sigs m.q }).setRegN OUT.MSEQ m.q
  (s2.raise OUT.STAT_MANIF_SENT).raiseIf (sig == []) OUT.STAT_SIGN_FAIL

def execManifestSignaturePacket (t : Nat) (s : State) : Out3 :=
  let s := s.at t
  match s.outs.manifests with
  | m :: rest =>
    doneIf s (s.works 1 27 && decide (m.body.length ≤ m.sent)) (fun s =>
      match Store.get? s.sec.sigs m.q with
      | some sig => s.signaturePacket m rest sig
      | none =>
        if s.sec.manifests.contains m.q || s.sec.signing == some (.manifest m.q) then s else s.signaturePacket m rest [])
  | [] => done s

/-! ## Beam packets (R242, R243) -/

/-- Bytes that wait in the beam buffer. -/
def State.beamFill (s : State) : Nat := ((s.outs.ready.filter (fun p => p.kind == 3)).map (·.data.length)).sum

/-- A beam-voltage packet is numbered; one that finds the 16 MiB buffer full is discarded. -/
def State.beamvPacket (s : State) (b : BeamPkt) (rest : List BeamPkt) : State :=
  let full := decide (2 ^ 24 < s.beamFill + b.samples.length) && s.kindOn 3 && (s.fld OUT.STREN_EN).testBit (s.streamOf 3)
  let ext := [BitVec.ofNat 8 b.beam, BitVec.ofNat 8 (boolNat b.stale + 2 * boolNat b.cut)] ++ toBytes 2 b.chan
    ++ toBytes 2 (s.localChannels.getD b.chan 0) ++ toBytes 2 0 ++ toBytes 8 b.first ++ toBytes 2 (b.samples.length / 2)
  let s1 := (s.setAisle { s.aisle with beamv := rest }).product 3 ext b.samples full
  if full then (s1.bump OUT.BV_DROP 1).raise OUT.STAT_BV_DROP else s1

def execBeamvPacket (t : Nat) (s : State) : Out3 :=
  let s := s.at t
  match s.aisle.beamv with
  | b :: rest => doneIf s (s.works 1 27) (fun s => s.beamvPacket b rest)
  | [] => done s

/-- The detected records of the first beam that waits, at most 512 in a packet. -/
def State.beamdPacket (s : State) (d : DetFrame) (rest : List DetFrame) : State :=
  match d.recs with
  | [] => s.setAisle { s.aisle with beamd := rest }
  | (b, h, u, _) :: _ =>
    let l := (d.recs.take 512).takeWhile (fun r => r.1 == b)
    let left := d.recs.drop l.length
    let at_ : State := { s with aisle := { s.aisle with cfg := d.cfg } }
    let diff := at_.sampled (AIS.BEAM_CFG_DMODE b) = 1 ∧ b % 2 = 0
    let ext := [BitVec.ofNat 8 b, BitVec.ofNat 8 (boolNat d.stale + 2 * boolNat (decide diff))] ++ toBytes 2 (at_.groupSize b)
      ++ [BitVec.ofNat 8 (at_.sampled (AIS.BEAM_TS_TSLOG b))] ++ toBytes 3 0 ++ toBytes 8 d.frame ++ toBytes 4 h ++ toBytes 4 u
      ++ toBytes 2 l.length
    let s1 := s.setAisle { s.aisle with beamd := if left = [] then rest else { d with recs := left } :: rest }
    s1.product 4 ext (l.flatMap (fun r => toBytes 16 r.2.2.2)) false

def execBeamdPacket (t : Nat) (s : State) : Out3 :=
  let s := s.at t
  match s.aisle.beamd with
  | d :: rest => doneIf s (s.works 1 27) (fun s => s.beamdPacket d rest)
  | [] => done s

end Sys2Proof.Machine
end

