-- ==== Sys2Proof/Machine/BellRing.lean ====
section
/-! DEFINITION. The bell (R13, R18, R22 to R26 and everything bell-aligned), slots and schedule items (R14, R28), and the jobs of the
clerk schedule (R290, R291). -/
namespace Sys2Proof.Machine

/-! ## Schedule items and jobs -/

def clsSkipped (s : State) (k : Nat) : Bool := s.shed.contains k || s.deferred.contains k

/-- The cores that run job entry e (R290): its mask, of those that are live (R406). -/
def State.jobCores (s : State) (e : SchedEntry) : List Nat := setBits 16 (e.arg % 65536 &&& s.regN CFG.CLE_LIVE)

def jobNumber (e : SchedEntry) : Nat := bits e.arg 16 16

def isJob (e : SchedEntry) : Bool := e.engine == 0x14 && e.kind == 1

/-- A job number goes into a core's 4-entry queue, and pends JOB; a full queue drops it. From this START on the core has still to
report it (R291). -/
def State.pushJob (s : State) (n j : Nat) : State :=
  let s := s.setCore n { s.core n with done := (s.core n).done.filter (· != j) }
  let c := s.core n
  if 4 ≤ c.jobq.length then (s.bump CLE.JOB_OVF_CNT 1).raise CLE.STAT_JOB_OVF
  else s.setCore n ({ c with jobq := c.jobq ++ [j] }.pend 1)

/-- An entry as `Config.itemAfter` sees it. -/
def SchedEntry.key (e : SchedEntry) : List Nat := [e.engine, e.kind, e.arg]

/-- Entry k has finished its work, or its END slot is over: a job that every core of it has reported, aisle passes and tile-channels
that are complete, a published crown, a solve whose channels have all ended (R28). -/
def State.itemDone (s : State) (k : Nat) (e : SchedEntry) : Bool :=
  s.ended.contains k || (s.started.contains k &&
    (if isJob e then s.pushed.contains k && (s.jobCores e).all (fun n => (s.core n).done.contains (jobNumber e))
     else if e.engine = 14 then (List.range 6).all (fun d => (s.passList d).all (fun p =>
       (s.die d).over p || !(s.aisleItems p.2 (s.dieChannel d p.1)).any (fun q => q.1 == k)))
     else if 8 ≤ e.engine ∧ e.engine ≤ 13 then (List.range 6).all (fun d => (s.unfinished d).all (fun p =>
       !(s.tileItems d p.1 p.2).any (fun q => q.1 == k)))
     else if e.engine = 15 then s.crown.published
     else if e.engine = 16 then !s.cal.active || decide (s.cLoc ≤ s.cal.next)
     else false))

/-- Entry k waits for the end of an earlier entry that it depends on; one that the ledger sheds or defers is not waited for (R28,
R378). -/
def State.itemWaits (s : State) (k : Nat) (e : SchedEntry) : Bool :=
  (s.schedule.take k).zipIdx.any (fun p => Config.itemAfter e.key p.1.key && !s.itemDone p.2 p.1 && !clsSkipped s p.2)

/-- Item k starts (R28): a job is pushed, or counted as skipped where the ledger sheds or defers it (R291). -/
def State.startItem (s : State) (k : Nat) (e : SchedEntry) : State :=
  let s1 := { s with started := k :: s.started }
  if isJob e && s1.domOn 16 then
    if clsSkipped s1 k then s1.each (s1.jobCores e) (fun (s : State) n => s.bump (CLE.CORE_SKIP n) 1)
    else ({ s1 with pushed := k :: s1.pushed }).each (s1.jobCores e) (fun (s : State) n => s.pushJob n (jobNumber e))
  else s1

/-- Cores that have not reported job entry e done (R291). -/
def State.jobLate (s : State) (e : SchedEntry) : State :=
  s.each (s.jobCores e) (fun (s : State) n =>
    if (s.core n).done.contains (jobNumber e) then s else (s.bump (CLE.CORE_LATE n) 1).raise CLE.STAT_JOB_LATE)

/-- The end of item k's END slot (R28): aisle passes and tile-channels that it covers and no other item still may run are cut off
(R34, R185), a job that was pushed is checked. -/
def State.endItem (s : State) (k : Nat) (e : SchedEntry) : State :=
  let s1 := { s with ended := k :: s.ended }
  if e.engine = 14 then s1.cutPasses (fun g ch => (s1.aisleItems g ch).any (fun p => p.1 == k))
  else if 8 ≤ e.engine ∧ e.engine ≤ 13 then s1.each ((List.range 6).filter (fun d => 8 + s.fld (STL.CFG_LPOS d) == e.engine)) (fun t d => t.cutTiles d)
  else if isJob e && s1.pushed.contains k && s1.domOn 16 then s1.jobLate e
  else s1

/-- Item k may start now. -/
def State.itemDue (s : State) (k : Nat) (e : SchedEntry) : Bool :=
  s.curFrame.isSome && !s.started.contains k && !s.ended.contains k && !s.itemWaits k e && decide (s.slotAt e.start ≤ s.now)

/-- Item k's END slot is over. -/
def State.itemOver (s : State) (k : Nat) (e : SchedEntry) : Bool :=
  s.curFrame.isSome && !s.ended.contains k && decide (s.slotAt (e.endSlot + 1) ≤ s.now)

def execScheduleItemStart (k t : Nat) (s : State) : Out3 :=
  let s := s.at t
  match s.schedule[k]? with
  | some e => doneIf s (s.itemDue k e) (fun s => s.startItem k e)
  | none => done s

def execScheduleItemCutoff (k t : Nat) (s : State) : Out3 :=
  let s := s.at t
  match s.schedule[k]? with
  | some e => doneIf s (s.itemOver k e) (fun s => s.endItem k e)
  | none => done s

/-- The START slot of job entry k begins. -/
def execJobPush (k t : Nat) (s : State) : Out3 :=
  let s := s.at t
  match s.schedule[k]? with
  | some e => doneIf s (isJob e && s.itemDue k e) (fun s => s.startItem k e)
  | none => done s

/-- The END slot of job entry k ends. -/
def execJobLate (k t : Nat) (s : State) : Out3 :=
  let s := s.at t
  match s.schedule[k]? with
  | some e => doneIf s (isJob e && s.itemOver k e) (fun s => s.endItem k e)
  | none => done s

/-- Slot `slot` of the running frame begins (R14). -/
def execSlotBoundary (slot t : Nat) (s : State) : Out3 :=
  let s := s.at t
  doneIf s (s.curFrame.isSome && decide (slot < 1024) && decide (s.slotAt slot ≤ s.now)) (fun s => s.setFld BEL.STATUS_SLOT s.slotNow)

/-! ## What a bell does -/

/-- The items that have not ended by the bell end with the frame. -/
def State.endItems (s : State) : State :=
  s.schedule.zipIdx.foldl (fun (s : State) p => if s.ended.contains p.2 then s else s.endItem p.2 p.1) s

/-- The aisle and crown work of the frame before last is over at the bell (R31, R185, R206). -/
def State.closeAisles (s : State) : State :=
  match s.corr.frame with
  | some f =>
    let s1 := s.cutPasses (fun _ _ => true)
    if s1.crown.published then s1 else s1.crownPublish f
  | none => s

/-- A phase step and index adoption that waits is applied (R22, R24): `prev` is the frame that the bell ends. -/
def State.applyStep (s : State) (prev : Option Nat) : State :=
  match s.bell.pend with
  | some p =>
    let b := s.bell
    let s1 := (s.loadT0 p.word).setBell { b with pend := none, baseIdx := p.index, baseFine := s.localFine b.nextIdx + p.by_,
                                                 nextIdx := p.index, firstIdx := min b.firstIdx p.index }
    match prev with
    | some f => s1.flagFrame f flagStep
    | none => s1
  | none => s

/-- The step that waits changes the index: the first frame that the new index numbers carries BELL_STEP (R24). -/
def State.indexSteps (s : State) : Bool :=
  match s.bell.pend with
  | some p => decide (p.index ≠ s.bell.nextIdx) && s.bell.rungs != []
  | none => false

/-- The index that the next bell will carry. -/
def State.nextIndex (s : State) : Nat :=
  match s.bell.pend with
  | some p => p.index
  | none => s.bell.nextIdx

/-- The instant of the next bell, 2^−16 ns. -/
def State.nextInstant (s : State) : Int := s.instantFine s.nextIndex / 2 ^ 18

/-- The pulse on BELL_OUT (R26): a WIDTH of 0 acts as 1, above 1,000 as 1,000. -/
def State.bellPulse (s : State) (k : Nat) : State :=
  let s1 := s.pulse 64
  if s1.flag BEL.BELL_OUT_EN then
    s1.emit (.bellOut k (s1.fld BEL.BELL_OUT_POL) (clampN 1 1000 (s1.fld BEL.BELL_OUT_WIDTH)))
  else s1

/-- Bell k is rung at `at_`. -/
def State.noteBell (s : State) (k at_ : Nat) : State :=
  let b := s.bell
  let s1 := (s.setBell { b with rungs := (k, at_) :: b.rungs.take 2, firstIdx := if b.rungs = [] then k else b.firstIdx, nextIdx := k + 1,
                                heard := false }).setPair BEL.BELL_LO BEL.BELL_HI k
  ({ s1 with started := [], ended := [], pushed := [] }).setFld BEL.STATUS_SLOT 0

/-- A clerk core at a bell (R283, R289): a waiting start or halt, then the bell interrupt; BUSY shows the frame before. -/
def State.coreBell (s : State) (n : Nat) : State :=
  let c := s.core n
  let s1 := if c.startBell then s.startCore n else s
  let s2 := if (s1.core n).haltBell then (s1.setCore n { s1.core n with haltBell := false, haltNow := true }).tryHalt n else s1
  let s3 := s2.setRegN (CLE.CORE_BUSY n) (s2.core n).busyNow
  s3.setCore n (({ s3.core n with busyNow := 0 }).pend 0)

/-- Everything that changes with bell k on this device; `prev` is the frame that ended, none where no further work starts on it. -/
def State.bellWork (s : State) (k : Nat) (prev : Option Nat) : State :=
  let feed := if s.corr.feed then s.corr.filling.map (·.q) else none
  let s1 := s.changeBell k
  let (s2, regular) := s1.corrBell prev
  let s3 := (s2.aisleBell prev).calBell regular feed
  let s4 := s3.crownBell.captureBell k
  let s5 := s4.cdBell
  if s5.domOn 16 then s5.each (List.range 16) (fun (s : State) n => s.coreBell n) else s5

/-- The bell word of the lead (R18, R130). -/
def State.leadWord (s : State) (k : Nat) : BellWord :=
  { index := k, t0Sec := s.fld BEL.T0_SEC_HI_SEC * 2 ^ 32 + s.regN BEL.T0_SEC_LO, t0Ns := s.fld BEL.T0_NS_NS, dNs := s.frameLen / ns,
    dFrac := s.frameLen % ns, stop := s.bell.stopLeft != 0, refState := s.fld MEL.STATUS_STATE, txoff := 0 }

/-- The lead sends its bell word on every UP port. -/
def State.sendBellWords (s : State) (k : Nat) : State :=
  if s.isLead then s.each s.upPorts (fun (s : State) p => s.queueCtl p (.bell (s.leadWord k))) else s

/-- This bell is the engine's last (R22, R25). -/
def State.lastBell (s : State) : Bool :=
  s.bell.stopLeft == 1 || s.bell.clearCnt == some 1 || decide (2 ≤ s.bell.stopWords)

def State.countDown (s : State) : State :=
  let b := s.bell
  s.setBell { b with stopLeft := b.stopLeft - 1, clearCnt := b.clearCnt.map (· - 1) }

/-- Bell k rings at `at_`. -/
def State.ringBell (s : State) (k at_ : Nat) : State :=
  let prev := s.bell.rungs.head?.map (·.1)
  let stop := s.lastBell
  let park := match s.can.parkAt with | some p => decide (p ≤ k) | none => false
  let work := if stop || park then none else prev
  let s0 := (s.endItems.closeAisles.applyStep prev).noteBell k at_
  let s1 := ((((s0.bellPulse k).bellWork k work).when s.indexSteps (fun t => t.flagFrame k flagStep))).sendBellWords k
  if stop then s1.bellStopped
  else if park then s1.parkBell k
  else (((s1.assignSlot k prev).ledgerBell k).joinBell k).parkBell k |>.countDown

/-- The next bell comes due: a ringing engine rings, an acquiring one only keeps its time. An edge that falls in a switch-over gap is
delivered at its end (R313). -/
def execBellRing (t : Nat) (s : State) : Out3 :=
  let s := s.at t
  let k := s.nextIndex
  let i := s.nextInstant
  if s.isRinging then doneIf s (decide (i ≤ (s.now : Int)) && s.domOn 1 && !s.inGap) (fun s => s.ringBell k i.toNat)
  else
    doneIf s (s.bellState == stACQUIRE && decide (i ≤ (s.now : Int))) (fun s =>
      let s1 := s.applyStep none
      s1.setBell { s1.bell with nextIdx := k + 1, heard := false })

end Sys2Proof.Machine
end

