-- ==== Sys2Proof/Machine/Thermal.lean ====
section
/-! DEFINITION. Junction sensors, thermal steps, the trip and its log (R381 to R386). Readings are in 1/16 °C. -/
namespace Sys2Proof.Machine

def State.sensor (s : State) (k : Nat) : Sensor := atD s.thm k Sensor.reset

def State.setSensor (s : State) (k : Nat) (x : Sensor) : State := { s with thm := setAt s.thm k x }

/-- The die of a sensor: 0 to 5 stall dies, 6 root, 7 trunk. -/
def sensorDie (k : Nat) : Nat := if k < 24 then k / 4 else if k < 26 then 6 else 7

def State.sensorPresent (s : State) (k : Nat) : Bool :=
  decide (k < 28) && (match s.part with | .iz8 => true | .iz4 => decide (k < 8 ∨ 24 ≤ k))

/-- The other sensors of a sensor's die. -/
def siblings (k : Nat) : List Nat := (List.range 28).filter (fun j => j != k && sensorDie j == sensorDie k)

def State.sensorBroken (s : State) (k : Nat) : Bool := (s.fld THM.BROKEN_SENSORS).testBit k

/-- The hottest reading over working sensors, the lowest number among equals. -/
def State.noteMax (s : State) : State :=
  let l := (List.range 28).filter (fun k => s.sensorPresent k && !s.sensorBroken k)
  match l with
  | [] => s
  | h :: r =>
    let k := r.foldl (fun b k => if (s.sensor b).val < (s.sensor k).val then k else b) h
    (s.setFld THM.MAXT_T (ofSigned 16 (s.sensor k).val)).setFld THM.MAXT_SENSOR k

/-- Sensor k is broken for reason `why` (1 stuck, 2 out of range, 3 silent), or works (0). -/
def State.setBroken (s : State) (k why : Nat) : State :=
  let was := s.sensorBroken k
  let s1 := (s.setFlag (THM.SENS_BROKEN k) (why != 0)).setFld (THM.SENS_WHY k) why
  let s2 := s1.setFld THM.BROKEN_SENSORS (setBit (s1.fld THM.BROKEN_SENSORS) k (why != 0))
  (s2.raiseIf (why != 0 && !was) THM.STAT_BROKEN).noteMax

/-- What a reading makes of its sensor (R382). -/
def State.brokenWhy (s : State) (k : Nat) : Nat :=
  let x := s.sensor k
  if x.val < -880 ∨ 2400 < x.val then 2
  else if x.moved ∧ x.changedAt + 10000000000 * ns ≤ s.up then 1
  else 0

/-- Sensor k reads v: its own record and what its siblings remember of it. -/
def State.noteReading (s : State) (k : Nat) (v : Int) : State :=
  let x := s.sensor k
  let y : Sensor :=
    if v = x.val then { x with lastAt := s.up }
    else { x with val := v, changedAt := s.up, lastAt := s.up, moved := false,
                  others := (siblings k).map (fun j => (j, (s.sensor j).val)) }
  (s.setSensor k y).each (siblings k) (fun (s : State) j =>
    let z := s.sensor j
    let d := v - Store.getD z.others k 0
    if 32 ≤ d.natAbs then s.setSensor j { z with moved := true } else s)

def execSensorConversion (sensor : Nat) (v : Int) (t : Nat) (s : State) : Out3 :=
  doneIf (s.at t) (s.sensorPresent sensor && s.domOn 1) (fun s =>
    let s1 := (s.noteReading sensor v).setFld (THM.SENS_T sensor) (ofSigned 16 v)
    let why := s1.brokenWhy sensor
    let x := s1.sensor sensor
    let s2 := s1.setSensor sensor { x with hot := if why = 0 ∧ 2160 ≤ v then x.hot + 1 else 0 }
    s2.setBroken sensor why)

def execSensorSilent (sensor t : Nat) (s : State) : Out3 :=
  let s := s.at t
  doneIf s (s.sensorPresent sensor && s.domOn 1 && decide ((s.sensor sensor).lastAt + 10000000 * ns ≤ s.up)) (fun s =>
    let x := s.sensor sensor
    (s.setSensor sensor { x with hot := 0 }).setBroken sensor 3)

/-! ## Steps (R383) -/

def State.dieSensors (s : State) (d : Nat) : List Nat := (List.range 28).filter (fun k => sensorDie k == d && s.sensorPresent k)

def State.stepNext (s : State) (d : Nat) : Nat :=
  let k := bits (s.regN THM.STEP) (4 * d) 4
  let floor := max 1 (s.fld THM.CTRL_FLOOR)
  let l := s.dieSensors d
  if l.any s.sensorBroken then floor
  else if l.any (fun j => decide ((16 * s.fld THM.CTRL_T_HOT : Nat) ≤ (s.sensor j).val)) then min (k + 1) floor
  else if l.all (fun j => decide ((s.sensor j).val ≤ (16 * s.fld THM.CTRL_T_COOL : Nat))) then k - 1
  else k

def execThermalTick (t : Nat) (s : State) : Out3 :=
  doneIf (s.at t) (s.domOn 1) (fun s =>
    let old := s.regN THM.STEP
    let new := (List.range 8).foldl (fun a d => putBits a (4 * d) 4 (s.stepNext d)) old
    let rose := (List.range 8).any (fun d => decide (bits old (4 * d) 4 < bits new (4 * d) 4))
    let fell := (List.range 8).any (fun d => decide (bits new (4 * d) 4 < bits old (4 * d) 4))
    (((s.setRegN THM.STEP new).raiseIf rose THM.STAT_STEP_UP).raiseIf fell THM.STAT_STEP_DOWN).setFld LED.STATUS_TSTEP
      ((List.range 8).foldl (fun m d => max m (bits new (4 * d) 4)) 0))

/-- A write of THM.CTRL: a T_HOT outside 60 to 130 and a T_COOL not below T_HOT are discarded. -/
def State.thmCtrl (s : State) (v : Nat) : State :=
  let hot := v % 256
  let s1 := if 60 ≤ hot ∧ hot ≤ 130 then s.setFld THM.CTRL_T_HOT hot else s
  let s2 := if v / 256 % 256 < s1.fld THM.CTRL_T_HOT then s1.setFld THM.CTRL_T_COOL (v / 256) else s1
  s2.setFld THM.CTRL_FLOOR (v / 65536)

/-! ## Trip and log (R384 to R386) -/

/-- A trip entry (R385). -/
def tripEntry (k : Nat) (v : Int) (sec : Nat) : Nat := ofSigned 16 v + 2 ^ 16 + k % 32 * 2 ^ 24 + sec % 2 ^ 32 * 2 ^ 32

def execThermalTrip (sensor t : Nat) (s : State) : Out3 :=
  let s := s.at t
  doneIf s (s.powerState != 5 && decide (2 ≤ (s.sensor sensor).hot)) (fun s =>
    let sec := if s.flag PTP.STATUS_VALID then s.now / (1000000000 * ns) else 0
    let e := tripEntry sensor (s.sensor sensor).val sec
    let s1 := s.allDown
    let s2 := (s1.setPwr { s1.pwr with step := 0, undoneAt := none, tripPin := true }).setPowerState 5
    let s3 := { s2 with thm := List.replicate 28 Sensor.reset, dram := { s2.dram with resetN := false } }
    if s3.logFull then s3 else { s3 with otp := { s3.otp with log := s3.otp.log ++ [e] } })

/-- A write of THM.ACK. -/
def State.tripAck (s : State) (v : Nat) : State :=
  let i := v % 256
  if v.testBit 8 && logUnacked (atD s.otp.log i 0) then
    let s1 := { s with otp := { s.otp with log := setAt s.otp.log i (setBit (atD s.otp.log i 0) 29 true) } }
    let s2 := if i = 255 ∧ s1.logFull then s1.setPwr { s1.pwr with holdEnded := true } else s1
    (s2.raise THM.STAT_ACKED).holdExit
  else if v.testBit 8 && i == 255 && s.logFull then
    ((s.setPwr { s.pwr with holdEnded := true }).raise THM.STAT_ACKED).holdExit
  else s.raise THM.STAT_ACK_REJ

def execTripAck (v : Word) (t : Nat) (s : State) : Out3 := done ((s.at t).tripAck v.toNat)

end Sys2Proof.Machine
end

