-- ==== Sys2Proof/Machine/Bus.lean ====
section
/-! DEFINITION. The register bridge (R6 to R11, R423, R424): what a write or a read of each register does. A register with an
effect of its own has it here; every other takes the value under its access codes. -/
namespace Sys2Proof.Machine

/-! ## Writes -/

/-- A write under the access codes: RW bits, RWL bits unless `lk`, W1C bits cleared; reserved and RO bits stay (R10, R11). -/
def State.storeReg (s : State) (r : Reg) (v : Nat) (lk : Bool) : State :=
  match regRow r with
  | none => s
  | some (row, _) =>
    let m := row.rw ||| (if lk then 0 else row.rwl)
    let old := (s.reg r).toNat
    let new := ((old &&& (0xFFFFFFFF ^^^ m)) ||| (v &&& m)) &&& (0xFFFFFFFF ^^^ (v &&& row.w1c))
    if r % 65536 < 8 then s.withLine (r / 65536) (Store.put s.regs r (BitVec.ofNat 32 new)) else s.setRegN r new

/-- A write whose field f is kept where `ok` fails ("other writes are discarded"). -/
def State.storeKeep (s : State) (r : Reg) (v : Nat) (lk : Bool) (f : Fld) (ok : Bool) : State :=
  let s1 := s.storeReg r v lk
  if ok then s1 else s1.setFld f (s.fld f)

/-- A write of a page or bank in use is discarded with `f`. -/
def State.storeUnless (s : State) (r : Reg) (v : Nat) (lk inUse : Bool) (f : Fld) : State :=
  if inUse then s.raise f else s.storeReg r v lk

/-- Flash bytes [a, a + 4) lie in the key blob (R434). -/
def State.blobLocked (s : State) (a : Nat) : Bool := 0x4000000 ≤ a && a < 0x4010000 && s.secState != scKEYFAULT

/-- A write of FL_DATA (R434): the word at FL_ADDR is programmed, bits only going from 1 to 0 (log entry 33); FL_ADDR + 4. -/
def State.flashProgram (s : State) (v : Nat) : State :=
  let a := s.regN MTX.FL_ADDR
  let l := (s.flashRead a 4).zipIdx.map (fun p => p.1 &&& BitVec.ofNat 8 (v / 2 ^ (8 * p.2)))
  (s.flashStore a l).setRegN MTX.FL_ADDR (a + 4)

/-- A write of FL_CMD (R434): ERASE with GO starts the erase of the sector that holds FL_ADDR. -/
def State.flashCmd (s : State) (v : Nat) : State :=
  let s1 := s.setFld MTX.FL_CMD_OP v
  if v.testBit 2 && v % 4 == 1 then
    (s1.setMtx { s1.mtx with erasing := some (s1.regN MTX.FL_ADDR / 65536 * 65536) }).setFlag MTX.FL_CMD_BUSY true
  else s1

/-- A source of R441. -/
def eventSource (k : Nat) : Bool := k ≤ 30 || (32 ≤ k && k ≤ 72)

/-- A write of EVRd (R441): a route the table does not allow is discarded. -/
def State.routeWrite (s : State) (d v : Nat) : State :=
  let src := v % 128
  if !eventSource src || (d < 64 && 32 ≤ src && src ≤ 63) then s.raise MTX.STAT_ROUTE_REJ else s.setRegN (MTX.EVR d) (v % 256)

/-- The CHMAP bytes of channels at or above N read 0 and ignore writes, as bit 6 of every byte does (R123). -/
def State.chmapMask (s : State) (w : Nat) : Nat :=
  ((List.range 4).map (fun j => if 4 * w + j < s.chanN then 0xBF * 2 ^ (8 * j) else 0)).sum

/-- Effects of a write: bell, loader, security, pitch, ingest, front filters and channeliser. -/
def State.writeFront (s : State) (base k v : Nat) (lk : Bool) : Option State :=
  let r := base
  if r = BEL.CTRL then some (s.runWrite v)
  else if r = BEL.T0_NS then some (s.t0Write 0 v)
  else if r = BEL.T0_SEC_LO then some (s.t0Write 1 v)
  else if r = BEL.T0_SEC_HI then some (s.t0Write 2 v)
  else if r = BEL.LOOP then some (s.storeKeep r v lk BEL.LOOP_BW (decide (1 ≤ v % 16 ∧ v % 16 ≤ 8)))
  else if r = CFG.LOCK then some (if v.testBit 0 then s.bootLock else s)
  else if r = CFG.LOAD then some (s.loadCmd v)
  else if r = CFG.OPEN then some (s.openDie v)
  else if r = CFG.CAST then some (s.castCtrl v)
  else if r = SEC.STAT then some ((s.storeReg r v lk).alarmPin)
  else if r = SEC.CMD then some (s.secCmd v)
  else if r = SEC.POLICY then some (s.policyWrite v)
  else if r = PIT.CTRL then some (s.pitCtrl v)
  else if r = PIT.ASSIGN then some (s.pitchAssign v)
  else if r = ING.EPOCH_NS then some (if v % 2 ^ 30 < 1000000000 then s.storeReg r v lk else s)
  else if r = ING.LATENCY then some (if 1000 ≤ v % 32768 ∧ v % 32768 ≤ 30000 then s.storeReg r v lk else s)
  else if r = ING.LANE_CTRL 0 then some (s.laneCtrl k v)
  else if r = ING.GRP_CTRL 0 then some (s.groupCtrl k v)
  else if r = FFL.DET then some (s.storeKeep r v lk FFL.DET_J (decide (8 ≤ v % 32 ∧ v % 32 ≤ 20)))
  else if r = FFL.NCO_CMD then some (if v.testBit 0 then s.ncoArm else s)
  else if r = FFL.PCOMMIT then some (s.polyCommit v)
  else if r = FFL.SWAP_CMD then some (s.swapCmd v)
  else if r = FFL.CDATA then some (s.coefAccess true v)
  else if r = FFL.GRP_DC 0 then
    let s1 := s.storeReg (FFL.GRP_DC k) v lk
    some (if v.testBit 2 then s1.dcClear k else s1)
  else if r = FFL.IN_CFG 0 then
    some (s.storeKeep (FFL.IN_CFG k) v lk (FFL.IN_CFG_K k) (decide (8 ≤ v % 32 ∧ v % 32 ≤ 20)))
  else if r = FFL.GRP_CHAIN 0 then
    some (s.storeKeep (FFL.GRP_CHAIN k) v lk (FFL.GRP_CHAIN_ORDER k) (v % 4 != 3))
  else if r = FFL.PAGE0 0 then some (s.storeUnless (FFL.PAGE0 k) (if k % 16 < 10 then v else 0) lk (s.front.poly.inUse false 0) FFL.STAT_POLY_WR)
  else if r = FFL.PAGE1 0 then some (s.storeUnless (FFL.PAGE1 k) (if k % 16 < 10 then v else 0) lk (s.front.poly.inUse false 1) FFL.STAT_POLY_WR)
  else if r = CHN.PCOMMIT then some (s.fringeCommit v)
  else if r = CHN.SCOMMIT then some (s.scaleCommit v)
  else if r = CHN.SDATA then some (s.scaleAccess true v)
  else if r = CHN.WDATA then some (s.windowAccess true v)
  else if r = CHN.SWAP_CMD then some (if v.testBit 0 then s.windowCmd else s)
  else if r = CHN.PAGE0 0 then some (s.storeUnless (CHN.PAGE0 k) (if k % 16 < 8 then v else 0) lk (s.chan.poly.inUse false 0) CHN.STAT_POLY_WR)
  else if r = CHN.PAGE1 0 then some (s.storeUnless (CHN.PAGE1 k) (if k % 16 < 8 then v else 0) lk (s.chan.poly.inUse false 1) CHN.STAT_POLY_WR)
  else none

/-- STATUS.STATE of a die that is not closed and does no work: IDLE, or SPARE where its position is 0b111 (R179). -/
def State.restState (s : State) (n : Nat) : State :=
  let st := s.fld (STL.STATUS_STATE n)
  if st = 0 ∨ st = 3 then s.setFld (STL.STATUS_STATE n) (if s.fld (STL.CFG_LPOS n) = 7 then 3 else 0) else s

/-- A write of STLn.CFG: position 0b110 is rejected. -/
def State.positionWrite (s : State) (n v : Nat) (lk : Bool) : State :=
  (s.storeKeep (STL.CFG n) v lk (STL.CFG_LPOS n) (v % 8 != 6)).restState n

/-- Effects of a write: canopy, capture, aisles, DRAM, outputs and clerks. RETRAIN's outcome on each failed channel is free. -/
def State.writeData (s : State) (base k v : Nat) (lk : Bool) : Option State :=
  let r := base
  if r = CAN.PORT_CTRL 0 then some (s.portCtrl k v)
  else if r = CAN.SHAPE then some (s.storeKeep r v lk CAN.SHAPE_TOPO (v % 4 != 3))
  else if 8 ≤ r / 65536 ∧ r / 65536 ≤ 13 ∧ r % 65536 = STL.CFG 0 % 65536 then some (s.positionWrite (r / 65536 - 8) v lk)
  else if r = STL.DUMP_N 0 then some (s.storeKeep r v lk (STL.DUMP_N_N 0) (v % 2 ^ 24 != 0))
  else if r = CAN.PORT_ASYM 0 then some ((s.storeReg (CAN.PORT_ASYM k) v lk).showDelay k)
  else if r = CAN.CHMAP 0 then some (s.storeReg (CAN.CHMAP k) (v &&& s.chmapMask k) lk)
  else if r = RRG.HOST_TRIG then some (if v.testBit 0 then s.hostTrig else s)
  else if r = RRG.CAP_REL then some (s.releaseRequest v)
  else if r = RRG.RD_CMD then some (s.readCmd v)
  else if r = AIS.PCOMMIT then some (s.contextCommit v)
  else if r = AIS.BADD then some (s.beamAdd v)
  else if r = AIS.GCOMMIT then some (s.gainCommit v)
  else if r = DMC.CTRL then
    let s1 := s.dramEnable v
    let (f, s2) := s1.fresh 16
    some (if v.testBit 1 then s2.dramRetrain f else s1)
  else if r = OUT.PORT_CTRL 0 then some (s.outPortCtrl k v)
  else if r = OUT.STREN then some (s.streamWrite v)
  else if r = OUT.DUMP then some (s.dumpFormat v lk)
  else if r = CLE.FLAGS_SET then some (s.setReg CLE.FLAGS (s.reg CLE.FLAGS ||| BitVec.ofNat 32 v))
  else if r = CLE.FLAGS_CLR then some (s.setReg CLE.FLAGS (s.reg CLE.FLAGS &&& ~~~(BitVec.ofNat 32 v)))
  else if r = CLE.MDATA then some (s.mdataWrite v)
  else if r = CLE.CORE_CTRL 0 then some (s.coreCtrl k v)
  else if r = CLE.CORE_DBELL 0 then some (s.doorbell k v)
  else none

/-- Effects of a write by master m: references, station time, clocks, power, ledger, thermal, matrix, porters, counters.
Whether a gated block is quiet is physical, so a GATE_CMD that comes as a register write takes it free. -/
def State.writeCtl (s : State) (m base k v : Nat) (lk : Bool) : Option State :=
  let r := base
  if r = MEL.CTRL then some (s.melCtrl v)
  else if r = MEL.REFCFG then some ((s.storeReg r v lk).refEnables)
  else if r = MEL.QLMAP_LO then some ((s.storeReg r v lk).refreshRanks)
  else if r = MEL.QLMAP_HI then some ((s.storeReg r v lk).refreshRanks)
  else if r = PTP.TSET_NS then some (if v % 2 ^ 30 < 1000000000 then s.storeReg r v lk else s)
  else if r = PTP.TSET_CMD then some (s.timeSet v)
  else if r = PTP.SLV_CTRL then some (s.slaveCtrl v)
  else if r = PTP.SVC_CTRL 0 then some (s.svcCtrl k v)
  else if r = PTP.CDCOMMIT then some (s.cdCommit v)
  else if r = PTP.CDBANK0 0 then some (s.storeUnless (PTP.CDBANK0 k) v lk (!s.flag PTP.CDSTATUS_BANK) PTP.STAT_CD_WR)
  else if r = PTP.CDBANK1 0 then some (s.storeUnless (PTP.CDBANK1 k) v lk (s.flag PTP.CDSTATUS_BANK) PTP.STAT_CD_WR)
  else if r = CKG.AON then some (if v.testBit 2 && !s.flag CKG.AON_XRUN then s.xtalStart else s)
  else if r = CKG.PLL_CTRL 0 then some (s.pllCtrl k v)
  else if r = CKG.PLL_CFG 0 then some (s.pllCfg k v lk)
  else if r = CKG.DOM_SRC 0 then some (s.clockSource k v)
  else if r = CKG.GATE_CMD then
    let (q, s1) := s.fresh 1
    some (s1.gateCmd v (q == 1))
  else if r = PWR.CTRL then some (s.pwrCtrl v)
  else if r = PWR.RET_BAD then some (s.retBadClear v)
  else if r = PWR.VOTE 0 then some (s.voteWrite k m v)
  else if r = LED.CTRL then some (s.ledCtrl v)
  else if r = LED.RAIL_CFG 0 then some (s.railCfg k v)
  else if r = THM.CTRL then some (s.thmCtrl v)
  else if r = THM.ACK then some (s.tripAck v)
  else if r = MTX.MRST then some (s.masterResets v)
  else if r = MTX.EVR 0 then some (s.routeWrite k v)
  else if r = MTX.FL_ADDR then some (s.setRegN r (v / 4 * 4))
  else if r = MTX.FL_DATA then some (s.flashProgram v)
  else if r = MTX.FL_CMD then some (s.flashCmd v)
  else if r = POR.CH_CTRL 0 then some (s.porterCtrl k v)
  else if r = PMC.CTRL then some (s.storeKeep r v lk PMC.CTRL_K (decide (4 ≤ bits v 7 5 ∧ bits v 7 5 ≤ 22)))
  else if r = PMC.CNT 0 then some (if s.part = .iz4 ∧ 80 ≤ k ∧ k < 112 then s else s.storeReg (PMC.CNT k) v lk)
  else none

/-- The effect of a performed write of v to register r by master m; with `lk` the boot lock holds RWL registers (R10). -/
def State.busWrite (s : State) (m r v : Nat) (lk : Bool) : State :=
  match regRow r with
  | none => s
  | some (row, k) =>
    let base := r - k * row.stride
    match s.writeFront base k v lk with
    | some s1 => s1
    | none => match s.writeData base k v lk with
      | some s1 => s1
      | none => match s.writeCtl m base k v lk with
        | some s1 => s1
        | none => s.storeReg r v lk

/-! ## Reads -/

/-- The low words whose read latches the high word after them (R323). -/
def latchBases : List Reg :=
  [BEL.BELL_LO, ING.GRP_LAST_LO 0, FFL.EVT_LO, RRG.CAP_BELL_LO 0, RRG.CAP_FIRST_LO 0, CFG.CBELL_LO, CLE.CORE_FADDR_LO 0,
   PIT.JOIN_LO]

/-- The registers that read what such a low word latched. -/
def latchedBases : List Reg :=
  [BEL.BELL_HI, ING.GRP_LAST_HI 0, FFL.EVT_HI, RRG.CAP_BELL_HI 0, RRG.CAP_FIRST_HI 0, CFG.CBELL_HI, CLE.CORE_FADDR_HI 0,
  DMC.UE_ADDR_HI, PIT.JOIN_HI]

/-- COREn_STATUS. -/
def State.coreStatus (s : State) (n : Nat) : Nat :=
  let c := s.core n
  c.st + 8 * (c.fault % 16) + 128 * (c.pc % 32768) + 2 ^ 22 * boolNat c.werr + 2 ^ 23 * (min 4 c.jobq.length) + 2 ^ 26 * bits c.sr 5 2

/-- CAPn_STATE. -/
def CapRec.state (c : CapRec) : Nat :=
  c.st + 4 * (c.srcs % 32) + 128 * (c.origin % 64) + 2 ^ 13 * boolNat c.short + 2 ^ 14 * boolNat c.echoed + 2 ^ 15 * (c.pre % 64)
    + 2 ^ 21 * (c.post % 64)

/-- CAPn_FIRST and CAPn_NFR (R147): the nominal set while PENDING, then what was kept. -/
def CapRec.firstShow (c : CapRec) : Nat := if c.st = 1 then c.bell - c.pre else c.first

def CapRec.nfrShow (c : CapRec) : Nat := if c.st = 1 then c.pre + c.post else c.frames.length

/-- SLOTn: its state and frame; slots at or above F read 0. -/
def State.slotShow (s : State) (n : Nat) : Nat :=
  let x := atD s.ring.slots n { frame := none, isOpen := false, ord := 0, held := 0, parked := [] }
  if s.ringF ≤ n then 0
  else match x.frame with
    | none => 0
    | some f => f % 2 ^ 28 + 2 ^ 28 * (if x.frozen then 3 else if x.isOpen then 1 else 2)

/-- RRG.FROZEN: the slots frozen, and those in rotation. -/
def State.frozenShow (s : State) : Nat :=
  let n := ((s.ring.slots.take s.ringF).filter (fun x => x.frame.isSome && x.frozen)).length
  n + 128 * (s.ringF - n)

/-- ING.LOCKw: the lanes of word w that are LOCKED. -/
def State.lockWord (s : State) (w : Nat) : Nat :=
  ((List.range 32).map (fun j => if 32 * w + j < 80 then boolNat (s.laneLocked (32 * w + j)) * 2 ^ j else 0)).sum

/-- THM.STATUS. -/
def State.thmStatus (s : State) : Nat := boolNat (s.flag PWR.STATUS_HOLD) + 2 * boolNat s.logFull + 4 * s.otp.log.length

/-- BEL.LOOP, whose STEP_NS and LOST read 1 for 0. -/
def State.loopShow (s : State) : Nat :=
  let v := s.regN BEL.LOOP
  let v1 := if bits v 4 8 = 0 then v + 16 else v
  if bits v 12 4 = 0 then v1 + 4096 else v1

/-- What registers of the bell, canopy, ingest, correlator and capture read. -/
def State.showData (s : State) (base k : Nat) : Option Nat :=
  let r := base
  let cap := atD s.ring.recs k CapRec.free
  if r = BEL.STATUS then some (putBits (s.regN r) 4 10 s.slotNow)
  else if r = BEL.LOOP then some s.loopShow
  else if r = ING.LOCK0 then some (s.lockWord 0)
  else if r = ING.LOCK1 then some (s.lockWord 1)
  else if r = ING.LOCK2 then some (s.lockWord 2)
  else if r = FFL.PSTATUS then some s.front.poly.status
  else if r = CHN.PSTATUS then some s.chan.poly.status
  else if r = CHN.SSTATUS then some (setBit s.chan.scale.status 2 false)
  else if r = CAN.STATUS then some s.canStatus
  else if r = CAN.LEAD_SER_LO then some (s.leadSerialOut % 2 ^ 32)
  else if r = CAN.LEAD_SER_HI then some (s.leadSerialOut / 2 ^ 32)
  else if r = CAN.BUF_USE then some s.bufUse
  else if r = CAN.CHMAP 0 then some (s.regN (CAN.CHMAP k) &&& s.chmapMask k)
  else if r = STL.FMAX 0 then some s.fMax
  else if r = STL.DBUF_STAT 0 then some s.dbufStat
  else if r = AIS.PSTATUS then some s.aisle.page.status
  else if r = RRG.CAP_STATE 0 then some cap.state
  else if r = RRG.CAP_BELL_LO 0 then some (cap.bell % 2 ^ 32)
  else if r = RRG.CAP_FIRST_LO 0 then some (cap.firstShow % 2 ^ 32)
  else if r = RRG.CAP_NFR 0 then some cap.nfrShow
  else if r = RRG.CAP_TAG_LO 0 then some (cap.tag % 2 ^ 32)
  else if r = RRG.CAP_TAG_HI 0 then some (cap.tag / 2 ^ 32)
  else if r = RRG.SLOT 0 then some (s.slotShow k)
  else if r = RRG.FROZEN then some s.frozenShow
  else if r = DMC.RTBUF then some s.ring.rtFill
  else if r = DMC.REQ_CFG 0 then some (s.regN (DMC.REQ_CFG k) ||| (if k = 0 then 3 else 0))
  else none

/-- What registers of the clerks, references, station time, power, security and the control plane read. -/
def State.showCtl (s : State) (base k : Nat) : Option Nat :=
  let r := base
  if r = CLE.CORE_STATUS 0 then some (s.coreStatus k)
  else if r = CLE.CORE_FADDR_LO 0 then some ((s.core k).faddr % 2 ^ 32)
  else if r = MEL.HO_TIME then some s.hoTimeRead
  else if r = MEL.HO_TE then some s.hoTeRead
  else if r = MEL.REF_STATUS 0 then some (s.refStatusRead k)
  else if r = PTP.FR then some s.freeRun
  else if r = PTP.SLV_MPD then some s.slvMpdRead
  else if r = PWR.VOTE 0 then some (s.voteRead k)
  else if r = THM.STATUS then some s.thmStatus
  else if r = THM.LOG_LO then some (atD s.otp.log (s.regN THM.LOG_IDX) 0 % 2 ^ 32)
  else if r = THM.LOG_HI then some (atD s.otp.log (s.regN THM.LOG_IDX) 0 / 2 ^ 32)
  else if r = SEC.STATUS then some s.secStatus
  else if r = SEC.EPOCH then some (s.otp.epoch % 256)
  else if r = SEC.VLOG_LO then some s.vlogRead.1
  else if r = SEC.VLOG_HI then some (s.vlogRead.2 % 2 ^ 32)
  else if r = POR.CH_CNT 0 then some ((s.porter k).read % 2 ^ 32)
  else if r = PMC.SEQ then some (s.pmc.seq % 2 ^ 32)
  else if r = PCI.WINBASE_LO then some (s.regN r / 2 ^ (min 32 s.mtx.winSize) * 2 ^ (min 32 s.mtx.winSize))
  else if r = PCI.WINBASE_HI then some (s.regN r / 2 ^ (s.mtx.winSize - 32) * 2 ^ (s.mtx.winSize - 32))
  else none

/-- The high word that a read of the low word at `base` latches. -/
def State.highWord (s : State) (base k : Nat) : Nat :=
  let cap := atD s.ring.recs k CapRec.free
  if base = RRG.CAP_BELL_LO 0 then cap.bell / 2 ^ 32
  else if base = RRG.CAP_FIRST_LO 0 then cap.firstShow / 2 ^ 32
  else if base = CLE.CORE_FADDR_LO 0 then (s.core k).faddr / 2 ^ 32
  else if base = BEL.BELL_LO then s.regN BEL.BELL_HI
  else if base = ING.GRP_LAST_LO 0 then s.regN (ING.GRP_LAST_HI k)
  else if base = FFL.EVT_LO then s.regN FFL.EVT_HI
  else if base = PIT.JOIN_LO then s.regN PIT.JOIN_HI
  else s.regN CFG.CBELL_HI

/-- The value register r shows. -/
def State.shown (s : State) (r base k : Nat) : Nat :=
  if r % 65536 = 8 then (s.reg (statOf (r / 65536)) &&& s.reg (maskOf (r / 65536))).toNat
  else if latchedBases.contains base then (Store.getD s.latch r 0#32).toNat
  else match s.showData base k with
    | some v => v
    | none => match s.showCtl base k with
      | some v => v
      | none => s.regN r

/-! ### Mailboxes (R445) -/

def State.mailbox (s : State) (b : Nat) : Mailbox :=
  if b = 15 then s.crown.mb else if b = 16 then s.cal.mb else if b = 17 then s.ring.mb else s.led.mb

def State.setMailbox (s : State) (b : Nat) (x : Mailbox) : State :=
  if b = 15 then s.setCrown { s.crown with mb := x } else if b = 16 then s.setCal { s.cal with mb := x }
  else if b = 17 then s.setRing { s.ring with mb := x } else s.setLed { s.led with mb := x }

/-- HEAD of block b's mailbox for the newest record x, FRESH apart. -/
def mailHead (b : Nat) (x : List Nat) : Nat :=
  let g (i : Nat) : Nat := atD x i 0
  if b = 15 then g 0 + 2 ^ 17 * (g 1 % 128) + 2 ^ 24 * g 2 + 2 ^ 25 * g 3
  else if b = 16 then g 0 + 2 ^ 17 * g 1 + 2 ^ 18 * g 2
  else if b = 17 then g 0 + 2 ^ 17 * (g 1 % 8) + 2 ^ 20 * (g 2 % 4) + 2 ^ 22 * (g 3 % 4) + 2 ^ 24 * g 4
  else g 0 + 2 ^ 17 * g 1 + 2 ^ 18 * g 2

/-- The companions of HEAD take record x. -/
def State.mailCompanions (s : State) (b : Nat) (x : List Nat) : State :=
  let g (i : Nat) : Nat := atD x i 0
  if b = 15 then s.setPair CRN.MB_FRAME_LO CRN.MB_FRAME_HI (g 4)
  else if b = 16 then ((s.setRegN CAL.MB_DSEQ (g 3)).setRegN CAL.MB_CONV (g 4 % 2 ^ 15)).setRegN CAL.MB_FAIL
    (g 5 % 2 ^ 15 + 2 ^ 16 * (g 6 % 2 ^ 15))
  else if b = 17 then s.setPair RRG.MB_BELL_LO RRG.MB_BELL_HI (g 5)
  else s.setPair LED.MB_FRAME_LO LED.MB_FRAME_HI (g 3)

def mailReg (b : Nat) : Reg :=
  if b = 15 then CRN.MB_HEAD else if b = 16 then CAL.MB_HEAD else if b = 17 then RRG.MB_HEAD else LED.MB_HEAD

/-- A read of HEAD: the newest record is latched, FRESH on its first read (R445). -/
def State.mailRead (s : State) (b : Nat) : Nat × State :=
  let x := s.mailbox b
  let r := mailReg b
  if x.unread then
    let h := mailHead b x.newest
    (h + 2 ^ 16, ((s.setMailbox b { x with unread := false }).setRegN r h).mailCompanions b x.newest)
  else (s.regN r, s)

/-! ### Reads with an effect -/

/-- A read of FL_DATA (R434): the word at FL_ADDR, then FL_ADDR + 4. -/
def State.flashWord (s : State) : Nat × State :=
  let a := s.regN MTX.FL_ADDR
  (ofBytes (s.flashRead a 4), s.setRegN MTX.FL_ADDR (a + 4))

/-- A low word is read and its high word frozen (R323). -/
def State.latchRead (s : State) (r base k : Nat) : Nat × State :=
  (s.shown r base k, { s with latch := Store.put s.latch (r + 4) (BitVec.ofNat 32 (s.highWord base k)) })

/-- A read of an RC register returns its value and clears it (R9); BUF_PEAK goes on from the cells in use. -/
def State.clearRead (s : State) (r base k : Nat) (rc : Nat) : Nat × State :=
  (s.shown r base k,
   if r = CAN.BUF_PEAK then s.setRegN r s.bufUse else s.setRegN r (s.regN r &&& (0xFFFFFFFF ^^^ rc)))

/-- The value and the effect of a performed read of register r. CHc_CNT after a disable is a free value (R440). -/
def State.busRead (s : State) (r : Reg) : Nat × State :=
  match regRow r with
  | none => (0, s)
  | some (row, k) =>
    let base := r - k * row.stride
    let b := r / 65536
    if (b = 15 ∨ b = 16 ∨ b = 17 ∨ b = 25) ∧ r = mailReg b then s.mailRead b
    else if r = PTP.TSQ_INFO then s.stampPop
    else if r = PTP.NOW_NS then s.nowRead
    else if r = DMC.UE_ADDR_LO then s.ueAddrPop
    else if r = DMC.PANIC_TIME then s.panicCount.clearRead r base k row.rc
    else if r = MTX.ERR_ADDR_LO then s.errAddrRead
    else if r = STL.DSEQ 0 then (s.regN r, s.latchDump)
    else if r = CLE.MDATA then s.mdataRead
    else if r = FFL.CDATA then ((s.coefAccess false 0).regN r, s.coefAccess false 0)
    else if r = CHN.SDATA then ((s.scaleAccess false 0).regN r, s.scaleAccess false 0)
    else if r = CHN.WDATA then ((s.windowAccess false 0).regN r, s.windowAccess false 0)
    else if r = MTX.FL_DATA then s.flashWord
    else if base = POR.CH_CNT 0 ∧ (s.porter k).cntOpen = true then s.fresh 32
    else if latchBases.contains base then s.latchRead r base k
    else if row.rc ≠ 0 then s.clearRead r base k row.rc
    else (s.shown r base k, s)

/-! ## Accesses (R2, R354, R359, R421, R424, R434) -/

/-- The gate whose block's data port register r is. -/
def portGate (r : Reg) : Option Nat :=
  if r = FFL.CDATA then some 22 else if r = CHN.SDATA ∨ r = CHN.WDATA then some 23 else if r = CLE.MDATA then some 25 else none

/-- An access to register r completes with an error response: its block is absent, off or shut out in LOCKOUT, its data port is
gated, or the flash is busy. -/
def State.regRefused (s : State) (r : Reg) : Bool :=
  let b := r / 65536
  (s.part == .iz4 && 10 ≤ b && b ≤ 13) || !s.domOn 1 || !s.domOn (domainOfReg r) || (s.lockout && b != 2 && b != 24)
    || (match portGate r with | some g => !s.ungated g | none => false)
    || ((r == MTX.FL_DATA || r == MTX.FL_CMD) && s.mtx.erasing.isSome)

/-- A write or an erase in the key blob outside KEYFAULT (R434). -/
def State.blobRefused (s : State) (r v : Nat) : Bool :=
  s.blobLocked (s.regN MTX.FL_ADDR) && (r == MTX.FL_DATA || (r == MTX.FL_CMD && v.testBit 2 && v % 4 == 1))

/-- Master m writes register r: false is an error response. -/
def State.regWrite (s : State) (m r v : Nat) : Bool × State :=
  if s.regRefused r then (false, s)
  else
    let s1 := s.count (r / 65536) 2 1
    if s1.blobRefused r v then (false, s1.raise MTX.STAT_FL_REJ) else (true, s1.busWrite m r (v % 2 ^ 32) s.locked)

/-- A master reads register r: none is an error response. -/
def State.regRead (s : State) (r : Reg) : Option Nat × State :=
  if s.regRefused r then (none, s)
  else
    let (v, s1) := (s.count (r / 65536) 2 1).busRead r
    (some v, s1)

/-- An access to register r waits (R353): the matrix or the side bus has no clock, or the data port's gate has a close pending or no
clock. -/
def State.regWaits (s : State) (r : Reg) : Bool :=
  !s.clockRuns 2 || !s.clockRuns 3 || (match portGate r with | some g => s.gateHolds g | none => false)

/-- A write by master m, answered, or held where it waits. -/
def State.answerWrite (s : State) (m r v : Nat) : State :=
  if s.regWaits r then s.holdTxn m true (regionBase + r) 4 15 (toBytes 4 v) true
  else
  let (ok, s1) := s.regWrite m r v
  if ok then s1.emit (.writeDone m) else s1.errorTo m (regionBase + r) true

/-- A read by master m, answered, or held where it waits. -/
def State.answerRead (s : State) (m r : Nat) : State :=
  if s.regWaits r then s.holdTxn m false (regionBase + r) 4 15 [] true
  else match s.regRead r with
  | (some v, s1) => s1.emit (.readData m v)
  | (none, s1) => s1.errorTo m (regionBase + r) false

/-- Register numbers name the offsets of R6 within the register region. -/
def regOffset (r : Nat) : Bool := decide (r < 0x1F0000) && r % 4 == 0

/-- A register access by master m at time t happens: the master is neither held in reset nor gated (R354, R430). -/
def State.mayAccess (s : State) (m r : Nat) : Bool := m < 12 && regOffset r && s.masterLive m

/-- The host reads or writes data port r: an access like any other (R354). -/
def State.portAccess (s : State) (r : Reg) (write : Bool) (v : Nat) : State :=
  if write then s.answerWrite 0 r v else s.answerRead 0 r

/-- CDATA (R80): one compensator coefficient, then CADDR + 1. -/
def execCoefDataAccess (write : Bool) (v : Word) (s : State) : Out3 :=
  doneIf s (s.mayAccess 0 FFL.CDATA) (fun s => s.portAccess FFL.CDATA write v.toNat)

/-- WDATA (R92): one window coefficient, then WADDR + 1. -/
def execWindowDataAccess (write : Bool) (v : Word) (s : State) : Out3 :=
  doneIf s (s.mayAccess 0 CHN.WDATA) (fun s => s.portAccess CHN.WDATA write v.toNat)

/-- SDATA (R104): one scale, then SADDR + 1. -/
def execScaleDataAccess (write : Bool) (v : Word) (s : State) : Out3 :=
  doneIf s (s.mayAccess 0 CHN.SDATA) (fun s => s.portAccess CHN.SDATA write v.toNat)

/-- MDATA (R269): one word of a core's local memory, then MADDR + 1. -/
def execLocalMemoryAccess (write : Bool) (v : Word) (s : State) : Out3 :=
  doneIf s (s.mayAccess 0 CLE.MDATA) (fun s => s.portAccess CLE.MDATA write v.toNat)

def execReadClear (m r t : Nat) (s : State) : Out3 := doneIf (s.at t) (s.mayAccess m r) (fun s => s.answerRead m r)

def execLatchingRead (m r t : Nat) (s : State) : Out3 := doneIf (s.at t) (s.mayAccess m r) (fun s => s.answerRead m r)

/-- A read of the mailbox HEAD of block b: 0x0F crown, 0x10 calibration, 0x11 capture, 0x19 ledger. -/
def execMailboxHeadRead (b m t : Nat) (s : State) : Out3 :=
  doneIf (s.at t) (s.mayAccess m (mailReg b) && [15, 16, 17, 25].contains b) (fun s => s.answerRead m (mailReg b))

def execEventRouteWrite (m d : Nat) (v : Word) (t : Nat) (s : State) : Out3 :=
  doneIf (s.at t) (s.mayAccess m (MTX.EVR d) && d < 113) (fun s => s.answerWrite m (MTX.EVR d) v.toNat)

def execFlashDataRead (m t : Nat) (s : State) : Out3 := doneIf (s.at t) (s.mayAccess m MTX.FL_DATA) (fun s => s.answerRead m MTX.FL_DATA)

def execFlashDataWrite (m : Nat) (v : Word) (t : Nat) (s : State) : Out3 :=
  doneIf (s.at t) (s.mayAccess m MTX.FL_DATA) (fun s => s.answerWrite m MTX.FL_DATA v.toNat)

/-- FL_CMD written with OP = ERASE and GO = 1. -/
def execFlashErase (m t : Nat) (s : State) : Out3 :=
  doneIf (s.at t) (s.mayAccess m MTX.FL_CMD) (fun s => s.answerWrite m MTX.FL_CMD 5)

/-- The erase ends (R434): the 64 KiB of its sector are erased. -/
def execFlashEraseDone (t : Nat) (s : State) : Out3 :=
  let s := s.at t
  match s.mtx.erasing with
  | none => done s
  | some a =>
    let s1 : State := { s with flash := s.flash.filter (fun p => decide (p.1 < a ∨ a + 65536 ≤ p.1)) }
    done (((s1.setMtx { s1.mtx with erasing := none }).setFlag MTX.FL_CMD_BUSY false).raise MTX.STAT_FL_DONE)

/-- The host writes a vector's mask bit (R443): an unmasked vector with its pending bit set sends its message. -/
def execMsixUnmask (vec : Nat) (mask : Bool) (t : Nat) (s : State) : Out3 :=
  doneIf (s.at t) (vec < 64) (fun s =>
    let s1 : State := { s with msixMask := setBit s.msixMask vec mask }
    if !mask && s1.msixPend.testBit vec then ({ s1 with msixPend := setBit s1.msixPend vec false }).emit (.msix vec) else s1)

end Sys2Proof.Machine
end

