-- ==== Sys2Proof/Machine/Access.lean ====
section
/-! DEFINITION. What the fast matrix's masters do: transactions and timeouts (R424 to R429), the clerks' far accesses (R286,
R287), the porters' copies (R436 to R440), the counter reader (R449), and the die-to-die links (R433). -/
namespace Sys2Proof.Machine

/-! ## Transactions -/

/-- The number that the low n bytes of l spell, byte enables 1. -/
def fullBe (n : Nat) : Nat := 2 ^ n - 1

/-- No target takes a transaction of n bytes at a: it crosses a 4 KiB boundary, decodes to no target, or is not one aligned word at
the register bridge (R423, R424): byte enables are a write's. -/
def State.badTxn (s : State) (write : Bool) (a n be : Nat) : Bool :=
  decide (a / 4096 ≠ (a + n - 1) / 4096) || s.place a == .none
    || (s.place a == .reg && (n != 4 || a % 4 != 0 || (write && be % 16 != 15)))

/-- The target of a chunk took master m's (R426). -/
def State.grant (s : State) (m a : Nat) : State :=
  s.setMtx { s.mtx with granted := Store.put s.mtx.granted (s.targetOf a) m }

/-- A target performs one chunk: none is an error response, a write answers no bytes. -/
def State.performChunk (s : State) (m : Nat) (write : Bool) (a n be : Nat) (l : List Byte) (hint : Nat) : Option (List Byte) × State :=
  let s := s.grant m a
  if s.place a = .reg then
    if write then
      let (ok, s1) := s.regWrite m (a - regionBase) (ofBytes (l.take 4))
      (if ok then some [] else none, s1)
    else
      let (v, s1) := s.regRead (a - regionBase)
      (v.map (toBytes 4), s1)
  else if write then
    let (ok, s1) := s.memWrite m a be l hint
    (if ok then some [] else none, s1)
  else s.memRead m a n hint

/-- The targets perform a transaction, its chunks in address order (R425): it fails where one of them does. -/
def State.perform (s : State) (m : Nat) (write : Bool) (a n be : Nat) (l : List Byte) (hint : Nat) : Option (List Byte) × State :=
  if s.badTxn write a n be then (none, s)
  else
    (chunksOf a n).foldl (fun (p : Option (List Byte) × State) c =>
      let o := c.1 - a
      let (r, t) := p.2.performChunk m write c.1 c.2 (be / 2 ^ o) ((l.drop o).take c.2) hint
      (p.1.bind (fun x => r.map (x ++ ·)), t)) (some [], s)

/-- Requests of master m at a wait for their target. -/
def State.waitsFor (s : State) (m a : Nat) : Bool :=
  if s.place a = .reg then s.regWaits (a - regionBase) else s.memWaits m a

/-- An earlier transaction of master m to the target of a is outstanding (R428). -/
def State.behind (s : State) (m a : Nat) : Bool :=
  s.mtx.out.any (fun x => x.master == m && s.targetOf x.addr == s.targetOf a)

/-- The response of a performed transaction goes back to its master. -/
def State.answer (s : State) (m : Nat) (write : Bool) (a : Nat) (r : Option (List Byte)) : State :=
  match r with
  | none => s.errorTo m a write
  | some l => if write then s.emit (.writeDone m) else if s.place a = .reg then s.emit (.readData m (ofBytes l)) else s.emit (.bytes m l)

/-! ### Chunks that wait (R425 to R428) -/

/-- The chunk that transaction x moves next. -/
def Txn.next (x : Txn) : Nat × Nat := ((chunksOf x.addr x.len).find? (fun c => x.addr + x.moved ≤ c.1)).getD (x.addr, x.len)

/-- Transaction k of the pool may move its next chunk to target t: it waits no longer, and no earlier one of its master goes there. -/
def State.mayMove (s : State) (t k : Nat) (x : Txn) : Bool :=
  x.waits && s.targetOf x.next.1 == t && !s.waitsFor x.master x.next.1 && !s.inReset x.master
    && (s.mtx.out.take k).all (fun y => y.master != x.master || s.targetOf y.next.1 != t)

/-- The priority of master m at target t (R426). -/
def State.priority (s : State) (m t : Nat) : Nat :=
  if t < 8 then bits (s.regN (MTX.PRI_LO m)) (4 * t) 4 else bits (s.regN (MTX.PRI_HI m)) (4 * (t - 8)) 4

/-- How far master m stands from its turn at target t: 0 for the one after the last that the target took. -/
def State.turn (s : State) (m t : Nat) : Nat := (m + 11 - Store.getD s.mtx.granted t 11) % 12

/-- The transaction whose chunk target t takes: the highest priority, ties in turn (R426). -/
def State.grantTo (s : State) (t : Nat) : Option Nat :=
  let l := (s.mtx.out.zipIdx).filter (fun p => s.mayMove t p.2 p.1)
  (l.foldl (fun (best : Option (Txn × Nat)) p =>
    match best with
    | none => some p
    | some q =>
      let a := s.priority p.1.master t
      let b := s.priority q.1.master t
      if b < a ∨ (a = b ∧ s.turn p.1.master t < s.turn q.1.master t) then some p else best) none).map (·.2)

/-- Transaction k moves its next chunk; with its last it is answered. -/
def State.moveChunk (s : State) (k : Nat) : State :=
  match s.mtx.out[k]? with
  | none => s
  | some x =>
    let c := x.next
    let o := c.1 - x.addr
    if s.badTxn x.write x.addr x.len x.be then
      (s.setOut (s.mtx.out.eraseIdx k)).answer x.master x.write x.addr none
    else if o + c.2 < x.len then
      let (r, s1) := s.performChunk x.master x.write c.1 c.2 (x.be / 2 ^ o) ((x.data.drop o).take c.2) 0
      s1.setOut (setAt s1.mtx.out k { x with moved := o + c.2, got := x.got ++ r.getD [], failed := x.failed || r.isNone })
    else
      let s0 := s.setOut (s.mtx.out.eraseIdx k)
      let (r, s1) := s0.performChunk x.master x.write c.1 c.2 (x.be / 2 ^ o) ((x.data.drop o).take c.2) 0
      s1.answer x.master x.write x.addr (if x.failed then none else r.map (x.got ++ ·))

/-- Every target takes one chunk that waits for it. -/
def State.moveRound (s : State) : State :=
  s.each (List.range 11) (fun s t => match s.grantTo t with | some k => s.moveChunk k | none => s)

def State.moveRounds (s : State) : Nat → State
  | 0 => s
  | n + 1 => s.moveRound.moveRounds n

/-- The transactions that wait no longer move, chunk by chunk, until each has been answered. -/
def State.retryOut (s : State) : State :=
  s.moveRounds ((s.mtx.out.filter (·.waits)).map (fun x => (chunksOf x.addr x.len).length)).sum

/-- Master m issues a transaction (R424): one that has no room in the pool waits at its port; one that its target does not take yet or
does not answer stays outstanding; any other completes. -/
def execFabricTransaction (m : Nat) (write : Bool) (a n be : Nat) (data : List Byte) (answered : Bool) (t : Nat) (s : State) : Out3 :=
  doneIf (s.at t) (m < 12 && 1 ≤ n && n ≤ 65536 && s.masterLive m && s.outRoom m) (fun s =>
    let l := (data ++ List.replicate n 0#8).take n
    let s1 := s.countTxn m a n
    let bad := s1.badTxn write a n be
    if !bad && (s1.waitsFor m a || s1.behind m a) then s1.holdTxn m write a n be l true
    else if !bad && !answered then s1.holdTxn m write a n be l false
    else
      let (r, s2) := s1.perform m write a n be l 0
      (s2.answer m write a r).retryOut)

/-- MTX.TMO.US. -/
def State.timeout (s : State) : Nat := max 1 (s.fld MTX.TMO_US) * 1000 * ns

/-- Outstanding transaction k times out (R429). Its target may still have performed it; the late response is discarded. -/
def execTargetTimeout (k : Nat) (performed : Bool) (t : Nat) (s : State) : Out3 :=
  let s := s.at t
  match s.mtx.out[k]? with
  | none => done s
  | some x =>
    doneIf s (decide (x.issuedAt + s.timeout ≤ s.up)) (fun s =>
      let s1 := s.setOut (s.mtx.out.eraseIdx k)
      let s2 := if performed then (s1.perform x.master x.write x.addr x.len x.be x.data 0).2 else s1
      ((s2.raise MTX.STAT_TMO).errorTo x.master x.addr x.write).retryOut)

/-! ## What lets waiting transactions go -/

/-- A register write by master m; what it opens lets waiting transactions go. -/
def execRegisterWrite (m r : Nat) (v : Word) (t : Nat) (s : State) : Out3 :=
  doneIf (s.at t) (s.mayAccess m r) (fun s => (s.answerWrite m r v.toNat).retryOut)

def execGateClose (v : Word) (quiet : Bool) (s : State) : Out3 :=
  doneIf s (v.toNat.testBit 6 && !v.toNat.testBit 5) (fun s => s.gateClose (v.toNat % 32) quiet)

def execGateOpen (v : Word) (s : State) : Out3 :=
  doneIf s (v.toNat.testBit 6 && v.toNat.testBit 5) (fun s => (s.gateOpen (v.toNat % 32)).retryOut)

def execGateCloseDone (g : Nat) (s : State) : Out3 := doneIf s (s.gatePending g) (fun s => (s.gateClosed g).retryOut)

def execGateCloseTimeout (g : Nat) (s : State) : Out3 := doneIf s (s.gatePending g) (fun s => (s.gateTimeout g).retryOut)

/-- A switch ends by an edge of the old clock (R347). -/
def execSwDone (k : Nat) (s : State) : Out3 :=
  match s.target k with
  | some t => doneIf s (decide (k < 4) && s.clockRuns k) (fun s => (s.switchEnd k t false).retryOut)
  | none => done s

/-- A switch ends by force: the old clock has stopped (R348). -/
def execForcedSwitch (k : Nat) (s : State) : Out3 :=
  match s.target k with
  | some t => doneIf s (decide (k < 4) && !s.clockRuns k) (fun s => (s.switchEnd k t true).retryOut)
  | none => done s

/-- A PLL locks (R343): its EN is 1 and its reference READY. -/
def execPllLock (k : Nat) (s : State) : Out3 :=
  doneIf s (decide (k < 4) && s.flag (CKG.PLL_CTRL_EN k) && s.ready (s.refBit k) && !s.ready k) (fun s => (s.pllLocks k).retryOut)

def execXtalStable (s : State) : Out3 := doneIf s (s.flag CKG.AON_XRUN) (fun s => s.xtalStable.retryOut)

def execOscRestored (t : Nat) (s : State) : Out3 :=
  doneIf (s.at t) (s.flag MEL.STATUS_OSC || !s.ready 5) (fun s => s.oscBack.retryOut)

def execDramInitDone (failed t : Nat) (s : State) : Out3 :=
  doneIf (s.at t) (s.dramUntrained) (fun s => (s.dramTrained failed).retryOut)

def execDramEnable (v : Word) (s : State) : Out3 := done (s.dramEnable v.toNat).retryOut

/-- A request that has waited more than PAGE.AGE µs moves up one class (R254), and the banks serve. -/
def execRequestAgeUp (t : Nat) (s : State) : Out3 := done (s.at t).ageQueue.serveQueue.retryOut

/-! ## Deep entry (R364) -/

/-- The DRAM controller completes every transaction: its queue, then those of the matrix that it has not answered. -/
def State.finishDram (s : State) : State :=
  let s1 := s.serveQueue
  let mine := s1.mtx.out.filter (fun x => s1.place x.addr == .dram)
  (s1.setOut (s1.mtx.out.filter (fun x => s1.place x.addr != .dram))).each mine (fun s x =>
    let (r, t) := s.perform x.master x.write x.addr x.len x.be x.data 0
    t.answer x.master x.write x.addr r)

/-- Deep entry completes: the banks are written, DRAM is in self-refresh or off, every domain but 0 down, the banks' CRCs computed. -/
def execDeepEntryComplete (t : Nat) (s : State) : Out3 :=
  doneIf (s.at t) (s.powerState == 6) (fun s =>
    let lp := s.flag PWR.CTRL_MODE
    let kept := s.flag DMC.STATUS_READY && s.fld DMC.SR_KEEP != 0
    let s1 := s.finishDram.saveBanks.selfRefresh
    let mem := s1.mem
    let s2 := s1.allDown
    -- DRAM in self-refresh keeps its segments while its PHY domain is off
    let held := mem.filter (fun c => decide (c.1 < s1.dramSize)) ++ s2.mem.filter (fun c => decide (s1.dramSize ≤ c.1))
    let errs := s1.dram.errs.filter (fun p => decide (p.1 * 32 < s1.dramSize))
      ++ s2.dram.errs.filter (fun p => decide (s1.dramSize ≤ p.1 * 32))
    let s3 : State := if kept then { s2 with mem := held, dram := { s2.dram with errs := errs, tags := s1.dram.tags } } else s2
    let s4 := (s3.setDram { s3.dram with resetN := s.dram.resetN && s.fld DMC.SR_KEEP != 0, srKept := s.keptSegments }).setFlag
      DMC.STATUS_SELFREF kept
    let s5 := s4.each (List.range 8) (fun (s : State) n => s.setRegN (PWR.RET_CRC n) (s.bankCrc n))
    let s6 := if lp then s5.lowPower.setPowerState 3 else s5.setPowerState 2
    if s6.pwr.wakeHeld then s6.wakeStart (if lp then 3 else 2) else s6)

/-! ## Die-to-die links (R433): link 0 to 5 to stall die n, 6 to the root die -/

def linkPresent (p : Part) (n : Nat) : Bool := n < diesOf p || n == 6

/-- A flit in error on link n is replayed; `again` where it is the replay of one that failed before. -/
def execD2dFlitError (n : Nat) (again : Bool) (t : Nat) (s : State) : Out3 :=
  doneIf (s.at t) (linkPresent s.part n) (fun s =>
    let k := Store.getD s.mtx.d2d n 0
    s.setMtx { s.mtx with d2d := Store.put s.mtx.d2d n (if again then min 9 (k + 1) else 1) })

/-- The link that a transaction crosses. -/
def State.linkOf (s : State) (x : Txn) : Option Nat :=
  let d := s.txnDomain x
  if d = 2 then some 6 else if 3 ≤ d ∧ d ≤ 8 then some (d - 3) else none

/-- After the eighth failed replay link n retrains: what is in flight on it fails, and the LINK sensor fires. -/
def execD2dLinkRetrain (n t : Nat) (s : State) : Out3 :=
  doneIf (s.at t) (linkPresent s.part n && Store.getD s.mtx.d2d n 0 == 9) (fun s =>
    let s1 := s.failOut (fun x => s.linkOf x == some n)
    (s1.setMtx { s1.mtx with d2d := Store.del s1.mtx.d2d n }).violate (2 ^ 10))

/-! ## Far accesses of the clerks (R286, R287) -/

def clerkMaster (core : Nat) : Nat := 1 + core / 8

/-- The 32-bit access itself. `fail` 0: as its target answers; 1: an error response, the target having done nothing; 2: an error
response although the target performed it. -/
def State.farAccess (s : State) (core : Nat) (write : Bool) (a v fail : Nat) : Option (List Byte) × State :=
  let m := clerkMaster core
  let s1 := s.countTxn m a 4
  let (r, s2) := if fail = 1 then ((none : Option (List Byte)), s1) else s1.perform m write a 4 15 (toBytes 4 v) 0
  let r := if fail = 0 then r else none
  (r, match r with | some _ => s2 | none => s2.errorTo m a write)

/-- A stop that waited for the queue to empty takes effect (R288, R289). -/
def State.stopDue (s : State) (n : Nat) : State :=
  let c := s.core n
  if c.stopping ≠ 0 ∧ c.storeQ = [] then s.stopCore n c.stopping else s

/-- The oldest far store of the core completes. -/
def execFarStoreComplete (core fail t : Nat) (s : State) : Out3 :=
  let s := s.at t
  match (s.core core).storeQ with
  | [] => done s
  | (a, v) :: l =>
    doneIf s (core < 16 && s.masterLive (clerkMaster core) && (fail != 0 || !s.waitsFor (clerkMaster core) a)) (fun s =>
      let s1 := s.setCore core { s.core core with storeQ := l }
      let (r, s2) := s1.farAccess core true a v fail
      let s3 := match r with
        | some _ => s2
        | none =>
          let c := s2.core core
          (s2.setCore core { c.put 0x40 (setBit c.sr srFERR true) with werr := true, faddr := a }).raise CLE.STAT_FAR_ERR
      s3.stopDue core)

/-- The far load of the core returns (R278, R287): its pair is seen from the second instruction after it, or FLOAD stops it. -/
def execFarLoadComplete (core fail t : Nat) (s : State) : Out3 :=
  let s := s.at t
  match (s.core core).farLoad with
  | none => done s
  | some a =>
    doneIf s (core < 16 && s.masterLive (clerkMaster core) && (fail != 0 || !s.waitsFor (clerkMaster core) a)) (fun s =>
      let s1 := s.setCore core { s.core core with farLoad := none }
      let (r, s2) := s1.farAccess core false a 0 fail
      let c := s2.core core
      match r with
      | none => s2.stopCore core 7
      | some l =>
        let w := Store.getD c.pm c.pc 0
        let k := 2 * bits w 19 2
        let v := ofBytes l
        s2.clerkApply core { now := (c.farAddr w).2, later := [(k, v % 65536), (k + 1, v / 65536)], noInt := true })

/-! ## Porter transfers (R436 to R440) -/

/-- A new transaction starts where units are not combined (R436): the address is fixed or a register, or begins a 256-byte chunk. -/
def State.unitTxn (s : State) (a : Nat) (fixed : Bool) (moved : Nat) : Bool :=
  fixed || s.place a == .reg || a % 256 == 0 || moved == 0

/-- A unit's access counts its bytes, and its transaction where it begins one. -/
def State.countUnit (s : State) (m a n : Nat) (first : Bool) : State :=
  if first then s.countTxn m a n
  else ((s.countBytes (masterBlock m) 4 n).countBytes 27 (0x40 + m) n).countBytes 27 (0x50 + s.targetOf a) n

/-- The address of channel c's next unit: its write where the holding register has one, else its read. -/
def State.unitAddr (s : State) (c : Nat) : Nat :=
  let p := s.porter c
  if p.desc.dwBytes ≤ p.held.length then (if p.desc.dfix then p.desc.dst else p.desc.dst + p.written)
  else if p.desc.sfix then p.desc.src else p.desc.src + p.read

/-- Channel c's next unit, unless it waits for its target: a write where the holding register has one, else a read. -/
def State.porterUnit (s : State) (c : Nat) : State :=
  let p := s.porter c
  let d := p.desc
  let m := porterMaster c
  if p.st ≠ 2 ∨ s.waitsFor m (s.unitAddr c) then s
  else if d.dwBytes ≤ p.held.length then
    let a := s.unitAddr c
    let s1 := s.countUnit m a d.dwBytes (s.unitTxn a d.dfix p.written)
    let (r, s2) := s1.perform m true a d.dwBytes (fullBe d.dwBytes) (p.held.take d.dwBytes) d.hint
    match r with
    | none => (s2.errorTo m a true).porterStop c 2
    | some _ =>
      if (s2.porter c).st ≠ 2 then s2
      else s2.setPorter c { p with written := p.written + d.dwBytes, held := p.held.drop d.dwBytes }
  else if p.read < d.len then
    let a := s.unitAddr c
    let s1 := s.countUnit m a d.swBytes (s.unitTxn a d.sfix p.read)
    let (r, s2) := s1.perform m false a d.swBytes (fullBe d.swBytes) [] d.hint
    match r with
    | none => (s2.errorTo m a false).porterStop c 2
    | some l => s2.setPorter c { p with read := p.read + d.swBytes, held := p.held ++ l }
  else s

/-- Channel c moves at most n units. -/
def State.porterRun (s : State) (c : Nat) : Nat → State
  | 0 => s
  | n + 1 => (s.porterUnit c).porterRun c n

/-- The units of the running descriptor. -/
def Desc.units (d : Desc) : Nat := d.len / d.swBytes + d.len / d.dwBytes

def execPorterEnable (c m t : Nat) (s : State) : Out3 :=
  doneIf (s.at t) (c < 32 && s.mayAccess m (POR.CH_CTRL c)) (fun s => s.answerWrite m (POR.CH_CTRL c) 1)

/-- The channel is dropped after n more units (R440). -/
def execPorterDisable (c n m t : Nat) (s : State) : Out3 :=
  doneIf (s.at t) (c < 32 && s.mayAccess m (POR.CH_CTRL c)) (fun s =>
    (if s.porterLive c then s.porterRun c n else s).answerWrite m (POR.CH_CTRL c) 0)

/-- The oldest trigger pulse reaches its channel (R437). -/
def execPorterTrigger (t : Nat) (s : State) : Out3 :=
  let s := s.at t
  match s.porTrig with
  | [] => done s
  | c :: l =>
    let s1 : State := { s with porTrig := l }
    match (s1.porter c).st with
    | 1 => done (s1.setPorter c { s1.porter c with st := 2 })
    | 3 => done (s1.porterLoad c (s1.porterFirst c) true)
    | _ => done ((s1.bump POR.TRIG_LOST_CNT 1).raise POR.STAT_TRIG_LOST)

/-- A load that waited for the port is made. -/
def State.porterWaited (s : State) (c : Nat) : State :=
  let p := s.porter c
  if p.st = 4 then s.porterLoad c p.desc.next p.desc.wait else s

/-- The rest of the descriptor is moved and it ends: its event is pulsed, NEXT loaded or the chain finished (R437). -/
def execPorterDescriptorEnd (c t : Nat) (s : State) : Out3 :=
  doneIf (s.at t) (c < 32 && s.porterLive c) (fun s =>
    let s0 := s.porterWaited c
    let d := (s0.porter c).desc
    let s1 := s0.porterRun c d.units
    if (s1.porter c).st ≠ 2 ∨ (s1.porter c).written < d.len then s1
    else
      let s2 := if d.ev then s1.pulse (32 + c) else s1
      if d.chain then s2.porterLoad c d.next false else s2.setPorter c { s2.porter c with st := 3 })

/-- The channel moves at most n more units, and the next access of it gets an error response (R439). -/
def execPorterXferErr (c n t : Nat) (s : State) : Out3 :=
  doneIf (s.at t) (c < 32 && s.porterLive c && (s.porter c).st == 2) (fun s =>
    let s1 := s.porterRun c n
    let p := s1.porter c
    if p.st ≠ 2 then s1
    else
      (s1.errorTo (porterMaster c) (s1.unitAddr c) (decide (p.desc.dwBytes ≤ p.held.length))).porterStop c 2)

/-! ## The counter reader (R449) -/

/-- The window of the snapshot, in time units. -/
def State.pmcWindow (s : State) : Nat := 2 ^ s.fld PMC.CTRL_K * 1000 * ns

/-- The 2,048-byte record of a snapshot, its SEQ q. -/
def State.pmcRecord (s : State) (q : Nat) : List Byte :=
  let ovf := (List.range 32).map (fun b => if b < 31 then BitVec.ofNat 8 (s.regN (PMC.OVF b)) else 0#8)
  let cnt := (List.range 256).flatMap (fun k => toBytes 4 (if k < 248 then s.regN (PMC.CNT k) else 0))
  toBytes 8 q ++ toBytes 8 (s.now / s.pmcWindow) ++ toBytes 4 s.freeRun ++ List.replicate 12 0#8 ++ ovf ++ cnt
    ++ List.replicate 952 0#8 ++ toBytes 8 q

/-- The record that waits is written through porter port 3. -/
def State.pmcWrite (s : State) : State :=
  match s.pmc.held with
  | none => s
  | some (l, a) =>
    let s1 : State := { s with pmc := { s.pmc with held := none } }
    let (r, s2) := (s1.countTxn 6 a 2048).perform 6 true a 2048 (fullBe 2048) l 0
    match r with
    | some _ => ({ s2 with pmc := { s2.pmc with seq := s2.pmc.seq + 1 } }).raise PMC.STAT_RECORD
    | none => s2.errorTo 6 a true

/-- The record that waits may be written: port 3 is not in reset, its masters' gates are open, and its target takes it. -/
def State.pmcFree (s : State) : Bool :=
  !s.inReset 6 && s.works 1 29 && (match s.pmc.held with | some (_, a) => !s.waitsFor 6 a | none => true)

/-- A snapshot instant. A record still unwritten makes it MISSED; `prompt` tells whether the record that waits is written before the
next one. -/
def execPmcSnapshot (prompt : Bool) (t : Nat) (s : State) : Out3 :=
  doneIf (s.at t) (s.flag PMC.CTRL_EN && s.works 1 29 && (s.at t).now % s.pmcWindow == 0) (fun s =>
    let s1 :=
      if s.pmc.held.isSome then s.raise PMC.STAT_MISSED
      else
        let q := s.pmc.seq + 1
        let a := s.regN PMC.BASE_LO + s.fld PMC.BASE_HI_ADDR * 2 ^ 32 + s.now / s.pmcWindow % max 1 (s.fld PMC.NREC_COUNT) * 2048
        { s with pmc := { s.pmc with held := some (s.pmcRecord q, a) } }
    if prompt && s1.pmcFree then s1.pmcWrite else s1)

end Sys2Proof.Machine
end

