-- ==== Sys2Proof/Machine/Apply.lean ====
section
/-! DEFINITION. Applying images (R393, R394, R400, R402, R407), a domain that powers up (R359), and the end of each power-up
step with what follows the last (R363, R367, R369, R370, R398). -/
namespace Sys2Proof.Machine

/-- A register write by the loader, as master 8: performed whether or not the boot lock has closed (R393); an error response where no
register is, or its block is absent or off (R2, R5, R6). -/
def State.loaderWrite (s : State) (a v : Nat) : State :=
  let r := a - regionBase
  if s.place a ≠ .reg ∨ a % 4 ≠ 0 ∨ s.regRefused r then s.errorTo 8 a true else (s.count (r / 65536) 2 1).busWrite 8 r v false

/-- The domain of the block or memory that address a lies in. -/
def State.addrDomain (s : State) (a : Nat) : Nat := 
  s.txnDomain { master := 0, write := true, addr := a, len := 0, be := 0, data := [], issuedAt := 0, waits := false, moved := 0, got := [],
                failed := false }

/-- The sequencer program of die n, while its domain is on. -/
def State.loadCode (s : State) (n : Nat) (l : List Byte) : State :=
  if s.domOn (3 + n) then s.setDie n { s.die n with code := l } else s

/-- Section x of the image as it is applied; `dom` limits it to what one domain holds. -/
def State.applySect (s : State) (dom : Option Nat) (x : Sect) (data : List Byte) : State :=
  let here (d : Nat) : Bool := dom.all (· == d)
  match x.type with
  | 1 => s.each (presetEntries data) (fun (s : State) p => if here (domainOfReg (p.1 - regionBase)) then s.loaderWrite p.1 p.2 else s)
  | 2 => if here (domainOfReg (x.dest - regionBase)) then s.each (portWords data) (fun (s : State) w => s.loaderWrite x.dest w) else s
  | 3 => if here (s.addrDomain x.dest) then s.ownWrite 8 x.dest data else s
  | 4 => if dom.isNone then { s with schedule := schedEntries data } else s
  | 5 => if here (3 + x.dest) then s.loadCode x.dest data else s
  | _ => if 6 ≤ x.type ∧ x.type ≤ 8 ∧ here 16 = true ∧ s.domOn 16 = true then s.loadLocal x.dest (x.type - 6) data else s

/-- The sections of the image at base, in table order, on this device. -/
def State.applyImage (s : State) (dom : Option Nat) (base : Nat) : State :=
  let l := ((s.sects base).filter s.sectHere).map (fun x => (x, s.sectData base x))
  l.foldl (fun (t : State) p => t.applySect dom p.1 p.2) s

/-- What targets the blocks or memories of domain d is applied again from the image kept (R393). -/
def State.reapply (s : State) (d : Nat) : State :=
  match s.cfg.full with
  | some (base, _) => s.applyImage (some d) base
  | none => s

/-- A domain powers up, and the loader re-applies what the full image holds for it. -/
def execDomainPowerUp (d t : Nat) (s : State) : Out3 :=
  doneIf (s.at t) (s.mayComeUp d) (fun s =>
    let s1 := (s.powerUp d).reapply d
    if 3 ≤ d ∧ d ≤ 8 then s1.restState (d - 3)
    else if d = 10 then s1.each (List.range 4) (fun s p => s.portStart p)
    else s1)

/-! ## Stall-die reload (R402, R405) -/

/-- The window store of die n holds zeros and valid check bits. -/
def State.zeroWindows (s : State) (n : Nat) : State := s.wipe (0xFC0000000000 + n * 0x10000000) 0x10000000

def execStallReloadDone (t : Nat) (s : State) : Out3 :=
  let s := s.at t
  match s.cfg.change with
  | some c =>
    doneIf s (!c.clerk && c.phase == 1 && s.domOn (3 + c.die)) (fun s =>
      let s1 := if c.pcycle then s.reapply (3 + c.die) else s
      let s2 := ((s1.applyImage none c.base).keepLayout s c.die).zeroWindows c.die
      let s3 := s2.setCfg { s2.cfg with digStall := Store.put s2.cfg.digStall c.die (s.imgDigest c.base) }
      (s3.raise CFG.STAT_PART_RELOADED).changeLoaded c)
  | none => done s

/-! ## Full and coefficient images (R393, R400, R407) -/

/-- The ledger takes back the coefficients and base of bank 4, or takes a metering frame (R369, R371, R376). -/
def State.ledgerImage (s : State) : State :=
  let sv := s.pwr.saved
  let s1 := s.setFlag LED.STATUS_METERED false
  if s.pwr.banksOk.testBit 4 ∧ sv.coefs ≠ [] ∧ sv.sched = s.regN BEL.SCHED_ID then
    let a := s.regN LED.COEF_LO + s.fld LED.COEF_HI_ADDR * 2 ^ 32
    let s2 := s1.each sv.coefs.zipIdx (fun (s : State) p => s.ledgerStore (a + 4 * p.2) (toBytes 4 p.1))
    (s2.setRegN LED.BASE sv.base).setFlag LED.STATUS_METERED true
  else s1.setLed { s1.led with meterReq := true }

/-- A closed die whose domain is on is reloaded and reopens. -/
def State.reloadClosed (s : State) (n : Nat) : State :=
  if (s.die n).closed && s.domOn (3 + n) then (s.zeroWindows n).reopenDie n else s

/-- The image is kept in the staging region, which its own presets may have moved. -/
def State.keepImage (s : State) (j : LoadJob) (l : List Byte) : State :=
  let s1 := if s.stageBase = j.base then s else s.ownWrite 8 s.stageBase l
  s1.setCfg { s1.cfg with full := some (s.stageBase, j.len), src := j.src }

/-- A full image comes into force. -/
def State.applyFull (s : State) (j : LoadJob) : State :=
  let dig := s.imgDigest j.base
  let id := s.img j.base 0xC 4
  let ver := s.img j.base 0x18 4
  let bytes := s.read j.base j.len
  let s0 := (s.ownRead 8 j.base j.len).2
  let s1 := ((s0.setRegN BEL.FLEN_FRAC 0).setRegN BEL.FLEN_LO 0).setRegN BEL.FLEN_HI 0
  let s2 := ((s1.applyImage none j.base).setRegN BEL.SCHED_ID id).setRegN CFG.IMG_VER ver
  let s3 := (s2.keepImage j bytes).setFld CFG.STATUS_SRC j.src
  let s4 := s3.setCfg { s3.cfg with digFull := dig, change := none }
  let s5 := (((s4.setRegN CFG.PART 0).each (List.range 6) (fun (s : State) n => s.reloadClosed n)).each (List.range 6)
    (fun (s : State) n => s.restState n))
  let s6 : State := { s5 with corr := { s5.corr with fresh := true }, alertDirect := false }
  let s7 := s6.pitchRangeCheck.ledgerImage
  s7.setPwr { s7.pwr with banksOk := setBit s7.pwr.banksOk 4 false }

/-- A write at address a would be discarded under R80, R92 or R104. -/
def State.portDiscards (s : State) (a : Nat) : Bool :=
  if a = regionBase + FFL.CDATA then
    let (g, kind, bank, _) := s.coefSel
    bank == (if kind = 0 then s.fld (FFL.GRP_BANK_COMP g) else s.fld (FFL.GRP_BANK_RES g)) || Store.has s.front.swaps g
  else if a = regionBase + CHN.WDATA then s.fld CHN.WSEL_BANK == s.fld CHN.SWAP_CMD_BANK || s.chan.swap.isSome
  else if a = regionBase + CHN.SDATA then s.chan.scale.inUse true (s.fld CHN.SSEL_BANK)
  else false

/-- A coefficient image is written; whether a write of it was discarded. -/
def State.applyCoef (s : State) (base : Nat) : State :=
  let dig := s.imgDigest base
  let (s1, lost) := (s.imgWrites base).foldl (fun (q : State × Bool) p => (q.1.loaderWrite p.1 p.2, q.2 || q.1.portDiscards p.1)) (s, false)
  let s2 := s1.setCfg { s1.cfg with digCoef := dig }
  if lost then (s2.loadRes 1 rsINCOMPLETE 3).raise CFG.STAT_INCOMPLETE else s2

def execImageApply (t : Nat) (s : State) : Out3 :=
  let s := s.at t
  match s.cfg.accepted with
  | some j =>
    doneIf s (s.hasPitch || (s.sects j.base).all (fun x => x.pitch == 0xFF)) (fun s =>
      let s1 := if j.kind = 3 then s.applyCoef j.base else s.applyFull j
      ((s1.setCfg { s1.cfg with accepted := none }).setLd ldREADY).raise CFG.STAT_IMG_LOADED)
  | none => done s

/-! ## Power-up and wake steps (R363, R367 to R370, R398) -/

/-- The geometry read from the SPD of channel 0, or kept by bank 0: SIZE, SPEED, in bit 4 that no segment masking is reported (R266),
in bit 5 that refresh management is required (R250). -/
def State.readSpd (s : State) (geom : Nat) : State :=
  let s1 := (s.setRegN DMC.GEOM (geom % 16)).setFld DMC.SR_NOPASR (geom / 16)
  s1.setDram { s1.dram with rfm := geom.testBit 5 }

/-- After step 4 of a wake: the bank check, and what its consumers take from banks that passed. A DRAM controller without bank 0
trains in full. -/
def State.wakeChecks (s : State) (geom upset : Nat) : State :=
  let s1 := s.retentionCheck upset
  let ok (n : Nat) : Bool := s1.pwr.banksOk.testBit n
  let s2 := if ok 0 && s1.flag DMC.STATUS_SELFREF then s1.readSpd s1.pwr.saved.geom else (s1.setFlag DMC.STATUS_SELFREF false).readSpd geom
  let s3 := if ok 1 then s2.restoreLanes else s2
  let s4 := if s3.fld PWR.STATUS_CAUSE = 3 then s3.melRestart (if ok 2 then s3.pwr.saved.holdover else none) else s3
  s4.raise PWR.STAT_WOKE

/-- Step 4 is complete: the device is in RUN, or in THERMAL_HOLD with the stall cores vetoed. -/
def State.sequenceEnd (s : State) (geom upset : Nat) : State :=
  let waking := s.pwr.waking
  let s1 := if waking then s.wakeChecks geom upset else (s.setPwr { s.pwr with banksOk := 0 }).readSpd geom
  let s2 := if s1.tripHold then ((s1.setRegN PWR.VETO stallMask).setFlag PWR.STATUS_HOLD true).setPowerState 4 else s1.setPowerState 0
  let s3 := s2.secBoot waking
  s3.setPwr { s3.pwr with step := 0, undoneAt := none, waking := false, wakeHeld := false }

/-- Step k is complete: step 3 leaves every domain clock on its PLL, step 4 ends the sequence. -/
def State.stepEnd (s : State) (geom upset : Nat) : State :=
  match s.pwr.step with
  | 1 => (s.setFlag PWR.STATUS_REG_LP false).beginStep 2
  | 2 => s.beginStep 3
  | 3 => (s.each (List.range 4) (fun (s : State) k => (s.setFld (CKG.DOM_SRC_SRC k) 0).switchEnd k 0 false)).beginStep 4
  | _ => s.sequenceEnd geom upset

def execPowerUpStepDone (geom upset t : Nat) (s : State) : Out3 :=
  doneIf (s.at t) (s.pwr.step != 0 && s.pwr.undoneAt.isNone && s.stepSatisfied s.pwr.step) (fun s => s.stepEnd geom upset)

end Sys2Proof.Machine
end

