-- ==== Sys2Proof/Machine/Dispatch.lean ====
section
/-! DEFINITION. One arm per command: each calls its meaning. -/
namespace Sys2Proof.Machine

def exec (i : Instr) (s : State) : Host.Outcome State Fault Refusal :=
  match i with
  | .registerWrite m r v t => Sys2Proof.Machine.execRegisterWrite m r v t s
  | .readClear m r t => Sys2Proof.Machine.execReadClear m r t s
  | .latchingRead m r t => Sys2Proof.Machine.execLatchingRead m r t s
  | .fabricTransaction m write a n be data answered t => Sys2Proof.Machine.execFabricTransaction m write a n be data answered t s
  | .targetTimeout k performed t => Sys2Proof.Machine.execTargetTimeout k performed t s
  | .errAddrRead master => Sys2Proof.Machine.execErrAddrRead master s
  | .bellRing t => Sys2Proof.Machine.execBellRing t s
  | .slotBoundary slot t => Sys2Proof.Machine.execSlotBoundary slot t s
  | .scheduleItemStart k t => Sys2Proof.Machine.execScheduleItemStart k t s
  | .scheduleItemCutoff k t => Sys2Proof.Machine.execScheduleItemCutoff k t s
  | .stallOverrun t => Sys2Proof.Machine.execStallOverrun t s
  | .bellRunSet t => Sys2Proof.Machine.execBellRunSet t s
  | .bellRunClear t => Sys2Proof.Machine.execBellRunClear t s
  | .refusedExit => Sys2Proof.Machine.execRefusedExit s
  | .t0Write which v => Sys2Proof.Machine.execT0Write which v s
  | .bellWordRx port p tr crcOk rx t => Sys2Proof.Machine.execBellWordRx port p tr crcOk rx t s
  | .bellWordMissing => Sys2Proof.Machine.execBellWordMissing s
  | .bellLost t => Sys2Proof.Machine.execBellLost t s
  | .noLead t => Sys2Proof.Machine.execNoLead t s
  | .laneCdrLock lane t => Sys2Proof.Machine.execLaneCdrLock lane t s
  | .laneBlockRx lane hdr payload => Sys2Proof.Machine.execLaneBlockRx lane hdr payload s
  | .lockGained lane => Sys2Proof.Machine.execLockGained lane s
  | .lockLoss lane => Sys2Proof.Machine.execLockLoss lane s
  | .lanePowerWrite lane v => Sys2Proof.Machine.execLanePowerWrite lane v s
  | .readapt lane => Sys2Proof.Machine.execReadapt lane s
  | .adaptationDone lane peak t => Sys2Proof.Machine.execAdaptationDone lane peak t s
  | .groupEnable g v => Sys2Proof.Machine.execGroupEnable g v s
  | .sampleFrameRx g t lanes => Sys2Proof.Machine.execSampleFrameRx g t lanes s
  | .sampleRelease k => Sys2Proof.Machine.execSampleRelease k s
  | .epochMessageTx g te t => Sys2Proof.Machine.execEpochMessageTx g te t s
  | .ackMessageTx g t => Sys2Proof.Machine.execAckMessageTx g t s
  | .dcClear g => Sys2Proof.Machine.execDcClear g s
  | .ncoArm t => Sys2Proof.Machine.execNcoArm t s
  | .ncoPhaseReset k => Sys2Proof.Machine.execNcoPhaseReset k s
  | .resamplerOutput n => Sys2Proof.Machine.execResamplerOutput n s
  | .polyCommit v t => Sys2Proof.Machine.execPolyCommit v t s
  | .polyPageChange f => Sys2Proof.Machine.execPolyPageChange f s
  | .polyExpired f => Sys2Proof.Machine.execPolyExpired f s
  | .coefDataAccess write v => Sys2Proof.Machine.execCoefDataAccess write v s
  | .bankSwapCmd v => Sys2Proof.Machine.execBankSwapCmd v s
  | .bankSwapDone g => Sys2Proof.Machine.execBankSwapDone g s
  | .thresholdEvent input => Sys2Proof.Machine.execThresholdEvent input s
  | .spectrumComplete m => Sys2Proof.Machine.execSpectrumComplete m s
  | .windowDataAccess write v => Sys2Proof.Machine.execWindowDataAccess write v s
  | .windowSwapCmd t => Sys2Proof.Machine.execWindowSwapCmd t s
  | .windowSwap m => Sys2Proof.Machine.execWindowSwap m s
  | .fringeCommit v t => Sys2Proof.Machine.execFringeCommit v t s
  | .fringePageChange f => Sys2Proof.Machine.execFringePageChange f s
  | .fringeExpired f => Sys2Proof.Machine.execFringeExpired f s
  | .scaleDataAccess write v => Sys2Proof.Machine.execScaleDataAccess write v s
  | .scaleCommit v t => Sys2Proof.Machine.execScaleCommit v t s
  | .scaleBankChange f => Sys2Proof.Machine.execScaleBankChange f s
  | .pwrgoodRise straps => Sys2Proof.Machine.execPwrgoodRise straps s
  | .pwrgoodFall t => Sys2Proof.Machine.execPwrgoodFall t s
  | .pitchWordTx t => Sys2Proof.Machine.execPitchWordTx t s
  | .pitchWordRx w => Sys2Proof.Machine.execPitchWordRx w s
  | .orphan t => Sys2Proof.Machine.execOrphan t s
  | .pitchRecall t => Sys2Proof.Machine.execPitchRecall t s
  | .pitchAssign v => Sys2Proof.Machine.execPitchAssign v s
  | .assignmentFrameRx port frame room => Sys2Proof.Machine.execAssignmentFrameRx port frame room s
  | .canPortPowerWrite port v => Sys2Proof.Machine.execCanPortPowerWrite port v s
  | .portEnable port => Sys2Proof.Machine.execPortEnable port s
  | .portDisable port => Sys2Proof.Machine.execPortDisable port s
  | .portTrained port t => Sys2Proof.Machine.execPortTrained port t s
  | .helloTx port => Sys2Proof.Machine.execHelloTx port s
  | .helloRx port p tr crcOk t => Sys2Proof.Machine.execHelloRx port p tr crcOk t s
  | .portDown port lanes => Sys2Proof.Machine.execPortDown port lanes s
  | .helloTimeout port t => Sys2Proof.Machine.execHelloTimeout port t s
  | .dataPacketRx port p tr crcOk t => Sys2Proof.Machine.execDataPacketRx port p tr crcOk t s
  | .creditPacketRx port p tr crcOk t => Sys2Proof.Machine.execCreditPacketRx port p tr crcOk t s
  | .unknownKindPacketRx port p tr crcOk t => Sys2Proof.Machine.execUnknownKindPacketRx port p tr crcOk t s
  | .ackTx port => Sys2Proof.Machine.execAckTx port s
  | .replayTimeout port t => Sys2Proof.Machine.execReplayTimeout port t s
  | .replayLimit port => Sys2Proof.Machine.execReplayLimit port s
  | .portTransmit port t => Sys2Proof.Machine.execPortTransmit port t s
  | .voqStarve port voq t => Sys2Proof.Machine.execVoqStarve port voq t s
  | .probeTx port t => Sys2Proof.Machine.execProbeTx port t s
  | .probeRx port p tr crcOk rx t => Sys2Proof.Machine.execProbeRx port p tr crcOk rx t s
  | .probeReplyRx port p tr crcOk rx t => Sys2Proof.Machine.execProbeReplyRx port p tr crcOk rx t s
  | .captureCastRx port p tr crcOk t => Sys2Proof.Machine.execCaptureCastRx port p tr crcOk t s
  | .joinCastRx port p tr crcOk t => Sys2Proof.Machine.execJoinCastRx port p tr crcOk t s
  | .parkCastRx port p tr crcOk t => Sys2Proof.Machine.execParkCastRx port p tr crcOk t s
  | .parkSet t => Sys2Proof.Machine.execParkSet t s
  | .parkClear t => Sys2Proof.Machine.execParkClear t s
  | .ringCellStore voq t => Sys2Proof.Machine.execRingCellStore voq t s
  | .ringFrameClose t => Sys2Proof.Machine.execRingFrameClose t s
  | .hostTrigger t => Sys2Proof.Machine.execHostTrigger t s
  | .captureTrigger t => Sys2Proof.Machine.execCaptureTrigger t s
  | .captureReleaseRequest v => Sys2Proof.Machine.execCaptureReleaseRequest v s
  | .readoutStart v t => Sys2Proof.Machine.execReadoutStart v t s
  | .readoutAbort t => Sys2Proof.Machine.execReadoutAbort t s
  | .capturePacket t => Sys2Proof.Machine.execCapturePacket t s
  | .readoutDone t => Sys2Proof.Machine.execReadoutDone t s
  | .windowLoadStart die t => Sys2Proof.Machine.execWindowLoadStart die t s
  | .windowBlockLoaded die t => Sys2Proof.Machine.execWindowBlockLoaded die t s
  | .tileChannelStart die t => Sys2Proof.Machine.execTileChannelStart die t s
  | .tileChannelEnd die t => Sys2Proof.Machine.execTileChannelEnd die t s
  | .partialSumRetire die intact t => Sys2Proof.Machine.execPartialSumRetire die intact t s
  | .dseqRead master => Sys2Proof.Machine.execDseqRead master s
  | .aislePassStart die t => Sys2Proof.Machine.execAislePassStart die t s
  | .aislePassEnd die t => Sys2Proof.Machine.execAislePassEnd die t s
  | .gainCommit v => Sys2Proof.Machine.execGainCommit v s
  | .contextCommit v t => Sys2Proof.Machine.execContextCommit v t s
  | .beamAdd v => Sys2Proof.Machine.execBeamAdd v s
  | .crownPublish t => Sys2Proof.Machine.execCrownPublish t s
  | .crownPartialTx t => Sys2Proof.Machine.execCrownPartialTx t s
  | .crownPartialRx port frame room t => Sys2Proof.Machine.execCrownPartialRx port frame room t s
  | .crownCanopyRank t => Sys2Proof.Machine.execCrownCanopyRank t s
  | .calChannelEnd t => Sys2Proof.Machine.execCalChannelEnd t s
  | .mailboxHeadRead b m t => Sys2Proof.Machine.execMailboxHeadRead b m t s
  | .outputPortUp port lock align fec => Sys2Proof.Machine.execOutputPortUp port lock align fec s
  | .outputPortDown port lock align fec => Sys2Proof.Machine.execOutputPortDown port lock align fec s
  | .outputRxDiscard port frames cor unc => Sys2Proof.Machine.execOutputRxDiscard port frames cor unc s
  | .streamEnable v => Sys2Proof.Machine.execStreamEnable v s
  | .dumpFormatWrite v => Sys2Proof.Machine.execDumpFormatWrite v s
  | .outputPacketTx port t => Sys2Proof.Machine.execOutputPacketTx port t s
  | .dumpPacket t => Sys2Proof.Machine.execDumpPacket t s
  | .manifestPacket t => Sys2Proof.Machine.execManifestPacket t s
  | .manifestSignaturePacket t => Sys2Proof.Machine.execManifestSignaturePacket t s
  | .beamvPacket t => Sys2Proof.Machine.execBeamvPacket t s
  | .beamdPacket t => Sys2Proof.Machine.execBeamdPacket t s
  | .eventPacket t => Sys2Proof.Machine.execEventPacket t s
  | .dramInitDone failed t => Sys2Proof.Machine.execDramInitDone failed t s
  | .dramEnable v => Sys2Proof.Machine.execDramEnable v s
  | .dramRetrain failed t => Sys2Proof.Machine.execDramRetrain failed t s
  | .dramRead req addr hint t => Sys2Proof.Machine.execDramRead req addr hint t s
  | .dramWrite req addr hint be t data => Sys2Proof.Machine.execDramWrite req addr hint be t data s
  | .dramRefresh bank t => Sys2Proof.Machine.execDramRefresh bank t s
  | .requestAgeUp t => Sys2Proof.Machine.execRequestAgeUp t s
  | .rowCloseTimer bank t => Sys2Proof.Machine.execRowCloseTimer bank t s
  | .rowHammerThreshold bank => Sys2Proof.Machine.execRowHammerThreshold bank s
  | .rowHammerWindowEnd t => Sys2Proof.Machine.execRowHammerWindowEnd t s
  | .patrolScrub t => Sys2Proof.Machine.execPatrolScrub t s
  | .caParityError ch sc replayed again t => Sys2Proof.Machine.execCaParityError ch sc replayed again t s
  | .ueAddrRead master => Sys2Proof.Machine.execUeAddrRead master s
  | .nop core dc => Sys2Proof.Machine.execNop core dc s
  | .br core dc => Sys2Proof.Machine.execBr core dc s
  | .brcc core dc => Sys2Proof.Machine.execBrcc core dc s
  | .call core dc => Sys2Proof.Machine.execCall core dc s
  | .ret core dc => Sys2Proof.Machine.execRet core dc s
  | .rti core dc => Sys2Proof.Machine.execRti core dc s
  | .loop core dc => Sys2Proof.Machine.execLoop core dc s
  | .wait core dc => Sys2Proof.Machine.execWait core dc s
  | .halt core dc => Sys2Proof.Machine.execHalt core dc s
  | .fence core dc => Sys2Proof.Machine.execFence core dc s
  | .mpy core dc => Sys2Proof.Machine.execMpy core dc s
  | .mac core dc => Sys2Proof.Machine.execMac core dc s
  | .msu core dc => Sys2Proof.Machine.execMsu core dc s
  | .dualFetch core dc => Sys2Proof.Machine.execDualFetch core dc s
  | .accAdd core dc => Sys2Proof.Machine.execAccAdd core dc s
  | .accSub core dc => Sys2Proof.Machine.execAccSub core dc s
  | .neg core dc => Sys2Proof.Machine.execNeg core dc s
  | .abs core dc => Sys2Proof.Machine.execAbs core dc s
  | .clr core dc => Sys2Proof.Machine.execClr core dc s
  | .asl core dc => Sys2Proof.Machine.execAsl core dc s
  | .asr core dc => Sys2Proof.Machine.execAsr core dc s
  | .cmp core dc => Sys2Proof.Machine.execCmp core dc s
  | .addd core dc => Sys2Proof.Machine.execAddd core dc s
  | .divs core dc => Sys2Proof.Machine.execDivs core dc s
  | .and core dc => Sys2Proof.Machine.execAnd core dc s
  | .or core dc => Sys2Proof.Machine.execOr core dc s
  | .xor core dc => Sys2Proof.Machine.execXor core dc s
  | .add16 core dc => Sys2Proof.Machine.execAdd16 core dc s
  | .sub16 core dc => Sys2Proof.Machine.execSub16 core dc s
  | .mov core dc => Sys2Proof.Machine.execMov core dc s
  | .ld core dc => Sys2Proof.Machine.execLd core dc s
  | .st core dc => Sys2Proof.Machine.execSt core dc s
  | .ld2 core dc => Sys2Proof.Machine.execLd2 core dc s
  | .st2 core dc => Sys2Proof.Machine.execSt2 core dc s
  | .ldi core dc => Sys2Proof.Machine.execLdi core dc s
  | .fld core dc => Sys2Proof.Machine.execFld core dc s
  | .fst core dc => Sys2Proof.Machine.execFst core dc s
  | .fsta core dc => Sys2Proof.Machine.execFsta core dc s
  | .farStoreComplete core fail t => Sys2Proof.Machine.execFarStoreComplete core fail t s
  | .farLoadComplete core fail t => Sys2Proof.Machine.execFarLoadComplete core fail t s
  | .interruptEntry core => Sys2Proof.Machine.execInterruptEntry core s
  | .coreWake core => Sys2Proof.Machine.execCoreWake core s
  | .timerExpire core dc => Sys2Proof.Machine.execTimerExpire core dc s
  | .doorbellWrite core v => Sys2Proof.Machine.execDoorbellWrite core v s
  | .localMemoryAccess write v => Sys2Proof.Machine.execLocalMemoryAccess write v s
  | .coreRun core v => Sys2Proof.Machine.execCoreRun core v s
  | .coreHalt core v => Sys2Proof.Machine.execCoreHalt core v s
  | .jobPush k t => Sys2Proof.Machine.execJobPush k t s
  | .jobqPop core dc => Sys2Proof.Machine.execJobqPop core dc s
  | .jobDone core dc => Sys2Proof.Machine.execJobDone core dc s
  | .jobLate k t => Sys2Proof.Machine.execJobLate k t s
  | .flagsSet v => Sys2Proof.Machine.execFlagsSet v s
  | .flagsClr v => Sys2Proof.Machine.execFlagsClr v s
  | .todMessageRx r msg after t => Sys2Proof.Machine.execTodMessageRx r msg after t s
  | .esmcPduRx port event ql t => Sys2Proof.Machine.execEsmcPduRx port event ql t s
  | .esmcTimeout port t => Sys2Proof.Machine.execEsmcTimeout port t s
  | .esmcPduTx port t => Sys2Proof.Machine.execEsmcPduTx port t s
  | .refDisqualify r cause t => Sys2Proof.Machine.execRefDisqualify r cause t s
  | .refAvailable r t => Sys2Proof.Machine.execRefAvailable r t s
  | .refSelectEval t => Sys2Proof.Machine.execRefSelectEval t s
  | .switchSettled t => Sys2Proof.Machine.execSwitchSettled t s
  | .disagreeCheck foff toff t => Sys2Proof.Machine.execDisagreeCheck foff toff t s
  | .dpllLock t => Sys2Proof.Machine.execDpllLock t s
  | .forceHoldover v t => Sys2Proof.Machine.execForceHoldover v t s
  | .holdoverExpired t => Sys2Proof.Machine.execHoldoverExpired t s
  | .oscLost t => Sys2Proof.Machine.execOscLost t s
  | .oscRestored t => Sys2Proof.Machine.execOscRestored t s
  | .takeover t => Sys2Proof.Machine.execTakeover t s
  | .melierMismatch t => Sys2Proof.Machine.execMelierMismatch t s
  | .timeCoreFault t => Sys2Proof.Machine.execTimeCoreFault t s
  | .plannedSwap v t => Sys2Proof.Machine.execPlannedSwap v t s
  | .swapMonitorEnd mismatch t => Sys2Proof.Machine.execSwapMonitorEnd mismatch t s
  | .resync v t => Sys2Proof.Machine.execResync v t s
  | .resyncDone t => Sys2Proof.Machine.execResyncDone t s
  | .pairRst v t => Sys2Proof.Machine.execPairRst v t s
  | .melierStartupDone t => Sys2Proof.Machine.execMelierStartupDone t s
  | .stampEdge src fall t => Sys2Proof.Machine.execStampEdge src fall t s
  | .timeSetCmd v t => Sys2Proof.Machine.execTimeSetCmd v t s
  | .nowRead master t => Sys2Proof.Machine.execNowRead master t s
  | .stampQueuePop master => Sys2Proof.Machine.execStampQueuePop master s
  | .svcFrameRx port frame fcsOk room tx t => Sys2Proof.Machine.execSvcFrameRx port frame fcsOk room tx t s
  | .ptpMessageRx port frame room tx t => Sys2Proof.Machine.execPtpMessageRx port frame room tx t s
  | .twoStepEntryTimeout t => Sys2Proof.Machine.execTwoStepEntryTimeout t s
  | .pdelayReqTx port t => Sys2Proof.Machine.execPdelayReqTx port t s
  | .pdelayReqRx port frame tx t => Sys2Proof.Machine.execPdelayReqRx port frame tx t s
  | .pdelayRespRx port frame t => Sys2Proof.Machine.execPdelayRespRx port frame t s
  | .pdFail port t => Sys2Proof.Machine.execPdFail port t s
  | .slaveEnable v t => Sys2Proof.Machine.execSlaveEnable v t s
  | .announceRx frame t => Sys2Proof.Machine.execAnnounceRx frame t s
  | .announceTimeout t => Sys2Proof.Machine.execAnnounceTimeout t s
  | .syncRx frame t => Sys2Proof.Machine.execSyncRx frame t s
  | .delayReqTx t => Sys2Proof.Machine.execDelayReqTx t s
  | .delayRespRx frame t => Sys2Proof.Machine.execDelayRespRx frame t s
  | .svcLinkUp port t => Sys2Proof.Machine.execSvcLinkUp port t s
  | .svcLinkDown port t => Sys2Proof.Machine.execSvcLinkDown port t s
  | .slaveFaultRecover t => Sys2Proof.Machine.execSlaveFaultRecover t s
  | .inputDelayCommit v t => Sys2Proof.Machine.execInputDelayCommit v t s
  | .xtalStable => Sys2Proof.Machine.execXtalStable s
  | .xtalFail => Sys2Proof.Machine.execXtalFail s
  | .xtalLost => Sys2Proof.Machine.execXtalLost s
  | .xtalRestart v => Sys2Proof.Machine.execXtalRestart v s
  | .pllEnable k v => Sys2Proof.Machine.execPllEnable k v s
  | .pllConfigWrite k ctrl v => Sys2Proof.Machine.execPllConfigWrite k ctrl v s
  | .pllLock k => Sys2Proof.Machine.execPllLock k s
  | .pllUnlock k => Sys2Proof.Machine.execPllUnlock k s
  | .clockSourceWrite k v => Sys2Proof.Machine.execClockSourceWrite k v s
  | .swDone k => Sys2Proof.Machine.execSwDone k s
  | .forcedSwitch k => Sys2Proof.Machine.execForcedSwitch k s
  | .gateClose v quiet => Sys2Proof.Machine.execGateClose v quiet s
  | .gateOpen v => Sys2Proof.Machine.execGateOpen v s
  | .gateCloseDone g => Sys2Proof.Machine.execGateCloseDone g s
  | .gateCloseTimeout g => Sys2Proof.Machine.execGateCloseTimeout g s
  | .voteWrite d master v t => Sys2Proof.Machine.execVoteWrite d master v t s
  | .domainPowerUp d t => Sys2Proof.Machine.execDomainPowerUp d t s
  | .domainPowerDown d t => Sys2Proof.Machine.execDomainPowerDown d t s
  | .domainDrainTimeout d t => Sys2Proof.Machine.execDomainDrainTimeout d t s
  | .thermalVoteRelease d t => Sys2Proof.Machine.execThermalVoteRelease d t s
  | .deepEntryRequest v t => Sys2Proof.Machine.execDeepEntryRequest v t s
  | .deepEntryComplete t => Sys2Proof.Machine.execDeepEntryComplete t s
  | .wakeEdge t => Sys2Proof.Machine.execWakeEdge t s
  | .brownout straps => Sys2Proof.Machine.execBrownout straps s
  | .powerUpStepDone geom upset t => Sys2Proof.Machine.execPowerUpStepDone geom upset t s
  | .powerUpStepTimeout t => Sys2Proof.Machine.execPowerUpStepTimeout t s
  | .powerUpRetry t => Sys2Proof.Machine.execPowerUpRetry t s
  | .retentionBadClear v t => Sys2Proof.Machine.execRetentionBadClear v t s
  | .pmbusRead rail raw valid t => Sys2Proof.Machine.execPmbusRead rail raw valid t s
  | .correctionUpdate rail t => Sys2Proof.Machine.execCorrectionUpdate rail t s
  | .pmbLost rail t => Sys2Proof.Machine.execPmbLost rail t s
  | .meterRequest v t => Sys2Proof.Machine.execMeterRequest v t s
  | .ledgerPlan t => Sys2Proof.Machine.execLedgerPlan t s
  | .ledgerSlotEnd rails active t => Sys2Proof.Machine.execLedgerSlotEnd rails active t s
  | .ledgerReport t => Sys2Proof.Machine.execLedgerReport t s
  | .sensorConversion sensor v t => Sys2Proof.Machine.execSensorConversion sensor v t s
  | .sensorSilent sensor t => Sys2Proof.Machine.execSensorSilent sensor t s
  | .thermalTick t => Sys2Proof.Machine.execThermalTick t s
  | .thermalTrip sensor t => Sys2Proof.Machine.execThermalTrip sensor t s
  | .tripAck v t => Sys2Proof.Machine.execTripAck v t s
  | .imageLoad v t => Sys2Proof.Machine.execImageLoad v t s
  | .dieCloseNoimg v t => Sys2Proof.Machine.execDieCloseNoimg v t s
  | .imageVerified t => Sys2Proof.Machine.execImageVerified t s
  | .imageApply t => Sys2Proof.Machine.execImageApply t s
  | .flashBootRead t => Sys2Proof.Machine.execFlashBootRead t s
  | .castSend v t => Sys2Proof.Machine.execCastSend v t s
  | .castFrameTx t => Sys2Proof.Machine.execCastFrameTx t s
  | .castFrameRx port frame room t => Sys2Proof.Machine.execCastFrameRx port frame room t s
  | .bootLockClose v t => Sys2Proof.Machine.execBootLockClose v t s
  | .stallReloadDone t => Sys2Proof.Machine.execStallReloadDone t s
  | .stallReloadFail t => Sys2Proof.Machine.execStallReloadFail t s
  | .dieOpen v t => Sys2Proof.Machine.execDieOpen v t s
  | .clerkLoadDone t => Sys2Proof.Machine.execClerkLoadDone t s
  | .provision t => Sys2Proof.Machine.execProvision t s
  | .setroot t => Sys2Proof.Machine.execSetroot t s
  | .setkey slot t => Sys2Proof.Machine.execSetkey slot t s
  | .cert len t => Sys2Proof.Machine.execCert len t s
  | .seal t => Sys2Proof.Machine.execSeal t s
  | .sealComplete ok t => Sys2Proof.Machine.execSealComplete ok t s
  | .attest t => Sys2Proof.Machine.execAttest t s
  | .epoch v t => Sys2Proof.Machine.execEpoch v t s
  | .erase v t => Sys2Proof.Machine.execErase v t s
  | .signatureComplete t => Sys2Proof.Machine.execSignatureComplete t s
  | .violationSensorFire sensors t => Sys2Proof.Machine.execViolationSensorFire sensors t s
  | .policyWrite v t => Sys2Proof.Machine.execPolicyWrite v t s
  | .masterReset v t => Sys2Proof.Machine.execMasterReset v t s
  | .masterDrained m left t => Sys2Proof.Machine.execMasterDrained m left t s
  | .masterRelease v t => Sys2Proof.Machine.execMasterRelease v t s
  | .pcieLinkUp speed width t => Sys2Proof.Machine.execPcieLinkUp speed width t s
  | .pcieLinkDown t => Sys2Proof.Machine.execPcieLinkDown t s
  | .functionLevelReset left t => Sys2Proof.Machine.execFunctionLevelReset left t s
  | .d2dFlitError n again t => Sys2Proof.Machine.execD2dFlitError n again t s
  | .d2dLinkRetrain n t => Sys2Proof.Machine.execD2dLinkRetrain n t s
  | .flashDataRead m t => Sys2Proof.Machine.execFlashDataRead m t s
  | .flashDataWrite m v t => Sys2Proof.Machine.execFlashDataWrite m v t s
  | .flashErase m t => Sys2Proof.Machine.execFlashErase m t s
  | .flashEraseDone t => Sys2Proof.Machine.execFlashEraseDone t s
  | .porterEnable c m t => Sys2Proof.Machine.execPorterEnable c m t s
  | .porterDisable c n m t => Sys2Proof.Machine.execPorterDisable c n m t s
  | .porterTrigger t => Sys2Proof.Machine.execPorterTrigger t s
  | .porterDescriptorEnd c t => Sys2Proof.Machine.execPorterDescriptorEnd c t s
  | .porterXferErr c n t => Sys2Proof.Machine.execPorterXferErr c n t s
  | .eventRouteWrite m d v t => Sys2Proof.Machine.execEventRouteWrite m d v t s
  | .msixUnmask vec mask t => Sys2Proof.Machine.execMsixUnmask vec mask t s
  | .pmcSnapshot prompt t => Sys2Proof.Machine.execPmcSnapshot prompt t s
  | .refQualify r t => Sys2Proof.Machine.execRefQualify r t s
  | .violationSensorClear sensors t => Sys2Proof.Machine.execViolationSensorClear sensors t s

end Sys2Proof.Machine
end

