-- ==== Sys2Proof/WellFormed.lean ====
section
/-! DEFINITION. Which commands are well formed: every number that names a unit of the block names one that exists. A command that is
not well formed has no counterpart outside; the block leaves its state alone or its meaning never looks at the number. -/
namespace Sys2Proof

/-- A lane number (R39). -/
def laneOk (n : Nat) : Bool := n < 80

/-- A lane: one of R39, or one of the 32 of an Ehrah port (R116). -/
def anyLaneOk (n : Nat) : Bool := n < 208

/-- A lane group (R44). -/
def groupOk (n : Nat) : Bool := n < 32

/-- A station input (spec/00_scope.md, dimensions of a device). -/
def inputOk (n : Nat) : Bool := n < 128

/-- A canopy port (spec/05_canopy.md). -/
def canopyPortOk (n : Nat) : Bool := n < 4

/-- An output port (R230). -/
def outputPortOk (n : Nat) : Bool := n < 4

/-- A service port (R328). -/
def servicePortOk (n : Nat) : Bool := n < 2

/-- A stall die (R1). -/
def dieOk (n : Nat) : Bool := n < 6

/-- A clerk core (spec/12_clerks.md). -/
def coreOk (n : Nat) : Bool := n < 16

/-- A master of the fast matrix (R422). -/
def masterOk (n : Nat) : Bool := n < 12

/-- A word of the register region (R6). -/
def registerOk (n : Nat) : Bool := n < 0x1F0000 && n % 4 == 0

/-- A reference candidate (R293). -/
def referenceOk (n : Nat) : Bool := n < 6

/-- A DRAM requester (R253). -/
def requesterOk (n : Nat) : Bool := n < 16

/-- A DRAM channel (R248). -/
def dramChannelOk (n : Nat) : Bool := n < 16

/-- The length of a transaction (R424). -/
def lengthOk (n : Nat) : Bool := decide (1 ≤ n) && n ≤ 65536

/-- A block with a mailbox (R445): crown, calibration, capture, ledger. -/
def mailboxOk (n : Nat) : Bool := [15, 16, 17, 25].contains n

/-- T0_NS, T0_SEC_LO or T0_SEC_HI (spec/01_the_bell.md, registers). -/
def timeWordOk (n : Nat) : Bool := n < 3

/-- A slot of the frame (spec/01_the_bell.md). -/
def slotOk (n : Nat) : Bool := n < 1024

/-- A key slot (R408). -/
def keySlotOk (n : Nat) : Bool := n < 16

/-- A PLL (R342). -/
def pllOk (n : Nat) : Bool := n < 4

/-- A domain clock (spec/15_clocks.md). -/
def clockOk (n : Nat) : Bool := n < 4

/-- A clock gate (R352). -/
def gateOk (n : Nat) : Bool := n < 32

/-- A power domain (R356). -/
def domainOk (n : Nat) : Bool := n < 17

/-- A rail (R372). -/
def railOk (n : Nat) : Bool := n < 13

/-- A junction sensor (R381). -/
def sensorOk (n : Nat) : Bool := n < 28

/-- A set of violation sensors (R419). -/
def sensorSetOk (n : Nat) : Bool := n < 4096

/-- A porter channel (R437). -/
def channelOk (n : Nat) : Bool := n < 32

/-- An MSI-X vector (R443). -/
def vectorOk (n : Nat) : Bool := n < 64

/-- An event-route destination (R441). -/
def destinationOk (n : Nat) : Bool := n < 113

/-- A die-to-die link (R433). -/
def linkOk (n : Nat) : Bool := n < 7

/-- A time-stamp source (R326). -/
def stampSourceOk (n : Nat) : Bool := n < 11

/-- The strap pins (R395). -/
def strapsOk (n : Nat) : Bool := n < 256

/-- A peaking setting (R40). -/
def peakOk (n : Nat) : Bool := n < 16

/-- Every number of the command names something. -/
def Instr.wf (i : Instr) : Bool :=
  match i with
  | .registerWrite m r _ _ => masterOk m && registerOk r
  | .readClear m r _ => masterOk m && registerOk r
  | .latchingRead m r _ => masterOk m && registerOk r
  | .fabricTransaction m _ _ n _ _ _ _ => masterOk m && lengthOk n
  | .targetTimeout _ _ _ => true
  | .errAddrRead master => masterOk master
  | .bellRing _ => true
  | .slotBoundary slot _ => slotOk slot
  | .scheduleItemStart _ _ => true
  | .scheduleItemCutoff _ _ => true
  | .stallOverrun _ => true
  | .bellRunSet _ => true
  | .bellRunClear _ => true
  | .refusedExit => true
  | .t0Write which _ => timeWordOk which
  | .bellWordRx port _ _ _ _ _ => canopyPortOk port
  | .bellWordMissing => true
  | .bellLost _ => true
  | .noLead _ => true
  | .laneCdrLock lane _ => anyLaneOk lane
  | .laneBlockRx lane _ _ => anyLaneOk lane
  | .lockGained lane => anyLaneOk lane
  | .lockLoss lane => anyLaneOk lane
  | .lanePowerWrite lane _ => laneOk lane
  | .readapt lane => laneOk lane
  | .adaptationDone lane peak _ => anyLaneOk lane && peakOk peak
  | .groupEnable g _ => groupOk g
  | .sampleFrameRx g _ _ => groupOk g
  | .sampleRelease _ => true
  | .epochMessageTx g _ _ => groupOk g
  | .ackMessageTx g _ => groupOk g
  | .dcClear g => groupOk g
  | .ncoArm _ => true
  | .ncoPhaseReset _ => true
  | .resamplerOutput _ => true
  | .polyCommit _ _ => true
  | .polyPageChange _ => true
  | .polyExpired _ => true
  | .coefDataAccess _ _ => true
  | .bankSwapCmd _ => true
  | .bankSwapDone g => groupOk g
  | .thresholdEvent input => inputOk input
  | .spectrumComplete _ => true
  | .windowDataAccess _ _ => true
  | .windowSwapCmd _ => true
  | .windowSwap _ => true
  | .fringeCommit _ _ => true
  | .fringePageChange _ => true
  | .fringeExpired _ => true
  | .scaleDataAccess _ _ => true
  | .scaleCommit _ _ => true
  | .scaleBankChange _ => true
  | .pwrgoodRise straps => strapsOk straps
  | .pwrgoodFall _ => true
  | .pitchWordTx _ => true
  | .pitchWordRx _ => true
  | .orphan _ => true
  | .pitchRecall _ => true
  | .pitchAssign _ => true
  | .assignmentFrameRx port _ _ => servicePortOk port
  | .canPortPowerWrite port _ => canopyPortOk port
  | .portEnable port => canopyPortOk port
  | .portDisable port => canopyPortOk port
  | .portTrained port _ => canopyPortOk port
  | .helloTx port => canopyPortOk port
  | .helloRx port _ _ _ _ => canopyPortOk port
  | .portDown port _ => canopyPortOk port
  | .helloTimeout port _ => canopyPortOk port
  | .dataPacketRx port _ _ _ _ => canopyPortOk port
  | .creditPacketRx port _ _ _ _ => canopyPortOk port
  | .unknownKindPacketRx port _ _ _ _ => canopyPortOk port
  | .ackTx port => canopyPortOk port
  | .replayTimeout port _ => canopyPortOk port
  | .replayLimit port => canopyPortOk port
  | .portTransmit port _ => canopyPortOk port
  | .voqStarve port _ _ => canopyPortOk port
  | .probeTx port _ => canopyPortOk port
  | .probeRx port _ _ _ _ _ => canopyPortOk port
  | .probeReplyRx port _ _ _ _ _ => canopyPortOk port
  | .captureCastRx port _ _ _ _ => canopyPortOk port
  | .joinCastRx port _ _ _ _ => canopyPortOk port
  | .parkCastRx port _ _ _ _ => canopyPortOk port
  | .parkSet _ => true
  | .parkClear _ => true
  | .ringCellStore _ _ => true
  | .ringFrameClose _ => true
  | .hostTrigger _ => true
  | .captureTrigger _ => true
  | .captureReleaseRequest _ => true
  | .readoutStart _ _ => true
  | .readoutAbort _ => true
  | .capturePacket _ => true
  | .readoutDone _ => true
  | .windowLoadStart die _ => dieOk die
  | .windowBlockLoaded die _ => dieOk die
  | .tileChannelStart die _ => dieOk die
  | .tileChannelEnd die _ => dieOk die
  | .partialSumRetire die _ _ => dieOk die
  | .dseqRead master => masterOk master
  | .aislePassStart die _ => dieOk die
  | .aislePassEnd die _ => dieOk die
  | .gainCommit _ => true
  | .contextCommit _ _ => true
  | .beamAdd _ => true
  | .crownPublish _ => true
  | .crownPartialTx _ => true
  | .crownPartialRx port _ _ _ => servicePortOk port
  | .crownCanopyRank _ => true
  | .calChannelEnd _ => true
  | .mailboxHeadRead b m _ => mailboxOk b && masterOk m
  | .outputPortUp port _ _ _ => outputPortOk port
  | .outputPortDown port _ _ _ => outputPortOk port
  | .outputRxDiscard port _ _ _ => outputPortOk port
  | .streamEnable _ => true
  | .dumpFormatWrite _ => true
  | .outputPacketTx port _ => outputPortOk port
  | .dumpPacket _ => true
  | .manifestPacket _ => true
  | .manifestSignaturePacket _ => true
  | .beamvPacket _ => true
  | .beamdPacket _ => true
  | .eventPacket _ => true
  | .dramInitDone _ _ => true
  | .dramEnable _ => true
  | .dramRetrain _ _ => true
  | .dramRead req _ _ _ => requesterOk req
  | .dramWrite req _ _ _ _ _ => requesterOk req
  | .dramRefresh _ _ => true
  | .requestAgeUp _ => true
  | .rowCloseTimer _ _ => true
  | .rowHammerThreshold _ => true
  | .rowHammerWindowEnd _ => true
  | .patrolScrub _ => true
  | .caParityError ch _ _ _ _ => dramChannelOk ch
  | .ueAddrRead master => masterOk master
  | .nop core _ => coreOk core
  | .br core _ => coreOk core
  | .brcc core _ => coreOk core
  | .call core _ => coreOk core
  | .ret core _ => coreOk core
  | .rti core _ => coreOk core
  | .loop core _ => coreOk core
  | .wait core _ => coreOk core
  | .halt core _ => coreOk core
  | .fence core _ => coreOk core
  | .mpy core _ => coreOk core
  | .mac core _ => coreOk core
  | .msu core _ => coreOk core
  | .dualFetch core _ => coreOk core
  | .accAdd core _ => coreOk core
  | .accSub core _ => coreOk core
  | .neg core _ => coreOk core
  | .abs core _ => coreOk core
  | .clr core _ => coreOk core
  | .asl core _ => coreOk core
  | .asr core _ => coreOk core
  | .cmp core _ => coreOk core
  | .addd core _ => coreOk core
  | .divs core _ => coreOk core
  | .and core _ => coreOk core
  | .or core _ => coreOk core
  | .xor core _ => coreOk core
  | .add16 core _ => coreOk core
  | .sub16 core _ => coreOk core
  | .mov core _ => coreOk core
  | .ld core _ => coreOk core
  | .st core _ => coreOk core
  | .ld2 core _ => coreOk core
  | .st2 core _ => coreOk core
  | .ldi core _ => coreOk core
  | .fld core _ => coreOk core
  | .fst core _ => coreOk core
  | .fsta core _ => coreOk core
  | .farStoreComplete core _ _ => coreOk core
  | .farLoadComplete core _ _ => coreOk core
  | .interruptEntry core => coreOk core
  | .coreWake core => coreOk core
  | .timerExpire core _ => coreOk core
  | .doorbellWrite core _ => coreOk core
  | .localMemoryAccess _ _ => true
  | .coreRun core _ => coreOk core
  | .coreHalt core _ => coreOk core
  | .jobPush _ _ => true
  | .jobqPop core _ => coreOk core
  | .jobDone core _ => coreOk core
  | .jobLate _ _ => true
  | .flagsSet _ => true
  | .flagsClr _ => true
  | .todMessageRx r _ _ _ => referenceOk r
  | .esmcPduRx port _ _ _ => servicePortOk port
  | .esmcTimeout port _ => servicePortOk port
  | .esmcPduTx port _ => servicePortOk port
  | .refDisqualify r _ _ => referenceOk r
  | .refAvailable r _ => referenceOk r
  | .refSelectEval _ => true
  | .switchSettled _ => true
  | .disagreeCheck _ _ _ => true
  | .dpllLock _ => true
  | .forceHoldover _ _ => true
  | .holdoverExpired _ => true
  | .oscLost _ => true
  | .oscRestored _ => true
  | .takeover _ => true
  | .melierMismatch _ => true
  | .timeCoreFault _ => true
  | .plannedSwap _ _ => true
  | .swapMonitorEnd _ _ => true
  | .resync _ _ => true
  | .resyncDone _ => true
  | .pairRst _ _ => true
  | .melierStartupDone _ => true
  | .stampEdge src _ _ => stampSourceOk src
  | .timeSetCmd _ _ => true
  | .nowRead master _ => masterOk master
  | .stampQueuePop master => masterOk master
  | .svcFrameRx port _ _ _ _ _ => servicePortOk port
  | .ptpMessageRx port _ _ _ _ => servicePortOk port
  | .twoStepEntryTimeout _ => true
  | .pdelayReqTx port _ => servicePortOk port
  | .pdelayReqRx port _ _ _ => servicePortOk port
  | .pdelayRespRx port _ _ => servicePortOk port
  | .pdFail port _ => servicePortOk port
  | .slaveEnable _ _ => true
  | .announceRx _ _ => true
  | .announceTimeout _ => true
  | .syncRx _ _ => true
  | .delayReqTx _ => true
  | .delayRespRx _ _ => true
  | .svcLinkUp port _ => servicePortOk port
  | .svcLinkDown port _ => servicePortOk port
  | .slaveFaultRecover _ => true
  | .inputDelayCommit _ _ => true
  | .xtalStable => true
  | .xtalFail => true
  | .xtalLost => true
  | .xtalRestart _ => true
  | .pllEnable k _ => pllOk k
  | .pllConfigWrite k _ _ => pllOk k
  | .pllLock k => pllOk k
  | .pllUnlock k => pllOk k
  | .clockSourceWrite k _ => clockOk k
  | .swDone k => clockOk k
  | .forcedSwitch k => clockOk k
  | .gateClose _ _ => true
  | .gateOpen _ => true
  | .gateCloseDone g => gateOk g
  | .gateCloseTimeout g => gateOk g
  | .voteWrite d master _ _ => domainOk d && masterOk master
  | .domainPowerUp d _ => domainOk d
  | .domainPowerDown d _ => domainOk d
  | .domainDrainTimeout d _ => domainOk d
  | .thermalVoteRelease d _ => domainOk d
  | .deepEntryRequest _ _ => true
  | .deepEntryComplete _ => true
  | .wakeEdge _ => true
  | .brownout straps => strapsOk straps
  | .powerUpStepDone _ _ _ => true
  | .powerUpStepTimeout _ => true
  | .powerUpRetry _ => true
  | .retentionBadClear _ _ => true
  | .pmbusRead rail _ _ _ => railOk rail
  | .correctionUpdate rail _ => railOk rail
  | .pmbLost rail _ => railOk rail
  | .meterRequest _ _ => true
  | .ledgerPlan _ => true
  | .ledgerSlotEnd _ _ _ => true
  | .ledgerReport _ => true
  | .sensorConversion sensor _ _ => sensorOk sensor
  | .sensorSilent sensor _ => sensorOk sensor
  | .thermalTick _ => true
  | .thermalTrip sensor _ => sensorOk sensor
  | .tripAck _ _ => true
  | .imageLoad _ _ => true
  | .dieCloseNoimg _ _ => true
  | .imageVerified _ => true
  | .imageApply _ => true
  | .flashBootRead _ => true
  | .castSend _ _ => true
  | .castFrameTx _ => true
  | .castFrameRx port _ _ _ => servicePortOk port
  | .bootLockClose _ _ => true
  | .stallReloadDone _ => true
  | .stallReloadFail _ => true
  | .dieOpen _ _ => true
  | .clerkLoadDone _ => true
  | .provision _ => true
  | .setroot _ => true
  | .setkey slot _ => keySlotOk slot
  | .cert _ _ => true
  | .seal _ => true
  | .sealComplete _ _ => true
  | .attest _ => true
  | .epoch _ _ => true
  | .erase _ _ => true
  | .signatureComplete _ => true
  | .violationSensorFire sensors _ => sensorSetOk sensors
  | .policyWrite _ _ => true
  | .masterReset _ _ => true
  | .masterDrained m _ _ => masterOk m
  | .masterRelease _ _ => true
  | .pcieLinkUp _ _ _ => true
  | .pcieLinkDown _ => true
  | .functionLevelReset _ _ => true
  | .d2dFlitError n _ _ => linkOk n
  | .d2dLinkRetrain n _ => linkOk n
  | .flashDataRead m _ => masterOk m
  | .flashDataWrite m _ _ => masterOk m
  | .flashErase m _ => masterOk m
  | .flashEraseDone _ => true
  | .porterEnable c m _ => channelOk c && masterOk m
  | .porterDisable c _ m _ => channelOk c && masterOk m
  | .porterTrigger _ => true
  | .porterDescriptorEnd c _ => channelOk c
  | .porterXferErr c _ _ => channelOk c
  | .eventRouteWrite m d _ _ => masterOk m && destinationOk d
  | .msixUnmask vec _ _ => vectorOk vec
  | .pmcSnapshot _ _ => true
  | .refQualify r _ => referenceOk r
  | .violationSensorClear sensors _ => sensorSetOk sensors

end Sys2Proof
end

