-- ==== Sys2Proof/Safety.lean ====
section
/-! DEFINITION. What counts as a safe state and a safe step of the block, in the terms the statements use. -/
namespace Sys2Proof.Machine

/-- The block has as many units of each kind as the part: 80 lanes in 32 groups (R44), 128 inputs, 4 canopy ports of 32 lanes, 64 ring
slots and 4 capture records, 6 stall dies, 13 rails, 28 sensors, 32 porter channels, 16 clerk cores, 2 service ports, 4 power-up steps. -/
def Shape (s : State) : Prop :=
  s.ing.lanes.length = 80 ∧ s.ing.groups.length = 32 ∧ s.front.ins.length = 128 ∧ s.can.ports.length = 4 ∧ s.can.lanes.length = 128 ∧ s.ring.slots.length = 64
    ∧ s.ring.recs.length = 4 ∧ s.corr.dies.length = 6 ∧ s.led.rails.length = 13 ∧ s.thm.length = 28 ∧ s.por.length = 32
    ∧ s.cores.length = 16 ∧ s.ptp.pd.length = 2 ∧ s.ptp.egress.length = 2 ∧ s.pwr.attempts.length = 4

/-- The invariant of the model: memory, the coefficient, window and scale stores and the beams'
context counts are in their canonical form, so equal contents
are equal data, and every list of units has its length. -/
def BlockInv (s : State) : Prop :=
  Memory.wf s.mem = true ∧ Store.wf 0 s.front.coef = true ∧ Store.wf 0 s.chan.win = true ∧ Store.wf 0 s.chan.scales = true ∧
    Store.wf 0 s.aisle.nin = true ∧ Shape s

/-- A step is safe where it answers a next state: no command stops the block. -/
def SafeStep (s : State) : Prop := ∃ s', step s = .next s'

/-- Command c takes s to a next state of which P holds. -/
def Completes (c : Instr) (s : State) (P : State → Prop) : Prop := ∃ u, exec c s = .next u ∧ P u

/-- An access of master m to register r is performed at once: its master may issue, its target takes it and does not refuse it (R2, R353,
R354, R359, R424). -/
def State.accessible (s : State) (m r : Nat) : Bool := s.mayAccess m r && !s.regWaits r && !s.regRefused r

/-- No outstanding transaction waits for its target (R353, R428). -/
def State.noneWait (s : State) : Prop := ∀ x ∈ s.mtx.out, x.waits = false

/-- Every byte of [a, a + n) lies in the trunk SRAM outside the context pages in use, no word of it is in error, and the SRAM answers. -/
def State.trunkReady (s : State) (a n : Nat) : Prop :=
  s.domOn 1 = true ∧ s.clockRuns 2 = true ∧ s.badWords a n = [] ∧
    ∀ i, i < n → s.place (a + i) = .trunk ∧ s.ctxInUse (a + i) = false

/-- The open slot of frame f: the one placed last, where an index that came back holds the number twice (R138). -/
def State.openSlotOf (s : State) (f : Nat) : Option Nat := newestSlot (s.ringSlots.filter (fun p => p.1.frame == some f && p.1.isOpen))

/-- A packet of a kind reaches an output port: the kind is on, its stream enabled, and a port of its stream entry is up (R232, R236). -/
def State.productOpen (s : State) (kind : Nat) : Prop :=
  s.works 1 27 = true ∧ s.kindOn kind = true ∧ (s.fld OUT.STREN_EN).testBit (s.streamOf kind) = true ∧
    (s.dealPort (s.streamOf kind) (entryPorts (s.streamEntry (s.streamOf kind)))).isSome = true

/-- The packet of a kind with this extension and this data waits at an output port. -/
def State.hasProduct (s : State) (kind : Nat) (ext data : List Byte) : Prop :=
  ∃ p ∈ s.outs.ready, p.kind = kind ∧ p.ext = ext ∧ p.data = data

/-- One more than a counter shows: it stays at its largest value (R11). -/
def countUp (n : Nat) : Nat := min (n + 1) (2 ^ 32 - 1)

/-! ## Frames -/

/-- Clerk core n is as it was but for IPEND, which an event may pend (R283). -/
def CoreKept (s u : State) (n : Nat) : Prop :=
  { u.core n with r := [] } = { s.core n with r := [] } ∧ ∀ k, k ≠ 0x4B → Store.get? (u.core n).r k = Store.get? (s.core n).r k

/-- s with the time and the offset that time slews away, the registers, the free-value counter of u and what events deliver: messages and
edges on their way. -/
def State.eventsFrom (s u : State) : State :=
  { s with now := u.now, up := u.up, mel := { s.mel with offset := u.mel.offset }, regs := u.regs, free := u.free, sent := u.sent,
           msixPend := u.msixPend, cores := u.cores, porTrig := u.porTrig, trigQ := u.trigQ }

/-- u keeps every register outside the blocks of `bs` and the event counters of block 0x1D, which any event may move (R447). -/
def RegsKept (bs : List Nat) (s u : State) : Prop := ∀ r, r / 65536 ∉ bs → r / 65536 ≠ 29 → u.reg r = s.reg r

/-- The frame of a command that writes registers of the blocks of `bs` only: u is w, the clerks run on but for pended events. -/
def Framed (bs : List Nat) (s u w : State) : Prop := u = w ∧ RegsKept bs s u ∧ ∀ n, CoreKept s u n

/-- Commands of the ingest lanes and groups, and of the cascade lanes, which lock and adapt as they do (R39 to R58, R116). -/
def ingestCommand : Instr → Bool
  | .laneCdrLock .. | .laneBlockRx .. | .lockGained .. | .lockLoss .. | .lanePowerWrite .. | .readapt .. | .adaptationDone ..
  | .groupEnable .. | .sampleFrameRx .. | .sampleRelease .. | .epochMessageTx .. | .ackMessageTx .. => true
  | _ => false

/-- Commands of the front filters (R59 to R85). -/
def frontCommand : Instr → Bool
  | .dcClear .. | .ncoArm .. | .ncoPhaseReset .. | .resamplerOutput .. | .polyCommit .. | .polyPageChange .. | .polyExpired ..
  | .bankSwapCmd .. | .bankSwapDone .. | .thresholdEvent .. => true
  | _ => false

/-- Commands of the channeliser (R86 to R105). -/
def channelCommand : Instr → Bool
  | .spectrumComplete .. | .windowSwapCmd .. | .windowSwap .. | .fringeCommit .. | .fringePageChange .. | .fringeExpired ..
  | .scaleCommit .. | .scaleBankChange .. => true
  | _ => false

/-- Accesses to the coefficient, window and scale ports (R80, R92, R104). -/
def portCommand : Instr → Bool
  | .coefDataAccess .. | .windowDataAccess .. | .scaleDataAccess .. => true
  | _ => false

/-- Canopy ports and packets, bell words, HELLO packets and PARK casts apart (R106 to R134). -/
def canopyCommand : Instr → Bool
  | .canPortPowerWrite .. | .portEnable .. | .portDisable .. | .portTrained .. | .helloTx .. | .portDown .. | .helloTimeout ..
  | .dataPacketRx .. | .creditPacketRx .. | .unknownKindPacketRx .. | .ackTx .. | .replayTimeout .. | .replayLimit ..
  | .portTransmit .. | .voqStarve .. | .probeTx .. | .probeRx .. | .probeReplyRx .. | .captureCastRx .. | .joinCastRx .. => true
  | _ => false

/-- Capture and readout commands that store no cell (R139, R143 to R152). -/
def captureCommand : Instr → Bool
  | .ringFrameClose .. | .hostTrigger .. | .captureTrigger .. | .captureReleaseRequest .. | .readoutStart .. | .readoutAbort ..
  | .readoutDone .. => true
  | _ => false

/-- Starts and ends of tile-channels and passes (R153 to R164, R182 to R190). -/
def dieCommand : Instr → Bool
  | .tileChannelStart .. | .tileChannelEnd .. | .aislePassStart .. | .aislePassEnd .. => true
  | _ => false

/-- Commits of the aisles, and what the crown ranks (R186, R191 to R209). -/
def aisleCommand : Instr → Bool
  | .gainCommit .. | .contextCommit .. | .beamAdd .. | .crownCanopyRank .. => true
  | _ => false

/-- Frames of the device's own on the service ports: crown partials, casts and ESMC PDUs (R208, R299, R397). -/
def serviceCommand : Instr → Bool
  | .crownPartialTx .. | .castFrameTx .. | .esmcPduTx .. => true
  | _ => false

/-- Output ports, streams and packets, dump packets apart (R228 to R247). -/
def outputCommand : Instr → Bool
  | .outputPortUp .. | .outputPortDown .. | .outputRxDiscard .. | .streamEnable .. | .dumpFormatWrite .. | .outputPacketTx ..
  | .manifestPacket .. | .manifestSignaturePacket .. | .beamvPacket .. | .beamdPacket .. | .eventPacket .. => true
  | _ => false

/-- DRAM commands that carry out no request where none waits (R248 to R267). -/
def dramCommand : Instr → Bool
  | .dramEnable .. | .dramRefresh .. | .requestAgeUp .. | .rowCloseTimer .. | .rowHammerThreshold .. | .rowHammerWindowEnd ..
  | .patrolScrub .. | .caParityError .. => true
  | _ => false

/-- Reference and Melier commands (R293 to R320). -/
def melierCommand : Instr → Bool
  | .todMessageRx .. | .esmcPduRx .. | .esmcTimeout .. | .refDisqualify .. | .refAvailable .. | .refQualify ..
  | .refSelectEval .. | .switchSettled .. | .disagreeCheck .. | .dpllLock .. | .forceHoldover .. | .holdoverExpired .. | .oscLost ..
  | .oscRestored .. | .takeover .. | .melierMismatch .. | .timeCoreFault .. | .plannedSwap .. | .swapMonitorEnd .. | .resync ..
  | .resyncDone .. | .pairRst .. | .melierStartupDone .. => true
  | _ => false

/-- Station time, stamps, PTP messages and the slave (R321 to R338). -/
def ptpCommand : Instr → Bool
  | .stampEdge .. | .timeSetCmd .. | .nowRead .. | .stampQueuePop .. | .ptpMessageRx .. | .twoStepEntryTimeout .. | .pdelayReqTx ..
  | .pdelayReqRx .. | .pdelayRespRx .. | .pdFail .. | .slaveEnable .. | .announceRx .. | .announceTimeout .. | .syncRx ..
  | .delayReqTx .. | .delayRespRx .. | .svcLinkUp .. | .svcLinkDown .. | .slaveFaultRecover .. | .inputDelayCommit .. => true
  | _ => false

/-- Clock commands (R339 to R355). -/
def clockCommand : Instr → Bool
  | .xtalStable | .xtalFail | .xtalLost | .xtalRestart .. | .pllEnable .. | .pllConfigWrite .. | .pllLock .. | .pllUnlock ..
  | .clockSourceWrite .. | .swDone .. | .forcedSwitch .. | .gateClose .. | .gateOpen .. | .gateCloseDone .. | .gateCloseTimeout .. => true
  | _ => false

/-- Votes, entry requests and the always-on power commands that reset nothing (R356 to R371). -/
def powerCommand : Instr → Bool
  | .voteWrite .. | .deepEntryRequest .. | .thermalVoteRelease .. | .powerUpRetry .. | .retentionBadClear .. | .wakeEdge .. => true
  | _ => false

/-- Ledger and thermal commands that store nothing in memory and reset nothing (R372 to R386). -/
def ledgerCommand : Instr → Bool
  | .pmbusRead .. | .correctionUpdate .. | .pmbLost .. | .meterRequest .. | .ledgerPlan .. | .sensorConversion .. | .sensorSilent ..
  | .thermalTick .. => true
  | _ => false

/-- Loader and security commands that store nothing and reset nothing (R391 to R419). -/
def configCommand : Instr → Bool
  | .bootLockClose .. | .stallReloadFail .. | .castSend .. | .policyWrite .. | .violationSensorClear .. => true
  | _ => false

/-- Commands of the fast matrix that reach no target (R429 to R433, R443, R450). -/
def matrixCommand : Instr → Bool
  | .errAddrRead .. | .masterDrained .. | .pcieLinkUp .. | .d2dFlitError .. | .msixUnmask .. => true
  | _ => false

/-- Reads of registers (R9, R323, R434, R445). -/
def readCommand : Instr → Bool
  | .readClear .. | .latchingRead .. | .mailboxHeadRead .. | .flashDataRead .. | .errAddrRead .. | .nowRead .. | .stampQueuePop ..
  | .ueAddrRead .. | .dseqRead .. => true
  | _ => false

/-! ## Premises of the clerk statements -/

/-- The command of a clerk instruction, for core n after dc cycles. -/
def clerkCommand (op : ClerkOp) (n dc : Nat) : Instr :=
  match op with
  | .nop => .nop n dc | .br => .br n dc | .brcc => .brcc n dc | .call => .call n dc | .ret => .ret n dc | .rti => .rti n dc
  | .loop => .loop n dc | .wait => .wait n dc | .halt => .halt n dc | .fence => .fence n dc | .mpy => .mpy n dc
  | .mac => .mac n dc | .msu => .msu n dc | .dual => .dualFetch n dc | .add => .accAdd n dc | .sub => .accSub n dc
  | .neg => .neg n dc | .abs => .abs n dc | .clr => .clr n dc | .asl => .asl n dc | .asr => .asr n dc | .cmp => .cmp n dc
  | .addd => .addd n dc | .divs => .divs n dc | .and => .and n dc | .or => .or n dc | .xor => .xor n dc
  | .add16 => .add16 n dc | .sub16 => .sub16 n dc | .mov => .mov n dc | .ld => .ld n dc | .st => .st n dc
  | .ld2 => .ld2 n dc | .st2 => .st2 n dc | .ldi => .ldi n dc | .fld => .fld n dc | .fst => .fst n dc | .fsta => .fsta n dc

/-- Core n runs, no local-memory word is in error, and no halt waits: it takes its next step. -/
def CoreSteps (s : State) (n : Nat) : Prop :=
  BlockInv s ∧ n < 16 ∧ s.works 16 25 = true ∧ (s.core n).st = 2 ∧ (s.core n).errs = [] ∧ (s.core n).haltNow = false

/-- The word at core n's PC. -/
def State.clerkWord (s : State) (n : Nat) : Nat := Store.getD (s.core n).pm (s.core n).pc 0

/-- Core n takes its next step and the word at its PC is the operation op, where R278 and R282 allow it. -/
def ClerkReady (s : State) (n dc : Nat) (op : ClerkOp) : Prop :=
  CoreSteps s n ∧ clerkDecode (s.clerkWord n) = some op ∧
    (op.control = true → (s.core n).branch = none ∧ ((s.core n).advance dc).nearLoopEnd = false)

/-- What instruction op does at core n (R272 to R287), dc cycles after the last. -/
def State.clerkDoes (s : State) (n dc : Nat) (op : ClerkOp) : Eff := clerkEff op ((s.core n).advance dc) (s.clerkWord n)

/-- A core as the second instruction after sees it: the delayed writes of R278 done. -/
def Core.settled (c : Core) : Core := c.writeAll c.delayed

end Sys2Proof.Machine
end

