-- ==== Sys2Proof/Certificates/Slice0/Obligations.lean ====
section
/-! DEFINITION. The statements for the provers: what each command does, what it leaves unchanged, and what every step keeps. -/
open Sys2Proof Sys2Proof.Machine

/-- BELL_RUN_SET: an accepted write of RUN sets it, one without an image in force or in recovery is discarded (R17, R411). BELL_RUN_CLEAR,
REFUSED_EXIT, T0_WRITE, BELL_WORD_MISSING, BELL_LOST, NO_LEAD and SLOT_BOUNDARY complete, each with its effect. -/
def Obligations.bell_engine_commands_complete : Prop :=
  (∀ t s, s.recovery = false → s.imaged = true → s.frameLenOk = true → s.flag BEL.CTRL_RUN = false →
    Completes (.bellRunSet t) s (fun u => u.flag BEL.CTRL_RUN = true)) ∧
  (∀ t s, s.recovery = false → s.imaged = true → s.frameLenOk = true → s.flag BEL.CTRL_RUN = false → s.bellState = stSTOPPED →
    s.isLead = true → s.secondLead = false → Completes (.bellRunSet t) s (fun u => u.bellState = stRINGING)) ∧
  (∀ t s, s.recovery = false → s.imaged = true → s.frameLenOk = true → s.flag BEL.CTRL_RUN = false → s.bellState = stSTOPPED →
    s.isLead = false → Completes (.bellRunSet t) s (fun u => u.bellState = stWAIT_LEAD)) ∧
  (∀ t s, s.flag BEL.CTRL_RUN = true → Completes (.bellRunClear t) s (fun u => u.flag BEL.CTRL_RUN = false)) ∧
  (∀ t s, s.recovery = true → Completes (.bellRunSet t) s (fun u => u.flag SEC.STAT_RECOV_REJ = true ∧ u.flag BEL.CTRL_RUN = s.flag BEL.CTRL_RUN)) ∧
  (∀ t s, s.recovery = false → s.imaged = false → Completes (.bellRunSet t) s (fun u => u.flag BEL.STAT_RUN_REJ = true ∧
    u.flag BEL.CTRL_RUN = s.flag BEL.CTRL_RUN)) ∧
  (∀ t s, s.flag BEL.CTRL_RUN = true → s.bellState = stRINGING → s.bell.stopLeft = 0 →
    Completes (.bellRunClear t) s (fun u => u.flag BEL.CTRL_RUN = false ∧ u.bell.stopLeft = 2)) ∧
  (∀ t s, s.flag BEL.CTRL_RUN = true → (s.bellState = stWAIT_LEAD ∨ s.bellState = stACQUIRE) →
    Completes (.bellRunClear t) s (fun u => u.flag BEL.CTRL_RUN = false ∧ u.bellState = stSTOPPED ∧ u.flag BEL.STAT_STOPPED = true)) ∧
  (∀ t s, s.flag BEL.CTRL_RUN = true → (s.bellState = stALIGNED ∨ s.bellState = stFLYWHEEL) → s.bell.clearCnt = none →
    Completes (.bellRunClear t) s (fun u => u.flag BEL.CTRL_RUN = false ∧ u.bell.clearCnt = some 2)) ∧
  (∀ s, s.bellState = stREFUSED → s.flag BEL.STAT_CONFLICT = false → s.flag BEL.CTRL_RUN = false → s.secondLead = false →
    Completes .refusedExit s (fun u => u.bellState = stSTOPPED ∧ u.bell = BellEng.reset)) ∧
  (∀ (v : Word) s, s.isLead = true → s.flag BEL.CTRL_RUN = false → v.toNat < 1000000000 →
    Completes (.t0Write 0 v) s (fun u => u.regN BEL.T0_NS = v.toNat)) ∧
  (∀ (v : Word) s, s.isLead = true → s.flag BEL.CTRL_RUN = false → Completes (.t0Write 1 v) s (fun u => u.reg BEL.T0_SEC_LO = v)) ∧
  (∀ (v : Word) s, s.isLead = true → s.flag BEL.CTRL_RUN = false →
    Completes (.t0Write 2 v) s (fun u => u.regN BEL.T0_SEC_HI = v.toNat % 65536)) ∧
  (∀ s, s.bell.heard = false → (s.bellState = stALIGNED ∨ s.bellState = stFLYWHEEL) →
    Completes .bellWordMissing s (fun u => u.bell.miss = s.bell.miss + 1)) ∧
  (∀ s, s.bell.heard = false → s.bellState = stACQUIRE → s.lostLimit ≤ s.bell.miss + 1 →
    Completes .bellWordMissing s (fun u => u.bellState = stWAIT_LEAD)) ∧
  (∀ t s, s.bellState = stALIGNED → s.lostLimit ≤ s.bell.miss →
    Completes (.bellLost t) s (fun u => u.bellState = stFLYWHEEL ∧ u.flag BEL.STAT_BELL_LOST = true)) ∧
  (∀ t s, s.bellState = stWAIT_LEAD → s.bell.noLeadRaised = false →
    s.bell.waitSince + max (2000000000 * ns) (3 * s.frameLen) ≤ (s.at t).up →
    Completes (.noLead t) s (fun u => u.flag BEL.STAT_NO_LEAD = true ∧ u.bell.noLeadRaised = true)) ∧
  (∀ slot t s, (s.at t).curFrame.isSome = true → slot < 1024 → (s.at t).slotAt slot ≤ (s.at t).now → (s.at t).slotNow = slot →
    Completes (.slotBoundary slot t) s (fun u => u.fld BEL.STATUS_SLOT = slot)) ∧
  (∀ slot t s, (s.at t).curFrame.isSome = true → slot < 1024 → (s.at t).slotAt slot ≤ (s.at t).now →
    Completes (.slotBoundary slot t) s (fun u => u.fld BEL.STATUS_SLOT = (s.at t).slotNow % 1024))

/-- BELL_RING, SCHEDULE_ITEM_START, SCHEDULE_ITEM_CUTOFF, JOB_PUSH and JOB_LATE complete. A ringing engine rings its bell: BELL_LO and BELL_HI
hold its index, the slot is 0 and BELL_OUT pulses (R14, R23, R26); an acquiring engine keeps its index. At a job's START its number goes
into the queues of its cores or, where the ledger sheds it, the skips are counted, and after its END a core that has not reported is
counted late (R290, R291); an aisle item's END cuts its passes off and raises AISLE_CUT (R185). -/
def Obligations.bell_and_items_complete : Prop :=
  (∀ t s, s.bellState = stACQUIRE → (s.at t).nextInstant ≤ ((s.at t).now : Int) →
    Completes (.bellRing t) s (fun u => u.bell.nextIdx = s.nextIndex + 1 ∧ u.bell.heard = false)) ∧
  (∀ t s, s.isRinging = true → (s.at t).nextInstant ≤ ((s.at t).now : Int) → (s.at t).inGap = false → s.domOn 1 = true → s.lastBell = false →
    s.can.parkAt = none → Completes (.bellRing t) s (fun u => u.led.next = none ∧ u.led.meterReq = false)) ∧
  (∀ t s, s.isRinging = true → (s.at t).nextInstant ≤ ((s.at t).now : Int) → (s.at t).inGap = false → s.domOn 1 = true → s.lastBell = false →
    s.can.parkAt = none → Completes (.bellRing t) s (fun u => u.bellIndex = s.nextIndex % 2 ^ 64 ∧ u.fld BEL.STATUS_SLOT = 0 ∧
      (s.flag BEL.BELL_OUT_EN = true →
        .bellOut s.nextIndex (s.fld BEL.BELL_OUT_POL) (clampN 1 1000 (s.fld BEL.BELL_OUT_WIDTH)) ∈ u.sent))) ∧
  (∀ k t s e, s.schedule[k]? = some e → (s.at t).itemDue k e = true → Completes (.scheduleItemStart k t) s (fun u => k ∈ u.started)) ∧
  (∀ k t s e n, s.schedule[k]? = some e → isJob e = true → (s.at t).itemDue k e = true → s.domOn 16 = true → clsSkipped s k = false →
    n ∈ s.jobCores e → n < s.cores.length → (s.core n).jobq.length < 4 → Completes (.scheduleItemStart k t) s (fun u =>
      (u.core n).jobq = (s.core n).jobq ++ [jobNumber e] ∧ ((u.core n).get 0x4B).testBit 1 = true)) ∧
  (∀ k t s e, s.schedule[k]? = some e → (s.at t).itemOver k e = true → Completes (.scheduleItemCutoff k t) s (fun u => k ∈ u.ended)) ∧
  (∀ k t s e n, s.schedule[k]? = some e → isJob e = true → (s.at t).itemOver k e = true → k ∈ s.pushed → s.domOn 16 = true →
    n ∈ s.jobCores e → jobNumber e ∉ (s.core n).done → Completes (.scheduleItemCutoff k t) s (fun u =>
      u.regN (CLE.CORE_LATE n) = min (s.regN (CLE.CORE_LATE n) + 1) (2 ^ 32 - 1) ∧ u.flag CLE.STAT_JOB_LATE = true)) ∧
  (∀ k t s e d p, BlockInv s → s.schedule[k]? = some e → e.engine = 14 → (s.at t).itemOver k e = true → s.corr.frame.isSome = true → d < 6 →
    p ∈ s.passList d → (s.die d).over p = false →
    Completes (.scheduleItemCutoff k t) s (fun u =>
      ({ s with ended := k :: s.ended }.aisleItems p.2 (s.dieChannel d p.1)).any (fun q => q.1 == k) = true →
      (u.die d).over p = true ∧ u.flag AIS.STAT_AISLE_CUT = true)) ∧
  (∀ k t s e n, s.schedule[k]? = some e → isJob e = true → (s.at t).itemDue k e = true → s.domOn 16 = true → clsSkipped s k = false →
    n ∈ s.jobCores e → n < s.cores.length → (s.core n).jobq.length < 4 → Completes (.jobPush k t) s (fun u =>
      k ∈ u.started ∧ k ∈ u.pushed ∧ (u.core n).jobq = (s.core n).jobq ++ [jobNumber e] ∧ ((u.core n).get 0x4B).testBit 1 = true)) ∧
  (∀ k t s e n, s.schedule[k]? = some e → isJob e = true → (s.at t).itemDue k e = true → s.domOn 16 = true → clsSkipped s k = false →
    n ∈ s.jobCores e → 4 ≤ (s.core n).jobq.length → Completes (.jobPush k t) s (fun u =>
      (u.core n).jobq = (s.core n).jobq ∧ u.flag CLE.STAT_JOB_OVF = true)) ∧
  (∀ k t s e, s.schedule[k]? = some e → isJob e = true → (s.at t).itemDue k e = true → s.domOn 16 = true → clsSkipped s k = true →
    Completes (.jobPush k t) s (fun u => k ∈ u.started ∧ ∀ n ∈ s.jobCores e, u.regN (CLE.CORE_SKIP n) = min (s.regN (CLE.CORE_SKIP n) + 1) (2 ^ 32 - 1))) ∧
  (∀ k t s e, s.schedule[k]? = some e → isJob e = true → (s.at t).itemOver k e = true → Completes (.jobLate k t) s (fun u => k ∈ u.ended)) ∧
  (∀ k t s e n, s.schedule[k]? = some e → isJob e = true → (s.at t).itemOver k e = true → k ∈ s.pushed → s.domOn 16 = true →
    n ∈ s.jobCores e → jobNumber e ∉ (s.core n).done → Completes (.jobLate k t) s (fun u =>
      u.regN (CLE.CORE_LATE n) = min (s.regN (CLE.CORE_LATE n) + 1) (2 ^ 32 - 1) ∧ u.flag CLE.STAT_JOB_LATE = true))
/-- The lane commands LANE_CDR_LOCK, LOCK_GAINED, LOCK_LOSS, LANE_BLOCK_RX, LANE_POWER_WRITE, READAPT and ADAPTATION_DONE complete, on ingest lanes
and on the lanes of the Ehrah ports (R40 to R43, R116, R122): an adaptation that READAPT starts ends with ADAPTED set and PEAK_NOW at
the peaking it found. -/
def Obligations.lane_commands_complete : Prop :=
  (∀ n t s, n < 80 → (s.lane n).on = false → s.fld (ING.LANE_CTRL_PWR n) ≤ 1 → Completes (.laneCdrLock n t) s (fun u =>
    u.fld (ING.LANE_STATUS_PWR_NOW n) = s.fld (ING.LANE_CTRL_PWR n) ∧ u.fld (ING.LANE_STATUS_SLIP n) = 0)) ∧
  (∀ n s, n < 80 → (s.lane n).on = true → s.laneLocked n = false → (s.lane n).count = 63 →
    Completes (.lockGained n) s (fun u => u.laneLocked n = true ∧ u.flag ING.STAT_LOCK_GAINED = true)) ∧
  (∀ n s, n < 80 → s.laneLocked n = true → 31 ≤ (s.lane n).recentBad.length → Completes (.lockLoss n) s (fun u =>
    u.laneLocked n = false ∧ u.flag ING.STAT_LOCK_LOSS = true ∧ u.regN (ING.LANE_ERR n) = min (s.regN (ING.LANE_ERR n) + 1) (2 ^ 32 - 1))) ∧
  (∀ n hdr x s, n < 80 → (s.lane n).on = true → s.laneLocked n = true → (hdr % 4 = 0 ∨ hdr % 4 = 3) →
    Completes (.laneBlockRx n hdr x) s (fun u => u.regN (ING.LANE_ERR n) = min (s.regN (ING.LANE_ERR n) + 1) (2 ^ 32 - 1))) ∧
  (∀ n hdr x s, n < 80 → (s.lane n).on = true → s.laneLocked n = false → (hdr % 4 = 0 ∨ hdr % 4 = 3) →
    Completes (.laneBlockRx n hdr x) s (fun u => u.fld (ING.LANE_STATUS_SLIP n) = (s.fld (ING.LANE_STATUS_SLIP n) + 1) % 66)) ∧
  (∀ n hdr x s, BlockInv s → n < 80 → (s.lane n).on = true → s.laneLocked n = false → (s.lane n).count = 63 → (hdr % 4 = 1 ∨ hdr % 4 = 2) →
    Completes (.laneBlockRx n hdr x) s (fun u => u.laneLocked n = true ∧ u.flag ING.STAT_LOCK_GAINED = true)) ∧
  (∀ n (v : Word) s, n < 80 → v.toNat % 4 ≠ 3 → ¬ (s.fld (ING.LANE_CTRL_PWR n) < v.toNat % 4 ∧ s.laneInGroup n = true) →
    Completes (.lanePowerWrite n v) s (fun u => u.fld (ING.LANE_CTRL_PWR n) = v.toNat % 4)) ∧
  (∀ n (v : Word) s, n < 80 → v.toNat % 4 ≠ 3 → s.fld (ING.LANE_CTRL_PWR n) < v.toNat % 4 → s.laneInGroup n = true →
    Completes (.lanePowerWrite n v) s (fun u => u.fld (ING.LANE_CTRL_PWR n) = s.fld (ING.LANE_CTRL_PWR n) ∧ u.flag ING.STAT_REFUSED = true)) ∧
  (∀ n s, BlockInv s → n < 80 → s.laneLocked n = true → s.flag (ING.LANE_CTRL_ADAPT n) = true →
    Completes (.readapt n) s (fun u => (u.lane n).adapting = true ∧ (u.lane n).adaptDue = false ∧
      ∀ peak t, Completes (.adaptationDone n peak t) u (fun w => w.flag (ING.LANE_STATUS_ADAPTED n) = true ∧
        w.fld (ING.LANE_STATUS_PEAK_NOW n) = peak % 16))) ∧
  (∀ n s, BlockInv s → n < 80 → ¬ (s.laneLocked n = true ∧ s.flag (ING.LANE_CTRL_ADAPT n) = true) →
    Completes (.readapt n) s (fun u => (u.lane n).adaptDue = true)) ∧
  (∀ n (v : Word) s, n < 80 → v.toNat % 4 = 2 → s.fld (ING.LANE_STATUS_PWR_NOW n) ≠ 2 → s.laneInGroup n = false → v.toNat.testBit 9 = false →
    Completes (.lanePowerWrite n v) s (fun u => u.fld (ING.LANE_STATUS_PWR_NOW n) = 2 ∧ u.laneLocked n = false)) ∧
  (∀ n t s, BlockInv s → s.canLaneOn n = true → (s.canLane n).on = false → (s.canLane n).locked = false →
    s.fld (CAN.PORT_CTRL_PWR (lanePort n)) ≤ 1 → Completes (.laneCdrLock n t) s (fun u => (u.canLane n).on = true ∧ (u.canLane n).slip = 0)) ∧
  (∀ n s, BlockInv s → s.canLaneOn n = true → (s.canLane n).on = true → (s.canLane n).locked = false → (s.canLane n).count = 63 →
    Completes (.lockGained n) s (fun u => (u.canLane n).locked = true ∧
      u.fld (CAN.PORT_STATUS_LOCKED (lanePort n)) = ((u.portLanes (lanePort n)).filter (fun l => l.locked)).length % 64)) ∧
  (∀ n hdr x s, BlockInv s → s.canLaneOn n = true → (s.canLane n).on = true → (s.canLane n).locked = true → (hdr % 4 = 0 ∨ hdr % 4 = 3) →
    31 ≤ (s.canLane n).recentBad.length → s.portLive (lanePort n) = true → Completes (.laneBlockRx n hdr x) s (fun u =>
      (u.canLane n).locked = false ∧ u.portState (lanePort n) = 1 ∧ u.flag CAN.STAT_PORT_DOWN = true)) ∧
  (∀ n peak t s, n < 80 → (s.lane n).adapting = true → Completes (.adaptationDone n peak t) s (fun u =>
    u.flag (ING.LANE_STATUS_ADAPTED n) = true ∧ u.fld (ING.LANE_STATUS_PEAK_NOW n) = peak % 16))

/-- GROUP_ENABLE, DC_CLEAR, SAMPLE_FRAME_RX, SAMPLE_RELEASE, EPOCH_MESSAGE_TX and ACK_MESSAGE_TX complete (R45, R51, R53 to R58, R63): a
good frame counts in GOOD and its s0 is LAST, one whose CRC fails counts in BAD; a step that no good frame covers is released flagged. -/
def Obligations.group_commands_complete : Prop :=
  (∀ g (v : Word) s, g < 32 → v.toNat.testBit 0 = true → s.grpOn g = false →
    (∀ k, k < s.grpLanes g → s.laneActive (s.grpFirst g + k) = true) → Completes (.groupEnable g v) s (fun u => u.grpOn g = true)) ∧
  (∀ g (v : Word) s, g < 32 → v.toNat.testBit 0 = true → s.grpOn g = false →
    (∃ k, k < s.grpLanes g ∧ s.laneActive (s.grpFirst g + k) = false) →
    Completes (.groupEnable g v) s (fun u => u.grpOn g = false ∧ u.flag ING.STAT_REFUSED = true)) ∧
  (∀ g s, g < 32 → Completes (.dcClear g) s (fun u => ∀ i ∈ s.grpInputList g, u.regN (FFL.IN_MEAN i) = 0)) ∧
  (∀ g t l a s0 s, s.works 2 21 = true → g < 32 → s.grpOn g = true → s.grpDefined g = true → s.rate ≠ 0 → l.length = s.grpLanes g →
    (∀ k f, l[k]? = some f → (s.lane (s.grpFirst g + k)).got = none ∧ s.checkLane g k f = ⟨true, true, true, true⟩ ∧
      leAt f.index 0 8 = s0 ∧ byteAt f.start 3 = 0 ∧ a ≤ f.startAt ∧ f.startAt ≤ a + 64) →
    (s.at t).now * s.rate < s.releaseScaled s0 → s.releaseScaled (s0 + s.grpSteps g - 1) ≤ (s.at t).now * s.rate + 32000 * ns * s.rate →
    Completes (.sampleFrameRx g t l) s (fun u => u.regN (ING.GRP_GOOD g) = min (s.regN (ING.GRP_GOOD g) + 1) (2 ^ 32 - 1) ∧
      u.pair (ING.GRP_LAST_LO g) (ING.GRP_LAST_HI g) = s0)) ∧
  (∀ g t l k f s, s.works 2 21 = true → g < 32 → s.grpOn g = true → s.grpDefined g = true → s.rate ≠ 0 → l[k]? = some f →
    (s.lane (s.grpFirst g + k)).got = none → (s.checkLane g k f).crc = false → Completes (.sampleFrameRx g t l) s (fun u =>
      u.regN (ING.GRP_BAD g) = min (s.regN (ING.GRP_BAD g) + 1) (2 ^ 32 - 1) ∧ u.flag ING.STAT_CRC_FAIL = true)) ∧
  (∀ k s, s.works 2 21 = true → s.rate ≠ 0 → s.releaseNext k = true → Completes (.sampleRelease k) s (fun u => u.ing.newest = some k)) ∧
  (∀ k g s, s.works 2 21 = true → s.rate ≠ 0 → s.releaseNext k = true → g < 32 → s.grpDefined g = true → s.grpOn g = true →
    (∀ f ∈ (s.grp g).frames, ¬ (f.s0 ≤ k ∧ k < f.s0 + f.steps)) → Completes (.sampleRelease k) s (fun u =>
      (u.fld ING.GRP_FLAG_GROUPS).testBit g = true ∧
      u.regN (ING.GRP_FLAGGED g) = min (s.regN (ING.GRP_FLAGGED g) + 1) (2 ^ 32 - 1))) ∧
  (∀ g te t s, (s.at t).returnOpen g = true → (s.at t).epochDue g te = true → Completes (.epochMessageTx g te t) s (fun u =>
    ∃ l b, u.sent = .laneMsg (s.grpFirst g) 1 l b :: s.sent ∧ l.take 8 = ([0xD2#8, 1#8] ++ toBytes 6 te).map (·.toNat))) ∧
  (∀ g t s, (s.at t).returnOpen g = true → s.flag ING.CTRL_ACK_EN = true → (s.grp g).lastAck = none →
    (s.at t).epochDue g (((s.at t).now + 500000000 * ns) / (1000000000 * ns)) = false → Completes (.ackMessageTx g t) s (fun u =>
      ∃ l b, u.sent = .laneMsg (s.grpFirst g) 2 l b :: s.sent ∧
        l.take 6 = ([0xD2#8, 2#8] ++ toBytes 2 (s.grp g).ackGood ++ toBytes 2 (s.grp g).ackBad).map (·.toNat)))

/-- The front-filter commands complete: phase resets, resampler output, position polynomials, coefficient banks, threshold events (R65 to
R86). An output sample is what the resampler computes of the buffer (R73, R74) and RANGE rises where it lies outside it; at its frame a
committed page serves, and without one the old page is stale for a frame (R79). -/
def Obligations.front_filter_commands_complete : Prop :=
  (∀ t s, tooClose s.ing.newest (s.pair FFL.NCO_RST_LO FFL.NCO_RST_HI) = false → Completes (.ncoArm t) s (fun u =>
    u.front.ncoPend = some (s.pair FFL.NCO_RST_LO FFL.NCO_RST_HI) ∧ u.flag FFL.NCO_CMD_PEND = true)) ∧
  (∀ t s, tooClose s.ing.newest (s.pair FFL.NCO_RST_LO FFL.NCO_RST_HI) = true → Completes (.ncoArm t) s (fun u =>
    u.front.ncoPend = s.front.ncoPend ∧ u.flag FFL.STAT_NCO_LATE = true)) ∧
  (∀ k s, s.front.ncoPend = some k → s.nextStepIs k = true → Completes (.ncoPhaseReset k) s (fun u =>
    u.front.ncoPend = none ∧ u.flag FFL.STAT_NCO_RST = true)) ∧
  (∀ n s, s.works 2 22 = true → s.nextOutIs n = true → s.rate ≠ 0 → Completes (.resamplerOutput n) s (fun u => u.front.newestOut = some n)) ∧
  (∀ g i n s, s.works 2 22 = true → s.nextOutIs n = true → s.rate ≠ 0 → n % max 1 s.frameSamples ≠ 0 → g < 32 → s.grpDefined g = true →
    i ∈ s.grpInputList g → (s.resample g i n).2.2.2 = false → Completes (.resamplerOutput n) s (fun u => u.flag FFL.STAT_RANGE = true)) ∧
  (∀ g i n s, BlockInv s → s.works 2 22 = true → s.nextOutIs n = true → s.rate ≠ 0 → n % max 1 s.frameSamples ≠ 0 → g < 32 →
    s.grpDefined g = true → i < 128 → i ∈ s.grpInputList g → (∀ h, h < 32 → s.grpDefined h = true → i ∈ s.grpInputList h → h = g) →
    s.outNeeded n = true → Completes (.resamplerOutput n) s (fun u => (u.input i).outAt n = some (s.resample g i n).1)) ∧
  (∀ (v : Word) t s, s.front.poly.inUse false (v.toNat % 2) = true → Completes (.polyCommit v t) s (fun u =>
    u.flag FFL.STAT_COMMIT_REJ = true ∧ u.front.poly = s.front.poly)) ∧
  (∀ (v : Word) t s, s.front.poly.inUse false (v.toNat % 2) = false → (s.at t).beforeDeadline ((s.at t).fullFrame 31 (v.toNat / 2)) = true →
    Completes (.polyCommit v t) s (fun u =>
      Store.get? u.front.poly.pend (v.toNat % 2) = some ((s.at t).fullFrame 31 (v.toNat / 2)))) ∧
  (∀ (v : Word) t s, s.front.poly.inUse false (v.toNat % 2) = false → (s.at t).beforeDeadline ((s.at t).fullFrame 31 (v.toNat / 2)) = false →
    Completes (.polyCommit v t) s (fun u => u.flag FFL.STAT_POLY_LATE = true ∧ u.flag BEL.STAT_POLY_LATE = true ∧ u.front.poly = s.front.poly)) ∧
  (∀ f s, s.nextOutIs (f * s.frameSamples) = true → s.front.poly.decided ≠ some f →
    Completes (.polyPageChange f) s (fun u => u.front.poly = s.front.poly.change f)) ∧
  (∀ f k s, s.nextOutIs (f * s.frameSamples) = true → s.front.poly.decided ≠ some f → s.front.poly.committed f = some k →
    Completes (.polyPageChange f) s (fun u => u.front.poly.active = k ∧ u.front.poly.frame = some f ∧ u.front.poly.stale = false ∧
      u.front.poly.expired = false)) ∧
  (∀ f s, s.nextOutIs ((f + 1) * s.frameSamples) = true → s.front.poly.decided ≠ some (f + 1) → s.front.poly.committed (f + 1) = none →
    s.front.poly.frame = some f → s.front.poly.expired = false → Completes (.polyPageChange (f + 1)) s (fun u => u.front.poly.stale = true ∧
      u.front.poly.active = s.front.poly.active ∧ (Store.getD u.frameFlags (f + 1) 0).testBit flagStale = true)) ∧
  (∀ f s, s.nextOutIs (f * s.frameSamples) = true → s.front.poly.decided ≠ some f → (s.front.poly.change f).expired = true →
    s.front.poly.expired = false → Completes (.polyExpired f) s (fun u => u.flag FFL.STAT_POLY_EXPIRED = true ∧ u.front.poly.expired = true)) ∧
  (∀ w (v : Word) s, s.accessible 0 FFL.CDATA = true → Completes (.coefDataAccess w v) s (fun u => u.fld FFL.CADDR_ADDR = (s.fld FFL.CADDR_ADDR + 1) % 2 ^ 15)) ∧
  (∀ (v : Word) s, s.accessible 0 FFL.CDATA = true → s.fld FFL.CSEL_KIND = 1 → Completes (.coefDataAccess false v) s (fun u =>
    u.fld FFL.CDATA_COEF = Store.getD s.front.coef (coefKey (s.fld FFL.CSEL_GROUP) 1 (s.fld FFL.CSEL_BANK) (s.fld FFL.CADDR_ADDR)) 0 % 2 ^ 18 ∧
    u.sent = .readData 0 (u.regN FFL.CDATA) :: s.sent)) ∧
  (∀ (v : Word) s, s.accessible 0 FFL.CDATA = true → s.fld FFL.CSEL_KIND = 1 → s.fld FFL.CSEL_BANK ≠ s.fld (FFL.GRP_BANK_RES (s.fld FFL.CSEL_GROUP)) →
    Store.has s.front.swaps (s.fld FFL.CSEL_GROUP) = false → BlockInv s → Completes (.coefDataAccess true v) s (fun u =>
      Store.getD u.front.coef (coefKey (s.fld FFL.CSEL_GROUP) 1 (s.fld FFL.CSEL_BANK) (s.fld FFL.CADDR_ADDR)) 0 = v.toNat % 2 ^ 18)) ∧
  (∀ (v : Word) s, v.toNat.testBit 7 = true → Store.has s.front.swaps (v.toNat % 32) = false →
    tooClose s.ing.newest (s.pair FFL.SWAP_LO FFL.SWAP_HI) = false → Completes (.bankSwapCmd v) s (fun u =>
      u.flag (FFL.GRP_BANK_PEND (v.toNat % 32)) = true ∧
      Store.get? u.front.swaps (v.toNat % 32) = some (s.pair FFL.SWAP_LO FFL.SWAP_HI, v.toNat.testBit 5, v.toNat.testBit 6))) ∧
  (∀ (v : Word) s, v.toNat.testBit 7 = true → Store.has s.front.swaps (v.toNat % 32) = true →
    Completes (.bankSwapCmd v) s (fun u => u.flag FFL.STAT_SWAP_BUSY = true ∧ u.front = s.front)) ∧
  (∀ g w c r s, g < 32 → Store.get? s.front.swaps g = some (w, c, r) → (∀ i ∈ s.grpInputList g, s.crossed g i w c r = true) →
    Completes (.bankSwapDone g) s (fun u => u.flag FFL.STAT_SWAPPED = true ∧ u.flag (FFL.GRP_BANK_PEND g) = false)) ∧
  (∀ i e l n s, BlockInv s → i < 128 → (s.input i).events = e :: l → (s.input i).newest = some n → e.last + 64 ≤ n →
    Completes (.thresholdEvent i) s (fun u => (u.input i).events = l)) ∧
  (∀ i e l n s, i < 128 → (s.input i).events = e :: l → (s.input i).newest = some n → e.last + 64 ≤ n → e.thrB = false →
    Completes (.thresholdEvent i) s (fun u =>
      ((s.fld FFL.DET_ACT_A).testBit 0 = true → u.regN (FFL.IN_CNTA i) = min (s.regN (FFL.IN_CNTA i) + 1) (2 ^ 32 - 1)) ∧
      ((s.fld FFL.DET_ACT_A).testBit 2 = true → u.flag FFL.STAT_THR_A = true ∧ u.regN FFL.EVT_IN = i)))

/-- The channeliser commands complete: spectra, windows, fringe pages and scale banks (R87 to R105). A spectrum with more than FLAGTOL
flagged samples counts in FLAG_SPEC (R95); a swap that is due changes the window bank (R93). -/
def Obligations.channelizer_commands_complete : Prop :=
  (∀ m s, s.works 2 23 = true → s.nextSpecIs m = true → s.supportReady m = true → Completes (.spectrumComplete m) s (fun u =>
    u.chan.newestSpec = some m)) ∧
  (∀ m s, s.works 2 23 = true → s.nextSpecIs m = true → s.supportReady m = true → s.windowDue m = false → m % s.specW ≠ 0 →
    Completes (.spectrumComplete m) s (fun u => u.regN CHN.FLAG_SPEC = min (s.regN CHN.FLAG_SPEC +
      (s.inputsOn.filter (fun i => decide (s.fld CHN.CTRL_FLAGTOL < ((s.support i m).filter (·.flag)).length))).length) (2 ^ 32 - 1))) ∧
  (∀ m s, s.works 2 23 = true → s.nextSpecIs m = true → s.supportReady m = true → s.windowDue m = true →
    Completes (.spectrumComplete m) s (fun u => u.flag CHN.STAT_SWAPPED = true ∧ u.fld CHN.SWAP_CMD_BANK = (1 - s.fld CHN.SWAP_CMD_BANK) % 2)) ∧
  (∀ w (v : Word) s, s.accessible 0 CHN.WDATA = true → Completes (.windowDataAccess w v) s (fun u => u.fld CHN.WADDR_ADDR = (s.fld CHN.WADDR_ADDR + 1) % 2 ^ 17)) ∧
  (∀ (v : Word) s, BlockInv s → s.accessible 0 CHN.WDATA = true → s.fld CHN.WSEL_BANK ≠ s.fld CHN.SWAP_CMD_BANK → s.chan.swap = none → s.fld CHN.WADDR_ADDR < 4 * s.chanN →
    Completes (.windowDataAccess true v) s (fun u =>
      Store.getD u.chan.win (s.fld CHN.WSEL_BANK * 2 ^ 17 + s.fld CHN.WADDR_ADDR) 0 = v.toNat % 2 ^ 18)) ∧
  (∀ t s, s.chan.swap = none → tooClose s.front.newestOut (s.pair CHN.SWAP_LO CHN.SWAP_HI) = false →
    Completes (.windowSwapCmd t) s (fun u => u.chan.swap = some (s.pair CHN.SWAP_LO CHN.SWAP_HI) ∧ u.flag CHN.SWAP_CMD_PEND = true)) ∧
  (∀ m s, s.works 2 23 = true → s.nextSpecIs m = true → s.windowDue m = true → Completes (.windowSwap m) s (fun u =>
    u.chan.swap = none ∧ u.flag CHN.SWAP_CMD_PEND = false ∧ u.flag CHN.SWAP_CMD_READY = true ∧ u.flag CHN.STAT_SWAPPED = true ∧
    u.fld CHN.SWAP_CMD_BANK = (1 - s.fld CHN.SWAP_CMD_BANK) % 2)) ∧
  (∀ (v : Word) t s, s.chan.poly.inUse false (v.toNat % 2) = false → (s.at t).beforeDeadline ((s.at t).fullFrame 31 (v.toNat / 2)) = true →
    Completes (.fringeCommit v t) s (fun u =>
      Store.get? u.chan.poly.pend (v.toNat % 2) = some ((s.at t).fullFrame 31 (v.toNat / 2)))) ∧
  (∀ (v : Word) t s, s.chan.poly.inUse false (v.toNat % 2) = true → Completes (.fringeCommit v t) s (fun u =>
    u.flag CHN.STAT_COMMIT_REJ = true ∧ u.chan.poly = s.chan.poly)) ∧
  (∀ f s, s.nextSpecIs (f * s.specW) = true → s.chan.poly.decided ≠ some f →
    Completes (.fringePageChange f) s (fun u => u.chan.poly = s.chan.poly.change f)) ∧
  (∀ f k s, s.nextSpecIs (f * s.specW) = true → s.chan.poly.decided ≠ some f → s.chan.poly.committed f = some k →
    Completes (.fringePageChange f) s (fun u => u.chan.poly.active = k ∧ u.chan.poly.frame = some f ∧ u.chan.poly.stale = false ∧
      u.chan.poly.expired = false)) ∧
  (∀ f s, s.nextSpecIs (f * s.specW) = true → s.chan.poly.decided ≠ some f → (s.chan.poly.change f).expired = true →
    s.chan.poly.expired = false → Completes (.fringeExpired f) s (fun u => u.flag CHN.STAT_POLY_EXPIRED = true ∧ u.chan.poly.expired = true)) ∧
  (∀ w (v : Word) s, s.accessible 0 CHN.SDATA = true → Completes (.scaleDataAccess w v) s (fun u => u.fld CHN.SADDR_ADDR = (s.fld CHN.SADDR_ADDR + 1) % 2 ^ 22)) ∧
  (∀ (v : Word) s, BlockInv s → s.accessible 0 CHN.SDATA = true → s.chan.scale.inUse true (s.fld CHN.SSEL_BANK) = false →
    s.fld CHN.SADDR_ADDR < 128 * s.chanN → Completes (.scaleDataAccess true v) s (fun u =>
      Store.getD u.chan.scales (s.fld CHN.SSEL_BANK * 2 ^ 22 + s.fld CHN.SADDR_ADDR) 0 = v.toNat % 2 ^ 16)) ∧
  (∀ (v : Word) t s, s.chan.scale.inUse true (v.toNat % 2) = false → (s.at t).beforeDeadline ((s.at t).fullFrame 31 (v.toNat / 2)) = true →
    Completes (.scaleCommit v t) s (fun u =>
      Store.get? u.chan.scale.pend (v.toNat % 2) = some ((s.at t).fullFrame 31 (v.toNat / 2)))) ∧
  (∀ f k s, s.nextSpecIs (f * s.specW) = true → s.chan.scale.committed f = some k →
    Completes (.scaleBankChange f) s (fun u => u.chan.scale.active = k ∧ u.chan.scale.frame = some f))
/-- The pitch commands complete: PITCH_WORD_TX, PITCH_WORD_RX, ORPHAN, PITCH_RECALL, PITCH_ASSIGN, ASSIGNMENT_FRAME_RX. -/
def Obligations.pitch_commands_complete : Prop :=
  (∀ t s, s.hasPitch = true → Completes (.pitchWordTx t) s (fun u => u.sent = .pitchWord (pitchWordOf s.myPitch) :: s.sent)) ∧
  (∀ w s, pitchWordValid w = true → s.fld PIT.STATUS_STATE = 3 →
    Completes (.pitchWordRx w) s (fun u => u.fld PIT.RXWORD_WORD = w.word % 65536 ∧ u.fld PIT.STATUS_STATE = 3)) ∧
  (∀ w s, pitchWordValid w = true → s.fld PIT.STATUS_STATE = 0 → s.pit.lastWord = some (w.word % 256) → w.word % 256 / 64 = 2 →
    w.word % 64 ≠ 0 → Completes (.pitchWordRx w) s (fun u =>
      u.fld PIT.STATUS_STATE = 1 ∧ u.fld PIT.STATUS_PITCH = w.word % 64 ∧ u.fld PIT.STATUS_SRC = 1 ∧ u.flag PIT.STAT_PITCHED = true)) ∧
  (∀ t s, s.fld PIT.STATUS_STATE = 0 → s.pit.timerOn = true → s.pit.timerAt + pitchTimer ≤ (s.at t).up →
    Completes (.orphan t) s (fun u => u.fld PIT.STATUS_STATE = 2 ∧ u.flag PIT.STAT_ORPHAN = true)) ∧
  (∀ t s, s.bellState = stSTOPPED → s.isLead = false → Completes (.pitchRecall t) s (fun u =>
    u.fld PIT.STATUS_STATE = 0 ∧ u.pit.timerOn = true ∧ u.can.leadSerial = 0 ∧ u.can.conflict = false)) ∧
  (∀ t s, s.bellState = stSTOPPED → s.isLead = true → Completes (.pitchRecall t) s (fun u =>
    u.fld PIT.STATUS_STATE = 3 ∧ u.fld PIT.STATUS_PITCH = 0)) ∧
  (∀ t s, s.bellState ≠ stSTOPPED → Completes (.pitchRecall t) s (fun u =>
    u.flag PIT.STAT_ASSIGN_REJ = true ∧ u.fld PIT.STATUS_STATE = s.fld PIT.STATUS_STATE)) ∧
  (∀ (v : Word) s, v.toNat.testBit 6 = true → s.fld PIT.STATUS_STATE = 2 → v.toNat % 64 ≠ 0 → Completes (.pitchAssign v) s (fun u =>
    u.fld PIT.STATUS_STATE = 1 ∧ u.fld PIT.STATUS_PITCH = v.toNat % 64 ∧ u.fld PIT.STATUS_SRC = 2)) ∧
  (∀ (v : Word) s, v.toNat.testBit 6 = true → ¬ (s.fld PIT.STATUS_STATE = 2 ∧ v.toNat % 64 ≠ 0) →
    Completes (.pitchAssign v) s (fun u => u.flag PIT.STAT_ASSIGN_REJ = true)) ∧
  (∀ p f room s, beAt f 12 2 = 0x88B5 → beAt (f.drop 14) 0 2 = 1 → s.fld PIT.STATUS_STATE = 2 → beAt (f.drop 14) 2 8 = s.serial →
    0 < beAt (f.drop 14) 10 1 → beAt (f.drop 14) 10 1 ≤ 63 → beAt (f.drop 14) 11 1 = 0 →
    Completes (.assignmentFrameRx p f room) s (fun u =>
      u.fld PIT.STATUS_STATE = 1 ∧ u.fld PIT.STATUS_PITCH = beAt (f.drop 14) 10 1 ∧ u.fld PIT.STATUS_SRC = 2))

/-- Bringing a canopy port up and down completes (R116, R122). -/
def Obligations.port_commands_complete : Prop :=
  (∀ p (v : Word) s, s.flag (CAN.PORT_CTRL_EN (p % 4)) = false → v.toNat % 4 ≠ 3 → Completes (.canPortPowerWrite p v) s (fun u =>
    u.regN (CAN.PORT_CTRL (p % 4)) % 4 = v.toNat % 4)) ∧
  (∀ p (v : Word) s, s.flag (CAN.PORT_CTRL_EN (p % 4)) = true → v.toNat % 4 ≠ 3 → s.regN (CAN.PORT_CTRL (p % 4)) % 4 < v.toNat % 4 →
    Completes (.canPortPowerWrite p v) s (fun u =>
      u.regN (CAN.PORT_CTRL (p % 4)) % 4 = s.regN (CAN.PORT_CTRL (p % 4)) % 4 ∧ u.flag CAN.STAT_REFUSED = true)) ∧
  (∀ p s, s.regN (CAN.PORT_CTRL (p % 4)) % 4 = 0 → s.portState (p % 4) = 0 → s.domOn 10 = true → Completes (.portEnable p) s (fun u =>
    u.portState (p % 4) = 1 ∧ u.flag (CAN.PORT_CTRL_EN (p % 4)) = true ∧ ∃ l, u.sent = .align (p % 4) :: l)) ∧
  (∀ p s, s.portState (p % 4) ≠ 0 → Completes (.portDisable p) s (fun u =>
    u.portState (p % 4) = 0 ∧ u.flag (CAN.PORT_CTRL_EN (p % 4)) = false)) ∧
  (∀ p t s, s.portState (p % 4) = 1 → s.domOn 10 = true → s.portAligned (p % 4) = true →
    Completes (.portTrained p t) s (fun u => u.portState (p % 4) = 2 ∧
      ∃ k tr l, u.sent = .canopy (p % 4) k tr :: l ∧ k.body = .hello (u.helloOf (p % 4)))) ∧
  (∀ p s, s.portLive (p % 4) = true → s.portUp (p % 4) = false → Completes (.helloTx p) s (fun u =>
    ∃ k tr, u.sent = .canopy (p % 4) k tr :: s.sent ∧ k.body = .hello (s.helloOf (p % 4)) ∧ k.seq = 0)) ∧
  (∀ p s, BlockInv s → s.portUp (p % 4) = true → Completes (.helloTx p) s (fun u =>
    ∃ k, (u.port (p % 4)).ctl = (s.port (p % 4)).ctl ++ [k] ∧ k.body = .hello (s.helloOf (p % 4)))) ∧
  (∀ p (k : Packet) tr t h s, BlockInv s → k.body = .hello h → s.portState (p % 4) = 2 → s.helloOk (p % 4) h = true →
    Completes (.helloRx p k tr true t) s (fun u => u.portState (p % 4) = 3 ∧ u.flag CAN.STAT_PORT_UP = true)) ∧
  (∀ p (k : Packet) tr t h s, k.body = .hello h → s.portState (p % 4) = 2 → s.helloOk (p % 4) h = false →
    Completes (.helloRx p k tr true t) s (fun u => u.portState (p % 4) = 4 ∧ u.flag CAN.STAT_MISMATCH = true)) ∧
  (∀ p n s, s.portLive (p % 4) = true → Completes (.portDown p n) s (fun u =>
    u.portState (p % 4) = 1 ∧ u.flag CAN.STAT_PORT_DOWN = true ∧
    ∀ k, min n 31 ≤ k → k < 32 → (u.canLane (80 + 32 * (p % 4) + k)).locked = false)) ∧
  (∀ p t s, s.portLive (p % 4) = true → (s.port (p % 4)).helloAt + 5000000 * ns ≤ (s.at t).up →
    Completes (.helloTimeout p t) s (fun u => u.portState (p % 4) = 1 ∧ u.flag CAN.STAT_PORT_DOWN = true))

/-- A numbered packet that carries the next SEQ on a port in UP is accepted and counted (R120). -/
def acceptable (s : State) (q : Nat) (k : Packet) (tr : Trailer) : Prop :=
  q < 4 ∧ BlockInv s ∧ s.portUp q = true ∧ k.seq = (s.port q).rxSeq ∧ tr.nak = false

/-- Packets received on a port in UP complete: DATA is queued or dropped, the expected SEQ advances, CRC failures are counted, probes are
answered, replies measured (R120, R125, R126, R129). A new cast is noted and forwarded, a capture trigger, a JOIN or a PARK is taken
(R131 to R133, R148). -/
def Obligations.packet_reception_completes : Prop :=
  (∀ p (k : Packet) tr t l s, k.body = .data l → acceptable s (p % 4) k tr → s.routePort k = none → s.ownParked (s.frameOf k) = false →
    Completes (.dataPacketRx p k tr true t) s (fun u =>
      u.voq (s.voqOf k) = s.voq (s.voqOf k) ++ [{ pkt := k, from? := some (p % 4), since := (s.at t).up, starved := false }])) ∧
  (∀ p (k : Packet) tr t l q s, k.body = .data l → acceptable s (p % 4) k tr → s.routePort k = some q → s.portUp q = false →
    Completes (.dataPacketRx p k tr true t) s (fun u => u.flag CAN.STAT_ROUTE_DROP = true)) ∧
  (∀ p (k : Packet) tr t l s, k.body = .data l → s.portLive (p % 4) = true → Completes (.dataPacketRx p k tr false t) s (fun u =>
    u.regN (CAN.PORT_CRCERR (p % 4)) = min (s.regN (CAN.PORT_CRCERR (p % 4)) + 1) (2 ^ 32 - 1))) ∧
  (∀ p (k : Packet) tr t s, acceptable s (p % 4) k tr → Completes (.unknownKindPacketRx p k tr true t) s (fun u =>
    (u.port (p % 4)).rxSeq = ((s.port (p % 4)).rxSeq + 1) % 65536)) ∧
  (∀ p (k : Packet) (tr : Trailer) t s, BlockInv s → tr.cred = [] → tr.nak = false → s.portUp (p % 4) = true →
    Completes (.creditPacketRx p k tr true t) s (fun u =>
      (u.port (p % 4)).held = (s.port (p % 4)).held.dropWhile (fun h => acked tr.ack h.1.seq))) ∧
  (∀ p (k : Packet) tr rx t t1 s, k.body = .probe t1 → acceptable s (p % 4) k tr → Completes (.probeRx p k tr true rx t) s (fun u =>
    ∃ r, (u.port (p % 4)).ctl = (s.port (p % 4)).ctl ++ [r] ∧ r.body = .probeReply t1 rx 0)) ∧
  (∀ p (k : Packet) tr rx t t1 t2 t3 s, k.body = .probeReply t1 t2 t3 → acceptable s (p % 4) k tr →
    Completes (.probeReplyRx p k tr true rx t) s (fun u =>
      (u.port (p % 4)).rtts = ((((rx : Int) - t1) - ((t3 : Int) - t2)) :: (s.port (p % 4)).rtts).take 16)) ∧
  (∀ p (k : Packet) tr rx t w s, k.body = .bell w → acceptable s (p % 4) k tr → s.isLead = false → s.bellState = stWAIT_LEAD →
    s.bellPort = some (p % 4) → w.dNs * ns + w.dFrac = s.frameLen → Completes (.bellWordRx p k tr true rx t) s (fun u =>
      u.bellState = stACQUIRE ∧ u.bell.baseIdx = w.index ∧ u.regN BEL.T0_NS = w.t0Ns % 2 ^ 30)) ∧
  (∀ p (k : Packet) tr rx t w s, k.body = .bell w → acceptable s (p % 4) k tr → s.isLead = false → s.bellState = stWAIT_LEAD →
    s.bellPort = some (p % 4) → w.dNs * ns + w.dFrac ≠ s.frameLen → Completes (.bellWordRx p k tr true rx t) s (fun u =>
      u.bellState = stWAIT_LEAD ∧ u.flag BEL.STAT_FLEN_MISMATCH = true)) ∧
  (∀ p (k : Packet) tr t c s, k.body = .cast c → c.ckind = 1 → acceptable s (p % 4) k tr → (∀ q ∈ s.can.castsSeen, q.1 ≠ c.origin) →
    s.flag RRG.CTRL_CAST_EN = true → (s.fld RRG.TRIG_EN).testBit 4 = true → s.isParked = false →
    Completes (.captureCastRx p k tr true t) s (fun u => u.flag CAN.STAT_CAST_RX = true ∧
      ∃ l, u.trigQ = l ++ [{ source := 4, tag := c.tag, bell := c.bell, pre := c.pre, post := c.post, origin := c.origin }])) ∧
  (∀ p (k : Packet) tr t c s, k.body = .cast c → c.ckind = 2 → acceptable s (p % 4) k tr → (∀ q ∈ s.can.castsSeen, q.1 ≠ c.origin) →
    Completes (.joinCastRx p k tr true t) s (fun u => u.flag CAN.STAT_CAST_RX = true ∧ (c.origin, c.bell) ∈ u.can.joining)) ∧
  (∀ p (k : Packet) tr t c s, k.body = .cast c → c.ckind = 3 → acceptable s (p % 4) k tr → (∀ q ∈ s.can.castsSeen, q.1 ≠ c.origin) →
    c.bell ≠ 0 → Completes (.parkCastRx p k tr true t) s (fun u => u.flag CAN.STAT_CAST_RX = true ∧ (c.origin, c.bell) ∈ u.can.parked)) ∧
  (∀ p (k : Packet) tr t c s, k.body = .cast c → c.ckind = 3 → acceptable s (p % 4) k tr → (∀ q ∈ s.can.castsSeen, q.1 ≠ c.origin) →
    c.bell = 0 → Completes (.parkCastRx p k tr true t) s (fun u => ∀ r ∈ u.ring.slots, r.isOpen = true → c.origin ∈ r.parked))

/-- Sending, replay and parking complete (R120, R121, R128, R129, R132). -/
def Obligations.canopy_sending_completes : Prop :=
  (∀ p s, s.portUp (p % 4) = true → ((s.port (p % 4)).ackOwed = true ∨ (s.port (p % 4)).nakOwed = true) →
    s.sendDue (p % 4) = false →
    Completes (.ackTx p) s (fun u => ∃ tr, u.sent =
      .canopy (p % 4) { body := .credit, src := s.myPitch, seq := (s.port (p % 4)).txSeq } tr :: s.sent ∧ tr.cred = [])) ∧
  (∀ p t s, BlockInv s → s.portUp (p % 4) = true → (s.port (p % 4)).held ≠ [] → (s.port (p % 4)).rounds < 16 →
    (s.port (p % 4)).progressAt + 4000 * ns ≤ (s.at t).up → Completes (.replayTimeout p t) s (fun u =>
      (u.port (p % 4)).replay = (s.port (p % 4)).held ∧ (u.port (p % 4)).rounds = (s.port (p % 4)).rounds + 1)) ∧
  (∀ p s, s.portUp (p % 4) = true → 16 ≤ (s.port (p % 4)).rounds → (s.port (p % 4)).held ≠ [] → (s.port (p % 4)).replay = [] →
    Completes (.replayLimit p) s (fun u => u.portState (p % 4) = 1 ∧ u.flag CAN.STAT_PORT_DOWN = true)) ∧
  (∀ p t k tr l s, s.portUp (p % 4) = true → s.works 1 26 = true → (s.port (p % 4)).replay = (k, tr) :: l →
    Completes (.portTransmit p t) s (fun u => u.flag CAN.STAT_REPLAY = true ∧ ∃ m, u.sent = .canopy (p % 4) k tr :: m)) ∧
  (∀ p t s, s.portUp (p % 4) = true → s.works 1 26 = true → (s.port (p % 4)).replay = [] → (s.port (p % 4)).held.length < 128 →
    (s.port (p % 4)).ctl ≠ [] → Completes (.portTransmit p t) s (fun u => ∃ k tr, u.sent = .canopy (p % 4) k tr :: s.sent ∧
      k.seq = (s.port (p % 4)).txSeq)) ∧
  (∀ p t v h l s, s.portUp (p % 4) = true → s.works 1 26 = true → (s.port (p % 4)).replay = [] → (s.port (p % 4)).held.length < 128 →
    (s.port (p % 4)).ctl = [] → pickVoq (s.port (p % 4)).rr (s.readyVoqs (p % 4)) = some v → s.voq v = h :: l →
    Completes (.portTransmit p t) s (fun u => ∃ k tr, u.sent = .canopy (p % 4) k tr :: s.sent ∧ k.body = h.pkt.body ∧
      k.m0 = h.pkt.m0 ∧ k.channel = h.pkt.channel ∧ k.dest = h.pkt.dest)) ∧
  (∀ p v t h l s, s.voq v = h :: l → s.portUp (p % 4) = true → s.headFor (p % 4) h = true → s.credits (p % 4) v = 0 → h.starved = false →
    h.since + 1000 * max 1 (s.fld CAN.STARVE_US) * ns < (s.at t).up →
    Completes (.voqStarve p v t) s (fun u => u.flag CAN.STAT_STARVE = true ∧ u.voq v = { h with starved := true } :: l)) ∧
  (∀ p t s, BlockInv s → s.portUp (p % 4) = true → Completes (.probeTx p t) s (fun u =>
    ∃ k, (u.port (p % 4)).ctl = (s.port (p % 4)).ctl ++ [k] ∧ k.body = .probe 0)) ∧
  (∀ t s, s.flag PIT.CTRL_PARK = false → s.isParked = false → s.can.parkAt = none → s.isRinging = true →
    Completes (.parkSet t) s (fun u => u.flag PIT.CTRL_PARK = true ∧
      u.can.parkAt = some (s.dumpN * max 1 (ceilDiv s.bell.nextIdx s.dumpN) + 2))) ∧
  (∀ t s, s.flag PIT.CTRL_PARK = false → s.isParked = false → s.can.parkAt = none → s.isRinging = false →
    Completes (.parkSet t) s (fun u => u.flag PIT.STAT_PARKED = true ∧ u.flag PIT.STATUS_PARKED = true ∧ u.flag BEL.CTRL_RUN = false)) ∧
  (∀ t s, s.flag PIT.CTRL_PARK = true → Completes (.parkClear t) s (fun u =>
    u.flag PIT.CTRL_PARK = false ∧ u.flag PIT.STATUS_PARKED = false))
/-- Ring commands complete: a delivered cell is stored at its place and its map bit set, or counted as late, foreign or a duplicate (R135 to
R138); at the end of slot 1 the frame before closes, its missing cells are counted, and no DATA of an earlier frame stays in a queue (R128,
R139). -/
def Obligations.ring_commands_complete : Prop :=
  (∀ v t h l x n c s, BlockInv s → s.dramOpen = true → s.voq v = h :: l → h.pkt.body = .data x → h.pkt.dest = s.myPitch → s.hasPitch = true →
    s.ring.rtFill + s.cellBytes ≤ 4 * 2 ^ 20 → s.openSlotOf (s.frameOf h.pkt) = some n → s.localIndex h.pkt.channel = some c →
    h.pkt.src < s.canopySize → s.mapBit n (s.cellIndex (h.pkt.m0 % s.specW / s.packK) c h.pkt.src) = false →
    s.fld DMC.CHSTAT_FAILED = 0 → s.cellAddr n (s.cellIndex (h.pkt.m0 % s.specW / s.packK) c h.pkt.src) + s.cellBytes ≤ s.dramSize →
    s.mapBase n + s.cellIndex (h.pkt.m0 % s.specW / s.packK) c h.pkt.src / 8 < s.dramSize →
    (s.mapBase n + s.cellIndex (h.pkt.m0 % s.specW / s.packK) c h.pkt.src / 8 < s.cellAddr n (s.cellIndex (h.pkt.m0 % s.specW / s.packK) c h.pkt.src) ∨
      s.cellAddr n (s.cellIndex (h.pkt.m0 % s.specW / s.packK) c h.pkt.src) + s.cellBytes ≤
        s.mapBase n + s.cellIndex (h.pkt.m0 % s.specW / s.packK) c h.pkt.src / 8) →
    Completes (.ringCellStore v t) s (fun u => u.mapBit n (s.cellIndex (h.pkt.m0 % s.specW / s.packK) c h.pkt.src) = true ∧
      u.read (s.cellAddr n (s.cellIndex (h.pkt.m0 % s.specW / s.packK) c h.pkt.src)) s.cellBytes =
        (x ++ List.replicate s.cellBytes 0#8).take s.cellBytes)) ∧
  (∀ v t h l x n c s, s.dramOpen = true → s.voq v = h :: l → h.pkt.body = .data x → h.pkt.dest = s.myPitch → s.hasPitch = true →
    s.ring.rtFill + s.cellBytes ≤ 4 * 2 ^ 20 → s.openSlotOf (s.frameOf h.pkt) = some n → s.localIndex h.pkt.channel = some c →
    h.pkt.src < s.canopySize → s.mapBit n (s.cellIndex (h.pkt.m0 % s.specW / s.packK) c h.pkt.src) = true →
    Completes (.ringCellStore v t) s (fun u => u.flag RRG.STAT_DUP = true ∧ u.mem = s.mem ∧
      u.regN RRG.DUP_CNT = countUp (s.regN RRG.DUP_CNT))) ∧
  (∀ v t h l x s, s.dramOpen = true → s.voq v = h :: l → h.pkt.body = .data x → h.pkt.dest = s.myPitch → s.hasPitch = true →
    s.ring.rtFill + s.cellBytes ≤ 4 * 2 ^ 20 → s.openSlotOf (s.frameOf h.pkt) = none → inRuns s.ring.closed (s.frameOf h.pkt) = false →
    Completes (.ringCellStore v t) s (fun u => u.flag RRG.STAT_FOREIGN = true ∧ u.mem = s.mem ∧
      u.regN RRG.FOREIGN_CNT = countUp (s.regN RRG.FOREIGN_CNT))) ∧
  (∀ v t h l x s, s.dramOpen = true → s.voq v = h :: l → h.pkt.body = .data x → h.pkt.dest = s.myPitch → s.hasPitch = true →
    s.ring.rtFill + s.cellBytes ≤ 4 * 2 ^ 20 → s.openSlotOf (s.frameOf h.pkt) = none → inRuns s.ring.closed (s.frameOf h.pkt) = true →
    Completes (.ringCellStore v t) s (fun u => u.flag RRG.STAT_RING_LATE = true ∧ u.flag BEL.STAT_RING_LATE = true ∧ u.mem = s.mem ∧
      u.regN RRG.LATE_CNT = countUp (s.regN RRG.LATE_CNT))) ∧
  (∀ t b r n s, (s.at t).curFrame = some b → 2 ≤ (s.at t).slotNow → s.closingSlot = some (r, n) → Completes (.ringFrameClose t) s (fun u =>
    u.ring.slots[n]?.map (·.isOpen) = some false ∧ inRuns u.ring.closed (r.frame.getD 0) = true)) ∧
  (∀ t b r n s, (s.at t).curFrame = some b → 2 ≤ (s.at t).slotNow → s.closingSlot = some (r, n) → s.missing n ≠ 0 →
    Completes (.ringFrameClose t) s (fun u => u.flag RRG.STAT_RING_LATE = true ∧
      u.regN RRG.MISS_CNT = min (s.regN RRG.MISS_CNT + s.missing n) (2 ^ 32 - 1))) ∧
  (∀ t b s, (s.at t).curFrame = some b → 2 ≤ (s.at t).slotNow → Store.rising none s.can.voqs = true →
    Completes (.ringFrameClose t) s (fun u => ∀ v, ∀ q ∈ u.voq v, b ≤ u.frameOf q.pkt))

/-- Capture commands complete: triggers with their freeze bells, requests for release and the release at the next bell, readout (R143 to
R152, R246). That a trigger before a ringing engine's first bell finds no bell is the model's reading of R144 (log entry 28). -/
def Obligations.capture_commands_complete : Prop :=
  (∀ t s, (s.fld RRG.TRIG_EN).testBit 0 = true → Completes (.hostTrigger t) s (fun u => u.trigQ = s.trigQ ++
    [{ source := 0, tag := (s.regN RRG.HOST_TAG_LO + s.regN RRG.HOST_TAG_HI * 2 ^ 32) % 2 ^ 64, bell := 0, pre := 0, post := 0, origin := 0 }])) ∧
  (∀ t s, (s.fld RRG.TRIG_EN).testBit 0 = false → Completes (.hostTrigger t) s (fun u => u.trigQ = s.trigQ)) ∧
  (∀ t tr l s, s.trigQ = tr :: l → s.isRinging = false → Completes (.captureTrigger t) s (fun u => u.flag RRG.STAT_NO_BELL = true ∧
    u.regN RRG.REFUSE_CNT = countUp (s.regN RRG.REFUSE_CNT))) ∧
  (∀ t tr l s, s.trigQ = tr :: l → s.isRinging = true → tr.source ≠ 4 → tr.source ≠ 2 → s.curFrame = none →
    Completes (.captureTrigger t) s (fun u => u.flag RRG.STAT_NO_BELL = true ∧ u.ring.recs = s.ring.recs)) ∧
  (∀ t tr l n s, s.trigQ = tr :: l → (s.at t).curFrame = some n → tr.source = 4 → tr.bell ≤ n →
    Completes (.captureTrigger t) s (fun u => u.flag RRG.STAT_CAP_LATE = true ∧ u.ring.recs = s.ring.recs)) ∧
  (∀ t tr l r k s, s.trigQ = tr :: l → s.isRinging = true → (∀ n, s.curFrame = some n → n < tr.bell) → tr.source = 4 →
    s.ring.recs.zipIdx.find? (fun p => p.1.st == 1 && p.1.bell == tr.bell) = none →
    s.ring.recs.zipIdx.find? (fun p => p.1.st == 0) = some (r, k) → Completes (.captureTrigger t) s (fun u =>
      u.trigQ = l ∧ ∃ q, u.ring.recs[k]? = some q ∧ q.st = 1 ∧ q.bell = tr.bell ∧ q.origin = tr.origin ∧ q.tag = tr.tag)) ∧
  (∀ t tr l n r k s, s.trigQ = tr :: l → (s.at t).curFrame = some n → tr.source < 4 → tr.source ≠ 2 →
    s.ring.recs.zipIdx.find? (fun p => p.1.st == 1 && p.1.bell == (s.at t).freezeBell n) = none →
    s.ring.recs.zipIdx.find? (fun p => p.1.st == 0) = some (r, k) → Completes (.captureTrigger t) s (fun u =>
      ∃ q, u.ring.recs[k]? = some q ∧ q.st = 1 ∧ q.bell = (s.at t).freezeBell n ∧ q.srcs = 2 ^ tr.source ∧ q.tag = tr.tag)) ∧
  (∀ t tr l r k s, s.trigQ = tr :: l → s.isRinging = true → tr.source = 2 → tr.bell ≠ 0 →
    s.ring.recs.zipIdx.find? (fun p => p.1.st == 1 && p.1.bell == tr.bell) = none →
    s.ring.recs.zipIdx.find? (fun p => p.1.st == 0) = some (r, k) → Completes (.captureTrigger t) s (fun u =>
      ∃ q, u.ring.recs[k]? = some q ∧ q.st = 1 ∧ q.bell = tr.bell ∧ q.srcs = 4)) ∧
  (∀ t tr l n r k s, s.trigQ = tr :: l → (s.at t).curFrame = some n → tr.source < 4 → tr.source ≠ 2 →
    s.ring.recs.zipIdx.find? (fun p => p.1.st == 1 && p.1.bell == (s.at t).freezeBell n) = some (r, k) →
    Completes (.captureTrigger t) s (fun u => u.ring.recs[k]? = some
      { r with srcs := setBit r.srcs tr.source true, pre := max r.pre (s.srcPre tr.source), post := max r.post (s.srcPost tr.source) })) ∧
  (∀ (v : Word) s, Completes (.captureReleaseRequest v) s (fun u => u.ring.relReq = s.ring.relReq ||| v.toNat % 16)) ∧
  (∀ (v : Word) b n r s, n < 4 → v.toNat.testBit n = true → s.ring.recs[n]? = some r → r.st = 2 → s.ring.reading = none →
    Completes (.captureReleaseRequest v) s (fun u => (u.releaseAt b n).ring.recs[n]? = some CapRec.free ∧
      (u.releaseAt b n).flag RRG.STAT_RELEASED = true ∧ ∀ q ∈ (u.releaseAt b n).ring.slots, q.held.testBit n = false)) ∧
  (∀ (v : Word) t r s, v.toNat.testBit 2 = true → v.toNat.testBit 3 = false → s.ring.recs[v.toNat % 4]? = some r →
    s.ring.reading = none → r.st = 2 → s.lastClosedOf (v.toNat % 4) r = true → r.frames ≠ [] → (s.nextCell 0).isSome = true →
    Completes (.readoutStart v t) s (fun u => u.ring.reading = some (v.toNat % 4, r.frames, 0) ∧ u.flag RRG.RD_CMD_BUSY = true ∧
      u.regN RRG.RD_PROG = 0)) ∧
  (∀ (v : Word) t r s, v.toNat.testBit 2 = true → v.toNat.testBit 3 = false → s.ring.recs[v.toNat % 4]? = some r → r.st ≠ 2 →
    Completes (.readoutStart v t) s (fun u => u.ring = s.ring ∧ u.flag RRG.STAT_RD_REFUSED = true)) ∧
  (∀ t n f i r s, s.ring.reading = some (n, f, i) → s.ring.recs[n]? = some r → Completes (.readoutAbort t) s (fun u =>
    u.ring.reading = none ∧ u.ring.recs[n]? = some { r with st := 2 } ∧ u.flag RRG.STAT_RD_ABORT = true)) ∧
  (∀ t n f fs i r j k s, s.works 1 27 = true → s.readoutPaused = false → s.itemOpen 0x11 [7] = true → s.dramOpen = true →
    s.ring.rdAt ≤ (s.at t).up → s.ring.reading = some (n, f :: fs, i) → s.ring.recs[n]? = some r → s.nextCell i = some j →
    s.recSlot n f = some k → Completes (.capturePacket t) s (fun u => s.ring.rdAt ≤ u.ring.rdAt ∧ (∃ l m, u.ring.reading = some (n, l, m)) ∧
      ∃ c, 1 ≤ c ∧ c ≤ 8 ∧ u.regN RRG.RD_PROG = (s.regN RRG.RD_PROG + c) % 2 ^ 32)) ∧
  (∀ t n f fs i r j k s, s.productOpen 7 → s.readoutPaused = false → s.itemOpen 0x11 [7] = true → s.dramOpen = true →
    s.ring.rdAt ≤ (s.at t).up → s.ring.reading = some (n, f :: fs, i) → s.ring.recs[n]? = some r → s.nextCell i = some j →
    s.recSlot n f = some k → Completes (.capturePacket t) s (fun u => ∃ p ∈ u.outs.ready, p.kind = 7 ∧ p.stream = s.streamOf 7 ∧
      (p.ext.drop 8).take 24 = toBytes 8 f ++ toBytes 8 j ++ toBytes 8 r.tag)) ∧
  (∀ t n f fs i s, s.works 1 27 = true → s.readoutPaused = false → s.itemOpen 0x11 [7] = true → s.dramOpen = true →
    s.ring.rdAt ≤ (s.at t).up → s.ring.reading = some (n, f :: fs, i) → s.recSlot n f = none →
    Completes (.capturePacket t) s (fun u => u.ring.reading = some (n, fs, 0))) ∧
  (∀ t n i r s, s.ring.reading = some (n, [], i) → s.ring.recs[n]? = some r → Completes (.readoutDone t) s (fun u =>
    u.ring.reading = none ∧ u.ring.recs[n]? = some { r with st := 2 } ∧ u.flag RRG.STAT_RD_DONE = true))

/-- Correlation commands complete: window loads with their gains and samples (R141, R156, R158, R187), tile-channels with their sums
(R153, R154, R161 to R164), partial sums that replace or join their records (R166, R168), the overrun rule (R34) and a read of DSEQ
(R175). -/
def Obligations.correlation_commands_complete : Prop :=
  (∀ d t s, BlockInv s → d < 6 → (s.at t).loadReady d = true → Completes (.windowLoadStart d t) s (fun u =>
    (u.die d).wins = Store.put (s.die d).wins (s.die d).nextLoad 0 ∧
    Store.get? (u.die d).gains (s.die d).nextLoad = some ((s.at t).fetchGains (s.dieChannel d (s.die d).nextLoad)).1)) ∧
  (∀ d t k b l f s, BlockInv s → d < 6 → s.works (3 + d) (7 + d) = true → s.dramOpen = true → (s.at t).slotNow < 1022 →
    (s.die d).wins.reverse = (k, b) :: l → s.corr.frame = some f → (s.die d).closed = false → (s.die d).k < s.dieChannels d →
    b < s.blocks → Completes (.windowBlockLoaded d t) s (fun u => (u.die d).wins = Store.put (s.die d).wins k (b + 1))) ∧
  (∀ d t k b l f i q s, BlockInv s → d < 6 → s.works (3 + d) (7 + d) = true → s.dramOpen = true → (s.at t).slotNow < 1022 →
    (s.die d).wins.reverse = (k, b) :: l → s.corr.frame = some f → (s.die d).closed = false → (s.die d).k < s.dieChannels d →
    b < s.blocks → s.slotBefore f = none → i < 128 → q < s.specW → Completes (.windowBlockLoaded d t) s (fun u =>
      u.read (s.winAddr d k (128 * b + i) q) (s.sampBytes d) = flagSample (s.mode4 d))) ∧
  (∀ d t k b l f slot n g j s, BlockInv s → d < 6 → s.works (3 + d) (7 + d) = true → s.dramOpen = true → (s.at t).slotNow < 1022 →
    (s.die d).wins.reverse = (k, b) :: l → s.corr.frame = some f → (s.die d).closed = false → (s.die d).k < s.dieChannels d →
    b < s.blocks → s.slotBefore f = some slot → s.dram.errs = [] → s.dram.tags = [] → s.fld DMC.CHSTAT_FAILED = 0 → s.slotParked slot = [] →
    128 * b ≤ n → n < 128 * b + 128 → n < s.canopyInputs → n / max 1 s.inputsHere < s.canopySize → g < s.specGroups → j < s.packK →
    s.packK * (ceilDiv (max 1 s.inputsHere * s.sampBytes d) 32 * 32) ≤ s.cellBytes →
    s.mapBit slot (s.cellIndex g (s.dieChannel d k) (n / max 1 s.inputsHere)) = true →
    s.cellAddr slot (s.cellIndex g (s.dieChannel d k) (n / max 1 s.inputsHere)) + s.cellBytes ≤ s.dramSize →
    s.mapBase slot + s.cellIndex g (s.dieChannel d k) (n / max 1 s.inputsHere) / 8 < s.dramSize →
    Completes (.windowBlockLoaded d t) s (fun u => u.read (s.winAddr d k n (g * s.packK + j)) (s.sampBytes d) =
      s.read (s.cellAddr slot (s.cellIndex g (s.dieChannel d k) (n / max 1 s.inputsHere)) +
        j * (ceilDiv (max 1 s.inputsHere * s.sampBytes d) 32 * 32) + n % max 1 s.inputsHere * s.sampBytes d) (s.sampBytes d))) ∧
  (∀ d t s, BlockInv s → d < 6 → (s.at t).tileReady d = true → Completes (.tileChannelStart d t) s (fun u =>
    (u.die d).running = some (s.at t).now ∧ u.fld (STL.STATUS_STATE d) = 1)) ∧
  (∀ d t t0 s, BlockInv s → d < 6 → s.works (3 + d) (7 + d) = true → (s.die d).running = some t0 →
    (s.at t).cyclesPassed t0 (s.tileCycles d) = true → Completes (.tileChannelEnd d t) s (fun u => (u.die d).running = none ∧
      (u.die d).ended = some (s.at t).now ∧ u.regN (STL.TC_DONE d) = countUp (s.regN (STL.TC_DONE d)) ∧
      ∃ x ∈ (u.die d).out, x.chan = s.dieChannel d (s.die d).k ∧ x.tile = (s.die d).tile ∧
        x.sums = (s.keptPairs (s.die d).tile).map (fun p =>
          (s.recNo (s.dieChannel d (s.die d).k) p.1 p.2, (s.stallSum d (s.die d).k p.1 p.2).1, (s.stallSum d (s.die d).k p.1 p.2).2.1,
            (s.stallSum d (s.die d).k p.1 p.2).2.2)))) ∧
  (∀ d t x l r re im n m s, BlockInv s → d < 6 → s.dramOpen = true → (s.die d).out = x :: l → x.sums = (r, re, im, n) :: m →
    Completes (.partialSumRetire d true t) s (fun u =>
      (u.die d).out = if m = [] then l else { x with begun := true, sums := m } :: l)) ∧
  (∀ d t x l r re im n m s, BlockInv s → d < 6 → s.dramOpen = true → (s.die d).out = x :: l → x.sums = (r, re, im, n) :: m →
    s.corr.replacing = true → s.corr.filling = none → s.dram.errs = [] → s.dram.tags = [] → s.fld DMC.CHSTAT_FAILED = 0 →
    s.istAddr r + 16 ≤ s.dramSize → Completes (.partialSumRetire d true t) s (fun u =>
      u.read (s.istAddr r) 16 = toBytes 16 (mkRec re im n))) ∧
  (∀ d t x l r re im n m s, BlockInv s → d < 6 → s.dramOpen = true → (s.die d).out = x :: l → x.sums = (r, re, im, n) :: m →
    s.corr.replacing = false → s.dram.errs = [] → s.dram.tags = [] → s.fld DMC.CHSTAT_FAILED = 0 → s.istAddr r + 16 ≤ s.dramSize →
    recN (ofBytes (s.read (s.istAddr r) 16)) ≠ 2 ^ 32 - 1 → Completes (.partialSumRetire d true t) s (fun u =>
      u.read (s.istAddr r) 16 = toBytes 16 (mkRec (recRe (ofBytes (s.read (s.istAddr r) 16)) + re)
        (recIm (ofBytes (s.read (s.istAddr r) 16)) + im) (recN (ofBytes (s.read (s.istAddr r) 16)) + n)))) ∧
  (∀ d t x l s, BlockInv s → d < 6 → s.dramOpen = true → (s.die d).out = x :: l → x.begun = false →
    Completes (.partialSumRetire d false t) s (fun u => (u.die d).out = l ∧ u.flag (STL.STAT_LINK_LOSS d) = true ∧
      u.regN (STL.LINK_CNT d) = countUp (s.regN (STL.LINK_CNT d)))) ∧
  (∀ t s, BlockInv s → 1022 ≤ (s.at t).slotNow → s.corr.frame.isSome = true → Completes (.stallOverrun t) s (fun u =>
    ∀ d, d < 6 → (u.die d).running = none ∧ (u.die d).k = s.dieChannels d ∧
      ((s.die d).closed = false → u.fld (STL.STATUS_STATE d) ≠ 1))) ∧
  (∀ m s, Completes (.dseqRead m) s (fun u => u.sent = .readData m (s.regN (STL.DSEQ 0)) :: s.sent)) ∧
  (∀ m d s, s.corr.last = some d → Completes (.dseqRead m) s (fun u => u.pair (STL.DFIRST_LO 0) (STL.DFIRST_HI 0) = d.first % 2 ^ 64 ∧
    u.regN (STL.DSKIP 0) = d.skip % 2 ^ 32))

/-- Aisle, crown and calibration commands complete (R182 to R194, R203 to R209, R220 to R223, R242, R244). A pass that has run its cycles
is over, and its beams with voltage output wait for BEAMV; a watch of a published frame leaves a CROWN packet; a wide watch's values go
to the lead in crown partial frames, which the lead takes and every other device forwards. -/
def Obligations.aisle_crown_calibration_commands_complete : Prop :=
  (∀ d t p s, BlockInv s → d < 6 → s.nextPass d = some p → (s.at t).passReady d p = true → Completes (.aislePassStart d t) s (fun u =>
    (u.die d).pass = some (p.1, p.2, (s.at t).now))) ∧
  (∀ d t t1 p s, BlockInv s → d < 6 → s.nextPass d = some p → (s.at t).passReady d p = true →
    (s.at t1).cyclesPassed (s.at t).now (max (s.blocks * s.specW) 4096) = true →
    Completes (.aislePassStart d t) s (fun u => Completes (.aislePassEnd d t1) u (fun w =>
      (w.die d).pass = none ∧ (w.die d).over p = true))) ∧
  (∀ d t k g t0 s, BlockInv s → d < 6 → s.works (3 + d) (13 + d) = true → (s.die d).pass = some (k, g, t0) →
    (s.at t).cyclesPassed t0 (max (s.blocks * s.specW) 4096) = true → Completes (.aislePassEnd d t) s (fun u =>
      (u.die d).pass = none ∧ (u.die d).over (k, g) = true)) ∧
  (∀ d t k g t0 i s, BlockInv s → d < 6 → s.works (3 + d) (13 + d) = true → (s.die d).pass = some (k, g, t0) →
    (s.at t).cyclesPassed t0 (max (s.blocks * s.specW) 4096) = true → i < 32 → s.ninAt s.aisle.page.active (32 * g + i) ≠ 0 →
    s.sampled (AIS.BEAM_CFG_OUTV (32 * g + i)) = 1 → Completes (.aislePassEnd d t) s (fun u =>
      ∃ b ∈ u.aisle.beamv, b.beam = 32 * g + i ∧ b.chan = s.dieChannel d k ∧ b.cut = false)) ∧
  (∀ (v : Word) s, v.toNat.testBit 1 = true → s.flag CAL.CTRL_AISLE_FB = false → Completes (.gainCommit v) s (fun u =>
    u.aisle.gpend = some (v.toNat % 2) ∧ u.flag AIS.GSTATUS_PEND = true)) ∧
  (∀ (v : Word) s, v.toNat.testBit 1 = true → s.flag CAL.CTRL_AISLE_FB = true → Completes (.gainCommit v) s (fun u =>
    u.aisle.gpend = s.aisle.gpend ∧ u.flag AIS.STAT_GCMT_REJ = true)) ∧
  (∀ (v : Word) t s, s.aisle.page.inUse false (v.toNat % 2) = false →
    (s.at t).beforeDeadline ((s.at t).fullFrame 31 (v.toNat / 2) + 1) = true → Completes (.contextCommit v t) s (fun u =>
      Store.get? u.aisle.page.pend (v.toNat % 2) = some ((s.at t).fullFrame 31 (v.toNat / 2)))) ∧
  (∀ (v : Word) t s, s.aisle.page.inUse false (v.toNat % 2) = false →
    (s.at t).beforeDeadline ((s.at t).fullFrame 31 (v.toNat / 2) + 1) = false → Completes (.contextCommit v t) s (fun u =>
      u.aisle.page = s.aisle.page ∧ u.flag AIS.STAT_CTX_LATE = true ∧ u.flag BEL.STAT_CTX_LATE = true)) ∧
  (∀ (v : Word) s, BlockInv s → v.toNat.testBit 31 = true → Store.has s.aisle.page.pend (1 - s.aisle.page.active) = false →
    s.ctxUsed (1 - s.aisle.page.active) - s.ninAt (1 - s.aisle.page.active) (v.toNat % 256) + bits v.toNat 8 19 ≤ 262144 →
    Completes (.beamAdd v) s (fun u => u.ninAt (1 - s.aisle.page.active) (v.toNat % 256) = bits v.toNat 8 19 ∧
      u.regN AIS.CTX_FREE = 262144 - u.ctxUsed (1 - s.aisle.page.active))) ∧
  (∀ (v : Word) s, v.toNat.testBit 31 = true → Store.has s.aisle.page.pend (1 - s.aisle.page.active) = true →
    Completes (.beamAdd v) s (fun u => u.aisle = s.aisle ∧ u.flag AIS.STAT_CTX_BUSY = true)) ∧
  (∀ t f s, s.corr.frame = some f → s.dramOpen = true → s.crown.published = false → s.itemOpen 0x0F [] = true → s.aislesOver = true →
    (s.isLead = false ∨ s.crown.ranked = true) → Completes (.crownPublish t) s (fun u =>
      u.crown.published = true ∧ u.crown.seq = (s.crown.seq + 1) % 2 ^ 64 ∧ u.flag CRN.STAT_DONE = true)) ∧
  (∀ t f w s, s.corr.frame = some f → s.dramOpen = true → s.crown.published = false → s.itemOpen 0x0F [] = true → s.aislesOver = true →
    (s.isLead = false ∨ s.crown.ranked = true) → s.productOpen 5 → w < 64 → s.watchOn w = true → Completes (.crownPublish t) s (fun u =>
      ∃ p ∈ u.outs.ready, p.kind = 5 ∧ p.stream = s.streamOf 5 ∧ p.ext = [BitVec.ofNat 8 w] ++ toBytes 7 0 ++ toBytes 8 f ∧
        p.data.length = 512 ∧ (p.data.drop 8).take 9 = toBytes 8 f ++ [BitVec.ofNat 8 w])) ∧
  (∀ t f s, s.corr.frame = some f → s.isLead = false → s.crown.partSent = false → s.aislesOver = true →
    Completes (.crownPartialTx t) s (fun u => u.crown.partSent = true)) ∧
  (∀ t f w p s, s.corr.frame = some f → s.isLead = false → s.crown.partSent = false → s.aislesOver = true → w < 64 → s.watchOn w = true →
    s.watchWide w = true → s.candidates w ≠ [] → p < 2 → s.svcUp p = true → Completes (.crownPartialTx t) s (fun u =>
      ∃ fr, .svcFrame p fr ∈ u.sent ∧ beAt fr 12 2 = 0x88B5 ∧ beAt (fr.drop 14) 0 2 = 2 ∧ beAt (fr.drop 14) 2 1 = s.myPitch % 64 ∧
        beAt (fr.drop 14) 3 1 = w ∧ beAt (fr.drop 14) 4 8 = f % 2 ^ 64)) ∧
  (∀ p f room t s, beAt f 12 2 = 0x88B5 → beAt (f.drop 14) 0 2 = 2 → s.isLead = true → 1012 ≤ (s.at t).slotNow →
    Completes (.crownPartialRx p f room t) s (fun u => u.crown = s.crown ∧ u.flag CRN.STAT_LATE = true ∧
      u.regN CRN.LATE_CNT = countUp (s.regN CRN.LATE_CNT))) ∧
  (∀ p f room t s, beAt f 12 2 = 0x88B5 → beAt (f.drop 14) 0 2 = 2 → s.isLead = true → (s.at t).slotNow < 1012 →
    some (beAt (f.drop 14) 4 8) = s.corr.frame → beAt (f.drop 14) 3 1 < 64 → s.watchWide (beAt (f.drop 14) 3 1) = true →
    s.crown.ranked = false → Completes (.crownPartialRx p f room t) s (fun u =>
      ∀ i, i < beAt (f.drop 14) 16 2 → Store.get? (Store.getD u.crown.parts (beAt (f.drop 14) 3 1 * 64 + beAt (f.drop 14) 2 1 % 64) [])
        (beAt (f.drop 14) 12 4 + i) = some (beAt (f.drop 14) (20 + 16 * i) 16))) ∧
  (∀ p f room t s, BlockInv s → beAt f 12 2 = 0x88B5 → beAt (f.drop 14) 0 2 = 2 → s.isLead = false → s.svcChain = true →
    s.svcUp (otherSvc p) = true → (s.svcOut (otherSvc p)).frames = [] → (s.svcOut (otherSvc p)).freeAt ≤ (s.at t).up →
    f.length + 4 ≤ 2 ^ 18 → Completes (.crownPartialRx p f room t) s (fun u => u.sent = .svcFrame (otherSvc p) f :: s.sent ∧
      u.regN (PTP.SVC_FWD (otherSvc p)) = countUp (s.regN (PTP.SVC_FWD (otherSvc p))))) ∧
  (∀ t w s, s.isLead = true → s.corr.frame.isSome = true → s.crown.ranked = false → 1012 ≤ (s.at t).slotNow → w < 64 → s.watchOn w = true →
    s.watchWide w = true → Completes (.crownCanopyRank t) s (fun u => u.crown.ranked = true ∧ Store.has u.crown.sums w = true)) ∧
  (∀ t w q s, s.isLead = true → s.corr.frame.isSome = true → s.crown.ranked = false → 1012 ≤ (s.at t).slotNow → w < 64 → s.watchOn w = true →
    s.watchWide w = true → s.candidates w ≠ [] → q < s.canopySize → q ≠ s.myPitch → Store.has s.crown.parts (w * 64 + q) = false →
    Completes (.crownCanopyRank t) s (fun u => u.crown.ranked = true ∧ u.flag CRN.STAT_PART = true)) ∧
  (∀ t s, s.works 15 19 = true → s.dramOpen = true → s.cal.active = true → s.cal.next < s.cLoc → s.calDeferred = false →
    s.itemOpen 0x10 [s.cal.next] = true → Completes (.calChannelEnd t) s (fun u => u.cal.next = s.cal.next + 1 ∧ u.cal.seq = s.cal.seq ∧
      u.cal.good + u.cal.failed = s.cal.good + s.cal.failed + 1 ∧ u.regN CAL.PROG = (s.cal.next + 1) % 2 ^ 32)) ∧
  (∀ t s, s.works 15 19 = true → s.dramOpen = true → s.cal.active = true → s.cal.next < s.cLoc → s.calDeferred = false →
    s.itemOpen 0x10 [s.cal.next] = true → (s.solveChannel s.cal.next).status ≠ 0 → Completes (.calChannelEnd t) s (fun u =>
      ((s.solveChannel s.cal.next).status = 1 → u.regN CAL.NOCONV_CNT = countUp (s.regN CAL.NOCONV_CNT) ∧ u.flag CAL.STAT_NOCONV = true) ∧
      ((s.solveChannel s.cal.next).status ≠ 1 → u.regN CAL.FAIL_CNT = countUp (s.regN CAL.FAIL_CNT) ∧ u.flag CAL.STAT_FAIL = true)))

/-- Output ports, streams and packets complete (R230 to R245): each product command leaves its packet at a port, numbered on its stream, and
OUTPUT_PACKET_TX sends the oldest of the highest kind as a frame with the addresses it was dealt with. -/
def Obligations.output_commands_complete : Prop :=
  (∀ p lock fec s, p < 4 → s.outUp p = false → s.flag (OUT.PORT_CTRL_EN p) = true → lock % 16 = 15 →
    (Store.getD s.outs.fec p 0 ≠ 1 ∨ fec = true) → Completes (.outputPortUp p lock true fec) s (fun u =>
      u.outUp p = true ∧ u.flag OUT.STAT_LINK_UP = true)) ∧
  (∀ p lock align fec s, p < 4 → s.outUp p = true → lock % 16 ≠ 15 → Completes (.outputPortDown p lock align fec) s (fun u =>
    u.outUp p = false ∧ u.flag OUT.STAT_LINK_DOWN = true)) ∧
  (∀ p frames cor unc s, p < 4 → Completes (.outputRxDiscard p frames cor unc) s (fun u =>
    u.regN OUT.RX_DISC = min (s.regN OUT.RX_DISC + frames) (2 ^ 32 - 1) ∧
    u.regN (OUT.PORT_FECCOR p) = min (s.regN (OUT.PORT_FECCOR p) + cor) (2 ^ 32 - 1) ∧
    u.regN (OUT.PORT_FECUNC p) = min (s.regN (OUT.PORT_FECUNC p) + unc) (2 ^ 32 - 1))) ∧
  (∀ (v : Word) k s, k < 16 → v.toNat.testBit k = true → (s.fld OUT.STREN_EN).testBit k = false → s.badWords (streamAddr k) 64 = [] →
    Completes (.streamEnable v) s (fun u => (u.fld OUT.STREN_EN).testBit k = true ∧ u.streamEntry k = s.read (streamAddr k) 64)) ∧
  (∀ (v : Word) k s, k < 16 → v.toNat.testBit k = true → (s.fld OUT.STREN_EN).testBit k = false → s.badWords (streamAddr k) 64 ≠ [] →
    Completes (.streamEnable v) s (fun u => (u.fld OUT.STREN_EN).testBit k = false ∧ u.flag OUT.STAT_STRM_REJ = true)) ∧
  (∀ (v : Word) s, s.flag CFG.STATUS_LOCKED = true → fmtSize (s.fld OUT.DUMP_FMTMAX) < fmtSize (v.toNat % 4) →
    Completes (.dumpFormatWrite v) s (fun u => u.flag OUT.STAT_FMT_REJ = true ∧ u.reg OUT.DUMP = s.reg OUT.DUMP)) ∧
  (∀ (v : Word) s, s.flag CFG.STATUS_LOCKED = true → fmtSize (v.toNat % 4) ≤ fmtSize (s.fld OUT.DUMP_FMTMAX) →
    Completes (.dumpFormatWrite v) s (fun u => u.regN OUT.DUMP = v.toNat % 16 + 16 * s.fld OUT.DUMP_FMTMAX)) ∧
  (∀ p t q s, s.nextProduct p = some q → s.works 1 27 = true → s.outUp p = true → s.itemOpen 0x11 [q.kind] = true →
    Completes (.outputPacketTx p t) s (fun u => u.outs.ready = s.outs.ready.erase q ∧
      u.sent = .product p q.kind (etherFrame q.entry (s.payloadOf q)) :: s.sent ∧
      u.regN (OUT.PORT_TXPKT p) = countUp (s.regN (OUT.PORT_TXPKT p)))) ∧
  (∀ t d l s, s.works 1 27 = true → s.dramOpen = true → s.outs.dumps = d :: l → s.outs.dumpAt ≤ (s.at t).up →
    s.outs.nextRec + min (recsPerPacket d.fmt) (s.dumpRecords - s.outs.nextRec) < s.dumpRecords →
    Completes (.dumpPacket t) s (fun u => u.outs.dumps = s.outs.dumps ∧
      u.outs.nextRec = s.outs.nextRec + min (recsPerPacket d.fmt) (s.dumpRecords - s.outs.nextRec))) ∧
  (∀ t d l s, s.productOpen 1 → s.dramOpen = true → s.outs.dumps = d :: l → s.outs.dumpAt ≤ (s.at t).up →
    Completes (.dumpPacket t) s (fun u => ∃ p ∈ u.outs.ready, p.kind = 1 ∧ p.stream = s.streamOf 1 ∧
      p.data.length = min (recsPerPacket d.fmt) (s.dumpRecords - s.outs.nextRec) * fmtSize d.fmt ∧ p.ext.take 4 = toBytes 4 d.q ∧
      (p.ext.drop 24).take 8 = toBytes 8 s.outs.nextRec)) ∧
  (∀ t d l s, s.works 1 27 = true → s.dramOpen = true → s.outs.dumps = d :: l → s.outs.dumpAt ≤ (s.at t).up →
    s.dumpRecords ≤ s.outs.nextRec + min (recsPerPacket d.fmt) (s.dumpRecords - s.outs.nextRec) →
    Completes (.dumpPacket t) s (fun u => d ∉ u.outs.dumps ∧ u.outs.nextRec = 0 ∧ u.flag OUT.STAT_DUMP_SENT = true)) ∧
  (∀ t m l s, s.works 1 27 = true → s.outs.manifests = m :: l → m.sent < m.body.length → Completes (.manifestPacket t) s (fun u =>
    u.outs.manifests = { m with sent := m.sent + min 8192 (m.body.length - m.sent) } :: l)) ∧
  (∀ t m l s, s.productOpen 2 → s.outs.manifests = m :: l → m.sent < m.body.length → Completes (.manifestPacket t) s (fun u =>
    u.hasProduct 2 (m.ext false 0 m.sent) ((m.body.drop m.sent).take (min 8192 (m.body.length - m.sent))))) ∧
  (∀ t m l x s, s.productOpen 2 → s.outs.manifests = m :: l → m.body.length ≤ m.sent → Store.get? s.sec.sigs m.q = some x →
    Completes (.manifestSignaturePacket t) s (fun u => u.hasProduct 2 (m.ext true x.length m.body.length) x)) ∧
  (∀ t m l x s, s.works 1 27 = true → s.outs.manifests = m :: l → m.body.length ≤ m.sent → Store.get? s.sec.sigs m.q = some x →
    Completes (.manifestSignaturePacket t) s (fun u => u.outs.manifests = l ∧ u.flag OUT.STAT_MANIF_SENT = true ∧
      u.regN OUT.MSEQ = m.q % 2 ^ 32)) ∧
  (∀ t m l s, s.works 1 27 = true → s.outs.manifests = m :: l → m.body.length ≤ m.sent → Store.get? s.sec.sigs m.q = none →
    m.q ∉ s.sec.manifests → s.sec.signing ≠ some (.manifest m.q) → Completes (.manifestSignaturePacket t) s (fun u =>
      u.outs.manifests = l ∧ u.flag OUT.STAT_SIGN_FAIL = true)) ∧
  (∀ t b l s, s.works 1 27 = true → s.aisle.beamv = b :: l → Completes (.beamvPacket t) s (fun u => u.aisle.beamv = l)) ∧
  (∀ t b l s, s.productOpen 3 → s.aisle.beamv = b :: l → s.beamFill + b.samples.length ≤ 2 ^ 24 → Completes (.beamvPacket t) s (fun u =>
    ∃ p ∈ u.outs.ready, p.kind = 3 ∧ p.stream = s.streamOf 3 ∧ p.data = b.samples ∧ p.ext.take 1 = [BitVec.ofNat 8 b.beam] ∧
      (p.ext.drop 8).take 8 = toBytes 8 b.first)) ∧
  (∀ t b l s, s.productOpen 3 → s.aisle.beamv = b :: l → 2 ^ 24 < s.beamFill + b.samples.length → Completes (.beamvPacket t) s (fun u =>
    u.outs.ready = s.outs.ready ∧ u.regN OUT.BV_DROP = countUp (s.regN OUT.BV_DROP) ∧ u.flag OUT.STAT_BV_DROP = true)) ∧
  (∀ t d l s, s.works 1 27 = true → s.aisle.beamd = d :: l → Completes (.beamdPacket t) s (fun u =>
    u.aisle.beamd = if d.recs.drop ((d.recs.take 512).takeWhile (fun r => r.1 == (d.recs.head?.map (·.1)).getD 0)).length = [] then l
      else { d with recs := d.recs.drop ((d.recs.take 512).takeWhile (fun r => r.1 == (d.recs.head?.map (·.1)).getD 0)).length } :: l)) ∧
  (∀ t d l b h i r m s, s.productOpen 4 → s.aisle.beamd = d :: l → d.recs = (b, h, i, r) :: m → Completes (.beamdPacket t) s (fun u =>
    ∃ p ∈ u.outs.ready, p.kind = 4 ∧ p.stream = s.streamOf 4 ∧ p.ext.take 1 = [BitVec.ofNat 8 b] ∧ (p.ext.drop 8).take 8 = toBytes 8 d.frame ∧
      p.data.take 16 = toBytes 16 r)) ∧
  (∀ t s, s.works 1 27 = true → s.kindOn 6 = true → 512 ≤ s.evts.length → Completes (.eventPacket t) s (fun u =>
    u.evts = s.evts.drop 512 ∧ u.evtLoss = false)) ∧
  (∀ t e l s, s.productOpen 6 → s.evts = e :: l → e.at_ + 1000000 * ns ≤ (s.at t).up → Completes (.eventPacket t) s (fun u =>
    u.evts = s.evts.drop 512 ∧ u.evtLoss = false ∧ ∃ p ∈ u.outs.ready, p.kind = 6 ∧ p.stream = s.streamOf 6 ∧
      p.data = (s.evts.take 512).flatMap entryBytes))

/-- DRAM commands complete (R249 to R267): training, enabling, retraining, requests carried out or queued, refresh, ageing, row timers, row
disturbance, the patrol scrub's counted errors and parity errors. -/
def Obligations.dram_commands_complete : Prop :=
  (∀ f t s, s.noneWait → s.flag DMC.STATUS_READY = false → (s.regN PWR.DOM_ON).testBit 14 = true → s.pwr.step = 0 → f % 2 ^ 16 = 0 →
    Completes (.dramInitDone f t) s (fun u => u.flag DMC.STATUS_READY = true ∧ u.flag DMC.STATUS_SELFREF = false ∧
      u.flag DMC.STAT_READY = true)) ∧
  (∀ f t s, s.noneWait → s.flag DMC.STATUS_READY = false → (s.regN PWR.DOM_ON).testBit 14 = true → s.pwr.step = 0 → f % 2 ^ 16 ≠ 0 →
    Completes (.dramInitDone f t) s (fun u => u.flag DMC.STATUS_READY = false ∧ u.fld DMC.CHSTAT_FAILED = f % 2 ^ 16 ∧
      u.fld DMC.CHSTAT_TRAINED = 2 ^ 16 - 1 - f % 2 ^ 16 ∧
      u.flag DMC.STAT_TRAIN_FAIL = true)) ∧
  (∀ (v : Word) s, s.noneWait → v.toNat.testBit 0 = true → s.flag DMC.CTRL_EN = false → s.masksOk = true →
    Completes (.dramEnable v) s (fun u => u.flag DMC.CTRL_EN = true)) ∧
  (∀ (v : Word) s, s.noneWait → v.toNat.testBit 0 = true → s.flag DMC.CTRL_EN = false → s.masksOk = false →
    Completes (.dramEnable v) s (fun u => u.flag DMC.CTRL_EN = false ∧ u.flag DMC.STAT_MAP_BAD = true)) ∧
  (∀ (v : Word) s, s.noneWait → v.toNat.testBit 0 = false → Completes (.dramEnable v) s (fun u => u.flag DMC.CTRL_EN = false)) ∧
  (∀ f t s, s.bellState = stSTOPPED → Completes (.dramRetrain f t) s (fun u =>
    u.fld DMC.CHSTAT_FAILED = s.fld DMC.CHSTAT_FAILED &&& f ∧
    u.fld DMC.CHSTAT_TRAINED =
      (s.fld DMC.CHSTAT_TRAINED ||| s.fld DMC.CHSTAT_FAILED) &&& (2 ^ 16 - 1 - (s.fld DMC.CHSTAT_FAILED &&& f)))) ∧
  (∀ f t a s, BlockInv s → s.bellState = stSTOPPED → a < s.dramSize → s.chFailed a = true → f.testBit (s.dramLoc a).ch = false →
    Completes (.dramRetrain f t) s (fun u => u.byte a = 0#8)) ∧
  (∀ f t s, s.bellState ≠ stSTOPPED → Completes (.dramRetrain f t) s (fun u =>
    u.reg DMC.CHSTAT = s.reg DMC.CHSTAT ∧ u.mem = s.mem ∧ u.flag DMC.STAT_RETRAIN_REJ = true)) ∧
  (∀ r a hint t s, r < 16 → a < s.dramSize → s.dramOpen = true → s.dram.queue = [] →
    (s.at t).issuable { req := r, cls := s.dramClass r, since := (s.at t).up, addr := a / 64 * 64, hint := hint, write := false,
                        data := [], be := 0 } = true →
    Completes (.dramRead r a hint t) s (fun u => u.mem = s.mem ∧ u.dram.queue = [] ∧
      ∃ e l, u.sent = .dram r (a / 64 * 64) (s.read (a / 64 * 64) 64) e :: l)) ∧
  (∀ r a hint t s, r < 16 → a < s.dramSize → s.dramOpen = false → Completes (.dramRead r a hint t) s (fun u =>
    u.sent = s.sent ∧ ∃ q, u.dram.queue = s.dram.queue ++ [q] ∧ q.addr = a / 64 * 64)) ∧
  (∀ r a hint be t d s, BlockInv s → r < 16 → a < s.dramSize → s.dramOpen = true → s.dram.queue = [] → d.length = 64 →
    be % 2 ^ 64 = 2 ^ 64 - 1 → s.chFailed (a / 64 * 64) = false →
    (s.at t).issuable { req := r, cls := s.dramClass r, since := (s.at t).up, addr := a / 64 * 64, hint := hint, write := true,
                        data := d, be := 2 ^ 64 - 1 } = true →
    Completes (.dramWrite r a hint be t d) s (fun u => u.read (a / 64 * 64) 64 = d ∧
      (∀ b, (b < a / 64 * 64 ∨ a / 64 * 64 + 64 ≤ b) → u.byte b = s.byte b) ∧ ∃ l, u.sent = .dram r (a / 64 * 64) [] 0 :: l)) ∧
  (∀ b t s, b < 2048 → s.flag DMC.STATUS_READY = true → Completes (.dramRefresh b t) s (fun u =>
    u.dram.rows = s.dram.rows.filter (fun p => !(p.1 / 32 == b / 32 && p.1 % 4 == b % 4)) ∧ u.sent = .dramCmd 0 b :: s.sent ∧
    Store.get? u.dram.cmds (b / 128) =
      some (({ kind := 1, bank := b, row := 0, req := 0, hint := 0 } :: Store.getD s.dram.cmds (b / 128) []).take 64))) ∧
  (∀ t q s, s.noneWait → s.dramOpen = false → q ∈ s.dram.queue → Completes (.requestAgeUp t) s (fun u =>
    (0 < q.cls → ¬ (q.cls = 3 ∧ s.panic = true) → q.since + max 1 (s.fld DMC.PAGE_AGE) * 1000 * ns < (s.at t).up →
      { q with cls := q.cls - 1, since := (s.at t).up } ∈ u.dram.queue) ∧
    (q.cls = 0 ∨ (q.cls = 3 ∧ s.panic = true) → q ∈ u.dram.queue))) ∧
  (∀ t q s, s.noneWait → s.dramOpen = true → s.dram.queue = [q] → q.cls ≤ 3 → (s.at t).issuable q = true →
    Completes (.requestAgeUp t) s (fun u => u.dram.queue = [])) ∧
  (∀ b t o s, Store.get? s.dram.rows b = some o → o.hint ≠ 1 → o.last + s.fld DMC.PAGE_IDLE * ns ≤ (s.at t).up →
    Completes (.rowCloseTimer b t) s (fun u => u.dram.rows = Store.del s.dram.rows b)) ∧
  (∀ b t o s, Store.get? s.dram.rows b = some o → o.hint = 1 → o.opened + max 1 (s.fld DMC.PAGE_OPEN_MAX) * 100 * ns ≤ (s.at t).up →
    Completes (.rowCloseTimer b t) s (fun u => u.dram.rows = Store.del s.dram.rows b)) ∧
  (∀ b r s, b < 2048 → s.rhThresh * (Store.getD s.dram.crossed b 0 + 1) ≤ ((List.range 16).map (s.bankActs b)).sum →
    s.rhPick b = some r → Completes (.rowHammerThreshold b) s (fun u =>
      u.flag DMC.STAT_RH_THROTTLE = true ∧ Store.get? u.dram.throttle (b * 16 + r) = some s.up ∧ .dramCmd 1 b ∈ u.sent ∧
      u.regN DMC.RH_CNT = countUp (s.regN DMC.RH_CNT) ∧
      u.regN DMC.RH_LAST = b / 128 + 16 * (b / 64 % 2) + 32 * (b / 32 % 2) + 64 * (b % 32) + 2048 * r)) ∧
  (∀ b s, b < 2048 → s.rhThresh * (Store.getD s.dram.crossed b 0 + 1) ≤ ((List.range 16).map (s.bankActs b)).sum →
    (∀ r, r < 16 → r ≠ 0 → s.bankActs b r = 0) → Completes (.rowHammerThreshold b) s (fun u => u.flag DMC.STAT_RH_RT = true)) ∧
  (∀ t s, Completes (.rowHammerWindowEnd t) s (fun u => u.dram.acts = [] ∧ u.dram.crossed = [] ∧ u.dram.throttle = [])) ∧
  (∀ t s, s.dramOpen = true → s.fld DMC.SCRUB_HOURS ≠ 0 → s.panic = false → s.dram.scrubAt ≤ (s.at t).up →
    Completes (.patrolScrub t) s (fun u => u.dram.scrub = (s.dram.scrub + 64) % s.dramSize ∧ u.mem = s.mem)) ∧
  (∀ t e s, s.dramOpen = true → s.fld DMC.SCRUB_HOURS ≠ 0 → s.panic = false → s.dram.scrubAt ≤ (s.at t).up → s.dram.scrub < s.dramSize →
    s.chFailed s.dram.scrub = false → s.dram.tags = [] → s.dram.queue = [] → s.dram.errs = [(s.dram.scrub / 64 * 2, e)] →
    Completes (.patrolScrub t) s (fun u =>
      (e = true → u.regN DMC.UE_CNT = countUp (s.regN DMC.UE_CNT) ∧ u.flag DMC.STAT_UE = true ∧ u.dram.errs = s.dram.errs) ∧
      (e = false → u.regN DMC.CE_CNT = countUp (s.regN DMC.CE_CNT) ∧ u.flag DMC.STAT_CE = true ∧ u.dram.errs = []))) ∧
  (∀ ch sc n t s, ch < 16 → sc < 2 → Completes (.caParityError ch sc n false t) s (fun u =>
    u.flag DMC.STAT_CAPAR = true ∧ u.regN DMC.CAPAR_CNT = countUp (s.regN DMC.CAPAR_CNT) ∧
    Store.get? u.dram.parity (ch * 2 + sc) = some 0)) ∧
  (∀ ch sc n t s, ch < 16 → sc < 2 → 2 ≤ Store.getD s.dram.parity (ch * 2 + sc) 0 → Completes (.caParityError ch sc n true t) s (fun u =>
    u.flag DMC.STAT_CH_FAIL = true ∧ (u.fld DMC.CHSTAT_FAILED).testBit ch = true)) ∧
  (∀ m s, Completes (.ueAddrRead m) s (fun u => u.sent = .readData m (s.regN DMC.UE_ADDR_LO) :: s.sent ∧ u.dram.ueArmed = true ∧
    Store.get? u.latch DMC.UE_ADDR_HI = some (s.reg DMC.UE_ADDR_HI)))
/-- Every clerk instruction completes where its core may run it: its effect is applied to the core, and the PC goes on (R270 to R287).
WAIT, HALT, FLD and stalled far accesses have statements of their own. NOP, BR, BRcc, CALL, RET, RTI and LOOP: the PC goes on through two
delay slots, after which a branch is taken (R278); CALL writes LR, RTI restores SR (R277, R284), LOOP its registers (R281). -/
def Obligations.clerk_instructions_complete : Prop :=
  (∀ op n dc s, ClerkReady s n dc op → (s.clerkDoes n dc op).fault = 0 → (s.clerkDoes n dc op).stall = false →
    (s.clerkDoes n dc op).wait = false → (s.clerkDoes n dc op).halt = false →
    exec (clerkCommand op n dc) s =
      .next (s.setCore n ((((s.core n).advance dc).apply (s.clerkDoes n dc op)).goNext (s.clerkDoes n dc op)))) ∧
  (∀ n dc s, ClerkReady s n dc .nop → (s.core n).branch = none → srLDEPTH (s.core n).sr = 0 → (s.core n).delayed = [] →
    Completes (.nop n dc) s (fun u => (u.core n).pc = ((s.core n).pc + 1) % 32768 ∧
      ∀ k, k ≠ 0x300 → k ≠ 0x301 → k ≠ 0x4B → (u.core n).get k = (s.core n).get k)) ∧
  (∀ n dc k a r s, ClerkReady s n dc .nop → (s.core n).branch = some (a, k, r) → 2 ≤ k → Completes (.nop n dc) s (fun u =>
    (u.core n).pc = ((s.core n).pc + 1) % 32768 ∧ (u.core n).branch = some (a, k - 1, r))) ∧
  (∀ n dc a s, ClerkReady s n dc .nop → (s.core n).branch = some (a, 1, false) → Completes (.nop n dc) s (fun u =>
    (u.core n).pc = a ∧ (u.core n).branch = none)) ∧
  (∀ n dc a s, ClerkReady s n dc .nop → (s.core n).branch = some (a, 1, true) → (s.core n).delayed = [] → Completes (.nop n dc) s (fun u =>
    (u.core n).pc = a ∧ (u.core n).branch = none ∧ (u.core n).sr = (s.core n).get 0x43 % 2 ^ 13)) ∧
  (∀ n dc s, ClerkReady s n dc .br → Completes (.br n dc) s (fun u => (u.core n).pc = ((s.core n).pc + 1) % 32768 ∧
    (u.core n).branch = some (bits (s.clerkWord n) 0 15, 2, false))) ∧
  (∀ n dc s, ClerkReady s n dc .brcc → branchCond (s.core n).sr (bits (s.clerkWord n) 20 4) = true → Completes (.brcc n dc) s (fun u =>
    (u.core n).pc = ((s.core n).pc + 1) % 32768 ∧ (u.core n).branch = some (bits (s.clerkWord n) 0 15, 2, false))) ∧
  (∀ n dc s, ClerkReady s n dc .brcc → branchCond (s.core n).sr (bits (s.clerkWord n) 20 4) = false → Completes (.brcc n dc) s (fun u =>
    (u.core n).pc = ((s.core n).pc + 1) % 32768 ∧ (u.core n).branch = some (((s.core n).pc + 3) % 32768, 2, false))) ∧
  (∀ n dc s, ClerkReady s n dc .call → Completes (.call n dc) s (fun u => (u.core n).pc = ((s.core n).pc + 1) % 32768 ∧
    (u.core n).get 0x41 = ((s.core n).pc + 3) % 32768 ∧ (u.core n).branch = some (bits (s.clerkWord n) 0 15, 2, false))) ∧
  (∀ n dc s, ClerkReady s n dc .ret → Completes (.ret n dc) s (fun u => (u.core n).pc = ((s.core n).pc + 1) % 32768 ∧
    (u.core n).branch = some ((s.core n).get 0x41, 2, false))) ∧
  (∀ n dc s, ClerkReady s n dc .rti → Completes (.rti n dc) s (fun u => (u.core n).pc = ((s.core n).pc + 1) % 32768 ∧
    (u.core n).branch = some ((s.core n).get 0x42, 2, true))) ∧
  (∀ n dc l s, ClerkReady s n dc .loop → (s.clerkWord n).testBit 23 = false → l = srLDEPTH (s.core n).sr → l < 2 →
    (s.core n).delayed = [] → bits (s.clerkWord n) 0 15 ≠ (s.core n).pc → Completes (.loop n dc) s (fun u =>
      (u.core n).pc = ((s.core n).pc + 1) % 32768 ∧ srLDEPTH (u.core n).sr = l + 1 ∧
      (u.core n).get (0x44 + 3 * l) = bits (s.clerkWord n) 15 8 + 1 ∧ (u.core n).get (0x45 + 3 * l) = ((s.core n).pc + 1) % 32768 ∧
      (u.core n).get (0x46 + 3 * l) = bits (s.clerkWord n) 0 15))

/-- WAIT stops the core until an interrupt is pending and enabled (R289), HALT halts it (R289), FLD issues its load (R287), FENCE waits
for the store queue (R287). -/
def Obligations.clerk_waits_complete : Prop :=
  (∀ n dc s, ClerkReady s n dc .wait → Completes (.wait n dc) s (fun u =>
    (u.core n).st = if (u.core n).get 0x4A &&& (u.core n).get 0x4B = 0 then 3 else 2)) ∧
  (∀ n dc s, ClerkReady s n dc .halt → (s.core n).storeQ = [] → Completes (.halt n dc) s (fun u =>
    (u.core n).st = 1 ∧ u.flag CLE.STAT_HALTED = true)) ∧
  (∀ n dc s, ClerkReady s n dc .fld → (s.core n).storeQ = [] → Completes (.fld n dc) s (fun u =>
    (u.core n).st = 5 ∧ (u.core n).pc = (s.core n).pc ∧ (u.core n).farLoad = some ((s.core n).farAddr (s.clerkWord n)).1)) ∧
  (∀ n dc s, ClerkReady s n dc .fence → (s.core n).storeQ ≠ [] → Completes (.fence n dc) s (fun u =>
    (u.core n).st = 5 ∧ (u.core n).pc = (s.core n).pc)) ∧
  (∀ n dc s, ClerkReady s n dc .fence → (s.core n).storeQ = [] → (s.core n).branch = none → srLDEPTH (s.core n).sr = 0 →
    (s.core n).delayed = [] → Completes (.fence n dc) s (fun u => (u.core n).st = 2 ∧ (u.core n).pc = ((s.core n).pc + 1) % 32768))

/-- The faults of R288 that an instruction word brings: the core enters FAULT with the code and the PC latched, and CORE_FAULT rises. -/
def Obligations.clerk_faults : Prop :=
  (∀ op n dc s, CoreSteps s n → (s.core n).storeQ = [] → clerkDecode (s.clerkWord n) = none →
    Completes (clerkCommand op n dc) s (fun u => (u.core n).st = 4 ∧ (u.core n).fault = 1 ∧
      u.reg (CLE.CORE_FPC n) = BitVec.ofNat 32 (s.core n).pc ∧ u.flag CLE.STAT_CORE_FAULT = true)) ∧
  (∀ op n dc s, CoreSteps s n → (s.core n).storeQ = [] → clerkDecode (s.clerkWord n) = some op → op.control = true →
    (s.core n).branch ≠ none → Completes (clerkCommand op n dc) s (fun u => (u.core n).st = 4 ∧ (u.core n).fault = 2 ∧
      u.flag CLE.STAT_CORE_FAULT = true)) ∧
  (∀ n dc s, ClerkReady s n dc .loop → (s.core n).storeQ = [] → srLDEPTH (s.core n).sr = 2 → Completes (.loop n dc) s (fun u =>
    (u.core n).st = 4 ∧ (u.core n).fault = 3 ∧ u.flag CLE.STAT_CORE_FAULT = true)) ∧
  (∀ op n dc s, CoreSteps s n → (s.core n).storeQ = [] → clerkDecode (s.clerkWord n) = some op → op.control = true →
    (s.core n).branch = none → ((s.core n).advance dc).nearLoopEnd = true →
    Completes (clerkCommand op n dc) s (fun u => (u.core n).st = 4 ∧ (u.core n).fault = 4 ∧ u.flag CLE.STAT_CORE_FAULT = true))

/-- The accumulator results of R272, R276 and R277, as the second instruction after sees them: modulo 2^40, with the source operands'
exact values; MAC and MSU read the accumulator that R279 forwards. -/
def Obligations.clerk_accumulator_results : Prop :=
  ∀ n dc s a b x y, a = bits (s.clerkWord n) 22 2 → b = bits (s.clerkWord n) 20 2 →
    x = toSigned 16 ((s.core n).d (bits (s.clerkWord n) 21 3)) → y = toSigned 16 ((s.core n).d (bits (s.clerkWord n) 18 3)) →
    (ClerkReady s n dc .mpy → (s.core n).sr.testBit srFRAC = false → Completes (.mpy n dc) s (fun u =>
      (u.core n).settled.acc (bits (s.clerkWord n) 24 2) = ofSigned 40 (x * y))) ∧
    (ClerkReady s n dc .mac → (s.core n).sr.testBit srFRAC = false → Completes (.mac n dc) s (fun u =>
      (u.core n).settled.acc (bits (s.clerkWord n) 24 2) = ofSigned 40 (acc40 ((s.core n).accFwd (bits (s.clerkWord n) 24 2)) + x * y))) ∧
    (ClerkReady s n dc .msu → (s.core n).sr.testBit srFRAC = false → Completes (.msu n dc) s (fun u =>
      (u.core n).settled.acc (bits (s.clerkWord n) 24 2) = ofSigned 40 (acc40 ((s.core n).accFwd (bits (s.clerkWord n) 24 2)) - x * y))) ∧
    (ClerkReady s n dc .add → Completes (.accAdd n dc) s (fun u =>
      (u.core n).settled.acc a = ofSigned 40 (acc40 ((s.core n).acc a) + acc40 ((s.core n).acc b)))) ∧
    (ClerkReady s n dc .sub → Completes (.accSub n dc) s (fun u =>
      (u.core n).settled.acc a = ofSigned 40 (acc40 ((s.core n).acc a) - acc40 ((s.core n).acc b)))) ∧
    (ClerkReady s n dc .neg → Completes (.neg n dc) s (fun u => (u.core n).settled.acc a = ofSigned 40 (-acc40 ((s.core n).acc b)))) ∧
    (ClerkReady s n dc .abs → Completes (.abs n dc) s (fun u =>
      (u.core n).settled.acc a = ofSigned 40 (max (acc40 ((s.core n).acc b)) (-acc40 ((s.core n).acc b))))) ∧
    (ClerkReady s n dc .clr → Completes (.clr n dc) s (fun u => (u.core n).settled.acc a = 0)) ∧
    (ClerkReady s n dc .asl → Completes (.asl n dc) s (fun u =>
      (u.core n).settled.acc a = ofSigned 40 (acc40 ((s.core n).acc b) * 2 ^ bits (s.clerkWord n) 0 6))) ∧
    (ClerkReady s n dc .asr → Completes (.asr n dc) s (fun u =>
      (u.core n).settled.acc a = ofSigned 40 (acc40 ((s.core n).acc b) / 2 ^ bits (s.clerkWord n) 0 6))) ∧
    (ClerkReady s n dc .addd → Completes (.addd n dc) s (fun u => (u.core n).settled.acc a =
      ofSigned 40 (acc40 ((s.core n).acc a) + toSigned 16 ((s.core n).d (bits (s.clerkWord n) 17 3)) * 65536))) ∧
    (ClerkReady s n dc .divs → Completes (.divs n dc) s (fun u => (u.core n).settled.acc a =
      divStep ((s.core n).accFwd a) ((s.core n).d (bits (s.clerkWord n) 19 3)) % 2 ^ 40)) ∧
    (ClerkReady s n dc .cmp → (s.core n).branch = none → Completes (.cmp n dc) s (fun u =>
      (u.core n).sr.testBit srZ = decide (ofSigned 40 (acc40 ((s.core n).acc a) - acc40 ((s.core n).acc (bits (s.clerkWord n) 20 2))) = 0) ∧
      (u.core n).sr.testBit srN =
        (ofSigned 40 (acc40 ((s.core n).acc a) - acc40 ((s.core n).acc (bits (s.clerkWord n) 20 2)))).testBit 39 ∧
      ((s.core n).delayed = [] → ∀ k, k < 4 → (u.core n).acc k = (s.core n).acc k)))

/-- The next instruction after an accumulator write still reads the old accumulator (R278), where no earlier delayed write is out. -/
def Obligations.clerk_accumulator_delay : Prop :=
  ∀ op n dc s k, op ∈ [ClerkOp.mpy, .mac, .msu, .add, .sub, .neg, .abs, .clr, .asl, .asr, .addd, .divs] → ClerkReady s n dc op →
    (s.core n).delayed = [] → k < 4 → Completes (clerkCommand op n dc) s (fun u => (u.core n).acc k = (s.core n).acc k ∧
      (u.core n).noInt = true)

/-- The D results of R277, seen by the next instruction: modulo 2^16. A dual fetch, LD and LD2 load D registers for the second instruction
after them, ST and ST2 write local memory, MOV and LDI write the register of their code, FST and FSTA post a far store (R271, R277, R278,
R286, R287). -/
def Obligations.clerk_d_results : Prop :=
  ∀ n dc s k x y, k = bits (s.clerkWord n) 19 3 → x = (s.core n).d k → y = (s.core n).d (bits (s.clerkWord n) 16 3) →
    (s.core n).delayed = [] →
    (ClerkReady s n dc .and → Completes (.and n dc) s (fun u => (u.core n).d k = (x &&& y) % 65536)) ∧
    (ClerkReady s n dc .or → Completes (.or n dc) s (fun u => (u.core n).d k = (x ||| y) % 65536)) ∧
    (ClerkReady s n dc .xor → Completes (.xor n dc) s (fun u => (u.core n).d k = (x ^^^ y) % 65536)) ∧
    (ClerkReady s n dc .add16 → Completes (.add16 n dc) s (fun u => (u.core n).d k = (x + y) % 65536)) ∧
    (ClerkReady s n dc .sub16 → Completes (.sub16 n dc) s (fun u => ((u.core n).d k + y) % 65536 = x % 65536)) ∧
    (ClerkReady s n dc .dual → (s.clerkWord n).testBit 17 = true → (s.clerkWord n).testBit 9 = false → Completes (.dualFetch n dc) s (fun u =>
      (u.core n).settled.d (bits (s.clerkWord n) 14 3) =
        Store.getD (s.core n).xm ((s.core n).get (8 + bits (s.clerkWord n) 12 2) % 32768) 0 % 65536)) ∧
    (ClerkReady s n dc .dual → (s.clerkWord n).testBit 9 = true → Completes (.dualFetch n dc) s (fun u =>
      (u.core n).settled.d (bits (s.clerkWord n) 6 3) =
        Store.getD (s.core n).ym ((s.core n).get (12 + bits (s.clerkWord n) 4 2) % 32768) 0 % 65536)) ∧
    (ClerkReady s n dc .mov → bits (s.clerkWord n) 16 8 < 8 → bits (s.clerkWord n) 8 8 < 8 → Completes (.mov n dc) s (fun u =>
      (u.core n).d (bits (s.clerkWord n) 16 8) = (s.core n).d (bits (s.clerkWord n) 8 8) % 65536)) ∧
    (ClerkReady s n dc .mov → bits (s.clerkWord n) 16 8 < 8 → 0x10 ≤ bits (s.clerkWord n) 8 8 → bits (s.clerkWord n) 8 8 ≤ 0x17 →
      Completes (.mov n dc) s (fun u => (u.core n).d (bits (s.clerkWord n) 16 8) =
        (accRead (s.core n).sr (decide (0x14 ≤ bits (s.clerkWord n) 8 8)) ((s.core n).acc (bits (s.clerkWord n) 8 8 % 4))).1 % 65536)) ∧
    (ClerkReady s n dc .mov → 0x10 ≤ bits (s.clerkWord n) 16 8 → bits (s.clerkWord n) 16 8 ≤ 0x17 → bits (s.clerkWord n) 8 8 < 8 →
      Completes (.mov n dc) s (fun u => (u.core n).acc (bits (s.clerkWord n) 16 8 % 4) =
        ofSigned 40 (toSigned 16 ((s.core n).d (bits (s.clerkWord n) 8 8)) * 65536))) ∧
    (ClerkReady s n dc .ldi → bits (s.clerkWord n) 16 8 < 8 → Completes (.ldi n dc) s (fun u =>
      (u.core n).d (bits (s.clerkWord n) 16 8) = bits (s.clerkWord n) 0 16)) ∧
    (ClerkReady s n dc .ld → Completes (.ld n dc) s (fun u => (u.core n).settled.d (bits (s.clerkWord n) 21 3) =
      (s.core n).dm ((s.core n).localAddr (s.clerkWord n)).1 % 65536)) ∧
    (ClerkReady s n dc .ld2 → Completes (.ld2 n dc) s (fun u =>
      (u.core n).settled.d (2 * bits (s.clerkWord n) 21 2) = (s.core n).dm ((s.core n).localAddr (s.clerkWord n)).1 % 65536 ∧
      (u.core n).settled.d (2 * bits (s.clerkWord n) 21 2 + 1) =
        (s.core n).dm ((((s.core n).localAddr (s.clerkWord n)).1 + 1) % 65536) % 65536)) ∧
    (ClerkReady s n dc .st → Store.rising none (s.core n).xm = true → Store.rising none (s.core n).ym = true →
      Completes (.st n dc) s (fun u => (u.core n).dm ((s.core n).localAddr (s.clerkWord n)).1 =
        (s.core n).d (bits (s.clerkWord n) 21 3) % 65536)) ∧
    (ClerkReady s n dc .st2 → Store.rising none (s.core n).xm = true → Store.rising none (s.core n).ym = true →
      Completes (.st2 n dc) s (fun u =>
        (u.core n).dm ((s.core n).localAddr (s.clerkWord n)).1 = (s.core n).d (2 * bits (s.clerkWord n) 21 2) % 65536 ∧
        (u.core n).dm ((((s.core n).localAddr (s.clerkWord n)).1 + 1) % 65536) =
          (s.core n).d (2 * bits (s.clerkWord n) 21 2 + 1) % 65536)) ∧
    (ClerkReady s n dc .fst → (s.core n).storeQ.length < 16 → Completes (.fst n dc) s (fun u => (u.core n).storeQ = (s.core n).storeQ ++
      [(((s.core n).farAddr (s.clerkWord n)).1,
        (s.core n).d (2 * bits (s.clerkWord n) 19 2) + (s.core n).d (2 * bits (s.clerkWord n) 19 2 + 1) * 65536)])) ∧
    (ClerkReady s n dc .fsta → (s.core n).storeQ.length < 16 → Completes (.fsta n dc) s (fun u => (u.core n).storeQ = (s.core n).storeQ ++
      [(((s.core n).farAddr (s.clerkWord n)).1, (accClip32 (s.core n).sr ((s.core n).acc (bits (s.clerkWord n) 19 2))).1)]))

/-- The other clerk commands complete: far accesses, interrupts, timer, doorbell, local memory, run control, jobs, flags (R269, R283 to
R292). -/
def Obligations.clerk_commands_complete : Prop :=
  (∀ n t a v l s, BlockInv s → n < 16 → (s.core n).storeQ = (a, v) :: l → (s.core n).stopping = 0 → s.masterLive (clerkMaster n) = true →
    Completes (.farStoreComplete n 1 t) s (fun u => (u.core n).storeQ = l ∧ (u.core n).werr = true ∧ (u.core n).faddr = a ∧
      u.flag CLE.STAT_FAR_ERR = true ∧ u.mem = s.mem)) ∧
  (∀ n t a v l s, BlockInv s → n < 16 → (s.core n).storeQ = (a, v) :: l → (s.core n).stopping = 0 → s.masterLive (clerkMaster n) = true →
    s.place a = .trunk → a % 4 = 0 → s.ctxInUse a = false → s.waitsFor (clerkMaster n) a = false → Completes (.farStoreComplete n 0 t) s (fun u =>
      (u.core n).storeQ = l ∧ u.read a 4 = toBytes 4 v)) ∧
  (∀ n t a s, BlockInv s → n < 16 → (s.core n).farLoad = some a → (s.core n).storeQ = [] → s.masterLive (clerkMaster n) = true →
    Completes (.farLoadComplete n 1 t) s (fun u => (u.core n).st = 4 ∧ (u.core n).fault = 5 ∧ u.flag CLE.STAT_CORE_FAULT = true)) ∧
  (∀ n t a s, BlockInv s → n < 16 → (s.core n).farLoad = some a → (s.core n).haltNow = false → s.masterLive (clerkMaster n) = true →
    s.place a = .trunk → a % 4 = 0 → s.badWords a 4 = [] → s.waitsFor (clerkMaster n) a = false → Completes (.farLoadComplete n 0 t) s (fun u => (u.core n).farLoad = none ∧
      (u.core n).delayed = [(2 * bits (s.clerkWord n) 19 2, s.readN a 4 % 65536), (2 * bits (s.clerkWord n) 19 2 + 1, s.readN a 4 / 65536)])) ∧
  (∀ n k s, BlockInv s → n < 16 → s.works 16 25 = true → (s.core n).irq = some k → ((s.core n).st = 2 ∨ (s.core n).st = 3) → (s.core n).boundary = true →
    (s.core n).sr.testBit srIE = true → Completes (.interruptEntry n) s (fun u => (u.core n).pc = 4 * k ∧
      (u.core n).get 0x42 = (s.core n).pc ∧ (u.core n).get 0x43 = (s.core n).sr ∧ (u.core n).sr.testBit srIE = false ∧
      srLDEPTH (u.core n).sr = 0 ∧ (u.core n).st = 2)) ∧
  (∀ n s, BlockInv s → n < 16 → s.works 16 25 = true → (s.core n).st = 3 → (s.core n).sr.testBit srIE = false → (s.core n).irq.isSome = true →
    Completes (.coreWake n) s (fun u => u = s.setCore n { s.core n with st := 2 })) ∧
  (∀ n dc s, BlockInv s → n < 16 → s.works 16 25 = true → 0 < (s.core n).get 0x301 → (s.core n).get 0x301 ≤ dc → Completes (.timerExpire n dc) s (fun u =>
    (u.core n).get 0x301 = 0 ∧ ((u.core n).get 0x4B).testBit 3 = true)) ∧
  (∀ n (v : Word) s, BlockInv s → n < 16 → Completes (.doorbellWrite n v) s (fun u =>
    (u.core n).get 0x52 = (s.core n).get 0x52 ||| v.toNat % 65536 ∧
    (v.toNat % 65536 ≠ 0 → ((u.core n).get 0x4B).testBit 2 = true))) ∧
  (∀ (v : Word) s, s.accessible 0 CLE.MDATA = true → (s.core (s.fld CLE.MSEL_CORE)).errs = [] → s.fld CLE.MSEL_MEM = 0 → Completes (.localMemoryAccess false v) s (fun u =>
    u.sent = .readData 0 (Store.getD (s.core (s.fld CLE.MSEL_CORE)).pm (s.fld CLE.MADDR_ADDR) 0) :: s.sent ∧
    u.fld CLE.MADDR_ADDR = (s.fld CLE.MADDR_ADDR + 1) % 2 ^ CLE.MADDR_ADDR.wid)) ∧
  (∀ (v : Word) s, s.accessible 0 CLE.MDATA = true → s.fld CLE.MSEL_MEM = 0 → (s.core (s.fld CLE.MSEL_CORE)).st = 2 → Completes (.localMemoryAccess true v) s (fun u =>
    (u.core (s.fld CLE.MSEL_CORE)).pm = (s.core (s.fld CLE.MSEL_CORE)).pm ∧ u.flag CLE.STAT_PM_WR = true)) ∧
  (∀ (v : Word) s, BlockInv s → s.accessible 0 CLE.MDATA = true → s.fld CLE.MSEL_MEM = 0 → (s.core (s.fld CLE.MSEL_CORE)).st = 1 → Completes (.localMemoryAccess true v) s
    (fun u => (u.core (s.fld CLE.MSEL_CORE)).pm =
      Store.set 0 (s.core (s.fld CLE.MSEL_CORE)).pm (s.fld CLE.MADDR_ADDR) v.toNat)) ∧
  (∀ n (v : Word) s, BlockInv s → n < 16 → v.toNat.testBit 0 = true → v.toNat.testBit 3 = false → (s.core n).st = 0 →
    Completes (.coreRun n v) s (fun u => (u.core n).st = 2 ∧ (u.core n).pc = u.fld (CLE.CORE_CTRL_ENTRY n) ∧
      u.regN (CLE.CORE_CTRL n) = v.toNat % 2 ^ 19)) ∧
  (∀ n (v : Word) s, BlockInv s → n < 16 → v.toNat.testBit 0 = true → v.toNat.testBit 3 = true → (s.core n).st = 0 →
    Completes (.coreRun n v) s (fun u => (u.core n).st = 0 ∧ (u.core n).startBell = true)) ∧
  (∀ n (v : Word) s, BlockInv s → n < 16 → v.toNat.testBit 0 = false → v.toNat.testBit 1 = false → (s.core n).st = 2 →
    (s.core n).boundary = true → (s.core n).storeQ = [] → Completes (.coreHalt n v) s (fun u =>
      (u.core n).st = 1 ∧ (u.core n).pc = (s.core n).pc ∧ u.flag CLE.STAT_HALTED = true)) ∧
  (∀ n (v : Word) s, BlockInv s → n < 16 → v.toNat.testBit 0 = false → v.toNat.testBit 1 = true → (s.core n).st = 2 →
    Completes (.coreHalt n v) s (fun u => (u.core n).st = 2 ∧ (u.core n).haltBell = true)) ∧
  (∀ n dc s, ClerkReady s n dc .mov → bits (s.clerkWord n) 8 8 = 0x4C → moveCode (bits (s.clerkWord n) 16 8) = true →
    Completes (.jobqPop n dc) s (fun u => (u.core n).jobq = (s.core n).jobq.drop 1)) ∧
  (∀ n dc s, ClerkReady s n dc .ldi → bits (s.clerkWord n) 16 8 = 0x4D → Completes (.jobDone n dc) s (fun u =>
    (u.core n).settled.done.head? = some (bits (s.clerkWord n) 0 16))) ∧
  (∀ (v : Word) s, Completes (.flagsSet v) s (fun u => u.reg CLE.FLAGS = s.reg CLE.FLAGS ||| v)) ∧
  (∀ (v : Word) s, Completes (.flagsClr v) s (fun u => u.reg CLE.FLAGS = s.reg CLE.FLAGS &&& ~~~v))
/-- Reference commands complete: messages, qualification, selection, comparison (R294 to R303). A time-of-day message that follows its
predecessor is taken; one with none becomes the predecessor; any other is only discarded (R295). What the second measures of the reference
in lock is slewed out at SLEW (R306). -/
def Obligations.reference_commands_complete : Prop :=
  (∀ r m after t s, r < 3 → todFormat m = true → 10000000 * ns ≤ after → after ≤ 900000000 * ns →
    (s.at t).todBefore r ((s.at t).up - after) = some ((leAt m 4 6 + 2 ^ 48 - 1) % 2 ^ 48) →
    Completes (.todMessageRx r m after t) s (fun u =>
      Store.get? u.mel.todAt r = some (s.at t).up ∧ Store.get? u.mel.todSec r = some (leAt m 4 6) ∧
      u.fld (MEL.REF_QL_CODE r) = leAt m 3 1 % 16)) ∧
  (∀ r m after t s, r < 3 → todFormat m = true → 10000000 * ns ≤ after → after ≤ 900000000 * ns →
    (s.at t).todBefore r ((s.at t).up - after) = none → Completes (.todMessageRx r m after t) s (fun u =>
      Store.get? u.mel.todPred r = some (leAt m 4 6, (s.at t).up - after) ∧ u.mel.todAt = s.mel.todAt ∧ u.flag MEL.STAT_TOD_ERR = true)) ∧
  (∀ r m after x t s, r < 3 → (s.at t).todBefore r ((s.at t).up - after) = some x → x ≠ (leAt m 4 6 + 2 ^ 48 - 1) % 2 ^ 48 →
    Completes (.todMessageRx r m after t) s (fun u => u.mel = (s.at t).mel ∧ u.flag MEL.STAT_TOD_ERR = true)) ∧
  (∀ r m after t s, r < 3 → todFormat m = false → Completes (.todMessageRx r m after t) s (fun u =>
    u.mel = (s.at t).mel ∧ u.flag MEL.STAT_TOD_ERR = true)) ∧
  (∀ p e ql t s, p < 2 → s.svcUp p = true → Completes (.esmcPduRx p e ql t) s (fun u =>
    p ∉ u.mel.esmcFailed ∧ u.fld (MEL.REF_QL_CODE (3 + p)) = ql % 16)) ∧
  (∀ p t s, p < 2 → p ∉ s.mel.esmcFailed → Store.getD s.mel.esmcAt p 0 + 5 * second ≤ (s.at t).up → Completes (.esmcTimeout p t) s (fun u =>
    p ∈ u.mel.esmcFailed ∧ u.flag MEL.STAT_ESMC_TO = true)) ∧
  (∀ p t s, p < 2 → s.svcUp p = true → Completes (.esmcPduTx p t) s (fun u => ∃ f l, u.sent = .svcFrame p f :: l ∧
    beAt f 0 6 = 0x0180C2000002 ∧ beAt f 12 2 = 0x8809)) ∧
  (∀ r t s, s.refOn r = true → s.mel.started = true → s.refQual r ≠ 0 → Completes (.refDisqualify r 0 t) s (fun u =>
    u.refQual r = 0 ∧ (u.fld (MEL.REF_STATUS_CAUSE r)).testBit 0 = true ∧ u.flag MEL.STAT_REF_LOST = true)) ∧
  (∀ r t s, s.refOn r = true → s.mel.started = true → s.refQual r = 0 → (s.at t).checksPass r = true →
    Completes (.refQualify r t) s (fun u => u.refQual r = 1 ∧ u.fld (MEL.REF_STATUS_CAUSE r) = 0 ∧
      Store.get? u.mel.qualSince r = some (s.at t).up)) ∧
  (∀ r t s, s.refOn r = true → s.refQual r = 1 → (s.at t).waitLeft r = 0 → Completes (.refAvailable r t) s (fun u =>
    u.refQual r = 2 ∧ u.flag MEL.STAT_REF_AVAIL = true)) ∧
  (∀ b t s, s.mel.started = true → t % (100000000 * ns) = 0 → s.flag MEL.CTRL_FORCE_HO = false → s.melState = 2 → s.bestRef = some b →
    s.noSelection = false → b ≠ s.melActive → s.selectionDue s.melActive b = true → Completes (.refSelectEval t) s (fun u =>
      u.melState = 6 ∧ u.melActive = b ∧ u.fld MEL.STATUS_TARGET = b ∧ u.flag MEL.STAT_SWITCH = true)) ∧
  (∀ b t s, s.mel.started = true → t % (100000000 * ns) = 0 → s.flag MEL.CTRL_FORCE_HO = false → s.melState = 0 → s.bestRef = some b →
    s.noSelection = true → Completes (.refSelectEval t) s (fun u => u.melState = 1 ∧ u.melActive = b ∧ u.mel.acqSince = some (s.at t).up)) ∧
  (∀ t s, s.melState = 6 → Completes (.switchSettled t) s (fun u => u.melState = 2 ∧ u.flag MEL.STAT_SWITCH_DONE = true ∧
    u.regN MEL.SWITCH_CNT = countUp (s.regN MEL.SWITCH_CNT))) ∧
  (∀ foff toff t s, s.mel.started = true → Completes (.disagreeCheck foff toff t) s (fun u => ∀ r, r < 6 →
    u.regN (MEL.REF_FOFF r) = ofSigned 32 (clampI (-(2 ^ 31)) (2 ^ 31 - 1) (atD foff r 0)) ∧
    (r < 3 → u.regN (MEL.REF_TOFF r) = ofSigned 32 (clampI (-(2 ^ 31)) (2 ^ 31 - 1) (atD toff r 0))))) ∧
  (∀ foff toff r t s, s.mel.started = true → s.melState = 2 → s.melActive = r → r < 3 → s.qualified r = true →
    -(2 ^ 31) ≤ atD toff r 0 → atD toff r 0 < 2 ^ 31 → Completes (.disagreeCheck foff toff t) s (fun u =>
      u.mel.offset = -(atD toff r 0 * ns) ∧ u.mel.slew = max 1 (s.fld MEL.DPLL_SLEW) ∧
      (1000 < (atD toff r 0).natAbs → u.flag MEL.STAT_TOFF_BIG = true)))

/-- Lock, holdover and Melier pair commands complete (R305 to R319, R343): lock after 2 s within ±5 ns, holdover at the holdover frequency or
free-run without one, the switch-over gaps, planned swaps with their monitor, resynchronisation and restart. -/
def Obligations.melier_commands_complete : Prop :=
  (∀ t s, s.melState = 1 → s.qualified s.melActive = true → s.mel.acqSince.getD 0 + 2 * second ≤ (s.at t).up →
    Completes (.dpllLock t) s (fun u =>
    u.melState = 2 ∧ u.flag MEL.STATUS_OOS = false ∧ u.flag MEL.STAT_LOCKED = true)) ∧
  (∀ (v : Word) t s, v.toNat.testBit 1 = true → v.toNat.testBit 2 = false → v.toNat.testBit 3 = false → v.toNat.testBit 4 = false →
    s.melState = 2 → (s.at t).hasHoldover = true → Completes (.forceHoldover v t) s (fun u =>
      u.melState = 3 ∧ u.melActive = 7 ∧ u.flag MEL.STAT_HOLDOVER = true ∧
      ((s.at t).lockedLong = false → some u.mel.steer = s.mel.hoFreq))) ∧
  (∀ (v : Word) t s, v.toNat.testBit 1 = true → v.toNat.testBit 2 = false → v.toNat.testBit 3 = false → v.toNat.testBit 4 = false →
    s.melState = 2 → (s.at t).hasHoldover = false → Completes (.forceHoldover v t) s (fun u => u.melState = 0 ∧ u.melActive = 7 ∧
      u.mel.steer = 0)) ∧
  (∀ t s, s.melState = 3 → s.regN MEL.HO_LIM * (s.at t).holdTe.2 < (s.at t).holdTe.1 → Completes (.holdoverExpired t) s (fun u =>
    u.melState = 4 ∧ u.flag MEL.STATUS_OOS = true ∧ u.flag MEL.STAT_HOLDOVER_OOS = true)) ∧
  (∀ t s, s.flag MEL.STATUS_OSC = false → Completes (.oscLost t) s (fun u => u.flag MEL.STATUS_OSC = true ∧
    u.ready 4 = false ∧ u.ready 5 = false ∧ u.flag MEL.STAT_OSC_LOST = true)) ∧
  (∀ t s, s.noneWait → s.flag MEL.STATUS_OSC = true → Completes (.oscRestored t) s (fun u =>
    u.flag MEL.STATUS_OSC = false ∧ u.ready 5 = true ∧ u.flag MEL.STAT_OSC_BACK = true)) ∧
  (∀ t s, s.noneWait → s.flag MEL.STATUS_OSC = false → s.ready 5 = false → Completes (.oscRestored t) s (fun u => u.ready 5 = true)) ∧
  (∀ t s, s.mel.started = true → s.melState ≠ 7 → s.standbyGood = true → s.mel.resync = false → s.mel.swapAt = none →
    Completes (.takeover t) s (fun u => u.melCore = 1 - s.melCore ∧ u.flag (okFld s.melCore) = false ∧
      u.regN MEL.TKO_NS = (s.at t).freeRun ∧ u.regN MEL.TKO_CNT = countUp (s.regN MEL.TKO_CNT) ∧ u.flag MEL.STAT_TAKEOVER = true ∧
      u.mel.gapFrom = (s.at t).now ∧ u.mel.gapTo ≤ (s.at t).now + 20 * 4 * ns / 5)) ∧
  (∀ t a s, s.mel.started = true → s.melState ≠ 7 → s.standbyGood = true → s.mel.resync = false → s.mel.swapAt = some a →
    Completes (.takeover t) s (fun u => u.melCore = 1 - s.melCore ∧ u.mel.swapAt = none ∧ u.flag (latFld s.melCore) = true ∧
      u.flag MEL.STAT_SWAP_FAIL = true)) ∧
  (∀ t s, s.mel.started = true → s.melState ≠ 7 → Completes (.melierMismatch t) s (fun u =>
    u.flag (okFld (1 - s.melCore)) = false ∧ u.flag MEL.STAT_MISMATCH = true)) ∧
  (∀ t s, s.mel.started = true → s.melState ≠ 7 → s.standbyGood = false → Completes (.timeCoreFault t) s (fun u =>
    u.melState = 7 ∧ u.melActive = 7 ∧ u.flag MEL.STAT_CORE_FAULT = true ∧ u.mel.gapTo = (s.at t).now + 20 * 4 * ns / 5)) ∧
  (∀ (v : Word) t s, v.toNat.testBit 1 = false → v.toNat.testBit 2 = true → v.toNat.testBit 3 = false → v.toNat.testBit 4 = false →
    s.mel.started = true → s.standbyGood = true → s.melState ≠ 6 → s.melState ≠ 7 → s.mel.swapAt = none → s.mel.resync = false →
    Completes (.plannedSwap v t) s (fun u => u.melCore = 1 - s.melCore ∧ u.mel.swapAt = some (s.at t).up)) ∧
  (∀ (v : Word) t s, v.toNat.testBit 1 = false → v.toNat.testBit 2 = true → v.toNat.testBit 3 = false → v.toNat.testBit 4 = false →
    s.standbyGood = false → Completes (.plannedSwap v t) s (fun u => u.melCore = s.melCore ∧ u.flag MEL.STAT_SWAP_REJ = true)) ∧
  (∀ t a s, s.mel.swapAt = some a → s.standbyGood = false → Completes (.swapMonitorEnd true t) s (fun u =>
    u.melState = 7 ∧ u.mel.swapAt = none ∧ u.flag MEL.STAT_CORE_FAULT = true)) ∧
  (∀ t a s, s.mel.swapAt = some a → s.standbyGood = true → Completes (.swapMonitorEnd true t) s (fun u =>
    u.melCore = 1 - s.melCore ∧ u.mel.swapAt = none ∧ u.flag (latFld s.melCore) = true ∧ u.flag MEL.STAT_SWAP_FAIL = true)) ∧
  (∀ t a s, s.mel.swapAt = some a → a + 1000000 * ns ≤ (s.at t).up → Completes (.swapMonitorEnd false t) s (fun u =>
    u.melCore = s.melCore ∧ u.mel.swapAt = none ∧ u.flag MEL.STAT_SWAP_OK = true)) ∧
  (∀ (v : Word) t s, v.toNat.testBit 1 = false → v.toNat.testBit 2 = false → v.toNat.testBit 3 = true → v.toNat.testBit 4 = false →
    s.mel.started = true → s.melState ≠ 7 → s.mel.swapAt = none → s.flag (okFld (1 - s.melCore)) = false →
    Completes (.resync v t) s (fun u => u.mel.resync = true)) ∧
  (∀ t s, s.mel.resync = true → Completes (.resyncDone t) s (fun u =>
    u.mel.resync = false ∧ u.flag (okFld (1 - s.melCore)) = true ∧ u.flag MEL.STAT_RESYNC_DONE = true)) ∧
  (∀ (v : Word) t s, v.toNat.testBit 1 = false → v.toNat.testBit 2 = false → v.toNat.testBit 3 = false → v.toNat.testBit 4 = true →
    s.bellState = stSTOPPED → Completes (.pairRst v t) s (fun u => u.mel.started = true ∧ u.melState = 0 ∧ u.melActive = 7 ∧ u.melCore = 0 ∧
      u.flag MEL.STATUS_A_OK = true ∧ u.flag MEL.STATUS_B_OK = true ∧ u.mel.hoFreq = none)) ∧
  (∀ (v : Word) t s, v.toNat.testBit 1 = false → v.toNat.testBit 2 = false → v.toNat.testBit 3 = false → v.toNat.testBit 4 = true →
    s.bellState ≠ stSTOPPED → Completes (.pairRst v t) s (fun u => u.mel = (s.at t).mel ∧ u.flag MEL.STAT_RST_REJ = true)) ∧
  (∀ t s, s.mel.started = false → s.melStopped = false → s.flag MEL.STATUS_OSC = false → Completes (.melierStartupDone t) s (fun u =>
    u.mel.started = true ∧ u.regN MEL.STATUS = 0x0C38 ∧ u.ready 4 = true ∧ u.ready 5 = true))
/-- Station time, stamps and the service chain complete (R320 to R335). -/
def Obligations.station_time_commands_complete : Prop :=
  (∀ src fall t s, src < 11 → Store.get? s.ptp.lastEdge src = none → Completes (.stampEdge src fall t) s (fun u =>
    Store.get? u.ptp.lastEdge src = some (s.at t).up ∧ u.regN (PTP.TSLAST src) = (s.at t).stampOf)) ∧
  (∀ src fall t a s, src < 11 → Store.get? s.ptp.lastEdge src = some a → (s.at t).up < a + 100 * ns → Completes (.stampEdge src fall t) s
    (fun u => u.flag PTP.STAT_TS_LOST = true ∧ u.regN PTP.TSQ_LOST = countUp (s.regN PTP.TSQ_LOST))) ∧
  (∀ (v : Word) t s, v.toNat.testBit 0 = true → v.toNat.testBit 1 = true → s.bellState = stSTOPPED → Completes (.timeSetCmd v t) s (fun u =>
    u.now = s.tsetSec * second + s.fld PTP.TSET_NS_NS * ns ∧ u.flag PTP.STATUS_VALID = true ∧ u.flag PTP.STAT_TIME_SET = true)) ∧
  (∀ (v : Word) t s, v.toNat.testBit 0 = true → v.toNat.testBit 1 = false → s.bellState = stSTOPPED → Completes (.timeSetCmd v t) s (fun u =>
    u.now = (s.at t).now ∧ u.flag PTP.TSET_CMD_PEND = true ∧ u.ptp.tset = s.tsetSec)) ∧
  (∀ (v : Word) t s, v.toNat.testBit 0 = true → s.bellState ≠ stSTOPPED → Completes (.timeSetCmd v t) s (fun u =>
    u.now = (s.at t).now ∧ u.flag PTP.STAT_TSET_REJ = true)) ∧
  (∀ m t s, Completes (.nowRead m t) s (fun u => u.sent = .readData m ((s.at t).heldNow / ns % 1000000000) :: s.sent ∧
    u.regN PTP.NOW_SEC_LO = (s.at t).heldNow / second % 2 ^ 32 ∧ u.regN PTP.NOW_SEC_HI = (s.at t).heldNow / second / 2 ^ 32 % 65536 ∧
    u.regN PTP.NOW_FR = (s.at t).freeRun)) ∧
  (∀ m s, s.ptp.queue = [] → Completes (.stampQueuePop m) s (fun u => u = s.emit (.readData m 0))) ∧
  (∀ m q l s, s.ptp.queue = q :: l → Completes (.stampQueuePop m) s (fun u => u.ptp.queue = l ∧ u.regN PTP.TSQ_NS = q.fr % 2 ^ 32 ∧
    u.sent = .readData m (1 + 2 * q.src + 32 * boolNat q.fall + 64 * l.length + 8192 * boolNat q.ovf) :: s.sent)) ∧
  (∀ p f room tx t s, p < 2 → s.svcUp p = true → Completes (.svcFrameRx p f false room tx t) s (fun u =>
    u.flag PTP.STAT_FWD_DROP = true ∧ u.regN (PTP.SVC_DROP p) = countUp (s.regN (PTP.SVC_DROP p)))) ∧
  (∀ p f room tx t s, p < 2 → s.svcUp p = true → 9216 < f.length + 4 → Completes (.svcFrameRx p f true room tx t) s (fun u =>
    u.flag PTP.STAT_FWD_DROP = true ∧ u.regN (PTP.SVC_DROP p) = countUp (s.regN (PTP.SVC_DROP p)))) ∧
  (∀ p f room tx t s, p < 2 → s.svcUp p = true → (s.svcUp (otherSvc p) = false ∨ s.svcChain = false) → f.length ≤ 9212 →
    beAt f 12 2 ≠ 0x88B5 → beAt f (etherTypeAt f) 2 ≠ 0x8809 → ptpLoc f = none → beAt f 0 6 ≠ 0x0180C200000E →
    Completes (.svcFrameRx p f true room tx t) s (fun u => u.sent = s.sent ∧
      u.flag PTP.STAT_FWD_DROP = true ∧ u.regN (PTP.SVC_DROP p) = countUp (s.regN (PTP.SVC_DROP p)))) ∧
  (∀ p f room tx t s, BlockInv s → p < 2 → s.svcUp p = true → s.svcUp (otherSvc p) = true → s.svcChain = true → f.length ≤ 9212 →
    beAt f 12 2 ≠ 0x88B5 → beAt f (etherTypeAt f) 2 ≠ 0x8809 → ptpLoc f = none → beAt f 0 6 ≠ 0x0180C200000E →
    (s.svcOut (otherSvc p)).frames = [] → (s.svcOut (otherSvc p)).freeAt ≤ (s.at t).up → Completes (.svcFrameRx p f true room tx t) s (fun u =>
      u.sent = .svcFrame (otherSvc p) f :: s.sent ∧
      u.regN (PTP.SVC_FWD (otherSvc p)) = countUp (s.regN (PTP.SVC_FWD (otherSvc p))))) ∧
  (∀ p f l g room tx t s, BlockInv s → p < 2 → s.svcUp p = true → s.svcUp (otherSvc p) = true → s.svcChain = true →
    s.flag PTP.TC_CTRL_EN = true → f.length ≤ 9212 → ptpLoc f = some l → s.consumesPdelay f = false → ptpType f l.off = 0 →
    ptpTwoStep f l.off = false → s.p2p = false → (s.svcOut (otherSvc p)).frames = [] →
    (s.svcOut (otherSvc p)).freeAt ≤ (s.at t).up → (s.at t).now ≤ tx → corrected f l ((s.at t).residence p tx) = some g →
    Completes (.ptpMessageRx p f room tx t) s (fun u => u.sent = .svcFrame (otherSvc p) g :: s.sent)) ∧
  (∀ t e l s, s.ptp.tc = e :: l → e.since + second ≤ (s.at t).up → Completes (.twoStepEntryTimeout t) s (fun u =>
    u.ptp.tc = l ∧ u.flag PTP.STAT_TC_UNMATCHED = true ∧ u.regN PTP.TC_UNM = countUp (s.regN PTP.TC_UNM)))

/-- Peer delay and slave commands complete (R335 to R339). -/
def Obligations.peer_delay_and_slave_commands_complete : Prop :=
  (∀ p t s, BlockInv s → p < 2 → s.p2p = true → s.svcUp p = true →
    (∀ a, (s.pd p).sentAt = some a → a + s.pdInterval ≤ (s.at t).up) → Completes (.pdelayReqTx p t) s (fun u =>
      (u.pd p).seq = ((s.pd p).seq + 1) % 65536 ∧ (u.pd p).unanswered = (s.pd p).unanswered + 1 ∧
      ∃ l, u.sent = .svcFrame p (s.ptpFrame (s.fld PTP.TC_CTRL_TRANS) true true (ptpMsg 2 (s.fld PTP.TC_CTRL_DOMAIN) 0 0 (s.ownSpi p)
        (((s.pd p).seq + 1) % 65536) 0x7F (List.replicate 20 0#8))) :: l)) ∧
  (∀ p f l tx t s, p < 2 → s.p2p = true → s.svcUp p = true → ptpLoc f = some l → ptpType f l.off = 2 → s.flag PTP.TC_CTRL_ONESTEP = true →
    Completes (.pdelayReqRx p f tx t) s (fun u => ∃ k, u.sent = .svcFrame p (s.ptpFrame (s.fld PTP.TC_CTRL_TRANS) true true
      (ptpMsg 3 (ptpDomain f l.off) 0 (ptpCorr f l.off + (s.egressStamp p tx - (s.at t).ingressStamp p)) (s.ownSpi p)
        (ptpSeq f l.off) 0x7F (List.replicate 10 0#8 ++ toBytesBE 10 (ptpSpi f l.off)))) :: k)) ∧
  (∀ p f l tx t s, p < 2 → s.p2p = true → s.svcUp p = true → ptpLoc f = some l → ptpType f l.off = 2 → s.flag PTP.TC_CTRL_ONESTEP = false →
    Completes (.pdelayReqRx p f tx t) s (fun u => ∃ k, u.sent = .svcFrame p (s.ptpFrame (s.fld PTP.TC_CTRL_TRANS) true false
      (ptpMsg 10 (ptpDomain f l.off) 0 (ptpCorr f l.off + s.egressStamp p tx % ns) (s.ownSpi p) (ptpSeq f l.off) 0x7F
        (stampBytes (s.egressStamp p tx) ++ toBytesBE 10 (ptpSpi f l.off)))) :: k ∧
      .svcFrame p (s.ptpFrame (s.fld PTP.TC_CTRL_TRANS) true true (ptpMsg 3 (ptpDomain f l.off) 0x0200
        (-((s.at t).ingressStamp p % ns)) (s.ownSpi p) (ptpSeq f l.off) 0x7F
        (stampBytes ((s.at t).ingressStamp p) ++ toBytesBE 10 (ptpSpi f l.off)))) ∈ k)) ∧
  (∀ p f l q t1 t s, BlockInv s → p < 2 → s.p2p = true → s.svcUp p = true → ptpLoc f = some l → (s.pd p).req = some (q, t1) →
    ptpType f l.off = 3 → ptpTwoStep f l.off = false → ptpSeq f l.off = q → beAt f (l.off + 44) 10 = s.ownSpi p →
    Completes (.pdelayRespRx p f t) s (fun u => (u.pd p).cnt = (s.pd p).cnt + 1 ∧ (u.pd p).req = none ∧ (u.pd p).unanswered = 0 ∧
      (u.pd p).vals = (((s.at t).ingressStamp p - t1 - ptpCorr f l.off) :: (s.pd p).vals).take 8)) ∧
  (∀ p t s, BlockInv s → p < 2 → s.p2p = true → 3 ≤ (s.pd p).unanswered → (s.pd p).failed = false → Completes (.pdFail p t) s (fun u =>
    (u.pd p).failed = true ∧ u.flag PTP.STAT_PD_FAIL = true ∧ u.reg (PTP.SVC_MLD p) = s.reg (PTP.SVC_MLD p))) ∧
  (∀ (v : Word) t s, v.toNat.testBit 0 = true → s.slaveState = 0 → s.svcUp 0 = true → Completes (.slaveEnable v t) s (fun u =>
    u.slaveState = 1 ∧ u.regN PTP.SLV_CTRL = v.toNat % 65536)) ∧
  (∀ (v : Word) t s, v.toNat.testBit 0 = false → Completes (.slaveEnable v t) s (fun u => u.slaveState = 0 ∧ u.ptp.masters = [])) ∧
  (∀ f o t s, s.slaveLoc f = some o → s.svcUp 0 = true → 1 ≤ s.slaveState → s.slaveState ≤ 3 → ptpType f o = 11 →
    (ptpTimescale f o = true ∨ s.flag PTP.CTRL_ARB = true) → ptpSpi f o / 65536 ≠ s.clockId → Completes (.announceRx f t) s (fun u =>
      ∃ m ∈ u.ptp.masters, m.spi = ptpSpi f o ∧ m.gm = beAt f (o + 53) 8 ∧ m.last = (s.at t).up)) ∧
  (∀ m t s, s.selMaster = some m → (s.slaveState = 2 ∨ s.slaveState = 3) →
    m.last + max 2 (s.fld PTP.SLV_CTRL_ANN_TO) * logSeconds m.logAnn ≤ (s.at t).up → Completes (.announceTimeout t) s (fun u =>
      u.slaveState = 1 ∧ u.ptp.sel = none ∧ u.flag PTP.STAT_SLV_LOST = true)) ∧
  (∀ f o t s, s.slaveLoc f = some o → s.svcUp 0 = true → (s.slaveState = 2 ∨ s.slaveState = 3) → some (ptpSpi f o) = s.ptp.sel →
    ptpType f o = 0 → ptpTwoStep f o = false → Completes (.syncRx f t) s (fun u => u.regN PTP.SLV_OFFSET = ofSigned 32
      (clampI (-(2 ^ 31)) (2 ^ 31 - 1)
        (roundOpen 337 (ptpStamp f (o + 34) + ptpCorr f o + s.pathDelay - (s.at t).ingressStamp 0) ns)))) ∧
  (∀ t s, s.svcUp 0 = true → (s.slaveState = 2 ∨ s.slaveState = 3) → s.flag PTP.SLV_CTRL_MECH = false →
    (∀ a, s.ptp.delayAt = some a → a + logSeconds s.ptp.logDelay ≤ (s.at t).up) →
    Completes (.delayReqTx t) s (fun u => u.ptp.delaySeq = (s.ptp.delaySeq + 1) % 65536 ∧
      ∃ l, u.sent = .svcFrame 0 (s.ptpFrame (s.fld PTP.SLV_CTRL_TRANS) false true (ptpMsg 1 (s.fld PTP.SLV_CTRL_DOMAIN) 0 0 (s.ownSpi 0)
        ((s.ptp.delaySeq + 1) % 65536) 0x7F (List.replicate 10 0#8))) :: l)) ∧
  (∀ f o q t3 d t s, s.slaveLoc f = some o → s.ptp.delayReq = some (q, t3) → s.ptp.msDelay = some d → s.svcUp 0 = true →
    (s.slaveState = 2 ∨ s.slaveState = 3) → s.flag PTP.SLV_CTRL_MECH = false → ptpType f o = 9 → some (ptpSpi f o) = s.ptp.sel →
    ptpSeq f o = q → beAt f (o + 44) 10 = s.ownSpi 0 → Completes (.delayRespRx f t) s (fun u => u.ptp.delayReq = none ∧
      u.ptp.mpd = roundOpen 336 (d + (ptpStamp f (o + 34) - ptpCorr f o - t3)) 2)) ∧
  (∀ p t s, p < 2 → s.flag (PTP.SVC_CTRL_EN p) = true → s.svcUp p = false → Completes (.svcLinkUp p t) s (fun u =>
    u.svcUp p = true ∧ u.flag PTP.STAT_LINK_UP = true)) ∧
  (∀ p t s, p < 2 → s.svcUp p = true → Completes (.svcLinkDown p t) s (fun u => u.svcUp p = false ∧ u.flag PTP.STAT_LINK_DOWN = true)) ∧
  (∀ t s, s.slaveState = 4 → s.svcUp 0 = true → max s.ptp.faultAt (Store.getD s.ptp.upAt 0 0) + second ≤ (s.at t).up →
    Completes (.slaveFaultRecover t) s (fun u => u.slaveState = 1)) ∧
  (∀ (v : Word) t s, v.toNat.testBit 1 = true → s.flag PTP.CDSTATUS_PEND = false → Completes (.inputDelayCommit v t) s (fun u =>
    u.ptp.cdBank = v.toNat % 2 ∧ u.flag PTP.CDSTATUS_PEND = true)) ∧
  (∀ (v : Word) t s, s.flag PTP.CDSTATUS_PEND = true → Completes (.inputDelayCommit v t) s (fun u => u = s.at t))

/-- Clock commands complete (R340 to R355). -/
def Obligations.clock_commands_complete : Prop :=
  (∀ s, s.noneWait → s.flag CKG.AON_XRUN = true → Completes .xtalStable s (fun u => u.ready 6 = true ∧ u.flag CKG.AON_SRC = true ∧
    u.flag CKG.AON_XRUN = false ∧ u.flag CKG.STAT_XTAL_READY = true ∧ (s.flag CKG.AON_SRC = false → u.flag CKG.STAT_SW_DONE = true) ∧
    ∀ k, k < 4 → s.inUse k = 2 → u.clockRuns k = true)) ∧
  (∀ s, s.flag CKG.AON_XRUN = true → Completes .xtalFail s (fun u => u.flag CKG.AON_XRUN = false ∧ u.flag CKG.STAT_XTAL_FAIL = true)) ∧
  (∀ s, s.ready 6 = true → s.flag CKG.AON_SRC = true → Completes .xtalLost s (fun u => u.ready 6 = false ∧ u.flag CKG.AON_SRC = false ∧
    u.flag CKG.AON_FORCED = true ∧ u.flag CKG.STAT_FORCED_SWITCH = true ∧ u.flag CKG.STAT_XTAL_LOST = true ∧
    ∀ k, k < 4 → s.inUse k = 2 → u.clockRuns k = false)) ∧
  (∀ (v : Word) s, v.toNat.testBit 2 = true → s.flag CKG.AON_XRUN = false → Completes (.xtalRestart v) s (fun u =>
    u.flag CKG.AON_XRUN = true)) ∧
  (∀ k (v : Word) s, k < 4 → v.toNat.testBit 0 = true → Completes (.pllEnable k v) s (fun u => u.flag (CKG.PLL_CTRL_EN k) = true)) ∧
  (∀ k (v : Word) s, k < 4 → v.toNat.testBit 0 = false → s.flag (CKG.PLL_CTRL_EN k) = true → s.pllSelected k = true →
    Completes (.pllEnable k v) s (fun u => u.flag (CKG.PLL_CTRL_EN k) = true ∧ u.flag CKG.STAT_REFUSED = true)) ∧
  (∀ k (v : Word) s, k < 4 → s.flag CFG.STATUS_LOCKED = false → s.flag (CKG.PLL_CTRL_EN k) = false →
    Completes (.pllConfigWrite k false v) s (fun u => u.regN (CKG.PLL_CFG k) = v.toNat % 2 ^ 15)) ∧
  (∀ k (v : Word) s, k < 4 → s.flag (CKG.PLL_CTRL_EN k) = true →
    Completes (.pllConfigWrite k false v) s (fun u => u.reg (CKG.PLL_CFG k) = s.reg (CKG.PLL_CFG k) ∧ u.flag CKG.STAT_REFUSED = true)) ∧
  (∀ k (v : Word) s, k < 4 → s.flag CFG.STATUS_LOCKED = true → s.flag (CKG.PLL_CTRL_EN k) = false → Completes (.pllConfigWrite k false v) s (fun u => u = s)) ∧
  (∀ k s, s.noneWait → k < 4 → s.flag (CKG.PLL_CTRL_EN k) = true → s.ready (s.refBit k) = true → s.ready k = false →
    Completes (.pllLock k) s (fun u => u.ready k = true ∧ u.flag CKG.STAT_PLL_LOCK = true ∧ (s.inUse k = 0 → u.clockRuns k = true))) ∧
  (∀ k s, k < 4 → s.ready k = true → Completes (.pllUnlock k) s (fun u => u.ready k = false ∧ u.flag CKG.STAT_PLL_UNLOCK = true ∧
    (s.inUse k = 0 → s.ready (s.refBit k) = false → u.clockRuns k = false))) ∧
  (∀ k (v : Word) s, k < 4 → v.toNat % 4 ≠ 3 → s.sourceReady k (v.toNat % 4) = true → s.target k = none →
    s.fld (CKG.DOM_STATUS_CUR k) ≠ v.toNat % 4 → Completes (.clockSourceWrite k v) s (fun u => u.target k = some (v.toNat % 4) ∧
      u.fld (CKG.DOM_SRC_SRC k) = v.toNat % 4 ∧ u.flag (CKG.DOM_STATUS_BUSY k) = true)) ∧
  (∀ k (v : Word) s, k < 4 → (v.toNat % 4 = 3 ∨ s.sourceReady k (v.toNat % 4) = false ∨ s.target k ≠ none ∨
      s.fld (CKG.DOM_STATUS_CUR k) = v.toNat % 4) → Completes (.clockSourceWrite k v) s (fun u => u.target k = s.target k ∧
        u.flag (CKG.DOM_STATUS_LAST_REFUSED k) = true ∧ u.flag CKG.STAT_REFUSED = true)) ∧
  (∀ k x s, s.noneWait → k < 4 → s.target k = some x → s.clockRuns k = true → Completes (.swDone k) s (fun u => u.fld (CKG.DOM_STATUS_CUR k) = x % 4 ∧
    u.flag (CKG.DOM_STATUS_BUSY k) = false ∧ u.flag CKG.STAT_SW_DONE = true)) ∧
  (∀ k x s, s.noneWait → k < 4 → s.target k = some x → s.clockRuns k = false → Completes (.forcedSwitch k) s (fun u => u.fld (CKG.DOM_STATUS_CUR k) = x % 4 ∧
    u.flag (CKG.DOM_STATUS_FORCED k) = true ∧ u.clockRuns k = true ∧ u.regN CKG.FSW_CNT = countUp (s.regN CKG.FSW_CNT) ∧
    u.flag CKG.STAT_FORCED_SWITCH = true)) ∧
  (∀ (v : Word) s, v.toNat.testBit 6 = true → v.toNat.testBit 5 = false → gatePresent s.part (v.toNat % 32) = true →
    (∀ c, c < 30 → gateParent c = some (v.toNat % 32) → s.gateBit c = false) → s.gateBit (v.toNat % 32) = true →
    s.gatePending (v.toNat % 32) = false → Completes (.gateClose v true) s (fun u => u.gateBit (v.toNat % 32) = false)) ∧
  (∀ (v : Word) s, v.toNat.testBit 6 = true → v.toNat.testBit 5 = false → gatePresent s.part (v.toNat % 32) = true →
    (∀ c, c < 30 → gateParent c = some (v.toNat % 32) → s.gateBit c = false) → s.gateBit (v.toNat % 32) = true →
    s.gatePending (v.toNat % 32) = false → Completes (.gateClose v false) s (fun u => u.gateBit (v.toNat % 32) = true ∧
      u.gatePending (v.toNat % 32) = true ∧ u.flag CKG.STAT_GATE_PEND = true)) ∧
  (∀ (v : Word) s, s.noneWait → v.toNat.testBit 6 = true → v.toNat.testBit 5 = true → gatePresent s.part (v.toNat % 32) = true →
    (∀ p, gateParent (v.toNat % 32) = some p → s.gateBit p = true) → s.gatePending (v.toNat % 32) = false →
    Completes (.gateOpen v) s (fun u => u.gateBit (v.toNat % 32) = true)) ∧
  (∀ (v : Word) p s, s.noneWait → v.toNat.testBit 6 = true → v.toNat.testBit 5 = true → gatePresent s.part (v.toNat % 32) = true →
    gateParent (v.toNat % 32) = some p → s.gateBit p = false → Completes (.gateOpen v) s (fun u =>
      u.reg CKG.GATE_OPEN = s.reg CKG.GATE_OPEN ∧ u.flag CKG.STAT_REFUSED = true)) ∧
  (∀ g s, s.noneWait → s.gatePending g = true → Completes (.gateCloseDone g) s (fun u => u.gateBit g = false ∧ u.gatePending g = false ∧
    u.flag CKG.STAT_GATE_DONE = true)) ∧
  (∀ g s, s.noneWait → s.gatePending g = true → Completes (.gateCloseTimeout g) s (fun u => u.gateBit g = s.gateBit g ∧ u.gatePending g = false ∧
    u.regN CKG.GTO_CNT = countUp (s.regN CKG.GTO_CNT) ∧ u.flag CKG.STAT_TIMEOUT = true))
/-- Power commands complete (R356 to R371). -/
def Obligations.power_commands_complete : Prop :=
  (∀ straps s, Completes (.pwrgoodRise straps) s (fun u => u.powerState = 1 ∧ u.fld PWR.STATUS_CAUSE = 0 ∧ u.regN PWR.DOM_ON = 1 ∧
    u.regN CFG.STRAP = straps % 256 ∧ u.pwr.step = 1 ∧ u.mem = [])) ∧
  (∀ t s, Completes (.pwrgoodFall t) s (fun u => u.pwr.pwrGood = false ∧ u.pwr.tripPin = false ∧ u.pwr.step = 0)) ∧
  (∀ straps s, Completes (.brownout straps) s (fun u => u.powerState = 1 ∧ u.fld PWR.STATUS_CAUSE = 1 ∧ u.regN PWR.DOM_ON = 1 ∧
    u.flag PWR.STAT_BROWNOUT = true ∧ u.mem = [])) ∧
  (∀ d (v : Word) t s, d < 17 → domainPresent s.part d = true → d ≠ 0 → d ≠ 1 → d ≠ 13 → Completes (.voteWrite d 0 v t) s (fun u =>
    u.fld (PWR.VOTE_HOST d) = v.toNat % 2 ∧ u.fld (PWR.VOTE_CLERK d) = s.fld (PWR.VOTE_CLERK d))) ∧
  (∀ d m (v : Word) t s, d < 17 → domainPresent s.part d = true → d ≠ 0 → d ≠ 1 → d ≠ 13 → (m = 1 ∨ m = 2) →
    Completes (.voteWrite d m v t) s (fun u =>
      u.fld (PWR.VOTE_CLERK d) = v.toNat / 2 % 2 ∧ u.fld (PWR.VOTE_HOST d) = s.fld (PWR.VOTE_HOST d))) ∧
  (∀ d t s, (s.at t).mayComeUp d = true → s.cfg.full = none → Completes (.domainPowerUp d t) s (fun u =>
    u.domOn d = true ∧ u.flag PWR.STAT_DOM_UP = true ∧ (2 ≤ d → d ≤ 8 → Store.get? u.pwr.trimAt d = some (s.at t).up))) ∧
  (∀ d t s, (s.at t).mayGoDown d = true → Completes (.domainPowerDown d t) s (fun u => u.domOn d = false ∧ u.flag PWR.STAT_DOM_DOWN = true)) ∧
  (∀ d t s, (s.at t).mayGoDown d = true → Completes (.domainDrainTimeout d t) s (fun u => u.domOn d = false ∧
    u.flag PWR.STAT_DOM_DOWN = true ∧ u.flag PWR.STAT_PD_FORCED = true)) ∧
  (∀ d t a s, Store.get? s.pwr.trimAt d = some a → a + 10000000 * ns ≤ (s.at t).up → Completes (.thermalVoteRelease d t) s (fun u =>
    u.pwr.trimAt = Store.del s.pwr.trimAt d)) ∧
  (∀ (v : Word) t s, v.toNat.testBit 0 = true → s.powerState = 0 → s.bellState = stSTOPPED → Completes (.deepEntryRequest v t) s (fun u =>
    u.powerState = 6)) ∧
  (∀ (v : Word) t s, v.toNat.testBit 0 = true → s.powerState = 0 → s.bellState ≠ stSTOPPED → Completes (.deepEntryRequest v t) s (fun u =>
    u.powerState = 0 ∧ u.flag PWR.STAT_ENTRY_REJ = true)) ∧
  (∀ t s, s.powerState = 6 → s.pwr.wakeHeld = false → Completes (.deepEntryComplete t) s (fun u =>
    u.powerState = if s.flag PWR.CTRL_MODE = true then 3 else 2)) ∧
  (∀ t s, s.lockout = false → s.powerState = 2 → Completes (.wakeEdge t) s (fun u => u.powerState = 1 ∧ u.fld PWR.STATUS_CAUSE = 2 ∧
    u.pwr.step = 1 ∧ u.pwr.waking = true)) ∧
  (∀ t s, s.lockout = false → s.powerState = 6 → Completes (.wakeEdge t) s (fun u => u.powerState = 6 ∧ u.pwr.wakeHeld = true)) ∧
  (∀ geom upset t s, s.pwr.step = 1 → s.pwr.undoneAt = none → Completes (.powerUpStepDone geom upset t) s (fun u =>
    u.pwr.step = 2 ∧ u.flag PWR.STATUS_REG_LP = false)) ∧
  (∀ geom upset t s, s.pwr.step = 2 → s.pwr.undoneAt = none → s.ready 6 = true → Completes (.powerUpStepDone geom upset t) s (fun u =>
    u.pwr.step = 3 ∧ ∀ k, k < 4 → u.flag (CKG.PLL_CTRL_EN k) = true)) ∧
  (∀ geom upset t s, s.pwr.step = 3 → s.pwr.undoneAt = none → (∀ k, k < 4 → s.ready k = true) → Completes (.powerUpStepDone geom upset t) s
    (fun u => u.pwr.step = 4 ∧ ∀ k, k < 4 → u.fld (CKG.DOM_STATUS_CUR k) = 0)) ∧
  (∀ geom upset t s, s.pwr.step = 4 → s.pwr.undoneAt = none → (s.at t).stepSatisfied 4 = true → Completes (.powerUpStepDone geom upset t) s
    (fun u => u.pwr.step = 0 ∧ u.pwr.waking = false ∧ u.powerState = (if s.tripHold = true then 4 else 0) ∧
      (s.tripHold = true → u.flag PWR.STATUS_HOLD = true ∧ u.regN PWR.VETO = stallMask) ∧
      (s.pwr.waking = true → u.flag PWR.STAT_WOKE = true))) ∧
  (∀ t s, s.pwr.step = 1 → s.pwr.undoneAt = none → s.pwr.stepAt + 2000000 * ns ≤ (s.at t).up → atD s.pwr.attempts 0 0 < 3 →
    Completes (.powerUpStepTimeout t) s (fun u => u.pwr.undoneAt = some (s.at t).up ∧ u.flag PWR.STAT_WAKE_RETRY = true ∧
      u.flag PWR.STATUS_REG_LP = true)) ∧
  (∀ t s, s.pwr.step = 1 → s.pwr.undoneAt = none → s.pwr.stepAt + 2000000 * ns ≤ (s.at t).up → 3 ≤ atD s.pwr.attempts 0 0 →
    Completes (.powerUpStepTimeout t) s (fun u => u.powerState = 7 ∧ u.fld PWR.STATUS_FAILSTEP = 1 ∧ u.flag PWR.STAT_WAKE_FAIL = true ∧
      u.alertDirect = true)) ∧
  (∀ t a s, s.pwr.undoneAt = some a → a + 1000000 * ns ≤ (s.at t).up → Completes (.powerUpRetry t) s (fun u =>
    u.pwr.undoneAt = none ∧ u.pwr.step = s.pwr.step ∧ u.pwr.stepAt = (s.at t).up)) ∧
  (∀ (v : Word) t s, Completes (.retentionBadClear v t) s (fun u => u.reg PWR.RET_BAD = s.reg PWR.RET_BAD &&& ~~~v))

/-- Ledger and thermal commands complete (R373 to R386). -/
def Obligations.ledger_and_thermal_commands_complete : Prop :=
  (∀ r raw t s, BlockInv s → r < 13 → s.flag (LED.RAIL_CFG_EN r) = true → Completes (.pmbusRead r raw true t) s (fun u =>
    (u.rail r).watts = linear11 raw :: (s.rail r).watts ∧ (u.rail r).replyAt = (s.at t).up ∧ (u.rail r).lost = false)) ∧
  (∀ r t s, BlockInv s → r < 13 → s.flag (LED.RAIL_CFG_EN r) = true → (s.rail r).watts ≠ [] → Completes (.correctionUpdate r t) s (fun u =>
    (u.rail r).watts = [] ∧ (u.rail r).sensed = 0 ∧ 0x3000 ≤ u.regN (LED.RAIL_CORR r) ∧ u.regN (LED.RAIL_CORR r) ≤ 0x5000 ∧
    ((s.rail r).sensed ≠ 0 → u.regN (LED.RAIL_CORR r) = (clampI 0x3000 0x5000 (roundOpen 373
      ((s.rail r).watts.sum * 1000000 * 2 ^ 14) ((s.rail r).sensed * (s.rail r).watts.length * 2 ^ 16))).toNat))) ∧
  (∀ r t s, BlockInv s → r < 13 → s.flag (LED.RAIL_CFG_EN r) = true → (s.rail r).watts = [] → Completes (.correctionUpdate r t) s (fun u =>
    (u.rail r).sensed = 0 ∧ u.reg (LED.RAIL_CORR r) = s.reg (LED.RAIL_CORR r))) ∧
  (∀ r t s, BlockInv s → r < 13 → s.flag (LED.RAIL_CFG_EN r) = true → (s.rail r).lost = false → (s.rail r).replyAt + 3000000000 * ns ≤ (s.at t).up →
    Completes (.pmbLost r t) s (fun u => (u.rail r).lost = true ∧ u.flag LED.STAT_PMB_LOST = true)) ∧
  (∀ (v : Word) t s, v.toNat.testBit 1 = true → Completes (.meterRequest v t) s (fun u => u.led.meterReq = true)) ∧
  (∀ t f s, (s.at t).curFrame = some f → (s.at t).slotAt 1023 ≤ (s.at t).now → s.led.next = none → Completes (.ledgerPlan t) s (fun u =>
    u.led.next = some ((s.at t).planFor (f + 1) (s.flag LED.CTRL_EN && !s.led.meterReq)) ∧
    (((s.at t).planFor (f + 1) (s.flag LED.CTRL_EN && !s.led.meterReq)).deficit = true → u.flag LED.STAT_LEDGER_DEFICIT = true))) ∧
  (∀ rails active t p s, s.led.cur = some p → s.led.slots < 1024 → (s.at t).slotAt (s.led.slots + 1) ≤ (s.at t).now →
    Completes (.ledgerSlotEnd rails active t) s (fun u => u.led.slots = s.led.slots + 1)) ∧
  (∀ t r l s, s.led.due = r :: l → Completes (.ledgerReport t) s (fun u => u.led.due = l ∧ u.led.seq = (s.led.seq + 1) % 2 ^ 64 ∧
    u.led.mb.unread = true ∧ u.led.mb.newest = [(s.led.mb.seq + 1) % 65536, boolNat r.deficit, boolNat r.brake, r.frame])) ∧
  (∀ k v t s, BlockInv s → s.sensorPresent k = true → s.domOn 1 = true → Completes (.sensorConversion k v t) s (fun u =>
    (u.sensor k).val = v ∧ (u.sensor k).lastAt = (s.at t).up ∧ u.fld (THM.SENS_T k) = ofSigned 16 v)) ∧
  (∀ k t s, BlockInv s → s.sensorPresent k = true → s.domOn 1 = true → (s.sensor k).lastAt + 10000000 * ns ≤ (s.at t).up →
    Completes (.sensorSilent k t) s (fun u => u.flag (THM.SENS_BROKEN k) = true ∧ u.fld (THM.SENS_WHY k) = 3 ∧ u.sensorBroken k = true)) ∧
  (∀ t s, s.domOn 1 = true → Completes (.thermalTick t) s (fun u => ∀ d, d < 8 → bits (u.regN THM.STEP) (4 * d) 4 = (s.at t).stepNext d % 16)) ∧
  (∀ k t s, s.powerState ≠ 5 → 2 ≤ (s.sensor k).hot → s.otp.log.length < 256 → Completes (.thermalTrip k t) s (fun u =>
    u.powerState = 5 ∧ u.pwr.tripPin = true ∧ ∃ e, u.otp.log = s.otp.log ++ [e] ∧ logUnacked e = true)) ∧
  (∀ (v : Word) t s, v.toNat.testBit 8 = true → logUnacked (atD s.otp.log (v.toNat % 256) 0) = true → Completes (.tripAck v t) s (fun u =>
    u.otp.log = setAt s.otp.log (v.toNat % 256) (setBit (atD s.otp.log (v.toNat % 256) 0) 29 true) ∧ u.flag THM.STAT_ACKED = true)) ∧
  (∀ (v : Word) t s, v.toNat.testBit 8 = true → logUnacked (atD s.otp.log (v.toNat % 256) 0) = false → s.logFull = false →
    Completes (.tripAck v t) s (fun u => u.otp = s.otp ∧ u.flag THM.STAT_ACK_REJ = true))
/-- Image and cast commands complete (R391 to R400, R407). A rejected image raises IMG_REJ and counts; one that passes waits to be applied. The
cast sender goes round its image in frames of up to 8 KiB; a waiting device takes bytes until all of the image is there. -/
def Obligations.image_and_cast_commands_complete : Prop :=
  (∀ (v : Word) t s, v.toNat.testBit 0 = true → v.toNat.testBit 1 = false → v.toNat.testBit 2 = false → s.loadBusy = false →
    s.ldState ≠ 0 → s.bellState = stSTOPPED → Completes (.imageLoad v t) s (fun u =>
      u.ldState = 3 ∧ ∃ j, u.cfg.job = some j ∧ j.base = s.stageBase ∧ j.src = 2 ∧ j.recheck = false)) ∧
  (∀ (v : Word) t s, v.toNat.testBit 0 = true → s.loadBusy = true → Completes (.imageLoad v t) s (fun u =>
    u.cfg = s.cfg ∧ u.flag CFG.STAT_LOAD_REFUSED = true ∧ u.fld CFG.LOAD_RES_RESULT = 3 ∧ u.fld CFG.LOAD_RES_REASON = 9)) ∧
  (∀ t j s, s.cfg.job = some j → j.recheck = false → (s.at t).verdict j ≠ 0 → Completes (.imageVerified t) s (fun u =>
    u.cfg.job = none ∧ u.flag CFG.STAT_IMG_REJ = true ∧ u.fld CFG.LOAD_RES_RESULT = 2 ∧
      u.fld CFG.LOAD_RES_REASON = (s.at t).verdict j ∧ u.regN CFG.REJ_CNT = countUp (s.regN CFG.REJ_CNT))) ∧
  (∀ t j s, s.cfg.job = some j → s.imgKind j.base = 1 → j.recheck = true → s.formatOk j.base j.len = true →
    s.imgDigest j.base = s.cfg.digFull → s.digestsOk j.base = true → Completes (.imageVerified t) s (fun u =>
      u.cfg.job = none ∧ u.cfg.accepted = some { j with kind := 1 } ∧ u.fld CFG.LOAD_RES_RESULT = 1)) ∧
  (∀ t j s, s.cfg.job = some j → s.imgKind j.base = 1 → j.recheck = false → Completes (.imageVerified t) s (fun u =>
    u.cfg.job = none ∧ ((s.at t).verdict j = 0 → u.cfg.accepted = some { j with kind := 1 } ∧ u.fld CFG.LOAD_RES_RESULT = 1))) ∧
  (∀ t j s, s.cfg.accepted = some j → s.hasPitch = true → Completes (.imageApply t) s (fun u =>
    u.ldState = 6 ∧ u.cfg.accepted = none ∧ u.flag CFG.STAT_IMG_LOADED = true)) ∧
  (∀ t s, s.ldState = 2 → s.bootSrc = 0 → s.recovery = false → s.imaged = false → s.cfg.job = none → s.cfg.flashSlot < 2 →
    0 < ofBytes (s.flashRead (flashSlotAt s.cfg.flashSlot + 0x10) 8) → ofBytes (s.flashRead (flashSlotAt s.cfg.flashSlot + 0x10) 8) ≤ 2 ^ 25 →
    Completes (.flashBootRead t) s (fun u => u.ldState = 3 ∧ u.cfg.flashSlot = s.cfg.flashSlot + 1 ∧ ∃ j, u.cfg.job = some j ∧
      j.src = s.cfg.flashSlot ∧ j.base = s.stageBase)) ∧
  (∀ t s, s.ldState = 2 → s.bootSrc = 0 → s.recovery = false → s.imaged = false → s.cfg.job = none → s.cfg.flashSlot = 1 →
    ofBytes (s.flashRead (flashSlotAt 1 + 0x10) 8) = 0 → Completes (.flashBootRead t) s (fun u =>
      u.ldState = 1 ∧ u.flag CFG.STAT_BOOT_FAIL = true ∧ u.alert = true)) ∧
  (∀ (v : Word) t s, v.toNat.testBit 0 = true → s.flag CFG.STATUS_LOCKED = false → Completes (.bootLockClose v t) s (fun u =>
    u.locked = true ∧ u.flag CFG.STAT_LOCKED = true)) ∧
  (∀ (v : Word) t s, v.toNat.testBit 0 = true → s.imaged = true → Completes (.castSend v t) s (fun u =>
    u.flag CFG.CAST_GO = true ∧ u.flag CFG.CAST_ACTIVE = true ∧ u.regN CFG.CAST_PROG = 0 ∧ u.cfg.castOff = 0)) ∧
  (∀ t base len s, s.cfg.full = some (base, len) → s.flag CFG.CAST_GO = true → s.imaged = true → s.cfg.castOff + 8192 < len →
    Completes (.castFrameTx t) s (fun u => u.cfg.castOff = s.cfg.castOff + 8192 ∧ u.regN CFG.CAST_PROG = s.regN CFG.CAST_PROG ∧
      ∀ p, p < 2 → s.svcUp p = true → ∃ dst, .svcFrame p (s.castFrame dst base len s.cfg.castOff 8192) ∈ u.sent)) ∧
  (∀ t base len s, s.cfg.full = some (base, len) → s.flag CFG.CAST_GO = true → s.imaged = true → s.cfg.castOff < len →
    len ≤ s.cfg.castOff + 8192 → Completes (.castFrameTx t) s (fun u => u.cfg.castOff = 0 ∧
      u.regN CFG.CAST_PROG = countUp (s.regN CFG.CAST_PROG))) ∧
  (∀ p frame room t s, p < 2 → s.svcUp p = true → beAt frame 12 2 = 0x88B5 → beAt frame 14 2 = 3 → s.castWaiting = true →
    s.cfg.rx = none → s.cfg.rejected = [] → beAt frame 30 2 % 4 = 0 → 4 ≤ beAt frame 30 2 → beAt frame 30 2 ≤ 8192 →
    beAt frame 22 8 + beAt frame 30 2 < beAt frame 34 8 → beAt frame 34 8 ≤ 2 ^ 28 → 42 + beAt frame 30 2 ≤ frame.length →
    Completes (.castFrameRx p frame room t) s (fun u => u.flag CFG.CAST_ACTIVE = true ∧ u.regN CFG.CAST_PROG = beAt frame 30 2 ∧
      ∃ x, u.cfg.rx = some x ∧ x.sched = beAt frame 16 4 ∧ x.len = beAt frame 34 8)) ∧
  (∀ p frame room t s, p < 2 → s.svcUp p = true → beAt frame 12 2 = 0x88B5 → beAt frame 14 2 = 3 → s.castWaiting = true →
    s.cfg.rx = none → s.cfg.rejected = [] → beAt frame 30 2 % 4 = 0 → 4 ≤ beAt frame 30 2 → beAt frame 30 2 ≤ 8192 →
    beAt frame 22 8 = 0 → beAt frame 34 8 = beAt frame 30 2 → 42 + beAt frame 30 2 ≤ frame.length →
    Completes (.castFrameRx p frame room t) s (fun u => u.flag CFG.STAT_CAST_DONE = true ∧ u.ldState = 3 ∧
      ∃ j, u.cfg.job = some j ∧ j.src = 3 ∧ j.base = s.stageBase ∧ j.len = beAt frame 34 8))

/-- Commands of stall-die and clerk changes complete (R401 to R406): a load without an image closes its die, at once while STOPPED; a
reload moves on to its reopening or is held; a failed one leaves the die closed; a held die opens; cores restart after their load. -/
def Obligations.change_commands_complete : Prop :=
  (∀ (v : Word) t s, BlockInv s → v.toNat.testBit 0 = true → v.toNat.testBit 1 = true → v.toNat.testBit 2 = false →
    (presentDies s.part).testBit (bits v.toNat 5 3) = true → s.loadBusy = false → s.ldState ≠ 0 → s.bellState = stSTOPPED →
    Completes (.dieCloseNoimg v t) s (fun u => (u.die (bits v.toNat 5 3)).closed = true ∧ ∃ c, u.cfg.change = some c ∧ c.phase = 3 ∧
      c.noimg = true ∧ c.die = bits v.toNat 5 3)) ∧
  (∀ (v : Word) t s, BlockInv s → v.toNat.testBit 0 = true → v.toNat.testBit 1 = true → v.toNat.testBit 2 = false →
    (presentDies s.part).testBit (bits v.toNat 5 3) = true → s.loadBusy = false → s.ldState ≠ 0 → s.bellState ≠ stSTOPPED →
    (s.die (bits v.toNat 5 3)).closed = false → Completes (.dieCloseNoimg v t) s (fun u => u.corr = s.corr ∧ ∃ c, u.cfg.change = some c ∧
      c.phase = 0 ∧ c.bell = (s.at t).changeIndex ∧ c.die = bits v.toNat 5 3)) ∧
  (∀ t c s, s.cfg.change = some c → c.clerk = false → c.phase = 1 → c.hold = true → c.pcycle = false → s.imgCount c.base = 0 →
    s.domOn (3 + c.die) = true → Completes (.stallReloadDone t) s (fun u => u.flag CFG.STAT_PART_RELOADED = true ∧
      u.cfg.change = some { c with phase := 3 } ∧
      ∀ i, i < 0x10000000 → u.byte (0xFC0000000000 + c.die * 0x10000000 + i) = 0#8)) ∧
  (∀ t c s, s.cfg.change = some c → c.clerk = false → c.phase = 1 → Completes (.stallReloadFail t) s (fun u =>
    u.flag CFG.STAT_PART_FAIL = true ∧ u.cfg.change = some { c with phase := 3, noimg := true } ∧ u.corr = s.corr)) ∧
  (∀ (v : Word) t c s, v.toNat.testBit 0 = true → s.cfg.change = some c → c.phase = 3 → c.noimg = false → s.bellState ≠ stSTOPPED →
    Completes (.dieOpen v t) s (fun u => u.cfg.change = some { c with phase := 2 })) ∧
  (∀ (v : Word) t c s, BlockInv s → v.toNat.testBit 0 = true → s.cfg.change = some c → c.phase = 3 → c.noimg = false → c.clerk = false →
    c.die < 6 → s.bellState = stSTOPPED → Completes (.dieOpen v t) s (fun u => u.cfg.change = none ∧ (u.die c.die).closed = false ∧
      u.flag CFG.STAT_PART_OPENED = true)) ∧
  (∀ t c s, s.cfg.change = some c → c.clerk = true → c.phase = 1 → c.hold = false → s.bellState ≠ stSTOPPED →
    Completes (.clerkLoadDone t) s (fun u => u.cfg.change = some { c with phase := 2 })) ∧
  (∀ t c s, s.cfg.change = some c → c.clerk = true → c.phase = 1 → c.hold = false → s.bellState = stSTOPPED →
    Completes (.clerkLoadDone t) s (fun u => u.cfg.change = none ∧ u.flag CFG.STAT_CUPD_DONE = true ∧
      u.regN CFG.CLE_LIVE = (s.regN CFG.CLE_LIVE ||| c.cores) % 2 ^ 32))

/-- Commands of the security processor complete (R414 to R421): provisioning, attestation, the epoch, erasure, and the violation
sensors. -/
def Obligations.security_commands_complete : Prop :=
  (∀ t s, s.sec.sealing = false → (s.secState = scBLANK ∨ s.secState = scERASED) → s.bellState = stSTOPPED → s.helperSlots < 8 →
    Completes (.provision t) s (fun u => u.secState = scPROVISIONING ∧ u.sec.keys.seed.length = 32 ∧ u.sec.keys.root = none ∧
      u.sec.keys.keys = [] ∧ u.regN SEC.CMD_RES = 1 + 64 * 1 ∧ u.flag SEC.STAT_CMD_DONE = true ∧
      (BlockInv s → s.trunkReady s.bufAddr 1952 → u.read s.bufAddr 1952 = cryptoBytes 6 1952 (bytesNat u.sec.keys.seed)))) ∧
  (∀ t s, s.sec.sealing = false → s.secState ≠ scBLANK → s.secState ≠ scERASED → Completes (.provision t) s (fun u =>
    u.sec = s.sec ∧ u.mem = s.mem ∧ u.regN SEC.CMD_RES = 2 + 4 * 1 + 64 * 1 ∧ u.flag SEC.STAT_CMD_REF = true)) ∧
  (∀ t s, s.sec.sealing = false → s.secState = scPROVISIONING → s.trunkReady s.bufAddr 1952 → Completes (.setroot t) s (fun u =>
    u.sec.keys.root = some (s.read s.bufAddr 1952) ∧ u.regN SEC.CMD_RES = 1 + 64 * 2)) ∧
  (∀ t s, s.sec.sealing = false → s.secState = scPROVISIONING → s.place s.bufAddr = .none → Completes (.setroot t) s (fun u =>
    u.sec.keys = s.sec.keys ∧ u.regN SEC.CMD_RES % 4 = 2 ∧ u.flag SEC.STAT_CMD_REF = true ∧ .errResp 8 s.bufAddr false ∈ u.sent)) ∧
  (∀ slot t s, slot < 16 → s.sec.sealing = false → s.secState = scPROVISIONING → s.trunkReady s.bufAddr 32 → Completes (.setkey slot t) s (fun u =>
    Store.get? u.sec.keys.keys slot = some (s.read s.bufAddr 32) ∧ u.regN SEC.CMD_RES = 1 + 64 * 3)) ∧
  (∀ len t s, 1 ≤ len → len ≤ 65536 → s.sec.sealing = false → s.secState = scPROVISIONING → s.trunkReady s.bufAddr len → Completes (.cert len t) s (fun u =>
    u.sec.keys.cert = shake256 32 (s.read s.bufAddr len) ∧ u.regN SEC.CMD_RES = 1 + 64 * 4)) ∧
  (∀ t s, s.sec.sealing = false → s.secState = scPROVISIONING → s.sec.keys.root.isSome = true → Completes (.seal t) s (fun u =>
    u.sec.sealing = true ∧ u.regN SEC.CMD_RES = 3 + 64 * 5 ∧ u.otp = s.otp)) ∧
  (∀ t t1 s, Store.wf 0xFF s.flash = true → s.sec.sealing = false → s.secState = scPROVISIONING → s.sec.keys.root.isSome = true →
    Completes (.seal t) s (fun w => Completes (.sealComplete true t1) w (fun u => u.secState = scPROVISIONED ∧
      u.sec.slot = some s.helperSlots ∧ u.helperSlots = s.helperSlots + 1 ∧ u.regN SEC.CMD_RES = 1 + 64 * 5 ∧
      u.sec.sealing = false))) ∧
  (∀ t s, s.sec.sealing = true → Completes (.sealComplete false t) s (fun u => u.otp = s.otp ∧ u.sec.sealing = false ∧
    u.regN SEC.CMD_RES = 2 + 4 * 3 + 64 * 5 ∧ u.flag SEC.STAT_CMD_REF = true)) ∧
  (∀ t s, s.sec.sealing = false → s.secState = scPROVISIONED → s.recovery = false → s.attPending = false →
    Completes (.attest t) s (fun u => u.sec.report = s.attReport ∧ u.attPending = true ∧ u.regN SEC.CMD_RES = 3 + 64 * 6)) ∧
  (∀ (v : Word) t s, s.sec.sealing = false → s.secState ≠ scLOCKOUT → s.otp.epoch < v.toNat % 256 → Completes (.epoch v t) s (fun u =>
    u.otp = { s.otp with epoch := v.toNat % 256 } ∧ u.regN SEC.CMD_RES = 1 + 64 * 7)) ∧
  (∀ t s, s.secState ≠ scLOCKOUT → Completes (.erase 0x45524153#32 t) s (fun u => u.secState = scLOCKOUT ∧ u.sec.keys = KeyStore.empty ∧
    u.sec.alarm = true ∧ u.flag SEC.STAT_ERASED = true ∧ u.bellState = stSTOPPED)) ∧
  (∀ (v : Word) t s, v ≠ 0x45524153#32 → s.secState ≠ scLOCKOUT → Completes (.erase v t) s (fun u => u.sec = s.sec ∧ u.otp = s.otp ∧
    u.regN SEC.CMD_RES = 2 + 4 * 4 + 64 * 8 ∧ u.flag SEC.STAT_CMD_REF = true)) ∧
  (∀ t q s, s.sec.signing = some (.manifest q) → Completes (.signatureComplete t) s (fun u =>
    ∃ sig, Store.get? u.sec.sigs q = some sig ∧ sig.length = 3309)) ∧
  (∀ t s, s.sec.signing = some .attest → s.sec.manifests = [] → s.sec.attWait = false → Completes (.signatureComplete t) s (fun u =>
    u.sec.signing = none ∧ u.flag SEC.STAT_ATT_DONE = true)) ∧
  (∀ k t s, k < 12 → s.sensorMask.testBit k = true → (s.fld SEC.VIOL_SENSORS).testBit k = false → s.secPolicy k = 0 →
    Completes (.violationSensorFire (2 ^ k) t) s (fun u => (u.fld SEC.VIOL_SENSORS).testBit k = true ∧ u.flag SEC.STAT_VIOL = true ∧
      u.regN SEC.VIOL_CNT = countUp (s.regN SEC.VIOL_CNT) ∧ u.sec.alarm = s.sec.alarm ∧ u.secState = s.secState)) ∧
  (∀ k t s, k < 12 → s.sensorMask.testBit k = true → (s.fld SEC.VIOL_SENSORS).testBit k = false → s.secPolicy k = 2 → s.secState ≠ scLOCKOUT →
    Completes (.violationSensorFire (2 ^ k) t) s (fun u => u.secState = scLOCKOUT ∧ u.sec.keys = KeyStore.empty ∧ u.sec.alarm = true ∧
      u.flag SEC.STAT_ALARM = true)) ∧
  (∀ sensors t s, Completes (.violationSensorClear sensors t) s (fun u => ∀ k, k < 12 → (u.fld SEC.VIOL_SENSORS).testBit k =
    ((s.fld SEC.VIOL_SENSORS).testBit k && !sensors.testBit k))) ∧
  (∀ (v : Word) t s, s.locked = false → Completes (.policyWrite v t) s (fun u => u.regN SEC.POLICY = v.toNat % 2 ^ 24)) ∧
  (∀ (v : Word) t k s, s.locked = true → k < 12 → bits v.toNat (2 * k) 2 < bits (s.regN SEC.POLICY) (2 * k) 2 →
    Completes (.policyWrite v t) s (fun u => u.reg SEC.POLICY = s.reg SEC.POLICY ∧ u.flag SEC.STAT_POL_REJ = true))

/-- Commands of the fast matrix and the links complete (R424, R429 to R433, R450, R451). -/
def Obligations.matrix_commands_complete : Prop :=
  (∀ m a k w s, s.mtx.err = some (a, k, w) → k < 16 → Completes (.errAddrRead m) s (fun u => u.mtx.err = none ∧ u.regN MTX.ERR_ADDR_LO = 0 ∧
    u.sent = .readData m (s.regN MTX.ERR_ADDR_LO) :: s.sent ∧ u.fld MTX.ERR_ADDR_HI_ADDR = a / 2 ^ 32 % 65536 ∧
    u.fld MTX.ERR_ADDR_HI_MASTER = k ∧ u.flag MTX.ERR_ADDR_HI_WRITE = w)) ∧
  (∀ (v : Word) t s, Completes (.masterReset v t) s (fun u => u.fld MTX.MRST_MASTERS = v.toNat % 4096 ∧ ∀ m, m < 12 →
    v.toNat.testBit m = true → (s.fld MTX.MRST_MASTERS).testBit m = false → (u.regN MTX.MSTAT).testBit m = false)) ∧
  (∀ m left t s, m < 12 → s.inReset m = true → (s.regN MTX.MSTAT).testBit m = false → Completes (.masterDrained m left t) s (fun u =>
    (u.regN MTX.MSTAT).testBit m = true ∧ u.flag MTX.STAT_DRAINED = true ∧ u.mtx.out = s.mtx.out.filter (fun x => x.master != m))) ∧
  (∀ (v : Word) t s, Completes (.masterRelease v t) s (fun u => u.fld MTX.MRST_MASTERS = v.toNat % 4096 ∧ ∀ m, 0 < m → m < 12 →
    v.toNat.testBit m = false → (s.fld MTX.MRST_MASTERS).testBit m = true → (u.regN MTX.MSTAT).testBit m = false)) ∧
  (∀ speed width t s, s.domOn 13 = true → s.flag PCI.LINK_UP = false → Completes (.pcieLinkUp speed width t) s (fun u =>
    u.flag PCI.LINK_UP = true ∧ u.fld PCI.LINK_SPEED = speed % 8 ∧ u.fld PCI.LINK_WIDTH = width % 8 ∧ u.flag PCI.STAT_LINK_UP = true)) ∧
  (∀ t s, s.flag PCI.LINK_UP = true → Completes (.pcieLinkDown t) s (fun u => u.flag PCI.LINK_UP = false ∧
    u.flag PCI.STAT_LINK_DOWN = true ∧ (u.regN MTX.MSTAT).testBit 0 = false)) ∧
  (∀ left t s, s.flag PCI.LINK_UP = true → Completes (.functionLevelReset left t) s (fun u => u.msixMask = 2 ^ 64 - 1 ∧
    u.flag PCI.STAT_FLR = true ∧ u.flag MTX.STAT_DRAINED = true ∧ ∀ x ∈ u.mtx.out, x.master ≠ 0)) ∧
  (∀ n t s, linkPresent s.part n = true → Completes (.d2dFlitError n false t) s (fun u => Store.get? u.mtx.d2d n = some 1)) ∧
  (∀ n t k s, linkPresent s.part n = true → Store.get? s.mtx.d2d n = some k → k < 9 → Completes (.d2dFlitError n true t) s (fun u =>
    Store.get? u.mtx.d2d n = some (k + 1))) ∧
  (∀ n t s, linkPresent s.part n = true → Store.get? s.mtx.d2d n = some 9 → s.secPolicy 10 < 2 → Completes (.d2dLinkRetrain n t) s (fun u =>
    u.mtx.d2d = Store.del s.mtx.d2d n ∧ (u.fld SEC.VIOL_SENSORS).testBit 10 = true ∧
      u.mtx.out = s.mtx.out.filter (fun x => s.linkOf x != some n))) ∧
  (∀ m a n data t s, BlockInv s → s.noneWait → m < 12 → 1 ≤ n → a / 4096 = (a + n - 1) / 4096 → s.masterLive m = true →
    s.outRoom m = true → s.trunkReady a n → s.behind m a = false → data.length = n → Completes (.fabricTransaction m true a n (2 ^ n - 1) data true t) s (fun u =>
      u.read a n = data ∧ (∀ b, b < a ∨ a + n ≤ b → u.byte b = s.byte b) ∧ u.sent = .writeDone m :: s.sent)) ∧
  (∀ m a n be data t s, s.noneWait → m < 12 → 1 ≤ n → a / 4096 = (a + n - 1) / 4096 → s.masterLive m = true → s.outRoom m = true →
    s.trunkReady a n → s.behind m a = false → Completes (.fabricTransaction m false a n be data true t) s (fun u =>
      u.sent = .bytes m (s.read a n) :: s.sent ∧ u.mem = s.mem)) ∧
  (∀ m a n be data t s, s.noneWait → m < 12 → 1 ≤ n → n ≤ 65536 → s.masterLive m = true → s.outRoom m = true → s.place a = .none →
    Completes (.fabricTransaction m false a n be data true t) s (fun u => .errResp m a false ∈ u.sent ∧ u.mem = s.mem ∧
      u.mtx.err.isSome = true)) ∧
  (∀ m a n be data t s, m < 12 → 1 ≤ n → a / 4096 = (a + n - 1) / 4096 → s.masterLive m = true → s.outRoom m = true →
    s.trunkReady a n → s.behind m a = false → data.length = n → Completes (.fabricTransaction m false a n be data false t) s (fun u =>
      u.mtx.out = s.mtx.out ++ [{ master := m, write := false, addr := a, len := n, be := be, data := data, issuedAt := (s.at t).up,
                                  waits := false, moved := 0, got := [], failed := false }] ∧ u.mem = s.mem)) ∧
  (∀ m write a n be data t s, m < 12 → 1 ≤ n → n ≤ 65536 → s.masterLive m = true → s.outRoom m = true → s.badTxn write a n be = false →
    (s.waitsFor m a = true ∨ s.behind m a = true) → data.length = n → Completes (.fabricTransaction m write a n be data true t) s (fun u =>
      u.mtx.out = s.mtx.out ++ [{ master := m, write := write, addr := a, len := n, be := be, data := data, issuedAt := (s.at t).up,
                                  waits := true, moved := 0, got := [], failed := false }] ∧ u.mem = s.mem)) ∧
  (∀ k x t s, s.noneWait → s.mtx.out[k]? = some x → x.issuedAt + s.timeout ≤ (s.at t).up → Completes (.targetTimeout k false t) s (fun u =>
    u.mtx.out = s.mtx.out.eraseIdx k ∧ u.flag MTX.STAT_TMO = true ∧ .errResp x.master x.addr x.write ∈ u.sent))

/-- Accesses to registers and flash complete (R6 to R11, R323, R434, R441, R443, R445): flash reads and programs move FL_ADDR on by 4, bits are only
cleared, an erase takes its sector, and the key blob is shut outside KEYFAULT. -/
def Obligations.register_and_flash_commands_complete : Prop :=
  (∀ m (v : Word) t s, s.noneWait → s.accessible m MTX.TMO = true → Completes (.registerWrite m MTX.TMO v t) s (fun u =>
    u.fld MTX.TMO_US = v.toNat % 65536 ∧ u.sent = .writeDone m :: s.sent)) ∧
  (∀ m r (v : Word) t s, s.noneWait → s.mayAccess m r = true → s.regWaits r = false → s.regRefused r = true → Completes (.registerWrite m r v t) s (fun u =>
    .errResp m (regionBase + r) true ∈ u.sent ∧ u.mtx.err.isSome = true)) ∧
  (∀ m r (v : Word) t s, s.noneWait → s.mayAccess m r = true → s.regWaits r = true → Completes (.registerWrite m r v t) s (fun u =>
    u.mtx.out = s.mtx.out ++ [{ master := m, write := true, addr := regionBase + r, len := 4, be := 15, data := toBytes 4 v.toNat,
                                issuedAt := (s.at t).up, waits := true, moved := 0, got := [], failed := false }])) ∧
  (∀ m t s, s.accessible m CFG.REJ_CNT = true → Completes (.readClear m CFG.REJ_CNT t) s (fun u =>
    u.regN CFG.REJ_CNT = 0 ∧ u.sent = .readData m (s.regN CFG.REJ_CNT) :: s.sent)) ∧
  (∀ m t s, s.accessible m BEL.BELL_LO = true → Completes (.latchingRead m BEL.BELL_LO t) s (fun u =>
    Store.get? u.latch BEL.BELL_HI = some (s.reg BEL.BELL_HI) ∧ u.sent = .readData m (s.regN BEL.BELL_LO) :: s.sent)) ∧
  (∀ b m t s, (b = 15 ∨ b = 16 ∨ b = 17 ∨ b = 25) → s.accessible m (mailReg b) = true →
    (s.mailbox b).unread = true → Completes (.mailboxHeadRead b m t) s (fun u => (u.mailbox b).unread = false ∧
      u.sent = .readData m (mailHead b (s.mailbox b).newest + 2 ^ 16) :: s.sent)) ∧
  (∀ b m t s, (b = 15 ∨ b = 16 ∨ b = 17 ∨ b = 25) → s.accessible m (mailReg b) = true →
    (s.mailbox b).unread = false → Completes (.mailboxHeadRead b m t) s (fun u =>
      u.sent = .readData m (s.regN (mailReg b)) :: s.sent)) ∧
  (∀ m d (v : Word) t s, d < 113 → s.accessible m (MTX.EVR d) = true →
    eventSource (v.toNat % 128) = true → ¬(d < 64 ∧ 32 ≤ v.toNat % 128 ∧ v.toNat % 128 ≤ 63) → Completes (.eventRouteWrite m d v t) s (fun u =>
      u.regN (MTX.EVR d) = v.toNat % 256 ∧ u.flag MTX.STAT_ROUTE_REJ = s.flag MTX.STAT_ROUTE_REJ)) ∧
  (∀ m d (v : Word) t s, d < 64 → s.accessible m (MTX.EVR d) = true →
    32 ≤ v.toNat % 128 → v.toNat % 128 ≤ 63 → Completes (.eventRouteWrite m d v t) s (fun u =>
      u.reg (MTX.EVR d) = s.reg (MTX.EVR d) ∧ u.flag MTX.STAT_ROUTE_REJ = true)) ∧
  (∀ vec t s, vec < 64 → s.msixPend.testBit vec = true → Completes (.msixUnmask vec false t) s (fun u =>
    u.sent = .msix vec :: s.sent ∧ u.msixPend.testBit vec = false ∧ u.msixMask.testBit vec = false)) ∧
  (∀ vec t s, vec < 64 → Completes (.msixUnmask vec true t) s (fun u => u.sent = s.sent ∧ u.msixPend = s.msixPend ∧
    u.msixMask.testBit vec = true)) ∧
  (∀ m t s, s.accessible m MTX.FL_DATA = true → Completes (.flashDataRead m t) s (fun u =>
    u.regN MTX.FL_ADDR = (s.regN MTX.FL_ADDR + 4) % 2 ^ 32 ∧ u.flash = s.flash ∧
      u.sent = .readData m (ofBytes (s.flashRead (s.regN MTX.FL_ADDR) 4)) :: s.sent)) ∧
  (∀ m (v : Word) t s, Store.wf 0xFF s.flash = true → s.accessible m MTX.FL_DATA = true →
    s.blobLocked (s.regN MTX.FL_ADDR) = false → Completes (.flashDataWrite m v t) s (fun u =>
      u.regN MTX.FL_ADDR = (s.regN MTX.FL_ADDR + 4) % 2 ^ 32 ∧ ∀ i, i < 4 → u.flashByte (s.regN MTX.FL_ADDR + i) =
        (s.flashByte (s.regN MTX.FL_ADDR + i) % 256) &&& (v.toNat / 2 ^ (8 * i) % 256))) ∧
  (∀ m (v : Word) t s, s.accessible m MTX.FL_DATA = true → s.blobLocked (s.regN MTX.FL_ADDR) = true →
    Completes (.flashDataWrite m v t) s (fun u => u.flash = s.flash ∧ u.regN MTX.FL_ADDR = s.regN MTX.FL_ADDR ∧
      u.flag MTX.STAT_FL_REJ = true ∧ .errResp m (regionBase + MTX.FL_DATA) true ∈ u.sent)) ∧
  (∀ m t s, s.accessible m MTX.FL_CMD = true → s.blobLocked (s.regN MTX.FL_ADDR) = false →
    Completes (.flashErase m t) s (fun u => u.mtx.erasing = some (s.regN MTX.FL_ADDR / 65536 * 65536) ∧ u.flag MTX.FL_CMD_BUSY = true ∧
      u.flash = s.flash)) ∧
  (∀ a t s, Store.wf 0xFF s.flash = true → s.mtx.erasing = some a → Completes (.flashEraseDone t) s (fun u => u.mtx.erasing = none ∧
    u.flag MTX.FL_CMD_BUSY = false ∧ u.flag MTX.STAT_FL_DONE = true ∧ (∀ x, a ≤ x → x < a + 65536 → u.flashByte x = 0xFF) ∧
    ∀ x, x < a ∨ a + 65536 ≤ x → u.flashByte x = s.flashByte x)) ∧
  (∀ b m t t1 s, (b = 15 ∨ b = 16 ∨ b = 17 ∨ b = 25) → s.accessible m (mailReg b) = true →
    (s.mailbox b).unread = true → mailHead b (s.mailbox b).newest < 2 ^ 32 → Completes (.mailboxHeadRead b m t) s (fun w =>
      Completes (.mailboxHeadRead b m t1) w (fun u =>
        u.sent = .readData m (mailHead b (s.mailbox b).newest) :: .readData m (mailHead b (s.mailbox b).newest + 2 ^ 16) :: s.sent)))

/-- Porter and counter-reader commands complete (R435 to R440, R449). -/
def Obligations.porter_and_counter_commands_complete : Prop :=
  (∀ c m t s, BlockInv s → c < 32 → s.accessible m (POR.CH_CTRL c) = true →
    s.flag (POR.CH_CTRL_EN c) = false → s.porterLive c = true → s.trunkReady (s.porterFirst c) 32 →
    (descOf (s.read (s.porterFirst c) 32)).valid = true → Completes (.porterEnable c m t) s (fun u =>
      (u.porter c).desc = descOf (s.read (s.porterFirst c) 32) ∧ (u.porter c).read = 0 ∧ (u.porter c).written = 0 ∧
      (u.porter c).st = (if (descOf (s.read (s.porterFirst c) 32)).wait = true then 1 else 2) ∧ u.flag (POR.CH_CTRL_EN c) = true)) ∧
  (∀ c m t s, BlockInv s → c < 32 → s.accessible m (POR.CH_CTRL c) = true →
    s.flag (POR.CH_CTRL_EN c) = true → Completes (.porterDisable c 0 m t) s (fun u => (u.porter c).st = 0 ∧ (u.porter c).cntOpen = true ∧
      u.flag (POR.CH_CTRL_EN c) = false)) ∧
  (∀ t c l s, BlockInv s → c < 32 → s.porTrig = c :: l → (s.porter c).st = 1 → Completes (.porterTrigger t) s (fun u =>
    u.porTrig = l ∧ u.porter c = { s.porter c with st := 2 })) ∧
  (∀ t c l s, s.porTrig = c :: l → (s.porter c).st = 2 → Completes (.porterTrigger t) s (fun u =>
    u.por = s.por ∧ u.flag POR.STAT_TRIG_LOST = true ∧ u.regN POR.TRIG_LOST_CNT = countUp (s.regN POR.TRIG_LOST_CNT))) ∧
  (∀ c t d s, BlockInv s → c < 32 → s.porterLive c = true →
    s.porter c = { st := 2, desc := d, read := 0, written := 0, held := [], cntOpen := false } → d.sw < 7 → d.dw < 7 → d.valid = true → d.sfix = false → d.dfix = false → d.chain = false →
    s.trunkReady d.src d.len → s.trunkReady d.dst d.len → (d.src + d.len ≤ d.dst ∨ d.dst + d.len ≤ d.src) →
    Completes (.porterDescriptorEnd c t) s (fun u => (u.porter c).st = 3 ∧ (u.porter c).written = d.len ∧
      (∀ i, i < d.len → u.byte (d.dst + i) = s.byte (d.src + i)) ∧ ∀ a, a < d.dst ∨ d.dst + d.len ≤ a → u.byte a = s.byte a)) ∧
  (∀ c t s, BlockInv s → c < 32 → s.porterLive c = true → (s.porter c).st = 2 → Completes (.porterXferErr c 0 t) s (fun u =>
    (u.porter c).st = 0 ∧ u.fld (POR.CH_STATUS_ERR c) = 2 ∧ u.flag POR.STAT_XFER_ERR = true)) ∧
  (∀ t s, s.flag PMC.CTRL_EN = true → s.works 1 29 = true → (s.at t).now % s.pmcWindow = 0 → s.pmc.held = none →
    Completes (.pmcSnapshot false t) s (fun u => u.pmc.seq = s.pmc.seq ∧ (u.pmc.held.map (·.1)) = some ((s.at t).pmcRecord (s.pmc.seq + 1)))) ∧
  (∀ t s, s.flag PMC.CTRL_EN = true → s.works 1 29 = true → (s.at t).now % s.pmcWindow = 0 → s.pmc.held.isSome = true →
    Completes (.pmcSnapshot false t) s (fun u => u.pmc = s.pmc ∧ u.flag PMC.STAT_MISSED = true)) ∧
  (∀ t s a, BlockInv s → s.flag PMC.CTRL_EN = true → s.works 1 29 = true → (s.at t).now % s.pmcWindow = 0 → s.pmc.held = none →
    a = s.regN PMC.BASE_LO + s.fld PMC.BASE_HI_ADDR * 2 ^ 32 + (s.at t).now / s.pmcWindow % max 1 (s.fld PMC.NREC_COUNT) * 2048 →
    a % 2048 = 0 → s.trunkReady a 2048 → s.inReset 6 = false → Completes (.pmcSnapshot true t) s (fun u =>
      u.pmc.seq = s.pmc.seq + 1 ∧ u.flag PMC.STAT_RECORD = true ∧ u.read a 2048 = (s.at t).pmcRecord (s.pmc.seq + 1)))
/-- A step carries out the command at the front of the queue with the rest of it; with an empty queue the block idles (the model's choice,
log entry 2). -/
def Obligations.step_runs_front_command : Prop :=
  (∀ c l s, s.pending = c :: l → step s = exec c { s with pending := l }) ∧
  (∀ s, s.pending = [] → step s = .next s)

/-- No command stops the block: every command has a next state in every state, so every step is safe. -/
def Obligations.every_step_is_safe : Prop := (∀ c s, ∃ u, exec c s = .next u) ∧ ∀ s, SafeStep s

/-- The state after reset meets the block's invariant. -/
def Obligations.reset_meets_invariant : Prop := BlockInv State.reset

/-- Every step keeps the invariant: canonical memory and stores, and as many units of each kind as the part has. -/
def Obligations.step_keeps_invariant : Prop := ∀ s u, BlockInv s → step s = .next u → BlockInv u

/-- A command leaves the queue, the part and its serial number alone. -/
def Obligations.commands_keep_queue_and_part : Prop :=
  ∀ c s u, exec c s = .next u → u.pending = s.pending ∧ u.part = s.part ∧ u.serial = s.serial

/-- What is one-time programmable only grows: the epoch never falls, a programmed helper slot keeps its blob and a burnt kill fuse, no
log entry is taken away (R385, R409, R413, R420). -/
def Obligations.one_time_programmable_only_grows : Prop :=
  ∀ c s u, exec c s = .next u → s.otp.epoch ≤ u.otp.epoch ∧ s.otp.log.length ≤ u.otp.log.length ∧
    s.otp.helpers.length ≤ u.otp.helpers.length ∧
    ∀ (n : Nat) (h : Helper), s.otp.helpers[n]? = some h → ∃ k : Helper, u.otp.helpers[n]? = some k ∧ k.blob = h.blob ∧ k.keys = h.keys ∧
      (h.killed = true → k.killed = true)

/-- The state after reset: registers at the values of the register tables, the bell engine STOPPED, clerk cores in RESET, no line high, DRAM
classes as R253 lists them; and, as the model chooses (log entries 3, 4 and 11), the instant 0, an unburnt part in BLANK, and nothing in
memory, flash, the one-time-programmable store or the queue. -/
def Obligations.reset_values : Prop :=
  State.reset.bellState = stSTOPPED ∧ State.reset.secState = scBLANK ∧ State.reset.locked = false ∧ State.reset.now = 0 ∧
  State.reset.flag PTP.STATUS_VALID = false ∧ State.reset.mem = [] ∧ State.reset.flash = [] ∧ State.reset.otp.helpers = [] ∧
  State.reset.otp.log = [] ∧ State.reset.otp.epoch = 0 ∧ State.reset.pending = [] ∧ State.reset.regN SEC.POLICY = 0x00400000 ∧
  State.reset.regN MTX.MRST = 0 ∧ State.reset.regN BEL.SCHED_ID = 0 ∧ State.reset.regN CFG.CLE_LIVE = 0 ∧
  (∀ n, n < 16 → (State.reset.core n).st = 0) ∧ (∀ b, b < 31 → State.reset.line b = false) ∧
  (List.range 16).map State.reset.dramClass = [0, 1, 1, 1, 2, 2, 2, 3, 3, 3, 3, 2, 2, 2, 3, 2]

/-! ## Frames -/

/-- Frames of the ingest, front filter and channeliser commands, and of the accesses to their data ports. -/
def Obligations.frame_of_signal_path_commands : Prop :=
  (∀ c s u, ingestCommand c = true → c.wf = true → exec c s = .next u →
    Framed [4, 5, 7] s u { s.eventsFrom u with ing := u.ing, front := u.front, can := u.can }) ∧
  (∀ c s u, frontCommand c = true → c.wf = true → exec c s = .next u →
    Framed [0, 5, 19] s u { s.eventsFrom u with front := u.front, frameFlags := u.frameFlags, evts := u.evts, evtLoss := u.evtLoss }) ∧
  (∀ c s u, channelCommand c = true → c.wf = true → exec c s = .next u →
    Framed [0, 6, 7] s u { s.eventsFrom u with chan := u.chan, frameFlags := u.frameFlags, can := u.can }) ∧
  (∀ c s u, portCommand c = true → exec c s = .next u →
    Framed [5, 6, 27, 30] s u { s.eventsFrom u with front := u.front, chan := u.chan, mtx := u.mtx })

/-- Frames of the canopy and capture commands. -/
def Obligations.frame_of_canopy_and_capture_commands : Prop :=
  (∀ c s u, canopyCommand c = true → c.wf = true → exec c s = .next u → Framed [7] s u { s.eventsFrom u with can := u.can }) ∧
  (∀ p k tr c t s u, (Instr.parkCastRx p k tr c t).wf = true → exec (.parkCastRx p k tr c t) s = .next u → Framed [7] s u { s.eventsFrom u with can := u.can, ring := u.ring }) ∧
  (∀ c s u, captureCommand c = true → exec c s = .next u → Framed [0, 7, 17] s u { s.eventsFrom u with ring := u.ring, can := u.can })

/-- Frames of the stall-die, aisle, crown and output commands, and of the schedule items and jobs: a start touches the cores' job queues alone,
an end what it cuts short. -/
def Obligations.frame_of_correlation_and_output_commands : Prop :=
  (∀ c s u, dieCommand c = true → c.wf = true → exec c s = .next u →
    Framed [8, 9, 10, 11, 12, 13, 14] s u { s.eventsFrom u with corr := u.corr, aisle := u.aisle }) ∧
  (∀ c s u, aisleCommand c = true → exec c s = .next u →
    Framed [0, 14, 15] s u { s.eventsFrom u with aisle := u.aisle, crown := u.crown }) ∧
  (∀ c s u, outputCommand c = true → c.wf = true → exec c s = .next u →
    Framed [19] s u { s.eventsFrom u with outs := u.outs, aisle := u.aisle, sec := u.sec, evts := u.evts, evtLoss := u.evtLoss }) ∧
  (∀ c s u, (∃ k t, c = .scheduleItemStart k t ∨ c = .jobPush k t) → exec c s = .next u →
    u = { s.eventsFrom u with started := u.started, pushed := u.pushed } ∧ RegsKept [20] s u) ∧
  (∀ c s u, (∃ k t, c = .scheduleItemCutoff k t ∨ c = .jobLate k t) → exec c s = .next u →
    u = { s.eventsFrom u with ended := u.ended, aisle := u.aisle, corr := u.corr, dram := u.dram, outs := u.outs, skips := u.skips } ∧
      RegsKept [8, 9, 10, 11, 12, 13, 14, 16, 18, 19, 20] s u)

/-- Frames of the reference, station-time and clock commands, where no transaction waits for what they let go. -/
def Obligations.frame_of_time_and_clock_commands : Prop :=
  (∀ c s u, s.noneWait → melierCommand c = true → c.wf = true → exec c s = .next u →
    Framed [21, 23] s u { s.eventsFrom u with mel := u.mel, clk := u.clk }) ∧
  (∀ c s u, ptpCommand c = true → c.wf = true → exec c s = .next u →
    Framed [21, 22] s u { s.eventsFrom u with ptp := u.ptp, mel := u.mel }) ∧
  (∀ c s u, s.noneWait → clockCommand c = true → c.wf = true → exec c s = .next u → Framed [23] s u { s.eventsFrom u with clk := u.clk })

/-- Frames of service frames, DRAM, power, ledger, loader, security and matrix commands that store nothing in memory. -/
def Obligations.frame_of_control_commands : Prop :=
  (∀ c s u, serviceCommand c = true → c.wf = true → exec c s = .next u →
    Framed [1, 14, 15, 22] s u { s.eventsFrom u with cfg := u.cfg, aisle := u.aisle, crown := u.crown, ptp := u.ptp }) ∧
  (∀ c s u, s.noneWait → s.dram.queue = [] → dramCommand c = true → exec c s = .next u → Framed [18] s u { s.eventsFrom u with dram := u.dram }) ∧
  (∀ c s u, powerCommand c = true → c.wf = true → exec c s = .next u →
    Framed [23, 24] s u { s.eventsFrom u with pwr := u.pwr, alertDirect := u.alertDirect }) ∧
  (∀ c s u, ledgerCommand c = true → c.wf = true → exec c s = .next u →
    Framed [18, 25, 26, 27, 30] s u { s.eventsFrom u with led := u.led, thm := u.thm, dram := u.dram, mtx := u.mtx }) ∧
  (∀ c s u, configCommand c = true → exec c s = .next u → Framed [1, 2] s u { s.eventsFrom u with cfg := u.cfg, sec := u.sec }) ∧
  (∀ c s u, matrixCommand c = true → exec c s = .next u →
    Framed [27, 30] s u { s.eventsFrom u with mtx := u.mtx, msixMask := u.msixMask })

/-- The frame of a clerk instruction: it writes its own core, and registers of CLE. Every other core, memory and the rest of the block are
as they were. -/
def Obligations.frame_of_clerk_instructions : Prop :=
  ∀ op n dc s u, n < 16 → exec (clerkCommand op n dc) s = .next u →
    u = s.eventsFrom u ∧ RegsKept [20] s u ∧ (∀ m, m ≠ n → CoreKept s u m) ∧ u.now = s.now ∧ u.up = s.up ∧ u.free = s.free

/-- The frame of a read: no memory, no flash, nothing one-time programmable and no engine changes but the one read; a read of MDATA corrects
its core's word (R288). -/
def Obligations.frame_of_reads : Prop :=
  ∀ c s u, readCommand c = true → exec c s = .next u →
    u = { s.eventsFrom u with cal := u.cal, chan := u.chan, crown := u.crown, dram := u.dram, front := u.front, latch := u.latch,
                              led := u.led, mtx := u.mtx, ptp := u.ptp, ring := u.ring } ∧
      ((∀ m t, c ≠ .readClear m CLE.MDATA t ∧ c ≠ .latchingRead m CLE.MDATA t) → ∀ n, CoreKept s u n)

/-- What the storing commands leave of memory: a cell goes to its place in the ring and its map bit's byte (R135, R136), a flash image and
the bytes of a cast frame go to the staging region (R396, R397), a report to its place in the ledger's ring (R380), a counter record
to its window's place (R449), a public key and an attestation report to BUF and RPT (R414, R416). -/
def Obligations.memory_frame_of_stores : Prop :=
  (∀ v t h l x n c s u, s.voq v = h :: l → h.pkt.body = .data x → s.openSlotOf (s.frameOf h.pkt) = some n →
    s.localIndex h.pkt.channel = some c → exec (.ringCellStore v t) s = .next u → ∀ b,
    ¬(s.cellAddr n (s.cellIndex (h.pkt.m0 % s.specW / s.packK) c h.pkt.src) ≤ b ∧
      b < s.cellAddr n (s.cellIndex (h.pkt.m0 % s.specW / s.packK) c h.pkt.src) + s.cellBytes) →
    b ≠ s.mapBase n + s.cellIndex (h.pkt.m0 % s.specW / s.packK) c h.pkt.src / 8 → u.byte b = s.byte b) ∧
  (∀ v t h l x s u, s.voq v = h :: l → h.pkt.body = .data x → s.openSlotOf (s.frameOf h.pkt) = none →
    exec (.ringCellStore v t) s = .next u → u.mem = s.mem) ∧
  (∀ t s u, exec (.flashBootRead t) s = .next u → ∀ b, ¬(s.stageBase ≤ b ∧
    b < s.stageBase + ofBytes (s.flashRead (flashSlotAt s.cfg.flashSlot + 0x10) 8)) → u.byte b = s.byte b) ∧
  (∀ p frame room t s u, exec (.castFrameRx p frame room t) s = .next u → ∀ b, ¬(s.stageBase + beAt frame 22 8 ≤ b ∧
    b < s.stageBase + beAt frame 22 8 + beAt frame 30 2) → u.byte b = s.byte b) ∧
  (∀ t r l s u, s.led.due = r :: l → exec (.ledgerReport t) s = .next u → ∀ b,
    ¬(s.regN LED.RPT_LO + s.fld LED.RPT_HI_ADDR * 2 ^ 32 + r.frame % 16 * 64 ≤ b ∧
      b < s.regN LED.RPT_LO + s.fld LED.RPT_HI_ADDR * 2 ^ 32 + r.frame % 16 * 64 + (16 + r.body.length)) → u.byte b = s.byte b) ∧
  (∀ prompt t s u a, s.pmc.held = none →
    a = s.regN PMC.BASE_LO + s.fld PMC.BASE_HI_ADDR * 2 ^ 32 + (s.at t).now / s.pmcWindow % max 1 (s.fld PMC.NREC_COUNT) * 2048 →
    exec (.pmcSnapshot prompt t) s = .next u → ∀ b, ¬(a ≤ b ∧ b < a + 2048) → u.byte b = s.byte b) ∧
  (∀ t s u, exec (.provision t) s = .next u → ∀ b, ¬(s.bufAddr ≤ b ∧ b < s.bufAddr + 1952) → u.byte b = s.byte b) ∧
  (∀ t s u, exec (.attest t) s = .next u → ∀ b, ¬(s.rptAddr ≤ b ∧ b < s.rptAddr + s.attReport.length) → u.byte b = s.byte b) ∧
  (∀ t s u, exec (.signatureComplete t) s = .next u → ∀ b, ¬(s.rptAddr + 896 ≤ b ∧ b < s.rptAddr + 896 + 3309) → u.byte b = s.byte b)

/-! ## Rules of the spec -/

/-- R2: on an IZ4 an access to an absent stall die's block or window store gets an error response, and changes nothing but what R429 latches
of it and what R447 counts. -/
def Obligations.absent_blocks_answer_errors : Prop :=
  (∀ m r (v : Word) t s, s.noneWait → s.part = .iz4 → 10 ≤ r / 65536 → r / 65536 ≤ 13 → s.mayAccess m r = true → s.regWaits r = false →
    exec (.registerWrite m r v t) s = .next ((s.at t).errorTo m (regionBase + r) true)) ∧
  (∀ m r t s, s.part = .iz4 → 10 ≤ r / 65536 → r / 65536 ≤ 13 → s.mayAccess m r = true → s.regWaits r = false →
    exec (.readClear m r t) s = .next ((s.at t).errorTo m (regionBase + r) false) ∧
    exec (.latchingRead m r t) s = .next ((s.at t).errorTo m (regionBase + r) false)) ∧
  (∀ m d i n be data t s, s.noneWait → s.part = .iz4 → 2 ≤ d → d < 6 → i + n ≤ 0x10000000 → m < 12 → 1 ≤ n → n ≤ 65536 →
    s.masterLive m = true → s.outRoom m = true → ∀ write answered,
      exec (.fabricTransaction m write (0xFC0000000000 + d * 0x10000000 + i) n be data answered t) s =
        .next (((s.at t).countTxn m (0xFC0000000000 + d * 0x10000000 + i) n).errorTo m (0xFC0000000000 + d * 0x10000000 + i) write))

/-- R6: an offset of a present block that names no register reads 0 and discards writes, and both complete normally; an access that is not
one aligned word completes with an error response. -/
def Obligations.unnamed_registers_are_reserved : Prop :=
  (∀ m r t s, s.accessible m r = true → regRow r = none → Completes (.readClear m r t) s (fun u =>
    u.sent = .readData m 0 :: s.sent ∧ RegsKept [] s u)) ∧
  (∀ m r (v : Word) t s, s.noneWait → s.accessible m r = true → regRow r = none →
    Completes (.registerWrite m r v t) s (fun u => u.sent = .writeDone m :: s.sent ∧ RegsKept [] s u)) ∧
  (∀ n k, 1 ≤ n → n ≤ 5 → 0x100 ≤ k → k < 65536 → regRow ((8 + n) * 65536 + k) = none) ∧
  (∀ m write r n be data t s, s.noneWait → s.place (regionBase + r) = .reg → m < 12 → 1 ≤ n → n ≤ 65536 → s.masterLive m = true →
    s.outRoom m = true → (n ≠ 4 ∨ r % 4 ≠ 0 ∨ (write = true ∧ be % 16 ≠ 15)) → Completes (.fabricTransaction m write (regionBase + r) n be data true t) s (fun u =>
      .errResp m (regionBase + r) write ∈ u.sent ∧ u.mem = s.mem ∧ RegsKept [27, 30] s u))

/-- R7 and R8: STAT bits are sticky and cleared by writing 1, MASK takes its event bits, CAUSE reads STAT AND MASK; while CAUSE is not zero the
block's line is high and ALERT_N is asserted. -/
def Obligations.event_registers : Prop :=
  (∀ b, b < 31 → State.reset.reg (statOf b) = 0#32 ∧ State.reset.reg (maskOf b) = 0#32) ∧
  (∀ m b (v : Word) t s row k, s.noneWait → b < 31 → s.accessible m (statOf b) = true →
    regRow (statOf b) = some (row, k) → Completes (.registerWrite m (statOf b) v t) s (fun u =>
      u.reg (statOf b) = s.reg (statOf b) &&& ~~~(v &&& BitVec.ofNat 32 row.w1c))) ∧
  (∀ m b (v : Word) t s row k, s.noneWait → b < 31 → s.accessible m (maskOf b) = true →
    regRow (maskOf b) = some (row, k) → Completes (.registerWrite m (maskOf b) v t) s (fun u =>
      u.reg (maskOf b) = (s.reg (maskOf b) &&& ~~~BitVec.ofNat 32 row.rw) ||| (v &&& BitVec.ofNat 32 row.rw))) ∧
  (∀ m b t s, b < 31 → s.accessible m (b * 65536 + 8) = true →
    Completes (.readClear m (b * 65536 + 8) t) s (fun u =>
      u.sent = .readData m (s.reg (statOf b) &&& s.reg (maskOf b)).toNat :: s.sent)) ∧
  (∀ (s : State) (f : Fld), f.lo < 32 → (s.raise f).flag f = true ∧
    ∀ i, (s.reg f.reg).toNat.testBit i = true → ((s.raise f).reg f.reg).toNat.testBit i = true) ∧
  (∀ (s : State) b, b < 31 → s.reg (statOf b) &&& s.reg (maskOf b) ≠ 0#32 → s.line b = true ∧ s.alert = true)

/-- R10: once the boot lock has closed, a write leaves every RWL bit of its register as it was, and completes normally. -/
def Obligations.locked_registers_discard_writes : Prop :=
  ∀ m r (v : Word) t s row k, s.noneWait → s.locked = true → s.accessible m r = true → regRow r = some (row, k) →
    row.rwl ≠ 0 → Completes (.registerWrite m r v t) s (fun u =>
      (u.reg r).toNat &&& row.rwl = (s.reg r).toNat &&& row.rwl ∧ .writeDone m ∈ u.sent)

/-- R399: the boot lock closes on a write of 1 to LOCK.CLOSE or an accepted write of RUN, raising LOCKED, and not on a discarded one; it opens at
the rising edge of PWRGOOD and at the end of a brown-out only. -/
def Obligations.boot_lock : Prop :=
  (∀ (v : Word) t s, v.toNat.testBit 0 = true → Completes (.bootLockClose v t) s (fun u => u.locked = true)) ∧
  (∀ t s, s.recovery = false → s.imaged = true → s.frameLenOk = true → s.flag BEL.CTRL_RUN = false → Completes (.bellRunSet t) s (fun u =>
    u.locked = true)) ∧
  (∀ t s, (s.recovery = true ∨ s.imaged = false ∨ s.frameLenOk = false) → Completes (.bellRunSet t) s (fun u => u.locked = s.locked)) ∧
  (∀ t s, s.locked = false → (Completes (.bootLockClose 1#32 t) s (fun u => u.flag CFG.STAT_LOCKED = true)) ∧
    (s.recovery = false → s.imaged = true → s.frameLenOk = true → s.flag BEL.CTRL_RUN = false → Completes (.bellRunSet t) s (fun u =>
      u.flag CFG.STAT_LOCKED = true))) ∧
  (∀ straps s, Completes (.pwrgoodRise straps) s (fun u => u.locked = false)) ∧
  (∀ straps s, Completes (.brownout straps) s (fun u => u.locked = false)) ∧
  (∀ c s u, s.locked = true → exec c s = .next u → u.locked = true ∨ (∃ x, c = .pwrgoodRise x) ∨ (∃ x, c = .brownout x))

/-- R415: PROVISION is refused as EXHAUSTED with 8 helper slots programmed, no more than 8 are ever programmed, and a SEAL whose read-back fails
is refused as FLASH with the slot unprogrammed and the device still PROVISIONING. -/
def Obligations.helper_slots_are_exhausted : Prop :=
  (∀ t s, s.sec.sealing = false → (s.secState = scBLANK ∨ s.secState = scERASED) → s.bellState = stSTOPPED → s.helperSlots = 8 →
    Completes (.provision t) s (fun u => u.regN SEC.CMD_RES = 2 + 4 * 2 + 64 * 1 ∧ u.flag SEC.STAT_CMD_REF = true ∧ u.sec = s.sec)) ∧
  (∀ c s u, s.helperSlots ≤ 8 → (s.sec.sealing = true ∨ s.secState = scPROVISIONING → s.helperSlots < 8) → exec c s = .next u →
    u.helperSlots ≤ 8 ∧ (u.sec.sealing = true ∨ u.secState = scPROVISIONING → u.helperSlots < 8)) ∧
  (∀ t s, s.sec.sealing = true → s.secState = scPROVISIONING → Completes (.sealComplete false t) s (fun u =>
    u.regN SEC.CMD_RES = 2 + 4 * 3 + 64 * 5 ∧ u.otp = s.otp ∧ u.secState = scPROVISIONING))

/-- R429: a transaction that times out gets an error response and raises TMO; the first address to get an error response since ERR_ADDR_LO was
read is latched with its master, raising ERR_RESP, and later ones leave the latch alone. -/
def Obligations.timeouts_and_error_latch : Prop :=
  (∀ k x t s, s.noneWait → s.mtx.out[k]? = some x → x.issuedAt + s.timeout ≤ (s.at t).up → ∀ performed, Completes (.targetTimeout k performed t) s (fun u =>
    u.flag MTX.STAT_TMO = true ∧ .errResp x.master x.addr x.write ∈ u.sent)) ∧
  (∀ k x t s, s.noneWait → s.mtx.out[k]? = some x → x.issuedAt + s.timeout ≤ (s.at t).up → Completes (.targetTimeout k false t) s (fun u =>
    u.mtx.out = s.mtx.out.eraseIdx k)) ∧
  (∀ (s : State) m a w, s.mtx.err = none → (s.errorTo m a w).mtx.err = some (a, m, w) ∧
    (s.errorTo m a w).regN MTX.ERR_ADDR_LO = a % 2 ^ 32 ∧ (s.errorTo m a w).flag MTX.STAT_ERR_RESP = true) ∧
  (∀ (s : State) m a w x, s.mtx.err = some x → (s.errorTo m a w).mtx = s.mtx ∧
    (s.errorTo m a w).reg MTX.ERR_ADDR_LO = s.reg MTX.ERR_ADDR_LO) ∧
  (∀ m s, Completes (.errAddrRead m) s (fun u => u.mtx.err = none ∧ u.sent = .readData m (s.regN MTX.ERR_ADDR_LO) :: s.sent))

/-- R281: LOOP raises LDEPTH by 1 and writes LC, LS and LE of its level: a count of 1 to 256 from the word, or from a D register, where 0 stands
for 65,536; with LDEPTH 2 it faults with LOOP_OVF. -/
def Obligations.loop_instruction : Prop :=
  (∀ n dc s l count, ClerkReady s n dc .loop → (s.core n).delayed = [] → l = srLDEPTH (s.core n).sr → l < 2 →
    bits (s.clerkWord n) 0 15 ≠ (s.core n).pc →
    count = (if (s.clerkWord n).testBit 23 = true then (if (s.core n).d (bits (s.clerkWord n) 15 3) = 0 then 65536
      else (s.core n).d (bits (s.clerkWord n) 15 3)) else bits (s.clerkWord n) 15 8 + 1) →
    (s.core n).d (bits (s.clerkWord n) 15 3) < 65536 → (s.core n).pc < 32768 →
    Completes (.loop n dc) s (fun u => srLDEPTH (u.core n).sr = l + 1 ∧
      ((u.core n).get (0x44 + 3 * l) + 65535) % 65536 + 1 = count ∧ (u.core n).get (0x45 + 3 * l) = ((s.core n).pc + 1) % 32768 ∧
      (u.core n).get (0x46 + 3 * l) = bits (s.clerkWord n) 0 15)) ∧
  (∀ n dc s, ClerkReady s n dc .loop → (s.core n).storeQ = [] → srLDEPTH (s.core n).sr = 2 → Completes (.loop n dc) s (fun u =>
    (u.core n).st = 4 ∧ (u.core n).fault = 3 ∧ u.flag CLE.STAT_CORE_FAULT = true))

/-- Edges of the event matrix (R441 to R443): where a line rises, an unmasked MSI-X vector routed to it sends its message, a masked one is left
pending, and a clerk event input pends in every core; a line already high sends nothing more. -/
def Obligations.event_matrix_edges : Prop :=
  ∀ (s : State) (f : Fld) d, f.reg % 65536 = 0 → f.reg / 65536 < 31 → f.lo < 32 → (s.regN (maskOf (f.reg / 65536))).testBit f.lo = true →
    s.regN (MTX.EVR d) = f.reg / 65536 + 128 →
    (s.line (f.reg / 65536) = false → d < 64 → s.msixMask.testBit d = false → .msix d ∈ (s.raise f).sent) ∧
    (s.line (f.reg / 65536) = false → d < 64 → s.msixMask.testBit d = true → (s.raise f).msixPend.testBit d = true) ∧
    (s.line (f.reg / 65536) = false → 64 ≤ d → d < 80 → ∀ n, n < s.cores.length →
      (((s.raise f).core n).get 0x4B).testBit (16 + (d - 64)) = true) ∧
    (s.line (f.reg / 65536) = true → (s.raise f).sent = s.sent)
end

