-- ==== Sys2Proof/Laws/Bits.lean ====
section
/-! SUPPORT. Laws of bit fields: a field reads what was put into it, and every other bit stays. -/
namespace Sys2Proof.Machine

theorem putBits_eq (x lo wid v : Nat) :
    putBits x lo wid v = 2 ^ lo * (2 ^ wid * (x / 2 ^ lo / 2 ^ wid) + v % 2 ^ wid) + x % 2 ^ lo := by
  unfold putBits bits
  rw [Nat.shiftLeft_eq, Nat.shiftLeft_eq, Nat.shiftRight_eq_div_pow]
  have h1 := Nat.div_add_mod x (2 ^ lo)
  have h2 := Nat.div_add_mod (x / 2 ^ lo) (2 ^ wid)
  generalize x / 2 ^ lo % 2 ^ wid = b at *
  generalize hc : 2 ^ wid * (x / 2 ^ lo / 2 ^ wid) = c at *
  generalize x % 2 ^ lo = r at *
  generalize v % 2 ^ wid = u at *
  generalize 2 ^ lo = p at *
  rw [← h2] at h1
  rw [← h1]
  rw [Nat.mul_add, Nat.mul_add, Nat.mul_comm b p, Nat.mul_comm u p]
  omega

theorem testBit_putBits (x lo wid v i : Nat) :
    (putBits x lo wid v).testBit i = if i < lo then x.testBit i else if i < lo + wid then v.testBit (i - lo) else x.testBit i := by
  rw [putBits_eq, Nat.testBit_two_pow_mul_add _ (Nat.mod_lt _ (Nat.two_pow_pos _))]
  split
  · rename_i h; simp [Nat.testBit_mod_two_pow, h]
  · rename_i h
    rw [Nat.testBit_two_pow_mul_add _ (Nat.mod_lt _ (Nat.two_pow_pos _))]
    by_cases h2 : i - lo < wid
    · rw [if_pos h2, if_pos (by omega)]
      simp [Nat.testBit_mod_two_pow, h2]
    · rw [if_neg h2, if_neg (by omega), Nat.testBit_div_two_pow, Nat.testBit_div_two_pow]
      congr 1; omega

theorem putBits_lt {x lo wid v n : Nat} (hx : x < 2 ^ n) (h : lo + wid ≤ n) : putBits x lo wid v < 2 ^ n := by
  apply Nat.lt_pow_two_of_testBit
  intro i hi
  rw [testBit_putBits, if_neg (by omega), if_neg (by omega)]
  exact Nat.testBit_lt_two_pow (Nat.lt_of_lt_of_le hx (Nat.pow_le_pow_right (by omega) hi))

/-- A field reads what was put into it, modulo its width. -/
theorem bits_putBits (x lo wid v : Nat) : bits (putBits x lo wid v) lo wid = v % 2 ^ wid := by
  apply Nat.eq_of_testBit_eq
  intro i
  unfold bits
  rw [Nat.testBit_mod_two_pow, Nat.testBit_shiftRight, testBit_putBits, Nat.testBit_mod_two_pow]
  by_cases h : i < wid
  · rw [if_neg (by omega), if_pos (by omega)]; simp [h]
  · simp [h]

/-- Fields that do not overlap keep their values. -/
theorem bits_putBits_ne (x lo wid v l w : Nat) (h : l + w ≤ lo ∨ lo + wid ≤ l) : bits (putBits x lo wid v) l w = bits x l w := by
  apply Nat.eq_of_testBit_eq
  intro i
  unfold bits
  rw [Nat.testBit_mod_two_pow, Nat.testBit_mod_two_pow, Nat.testBit_shiftRight, Nat.testBit_shiftRight, testBit_putBits]
  by_cases hi : i < w
  · have : decide (i < w) = true := by simp [hi]
    rw [this, Bool.true_and, Bool.true_and]
    split
    · rfl
    · rw [if_neg (by omega)]
  · simp [hi]

theorem bits_lt (x lo wid : Nat) : bits x lo wid < 2 ^ wid := Nat.mod_lt _ (Nat.two_pow_pos _)

@[simp] theorem boolNat_true : boolNat true = 1 := rfl
@[simp] theorem boolNat_false : boolNat false = 0 := rfl

theorem testBit_setBit (x k i : Nat) (b : Bool) : (setBit x k b).testBit i = if i = k then b else x.testBit i := by
  unfold setBit
  rw [testBit_putBits]
  by_cases h : i = k
  · subst h; cases b <;> simp [boolNat]
  · rw [if_neg h]
    split
    · rfl
    · rw [if_neg (by omega)]

theorem atD_setAt {α : Type} (l : List α) (k j : Nat) (a d : α) (h : k < l.length) :
    atD (setAt l k a) j d = if j = k then a else atD l j d := by
  induction l generalizing k j with
  | nil => simp at h
  | cons x l ih =>
    cases k with
    | zero => cases j <;> simp [setAt, atD]
    | succ k => cases j <;> simp [setAt, atD]; exact ih k _ (by simpa using h)

@[simp] theorem length_setAt {α : Type} (l : List α) (k : Nat) (a : α) : (setAt l k a).length = l.length := by
  induction l generalizing k with
  | nil => rfl
  | cons x l ih => cases k <;> simp [setAt, ih]

end Sys2Proof.Machine
end

