-- ==== Sys2Proof/Laws/Store.lean ====
section
/-! SUPPORT. Laws of the sparse table: what a read gives after a put or a canonical write, and that the canonical form stays. -/
namespace Sys2Proof.Machine

variable {α : Type}

theorem Store.get?_put (l : Store α) (k j : Nat) (v : α) :
    Store.get? (Store.put l k v) j = if j = k then some v else Store.get? l j := by
  induction l with
  | nil => simp only [Store.put, Store.get?]; grind
  | cons p l ih =>
    obtain ⟨a, w⟩ := p
    simp only [Store.put, Store.get?]
    grind [Store.get?]

theorem Store.getD_put (l : Store α) (k j : Nat) (v d : α) :
    Store.getD (Store.put l k v) j d = if j = k then v else Store.getD l j d := by
  simp only [Store.getD, Store.get?_put]
  split <;> rfl

@[simp] theorem Store.getD_nil (k : Nat) (d : α) : Store.getD ([] : Store α) k d = d := rfl

theorem Store.rising_cons_of_le {b : Option Nat} {a : Nat} {l : Store α} (h : Store.rising (some a) l = true)
    (hb : ∀ c, b = some c → c ≤ a) : Store.rising b l = true := by
  cases l with
  | nil => cases b <;> rfl
  | cons p l =>
    obtain ⟨x, w⟩ := p
    cases b with
    | none => simp only [Store.rising, Bool.and_eq_true] at h ⊢; exact h.2
    | some c =>
      simp only [Store.rising, Bool.and_eq_true, decide_eq_true_eq] at h ⊢
      exact ⟨by have := hb c rfl; omega, h.2⟩

theorem Store.rising_put (l : Store α) (b : Option Nat) (k : Nat) (v : α) (h : Store.rising b l = true)
    (hb : ∀ c, b = some c → c < k) : Store.rising b (Store.put l k v) = true := by
  induction l generalizing b with
  | nil => cases b <;> simp_all [Store.put, Store.rising]
  | cons p l ih =>
    obtain ⟨a, w⟩ := p
    simp only [Store.put]
    split
    · cases b <;> simp_all [Store.rising]
    · split
      · subst_vars
        cases b <;> simp_all [Store.rising]
      · have ha : Store.rising (some a) l = true := by cases b <;> simp_all [Store.rising]
        have := ih (some a) ha (by intro c hc; cases hc; omega)
        cases b <;> simp_all [Store.rising]

theorem Store.rising_del (l : Store α) (b : Option Nat) (k : Nat) (h : Store.rising b l = true) :
    Store.rising b (Store.del l k) = true := by
  induction l generalizing b with
  | nil => simpa [Store.del] using h
  | cons p l ih =>
    obtain ⟨a, w⟩ := p
    have ha : Store.rising (some a) l = true := by cases b <;> simp_all [Store.rising]
    have hb : ∀ c, b = some c → c < a := by intro c hc; subst hc; simp_all [Store.rising]
    simp only [Store.del]
    split
    · exact Store.rising_cons_of_le ha (fun c hc => by have := hb c hc; omega)
    · split
      · exact h
      · have := ih (some a) ha
        cases b <;> simp_all [Store.rising]

theorem Store.all_put (p : Nat × α → Bool) (l : Store α) (k : Nat) (v : α) (h : l.all p = true) (hv : p (k, v) = true) :
    (Store.put l k v).all p = true := by
  induction l with
  | nil => simp [Store.put, hv]
  | cons q l ih =>
    obtain ⟨a, w⟩ := q
    simp only [Store.put]
    split
    · simp_all
    · split <;> simp_all

theorem Store.all_del (p : Nat × α → Bool) (l : Store α) (k : Nat) (h : l.all p = true) : (Store.del l k).all p = true := by
  induction l with
  | nil => simpa [Store.del] using h
  | cons q l ih =>
    obtain ⟨a, w⟩ := q
    simp only [Store.del]
    split
    · simp_all
    · split <;> simp_all

/-- The canonical write keeps the canonical form. -/
theorem Store.wf_set [DecidableEq α] (d : α) (l : Store α) (k : Nat) (v : α) (h : Store.wf d l = true) :
    Store.wf d (Store.set d l k v) = true := by
  simp only [Store.wf, Bool.and_eq_true] at h ⊢
  unfold Store.set
  split
  · exact ⟨Store.rising_del l none k h.1, Store.all_del _ l k h.2⟩
  · rename_i hv
    exact ⟨Store.rising_put l none k v h.1 (by simp), Store.all_put _ l k v h.2 (by simp [hv])⟩

theorem Store.rising_filter (l : Store α) (b : Option Nat) (p : Nat × α → Bool) (h : Store.rising b l = true) :
    Store.rising b (l.filter p) = true := by
  induction l generalizing b with
  | nil => simpa using h
  | cons q l ih =>
    obtain ⟨a, w⟩ := q
    have ha : Store.rising (some a) l = true := by cases b <;> simp_all [Store.rising]
    have hb : ∀ c, b = some c → c < a := by intro c hc; subst hc; simp_all [Store.rising]
    have := ih (some a) ha
    rw [List.filter_cons]
    split
    · cases b <;> simp_all [Store.rising]
    · exact Store.rising_cons_of_le this (fun c hc => by have := hb c hc; omega)

/-- Removing entries keeps the canonical form. -/
theorem Store.wf_filter [DecidableEq α] (d : α) (l : Store α) (p : Nat × α → Bool) (h : Store.wf d l = true) :
    Store.wf d (l.filter p) = true := by
  simp only [Store.wf, Bool.and_eq_true] at h ⊢
  refine ⟨Store.rising_filter l none p h.1, ?_⟩
  rw [List.all_eq_true] at h ⊢
  intro x hx
  exact h.2 x (List.mem_filter.mp hx).1

theorem Store.get?_lt {l : Store α} {b k : Nat} (h : Store.rising (some b) l = true) (hk : k ≤ b) : Store.get? l k = none := by
  cases l with
  | nil => rfl
  | cons p l =>
    obtain ⟨a, w⟩ := p
    simp only [Store.rising, Bool.and_eq_true, decide_eq_true_eq] at h
    simp only [Store.get?]
    rw [if_neg (by omega), if_pos (by omega)]

theorem Store.get?_del (l : Store α) (b : Option Nat) (k j : Nat) (h : Store.rising b l = true) :
    Store.get? (Store.del l k) j = if j = k then none else Store.get? l j := by
  induction l generalizing b with
  | nil => simp [Store.del, Store.get?]
  | cons p l ih =>
    obtain ⟨a, w⟩ := p
    have ha : Store.rising (some a) l = true := by cases b <;> simp_all [Store.rising]
    have hi := ih (some a) ha
    have hl : ∀ i, i ≤ a → Store.get? l i = none := fun i hi => Store.get?_lt ha hi
    simp only [Store.del]
    split
    · rename_i e
      subst e
      by_cases hj : j = a
      · subst hj; simp [hl j (Nat.le_refl _)]
      · simp only [Store.get?, if_neg hj, if_neg (Ne.symm hj)]
        split
        · exact hl j (by omega)
        · rfl
    · split
      · by_cases hj : j = k
        · subst hj
          rename_i h1 h2
          simp [Store.get?, h1, h2]
        · simp [hj]
      · simp only [Store.get?, hi]
        grind

/-- A canonical write gives the value written at its key and leaves every other key. -/
theorem Store.getD_set [DecidableEq α] (d : α) (l : Store α) (k j : Nat) (v : α) (h : Store.wf d l = true) :
    Store.getD (Store.set d l k v) j d = if j = k then v else Store.getD l j d := by
  simp only [Store.wf, Bool.and_eq_true] at h
  unfold Store.set
  split
  · rename_i hv
    simp only [Store.getD, Store.get?_del l none k j h.1, hv]
    split <;> rfl
  · exact Store.getD_put l k j v d

end Sys2Proof.Machine
end

