-- ==== Sys2Proof/Laws/Ops.lean ====
section
/-! SUPPORT. What the shared operations on registers, events, memory and free values do: the value each leaves, and that it
leaves everything else. -/
namespace Sys2Proof.Machine

/-! ## Registers -/

theorem State.reg_def (s : State) (r : Reg) : s.reg r = Store.getD s.regs r (resetOf s.part s.serial r) := rfl

/-- A register write sets that register and no other. -/
theorem State.reg_setReg (s : State) (r r' : Reg) (v : Word) : (s.setReg r v).reg r' = if r' = r then v else s.reg r' := by
  show Store.getD (Store.put s.regs r v) r' _ = _
  rw [Store.getD_put]; rfl

@[simp] theorem State.reg_setReg_same (s : State) (r : Reg) (v : Word) : (s.setReg r v).reg r = v := by
  rw [State.reg_setReg, if_pos rfl]

theorem State.reg_setReg_ne (s : State) {r r' : Reg} (v : Word) (h : r' ≠ r) : (s.setReg r v).reg r' = s.reg r' := by
  rw [State.reg_setReg, if_neg h]

theorem State.reg_setFld_ne (s : State) {f : Fld} {r : Reg} (n : Nat) (h : r ≠ f.reg) : (s.setFld f n).reg r = s.reg r :=
  s.reg_setReg_ne _ h

theorem State.reg_setFlag_ne (s : State) {f : Fld} {r : Reg} (b : Bool) (h : r ≠ f.reg) : (s.setFlag f b).reg r = s.reg r :=
  s.reg_setFld_ne _ h

theorem State.reg_setRegN (s : State) (r r' : Reg) (n : Nat) :
    (s.setRegN r n).reg r' = if r' = r then BitVec.ofNat 32 n else s.reg r' := s.reg_setReg r r' _

theorem State.reg_setRegN_ne (s : State) {r r' : Reg} (n : Nat) (h : r' ≠ r) : (s.setRegN r n).reg r' = s.reg r' :=
  s.reg_setReg_ne _ h

theorem State.regN_setRegN (s : State) (r : Reg) {n : Nat} (h : n < 2 ^ 32) : (s.setRegN r n).regN r = n := by
  unfold State.regN State.setRegN
  rw [State.reg_setReg_same, BitVec.toNat_ofNat, Nat.mod_eq_of_lt h]

theorem State.regN_lt (s : State) (r : Reg) : s.regN r < 2 ^ 32 := (s.reg r).isLt

theorem State.toNat_setFld (s : State) (f : Fld) (n : Nat) (h : f.lo + f.wid ≤ 32) :
    ((s.setFld f n).reg f.reg).toNat = putBits (s.reg f.reg).toNat f.lo f.wid n := by
  unfold State.setFld
  rw [State.reg_setReg_same, BitVec.toNat_ofNat, Nat.mod_eq_of_lt (putBits_lt (s.reg f.reg).isLt h)]

/-- A field reads what was put into it, modulo its width. -/
theorem State.fld_setFld (s : State) (f : Fld) (n : Nat) (h : f.lo + f.wid ≤ 32) : (s.setFld f n).fld f = n % 2 ^ f.wid := by
  unfold State.fld
  rw [State.toNat_setFld s f n h, bits_putBits]

/-- A field of another register, or one that does not overlap, keeps its value. -/
theorem State.fld_setFld_ne (s : State) (f g : Fld) (n : Nat) (hf : f.lo + f.wid ≤ 32)
    (h : g.reg ≠ f.reg ∨ g.lo + g.wid ≤ f.lo ∨ f.lo + f.wid ≤ g.lo) : (s.setFld f n).fld g = s.fld g := by
  unfold State.fld
  by_cases e : g.reg = f.reg
  · rw [e, State.toNat_setFld s f n hf, bits_putBits_ne]
    rcases h with h | h
    · exact absurd e h
    · exact h
  · rw [State.reg_setFld_ne s n e]

theorem State.fld_setReg_ne (s : State) {g : Fld} {r : Reg} (v : Word) (h : g.reg ≠ r) : (s.setReg r v).fld g = s.fld g := by
  unfold State.fld; rw [State.reg_setReg_ne s v h]

theorem State.flag_setReg_ne (s : State) {g : Fld} {r : Reg} (v : Word) (h : g.reg ≠ r) : (s.setReg r v).flag g = s.flag g := by
  unfold State.flag; rw [State.reg_setReg_ne s v h]

theorem State.flag_setFld_ne (s : State) (f g : Fld) (n : Nat) (hf : f.lo + f.wid ≤ 32)
    (h : g.reg ≠ f.reg ∨ g.lo < f.lo ∨ f.lo + f.wid ≤ g.lo) : (s.setFld f n).flag g = s.flag g := by
  unfold State.flag
  by_cases e : g.reg = f.reg
  · rw [e, State.toNat_setFld s f n hf, testBit_putBits]
    rcases h with h | h | h
    · exact absurd e h
    · rw [if_pos h]
    · rw [if_neg (by omega), if_neg (by omega)]
  · rw [State.reg_setFld_ne s n e]

/-- A flag reads what was put into it. -/
theorem State.flag_setFlag (s : State) (f : Fld) (b : Bool) (h : f.lo + f.wid ≤ 32) (hw : 0 < f.wid) : (s.setFlag f b).flag f = b := by
  unfold State.flag State.setFlag
  rw [State.toNat_setFld s f _ h, testBit_putBits, if_neg (by omega), if_pos (by omega)]
  cases b <;> simp [boolNat]

theorem State.reg_bump_ne (s : State) {r r' : Reg} (k : Nat) (h : r' ≠ r) : (s.bump r k).reg r' = s.reg r' := s.reg_setRegN_ne _ h

/-- A counter rises by k and stays at its largest value. -/
theorem State.regN_bump (s : State) (r : Reg) (k : Nat) : (s.bump r k).regN r = min (s.regN r + k) (2 ^ 32 - 1) := by
  unfold State.bump
  rw [State.regN_setRegN]
  · unfold satAdd32; split <;> omega
  · unfold satAdd32; split <;> omega

/-! ## Events -/

theorem pmcBump_other (part : Part) (serial : Nat) (regs : Store Word) (c k r : Nat) (d : Word) (hc : c < 0x3C00) (h : r / 65536 ≠ 29) :
    Store.getD (pmcBump part serial regs c k) r d = Store.getD regs r d := by
  unfold pmcBump
  have h1 : r ≠ 0x1D1000 + 4 * c := by omega
  have h2 : r ≠ 0x1D0100 + 4 * (c / 8) := by omega
  simp only
  split
  · rw [Store.getD_put, if_neg h1]
  · rw [Store.getD_put, if_neg h2, Store.getD_put, if_neg h1]

theorem pmcHits_lt {regs : Store Word} {b code c : Nat} (hb : b < 32) (h : c ∈ pmcHits regs b code) : c < 0x3C00 := by
  unfold pmcHits at h
  rw [List.mem_filterMap] at h
  obtain ⟨⟨a, v⟩, -, h⟩ := h
  simp only at h
  split at h
  · simp only [Option.some.injEq] at h; omega
  · simp at h

/-- Event counters live in block 29; every other register keeps its value (R447). -/
theorem pmcCount_other (part : Part) (serial : Nat) (regs : Store Word) (b code k r : Nat) (d : Word) (hb : b < 32)
    (h : r / 65536 ≠ 29) : Store.getD (pmcCount part serial regs b code k) r d = Store.getD regs r d := by
  unfold pmcCount
  have H : ∀ (l : List Nat) (x : Store Word), (∀ c ∈ l, c < 0x3C00) →
      Store.getD (l.foldl (fun r c => pmcBump part serial r c k) x) r d = Store.getD x r d := by
    intro l
    induction l with
    | nil => intros; rfl
    | cons c l ih =>
      intro x hl
      rw [List.foldl_cons, ih _ (fun c hc => hl c (List.mem_cons_of_mem _ hc))]
      exact pmcBump_other part serial x c k r d (hl c (List.mem_cons_self ..)) h
  exact H _ _ (fun c hc => pmcHits_lt hb hc)

/-- Raising an event changes its STAT register and the event counters, no other register. -/
theorem State.reg_raise_ne (s : State) (f : Fld) {r : Reg} (hb : f.reg / 65536 < 32) (h : r ≠ f.reg) (h2 : r / 65536 ≠ 29) :
    (s.raise f).reg r = s.reg r := by
  show Store.getD (pmcCount s.part s.serial (Store.put s.regs f.reg _) (f.reg / 65536) _ 1) r _ = _
  rw [pmcCount_other _ _ _ _ _ _ _ _ hb h2, Store.getD_put, if_neg h]; rfl

theorem State.stat_raise (s : State) (f : Fld) (hb : f.reg / 65536 < 32) (h2 : f.reg / 65536 ≠ 29) (d : Word) :
    Store.getD (s.raise f).regs f.reg d = Store.getD s.regs f.reg 0#32 ||| BitVec.ofNat 32 (2 ^ f.lo) := by
  show Store.getD (pmcCount s.part s.serial (Store.put s.regs f.reg _) (f.reg / 65536) _ 1) f.reg _ = _
  rw [pmcCount_other _ _ _ _ _ _ _ _ hb h2, Store.getD_put, if_pos rfl]

/-- The event's sticky bit is set (R7). -/
theorem State.flag_raise (s : State) (f : Fld) (hb : f.reg / 65536 < 32) (h2 : f.reg / 65536 ≠ 29) (hl : f.lo < 32) :
    (s.raise f).flag f = true := by
  unfold State.flag State.reg
  rw [State.stat_raise s f hb h2, BitVec.toNat_or, Nat.testBit_or, BitVec.toNat_ofNat,
    Nat.mod_eq_of_lt (Nat.pow_lt_pow_right (by omega) hl), Nat.testBit_two_pow_self, Bool.or_true]

/-- Fields of every other register keep their values. -/
theorem State.fld_raise_ne (s : State) (f g : Fld) (hb : f.reg / 65536 < 32) (h : g.reg ≠ f.reg) (h2 : g.reg / 65536 ≠ 29) :
    (s.raise f).fld g = s.fld g := by
  unfold State.fld; rw [State.reg_raise_ne s f hb h h2]

theorem State.flag_raise_ne (s : State) (f g : Fld) (hb : f.reg / 65536 < 32) (h : g.reg ≠ f.reg) (h2 : g.reg / 65536 ≠ 29) :
    (s.raise f).flag g = s.flag g := by
  unfold State.flag; rw [State.reg_raise_ne s f hb h h2]

/-! ## Memory -/

theorem memWrite_wf (l : List Byte) (m : List Host.Cell) (a : Nat) (h : Memory.wf m = true) : Memory.wf (memWrite m a l) = true := by
  induction l generalizing m a with
  | nil => exact h
  | cons b l ih => exact ih _ _ (Store.wf_set 0#8 m a b h)

/-- A write stores its bytes and leaves every other byte (R5). -/
theorem memWrite_byte (l : List Byte) (m : List Host.Cell) (a x : Nat) (h : Memory.wf m = true) :
    Store.getD (memWrite m a l) x 0#8 = if h : a ≤ x ∧ x < a + l.length then l[x - a]'(by omega) else Store.getD m x 0#8 := by
  induction l generalizing m a with
  | nil => rw [dif_neg (by simp only [List.length_nil]; omega)]; rfl
  | cons b l ih =>
    show Store.getD (memWrite (Store.set 0#8 m a b) (a + 1) l) x 0#8 = _
    rw [ih _ _ (Store.wf_set 0#8 m a b h), Store.getD_set 0#8 m a x b h]
    by_cases e : x = a
    · subst e
      rw [dif_neg (by omega), if_pos rfl, dif_pos (by simp)]
      simp
    · rw [if_neg e]
      by_cases hx : a + 1 ≤ x ∧ x < a + 1 + l.length
      · rw [dif_pos hx, dif_pos (by simp; omega), List.getElem_cons]
        rw [dif_neg (by omega)]
        congr 1
      · rw [dif_neg hx, dif_neg (by simp; omega)]

/-- Every memory operation keeps the canonical form. -/
theorem State.write_wf (s : State) (a : Nat) (l : List Byte) (h : Memory.wf s.mem = true) : Memory.wf (s.write a l).mem = true :=
  memWrite_wf l s.mem a h

theorem State.writeN_wf (s : State) (a n v : Nat) (h : Memory.wf s.mem = true) : Memory.wf (s.writeN a n v).mem = true :=
  memWrite_wf _ s.mem a h

theorem State.clear_wf (s : State) (a n : Nat) (h : Memory.wf s.mem = true) : Memory.wf (s.clear a n).mem = true :=
  Store.wf_filter 0#8 s.mem _ h

theorem State.byte_write (s : State) (a x : Nat) (l : List Byte) (h : Memory.wf s.mem = true) :
    (s.write a l).byte x = if h : a ≤ x ∧ x < a + l.length then l[x - a]'(by omega) else s.byte x :=
  memWrite_byte l s.mem a x h

/-! ## Repeated updates -/

/-- What every step of `each` keeps, `each` keeps. -/
theorem State.each_keeps {α : Type} (P : State → Prop) (l : List α) (f : State → α → State) (s : State) (h0 : P s)
    (h : ∀ s a, P s → P (f s a)) : P (s.each l f) := by
  unfold State.each
  induction l generalizing s with
  | nil => exact h0
  | cons a l ih => exact ih _ (h s a h0)

end Sys2Proof.Machine
end

