-- ==== Sys2Proof/Laws/State.lean ====
section
/-! SUPPORT. What each update of State leaves in each field: the updates of Machine/Ops.lean and those of the engines. -/
namespace Sys2Proof.Machine

variable (s : State)

/-! ## State.setReg -/

@[simp] theorem State.part_setReg (r : Reg) (v : Word) : (s.setReg r v).part = s.part := rfl
@[simp] theorem State.serial_setReg (r : Reg) (v : Word) : (s.setReg r v).serial = s.serial := rfl
@[simp] theorem State.now_setReg (r : Reg) (v : Word) : (s.setReg r v).now = s.now := rfl
@[simp] theorem State.up_setReg (r : Reg) (v : Word) : (s.setReg r v).up = s.up := rfl
@[simp] theorem State.mem_setReg (r : Reg) (v : Word) : (s.setReg r v).mem = s.mem := rfl
@[simp] theorem State.sent_setReg (r : Reg) (v : Word) : (s.setReg r v).sent = s.sent := rfl
@[simp] theorem State.free_setReg (r : Reg) (v : Word) : (s.setReg r v).free = s.free := rfl
@[simp] theorem State.bell_setReg (r : Reg) (v : Word) : (s.setReg r v).bell = s.bell := rfl
@[simp] theorem State.latch_setReg (r : Reg) (v : Word) : (s.setReg r v).latch = s.latch := rfl
@[simp] theorem State.frameFlags_setReg (r : Reg) (v : Word) : (s.setReg r v).frameFlags = s.frameFlags := rfl
@[simp] theorem State.skips_setReg (r : Reg) (v : Word) : (s.setReg r v).skips = s.skips := rfl
@[simp] theorem State.evts_setReg (r : Reg) (v : Word) : (s.setReg r v).evts = s.evts := rfl
@[simp] theorem State.evtLoss_setReg (r : Reg) (v : Word) : (s.setReg r v).evtLoss = s.evtLoss := rfl
@[simp] theorem State.ing_setReg (r : Reg) (v : Word) : (s.setReg r v).ing = s.ing := rfl
@[simp] theorem State.front_setReg (r : Reg) (v : Word) : (s.setReg r v).front = s.front := rfl
@[simp] theorem State.chan_setReg (r : Reg) (v : Word) : (s.setReg r v).chan = s.chan := rfl
@[simp] theorem State.schedule_setReg (r : Reg) (v : Word) : (s.setReg r v).schedule = s.schedule := rfl
@[simp] theorem State.pit_setReg (r : Reg) (v : Word) : (s.setReg r v).pit = s.pit := rfl
@[simp] theorem State.can_setReg (r : Reg) (v : Word) : (s.setReg r v).can = s.can := rfl
@[simp] theorem State.ring_setReg (r : Reg) (v : Word) : (s.setReg r v).ring = s.ring := rfl
@[simp] theorem State.dram_setReg (r : Reg) (v : Word) : (s.setReg r v).dram = s.dram := rfl
@[simp] theorem State.outs_setReg (r : Reg) (v : Word) : (s.setReg r v).outs = s.outs := rfl
@[simp] theorem State.corr_setReg (r : Reg) (v : Word) : (s.setReg r v).corr = s.corr := rfl
@[simp] theorem State.aisle_setReg (r : Reg) (v : Word) : (s.setReg r v).aisle = s.aisle := rfl
@[simp] theorem State.crown_setReg (r : Reg) (v : Word) : (s.setReg r v).crown = s.crown := rfl
@[simp] theorem State.cal_setReg (r : Reg) (v : Word) : (s.setReg r v).cal = s.cal := rfl
@[simp] theorem State.clk_setReg (r : Reg) (v : Word) : (s.setReg r v).clk = s.clk := rfl
@[simp] theorem State.mel_setReg (r : Reg) (v : Word) : (s.setReg r v).mel = s.mel := rfl
@[simp] theorem State.ptp_setReg (r : Reg) (v : Word) : (s.setReg r v).ptp = s.ptp := rfl
@[simp] theorem State.pwr_setReg (r : Reg) (v : Word) : (s.setReg r v).pwr = s.pwr := rfl
@[simp] theorem State.led_setReg (r : Reg) (v : Word) : (s.setReg r v).led = s.led := rfl
@[simp] theorem State.thm_setReg (r : Reg) (v : Word) : (s.setReg r v).thm = s.thm := rfl
@[simp] theorem State.otp_setReg (r : Reg) (v : Word) : (s.setReg r v).otp = s.otp := rfl
@[simp] theorem State.sec_setReg (r : Reg) (v : Word) : (s.setReg r v).sec = s.sec := rfl
@[simp] theorem State.cfg_setReg (r : Reg) (v : Word) : (s.setReg r v).cfg = s.cfg := rfl
@[simp] theorem State.mtx_setReg (r : Reg) (v : Word) : (s.setReg r v).mtx = s.mtx := rfl
@[simp] theorem State.flash_setReg (r : Reg) (v : Word) : (s.setReg r v).flash = s.flash := rfl
@[simp] theorem State.por_setReg (r : Reg) (v : Word) : (s.setReg r v).por = s.por := rfl
@[simp] theorem State.pmc_setReg (r : Reg) (v : Word) : (s.setReg r v).pmc = s.pmc := rfl
@[simp] theorem State.shed_setReg (r : Reg) (v : Word) : (s.setReg r v).shed = s.shed := rfl
@[simp] theorem State.deferred_setReg (r : Reg) (v : Word) : (s.setReg r v).deferred = s.deferred := rfl
@[simp] theorem State.cores_setReg (r : Reg) (v : Word) : (s.setReg r v).cores = s.cores := rfl
@[simp] theorem State.started_setReg (r : Reg) (v : Word) : (s.setReg r v).started = s.started := rfl
@[simp] theorem State.ended_setReg (r : Reg) (v : Word) : (s.setReg r v).ended = s.ended := rfl
@[simp] theorem State.pushed_setReg (r : Reg) (v : Word) : (s.setReg r v).pushed = s.pushed := rfl
@[simp] theorem State.trigQ_setReg (r : Reg) (v : Word) : (s.setReg r v).trigQ = s.trigQ := rfl
@[simp] theorem State.msixMask_setReg (r : Reg) (v : Word) : (s.setReg r v).msixMask = s.msixMask := rfl
@[simp] theorem State.msixPend_setReg (r : Reg) (v : Word) : (s.setReg r v).msixPend = s.msixPend := rfl
@[simp] theorem State.porTrig_setReg (r : Reg) (v : Word) : (s.setReg r v).porTrig = s.porTrig := rfl
@[simp] theorem State.alertDirect_setReg (r : Reg) (v : Word) : (s.setReg r v).alertDirect = s.alertDirect := rfl
@[simp] theorem State.pending_setReg (r : Reg) (v : Word) : (s.setReg r v).pending = s.pending := rfl

/-! ## State.setRegN -/

@[simp] theorem State.part_setRegN (r : Reg) (n : Nat) : (s.setRegN r n).part = s.part := rfl
@[simp] theorem State.serial_setRegN (r : Reg) (n : Nat) : (s.setRegN r n).serial = s.serial := rfl
@[simp] theorem State.now_setRegN (r : Reg) (n : Nat) : (s.setRegN r n).now = s.now := rfl
@[simp] theorem State.up_setRegN (r : Reg) (n : Nat) : (s.setRegN r n).up = s.up := rfl
@[simp] theorem State.mem_setRegN (r : Reg) (n : Nat) : (s.setRegN r n).mem = s.mem := rfl
@[simp] theorem State.sent_setRegN (r : Reg) (n : Nat) : (s.setRegN r n).sent = s.sent := rfl
@[simp] theorem State.free_setRegN (r : Reg) (n : Nat) : (s.setRegN r n).free = s.free := rfl
@[simp] theorem State.bell_setRegN (r : Reg) (n : Nat) : (s.setRegN r n).bell = s.bell := rfl
@[simp] theorem State.latch_setRegN (r : Reg) (n : Nat) : (s.setRegN r n).latch = s.latch := rfl
@[simp] theorem State.frameFlags_setRegN (r : Reg) (n : Nat) : (s.setRegN r n).frameFlags = s.frameFlags := rfl
@[simp] theorem State.skips_setRegN (r : Reg) (n : Nat) : (s.setRegN r n).skips = s.skips := rfl
@[simp] theorem State.evts_setRegN (r : Reg) (n : Nat) : (s.setRegN r n).evts = s.evts := rfl
@[simp] theorem State.evtLoss_setRegN (r : Reg) (n : Nat) : (s.setRegN r n).evtLoss = s.evtLoss := rfl
@[simp] theorem State.ing_setRegN (r : Reg) (n : Nat) : (s.setRegN r n).ing = s.ing := rfl
@[simp] theorem State.front_setRegN (r : Reg) (n : Nat) : (s.setRegN r n).front = s.front := rfl
@[simp] theorem State.chan_setRegN (r : Reg) (n : Nat) : (s.setRegN r n).chan = s.chan := rfl
@[simp] theorem State.schedule_setRegN (r : Reg) (n : Nat) : (s.setRegN r n).schedule = s.schedule := rfl
@[simp] theorem State.pit_setRegN (r : Reg) (n : Nat) : (s.setRegN r n).pit = s.pit := rfl
@[simp] theorem State.can_setRegN (r : Reg) (n : Nat) : (s.setRegN r n).can = s.can := rfl
@[simp] theorem State.ring_setRegN (r : Reg) (n : Nat) : (s.setRegN r n).ring = s.ring := rfl
@[simp] theorem State.dram_setRegN (r : Reg) (n : Nat) : (s.setRegN r n).dram = s.dram := rfl
@[simp] theorem State.outs_setRegN (r : Reg) (n : Nat) : (s.setRegN r n).outs = s.outs := rfl
@[simp] theorem State.corr_setRegN (r : Reg) (n : Nat) : (s.setRegN r n).corr = s.corr := rfl
@[simp] theorem State.aisle_setRegN (r : Reg) (n : Nat) : (s.setRegN r n).aisle = s.aisle := rfl
@[simp] theorem State.crown_setRegN (r : Reg) (n : Nat) : (s.setRegN r n).crown = s.crown := rfl
@[simp] theorem State.cal_setRegN (r : Reg) (n : Nat) : (s.setRegN r n).cal = s.cal := rfl
@[simp] theorem State.clk_setRegN (r : Reg) (n : Nat) : (s.setRegN r n).clk = s.clk := rfl
@[simp] theorem State.mel_setRegN (r : Reg) (n : Nat) : (s.setRegN r n).mel = s.mel := rfl
@[simp] theorem State.ptp_setRegN (r : Reg) (n : Nat) : (s.setRegN r n).ptp = s.ptp := rfl
@[simp] theorem State.pwr_setRegN (r : Reg) (n : Nat) : (s.setRegN r n).pwr = s.pwr := rfl
@[simp] theorem State.led_setRegN (r : Reg) (n : Nat) : (s.setRegN r n).led = s.led := rfl
@[simp] theorem State.thm_setRegN (r : Reg) (n : Nat) : (s.setRegN r n).thm = s.thm := rfl
@[simp] theorem State.otp_setRegN (r : Reg) (n : Nat) : (s.setRegN r n).otp = s.otp := rfl
@[simp] theorem State.sec_setRegN (r : Reg) (n : Nat) : (s.setRegN r n).sec = s.sec := rfl
@[simp] theorem State.cfg_setRegN (r : Reg) (n : Nat) : (s.setRegN r n).cfg = s.cfg := rfl
@[simp] theorem State.mtx_setRegN (r : Reg) (n : Nat) : (s.setRegN r n).mtx = s.mtx := rfl
@[simp] theorem State.flash_setRegN (r : Reg) (n : Nat) : (s.setRegN r n).flash = s.flash := rfl
@[simp] theorem State.por_setRegN (r : Reg) (n : Nat) : (s.setRegN r n).por = s.por := rfl
@[simp] theorem State.pmc_setRegN (r : Reg) (n : Nat) : (s.setRegN r n).pmc = s.pmc := rfl
@[simp] theorem State.shed_setRegN (r : Reg) (n : Nat) : (s.setRegN r n).shed = s.shed := rfl
@[simp] theorem State.deferred_setRegN (r : Reg) (n : Nat) : (s.setRegN r n).deferred = s.deferred := rfl
@[simp] theorem State.cores_setRegN (r : Reg) (n : Nat) : (s.setRegN r n).cores = s.cores := rfl
@[simp] theorem State.started_setRegN (r : Reg) (n : Nat) : (s.setRegN r n).started = s.started := rfl
@[simp] theorem State.ended_setRegN (r : Reg) (n : Nat) : (s.setRegN r n).ended = s.ended := rfl
@[simp] theorem State.pushed_setRegN (r : Reg) (n : Nat) : (s.setRegN r n).pushed = s.pushed := rfl
@[simp] theorem State.trigQ_setRegN (r : Reg) (n : Nat) : (s.setRegN r n).trigQ = s.trigQ := rfl
@[simp] theorem State.msixMask_setRegN (r : Reg) (n : Nat) : (s.setRegN r n).msixMask = s.msixMask := rfl
@[simp] theorem State.msixPend_setRegN (r : Reg) (n : Nat) : (s.setRegN r n).msixPend = s.msixPend := rfl
@[simp] theorem State.porTrig_setRegN (r : Reg) (n : Nat) : (s.setRegN r n).porTrig = s.porTrig := rfl
@[simp] theorem State.alertDirect_setRegN (r : Reg) (n : Nat) : (s.setRegN r n).alertDirect = s.alertDirect := rfl
@[simp] theorem State.pending_setRegN (r : Reg) (n : Nat) : (s.setRegN r n).pending = s.pending := rfl

/-! ## State.setFld -/

@[simp] theorem State.part_setFld (f : Fld) (n : Nat) : (s.setFld f n).part = s.part := rfl
@[simp] theorem State.serial_setFld (f : Fld) (n : Nat) : (s.setFld f n).serial = s.serial := rfl
@[simp] theorem State.now_setFld (f : Fld) (n : Nat) : (s.setFld f n).now = s.now := rfl
@[simp] theorem State.up_setFld (f : Fld) (n : Nat) : (s.setFld f n).up = s.up := rfl
@[simp] theorem State.mem_setFld (f : Fld) (n : Nat) : (s.setFld f n).mem = s.mem := rfl
@[simp] theorem State.sent_setFld (f : Fld) (n : Nat) : (s.setFld f n).sent = s.sent := rfl
@[simp] theorem State.free_setFld (f : Fld) (n : Nat) : (s.setFld f n).free = s.free := rfl
@[simp] theorem State.bell_setFld (f : Fld) (n : Nat) : (s.setFld f n).bell = s.bell := rfl
@[simp] theorem State.latch_setFld (f : Fld) (n : Nat) : (s.setFld f n).latch = s.latch := rfl
@[simp] theorem State.frameFlags_setFld (f : Fld) (n : Nat) : (s.setFld f n).frameFlags = s.frameFlags := rfl
@[simp] theorem State.skips_setFld (f : Fld) (n : Nat) : (s.setFld f n).skips = s.skips := rfl
@[simp] theorem State.evts_setFld (f : Fld) (n : Nat) : (s.setFld f n).evts = s.evts := rfl
@[simp] theorem State.evtLoss_setFld (f : Fld) (n : Nat) : (s.setFld f n).evtLoss = s.evtLoss := rfl
@[simp] theorem State.ing_setFld (f : Fld) (n : Nat) : (s.setFld f n).ing = s.ing := rfl
@[simp] theorem State.front_setFld (f : Fld) (n : Nat) : (s.setFld f n).front = s.front := rfl
@[simp] theorem State.chan_setFld (f : Fld) (n : Nat) : (s.setFld f n).chan = s.chan := rfl
@[simp] theorem State.schedule_setFld (f : Fld) (n : Nat) : (s.setFld f n).schedule = s.schedule := rfl
@[simp] theorem State.pit_setFld (f : Fld) (n : Nat) : (s.setFld f n).pit = s.pit := rfl
@[simp] theorem State.can_setFld (f : Fld) (n : Nat) : (s.setFld f n).can = s.can := rfl
@[simp] theorem State.ring_setFld (f : Fld) (n : Nat) : (s.setFld f n).ring = s.ring := rfl
@[simp] theorem State.dram_setFld (f : Fld) (n : Nat) : (s.setFld f n).dram = s.dram := rfl
@[simp] theorem State.outs_setFld (f : Fld) (n : Nat) : (s.setFld f n).outs = s.outs := rfl
@[simp] theorem State.corr_setFld (f : Fld) (n : Nat) : (s.setFld f n).corr = s.corr := rfl
@[simp] theorem State.aisle_setFld (f : Fld) (n : Nat) : (s.setFld f n).aisle = s.aisle := rfl
@[simp] theorem State.crown_setFld (f : Fld) (n : Nat) : (s.setFld f n).crown = s.crown := rfl
@[simp] theorem State.cal_setFld (f : Fld) (n : Nat) : (s.setFld f n).cal = s.cal := rfl
@[simp] theorem State.clk_setFld (f : Fld) (n : Nat) : (s.setFld f n).clk = s.clk := rfl
@[simp] theorem State.mel_setFld (f : Fld) (n : Nat) : (s.setFld f n).mel = s.mel := rfl
@[simp] theorem State.ptp_setFld (f : Fld) (n : Nat) : (s.setFld f n).ptp = s.ptp := rfl
@[simp] theorem State.pwr_setFld (f : Fld) (n : Nat) : (s.setFld f n).pwr = s.pwr := rfl
@[simp] theorem State.led_setFld (f : Fld) (n : Nat) : (s.setFld f n).led = s.led := rfl
@[simp] theorem State.thm_setFld (f : Fld) (n : Nat) : (s.setFld f n).thm = s.thm := rfl
@[simp] theorem State.otp_setFld (f : Fld) (n : Nat) : (s.setFld f n).otp = s.otp := rfl
@[simp] theorem State.sec_setFld (f : Fld) (n : Nat) : (s.setFld f n).sec = s.sec := rfl
@[simp] theorem State.cfg_setFld (f : Fld) (n : Nat) : (s.setFld f n).cfg = s.cfg := rfl
@[simp] theorem State.mtx_setFld (f : Fld) (n : Nat) : (s.setFld f n).mtx = s.mtx := rfl
@[simp] theorem State.flash_setFld (f : Fld) (n : Nat) : (s.setFld f n).flash = s.flash := rfl
@[simp] theorem State.por_setFld (f : Fld) (n : Nat) : (s.setFld f n).por = s.por := rfl
@[simp] theorem State.pmc_setFld (f : Fld) (n : Nat) : (s.setFld f n).pmc = s.pmc := rfl
@[simp] theorem State.shed_setFld (f : Fld) (n : Nat) : (s.setFld f n).shed = s.shed := rfl
@[simp] theorem State.deferred_setFld (f : Fld) (n : Nat) : (s.setFld f n).deferred = s.deferred := rfl
@[simp] theorem State.cores_setFld (f : Fld) (n : Nat) : (s.setFld f n).cores = s.cores := rfl
@[simp] theorem State.started_setFld (f : Fld) (n : Nat) : (s.setFld f n).started = s.started := rfl
@[simp] theorem State.ended_setFld (f : Fld) (n : Nat) : (s.setFld f n).ended = s.ended := rfl
@[simp] theorem State.pushed_setFld (f : Fld) (n : Nat) : (s.setFld f n).pushed = s.pushed := rfl
@[simp] theorem State.trigQ_setFld (f : Fld) (n : Nat) : (s.setFld f n).trigQ = s.trigQ := rfl
@[simp] theorem State.msixMask_setFld (f : Fld) (n : Nat) : (s.setFld f n).msixMask = s.msixMask := rfl
@[simp] theorem State.msixPend_setFld (f : Fld) (n : Nat) : (s.setFld f n).msixPend = s.msixPend := rfl
@[simp] theorem State.porTrig_setFld (f : Fld) (n : Nat) : (s.setFld f n).porTrig = s.porTrig := rfl
@[simp] theorem State.alertDirect_setFld (f : Fld) (n : Nat) : (s.setFld f n).alertDirect = s.alertDirect := rfl
@[simp] theorem State.pending_setFld (f : Fld) (n : Nat) : (s.setFld f n).pending = s.pending := rfl

/-! ## State.setFlag -/

@[simp] theorem State.part_setFlag (f : Fld) (b : Bool) : (s.setFlag f b).part = s.part := rfl
@[simp] theorem State.serial_setFlag (f : Fld) (b : Bool) : (s.setFlag f b).serial = s.serial := rfl
@[simp] theorem State.now_setFlag (f : Fld) (b : Bool) : (s.setFlag f b).now = s.now := rfl
@[simp] theorem State.up_setFlag (f : Fld) (b : Bool) : (s.setFlag f b).up = s.up := rfl
@[simp] theorem State.mem_setFlag (f : Fld) (b : Bool) : (s.setFlag f b).mem = s.mem := rfl
@[simp] theorem State.sent_setFlag (f : Fld) (b : Bool) : (s.setFlag f b).sent = s.sent := rfl
@[simp] theorem State.free_setFlag (f : Fld) (b : Bool) : (s.setFlag f b).free = s.free := rfl
@[simp] theorem State.bell_setFlag (f : Fld) (b : Bool) : (s.setFlag f b).bell = s.bell := rfl
@[simp] theorem State.latch_setFlag (f : Fld) (b : Bool) : (s.setFlag f b).latch = s.latch := rfl
@[simp] theorem State.frameFlags_setFlag (f : Fld) (b : Bool) : (s.setFlag f b).frameFlags = s.frameFlags := rfl
@[simp] theorem State.skips_setFlag (f : Fld) (b : Bool) : (s.setFlag f b).skips = s.skips := rfl
@[simp] theorem State.evts_setFlag (f : Fld) (b : Bool) : (s.setFlag f b).evts = s.evts := rfl
@[simp] theorem State.evtLoss_setFlag (f : Fld) (b : Bool) : (s.setFlag f b).evtLoss = s.evtLoss := rfl
@[simp] theorem State.ing_setFlag (f : Fld) (b : Bool) : (s.setFlag f b).ing = s.ing := rfl
@[simp] theorem State.front_setFlag (f : Fld) (b : Bool) : (s.setFlag f b).front = s.front := rfl
@[simp] theorem State.chan_setFlag (f : Fld) (b : Bool) : (s.setFlag f b).chan = s.chan := rfl
@[simp] theorem State.schedule_setFlag (f : Fld) (b : Bool) : (s.setFlag f b).schedule = s.schedule := rfl
@[simp] theorem State.pit_setFlag (f : Fld) (b : Bool) : (s.setFlag f b).pit = s.pit := rfl
@[simp] theorem State.can_setFlag (f : Fld) (b : Bool) : (s.setFlag f b).can = s.can := rfl
@[simp] theorem State.ring_setFlag (f : Fld) (b : Bool) : (s.setFlag f b).ring = s.ring := rfl
@[simp] theorem State.dram_setFlag (f : Fld) (b : Bool) : (s.setFlag f b).dram = s.dram := rfl
@[simp] theorem State.outs_setFlag (f : Fld) (b : Bool) : (s.setFlag f b).outs = s.outs := rfl
@[simp] theorem State.corr_setFlag (f : Fld) (b : Bool) : (s.setFlag f b).corr = s.corr := rfl
@[simp] theorem State.aisle_setFlag (f : Fld) (b : Bool) : (s.setFlag f b).aisle = s.aisle := rfl
@[simp] theorem State.crown_setFlag (f : Fld) (b : Bool) : (s.setFlag f b).crown = s.crown := rfl
@[simp] theorem State.cal_setFlag (f : Fld) (b : Bool) : (s.setFlag f b).cal = s.cal := rfl
@[simp] theorem State.clk_setFlag (f : Fld) (b : Bool) : (s.setFlag f b).clk = s.clk := rfl
@[simp] theorem State.mel_setFlag (f : Fld) (b : Bool) : (s.setFlag f b).mel = s.mel := rfl
@[simp] theorem State.ptp_setFlag (f : Fld) (b : Bool) : (s.setFlag f b).ptp = s.ptp := rfl
@[simp] theorem State.pwr_setFlag (f : Fld) (b : Bool) : (s.setFlag f b).pwr = s.pwr := rfl
@[simp] theorem State.led_setFlag (f : Fld) (b : Bool) : (s.setFlag f b).led = s.led := rfl
@[simp] theorem State.thm_setFlag (f : Fld) (b : Bool) : (s.setFlag f b).thm = s.thm := rfl
@[simp] theorem State.otp_setFlag (f : Fld) (b : Bool) : (s.setFlag f b).otp = s.otp := rfl
@[simp] theorem State.sec_setFlag (f : Fld) (b : Bool) : (s.setFlag f b).sec = s.sec := rfl
@[simp] theorem State.cfg_setFlag (f : Fld) (b : Bool) : (s.setFlag f b).cfg = s.cfg := rfl
@[simp] theorem State.mtx_setFlag (f : Fld) (b : Bool) : (s.setFlag f b).mtx = s.mtx := rfl
@[simp] theorem State.flash_setFlag (f : Fld) (b : Bool) : (s.setFlag f b).flash = s.flash := rfl
@[simp] theorem State.por_setFlag (f : Fld) (b : Bool) : (s.setFlag f b).por = s.por := rfl
@[simp] theorem State.pmc_setFlag (f : Fld) (b : Bool) : (s.setFlag f b).pmc = s.pmc := rfl
@[simp] theorem State.shed_setFlag (f : Fld) (b : Bool) : (s.setFlag f b).shed = s.shed := rfl
@[simp] theorem State.deferred_setFlag (f : Fld) (b : Bool) : (s.setFlag f b).deferred = s.deferred := rfl
@[simp] theorem State.cores_setFlag (f : Fld) (b : Bool) : (s.setFlag f b).cores = s.cores := rfl
@[simp] theorem State.started_setFlag (f : Fld) (b : Bool) : (s.setFlag f b).started = s.started := rfl
@[simp] theorem State.ended_setFlag (f : Fld) (b : Bool) : (s.setFlag f b).ended = s.ended := rfl
@[simp] theorem State.pushed_setFlag (f : Fld) (b : Bool) : (s.setFlag f b).pushed = s.pushed := rfl
@[simp] theorem State.trigQ_setFlag (f : Fld) (b : Bool) : (s.setFlag f b).trigQ = s.trigQ := rfl
@[simp] theorem State.msixMask_setFlag (f : Fld) (b : Bool) : (s.setFlag f b).msixMask = s.msixMask := rfl
@[simp] theorem State.msixPend_setFlag (f : Fld) (b : Bool) : (s.setFlag f b).msixPend = s.msixPend := rfl
@[simp] theorem State.porTrig_setFlag (f : Fld) (b : Bool) : (s.setFlag f b).porTrig = s.porTrig := rfl
@[simp] theorem State.alertDirect_setFlag (f : Fld) (b : Bool) : (s.setFlag f b).alertDirect = s.alertDirect := rfl
@[simp] theorem State.pending_setFlag (f : Fld) (b : Bool) : (s.setFlag f b).pending = s.pending := rfl

/-! ## State.setPair -/

@[simp] theorem State.part_setPair (lo hi : Reg) (n : Nat) : (s.setPair lo hi n).part = s.part := rfl
@[simp] theorem State.serial_setPair (lo hi : Reg) (n : Nat) : (s.setPair lo hi n).serial = s.serial := rfl
@[simp] theorem State.now_setPair (lo hi : Reg) (n : Nat) : (s.setPair lo hi n).now = s.now := rfl
@[simp] theorem State.up_setPair (lo hi : Reg) (n : Nat) : (s.setPair lo hi n).up = s.up := rfl
@[simp] theorem State.mem_setPair (lo hi : Reg) (n : Nat) : (s.setPair lo hi n).mem = s.mem := rfl
@[simp] theorem State.sent_setPair (lo hi : Reg) (n : Nat) : (s.setPair lo hi n).sent = s.sent := rfl
@[simp] theorem State.free_setPair (lo hi : Reg) (n : Nat) : (s.setPair lo hi n).free = s.free := rfl
@[simp] theorem State.bell_setPair (lo hi : Reg) (n : Nat) : (s.setPair lo hi n).bell = s.bell := rfl
@[simp] theorem State.latch_setPair (lo hi : Reg) (n : Nat) : (s.setPair lo hi n).latch = s.latch := rfl
@[simp] theorem State.frameFlags_setPair (lo hi : Reg) (n : Nat) : (s.setPair lo hi n).frameFlags = s.frameFlags := rfl
@[simp] theorem State.skips_setPair (lo hi : Reg) (n : Nat) : (s.setPair lo hi n).skips = s.skips := rfl
@[simp] theorem State.evts_setPair (lo hi : Reg) (n : Nat) : (s.setPair lo hi n).evts = s.evts := rfl
@[simp] theorem State.evtLoss_setPair (lo hi : Reg) (n : Nat) : (s.setPair lo hi n).evtLoss = s.evtLoss := rfl
@[simp] theorem State.ing_setPair (lo hi : Reg) (n : Nat) : (s.setPair lo hi n).ing = s.ing := rfl
@[simp] theorem State.front_setPair (lo hi : Reg) (n : Nat) : (s.setPair lo hi n).front = s.front := rfl
@[simp] theorem State.chan_setPair (lo hi : Reg) (n : Nat) : (s.setPair lo hi n).chan = s.chan := rfl
@[simp] theorem State.schedule_setPair (lo hi : Reg) (n : Nat) : (s.setPair lo hi n).schedule = s.schedule := rfl
@[simp] theorem State.pit_setPair (lo hi : Reg) (n : Nat) : (s.setPair lo hi n).pit = s.pit := rfl
@[simp] theorem State.can_setPair (lo hi : Reg) (n : Nat) : (s.setPair lo hi n).can = s.can := rfl
@[simp] theorem State.ring_setPair (lo hi : Reg) (n : Nat) : (s.setPair lo hi n).ring = s.ring := rfl
@[simp] theorem State.dram_setPair (lo hi : Reg) (n : Nat) : (s.setPair lo hi n).dram = s.dram := rfl
@[simp] theorem State.outs_setPair (lo hi : Reg) (n : Nat) : (s.setPair lo hi n).outs = s.outs := rfl
@[simp] theorem State.corr_setPair (lo hi : Reg) (n : Nat) : (s.setPair lo hi n).corr = s.corr := rfl
@[simp] theorem State.aisle_setPair (lo hi : Reg) (n : Nat) : (s.setPair lo hi n).aisle = s.aisle := rfl
@[simp] theorem State.crown_setPair (lo hi : Reg) (n : Nat) : (s.setPair lo hi n).crown = s.crown := rfl
@[simp] theorem State.cal_setPair (lo hi : Reg) (n : Nat) : (s.setPair lo hi n).cal = s.cal := rfl
@[simp] theorem State.clk_setPair (lo hi : Reg) (n : Nat) : (s.setPair lo hi n).clk = s.clk := rfl
@[simp] theorem State.mel_setPair (lo hi : Reg) (n : Nat) : (s.setPair lo hi n).mel = s.mel := rfl
@[simp] theorem State.ptp_setPair (lo hi : Reg) (n : Nat) : (s.setPair lo hi n).ptp = s.ptp := rfl
@[simp] theorem State.pwr_setPair (lo hi : Reg) (n : Nat) : (s.setPair lo hi n).pwr = s.pwr := rfl
@[simp] theorem State.led_setPair (lo hi : Reg) (n : Nat) : (s.setPair lo hi n).led = s.led := rfl
@[simp] theorem State.thm_setPair (lo hi : Reg) (n : Nat) : (s.setPair lo hi n).thm = s.thm := rfl
@[simp] theorem State.otp_setPair (lo hi : Reg) (n : Nat) : (s.setPair lo hi n).otp = s.otp := rfl
@[simp] theorem State.sec_setPair (lo hi : Reg) (n : Nat) : (s.setPair lo hi n).sec = s.sec := rfl
@[simp] theorem State.cfg_setPair (lo hi : Reg) (n : Nat) : (s.setPair lo hi n).cfg = s.cfg := rfl
@[simp] theorem State.mtx_setPair (lo hi : Reg) (n : Nat) : (s.setPair lo hi n).mtx = s.mtx := rfl
@[simp] theorem State.flash_setPair (lo hi : Reg) (n : Nat) : (s.setPair lo hi n).flash = s.flash := rfl
@[simp] theorem State.por_setPair (lo hi : Reg) (n : Nat) : (s.setPair lo hi n).por = s.por := rfl
@[simp] theorem State.pmc_setPair (lo hi : Reg) (n : Nat) : (s.setPair lo hi n).pmc = s.pmc := rfl
@[simp] theorem State.shed_setPair (lo hi : Reg) (n : Nat) : (s.setPair lo hi n).shed = s.shed := rfl
@[simp] theorem State.deferred_setPair (lo hi : Reg) (n : Nat) : (s.setPair lo hi n).deferred = s.deferred := rfl
@[simp] theorem State.cores_setPair (lo hi : Reg) (n : Nat) : (s.setPair lo hi n).cores = s.cores := rfl
@[simp] theorem State.started_setPair (lo hi : Reg) (n : Nat) : (s.setPair lo hi n).started = s.started := rfl
@[simp] theorem State.ended_setPair (lo hi : Reg) (n : Nat) : (s.setPair lo hi n).ended = s.ended := rfl
@[simp] theorem State.pushed_setPair (lo hi : Reg) (n : Nat) : (s.setPair lo hi n).pushed = s.pushed := rfl
@[simp] theorem State.trigQ_setPair (lo hi : Reg) (n : Nat) : (s.setPair lo hi n).trigQ = s.trigQ := rfl
@[simp] theorem State.msixMask_setPair (lo hi : Reg) (n : Nat) : (s.setPair lo hi n).msixMask = s.msixMask := rfl
@[simp] theorem State.msixPend_setPair (lo hi : Reg) (n : Nat) : (s.setPair lo hi n).msixPend = s.msixPend := rfl
@[simp] theorem State.porTrig_setPair (lo hi : Reg) (n : Nat) : (s.setPair lo hi n).porTrig = s.porTrig := rfl
@[simp] theorem State.alertDirect_setPair (lo hi : Reg) (n : Nat) : (s.setPair lo hi n).alertDirect = s.alertDirect := rfl
@[simp] theorem State.pending_setPair (lo hi : Reg) (n : Nat) : (s.setPair lo hi n).pending = s.pending := rfl

/-! ## State.bump -/

@[simp] theorem State.part_bump (r : Reg) (k : Nat) : (s.bump r k).part = s.part := rfl
@[simp] theorem State.serial_bump (r : Reg) (k : Nat) : (s.bump r k).serial = s.serial := rfl
@[simp] theorem State.now_bump (r : Reg) (k : Nat) : (s.bump r k).now = s.now := rfl
@[simp] theorem State.up_bump (r : Reg) (k : Nat) : (s.bump r k).up = s.up := rfl
@[simp] theorem State.mem_bump (r : Reg) (k : Nat) : (s.bump r k).mem = s.mem := rfl
@[simp] theorem State.sent_bump (r : Reg) (k : Nat) : (s.bump r k).sent = s.sent := rfl
@[simp] theorem State.free_bump (r : Reg) (k : Nat) : (s.bump r k).free = s.free := rfl
@[simp] theorem State.bell_bump (r : Reg) (k : Nat) : (s.bump r k).bell = s.bell := rfl
@[simp] theorem State.latch_bump (r : Reg) (k : Nat) : (s.bump r k).latch = s.latch := rfl
@[simp] theorem State.frameFlags_bump (r : Reg) (k : Nat) : (s.bump r k).frameFlags = s.frameFlags := rfl
@[simp] theorem State.skips_bump (r : Reg) (k : Nat) : (s.bump r k).skips = s.skips := rfl
@[simp] theorem State.evts_bump (r : Reg) (k : Nat) : (s.bump r k).evts = s.evts := rfl
@[simp] theorem State.evtLoss_bump (r : Reg) (k : Nat) : (s.bump r k).evtLoss = s.evtLoss := rfl
@[simp] theorem State.ing_bump (r : Reg) (k : Nat) : (s.bump r k).ing = s.ing := rfl
@[simp] theorem State.front_bump (r : Reg) (k : Nat) : (s.bump r k).front = s.front := rfl
@[simp] theorem State.chan_bump (r : Reg) (k : Nat) : (s.bump r k).chan = s.chan := rfl
@[simp] theorem State.schedule_bump (r : Reg) (k : Nat) : (s.bump r k).schedule = s.schedule := rfl
@[simp] theorem State.pit_bump (r : Reg) (k : Nat) : (s.bump r k).pit = s.pit := rfl
@[simp] theorem State.can_bump (r : Reg) (k : Nat) : (s.bump r k).can = s.can := rfl
@[simp] theorem State.ring_bump (r : Reg) (k : Nat) : (s.bump r k).ring = s.ring := rfl
@[simp] theorem State.dram_bump (r : Reg) (k : Nat) : (s.bump r k).dram = s.dram := rfl
@[simp] theorem State.outs_bump (r : Reg) (k : Nat) : (s.bump r k).outs = s.outs := rfl
@[simp] theorem State.corr_bump (r : Reg) (k : Nat) : (s.bump r k).corr = s.corr := rfl
@[simp] theorem State.aisle_bump (r : Reg) (k : Nat) : (s.bump r k).aisle = s.aisle := rfl
@[simp] theorem State.crown_bump (r : Reg) (k : Nat) : (s.bump r k).crown = s.crown := rfl
@[simp] theorem State.cal_bump (r : Reg) (k : Nat) : (s.bump r k).cal = s.cal := rfl
@[simp] theorem State.clk_bump (r : Reg) (k : Nat) : (s.bump r k).clk = s.clk := rfl
@[simp] theorem State.mel_bump (r : Reg) (k : Nat) : (s.bump r k).mel = s.mel := rfl
@[simp] theorem State.ptp_bump (r : Reg) (k : Nat) : (s.bump r k).ptp = s.ptp := rfl
@[simp] theorem State.pwr_bump (r : Reg) (k : Nat) : (s.bump r k).pwr = s.pwr := rfl
@[simp] theorem State.led_bump (r : Reg) (k : Nat) : (s.bump r k).led = s.led := rfl
@[simp] theorem State.thm_bump (r : Reg) (k : Nat) : (s.bump r k).thm = s.thm := rfl
@[simp] theorem State.otp_bump (r : Reg) (k : Nat) : (s.bump r k).otp = s.otp := rfl
@[simp] theorem State.sec_bump (r : Reg) (k : Nat) : (s.bump r k).sec = s.sec := rfl
@[simp] theorem State.cfg_bump (r : Reg) (k : Nat) : (s.bump r k).cfg = s.cfg := rfl
@[simp] theorem State.mtx_bump (r : Reg) (k : Nat) : (s.bump r k).mtx = s.mtx := rfl
@[simp] theorem State.flash_bump (r : Reg) (k : Nat) : (s.bump r k).flash = s.flash := rfl
@[simp] theorem State.por_bump (r : Reg) (k : Nat) : (s.bump r k).por = s.por := rfl
@[simp] theorem State.pmc_bump (r : Reg) (k : Nat) : (s.bump r k).pmc = s.pmc := rfl
@[simp] theorem State.shed_bump (r : Reg) (k : Nat) : (s.bump r k).shed = s.shed := rfl
@[simp] theorem State.deferred_bump (r : Reg) (k : Nat) : (s.bump r k).deferred = s.deferred := rfl
@[simp] theorem State.cores_bump (r : Reg) (k : Nat) : (s.bump r k).cores = s.cores := rfl
@[simp] theorem State.started_bump (r : Reg) (k : Nat) : (s.bump r k).started = s.started := rfl
@[simp] theorem State.ended_bump (r : Reg) (k : Nat) : (s.bump r k).ended = s.ended := rfl
@[simp] theorem State.pushed_bump (r : Reg) (k : Nat) : (s.bump r k).pushed = s.pushed := rfl
@[simp] theorem State.trigQ_bump (r : Reg) (k : Nat) : (s.bump r k).trigQ = s.trigQ := rfl
@[simp] theorem State.msixMask_bump (r : Reg) (k : Nat) : (s.bump r k).msixMask = s.msixMask := rfl
@[simp] theorem State.msixPend_bump (r : Reg) (k : Nat) : (s.bump r k).msixPend = s.msixPend := rfl
@[simp] theorem State.porTrig_bump (r : Reg) (k : Nat) : (s.bump r k).porTrig = s.porTrig := rfl
@[simp] theorem State.alertDirect_bump (r : Reg) (k : Nat) : (s.bump r k).alertDirect = s.alertDirect := rfl
@[simp] theorem State.pending_bump (r : Reg) (k : Nat) : (s.bump r k).pending = s.pending := rfl

/-! ## State.raise -/

@[simp] theorem State.part_raise (f : Fld) : (s.raise f).part = s.part := rfl
@[simp] theorem State.serial_raise (f : Fld) : (s.raise f).serial = s.serial := rfl
@[simp] theorem State.now_raise (f : Fld) : (s.raise f).now = s.now := rfl
@[simp] theorem State.up_raise (f : Fld) : (s.raise f).up = s.up := rfl
@[simp] theorem State.mem_raise (f : Fld) : (s.raise f).mem = s.mem := rfl
@[simp] theorem State.free_raise (f : Fld) : (s.raise f).free = s.free := rfl
@[simp] theorem State.bell_raise (f : Fld) : (s.raise f).bell = s.bell := rfl
@[simp] theorem State.latch_raise (f : Fld) : (s.raise f).latch = s.latch := rfl
@[simp] theorem State.frameFlags_raise (f : Fld) : (s.raise f).frameFlags = s.frameFlags := rfl
@[simp] theorem State.skips_raise (f : Fld) : (s.raise f).skips = s.skips := rfl
@[simp] theorem State.evts_raise (f : Fld) : (s.raise f).evts = s.evts := rfl
@[simp] theorem State.evtLoss_raise (f : Fld) : (s.raise f).evtLoss = s.evtLoss := rfl
@[simp] theorem State.ing_raise (f : Fld) : (s.raise f).ing = s.ing := rfl
@[simp] theorem State.front_raise (f : Fld) : (s.raise f).front = s.front := rfl
@[simp] theorem State.chan_raise (f : Fld) : (s.raise f).chan = s.chan := rfl
@[simp] theorem State.schedule_raise (f : Fld) : (s.raise f).schedule = s.schedule := rfl
@[simp] theorem State.pit_raise (f : Fld) : (s.raise f).pit = s.pit := rfl
@[simp] theorem State.can_raise (f : Fld) : (s.raise f).can = s.can := rfl
@[simp] theorem State.ring_raise (f : Fld) : (s.raise f).ring = s.ring := rfl
@[simp] theorem State.dram_raise (f : Fld) : (s.raise f).dram = s.dram := rfl
@[simp] theorem State.outs_raise (f : Fld) : (s.raise f).outs = s.outs := rfl
@[simp] theorem State.corr_raise (f : Fld) : (s.raise f).corr = s.corr := rfl
@[simp] theorem State.aisle_raise (f : Fld) : (s.raise f).aisle = s.aisle := rfl
@[simp] theorem State.crown_raise (f : Fld) : (s.raise f).crown = s.crown := rfl
@[simp] theorem State.cal_raise (f : Fld) : (s.raise f).cal = s.cal := rfl
@[simp] theorem State.clk_raise (f : Fld) : (s.raise f).clk = s.clk := rfl
@[simp] theorem State.mel_raise (f : Fld) : (s.raise f).mel = s.mel := rfl
@[simp] theorem State.ptp_raise (f : Fld) : (s.raise f).ptp = s.ptp := rfl
@[simp] theorem State.pwr_raise (f : Fld) : (s.raise f).pwr = s.pwr := rfl
@[simp] theorem State.led_raise (f : Fld) : (s.raise f).led = s.led := rfl
@[simp] theorem State.thm_raise (f : Fld) : (s.raise f).thm = s.thm := rfl
@[simp] theorem State.otp_raise (f : Fld) : (s.raise f).otp = s.otp := rfl
@[simp] theorem State.sec_raise (f : Fld) : (s.raise f).sec = s.sec := rfl
@[simp] theorem State.cfg_raise (f : Fld) : (s.raise f).cfg = s.cfg := rfl
@[simp] theorem State.mtx_raise (f : Fld) : (s.raise f).mtx = s.mtx := rfl
@[simp] theorem State.flash_raise (f : Fld) : (s.raise f).flash = s.flash := rfl
@[simp] theorem State.por_raise (f : Fld) : (s.raise f).por = s.por := rfl
@[simp] theorem State.pmc_raise (f : Fld) : (s.raise f).pmc = s.pmc := rfl
@[simp] theorem State.shed_raise (f : Fld) : (s.raise f).shed = s.shed := rfl
@[simp] theorem State.deferred_raise (f : Fld) : (s.raise f).deferred = s.deferred := rfl
@[simp] theorem State.started_raise (f : Fld) : (s.raise f).started = s.started := rfl
@[simp] theorem State.ended_raise (f : Fld) : (s.raise f).ended = s.ended := rfl
@[simp] theorem State.pushed_raise (f : Fld) : (s.raise f).pushed = s.pushed := rfl
@[simp] theorem State.msixMask_raise (f : Fld) : (s.raise f).msixMask = s.msixMask := rfl
@[simp] theorem State.alertDirect_raise (f : Fld) : (s.raise f).alertDirect = s.alertDirect := rfl
@[simp] theorem State.pending_raise (f : Fld) : (s.raise f).pending = s.pending := rfl

/-! ## State.write -/

@[simp] theorem State.part_write (a : Nat) (l : List Byte) : (s.write a l).part = s.part := rfl
@[simp] theorem State.serial_write (a : Nat) (l : List Byte) : (s.write a l).serial = s.serial := rfl
@[simp] theorem State.now_write (a : Nat) (l : List Byte) : (s.write a l).now = s.now := rfl
@[simp] theorem State.up_write (a : Nat) (l : List Byte) : (s.write a l).up = s.up := rfl
@[simp] theorem State.regs_write (a : Nat) (l : List Byte) : (s.write a l).regs = s.regs := rfl
@[simp] theorem State.sent_write (a : Nat) (l : List Byte) : (s.write a l).sent = s.sent := rfl
@[simp] theorem State.free_write (a : Nat) (l : List Byte) : (s.write a l).free = s.free := rfl
@[simp] theorem State.bell_write (a : Nat) (l : List Byte) : (s.write a l).bell = s.bell := rfl
@[simp] theorem State.latch_write (a : Nat) (l : List Byte) : (s.write a l).latch = s.latch := rfl
@[simp] theorem State.frameFlags_write (a : Nat) (l : List Byte) : (s.write a l).frameFlags = s.frameFlags := rfl
@[simp] theorem State.skips_write (a : Nat) (l : List Byte) : (s.write a l).skips = s.skips := rfl
@[simp] theorem State.evts_write (a : Nat) (l : List Byte) : (s.write a l).evts = s.evts := rfl
@[simp] theorem State.evtLoss_write (a : Nat) (l : List Byte) : (s.write a l).evtLoss = s.evtLoss := rfl
@[simp] theorem State.ing_write (a : Nat) (l : List Byte) : (s.write a l).ing = s.ing := rfl
@[simp] theorem State.front_write (a : Nat) (l : List Byte) : (s.write a l).front = s.front := rfl
@[simp] theorem State.chan_write (a : Nat) (l : List Byte) : (s.write a l).chan = s.chan := rfl
@[simp] theorem State.schedule_write (a : Nat) (l : List Byte) : (s.write a l).schedule = s.schedule := rfl
@[simp] theorem State.pit_write (a : Nat) (l : List Byte) : (s.write a l).pit = s.pit := rfl
@[simp] theorem State.can_write (a : Nat) (l : List Byte) : (s.write a l).can = s.can := rfl
@[simp] theorem State.ring_write (a : Nat) (l : List Byte) : (s.write a l).ring = s.ring := rfl
@[simp] theorem State.dram_write (a : Nat) (l : List Byte) : (s.write a l).dram = s.dram := rfl
@[simp] theorem State.outs_write (a : Nat) (l : List Byte) : (s.write a l).outs = s.outs := rfl
@[simp] theorem State.corr_write (a : Nat) (l : List Byte) : (s.write a l).corr = s.corr := rfl
@[simp] theorem State.aisle_write (a : Nat) (l : List Byte) : (s.write a l).aisle = s.aisle := rfl
@[simp] theorem State.crown_write (a : Nat) (l : List Byte) : (s.write a l).crown = s.crown := rfl
@[simp] theorem State.cal_write (a : Nat) (l : List Byte) : (s.write a l).cal = s.cal := rfl
@[simp] theorem State.clk_write (a : Nat) (l : List Byte) : (s.write a l).clk = s.clk := rfl
@[simp] theorem State.mel_write (a : Nat) (l : List Byte) : (s.write a l).mel = s.mel := rfl
@[simp] theorem State.ptp_write (a : Nat) (l : List Byte) : (s.write a l).ptp = s.ptp := rfl
@[simp] theorem State.pwr_write (a : Nat) (l : List Byte) : (s.write a l).pwr = s.pwr := rfl
@[simp] theorem State.led_write (a : Nat) (l : List Byte) : (s.write a l).led = s.led := rfl
@[simp] theorem State.thm_write (a : Nat) (l : List Byte) : (s.write a l).thm = s.thm := rfl
@[simp] theorem State.otp_write (a : Nat) (l : List Byte) : (s.write a l).otp = s.otp := rfl
@[simp] theorem State.sec_write (a : Nat) (l : List Byte) : (s.write a l).sec = s.sec := rfl
@[simp] theorem State.cfg_write (a : Nat) (l : List Byte) : (s.write a l).cfg = s.cfg := rfl
@[simp] theorem State.mtx_write (a : Nat) (l : List Byte) : (s.write a l).mtx = s.mtx := rfl
@[simp] theorem State.flash_write (a : Nat) (l : List Byte) : (s.write a l).flash = s.flash := rfl
@[simp] theorem State.por_write (a : Nat) (l : List Byte) : (s.write a l).por = s.por := rfl
@[simp] theorem State.pmc_write (a : Nat) (l : List Byte) : (s.write a l).pmc = s.pmc := rfl
@[simp] theorem State.shed_write (a : Nat) (l : List Byte) : (s.write a l).shed = s.shed := rfl
@[simp] theorem State.deferred_write (a : Nat) (l : List Byte) : (s.write a l).deferred = s.deferred := rfl
@[simp] theorem State.cores_write (a : Nat) (l : List Byte) : (s.write a l).cores = s.cores := rfl
@[simp] theorem State.started_write (a : Nat) (l : List Byte) : (s.write a l).started = s.started := rfl
@[simp] theorem State.ended_write (a : Nat) (l : List Byte) : (s.write a l).ended = s.ended := rfl
@[simp] theorem State.pushed_write (a : Nat) (l : List Byte) : (s.write a l).pushed = s.pushed := rfl
@[simp] theorem State.trigQ_write (a : Nat) (l : List Byte) : (s.write a l).trigQ = s.trigQ := rfl
@[simp] theorem State.msixMask_write (a : Nat) (l : List Byte) : (s.write a l).msixMask = s.msixMask := rfl
@[simp] theorem State.msixPend_write (a : Nat) (l : List Byte) : (s.write a l).msixPend = s.msixPend := rfl
@[simp] theorem State.porTrig_write (a : Nat) (l : List Byte) : (s.write a l).porTrig = s.porTrig := rfl
@[simp] theorem State.alertDirect_write (a : Nat) (l : List Byte) : (s.write a l).alertDirect = s.alertDirect := rfl
@[simp] theorem State.pending_write (a : Nat) (l : List Byte) : (s.write a l).pending = s.pending := rfl

/-! ## State.clear -/

@[simp] theorem State.part_clear (a n : Nat) : (s.clear a n).part = s.part := rfl
@[simp] theorem State.serial_clear (a n : Nat) : (s.clear a n).serial = s.serial := rfl
@[simp] theorem State.now_clear (a n : Nat) : (s.clear a n).now = s.now := rfl
@[simp] theorem State.up_clear (a n : Nat) : (s.clear a n).up = s.up := rfl
@[simp] theorem State.regs_clear (a n : Nat) : (s.clear a n).regs = s.regs := rfl
@[simp] theorem State.sent_clear (a n : Nat) : (s.clear a n).sent = s.sent := rfl
@[simp] theorem State.free_clear (a n : Nat) : (s.clear a n).free = s.free := rfl
@[simp] theorem State.bell_clear (a n : Nat) : (s.clear a n).bell = s.bell := rfl
@[simp] theorem State.latch_clear (a n : Nat) : (s.clear a n).latch = s.latch := rfl
@[simp] theorem State.frameFlags_clear (a n : Nat) : (s.clear a n).frameFlags = s.frameFlags := rfl
@[simp] theorem State.skips_clear (a n : Nat) : (s.clear a n).skips = s.skips := rfl
@[simp] theorem State.evts_clear (a n : Nat) : (s.clear a n).evts = s.evts := rfl
@[simp] theorem State.evtLoss_clear (a n : Nat) : (s.clear a n).evtLoss = s.evtLoss := rfl
@[simp] theorem State.ing_clear (a n : Nat) : (s.clear a n).ing = s.ing := rfl
@[simp] theorem State.front_clear (a n : Nat) : (s.clear a n).front = s.front := rfl
@[simp] theorem State.chan_clear (a n : Nat) : (s.clear a n).chan = s.chan := rfl
@[simp] theorem State.schedule_clear (a n : Nat) : (s.clear a n).schedule = s.schedule := rfl
@[simp] theorem State.pit_clear (a n : Nat) : (s.clear a n).pit = s.pit := rfl
@[simp] theorem State.can_clear (a n : Nat) : (s.clear a n).can = s.can := rfl
@[simp] theorem State.ring_clear (a n : Nat) : (s.clear a n).ring = s.ring := rfl
@[simp] theorem State.dram_clear (a n : Nat) : (s.clear a n).dram = s.dram := rfl
@[simp] theorem State.outs_clear (a n : Nat) : (s.clear a n).outs = s.outs := rfl
@[simp] theorem State.corr_clear (a n : Nat) : (s.clear a n).corr = s.corr := rfl
@[simp] theorem State.aisle_clear (a n : Nat) : (s.clear a n).aisle = s.aisle := rfl
@[simp] theorem State.crown_clear (a n : Nat) : (s.clear a n).crown = s.crown := rfl
@[simp] theorem State.cal_clear (a n : Nat) : (s.clear a n).cal = s.cal := rfl
@[simp] theorem State.clk_clear (a n : Nat) : (s.clear a n).clk = s.clk := rfl
@[simp] theorem State.mel_clear (a n : Nat) : (s.clear a n).mel = s.mel := rfl
@[simp] theorem State.ptp_clear (a n : Nat) : (s.clear a n).ptp = s.ptp := rfl
@[simp] theorem State.pwr_clear (a n : Nat) : (s.clear a n).pwr = s.pwr := rfl
@[simp] theorem State.led_clear (a n : Nat) : (s.clear a n).led = s.led := rfl
@[simp] theorem State.thm_clear (a n : Nat) : (s.clear a n).thm = s.thm := rfl
@[simp] theorem State.otp_clear (a n : Nat) : (s.clear a n).otp = s.otp := rfl
@[simp] theorem State.sec_clear (a n : Nat) : (s.clear a n).sec = s.sec := rfl
@[simp] theorem State.cfg_clear (a n : Nat) : (s.clear a n).cfg = s.cfg := rfl
@[simp] theorem State.mtx_clear (a n : Nat) : (s.clear a n).mtx = s.mtx := rfl
@[simp] theorem State.flash_clear (a n : Nat) : (s.clear a n).flash = s.flash := rfl
@[simp] theorem State.por_clear (a n : Nat) : (s.clear a n).por = s.por := rfl
@[simp] theorem State.pmc_clear (a n : Nat) : (s.clear a n).pmc = s.pmc := rfl
@[simp] theorem State.shed_clear (a n : Nat) : (s.clear a n).shed = s.shed := rfl
@[simp] theorem State.deferred_clear (a n : Nat) : (s.clear a n).deferred = s.deferred := rfl
@[simp] theorem State.cores_clear (a n : Nat) : (s.clear a n).cores = s.cores := rfl
@[simp] theorem State.started_clear (a n : Nat) : (s.clear a n).started = s.started := rfl
@[simp] theorem State.ended_clear (a n : Nat) : (s.clear a n).ended = s.ended := rfl
@[simp] theorem State.pushed_clear (a n : Nat) : (s.clear a n).pushed = s.pushed := rfl
@[simp] theorem State.trigQ_clear (a n : Nat) : (s.clear a n).trigQ = s.trigQ := rfl
@[simp] theorem State.msixMask_clear (a n : Nat) : (s.clear a n).msixMask = s.msixMask := rfl
@[simp] theorem State.msixPend_clear (a n : Nat) : (s.clear a n).msixPend = s.msixPend := rfl
@[simp] theorem State.porTrig_clear (a n : Nat) : (s.clear a n).porTrig = s.porTrig := rfl
@[simp] theorem State.alertDirect_clear (a n : Nat) : (s.clear a n).alertDirect = s.alertDirect := rfl
@[simp] theorem State.pending_clear (a n : Nat) : (s.clear a n).pending = s.pending := rfl

/-! ## State.emit -/

@[simp] theorem State.part_emit (o : Out) : (s.emit o).part = s.part := rfl
@[simp] theorem State.serial_emit (o : Out) : (s.emit o).serial = s.serial := rfl
@[simp] theorem State.now_emit (o : Out) : (s.emit o).now = s.now := rfl
@[simp] theorem State.up_emit (o : Out) : (s.emit o).up = s.up := rfl
@[simp] theorem State.regs_emit (o : Out) : (s.emit o).regs = s.regs := rfl
@[simp] theorem State.mem_emit (o : Out) : (s.emit o).mem = s.mem := rfl
@[simp] theorem State.free_emit (o : Out) : (s.emit o).free = s.free := rfl
@[simp] theorem State.bell_emit (o : Out) : (s.emit o).bell = s.bell := rfl
@[simp] theorem State.latch_emit (o : Out) : (s.emit o).latch = s.latch := rfl
@[simp] theorem State.frameFlags_emit (o : Out) : (s.emit o).frameFlags = s.frameFlags := rfl
@[simp] theorem State.skips_emit (o : Out) : (s.emit o).skips = s.skips := rfl
@[simp] theorem State.evts_emit (o : Out) : (s.emit o).evts = s.evts := rfl
@[simp] theorem State.evtLoss_emit (o : Out) : (s.emit o).evtLoss = s.evtLoss := rfl
@[simp] theorem State.ing_emit (o : Out) : (s.emit o).ing = s.ing := rfl
@[simp] theorem State.front_emit (o : Out) : (s.emit o).front = s.front := rfl
@[simp] theorem State.chan_emit (o : Out) : (s.emit o).chan = s.chan := rfl
@[simp] theorem State.schedule_emit (o : Out) : (s.emit o).schedule = s.schedule := rfl
@[simp] theorem State.pit_emit (o : Out) : (s.emit o).pit = s.pit := rfl
@[simp] theorem State.can_emit (o : Out) : (s.emit o).can = s.can := rfl
@[simp] theorem State.ring_emit (o : Out) : (s.emit o).ring = s.ring := rfl
@[simp] theorem State.dram_emit (o : Out) : (s.emit o).dram = s.dram := rfl
@[simp] theorem State.outs_emit (o : Out) : (s.emit o).outs = s.outs := rfl
@[simp] theorem State.corr_emit (o : Out) : (s.emit o).corr = s.corr := rfl
@[simp] theorem State.aisle_emit (o : Out) : (s.emit o).aisle = s.aisle := rfl
@[simp] theorem State.crown_emit (o : Out) : (s.emit o).crown = s.crown := rfl
@[simp] theorem State.cal_emit (o : Out) : (s.emit o).cal = s.cal := rfl
@[simp] theorem State.clk_emit (o : Out) : (s.emit o).clk = s.clk := rfl
@[simp] theorem State.mel_emit (o : Out) : (s.emit o).mel = s.mel := rfl
@[simp] theorem State.ptp_emit (o : Out) : (s.emit o).ptp = s.ptp := rfl
@[simp] theorem State.pwr_emit (o : Out) : (s.emit o).pwr = s.pwr := rfl
@[simp] theorem State.led_emit (o : Out) : (s.emit o).led = s.led := rfl
@[simp] theorem State.thm_emit (o : Out) : (s.emit o).thm = s.thm := rfl
@[simp] theorem State.otp_emit (o : Out) : (s.emit o).otp = s.otp := rfl
@[simp] theorem State.sec_emit (o : Out) : (s.emit o).sec = s.sec := rfl
@[simp] theorem State.cfg_emit (o : Out) : (s.emit o).cfg = s.cfg := rfl
@[simp] theorem State.mtx_emit (o : Out) : (s.emit o).mtx = s.mtx := rfl
@[simp] theorem State.flash_emit (o : Out) : (s.emit o).flash = s.flash := rfl
@[simp] theorem State.por_emit (o : Out) : (s.emit o).por = s.por := rfl
@[simp] theorem State.pmc_emit (o : Out) : (s.emit o).pmc = s.pmc := rfl
@[simp] theorem State.shed_emit (o : Out) : (s.emit o).shed = s.shed := rfl
@[simp] theorem State.deferred_emit (o : Out) : (s.emit o).deferred = s.deferred := rfl
@[simp] theorem State.cores_emit (o : Out) : (s.emit o).cores = s.cores := rfl
@[simp] theorem State.started_emit (o : Out) : (s.emit o).started = s.started := rfl
@[simp] theorem State.ended_emit (o : Out) : (s.emit o).ended = s.ended := rfl
@[simp] theorem State.pushed_emit (o : Out) : (s.emit o).pushed = s.pushed := rfl
@[simp] theorem State.trigQ_emit (o : Out) : (s.emit o).trigQ = s.trigQ := rfl
@[simp] theorem State.msixMask_emit (o : Out) : (s.emit o).msixMask = s.msixMask := rfl
@[simp] theorem State.msixPend_emit (o : Out) : (s.emit o).msixPend = s.msixPend := rfl
@[simp] theorem State.porTrig_emit (o : Out) : (s.emit o).porTrig = s.porTrig := rfl
@[simp] theorem State.alertDirect_emit (o : Out) : (s.emit o).alertDirect = s.alertDirect := rfl
@[simp] theorem State.pending_emit (o : Out) : (s.emit o).pending = s.pending := rfl

/-! ## State.at -/

@[simp] theorem State.part_at (t : Nat) : (s.at t).part = s.part := rfl
@[simp] theorem State.serial_at (t : Nat) : (s.at t).serial = s.serial := rfl
@[simp] theorem State.regs_at (t : Nat) : (s.at t).regs = s.regs := rfl
@[simp] theorem State.mem_at (t : Nat) : (s.at t).mem = s.mem := rfl
@[simp] theorem State.sent_at (t : Nat) : (s.at t).sent = s.sent := rfl
@[simp] theorem State.free_at (t : Nat) : (s.at t).free = s.free := rfl
@[simp] theorem State.bell_at (t : Nat) : (s.at t).bell = s.bell := rfl
@[simp] theorem State.latch_at (t : Nat) : (s.at t).latch = s.latch := rfl
@[simp] theorem State.frameFlags_at (t : Nat) : (s.at t).frameFlags = s.frameFlags := rfl
@[simp] theorem State.skips_at (t : Nat) : (s.at t).skips = s.skips := rfl
@[simp] theorem State.evts_at (t : Nat) : (s.at t).evts = s.evts := rfl
@[simp] theorem State.evtLoss_at (t : Nat) : (s.at t).evtLoss = s.evtLoss := rfl
@[simp] theorem State.ing_at (t : Nat) : (s.at t).ing = s.ing := rfl
@[simp] theorem State.front_at (t : Nat) : (s.at t).front = s.front := rfl
@[simp] theorem State.chan_at (t : Nat) : (s.at t).chan = s.chan := rfl
@[simp] theorem State.schedule_at (t : Nat) : (s.at t).schedule = s.schedule := rfl
@[simp] theorem State.pit_at (t : Nat) : (s.at t).pit = s.pit := rfl
@[simp] theorem State.can_at (t : Nat) : (s.at t).can = s.can := rfl
@[simp] theorem State.ring_at (t : Nat) : (s.at t).ring = s.ring := rfl
@[simp] theorem State.dram_at (t : Nat) : (s.at t).dram = s.dram := rfl
@[simp] theorem State.outs_at (t : Nat) : (s.at t).outs = s.outs := rfl
@[simp] theorem State.corr_at (t : Nat) : (s.at t).corr = s.corr := rfl
@[simp] theorem State.aisle_at (t : Nat) : (s.at t).aisle = s.aisle := rfl
@[simp] theorem State.crown_at (t : Nat) : (s.at t).crown = s.crown := rfl
@[simp] theorem State.cal_at (t : Nat) : (s.at t).cal = s.cal := rfl
@[simp] theorem State.clk_at (t : Nat) : (s.at t).clk = s.clk := rfl
@[simp] theorem State.ptp_at (t : Nat) : (s.at t).ptp = s.ptp := rfl
@[simp] theorem State.pwr_at (t : Nat) : (s.at t).pwr = s.pwr := rfl
@[simp] theorem State.led_at (t : Nat) : (s.at t).led = s.led := rfl
@[simp] theorem State.thm_at (t : Nat) : (s.at t).thm = s.thm := rfl
@[simp] theorem State.otp_at (t : Nat) : (s.at t).otp = s.otp := rfl
@[simp] theorem State.sec_at (t : Nat) : (s.at t).sec = s.sec := rfl
@[simp] theorem State.cfg_at (t : Nat) : (s.at t).cfg = s.cfg := rfl
@[simp] theorem State.mtx_at (t : Nat) : (s.at t).mtx = s.mtx := rfl
@[simp] theorem State.flash_at (t : Nat) : (s.at t).flash = s.flash := rfl
@[simp] theorem State.por_at (t : Nat) : (s.at t).por = s.por := rfl
@[simp] theorem State.pmc_at (t : Nat) : (s.at t).pmc = s.pmc := rfl
@[simp] theorem State.shed_at (t : Nat) : (s.at t).shed = s.shed := rfl
@[simp] theorem State.deferred_at (t : Nat) : (s.at t).deferred = s.deferred := rfl
@[simp] theorem State.cores_at (t : Nat) : (s.at t).cores = s.cores := rfl
@[simp] theorem State.started_at (t : Nat) : (s.at t).started = s.started := rfl
@[simp] theorem State.ended_at (t : Nat) : (s.at t).ended = s.ended := rfl
@[simp] theorem State.pushed_at (t : Nat) : (s.at t).pushed = s.pushed := rfl
@[simp] theorem State.trigQ_at (t : Nat) : (s.at t).trigQ = s.trigQ := rfl
@[simp] theorem State.msixMask_at (t : Nat) : (s.at t).msixMask = s.msixMask := rfl
@[simp] theorem State.msixPend_at (t : Nat) : (s.at t).msixPend = s.msixPend := rfl
@[simp] theorem State.porTrig_at (t : Nat) : (s.at t).porTrig = s.porTrig := rfl
@[simp] theorem State.alertDirect_at (t : Nat) : (s.at t).alertDirect = s.alertDirect := rfl
@[simp] theorem State.pending_at (t : Nat) : (s.at t).pending = s.pending := rfl

/-! ## Engines -/

@[simp] theorem State.aisle_setAisle (x : Aisle) : (s.setAisle x).aisle = x := rfl
@[simp] theorem State.regs_setAisle (x : Aisle) : (s.setAisle x).regs = s.regs := rfl
@[simp] theorem State.mem_setAisle (x : Aisle) : (s.setAisle x).mem = s.mem := rfl
@[simp] theorem State.pending_setAisle (x : Aisle) : (s.setAisle x).pending = s.pending := rfl
@[simp] theorem State.part_setAisle (x : Aisle) : (s.setAisle x).part = s.part := rfl
@[simp] theorem State.serial_setAisle (x : Aisle) : (s.setAisle x).serial = s.serial := rfl
@[simp] theorem State.sent_setAisle (x : Aisle) : (s.setAisle x).sent = s.sent := rfl
@[simp] theorem State.flash_setAisle (x : Aisle) : (s.setAisle x).flash = s.flash := rfl
@[simp] theorem State.otp_setAisle (x : Aisle) : (s.setAisle x).otp = s.otp := rfl
@[simp] theorem State.reg_setAisle (x : Aisle) (r : Reg) : (s.setAisle x).reg r = s.reg r := rfl
@[simp] theorem State.fld_setAisle (x : Aisle) (f : Fld) : (s.setAisle x).fld f = s.fld f := rfl
@[simp] theorem State.flag_setAisle (x : Aisle) (f : Fld) : (s.setAisle x).flag f = s.flag f := rfl

@[simp] theorem State.cal_setCal (x : CalEng) : (s.setCal x).cal = x := rfl
@[simp] theorem State.regs_setCal (x : CalEng) : (s.setCal x).regs = s.regs := rfl
@[simp] theorem State.mem_setCal (x : CalEng) : (s.setCal x).mem = s.mem := rfl
@[simp] theorem State.pending_setCal (x : CalEng) : (s.setCal x).pending = s.pending := rfl
@[simp] theorem State.part_setCal (x : CalEng) : (s.setCal x).part = s.part := rfl
@[simp] theorem State.serial_setCal (x : CalEng) : (s.setCal x).serial = s.serial := rfl
@[simp] theorem State.sent_setCal (x : CalEng) : (s.setCal x).sent = s.sent := rfl
@[simp] theorem State.flash_setCal (x : CalEng) : (s.setCal x).flash = s.flash := rfl
@[simp] theorem State.otp_setCal (x : CalEng) : (s.setCal x).otp = s.otp := rfl
@[simp] theorem State.reg_setCal (x : CalEng) (r : Reg) : (s.setCal x).reg r = s.reg r := rfl
@[simp] theorem State.fld_setCal (x : CalEng) (f : Fld) : (s.setCal x).fld f = s.fld f := rfl
@[simp] theorem State.flag_setCal (x : CalEng) (f : Fld) : (s.setCal x).flag f = s.flag f := rfl

@[simp] theorem State.can_setCan (x : Canopy) : (s.setCan x).can = x := rfl
@[simp] theorem State.regs_setCan (x : Canopy) : (s.setCan x).regs = s.regs := rfl
@[simp] theorem State.mem_setCan (x : Canopy) : (s.setCan x).mem = s.mem := rfl
@[simp] theorem State.pending_setCan (x : Canopy) : (s.setCan x).pending = s.pending := rfl
@[simp] theorem State.part_setCan (x : Canopy) : (s.setCan x).part = s.part := rfl
@[simp] theorem State.serial_setCan (x : Canopy) : (s.setCan x).serial = s.serial := rfl
@[simp] theorem State.sent_setCan (x : Canopy) : (s.setCan x).sent = s.sent := rfl
@[simp] theorem State.flash_setCan (x : Canopy) : (s.setCan x).flash = s.flash := rfl
@[simp] theorem State.otp_setCan (x : Canopy) : (s.setCan x).otp = s.otp := rfl
@[simp] theorem State.reg_setCan (x : Canopy) (r : Reg) : (s.setCan x).reg r = s.reg r := rfl
@[simp] theorem State.fld_setCan (x : Canopy) (f : Fld) : (s.setCan x).fld f = s.fld f := rfl
@[simp] theorem State.flag_setCan (x : Canopy) (f : Fld) : (s.setCan x).flag f = s.flag f := rfl

@[simp] theorem State.corr_setCorr (x : Corr) : (s.setCorr x).corr = x := rfl
@[simp] theorem State.regs_setCorr (x : Corr) : (s.setCorr x).regs = s.regs := rfl
@[simp] theorem State.mem_setCorr (x : Corr) : (s.setCorr x).mem = s.mem := rfl
@[simp] theorem State.pending_setCorr (x : Corr) : (s.setCorr x).pending = s.pending := rfl
@[simp] theorem State.part_setCorr (x : Corr) : (s.setCorr x).part = s.part := rfl
@[simp] theorem State.serial_setCorr (x : Corr) : (s.setCorr x).serial = s.serial := rfl
@[simp] theorem State.sent_setCorr (x : Corr) : (s.setCorr x).sent = s.sent := rfl
@[simp] theorem State.flash_setCorr (x : Corr) : (s.setCorr x).flash = s.flash := rfl
@[simp] theorem State.otp_setCorr (x : Corr) : (s.setCorr x).otp = s.otp := rfl
@[simp] theorem State.reg_setCorr (x : Corr) (r : Reg) : (s.setCorr x).reg r = s.reg r := rfl
@[simp] theorem State.fld_setCorr (x : Corr) (f : Fld) : (s.setCorr x).fld f = s.fld f := rfl
@[simp] theorem State.flag_setCorr (x : Corr) (f : Fld) : (s.setCorr x).flag f = s.flag f := rfl

@[simp] theorem State.crown_setCrown (x : Crown) : (s.setCrown x).crown = x := rfl
@[simp] theorem State.regs_setCrown (x : Crown) : (s.setCrown x).regs = s.regs := rfl
@[simp] theorem State.mem_setCrown (x : Crown) : (s.setCrown x).mem = s.mem := rfl
@[simp] theorem State.pending_setCrown (x : Crown) : (s.setCrown x).pending = s.pending := rfl
@[simp] theorem State.part_setCrown (x : Crown) : (s.setCrown x).part = s.part := rfl
@[simp] theorem State.serial_setCrown (x : Crown) : (s.setCrown x).serial = s.serial := rfl
@[simp] theorem State.sent_setCrown (x : Crown) : (s.setCrown x).sent = s.sent := rfl
@[simp] theorem State.flash_setCrown (x : Crown) : (s.setCrown x).flash = s.flash := rfl
@[simp] theorem State.otp_setCrown (x : Crown) : (s.setCrown x).otp = s.otp := rfl
@[simp] theorem State.reg_setCrown (x : Crown) (r : Reg) : (s.setCrown x).reg r = s.reg r := rfl
@[simp] theorem State.fld_setCrown (x : Crown) (f : Fld) : (s.setCrown x).fld f = s.fld f := rfl
@[simp] theorem State.flag_setCrown (x : Crown) (f : Fld) : (s.setCrown x).flag f = s.flag f := rfl

@[simp] theorem State.dram_setDram (x : Dram) : (s.setDram x).dram = x := rfl
@[simp] theorem State.regs_setDram (x : Dram) : (s.setDram x).regs = s.regs := rfl
@[simp] theorem State.mem_setDram (x : Dram) : (s.setDram x).mem = s.mem := rfl
@[simp] theorem State.pending_setDram (x : Dram) : (s.setDram x).pending = s.pending := rfl
@[simp] theorem State.part_setDram (x : Dram) : (s.setDram x).part = s.part := rfl
@[simp] theorem State.serial_setDram (x : Dram) : (s.setDram x).serial = s.serial := rfl
@[simp] theorem State.sent_setDram (x : Dram) : (s.setDram x).sent = s.sent := rfl
@[simp] theorem State.flash_setDram (x : Dram) : (s.setDram x).flash = s.flash := rfl
@[simp] theorem State.otp_setDram (x : Dram) : (s.setDram x).otp = s.otp := rfl
@[simp] theorem State.reg_setDram (x : Dram) (r : Reg) : (s.setDram x).reg r = s.reg r := rfl
@[simp] theorem State.fld_setDram (x : Dram) (f : Fld) : (s.setDram x).fld f = s.fld f := rfl
@[simp] theorem State.flag_setDram (x : Dram) (f : Fld) : (s.setDram x).flag f = s.flag f := rfl

@[simp] theorem State.bell_setBell (x : BellEng) : (s.setBell x).bell = x := rfl
@[simp] theorem State.regs_setBell (x : BellEng) : (s.setBell x).regs = s.regs := rfl
@[simp] theorem State.mem_setBell (x : BellEng) : (s.setBell x).mem = s.mem := rfl
@[simp] theorem State.pending_setBell (x : BellEng) : (s.setBell x).pending = s.pending := rfl
@[simp] theorem State.part_setBell (x : BellEng) : (s.setBell x).part = s.part := rfl
@[simp] theorem State.serial_setBell (x : BellEng) : (s.setBell x).serial = s.serial := rfl
@[simp] theorem State.sent_setBell (x : BellEng) : (s.setBell x).sent = s.sent := rfl
@[simp] theorem State.flash_setBell (x : BellEng) : (s.setBell x).flash = s.flash := rfl
@[simp] theorem State.otp_setBell (x : BellEng) : (s.setBell x).otp = s.otp := rfl
@[simp] theorem State.reg_setBell (x : BellEng) (r : Reg) : (s.setBell x).reg r = s.reg r := rfl
@[simp] theorem State.fld_setBell (x : BellEng) (f : Fld) : (s.setBell x).fld f = s.fld f := rfl
@[simp] theorem State.flag_setBell (x : BellEng) (f : Fld) : (s.setBell x).flag f = s.flag f := rfl

@[simp] theorem State.cfg_setCfg (x : Loader) : (s.setCfg x).cfg = x := rfl
@[simp] theorem State.regs_setCfg (x : Loader) : (s.setCfg x).regs = s.regs := rfl
@[simp] theorem State.mem_setCfg (x : Loader) : (s.setCfg x).mem = s.mem := rfl
@[simp] theorem State.pending_setCfg (x : Loader) : (s.setCfg x).pending = s.pending := rfl
@[simp] theorem State.part_setCfg (x : Loader) : (s.setCfg x).part = s.part := rfl
@[simp] theorem State.serial_setCfg (x : Loader) : (s.setCfg x).serial = s.serial := rfl
@[simp] theorem State.sent_setCfg (x : Loader) : (s.setCfg x).sent = s.sent := rfl
@[simp] theorem State.flash_setCfg (x : Loader) : (s.setCfg x).flash = s.flash := rfl
@[simp] theorem State.otp_setCfg (x : Loader) : (s.setCfg x).otp = s.otp := rfl
@[simp] theorem State.reg_setCfg (x : Loader) (r : Reg) : (s.setCfg x).reg r = s.reg r := rfl
@[simp] theorem State.fld_setCfg (x : Loader) (f : Fld) : (s.setCfg x).fld f = s.fld f := rfl
@[simp] theorem State.flag_setCfg (x : Loader) (f : Fld) : (s.setCfg x).flag f = s.flag f := rfl

@[simp] theorem State.led_setLed (x : Ledger) : (s.setLed x).led = x := rfl
@[simp] theorem State.regs_setLed (x : Ledger) : (s.setLed x).regs = s.regs := rfl
@[simp] theorem State.mem_setLed (x : Ledger) : (s.setLed x).mem = s.mem := rfl
@[simp] theorem State.pending_setLed (x : Ledger) : (s.setLed x).pending = s.pending := rfl
@[simp] theorem State.part_setLed (x : Ledger) : (s.setLed x).part = s.part := rfl
@[simp] theorem State.serial_setLed (x : Ledger) : (s.setLed x).serial = s.serial := rfl
@[simp] theorem State.sent_setLed (x : Ledger) : (s.setLed x).sent = s.sent := rfl
@[simp] theorem State.flash_setLed (x : Ledger) : (s.setLed x).flash = s.flash := rfl
@[simp] theorem State.otp_setLed (x : Ledger) : (s.setLed x).otp = s.otp := rfl
@[simp] theorem State.reg_setLed (x : Ledger) (r : Reg) : (s.setLed x).reg r = s.reg r := rfl
@[simp] theorem State.fld_setLed (x : Ledger) (f : Fld) : (s.setLed x).fld f = s.fld f := rfl
@[simp] theorem State.flag_setLed (x : Ledger) (f : Fld) : (s.setLed x).flag f = s.flag f := rfl

@[simp] theorem State.mtx_setMtx (x : Matrix) : (s.setMtx x).mtx = x := rfl
@[simp] theorem State.regs_setMtx (x : Matrix) : (s.setMtx x).regs = s.regs := rfl
@[simp] theorem State.mem_setMtx (x : Matrix) : (s.setMtx x).mem = s.mem := rfl
@[simp] theorem State.pending_setMtx (x : Matrix) : (s.setMtx x).pending = s.pending := rfl
@[simp] theorem State.part_setMtx (x : Matrix) : (s.setMtx x).part = s.part := rfl
@[simp] theorem State.serial_setMtx (x : Matrix) : (s.setMtx x).serial = s.serial := rfl
@[simp] theorem State.sent_setMtx (x : Matrix) : (s.setMtx x).sent = s.sent := rfl
@[simp] theorem State.flash_setMtx (x : Matrix) : (s.setMtx x).flash = s.flash := rfl
@[simp] theorem State.otp_setMtx (x : Matrix) : (s.setMtx x).otp = s.otp := rfl
@[simp] theorem State.reg_setMtx (x : Matrix) (r : Reg) : (s.setMtx x).reg r = s.reg r := rfl
@[simp] theorem State.fld_setMtx (x : Matrix) (f : Fld) : (s.setMtx x).fld f = s.fld f := rfl
@[simp] theorem State.flag_setMtx (x : Matrix) (f : Fld) : (s.setMtx x).flag f = s.flag f := rfl

@[simp] theorem State.mel_setMel (x : MelEng) : (s.setMel x).mel = x := rfl
@[simp] theorem State.regs_setMel (x : MelEng) : (s.setMel x).regs = s.regs := rfl
@[simp] theorem State.mem_setMel (x : MelEng) : (s.setMel x).mem = s.mem := rfl
@[simp] theorem State.pending_setMel (x : MelEng) : (s.setMel x).pending = s.pending := rfl
@[simp] theorem State.part_setMel (x : MelEng) : (s.setMel x).part = s.part := rfl
@[simp] theorem State.serial_setMel (x : MelEng) : (s.setMel x).serial = s.serial := rfl
@[simp] theorem State.sent_setMel (x : MelEng) : (s.setMel x).sent = s.sent := rfl
@[simp] theorem State.flash_setMel (x : MelEng) : (s.setMel x).flash = s.flash := rfl
@[simp] theorem State.otp_setMel (x : MelEng) : (s.setMel x).otp = s.otp := rfl
@[simp] theorem State.reg_setMel (x : MelEng) (r : Reg) : (s.setMel x).reg r = s.reg r := rfl
@[simp] theorem State.fld_setMel (x : MelEng) (f : Fld) : (s.setMel x).fld f = s.fld f := rfl
@[simp] theorem State.flag_setMel (x : MelEng) (f : Fld) : (s.setMel x).flag f = s.flag f := rfl

@[simp] theorem State.outs_setOuts (x : Outs) : (s.setOuts x).outs = x := rfl
@[simp] theorem State.regs_setOuts (x : Outs) : (s.setOuts x).regs = s.regs := rfl
@[simp] theorem State.mem_setOuts (x : Outs) : (s.setOuts x).mem = s.mem := rfl
@[simp] theorem State.pending_setOuts (x : Outs) : (s.setOuts x).pending = s.pending := rfl
@[simp] theorem State.part_setOuts (x : Outs) : (s.setOuts x).part = s.part := rfl
@[simp] theorem State.serial_setOuts (x : Outs) : (s.setOuts x).serial = s.serial := rfl
@[simp] theorem State.sent_setOuts (x : Outs) : (s.setOuts x).sent = s.sent := rfl
@[simp] theorem State.flash_setOuts (x : Outs) : (s.setOuts x).flash = s.flash := rfl
@[simp] theorem State.otp_setOuts (x : Outs) : (s.setOuts x).otp = s.otp := rfl
@[simp] theorem State.reg_setOuts (x : Outs) (r : Reg) : (s.setOuts x).reg r = s.reg r := rfl
@[simp] theorem State.fld_setOuts (x : Outs) (f : Fld) : (s.setOuts x).fld f = s.fld f := rfl
@[simp] theorem State.flag_setOuts (x : Outs) (f : Fld) : (s.setOuts x).flag f = s.flag f := rfl

@[simp] theorem State.pwr_setPwr (x : Power) : (s.setPwr x).pwr = x := rfl
@[simp] theorem State.regs_setPwr (x : Power) : (s.setPwr x).regs = s.regs := rfl
@[simp] theorem State.mem_setPwr (x : Power) : (s.setPwr x).mem = s.mem := rfl
@[simp] theorem State.pending_setPwr (x : Power) : (s.setPwr x).pending = s.pending := rfl
@[simp] theorem State.part_setPwr (x : Power) : (s.setPwr x).part = s.part := rfl
@[simp] theorem State.serial_setPwr (x : Power) : (s.setPwr x).serial = s.serial := rfl
@[simp] theorem State.sent_setPwr (x : Power) : (s.setPwr x).sent = s.sent := rfl
@[simp] theorem State.flash_setPwr (x : Power) : (s.setPwr x).flash = s.flash := rfl
@[simp] theorem State.otp_setPwr (x : Power) : (s.setPwr x).otp = s.otp := rfl
@[simp] theorem State.reg_setPwr (x : Power) (r : Reg) : (s.setPwr x).reg r = s.reg r := rfl
@[simp] theorem State.fld_setPwr (x : Power) (f : Fld) : (s.setPwr x).fld f = s.fld f := rfl
@[simp] theorem State.flag_setPwr (x : Power) (f : Fld) : (s.setPwr x).flag f = s.flag f := rfl

@[simp] theorem State.ptp_setPtp (x : PtpEng) : (s.setPtp x).ptp = x := rfl
@[simp] theorem State.regs_setPtp (x : PtpEng) : (s.setPtp x).regs = s.regs := rfl
@[simp] theorem State.mem_setPtp (x : PtpEng) : (s.setPtp x).mem = s.mem := rfl
@[simp] theorem State.pending_setPtp (x : PtpEng) : (s.setPtp x).pending = s.pending := rfl
@[simp] theorem State.part_setPtp (x : PtpEng) : (s.setPtp x).part = s.part := rfl
@[simp] theorem State.serial_setPtp (x : PtpEng) : (s.setPtp x).serial = s.serial := rfl
@[simp] theorem State.sent_setPtp (x : PtpEng) : (s.setPtp x).sent = s.sent := rfl
@[simp] theorem State.flash_setPtp (x : PtpEng) : (s.setPtp x).flash = s.flash := rfl
@[simp] theorem State.otp_setPtp (x : PtpEng) : (s.setPtp x).otp = s.otp := rfl
@[simp] theorem State.reg_setPtp (x : PtpEng) (r : Reg) : (s.setPtp x).reg r = s.reg r := rfl
@[simp] theorem State.fld_setPtp (x : PtpEng) (f : Fld) : (s.setPtp x).fld f = s.fld f := rfl
@[simp] theorem State.flag_setPtp (x : PtpEng) (f : Fld) : (s.setPtp x).flag f = s.flag f := rfl

@[simp] theorem State.ring_setRing (x : Ring) : (s.setRing x).ring = x := rfl
@[simp] theorem State.regs_setRing (x : Ring) : (s.setRing x).regs = s.regs := rfl
@[simp] theorem State.mem_setRing (x : Ring) : (s.setRing x).mem = s.mem := rfl
@[simp] theorem State.pending_setRing (x : Ring) : (s.setRing x).pending = s.pending := rfl
@[simp] theorem State.part_setRing (x : Ring) : (s.setRing x).part = s.part := rfl
@[simp] theorem State.serial_setRing (x : Ring) : (s.setRing x).serial = s.serial := rfl
@[simp] theorem State.sent_setRing (x : Ring) : (s.setRing x).sent = s.sent := rfl
@[simp] theorem State.flash_setRing (x : Ring) : (s.setRing x).flash = s.flash := rfl
@[simp] theorem State.otp_setRing (x : Ring) : (s.setRing x).otp = s.otp := rfl
@[simp] theorem State.reg_setRing (x : Ring) (r : Reg) : (s.setRing x).reg r = s.reg r := rfl
@[simp] theorem State.fld_setRing (x : Ring) (f : Fld) : (s.setRing x).fld f = s.fld f := rfl
@[simp] theorem State.flag_setRing (x : Ring) (f : Fld) : (s.setRing x).flag f = s.flag f := rfl

@[simp] theorem State.sec_setSec (x : SecEng) : (s.setSec x).sec = x := rfl
@[simp] theorem State.regs_setSec (x : SecEng) : (s.setSec x).regs = s.regs := rfl
@[simp] theorem State.mem_setSec (x : SecEng) : (s.setSec x).mem = s.mem := rfl
@[simp] theorem State.pending_setSec (x : SecEng) : (s.setSec x).pending = s.pending := rfl
@[simp] theorem State.part_setSec (x : SecEng) : (s.setSec x).part = s.part := rfl
@[simp] theorem State.serial_setSec (x : SecEng) : (s.setSec x).serial = s.serial := rfl
@[simp] theorem State.sent_setSec (x : SecEng) : (s.setSec x).sent = s.sent := rfl
@[simp] theorem State.flash_setSec (x : SecEng) : (s.setSec x).flash = s.flash := rfl
@[simp] theorem State.otp_setSec (x : SecEng) : (s.setSec x).otp = s.otp := rfl
@[simp] theorem State.reg_setSec (x : SecEng) (r : Reg) : (s.setSec x).reg r = s.reg r := rfl
@[simp] theorem State.fld_setSec (x : SecEng) (f : Fld) : (s.setSec x).fld f = s.fld f := rfl
@[simp] theorem State.flag_setSec (x : SecEng) (f : Fld) : (s.setSec x).flag f = s.flag f := rfl

@[simp] theorem State.reg_write (a : Nat) (l : List Byte) (r : Reg) : (s.write a l).reg r = s.reg r := rfl
@[simp] theorem State.fld_write (a : Nat) (l : List Byte) (f : Fld) : (s.write a l).fld f = s.fld f := rfl
@[simp] theorem State.flag_write (a : Nat) (l : List Byte) (f : Fld) : (s.write a l).flag f = s.flag f := rfl
@[simp] theorem State.reg_clear (a n : Nat) (r : Reg) : (s.clear a n).reg r = s.reg r := rfl
@[simp] theorem State.fld_clear (a n : Nat) (f : Fld) : (s.clear a n).fld f = s.fld f := rfl
@[simp] theorem State.flag_clear (a n : Nat) (f : Fld) : (s.clear a n).flag f = s.flag f := rfl
@[simp] theorem State.reg_emit (o : Out) (r : Reg) : (s.emit o).reg r = s.reg r := rfl
@[simp] theorem State.fld_emit (o : Out) (f : Fld) : (s.emit o).fld f = s.fld f := rfl
@[simp] theorem State.flag_emit (o : Out) (f : Fld) : (s.emit o).flag f = s.flag f := rfl
@[simp] theorem State.reg_at (t : Nat) (r : Reg) : (s.at t).reg r = s.reg r := rfl
@[simp] theorem State.fld_at (t : Nat) (f : Fld) : (s.at t).fld f = s.fld f := rfl
@[simp] theorem State.flag_at (t : Nat) (f : Fld) : (s.at t).flag f = s.flag f := rfl

end Sys2Proof.Machine
end

