-- ==== Sys2Proof/Machine/Pins.lean ====
section
/-! DEFINITION. The levels of the output pins of domain 0 (R457), as the state gives them. Pulses and serial words on pins are in
`State.sent`. -/
namespace Sys2Proof.Machine

/-- REF_STATE[2:0] (R310, R311). -/
def State.pinRefState (s : State) : Nat := s.melState

/-- REF_ACTIVE[1:0]: the reference the DPLL follows, during a switch its target; none, REF_A, REF_B, or any other (R311). None is followed
before the start-up check. -/
def State.pinRefActive (s : State) : Nat :=
  if !s.mel.started then 0
  else match s.melActive with
  | 7 => 0
  | 0 => 1
  | 1 => 2
  | _ => 3

/-- HOLDOVER_OOS (R308). -/
def State.pinHoldoverOos (s : State) : Bool := s.flag MEL.STATUS_OOS

/-- PWR_STATE[2:0] (R362). -/
def State.pinPwrState (s : State) : Nat := s.powerState

/-- ALERT_N is low (R444). -/
def State.pinAlert (s : State) : Bool := s.alert

/-- THERM_TRIP_N is low (R384). -/
def State.pinThermTrip (s : State) : Bool := s.pwr.tripPin

/-- SEC_ALARM_N is low (R419). -/
def State.pinSecAlarm (s : State) : Bool := s.sec.alarm

/-- DDR_RESET_N is high (R456). -/
def State.pinDdrResetN (s : State) : Bool := s.dram.resetN

end Sys2Proof.Machine
end

