-- ==== Sys2Proof/Tests/Slice0.lean ====
section
/-! SUPPORT. Tests: the well-formedness smoke, and for every statement with hypotheses a state and operands that meet them. -/
namespace Sys2Proof.Tests
open Sys2Proof Sys2Proof.Machine
set_option Elab.async false

/-! ## Small states, each made from the state b -/

/-- Bell 4 of frames of 1,048,576 ns rang, the engine is in state st, and slot k of frame 4 has just begun. -/
def rung (b : State) (st k : Nat) : State :=
  let s := ((((b.setRegN BEL.FLEN_LO 1048576).setRegN BEL.FLEN_HI 0).setRegN BEL.FLEN_FRAC 0).setPair BEL.BELL_LO BEL.BELL_HI 4).setBellState st
  { s with now := 4194304 * ns + k * 1024 * ns,
           bell := { b.bell with ticking := false, nextIdx := 5, rungs := [(4, 4194304 * ns)], pend := none, clearCnt := none, stopLeft := 0, stopWords := 0 } }

/-- A schedule of one item. -/
def item (b : State) (e : SchedEntry) : State := { b with schedule := [e], started := [], ended := [], pushed := [], shed := [], deferred := [] }

/-- Group 0 has lanes 0 to 3 and inputs 0 to 3, two data blocks a frame. -/
def group0 (b : State) : State :=
  (b.setRegN (ING.GRP_CFG 0) 0xD80).setFld (ING.GRP_LEN_DBLK 0) 2

/-- Pitch 3 of a 2 x 2 torus, which owns channels 5 and 9; frames of 128 spectra, cells of 64 bytes. -/
def canopy (b : State) : State :=
  let s := ((((b.setRegN CAN.SHAPE 70).setRegN PIT.STATUS 0).setFld PIT.STATUS_STATE 1).setFld PIT.STATUS_PITCH 3).setFlag PIT.STATUS_PARKED false
  let s := (((((s.setRegN (CAN.CHMAP 1) 0x8300).setRegN (CAN.CHMAP 2) 0x8300).setFld (STL.ICFG_WLOG 0) 7).setFlag CHN.CTRL_RQ4 false).setFld RRG.GEOM_CELLW 2).setFlag BEL.STATUS_LEAD false
  let s := ((s.setFld RRG.SLOTS_F 8).setRegN RRG.BASE_LO 0x10000000).setRegN RRG.MAP_LO 0x8000000
  { s with can := { s.can with parkAt := none, parked := [], joining := [], castsSeen := [] } }

/-- Canopy port p in state st. -/
def portIn (b : State) (p st : Nat) : State := (canopy b).setFld (CAN.PORT_STATUS_STATE p) st

/-- A DATA packet for pitch 3, channel 5. -/
def dataPkt : Packet := { body := .data (List.replicate 32 7#8), dest := 3, src := 1, channel := 5, m0 := 516 }

/-- A packet of this device, m0 its first spectrum. -/
def ownPkt (m0 : Nat) : VPkt := { pkt := { dataPkt with m0 := m0 }, from? := some 1, since := 0, starved := false }

/-- A trailer that acknowledges a. -/
def trailer (a : Nat) : Trailer := { nak := false, ack := a, cred := [] }

/-- The head of a queue is a packet of frame 4 for this device; ring slot 4 has frame 4 open. -/
def queued (b : State) : State :=
  let s := ({ canopy b with can := { (canopy b).can with voqs := [] } }).setVoq (3 * (canopy b).chanN + 5) [ownPkt 516]
  s.setRing { s.ring with rtFill := 0, closed := [], slots := setAt (List.replicate 64 ⟨none, false, 0, 0, []⟩) 4 ⟨some 4, true, 1, 0, []⟩ }

/-- Trigger tr waits in frame 4; record 1 is as given, the others are FREE. -/
def triggered (b : State) (tr : Trigger) (r : CapRec) : State :=
  let s := rung (canopy b) 3 8
  { s with trigQ := [tr], ring := { s.ring with recs := setAt (List.replicate 4 ⟨0, 0, 0, 0, 0, 0, 0, 0, [], [], false, false⟩) 1 r, reading := none } }

/-- Frame 4 runs on die d: four inputs, two channels a die, its window of channel 0 loaded, slot k has begun. -/
def stalls (b : State) (d k : Nat) (x : StallDie) : State :=
  let s := ((((rung (canopy b) 3 k).setFld (STL.ICFG_INPUTS 0) 3).setFld (STL.CHCNT_COUNT d) 2).setFlag (STL.CTRL_MODE4 d) false).setRegN PWR.DOM_ON 0x1FFFF
  (s.setCorr { s.corr with frame := some 4 }).setDie d { x with closed := false }

/-- Beam 0 has four contexts on page 0, and nothing of the schedule holds an aisle pass. -/
def beams (b : State) : State :=
  { b.setRegN (AIS.BEAM_INFO 0) 4 with schedule := [], aisle := { b.aisle with page := Page.reset, nin := [(0, 4)] } }

/-- A crown partial frame for watch 63 of frame 4, one record. -/
def crownFrame : List Byte :=
  List.replicate 12 0#8 ++ [0x88#8, 0xB5#8, 0#8, 2#8, 2#8, 63#8] ++ toBytesBE 8 4 ++ toBytesBE 4 0 ++ toBytesBE 2 1 ++ [0#8, 0#8] ++ List.replicate 16 9#8

/-- Dump 9 of frame 4, all correlations. -/
def aDump : Dump :=
  { q := 9, first := 4, nfr := 1, forced := false, short := false, skip := 0, stale := false, step := false, poison := false,
    isFirst := true, dieOut := false, fmt := 3, corr := false, manif := false, dbank := 0 }

/-- Dump d of two channels of four inputs is next to be sent. -/
def dumping (b : State) (d : Dump) (n : Nat) : State :=
  let s := (canopy b).setFld (STL.ICFG_INPUTS 0) 3
  s.setOuts { s.outs with dumps := [d], dumpAt := 0, nextRec := n }

/-- DRAM is trained and open, nothing waits. -/
def dramUp (b : State) : State :=
  let s := (((b.setFlag DMC.CTRL_EN true).setFlag DMC.STATUS_READY true).setFlag DMC.STATUS_PANIC false).setFld DMC.CHSTAT_FAILED 0
  s.setDram { s.dram with queue := [], throttle := [] }

/-- Core n is in RUN at PC 7 with the word w there; its state is otherwise that of x. -/
def coreAt (b : State) (n w : Nat) (x : Core) : State :=
  (b.setRegN PWR.DOM_ON 0x1FFFF).setCore n { x with st := 2, pc := 7, pm := [(7, w)] }

/-- A well-formed time-of-day message of second 9 with clock class code 2. -/
def todMsg : List Byte := [0x5A#8, 0xC3#8, 1#8, 2#8, 9#8, 0#8, 0#8, 0#8, 0#8, 0#8, 0#8, 0#8, 0#8, 0#8, 0x96#8, 0xFF#8]

/-- An Ethernet frame with a PTP message of type ty from port 5 of clock 7, sequence number 8, its body as given. -/
def ptpFrame (ty : Nat) (body : List Byte) : List Byte :=
  [0x01#8, 0x1B#8, 0x19#8, 0#8, 0#8, 0#8] ++ List.replicate 6 2#8 ++ [0x88#8, 0xF7#8] ++ ptpMsg ty 0 8 0 (7 * 65536 + 5) 8 0 body

/-- A master of clock 7. -/
def aMaster : PtpMaster :=
  { spi := 7 * 65536 + 5, prio1 := 1, cls := 6, accuracy := 0, variance := 0, prio2 := 1, gm := 7, steps := 0, logAnn := 0, last := 0, prev := none }

/-- The slave on service port 0 is in state st and follows clock 7. -/
def slave (b : State) (st : Nat) : State :=
  let s := ((((b.setRegN PTP.SLV_CTRL 0).setFld PTP.SLV_STATUS_STATE st).setFlag (PTP.SVC_STATUS_UP 0) true).setRegN PTP.CLKID_LO 0).setRegN PTP.CLKID_HI 0
  { s with ptp := { s.ptp with sel := some (7 * 65536 + 5), masters := [aMaster], delayAt := none } }

/-- A full image at 0x1000 with one empty preset section of 4 bytes; its section digest is SHAKE256 of them, computed outside. -/
def imageBytes : List Host.Cell :=
  [(4096, 73#8), (4097, 90#8), (4098, 67#8), (4099, 70#8), (4100, 1#8), (4102, 8#8), (4103, 1#8), (4104, 63#8), (4106, 1#8), (4108, 7#8),
   (4112, 4#8), (4113, 16#8), (4352, 1#8), (4354, 255#8), (4361, 16#8), (4368, 4#8), (4384, 180#8), (4385, 162#8), (4386, 30#8), (4387,
   121#8), (4388, 57#8), (4389, 190#8), (4390, 177#8), (4391, 37#8), (4392, 189#8), (4393, 60#8), (4394, 16#8), (4395, 35#8), (4396, 126#8),
   (4397, 213#8), (4398, 234#8), (4399, 49#8), (4400, 179#8), (4401, 26#8), (4402, 238#8), (4403, 126#8), (4404, 100#8), (4405, 104#8),
   (4406, 115#8), (4407, 79#8), (4408, 141#8), (4409, 21#8), (4410, 139#8), (4411, 77#8), (4412, 80#8), (4413, 233#8), (4414, 149#8), (4415,
   214#8)]
/-- SHAKE256 of its header and table, computed outside. -/
def imageDigest : List Byte :=
  [66#8, 191#8, 80#8, 237#8, 24#8, 188#8, 61#8, 251#8, 144#8, 14#8, 172#8, 32#8, 205#8, 104#8, 224#8, 202#8, 240#8, 127#8, 207#8, 240#8, 162#8,
   61#8, 70#8, 82#8, 217#8, 40#8, 99#8, 4#8, 220#8, 109#8, 99#8, 158#8]

/-- A full load of 4,100 bytes from flash. -/
def aJob : LoadJob := { src := 2, base := 0x1000, len := 4100, kind := 1, takeover := false, hold := false, pcycle := false, recheck := false }

/-- The loader is READY with nothing in flight, the bell STOPPED. -/
def loaderIdle (b : State) : State :=
  let s := (b.setBellState 0).setFld CFG.STATUS_STATE 6
  s.setCfg { s.cfg with job := none, accepted := none, change := none }

/-- The loader waits for an image, from flash slot k or the cast. -/
def staging (b : State) (src k : Nat) : State :=
  let s := ((((loaderIdle b).setFld CFG.STATUS_STATE 2).setFld CFG.STRAP_BOOT_SRC src).setFlag SEC.STATUS_RECOVERY false).setRegN BEL.SCHED_ID 0
  s.setCfg { s.cfg with flashSlot := k, rx := none, rejected := [] }

/-- A cast frame of SCHED_ID 9: n bytes at offset o of an image of `len` bytes. -/
def castFrame (o n len : Nat) : List Byte :=
  List.replicate 12 0#8 ++ toBytesBE 2 0x88B5 ++ toBytesBE 2 3 ++ toBytesBE 4 9 ++ toBytesBE 2 0 ++ toBytesBE 8 o ++ toBytesBE 2 n ++ toBytesBE 2 0
    ++ toBytesBE 8 len ++ List.replicate n 7#8

/-- A change of stall die 5 that waits for its bell. -/
def aChange : Change :=
  { clerk := false, die := 5, cores := 0, noimg := false, takeover := false, hold := true, pcycle := false, handDue := false, bell := 0, phase := 1, base := 0, len := 0 }

/-- The security engine in state st, with no helper slot and nothing under way. -/
def secure (b : State) (st : Nat) : State :=
  let s := (b.setFld SEC.STATUS_STATE st).setFlag SEC.STATUS_RECOVERY false
  { s with flash := [], sec := { s.sec with sealing := false, attWait := false, signing := none, manifests := [] }, otp := { s.otp with helpers := [], epoch := 0 } }

/-- Every master runs: the PCIe link is up, no port is in reset, nothing is outstanding. -/
def masters (b : State) : State :=
  let s := (((b.setRegN MTX.MRST 0).setFlag PCI.LINK_UP true).setRegN PWR.DOM_ON 0x1FFFF).setFld SEC.STATUS_STATE 0
  s.setMtx { s.mtx with out := [], erasing := none }

/-- A read of master 3. -/
def aTxn : Txn := { master := 3, write := false, addr := 64, len := 4, be := 15, data := [], issuedAt := 0, waits := false, moved := 0, got := [], failed := false }

/-- A descriptor within the trunk SRAM. -/
def aDesc : Desc :=
  { src := 0xFE0000000000, dst := 0xFE0000000100, len := 64, sw := 5, dw := 4, sfix := false, dfix := false, ev := true, chain := false,
    wait := true, hint := 0, next := 0 }

/-- A porter channel in state st. -/
def aPorter (st : Nat) : Porter := { st := st, desc := aDesc, read := 0, written := 0, held := [], cntOpen := false }

/-- The frame lane k of group 0 (four lanes) brings, its first time step 0. -/
def laneFrame (k : Nat) : LaneFrame :=
  let st := [0xB4#8, BitVec.ofNat 8 (k + 24), 0#8, 0#8, 3#8, 2#8, 0#8, 0#8]
  let x := List.replicate 8 0#8
  let d := List.replicate 16 7#8
  { locked := true, startAt := 0, start := st, index := x, data := d, fin := [0xE1#8] ++ toBytes 4 (crc32c (st.drop 1 ++ x ++ d)) ++ [BitVec.ofNat 8 k], clean := true }

/-- Group 0 is enabled, its lanes are Active and LOCKED, the blocks on and clocked. -/
def ingesting (b : State) : State :=
  let s := ((((group0 b).setRegN PWR.DOM_ON 0x1FFFF).setFlag (ING.GRP_CTRL_EN 0) true).setRegN ING.RATE 3000000000).setFld ING.LATENCY_NS 10000
  [0, 1, 2, 3].foldl (fun x k => ((x.setFld (ING.LANE_STATUS_PWR_NOW k) 0).setFlag (ING.LANE_STATUS_LOCK k) true).setLane k { x.lane k with on := true, got := none })
    { s with ing := { s.ing with newest := none } }

/-- Job 7 of core 1 is due in slots 3 to 5; slot k has just begun and core 1 is in state st, its queue empty. -/
def jobItem (b : State) (k st : Nat) : State :=
  let s := ((item (rung b 3 k) ⟨0x14, 1, 3, 5, 0, 0, 0x70002⟩).setRegN PWR.DOM_ON 0x1FFFF).setRegN CFG.CLE_LIVE 0xFFFF
  s.setCore 1 { s.core 1 with st := st, jobq := [], done := [] }

/-- Output streams 0 are open to port 3, which is up: every kind of product is enabled. -/
def producing (b : State) : State :=
  let s := ((((masters b).setFlag (OUT.PORT_CTRL_EN 3) true).setFlag (OUT.PORT_STATUS_UP 3) true).setFld OUT.PRODEN_EN 0x7FF).setFld OUT.STREN_EN 0xFFFF
  let s := (List.range 12).foldl (fun x k => x.setFld (OUT.PRODMAP_STREAM k) 0) s
  { s with schedule := [], deferred := [], outs := { s.outs with entries := [(0, List.replicate 13 0#8 ++ [8#8])], dealt := [], ready := [] } }

/-- The ring with DRAM open, every unit running and a readable slot 4 of frame 4. -/
def ringUp (b : State) : State := queued (dramUp (producing b))

/-- Frame 4 rang and slot k of it has begun; ring slot 3 still has frame 3 open. -/
def closing (b : State) (k : Nat) : State :=
  let s := rung (canopy b) 3 k
  s.setRing { s.ring with ord := 2, closed := [], slots := setAt (List.replicate 64 ⟨none, false, 0, 0, []⟩) 3 ⟨some 3, true, 1, 0, []⟩ }

/-- A record that holds frames 4 and 5; ring slots 4 and 5 hold them for record 1. -/
def reading (b : State) (l : List Nat) (i : Nat) : State :=
  let s := ringUp b
  s.setRing { s.ring with rdAt := 0, reading := some (1, l, i), recs := setAt b.ring.recs 1 ⟨3, 2, 0, 5, 1, 1, 9, 0, [4, 5], [], false, false⟩,
                          slots := setAt (setAt (List.replicate 64 ⟨none, false, 0, 0, []⟩) 4 ⟨some 4, false, 1, 2, []⟩) 5 ⟨some 5, false, 2, 2, []⟩ }

/-- As `stalls`, in slot 5, with DRAM open and error free, frame 4 in ring slot 4 of cells of 128 bytes and partial sums that replace. -/
def windowing (b : State) (d : Nat) (x : StallDie) : State :=
  let s := (stalls (dramUp b) d 5 x).setFld RRG.GEOM_CELLW 4
  let s := s.setRing { s.ring with ord := 2, slots := setAt (List.replicate 64 ⟨none, false, 0, 0, []⟩) 4 ⟨some 4, false, 1, 0, []⟩ }
  { s with mem := [], dram := { s.dram with errs := [], tags := [] }, corr := { s.corr with replacing := true, filling := none } }

/-- Every aisle pass of frame 4 is over (no die has a channel); the crown of the frame is still to come. -/
def crowning (b : State) (k : Nat) : State :=
  let s := (List.range 6).foldl (fun y d => y.setFld (STL.CHCNT_COUNT d) 0) (dramUp (producing (rung (canopy b) 3 k)))
  { s with corr := { s.corr with frame := some 4, dies := List.replicate 6 StallDie.reset }, crown := { s.crown with published := false, partSent := false, ranked := false, parts := [] } }

/-- Watch 63 is on over the canopy, its only candidates those of beam 0, one group of 128 spectra, which detects. -/
def watching (s : State) : State :=
  { s with aisle := { s.aisle with cfg := [(AIS.BEAM_CFG 0, 2#32), (CRN.WATCH_CFG 63, 3#32)] } }

/-- What holds of every listed element holds wherever the list has one. -/
theorem of_each {α : Type} {P : Nat → α → Prop} {l : List α} (h : ∀ k ∈ List.range l.length, ∀ f ∈ l[k]?, P k f) :
    ∀ k f, l[k]? = some f → P k f := fun k f e =>
  h k (List.mem_range.mpr (List.getElem?_eq_some_iff.mp e).1) f e

/-- An input with no stored sample has no output in range. -/
theorem resample_of_none {s : State} {i : Nat} (h : (s.input i).buf = []) (g n : Nat) : (s.resample g i n).2.2.2 = false := by
  have e : ∀ j : Int, (List.range 32).all (fun (k : Nat) => ((s.input i).at? (j - 15 + k)).isSome) = false := fun j =>
    List.all_eq_false.mpr ⟨0, by decide, by unfold FrontIn.at?; rw [h]; split <;> exact Bool.false_ne_true⟩
  unfold State.resample State.resampleAt
  simp only [e, Bool.and_false, Bool.false_eq_true, if_false]

/-- Whether a kind of product has somewhere to go does not rest on the aisles. -/
theorem productOpen_aisle (s : State) (a : Aisle) (k : Nat) : ({ s with aisle := a } : State).productOpen k ↔ s.productOpen k := Iff.rfl

/-! ## States and operands that meet the hypotheses of each clause of a statement -/

/-- The hypotheses of the clauses of Obligations.bell_engine_commands_complete can be met. -/
theorem met_bell_engine_commands_complete :
    (∃ (s : State), s.recovery = false ∧ s.imaged = true ∧ s.frameLenOk = true ∧ s.flag BEL.CTRL_RUN = false) ∧
    (∃ (s : State), s.recovery = false ∧ s.imaged = true ∧ s.frameLenOk = true ∧ s.flag BEL.CTRL_RUN = false ∧ s.bellState = stSTOPPED ∧ s.isLead = true ∧ s.secondLead = false) ∧
    (∃ (s : State), s.recovery = false ∧ s.imaged = true ∧ s.frameLenOk = true ∧ s.flag BEL.CTRL_RUN = false ∧ s.bellState = stSTOPPED ∧ s.isLead = false) ∧
    (∃ (s : State), s.flag BEL.CTRL_RUN = true) ∧
    (∃ (s : State), s.recovery = true) ∧
    (∃ (s : State), s.recovery = false ∧ s.imaged = false) ∧
    (∃ (s : State), s.flag BEL.CTRL_RUN = true ∧ s.bellState = stRINGING ∧ s.bell.stopLeft = 0) ∧
    (∃ (s : State), s.flag BEL.CTRL_RUN = true ∧ (s.bellState = stWAIT_LEAD ∨ s.bellState = stACQUIRE)) ∧
    (∃ (s : State), s.flag BEL.CTRL_RUN = true ∧ (s.bellState = stALIGNED ∨ s.bellState = stFLYWHEEL) ∧ s.bell.clearCnt = none) ∧
    (∃ (s : State), s.bellState = stREFUSED ∧ s.flag BEL.STAT_CONFLICT = false ∧ s.flag BEL.CTRL_RUN = false ∧ s.secondLead = false) ∧
    (∃ (v : Word) (s : State), s.isLead = true ∧ s.flag BEL.CTRL_RUN = false ∧ v.toNat < 1000000000) ∧
    (∃ (s : State), s.isLead = true ∧ s.flag BEL.CTRL_RUN = false) ∧
    (∃ (s : State), s.isLead = true ∧ s.flag BEL.CTRL_RUN = false) ∧
    (∃ (s : State), s.bell.heard = false ∧ (s.bellState = stALIGNED ∨ s.bellState = stFLYWHEEL)) ∧
    (∃ (s : State), s.bell.heard = false ∧ s.bellState = stACQUIRE ∧ s.lostLimit ≤ s.bell.miss + 1) ∧
    (∃ (s : State), s.bellState = stALIGNED ∧ s.lostLimit ≤ s.bell.miss) ∧
    (∃ (t : Nat) (s : State), s.bellState = stWAIT_LEAD ∧ s.bell.noLeadRaised = false ∧ s.bell.waitSince + max (2000000000 * ns) (3 * s.frameLen) ≤ (s.at t).up) ∧
    (∃ (slot : Nat) (t : Nat) (s : State), ((s.at t).curFrame.isSome = true) ∧ slot < 1024 ∧ ((s.at t).slotAt slot ≤ (s.at t).now) ∧ ((s.at t).slotNow = slot)) ∧
    (∃ (slot : Nat) (t : Nat) (s : State), ((s.at t).curFrame.isSome = true) ∧ slot < 1024 ∧ ((s.at t).slotAt slot ≤ (s.at t).now)) := by
  exact ⟨⟨(((State.reset.setFlag SEC.STATUS_RECOVERY false).setRegN BEL.SCHED_ID 7).setRegN BEL.FLEN_LO 1048576).setFlag BEL.CTRL_RUN false, by decide +kernel⟩,
    ⟨((((((State.reset.setFlag SEC.STATUS_RECOVERY false).setRegN BEL.SCHED_ID 7).setRegN BEL.FLEN_LO 1048576).setFlag BEL.CTRL_RUN false).setBellState 0).setFlag BEL.STATUS_LEAD true), by decide +kernel⟩,
    ⟨((((((State.reset.setFlag SEC.STATUS_RECOVERY false).setRegN BEL.SCHED_ID 7).setRegN BEL.FLEN_LO 1048576).setFlag BEL.CTRL_RUN false).setBellState 0).setFlag BEL.STATUS_LEAD false), by decide +kernel⟩,
    ⟨State.reset.setFlag BEL.CTRL_RUN true, by decide +kernel⟩,
    ⟨State.reset.setFlag SEC.STATUS_RECOVERY true, by decide +kernel⟩,
    ⟨(State.reset.setFlag SEC.STATUS_RECOVERY false).setRegN BEL.SCHED_ID 0, by decide +kernel⟩,
    ⟨((State.reset.setFlag BEL.CTRL_RUN true).setBellState 3).setBell { State.reset.bell with stopLeft := 0 }, by decide +kernel⟩,
    ⟨(State.reset.setFlag BEL.CTRL_RUN true).setBellState 1, by decide +kernel⟩,
    ⟨((State.reset.setFlag BEL.CTRL_RUN true).setBellState 5).setBell { State.reset.bell with clearCnt := none }, by decide +kernel⟩,
    ⟨((State.reset.setBellState 6).setFlag BEL.STAT_CONFLICT false).setFlag BEL.CTRL_RUN false, by decide +kernel⟩,
    ⟨999999999#32, (State.reset.setFlag BEL.STATUS_LEAD true).setFlag BEL.CTRL_RUN false, by decide +kernel⟩,
    ⟨(State.reset.setFlag BEL.STATUS_LEAD true).setFlag BEL.CTRL_RUN false, by decide +kernel⟩,
    ⟨(State.reset.setFlag BEL.STATUS_LEAD true).setFlag BEL.CTRL_RUN false, by decide +kernel⟩,
    ⟨(State.reset.setBellState 4).setBell { State.reset.bell with heard := false }, by decide +kernel⟩,
    ⟨((State.reset.setFld BEL.LOOP_LOST 8).setBellState 2).setBell { State.reset.bell with heard := false, miss := 7 }, by decide +kernel⟩,
    ⟨((State.reset.setFld BEL.LOOP_LOST 8).setBellState 4).setBell { State.reset.bell with miss := 8 }, by decide +kernel⟩,
    ⟨State.reset.now + 3000000000 * ns, ((State.reset.setRegN BEL.FLEN_LO 1048576).setBellState 1).setBell { State.reset.bell with noLeadRaised := false, waitSince := State.reset.up }, by decide +kernel⟩,
    ⟨1023, 0, rung State.reset 3 1023, by decide +kernel⟩,
    ⟨1023, 0, rung State.reset 3 1023, by decide +kernel⟩⟩

/-- The hypotheses of the clauses of Obligations.bell_and_items_complete can be met. -/
theorem met_bell_and_items_complete :
    (∃ (t : Nat) (s : State), s.bellState = stACQUIRE ∧ (s.at t).nextInstant ≤ ((s.at t).now : Int)) ∧
    (∃ (t : Nat) (s : State), s.isRinging = true ∧ (s.at t).nextInstant ≤ ((s.at t).now : Int) ∧ ((s.at t).inGap = false) ∧ s.domOn 1 = true ∧ s.lastBell = false ∧ s.can.parkAt = none) ∧
    (∃ (t : Nat) (s : State), s.isRinging = true ∧ (s.at t).nextInstant ≤ ((s.at t).now : Int) ∧ ((s.at t).inGap = false) ∧ s.domOn 1 = true ∧ s.lastBell = false ∧ s.can.parkAt = none) ∧
    (∃ (k : Nat) (t : Nat) (s : State) (e : SchedEntry), s.schedule[k]? = some e ∧ ((s.at t).itemDue k e = true)) ∧
    (∃ (k : Nat) (t : Nat) (s : State) (e : SchedEntry) (n : Nat), s.schedule[k]? = some e ∧ isJob e = true ∧ ((s.at t).itemDue k e = true) ∧ s.domOn 16 = true ∧ clsSkipped s k = false ∧ n ∈ s.jobCores e ∧ n < s.cores.length ∧ ((s.core n).jobq.length < 4)) ∧
    (∃ (k : Nat) (t : Nat) (s : State) (e : SchedEntry), s.schedule[k]? = some e ∧ ((s.at t).itemOver k e = true)) ∧
    (∃ (k : Nat) (t : Nat) (s : State) (e : SchedEntry) (n : Nat), s.schedule[k]? = some e ∧ isJob e = true ∧ ((s.at t).itemOver k e = true) ∧ k ∈ s.pushed ∧ s.domOn 16 = true ∧ n ∈ s.jobCores e ∧ jobNumber e ∉ (s.core n).done) ∧
    (∃ (k : Nat) (t : Nat) (s : State) (e : SchedEntry) (d : Nat) (p : Nat × Nat), BlockInv s ∧ s.schedule[k]? = some e ∧ e.engine = 14 ∧ ((s.at t).itemOver k e = true) ∧ s.corr.frame.isSome = true ∧ d < 6 ∧ p ∈ s.passList d ∧ ((s.die d).over p = false)) ∧
    (∃ (k : Nat) (t : Nat) (s : State) (e : SchedEntry) (n : Nat), s.schedule[k]? = some e ∧ isJob e = true ∧ ((s.at t).itemDue k e = true) ∧ s.domOn 16 = true ∧ clsSkipped s k = false ∧ n ∈ s.jobCores e ∧ n < s.cores.length ∧ ((s.core n).jobq.length < 4)) ∧
    (∃ (k : Nat) (t : Nat) (s : State) (e : SchedEntry) (n : Nat), s.schedule[k]? = some e ∧ isJob e = true ∧ ((s.at t).itemDue k e = true) ∧ s.domOn 16 = true ∧ clsSkipped s k = false ∧ n ∈ s.jobCores e ∧ 4 ≤ (s.core n).jobq.length) ∧
    (∃ (k : Nat) (t : Nat) (s : State) (e : SchedEntry), s.schedule[k]? = some e ∧ isJob e = true ∧ ((s.at t).itemDue k e = true) ∧ s.domOn 16 = true ∧ clsSkipped s k = true) ∧
    (∃ (k : Nat) (t : Nat) (s : State) (e : SchedEntry), s.schedule[k]? = some e ∧ isJob e = true ∧ ((s.at t).itemOver k e = true)) ∧
    (∃ (k : Nat) (t : Nat) (s : State) (e : SchedEntry) (n : Nat), s.schedule[k]? = some e ∧ isJob e = true ∧ ((s.at t).itemOver k e = true) ∧ k ∈ s.pushed ∧ s.domOn 16 = true ∧ n ∈ s.jobCores e ∧ jobNumber e ∉ (s.core n).done) := by
  exact ⟨⟨0, (rung State.reset 2 0).setBell { State.reset.bell with pend := none, nextIdx := 3, ticking := false }, by decide +kernel⟩,
    ⟨5242880 * ns, ({ rung State.reset 3 1023 with can := { State.reset.can with parkAt := none } }).setRegN PWR.DOM_ON 0x1FFFF, by decide +kernel⟩,
    ⟨5242880 * ns, ({ rung State.reset 3 1023 with can := { State.reset.can with parkAt := none } }).setRegN PWR.DOM_ON 0x1FFFF, by decide +kernel⟩,
    ⟨0, 0, item (rung State.reset 3 3) ⟨0x10, 1, 3, 5, 0, 0, 0⟩, ⟨0x10, 1, 3, 5, 0, 0, 0⟩, by decide +kernel⟩,
    ⟨0, 0, jobItem State.reset 3 2, ⟨0x14, 1, 3, 5, 0, 0, 0x70002⟩, 1, by decide +kernel⟩,
    ⟨0, 0, item (rung State.reset 3 6) ⟨0x10, 1, 3, 5, 0, 0, 0⟩, ⟨0x10, 1, 3, 5, 0, 0, 0⟩, by decide +kernel⟩,
    ⟨0, 0, { jobItem State.reset 6 2 with pushed := [0] }, ⟨0x14, 1, 3, 5, 0, 0, 0x70002⟩, 1, by decide +kernel⟩,
    ⟨0, 0, { item (((stalls State.reset 5 6 (State.reset.die 5))).setRegN (AIS.BEAM_INFO 0) 4) ⟨14, 1, 3, 5, 0, 0, 0⟩ with aisle := State.reset.aisle }, ⟨14, 1, 3, 5, 0, 0, 0⟩, 5, (1, 0), by unfold BlockInv Shape; decide +kernel⟩,
    ⟨0, 0, jobItem State.reset 3 2, ⟨0x14, 1, 3, 5, 0, 0, 0x70002⟩, 1, by decide +kernel⟩,
    ⟨0, 0, (jobItem State.reset 3 2).setCore 1 { State.reset.core 1 with jobq := [1, 2, 3, 4] }, ⟨0x14, 1, 3, 5, 0, 0, 0x70002⟩, 1, by decide +kernel⟩,
    ⟨0, 0, { ((item (rung State.reset 3 4) ⟨0x14, 1, 3, 5, 0, 0, 0x70003⟩).setRegN PWR.DOM_ON 0x1FFFF).setRegN CFG.CLE_LIVE 0xFFFF with shed := [0] }, ⟨0x14, 1, 3, 5, 0, 0, 0x70003⟩, by decide +kernel⟩,
    ⟨0, 0, item (rung State.reset 3 7) ⟨0x14, 1, 3, 5, 0, 0, 0x70003⟩, ⟨0x14, 1, 3, 5, 0, 0, 0x70003⟩, by decide +kernel⟩,
    ⟨0, 0, { jobItem State.reset 6 2 with pushed := [0] }, ⟨0x14, 1, 3, 5, 0, 0, 0x70002⟩, 1, by decide +kernel⟩⟩

/-- The hypotheses of the clauses of Obligations.lane_commands_complete can be met. -/
theorem met_lane_commands_complete :
    (∃ (n : Nat) (s : State), n < 80 ∧ ((s.lane n).on = false) ∧ s.fld (ING.LANE_CTRL_PWR n) ≤ 1) ∧
    (∃ (n : Nat) (s : State), n < 80 ∧ ((s.lane n).on = true) ∧ s.laneLocked n = false ∧ ((s.lane n).count = 63)) ∧
    (∃ (n : Nat) (s : State), n < 80 ∧ s.laneLocked n = true ∧ 31 ≤ (s.lane n).recentBad.length) ∧
    (∃ (n : Nat) (hdr : Nat) (s : State), n < 80 ∧ ((s.lane n).on = true) ∧ s.laneLocked n = true ∧ (hdr % 4 = 0 ∨ hdr % 4 = 3)) ∧
    (∃ (n : Nat) (hdr : Nat) (s : State), n < 80 ∧ ((s.lane n).on = true) ∧ s.laneLocked n = false ∧ (hdr % 4 = 0 ∨ hdr % 4 = 3)) ∧
    (∃ (n : Nat) (hdr : Nat) (s : State), BlockInv s ∧ n < 80 ∧ ((s.lane n).on = true) ∧ s.laneLocked n = false ∧ ((s.lane n).count = 63) ∧ (hdr % 4 = 1 ∨ hdr % 4 = 2)) ∧
    (∃ (n : Nat) (v : Word) (s : State), n < 80 ∧ v.toNat % 4 ≠ 3 ∧ (¬ (s.fld (ING.LANE_CTRL_PWR n) < v.toNat % 4 ∧ s.laneInGroup n = true))) ∧
    (∃ (n : Nat) (v : Word) (s : State), n < 80 ∧ v.toNat % 4 ≠ 3 ∧ s.fld (ING.LANE_CTRL_PWR n) < v.toNat % 4 ∧ s.laneInGroup n = true) ∧
    (∃ (n : Nat) (s : State), BlockInv s ∧ n < 80 ∧ s.laneLocked n = true ∧ s.flag (ING.LANE_CTRL_ADAPT n) = true) ∧
    (∃ (n : Nat) (s : State), BlockInv s ∧ n < 80 ∧ (¬ (s.laneLocked n = true ∧ s.flag (ING.LANE_CTRL_ADAPT n) = true))) ∧
    (∃ (n : Nat) (v : Word) (s : State), n < 80 ∧ v.toNat % 4 = 2 ∧ s.fld (ING.LANE_STATUS_PWR_NOW n) ≠ 2 ∧ s.laneInGroup n = false ∧ v.toNat.testBit 9 = false) ∧
    (∃ (n : Nat) (s : State), BlockInv s ∧ s.canLaneOn n = true ∧ ((s.canLane n).on = false) ∧ ((s.canLane n).locked = false) ∧ s.fld (CAN.PORT_CTRL_PWR (lanePort n)) ≤ 1) ∧
    (∃ (n : Nat) (s : State), BlockInv s ∧ s.canLaneOn n = true ∧ ((s.canLane n).on = true) ∧ ((s.canLane n).locked = false) ∧ ((s.canLane n).count = 63)) ∧
    (∃ (n : Nat) (hdr : Nat) (s : State), BlockInv s ∧ s.canLaneOn n = true ∧ ((s.canLane n).on = true) ∧ ((s.canLane n).locked = true) ∧ (hdr % 4 = 0 ∨ hdr % 4 = 3) ∧ 31 ≤ (s.canLane n).recentBad.length ∧ s.portLive (lanePort n) = true) ∧
    (∃ (n : Nat) (s : State), n < 80 ∧ ((s.lane n).adapting = true)) := by
  exact ⟨⟨79, State.reset.setFld (ING.LANE_CTRL_PWR 79) 1 |>.setLane 79 { State.reset.lane 79 with on := false }, by decide +kernel⟩,
    ⟨79, (State.reset.setFlag (ING.LANE_STATUS_LOCK 79) false).setLane 79 { State.reset.lane 79 with on := true, count := 63 }, by decide +kernel⟩,
    ⟨79, (State.reset.setFlag (ING.LANE_STATUS_LOCK 79) true).setLane 79 { State.reset.lane 79 with bad := List.range 31 }, by decide +kernel⟩,
    ⟨0, 3, (State.reset.setFlag (ING.LANE_STATUS_LOCK 0) true).setLane 0 { State.reset.lane 0 with on := true }, by decide +kernel⟩,
    ⟨0, 0, (State.reset.setFlag (ING.LANE_STATUS_LOCK 0) false).setLane 0 { State.reset.lane 0 with on := true }, by decide +kernel⟩,
    ⟨79, 1, (State.reset.setFlag (ING.LANE_STATUS_LOCK 79) false).setLane 79 { State.reset.lane 79 with on := true, count := 63 }, by unfold BlockInv Shape; decide +kernel⟩,
    ⟨79, 2#32, ((State.reset.setFld (ING.LANE_CTRL_PWR 79) 2)), by decide +kernel⟩,
    ⟨3, 1#32, ((group0 State.reset).setFld (ING.LANE_CTRL_PWR 3) 0).setFlag (ING.GRP_CTRL_EN 0) true, by decide +kernel⟩,
    ⟨79, (State.reset.setFlag (ING.LANE_STATUS_LOCK 79) true).setFlag (ING.LANE_CTRL_ADAPT 79) true, by unfold BlockInv Shape; decide +kernel⟩,
    ⟨79, State.reset.setFlag (ING.LANE_STATUS_LOCK 79) false, by unfold BlockInv Shape; decide +kernel⟩,
    ⟨79, 2#32, (State.reset.setFld (ING.LANE_STATUS_PWR_NOW 79) 0), by decide +kernel⟩,
    ⟨207, (State.reset.setRegN PWR.DOM_ON 0x1FFFF).setFld (CAN.PORT_CTRL_PWR 3) 1, by unfold BlockInv Shape; decide +kernel⟩,
    ⟨207, ((State.reset.setRegN PWR.DOM_ON 0x1FFFF).setCanLane 207 { CanLane.reset with on := true, count := 63 }), by unfold BlockInv Shape; decide +kernel⟩,
    ⟨207, 3, { (State.reset.setRegN PWR.DOM_ON 0x1FFFF).setFld (CAN.PORT_STATUS_STATE 3) 3 with can := { State.reset.can with lanes := setAt State.reset.can.lanes 127 { CanLane.reset with on := true, locked := true, bad := List.range 31 } } }, by unfold BlockInv Shape; decide +kernel⟩,
    ⟨79, State.reset.setLane 79 { State.reset.lane 79 with adapting := true }, by decide +kernel⟩⟩

/-- The hypotheses of the clauses of Obligations.group_commands_complete can be met. -/
theorem met_group_commands_complete :
    (∃ (g : Nat) (v : Word) (s : State), g < 32 ∧ v.toNat.testBit 0 = true ∧ s.grpOn g = false ∧ (∀ k, k < s.grpLanes g → s.laneActive (s.grpFirst g + k) = true)) ∧
    (∃ (g : Nat) (v : Word) (s : State), g < 32 ∧ v.toNat.testBit 0 = true ∧ s.grpOn g = false ∧ (∃ k, k < s.grpLanes g ∧ s.laneActive (s.grpFirst g + k) = false)) ∧
    (∃ (g : Nat) (s : State), g < 32) ∧
    (∃ (g : Nat) (t : Nat) (l : List LaneFrame) (a : Nat) (s0 : Nat) (s : State), s.works 2 21 = true ∧ g < 32 ∧ s.grpOn g = true ∧ s.grpDefined g = true ∧ s.rate ≠ 0 ∧ l.length = s.grpLanes g ∧ (∀ k f, l[k]? = some f → (s.lane (s.grpFirst g + k)).got = none ∧ s.checkLane g k f = ⟨true, true, true, true⟩ ∧ leAt f.index 0 8 = s0 ∧ byteAt f.start 3 = 0 ∧ a ≤ f.startAt ∧ f.startAt ≤ a + 64) ∧ ((s.at t).now * s.rate < s.releaseScaled s0) ∧ s.releaseScaled (s0 + s.grpSteps g - 1) ≤ (s.at t).now * s.rate + 32000 * ns * s.rate) ∧
    (∃ (g : Nat) (l : List LaneFrame) (k : Nat) (f : LaneFrame) (s : State), s.works 2 21 = true ∧ g < 32 ∧ s.grpOn g = true ∧ s.grpDefined g = true ∧ s.rate ≠ 0 ∧ l[k]? = some f ∧ ((s.lane (s.grpFirst g + k)).got = none) ∧ ((s.checkLane g k f).crc = false)) ∧
    (∃ (k : Nat) (s : State), s.works 2 21 = true ∧ s.rate ≠ 0 ∧ s.releaseNext k = true) ∧
    (∃ (k : Nat) (g : Nat) (s : State), s.works 2 21 = true ∧ s.rate ≠ 0 ∧ s.releaseNext k = true ∧ g < 32 ∧ s.grpDefined g = true ∧ s.grpOn g = true ∧ (∀ f ∈ (s.grp g).frames, ¬ (f.s0 ≤ k ∧ k < f.s0 + f.steps))) ∧
    (∃ (g : Nat) (te : Nat) (t : Nat) (s : State), ((s.at t).returnOpen g = true) ∧ ((s.at t).epochDue g te = true)) ∧
    (∃ (g : Nat) (t : Nat) (s : State), ((s.at t).returnOpen g = true) ∧ s.flag ING.CTRL_ACK_EN = true ∧ ((s.grp g).lastAck = none) ∧ ((s.at t).epochDue g (((s.at t).now + 500000000 * ns) / (1000000000 * ns)) = false)) := by
  exact ⟨⟨0, 1#32, ([0,1,2,3].foldl (fun x k => x.setFld (ING.LANE_STATUS_PWR_NOW k) 0) (group0 State.reset)).setFlag (ING.GRP_CTRL_EN 0) false, by decide +kernel⟩,
    ⟨0, 1#32, ((group0 State.reset).setFld (ING.LANE_STATUS_PWR_NOW 2) 2).setFlag (ING.GRP_CTRL_EN 0) false, by decide +kernel⟩,
    ⟨31, State.reset, by decide +kernel⟩,
    ⟨0, 0, [0, 1, 2, 3].map laneFrame, 0, 0, { ingesting State.reset with now := (ingesting State.reset).epochT + 9000 * ns }, by decide +kernel, by decide +kernel, by decide +kernel, by decide +kernel, by decide +kernel, by decide +kernel,
      of_each (by decide +kernel), by decide +kernel⟩,
    ⟨0, [0, 1, 2, 3].map (fun k => { laneFrame k with data := List.replicate 16 6#8 }), 3, { laneFrame 3 with data := List.replicate 16 6#8 }, ingesting State.reset, by decide +kernel⟩,
    ⟨0, { State.reset.setRegN ING.RATE 3000000 with ing := { State.reset.ing with newest := none } }, by decide +kernel⟩,
    ⟨0, 0, { ingesting State.reset with ing := { (ingesting State.reset).ing with groups := setAt (ingesting State.reset).ing.groups 0 { State.reset.grp 0 with frames := [] } } }, by decide +kernel⟩,
    ⟨0, 1, 550000000 * ns, ((ingesting State.reset).setFlag ING.CTRL_RET_EN true).setGrp 0 { State.reset.grp 0 with lastEpoch := none }, by decide +kernel⟩,
    ⟨0, 0, (((ingesting State.reset).setFlag ING.CTRL_RET_EN true).setFlag ING.CTRL_ACK_EN true).setGrp 0 { State.reset.grp 0 with lastAck := none }, by decide +kernel⟩⟩

/-- The hypotheses of the clauses of Obligations.front_filter_commands_complete can be met. -/
theorem met_front_filter_commands_complete :
    (∃ (s : State), tooClose s.ing.newest (s.pair FFL.NCO_RST_LO FFL.NCO_RST_HI) = false) ∧
    (∃ (s : State), tooClose s.ing.newest (s.pair FFL.NCO_RST_LO FFL.NCO_RST_HI) = true) ∧
    (∃ (k : Nat) (s : State), s.front.ncoPend = some k ∧ s.nextStepIs k = true) ∧
    (∃ (n : Nat) (s : State), s.works 2 22 = true ∧ s.nextOutIs n = true ∧ s.rate ≠ 0) ∧
    (∃ (g : Nat) (i : Nat) (n : Nat) (s : State), s.works 2 22 = true ∧ s.nextOutIs n = true ∧ s.rate ≠ 0 ∧ n % max 1 s.frameSamples ≠ 0 ∧ g < 32 ∧ s.grpDefined g = true ∧ i ∈ s.grpInputList g ∧ ((s.resample g i n).2.2.2 = false)) ∧
    (∃ (g : Nat) (i : Nat) (n : Nat) (s : State), BlockInv s ∧ s.works 2 22 = true ∧ s.nextOutIs n = true ∧ s.rate ≠ 0 ∧ n % max 1 s.frameSamples ≠ 0 ∧ g < 32 ∧ s.grpDefined g = true ∧ i < 128 ∧ i ∈ s.grpInputList g ∧ (∀ h, h < 32 → s.grpDefined h = true → i ∈ s.grpInputList h → h = g) ∧ s.outNeeded n = true) ∧
    (∃ (v : Word) (s : State), s.front.poly.inUse false (v.toNat % 2) = true) ∧
    (∃ (v : Word) (t : Nat) (s : State), s.front.poly.inUse false (v.toNat % 2) = false ∧ ((s.at t).beforeDeadline ((s.at t).fullFrame 31 (v.toNat / 2)) = true)) ∧
    (∃ (v : Word) (t : Nat) (s : State), s.front.poly.inUse false (v.toNat % 2) = false ∧ ((s.at t).beforeDeadline ((s.at t).fullFrame 31 (v.toNat / 2)) = false)) ∧
    (∃ (f : Nat) (s : State), s.nextOutIs (f * s.frameSamples) = true ∧ s.front.poly.decided ≠ some f) ∧
    (∃ (f : Nat) (k : Nat) (s : State), s.nextOutIs (f * s.frameSamples) = true ∧ s.front.poly.decided ≠ some f ∧ s.front.poly.committed f = some k) ∧
    (∃ (f : Nat) (s : State), s.nextOutIs ((f + 1) * s.frameSamples) = true ∧ s.front.poly.decided ≠ some (f + 1) ∧ s.front.poly.committed (f + 1) = none ∧ s.front.poly.frame = some f ∧ s.front.poly.expired = false) ∧
    (∃ (f : Nat) (s : State), s.nextOutIs (f * s.frameSamples) = true ∧ s.front.poly.decided ≠ some f ∧ ((s.front.poly.change f).expired = true) ∧ s.front.poly.expired = false) ∧
    (∃ (s : State), s.accessible 0 FFL.CDATA = true) ∧
    (∃ (s : State), s.accessible 0 FFL.CDATA = true ∧ s.fld FFL.CSEL_KIND = 1) ∧
    (∃ (s : State), s.accessible 0 FFL.CDATA = true ∧ s.fld FFL.CSEL_KIND = 1 ∧ s.fld FFL.CSEL_BANK ≠ s.fld (FFL.GRP_BANK_RES (s.fld FFL.CSEL_GROUP)) ∧ Store.has s.front.swaps (s.fld FFL.CSEL_GROUP) = false ∧ BlockInv s) ∧
    (∃ (v : Word) (s : State), v.toNat.testBit 7 = true ∧ Store.has s.front.swaps (v.toNat % 32) = false ∧ tooClose s.ing.newest (s.pair FFL.SWAP_LO FFL.SWAP_HI) = false) ∧
    (∃ (v : Word) (s : State), v.toNat.testBit 7 = true ∧ Store.has s.front.swaps (v.toNat % 32) = true) ∧
    (∃ (g : Nat) (w : Nat) (c : Bool) (r : Bool) (s : State), g < 32 ∧ Store.get? s.front.swaps g = some (w, c, r) ∧ (∀ i ∈ s.grpInputList g, s.crossed g i w c r = true)) ∧
    (∃ (i : Nat) (e : ThrEvent) (l : List ThrEvent) (n : Nat) (s : State), BlockInv s ∧ i < 128 ∧ ((s.input i).events = e :: l) ∧ ((s.input i).newest = some n) ∧ e.last + 64 ≤ n) ∧
    (∃ (i : Nat) (e : ThrEvent) (l : List ThrEvent) (n : Nat) (s : State), i < 128 ∧ ((s.input i).events = e :: l) ∧ ((s.input i).newest = some n) ∧ e.last + 64 ≤ n ∧ e.thrB = false) := by
  exact ⟨⟨{ State.reset.setPair FFL.NCO_RST_LO FFL.NCO_RST_HI 1048576 with ing := { State.reset.ing with newest := some 0 } }, by decide +kernel⟩,
    ⟨{ State.reset.setPair FFL.NCO_RST_LO FFL.NCO_RST_HI 1048575 with ing := { State.reset.ing with newest := some 0 } }, by decide +kernel⟩,
    ⟨7, { State.reset with ing := { State.reset.ing with newest := some 6 }, front := { State.reset.front with ncoPend := some 7 } }, by decide +kernel⟩,
    ⟨8, { State.reset.setRegN ING.RATE 3000000 with front := { State.reset.front with newestOut := some 7 } }, by decide +kernel⟩,
    ⟨0, 0, 1, { ingesting State.reset with front := { State.reset.front with newestOut := some 0 } }, by (iterate 7 refine And.intro (by decide +kernel) ?_); exact resample_of_none (by decide +kernel) _ _⟩,
    ⟨0, 0, 1, { ingesting State.reset with front := { State.reset.front with newestOut := some 0 }, chan := { State.reset.chan with newestSpec := none } }, by unfold BlockInv Shape; decide +kernel⟩,
    ⟨1#32, { State.reset with front := { State.reset.front with poly := { State.reset.front.poly with active := 1, frame := some 3 } } }, by decide +kernel⟩,
    ⟨0xB#32, 0, { rung State.reset 3 0 with front := { State.reset.front with poly := { State.reset.front.poly with active := 0, frame := some 3 } } }, by decide +kernel⟩,
    ⟨8#32, 0, { rung State.reset 3 0 with front := { State.reset.front with poly := { State.reset.front.poly with active := 1, frame := some 3 } } }, by decide +kernel⟩,
    ⟨4, { State.reset with front := { State.reset.front with newestOut := some (4 * State.reset.frameSamples - 1), poly := { State.reset.front.poly with active := 1, frame := some 4, decided := some 3 } } }, by decide +kernel⟩,
    ⟨4, 1, { State.reset with front := { State.reset.front with newestOut := some (4 * State.reset.frameSamples - 1), poly := { State.reset.front.poly with active := 0, frame := some 3, pend := [(1, 4)], decided := some 3 } } }, by decide +kernel⟩,
    ⟨4, { State.reset with front := { State.reset.front with newestOut := some (5 * State.reset.frameSamples - 1), poly := { State.reset.front.poly with active := 1, frame := some 4, pend := [], expired := false, decided := some 4 } } }, by decide +kernel⟩,
    ⟨6, { State.reset with front := { State.reset.front with newestOut := some (6 * State.reset.frameSamples - 1), poly := { State.reset.front.poly with active := 1, frame := some 4, pend := [], expired := false, decided := some 5 } } }, by decide +kernel⟩,
    ⟨(masters State.reset).setFld FFL.CADDR_ADDR 0x7FFF, by decide +kernel⟩,
    ⟨(masters State.reset).setFld FFL.CSEL_KIND 1, by decide +kernel⟩,
    ⟨{ (((((masters State.reset).setFld FFL.CSEL_KIND 1).setFld FFL.CSEL_GROUP 31).setFld FFL.CSEL_BANK 1).setFld (FFL.GRP_BANK_RES 31) 0) with front := { State.reset.front with swaps := [] } }, by unfold BlockInv Shape; decide +kernel⟩,
    ⟨0xFF#32, { State.reset.setPair FFL.SWAP_LO FFL.SWAP_HI 1048576 with ing := { State.reset.ing with newest := some 0 }, front := { State.reset.front with swaps := [] } }, by decide +kernel⟩,
    ⟨0xFF#32, { State.reset with front := { State.reset.front with swaps := [(31, 5, true, false)] } }, by decide +kernel⟩,
    ⟨0, 5, true, false, { group0 State.reset with front := { State.reset.front with swaps := [(0, 5, true, false)], ins := State.reset.front.ins.map (fun f => { f with newest := some 5 }) } }, by decide +kernel⟩,
    ⟨127, ⟨5, 2, false, 9, 4⟩, [], 69, State.reset.setInput 127 { State.reset.input 127 with events := [⟨5, 2, false, 9, 4⟩], newest := some 69 }, by unfold BlockInv Shape; decide +kernel⟩,
    ⟨127, ⟨5, 0, false, 0, 0⟩, [], 69, { State.reset with front := { State.reset.front with ins := setAt State.reset.front.ins 127 { State.reset.input 127 with events := [⟨5, 0, false, 0, 0⟩], newest := some 69 } } }, by decide +kernel⟩⟩

/-- The hypotheses of the clauses of Obligations.channelizer_commands_complete can be met. -/
theorem met_channelizer_commands_complete :
    (∃ (m : Nat) (s : State), s.works 2 23 = true ∧ s.nextSpecIs m = true ∧ s.supportReady m = true) ∧
    (∃ (m : Nat) (s : State), s.works 2 23 = true ∧ s.nextSpecIs m = true ∧ s.supportReady m = true ∧ s.windowDue m = false ∧ m % s.specW ≠ 0) ∧
    (∃ (m : Nat) (s : State), s.works 2 23 = true ∧ s.nextSpecIs m = true ∧ s.supportReady m = true ∧ s.windowDue m = true) ∧
    (∃ (s : State), s.accessible 0 CHN.WDATA = true) ∧
    (∃ (s : State), BlockInv s ∧ s.accessible 0 CHN.WDATA = true ∧ s.fld CHN.WSEL_BANK ≠ s.fld CHN.SWAP_CMD_BANK ∧ s.chan.swap = none ∧ s.fld CHN.WADDR_ADDR < 4 * s.chanN) ∧
    (∃ (s : State), s.chan.swap = none ∧ tooClose s.front.newestOut (s.pair CHN.SWAP_LO CHN.SWAP_HI) = false) ∧
    (∃ (m : Nat) (s : State), s.works 2 23 = true ∧ s.nextSpecIs m = true ∧ s.windowDue m = true) ∧
    (∃ (v : Word) (t : Nat) (s : State), s.chan.poly.inUse false (v.toNat % 2) = false ∧ ((s.at t).beforeDeadline ((s.at t).fullFrame 31 (v.toNat / 2)) = true)) ∧
    (∃ (v : Word) (s : State), s.chan.poly.inUse false (v.toNat % 2) = true) ∧
    (∃ (f : Nat) (s : State), s.nextSpecIs (f * s.specW) = true ∧ s.chan.poly.decided ≠ some f) ∧
    (∃ (f : Nat) (k : Nat) (s : State), s.nextSpecIs (f * s.specW) = true ∧ s.chan.poly.decided ≠ some f ∧ s.chan.poly.committed f = some k) ∧
    (∃ (f : Nat) (s : State), s.nextSpecIs (f * s.specW) = true ∧ s.chan.poly.decided ≠ some f ∧ ((s.chan.poly.change f).expired = true) ∧ s.chan.poly.expired = false) ∧
    (∃ (s : State), s.accessible 0 CHN.SDATA = true) ∧
    (∃ (s : State), BlockInv s ∧ s.accessible 0 CHN.SDATA = true ∧ s.chan.scale.inUse true (s.fld CHN.SSEL_BANK) = false ∧ s.fld CHN.SADDR_ADDR < 128 * s.chanN) ∧
    (∃ (v : Word) (t : Nat) (s : State), s.chan.scale.inUse true (v.toNat % 2) = false ∧ ((s.at t).beforeDeadline ((s.at t).fullFrame 31 (v.toNat / 2)) = true)) ∧
    (∃ (f : Nat) (k : Nat) (s : State), s.nextSpecIs (f * s.specW) = true ∧ s.chan.scale.committed f = some k) := by
  exact ⟨⟨0, { State.reset with chan := { State.reset.chan with newestSpec := none }, front := { State.reset.front with newestOut := some (State.reset.chanN * 5 / 2 - 1) } }, by decide +kernel⟩,
    ⟨1, { State.reset.setRegN PWR.DOM_ON 0x1FFFF with chan := { State.reset.chan with newestSpec := some 0, swap := none }, front := { State.reset.front with newestOut := some (State.reset.chanN * 7 / 2 - 1) } }, by decide +kernel⟩,
    ⟨2, { State.reset.setRegN PWR.DOM_ON 0x1FFFF with chan := { State.reset.chan with newestSpec := some 1, swap := some (State.reset.chanN / 2) }, front := { State.reset.front with newestOut := some (State.reset.chanN * 9 / 2 - 1) } }, by decide +kernel⟩,
    ⟨(masters State.reset).setFld CHN.WADDR_ADDR 0x1FFFF, by decide +kernel⟩,
    ⟨{ (((masters State.reset).setFld CHN.WSEL_BANK 1).setFld CHN.SWAP_CMD_BANK 0).setFld CHN.WADDR_ADDR 16383 with chan := { State.reset.chan with swap := none } }, by unfold BlockInv Shape; decide +kernel⟩,
    ⟨{ State.reset.setPair CHN.SWAP_LO CHN.SWAP_HI 1048576 with chan := { State.reset.chan with swap := none }, front := { State.reset.front with newestOut := some 0 } }, by decide +kernel⟩,
    ⟨2, { State.reset with chan := { State.reset.chan with swap := some 2048, newestSpec := some 1 } }, by decide +kernel⟩,
    ⟨0xB#32, 0, { rung State.reset 3 0 with chan := { State.reset.chan with poly := { State.reset.chan.poly with active := 0, frame := some 3 } } }, by decide +kernel⟩,
    ⟨1#32, { State.reset with chan := { State.reset.chan with poly := { State.reset.chan.poly with active := 1, frame := some 3 } } }, by decide +kernel⟩,
    ⟨4, { State.reset with chan := { State.reset.chan with newestSpec := some (4 * State.reset.specW - 1), poly := { State.reset.chan.poly with active := 1, frame := some 4, decided := some 3 } } }, by decide +kernel⟩,
    ⟨4, 1, { State.reset with chan := { State.reset.chan with newestSpec := some (4 * State.reset.specW - 1), poly := { State.reset.chan.poly with active := 0, frame := some 3, pend := [(1, 4)], decided := some 3 } } }, by decide +kernel⟩,
    ⟨6, { State.reset with chan := { State.reset.chan with newestSpec := some (6 * State.reset.specW - 1), poly := { State.reset.chan.poly with active := 1, frame := some 4, pend := [], expired := false, decided := some 5 } } }, by decide +kernel⟩,
    ⟨(masters State.reset).setFld CHN.SADDR_ADDR 0x3FFFFF, by decide +kernel⟩,
    ⟨{ ((masters State.reset).setFld CHN.SSEL_BANK 1).setFld CHN.SADDR_ADDR (128 * State.reset.chanN - 1) with chan := { State.reset.chan with scale := { State.reset.chan.scale with active := 0 } } }, by unfold BlockInv Shape; decide +kernel⟩,
    ⟨0xB#32, 0, { rung State.reset 3 0 with chan := { State.reset.chan with scale := { State.reset.chan.scale with active := 0 } } }, by decide +kernel⟩,
    ⟨4, 1, { State.reset with chan := { State.reset.chan with newestSpec := some (4 * State.reset.specW - 1), scale := { State.reset.chan.scale with pend := [(1, 4)], decided := some 3 } } }, by decide +kernel⟩⟩

/-- The hypotheses of the clauses of Obligations.pitch_commands_complete can be met. -/
theorem met_pitch_commands_complete :
    (∃ (s : State), s.hasPitch = true) ∧
    (∃ (w : PitchWord) (s : State), pitchWordValid w = true ∧ s.fld PIT.STATUS_STATE = 3) ∧
    (∃ (w : PitchWord) (s : State), pitchWordValid w = true ∧ s.fld PIT.STATUS_STATE = 0 ∧ s.pit.lastWord = some (w.word % 256) ∧ w.word % 256 / 64 = 2 ∧ w.word % 64 ≠ 0) ∧
    (∃ (t : Nat) (s : State), s.fld PIT.STATUS_STATE = 0 ∧ s.pit.timerOn = true ∧ s.pit.timerAt + pitchTimer ≤ (s.at t).up) ∧
    (∃ (s : State), s.bellState = stSTOPPED ∧ s.isLead = false) ∧
    (∃ (s : State), s.bellState = stSTOPPED ∧ s.isLead = true) ∧
    (∃ (s : State), s.bellState ≠ stSTOPPED) ∧
    (∃ (v : Word) (s : State), v.toNat.testBit 6 = true ∧ s.fld PIT.STATUS_STATE = 2 ∧ v.toNat % 64 ≠ 0) ∧
    (∃ (v : Word) (s : State), v.toNat.testBit 6 = true ∧ (¬ (s.fld PIT.STATUS_STATE = 2 ∧ v.toNat % 64 ≠ 0))) ∧
    (∃ (f : List Byte) (s : State), beAt f 12 2 = 0x88B5 ∧ beAt (f.drop 14) 0 2 = 1 ∧ s.fld PIT.STATUS_STATE = 2 ∧ beAt (f.drop 14) 2 8 = s.serial ∧ 0 < beAt (f.drop 14) 10 1 ∧ beAt (f.drop 14) 10 1 ≤ 63 ∧ beAt (f.drop 14) 11 1 = 0) := by
  exact ⟨⟨canopy State.reset, by decide +kernel⟩,
    ⟨⟨0x7D82, true⟩, State.reset.setFld PIT.STATUS_STATE 3, by decide +kernel⟩,
    ⟨⟨0x7D82, true⟩, { State.reset.setFld PIT.STATUS_STATE 0 with pit := { State.reset.pit with lastWord := some 0x82 } }, by decide +kernel⟩,
    ⟨0, { State.reset.setFld PIT.STATUS_STATE 0 with pit := { State.reset.pit with timerOn := true, timerAt := 0 }, up := 100000000 * ns }, by decide +kernel⟩,
    ⟨(State.reset.setBellState 0).setFlag BEL.STATUS_LEAD false, by decide +kernel⟩,
    ⟨(State.reset.setBellState 0).setFlag BEL.STATUS_LEAD true, by decide +kernel⟩,
    ⟨State.reset.setBellState 1, by decide +kernel⟩,
    ⟨0x7F#32, State.reset.setFld PIT.STATUS_STATE 2, by decide +kernel⟩,
    ⟨0x40#32, State.reset.setFld PIT.STATUS_STATE 2, by decide +kernel⟩,
    ⟨List.replicate 12 0#8 ++ [0x88#8, 0xB5#8, 0#8, 1#8] ++ List.replicate 8 0#8 ++ [63#8, 0#8], { State.reset.setFld PIT.STATUS_STATE 2 with serial := 0 }, by decide +kernel⟩⟩

/-- The hypotheses of the clauses of Obligations.port_commands_complete can be met. -/
theorem met_port_commands_complete :
    (∃ (p : Nat) (v : Word) (s : State), s.flag (CAN.PORT_CTRL_EN (p % 4)) = false ∧ v.toNat % 4 ≠ 3) ∧
    (∃ (p : Nat) (v : Word) (s : State), s.flag (CAN.PORT_CTRL_EN (p % 4)) = true ∧ v.toNat % 4 ≠ 3 ∧ s.regN (CAN.PORT_CTRL (p % 4)) % 4 < v.toNat % 4) ∧
    (∃ (p : Nat) (s : State), s.regN (CAN.PORT_CTRL (p % 4)) % 4 = 0 ∧ s.portState (p % 4) = 0 ∧ s.domOn 10 = true) ∧
    (∃ (p : Nat) (s : State), s.portState (p % 4) ≠ 0) ∧
    (∃ (p : Nat) (s : State), s.portState (p % 4) = 1 ∧ s.domOn 10 = true ∧ s.portAligned (p % 4) = true) ∧
    (∃ (p : Nat) (s : State), s.portLive (p % 4) = true ∧ s.portUp (p % 4) = false) ∧
    (∃ (p : Nat) (s : State), BlockInv s ∧ s.portUp (p % 4) = true) ∧
    (∃ (p : Nat) (k : Packet) (h : Hello) (s : State), BlockInv s ∧ k.body = .hello h ∧ s.portState (p % 4) = 2 ∧ s.helloOk (p % 4) h = true) ∧
    (∃ (p : Nat) (k : Packet) (h : Hello) (s : State), k.body = .hello h ∧ s.portState (p % 4) = 2 ∧ s.helloOk (p % 4) h = false) ∧
    (∃ (p : Nat) (s : State), s.portLive (p % 4) = true) ∧
    (∃ (p : Nat) (t : Nat) (s : State), s.portLive (p % 4) = true ∧ ((s.port (p % 4)).helloAt + 5000000 * ns ≤ (s.at t).up)) := by
  exact ⟨⟨3, 2#32, State.reset.setFlag (CAN.PORT_CTRL_EN 3) false, by decide +kernel⟩,
    ⟨3, 1#32, (State.reset.setRegN (CAN.PORT_CTRL 3) 0).setFlag (CAN.PORT_CTRL_EN 3) true, by decide +kernel⟩,
    ⟨3, (State.reset.setRegN (CAN.PORT_CTRL 3) 0).setFld (CAN.PORT_STATUS_STATE 3) 0, by decide +kernel⟩,
    ⟨3, State.reset.setFld (CAN.PORT_STATUS_STATE 3) 4, by decide +kernel⟩,
    ⟨3, { (State.reset.setRegN PWR.DOM_ON 0x1FFFF).setFld (CAN.PORT_STATUS_STATE 3) 1 with can := { State.reset.can with lanes := List.replicate 127 { CanLane.reset with on := true, locked := true, align := some 64 } ++ [{ CanLane.reset with on := true, locked := true, align := some 0 }] } }, by decide +kernel⟩,
    ⟨3, portIn State.reset 3 2, by decide +kernel⟩,
    ⟨3, portIn State.reset 3 3, by unfold BlockInv Shape; decide +kernel⟩,
    ⟨1, { body := .hello { serial := 9, pitch := 2, lead := false, parked := false, port := 3, aligned := true, conflict := false, pitched := true, topo := 2, xm1 := 1, ym1 := 1, schedId := 7, leadSerial := 0 } }, { serial := 9, pitch := 2, lead := false, parked := false, port := 3, aligned := true, conflict := false, pitched := true, topo := 2, xm1 := 1, ym1 := 1, schedId := 7, leadSerial := 0 }, (portIn State.reset 1 2).setRegN BEL.SCHED_ID 7, by unfold BlockInv Shape; decide +kernel⟩,
    ⟨1, { body := .hello { serial := 9, pitch := 2, lead := false, parked := false, port := 3, aligned := true, conflict := false, pitched := true, topo := 2, xm1 := 1, ym1 := 1, schedId := 8, leadSerial := 0 } }, { serial := 9, pitch := 2, lead := false, parked := false, port := 3, aligned := true, conflict := false, pitched := true, topo := 2, xm1 := 1, ym1 := 1, schedId := 8, leadSerial := 0 }, (portIn State.reset 1 2).setRegN BEL.SCHED_ID 7, by decide +kernel⟩,
    ⟨3, portIn State.reset 3 4, by decide +kernel⟩,
    ⟨3, State.reset.now + 5000000 * ns, (portIn State.reset 3 2).setPort 3 { State.reset.port 3 with helloAt := State.reset.up }, by decide +kernel⟩⟩

/-- The hypotheses of the clauses of Obligations.packet_reception_completes can be met. -/
theorem met_packet_reception_completes :
    (∃ (p : Nat) (k : Packet) (tr : Trailer) (l : List Byte) (s : State), k.body = .data l ∧ acceptable s (p % 4) k tr ∧ s.routePort k = none ∧ s.ownParked (s.frameOf k) = false) ∧
    (∃ (p : Nat) (k : Packet) (tr : Trailer) (l : List Byte) (q : Nat) (s : State), k.body = .data l ∧ acceptable s (p % 4) k tr ∧ s.routePort k = some q ∧ s.portUp q = false) ∧
    (∃ (p : Nat) (k : Packet) (l : List Byte) (s : State), k.body = .data l ∧ s.portLive (p % 4) = true) ∧
    (∃ (p : Nat) (k : Packet) (tr : Trailer) (s : State), acceptable s (p % 4) k tr) ∧
    (∃ (p : Nat) (tr : Trailer) (s : State), BlockInv s ∧ tr.cred = [] ∧ tr.nak = false ∧ s.portUp (p % 4) = true) ∧
    (∃ (p : Nat) (k : Packet) (tr : Trailer) (t1 : Nat) (s : State), k.body = .probe t1 ∧ acceptable s (p % 4) k tr) ∧
    (∃ (p : Nat) (k : Packet) (tr : Trailer) (t1 : Nat) (t2 : Nat) (t3 : Nat) (s : State), k.body = .probeReply t1 t2 t3 ∧ acceptable s (p % 4) k tr) ∧
    (∃ (p : Nat) (k : Packet) (tr : Trailer) (w : BellWord) (s : State), k.body = .bell w ∧ acceptable s (p % 4) k tr ∧ s.isLead = false ∧ s.bellState = stWAIT_LEAD ∧ s.bellPort = some (p % 4) ∧ w.dNs * ns + w.dFrac = s.frameLen) ∧
    (∃ (p : Nat) (k : Packet) (tr : Trailer) (w : BellWord) (s : State), k.body = .bell w ∧ acceptable s (p % 4) k tr ∧ s.isLead = false ∧ s.bellState = stWAIT_LEAD ∧ s.bellPort = some (p % 4) ∧ w.dNs * ns + w.dFrac ≠ s.frameLen) ∧
    (∃ (p : Nat) (k : Packet) (tr : Trailer) (c : Cast) (s : State), k.body = .cast c ∧ c.ckind = 1 ∧ acceptable s (p % 4) k tr ∧ (∀ q ∈ s.can.castsSeen, q.1 ≠ c.origin) ∧ s.flag RRG.CTRL_CAST_EN = true ∧ ((s.fld RRG.TRIG_EN).testBit 4 = true) ∧ s.isParked = false) ∧
    (∃ (p : Nat) (k : Packet) (tr : Trailer) (c : Cast) (s : State), k.body = .cast c ∧ c.ckind = 2 ∧ acceptable s (p % 4) k tr ∧ (∀ q ∈ s.can.castsSeen, q.1 ≠ c.origin)) ∧
    (∃ (p : Nat) (k : Packet) (tr : Trailer) (c : Cast) (s : State), k.body = .cast c ∧ c.ckind = 3 ∧ acceptable s (p % 4) k tr ∧ (∀ q ∈ s.can.castsSeen, q.1 ≠ c.origin) ∧ c.bell ≠ 0) ∧
    (∃ (p : Nat) (k : Packet) (tr : Trailer) (c : Cast) (s : State), k.body = .cast c ∧ c.ckind = 3 ∧ acceptable s (p % 4) k tr ∧ (∀ q ∈ s.can.castsSeen, q.1 ≠ c.origin) ∧ c.bell = 0) := by
  exact ⟨⟨1, { dataPkt with seq := 65535 }, trailer 0, List.replicate 32 7#8, (portIn State.reset 1 3).setPort 1 { State.reset.port 1 with rxSeq := 65535 }, by unfold acceptable BlockInv Shape; decide +kernel⟩,
    ⟨3, { dataPkt with dest := 2 }, trailer 0, List.replicate 32 7#8, 1, ((portIn State.reset 3 3).setFld (CAN.PORT_STATUS_STATE 1) 2).setPort 3 { State.reset.port 3 with rxSeq := 0 }, by unfold acceptable BlockInv Shape; decide +kernel⟩,
    ⟨1, dataPkt, List.replicate 32 7#8, portIn State.reset 1 3, by decide +kernel⟩,
    ⟨1, { body := .unknown 12 [], seq := 65535 }, trailer 0, (portIn State.reset 1 3).setPort 1 { State.reset.port 1 with rxSeq := 65535 }, by unfold acceptable BlockInv Shape; decide +kernel⟩,
    ⟨1, trailer 65535, (portIn State.reset 1 3).setPort 1 { State.reset.port 1 with held := [({ dataPkt with seq := 65535 }, trailer 0), ({ dataPkt with seq := 0 }, trailer 0)] }, by unfold BlockInv Shape; decide +kernel⟩,
    ⟨1, { body := .probe 77, seq := 5 }, trailer 0, 77, (portIn State.reset 1 3).setPort 1 { State.reset.port 1 with rxSeq := 5 }, by unfold acceptable BlockInv Shape; decide +kernel⟩,
    ⟨1, { body := .probeReply 77 80 90, seq := 5 }, trailer 0, 77, 80, 90, (portIn State.reset 1 3).setPort 1 { State.reset.port 1 with rxSeq := 5, rtts := List.replicate 16 3 }, by unfold acceptable BlockInv Shape; decide +kernel⟩,
    ⟨1, { body := .bell { index := 40, t0Sec := 1, t0Ns := 2, dNs := 1048576, dFrac := 0, stop := false, refState := 0, txoff := 0 } }, trailer 0, { index := 40, t0Sec := 1, t0Ns := 2, dNs := 1048576, dFrac := 0, stop := false, refState := 0, txoff := 0 }, (rung (portIn State.reset 1 3) 1 0).setPort 1 { State.reset.port 1 with rxSeq := 0, rtts := List.replicate 16 3, hello := some { serial := 9, pitch := 2, lead := true, parked := false, port := 3, aligned := true, conflict := false, pitched := true, topo := 2, xm1 := 1, ym1 := 1, schedId := 7, leadSerial := 9 } }, by unfold acceptable BlockInv Shape; decide +kernel⟩,
    ⟨1, { body := .bell { index := 40, t0Sec := 1, t0Ns := 2, dNs := 1048576, dFrac := 1, stop := false, refState := 0, txoff := 0 } }, trailer 0, { index := 40, t0Sec := 1, t0Ns := 2, dNs := 1048576, dFrac := 1, stop := false, refState := 0, txoff := 0 }, (rung (portIn State.reset 1 3) 1 0).setPort 1 { State.reset.port 1 with rxSeq := 0, rtts := List.replicate 16 3, hello := some { serial := 9, pitch := 2, lead := true, parked := false, port := 3, aligned := true, conflict := false, pitched := true, topo := 2, xm1 := 1, ym1 := 1, schedId := 7, leadSerial := 9 } }, by unfold acceptable BlockInv Shape; decide +kernel⟩,
    ⟨1, { body := .cast ⟨1, 2, 1, 9, 0, 1, 1, 5⟩ }, trailer 0, ⟨1, 2, 1, 9, 0, 1, 1, 5⟩, (((portIn State.reset 1 3).setPort 1 { State.reset.port 1 with rxSeq := 0 }).setFlag RRG.CTRL_CAST_EN true).setFld RRG.TRIG_EN 16, by unfold acceptable BlockInv Shape; decide +kernel⟩,
    ⟨1, { body := .cast ⟨2, 2, 1, 9, 0, 1, 1, 5⟩ }, trailer 0, ⟨2, 2, 1, 9, 0, 1, 1, 5⟩, (portIn State.reset 1 3).setPort 1 { State.reset.port 1 with rxSeq := 0 }, by unfold acceptable BlockInv Shape; decide +kernel⟩,
    ⟨1, { body := .cast ⟨3, 2, 1, 9, 0, 1, 1, 5⟩ }, trailer 0, ⟨3, 2, 1, 9, 0, 1, 1, 5⟩, (portIn State.reset 1 3).setPort 1 { State.reset.port 1 with rxSeq := 0 }, by unfold acceptable BlockInv Shape; decide +kernel⟩,
    ⟨1, { body := .cast ⟨3, 2, 1, 0, 0, 1, 1, 5⟩ }, trailer 0, ⟨3, 2, 1, 0, 0, 1, 1, 5⟩, (portIn State.reset 1 3).setPort 1 { State.reset.port 1 with rxSeq := 0 }, by unfold acceptable BlockInv Shape; decide +kernel⟩⟩

/-- The hypotheses of the clauses of Obligations.canopy_sending_completes can be met. -/
theorem met_canopy_sending_completes :
    (∃ (p : Nat) (s : State), s.portUp (p % 4) = true ∧ ((s.port (p % 4)).ackOwed = true ∨ (s.port (p % 4)).nakOwed = true) ∧ s.sendDue (p % 4) = false) ∧
    (∃ (p : Nat) (t : Nat) (s : State), BlockInv s ∧ s.portUp (p % 4) = true ∧ ((s.port (p % 4)).held ≠ []) ∧ ((s.port (p % 4)).rounds < 16) ∧ ((s.port (p % 4)).progressAt + 4000 * ns ≤ (s.at t).up)) ∧
    (∃ (p : Nat) (s : State), s.portUp (p % 4) = true ∧ 16 ≤ (s.port (p % 4)).rounds ∧ ((s.port (p % 4)).held ≠ []) ∧ ((s.port (p % 4)).replay = [])) ∧
    (∃ (p : Nat) (k : Packet) (tr : Trailer) (l : List (Packet × Trailer)) (s : State), s.portUp (p % 4) = true ∧ s.works 1 26 = true ∧ ((s.port (p % 4)).replay = (k, tr) :: l)) ∧
    (∃ (p : Nat) (s : State), s.portUp (p % 4) = true ∧ s.works 1 26 = true ∧ ((s.port (p % 4)).replay = []) ∧ ((s.port (p % 4)).held.length < 128) ∧ ((s.port (p % 4)).ctl ≠ [])) ∧
    (∃ (p : Nat) (v : Nat) (h : VPkt) (l : List VPkt) (s : State), s.portUp (p % 4) = true ∧ s.works 1 26 = true ∧ ((s.port (p % 4)).replay = []) ∧ ((s.port (p % 4)).held.length < 128) ∧ ((s.port (p % 4)).ctl = []) ∧ pickVoq (s.port (p % 4)).rr (s.readyVoqs (p % 4)) = some v ∧ s.voq v = h :: l) ∧
    (∃ (p : Nat) (v : Nat) (t : Nat) (h : VPkt) (l : List VPkt) (s : State), s.voq v = h :: l ∧ s.portUp (p % 4) = true ∧ s.headFor (p % 4) h = true ∧ s.credits (p % 4) v = 0 ∧ h.starved = false ∧ h.since + 1000 * max 1 (s.fld CAN.STARVE_US) * ns < (s.at t).up) ∧
    (∃ (p : Nat) (s : State), BlockInv s ∧ s.portUp (p % 4) = true) ∧
    (∃ (s : State), s.flag PIT.CTRL_PARK = false ∧ s.isParked = false ∧ s.can.parkAt = none ∧ s.isRinging = true) ∧
    (∃ (s : State), s.flag PIT.CTRL_PARK = false ∧ s.isParked = false ∧ s.can.parkAt = none ∧ s.isRinging = false) ∧
    (∃ (s : State), s.flag PIT.CTRL_PARK = true) := by
  exact ⟨⟨1, (portIn State.reset 1 3).setPort 1 { State.reset.port 1 with ackOwed := true }, by decide +kernel⟩,
    ⟨1, State.reset.now + 4000 * ns, (portIn State.reset 1 3).setPort 1 { State.reset.port 1 with held := [(dataPkt, trailer 0)], rounds := 15, progressAt := State.reset.up }, by unfold BlockInv Shape; decide +kernel⟩,
    ⟨1, (portIn State.reset 1 3).setPort 1 { State.reset.port 1 with held := [(dataPkt, trailer 0)], rounds := 16, replay := [] }, by decide +kernel⟩,
    ⟨1, dataPkt, trailer 0, [], (portIn State.reset 1 3).setPort 1 { State.reset.port 1 with replay := [(dataPkt, trailer 0)] }, by decide +kernel⟩,
    ⟨1, (portIn State.reset 1 3).setPort 1 { State.reset.port 1 with replay := [], held := List.replicate 127 (dataPkt, trailer 0), ctl := [{ body := .probe 0 }] }, by decide +kernel⟩,
    ⟨1, 40, ⟨{ dataPkt with dest := 2 }, some 3, State.reset.up, false⟩, [], (((((portIn State.reset 1 3).setRegN PWR.DOM_ON 0x1FFFF)).setPort 1 { State.reset.port 1 with credUsed := [], credMax := 8, replay := [], held := List.replicate 127 (dataPkt, trailer 0), ctl := [] })).setVoq 40 [⟨{ dataPkt with dest := 2 }, some 3, State.reset.up, false⟩], by decide +kernel⟩,
    ⟨1, 40, State.reset.now + 2000000 * 65536, ⟨{ dataPkt with dest := 2 }, some 3, State.reset.up, false⟩, [], (((portIn State.reset 1 3).setFld CAN.STARVE_US 1).setPort 1 { State.reset.port 1 with credUsed := [(40, 7)] }).setVoq 40 [⟨{ dataPkt with dest := 2 }, some 3, State.reset.up, false⟩], by decide +kernel⟩,
    ⟨1, portIn State.reset 1 3, by unfold BlockInv Shape; decide +kernel⟩,
    ⟨(rung (canopy State.reset) 3 5).setFlag PIT.CTRL_PARK false, by decide +kernel⟩,
    ⟨((canopy State.reset).setBellState 0).setFlag PIT.CTRL_PARK false, by decide +kernel⟩,
    ⟨(canopy State.reset).setFlag PIT.CTRL_PARK true, by decide +kernel⟩⟩

/-- The hypotheses of the clauses of Obligations.ring_commands_complete can be met. -/
theorem met_ring_commands_complete :
    (∃ (v : Nat) (h : VPkt) (l : List VPkt) (x : List Byte) (n : Nat) (c : Nat) (s : State), BlockInv s ∧ s.dramOpen = true ∧ s.voq v = h :: l ∧ h.pkt.body = .data x ∧ h.pkt.dest = s.myPitch ∧ s.hasPitch = true ∧ s.ring.rtFill + s.cellBytes ≤ 4 * 2 ^ 20 ∧ s.openSlotOf (s.frameOf h.pkt) = some n ∧ s.localIndex h.pkt.channel = some c ∧ h.pkt.src < s.canopySize ∧ s.mapBit n (s.cellIndex (h.pkt.m0 % s.specW / s.packK) c h.pkt.src) = false ∧ s.fld DMC.CHSTAT_FAILED = 0 ∧ s.cellAddr n (s.cellIndex (h.pkt.m0 % s.specW / s.packK) c h.pkt.src) + s.cellBytes ≤ s.dramSize ∧ s.mapBase n + s.cellIndex (h.pkt.m0 % s.specW / s.packK) c h.pkt.src / 8 < s.dramSize ∧ (s.mapBase n + s.cellIndex (h.pkt.m0 % s.specW / s.packK) c h.pkt.src / 8 < s.cellAddr n (s.cellIndex (h.pkt.m0 % s.specW / s.packK) c h.pkt.src) ∨ s.cellAddr n (s.cellIndex (h.pkt.m0 % s.specW / s.packK) c h.pkt.src) + s.cellBytes ≤ s.mapBase n + s.cellIndex (h.pkt.m0 % s.specW / s.packK) c h.pkt.src / 8)) ∧
    (∃ (v : Nat) (h : VPkt) (l : List VPkt) (x : List Byte) (n : Nat) (c : Nat) (s : State), s.dramOpen = true ∧ s.voq v = h :: l ∧ h.pkt.body = .data x ∧ h.pkt.dest = s.myPitch ∧ s.hasPitch = true ∧ s.ring.rtFill + s.cellBytes ≤ 4 * 2 ^ 20 ∧ s.openSlotOf (s.frameOf h.pkt) = some n ∧ s.localIndex h.pkt.channel = some c ∧ h.pkt.src < s.canopySize ∧ s.mapBit n (s.cellIndex (h.pkt.m0 % s.specW / s.packK) c h.pkt.src) = true) ∧
    (∃ (v : Nat) (h : VPkt) (l : List VPkt) (x : List Byte) (s : State), s.dramOpen = true ∧ s.voq v = h :: l ∧ h.pkt.body = .data x ∧ h.pkt.dest = s.myPitch ∧ s.hasPitch = true ∧ s.ring.rtFill + s.cellBytes ≤ 4 * 2 ^ 20 ∧ s.openSlotOf (s.frameOf h.pkt) = none ∧ inRuns s.ring.closed (s.frameOf h.pkt) = false) ∧
    (∃ (v : Nat) (h : VPkt) (l : List VPkt) (x : List Byte) (s : State), s.dramOpen = true ∧ s.voq v = h :: l ∧ h.pkt.body = .data x ∧ h.pkt.dest = s.myPitch ∧ s.hasPitch = true ∧ s.ring.rtFill + s.cellBytes ≤ 4 * 2 ^ 20 ∧ s.openSlotOf (s.frameOf h.pkt) = none ∧ inRuns s.ring.closed (s.frameOf h.pkt) = true) ∧
    (∃ (t : Nat) (b : Nat) (r : RingSlot) (n : Nat) (s : State), ((s.at t).curFrame = some b) ∧ 2 ≤ (s.at t).slotNow ∧ s.closingSlot = some (r, n)) ∧
    (∃ (t : Nat) (b : Nat) (r : RingSlot) (n : Nat) (s : State), ((s.at t).curFrame = some b) ∧ 2 ≤ (s.at t).slotNow ∧ s.closingSlot = some (r, n) ∧ s.missing n ≠ 0) ∧
    (∃ (t : Nat) (b : Nat) (s : State), ((s.at t).curFrame = some b) ∧ 2 ≤ (s.at t).slotNow ∧ Store.rising none s.can.voqs = true) := by
  exact ⟨⟨3 * State.reset.chanN + 5, ownPkt 516, [], List.replicate 32 7#8, 4, 0, { ringUp State.reset with mem := [] }, by unfold BlockInv Shape; decide +kernel⟩,
    ⟨3 * State.reset.chanN + 5, ownPkt 516, [], List.replicate 32 7#8, 4, 0, { ringUp State.reset with mem := [] }.setMapBit 4 ((ringUp State.reset).cellIndex 1 0 1), by decide +kernel⟩,
    ⟨3 * State.reset.chanN + 5, ownPkt 516, [], List.replicate 32 7#8, (ringUp State.reset).setRing { (ringUp State.reset).ring with slots := [], closed := [(0, 3), (5, 9)] }, by decide +kernel⟩,
    ⟨3 * State.reset.chanN + 5, ownPkt 516, [], List.replicate 32 7#8, (ringUp State.reset).setRing { (ringUp State.reset).ring with slots := [], closed := [(0, 4)] }, by decide +kernel⟩,
    ⟨0, 4, ⟨some 3, true, 1, 0, []⟩, 3, closing State.reset 2, by decide +kernel⟩,
    ⟨0, 4, ⟨some 3, true, 1, 0, []⟩, 3, closing State.reset 2, by decide +kernel⟩,
    ⟨0, 4, { closing State.reset 2 with can := { (closing State.reset 2).can with voqs := [(40, [ownPkt 0, ownPkt 516])] } }, by decide +kernel⟩⟩

/-- The hypotheses of the clauses of Obligations.capture_commands_complete can be met. -/
theorem met_capture_commands_complete :
    (∃ (s : State), ((s.fld RRG.TRIG_EN).testBit 0 = true)) ∧
    (∃ (s : State), ((s.fld RRG.TRIG_EN).testBit 0 = false)) ∧
    (∃ (tr : Trigger) (l : List Trigger) (s : State), s.trigQ = tr :: l ∧ s.isRinging = false) ∧
    (∃ (tr : Trigger) (l : List Trigger) (s : State), s.trigQ = tr :: l ∧ s.isRinging = true ∧ tr.source ≠ 4 ∧ tr.source ≠ 2 ∧ s.curFrame = none) ∧
    (∃ (t : Nat) (tr : Trigger) (l : List Trigger) (n : Nat) (s : State), s.trigQ = tr :: l ∧ ((s.at t).curFrame = some n) ∧ tr.source = 4 ∧ tr.bell ≤ n) ∧
    (∃ (tr : Trigger) (l : List Trigger) (r : CapRec) (k : Nat) (s : State), s.trigQ = tr :: l ∧ s.isRinging = true ∧ (∀ n, s.curFrame = some n → n < tr.bell) ∧ tr.source = 4 ∧ s.ring.recs.zipIdx.find? (fun p => p.1.st == 1 && p.1.bell == tr.bell) = none ∧ s.ring.recs.zipIdx.find? (fun p => p.1.st == 0) = some (r, k)) ∧
    (∃ (t : Nat) (tr : Trigger) (l : List Trigger) (n : Nat) (r : CapRec) (k : Nat) (s : State), s.trigQ = tr :: l ∧ ((s.at t).curFrame = some n) ∧ tr.source < 4 ∧ tr.source ≠ 2 ∧ s.ring.recs.zipIdx.find? (fun p => p.1.st == 1 && p.1.bell == (s.at t).freezeBell n) = none ∧ s.ring.recs.zipIdx.find? (fun p => p.1.st == 0) = some (r, k)) ∧
    (∃ (tr : Trigger) (l : List Trigger) (r : CapRec) (k : Nat) (s : State), s.trigQ = tr :: l ∧ s.isRinging = true ∧ tr.source = 2 ∧ tr.bell ≠ 0 ∧ s.ring.recs.zipIdx.find? (fun p => p.1.st == 1 && p.1.bell == tr.bell) = none ∧ s.ring.recs.zipIdx.find? (fun p => p.1.st == 0) = some (r, k)) ∧
    (∃ (t : Nat) (tr : Trigger) (l : List Trigger) (n : Nat) (r : CapRec) (k : Nat) (s : State), s.trigQ = tr :: l ∧ ((s.at t).curFrame = some n) ∧ tr.source < 4 ∧ tr.source ≠ 2 ∧ s.ring.recs.zipIdx.find? (fun p => p.1.st == 1 && p.1.bell == (s.at t).freezeBell n) = some (r, k)) ∧
    (∃ (v : Word) (n : Nat) (r : CapRec) (s : State), n < 4 ∧ v.toNat.testBit n = true ∧ s.ring.recs[n]? = some r ∧ r.st = 2 ∧ s.ring.reading = none) ∧
    (∃ (v : Word) (r : CapRec) (s : State), v.toNat.testBit 2 = true ∧ v.toNat.testBit 3 = false ∧ s.ring.recs[v.toNat % 4]? = some r ∧ s.ring.reading = none ∧ r.st = 2 ∧ s.lastClosedOf (v.toNat % 4) r = true ∧ r.frames ≠ [] ∧ ((s.nextCell 0).isSome = true)) ∧
    (∃ (v : Word) (r : CapRec) (s : State), v.toNat.testBit 2 = true ∧ v.toNat.testBit 3 = false ∧ s.ring.recs[v.toNat % 4]? = some r ∧ r.st ≠ 2) ∧
    (∃ (n : Nat) (f : List Nat) (i : Nat) (r : CapRec) (s : State), s.ring.reading = some (n, f, i) ∧ s.ring.recs[n]? = some r) ∧
    (∃ (t : Nat) (n : Nat) (f : Nat) (fs : List Nat) (i : Nat) (r : CapRec) (j : Nat) (k : Nat) (s : State), s.works 1 27 = true ∧ s.readoutPaused = false ∧ s.itemOpen 0x11 [7] = true ∧ s.dramOpen = true ∧ s.ring.rdAt ≤ (s.at t).up ∧ s.ring.reading = some (n, f :: fs, i) ∧ s.ring.recs[n]? = some r ∧ s.nextCell i = some j ∧ s.recSlot n f = some k) ∧
    (∃ (t : Nat) (n : Nat) (f : Nat) (fs : List Nat) (i : Nat) (r : CapRec) (j : Nat) (k : Nat) (s : State), s.productOpen 7 ∧ s.readoutPaused = false ∧ s.itemOpen 0x11 [7] = true ∧ s.dramOpen = true ∧ s.ring.rdAt ≤ (s.at t).up ∧ s.ring.reading = some (n, f :: fs, i) ∧ s.ring.recs[n]? = some r ∧ s.nextCell i = some j ∧ s.recSlot n f = some k) ∧
    (∃ (t : Nat) (n : Nat) (f : Nat) (fs : List Nat) (i : Nat) (s : State), s.works 1 27 = true ∧ s.readoutPaused = false ∧ s.itemOpen 0x11 [7] = true ∧ s.dramOpen = true ∧ s.ring.rdAt ≤ (s.at t).up ∧ s.ring.reading = some (n, f :: fs, i) ∧ s.recSlot n f = none) ∧
    (∃ (n : Nat) (i : Nat) (r : CapRec) (s : State), s.ring.reading = some (n, [], i) ∧ s.ring.recs[n]? = some r) := by
  exact ⟨⟨State.reset.setFld RRG.TRIG_EN 1, by decide +kernel⟩,
    ⟨State.reset.setFld RRG.TRIG_EN 30, by decide +kernel⟩,
    ⟨⟨0, 5, 0, 0, 0, 0⟩, [], { State.reset.setBellState 0 with trigQ := [⟨0, 5, 0, 0, 0, 0⟩] }, by decide +kernel⟩,
    ⟨⟨0, 5, 0, 0, 0, 0⟩, [], { (State.reset.setBellState 4).setBell { State.reset.bell with rungs := [] } with trigQ := [⟨0, 5, 0, 0, 0, 0⟩] }, by decide +kernel⟩,
    ⟨0, ⟨4, 5, 4, 0, 1, 2⟩, [], 4, triggered State.reset ⟨4, 5, 4, 0, 1, 2⟩ ⟨0, 0, 0, 0, 0, 0, 0, 0, [], [], false, false⟩, by decide +kernel⟩,
    ⟨⟨4, 5, 5, 0, 1, 2⟩, [], ⟨0, 0, 0, 0, 0, 0, 0, 0, [], [], false, false⟩, 0, triggered State.reset ⟨4, 5, 5, 0, 1, 2⟩ ⟨0, 0, 0, 0, 0, 0, 0, 0, [], [], false, false⟩, by decide +kernel⟩,
    ⟨0, ⟨3, 5, 0, 0, 1, 2⟩, [], 4, ⟨0, 0, 0, 0, 0, 0, 0, 0, [], [], false, false⟩, 0, triggered State.reset ⟨3, 5, 0, 0, 1, 2⟩ ⟨0, 0, 0, 0, 0, 0, 0, 0, [], [], false, false⟩, by decide +kernel⟩,
    ⟨⟨2, 5, 6, 0, 1, 2⟩, [], ⟨0, 0, 0, 0, 0, 0, 0, 0, [], [], false, false⟩, 0, triggered State.reset ⟨2, 5, 6, 0, 1, 2⟩ ⟨0, 0, 0, 0, 0, 0, 0, 0, [], [], false, false⟩, by decide +kernel⟩,
    ⟨0, ⟨0, 5, 0, 0, 0, 0⟩, [], 4, ⟨1, 2, 0, 5, 1, 1, 9, 0, [], [], false, false⟩, 1, triggered State.reset ⟨0, 5, 0, 0, 0, 0⟩ ⟨1, 2, 0, 5, 1, 1, 9, 0, [], [], false, false⟩, by decide +kernel⟩,
    ⟨8#32, 3, ⟨2, 2, 0, 5, 1, 1, 9, 0, [4, 5], [], false, false⟩, State.reset.setRing { State.reset.ring with reading := none, recs := setAt State.reset.ring.recs 3 ⟨2, 2, 0, 5, 1, 1, 9, 0, [4, 5], [], false, false⟩ }, by decide +kernel⟩,
    ⟨5#32, ⟨2, 2, 0, 5, 1, 1, 9, 0, [4, 5], [], false, false⟩, { triggered State.reset ⟨0, 5, 0, 0, 0, 0⟩ ⟨2, 2, 0, 5, 1, 1, 9, 0, [4, 5], [], false, false⟩ with ring := { (triggered State.reset ⟨0, 5, 0, 0, 0, 0⟩ ⟨2, 2, 0, 5, 1, 1, 9, 0, [4, 5], [], false, false⟩).ring with closed := [(0, 5)] } }, by decide +kernel⟩,
    ⟨5#32, ⟨1, 2, 0, 5, 1, 1, 9, 0, [], [], false, false⟩, triggered State.reset ⟨0, 5, 0, 0, 0, 0⟩ ⟨1, 2, 0, 5, 1, 1, 9, 0, [], [], false, false⟩, by decide +kernel⟩,
    ⟨1, [4], 3, ⟨3, 2, 0, 5, 1, 1, 9, 0, [4], [], false, false⟩, State.reset.setRing { State.reset.ring with reading := some (1, [4], 3), recs := setAt State.reset.ring.recs 1 ⟨3, 2, 0, 5, 1, 1, 9, 0, [4], [], false, false⟩ }, by decide +kernel⟩,
    ⟨0, 1, 4, [5], 0, ⟨3, 2, 0, 5, 1, 1, 9, 0, [4, 5], [], false, false⟩, 0, 4, reading State.reset [4, 5] 0, by decide +kernel⟩,
    ⟨0, 1, 4, [5], 0, ⟨3, 2, 0, 5, 1, 1, 9, 0, [4, 5], [], false, false⟩, 0, 4, reading State.reset [4, 5] 0, by unfold State.productOpen; decide +kernel⟩,
    ⟨0, 1, 6, [5], 0, reading State.reset [6, 5] 0, by decide +kernel⟩,
    ⟨1, 0, ⟨3, 2, 0, 5, 1, 1, 9, 0, [4], [], false, false⟩, State.reset.setRing { State.reset.ring with reading := some (1, [], 0), recs := setAt State.reset.ring.recs 1 ⟨3, 2, 0, 5, 1, 1, 9, 0, [4], [], false, false⟩ }, by decide +kernel⟩⟩

/-- The hypotheses of the clauses of Obligations.correlation_commands_complete can be met. -/
theorem met_correlation_commands_complete :
    (∃ (d : Nat) (t : Nat) (s : State), BlockInv s ∧ d < 6 ∧ ((s.at t).loadReady d = true)) ∧
    (∃ (d : Nat) (t : Nat) (k : Nat) (b : Nat) (l : List (Nat × Nat)) (f : Nat) (s : State), BlockInv s ∧ d < 6 ∧ s.works (3 + d) (7 + d) = true ∧ s.dramOpen = true ∧ ((s.at t).slotNow < 1022) ∧ ((s.die d).wins.reverse = (k, b) :: l) ∧ s.corr.frame = some f ∧ ((s.die d).closed = false) ∧ ((s.die d).k < s.dieChannels d) ∧ b < s.blocks) ∧
    (∃ (d : Nat) (t : Nat) (k : Nat) (b : Nat) (l : List (Nat × Nat)) (f : Nat) (i : Nat) (q : Nat) (s : State), BlockInv s ∧ d < 6 ∧ s.works (3 + d) (7 + d) = true ∧ s.dramOpen = true ∧ ((s.at t).slotNow < 1022) ∧ ((s.die d).wins.reverse = (k, b) :: l) ∧ s.corr.frame = some f ∧ ((s.die d).closed = false) ∧ ((s.die d).k < s.dieChannels d) ∧ b < s.blocks ∧ s.slotBefore f = none ∧ i < 128 ∧ q < s.specW) ∧
    (∃ (d : Nat) (t : Nat) (k : Nat) (b : Nat) (l : List (Nat × Nat)) (f : Nat) (slot : Nat) (n : Nat) (g : Nat) (j : Nat) (s : State), BlockInv s ∧ d < 6 ∧ s.works (3 + d) (7 + d) = true ∧ s.dramOpen = true ∧ ((s.at t).slotNow < 1022) ∧ ((s.die d).wins.reverse = (k, b) :: l) ∧ s.corr.frame = some f ∧ ((s.die d).closed = false) ∧ ((s.die d).k < s.dieChannels d) ∧ b < s.blocks ∧ s.slotBefore f = some slot ∧ s.dram.errs = [] ∧ s.dram.tags = [] ∧ s.fld DMC.CHSTAT_FAILED = 0 ∧ s.slotParked slot = [] ∧ 128 * b ≤ n ∧ n < 128 * b + 128 ∧ n < s.canopyInputs ∧ n / max 1 s.inputsHere < s.canopySize ∧ g < s.specGroups ∧ j < s.packK ∧ s.packK * (ceilDiv (max 1 s.inputsHere * s.sampBytes d) 32 * 32) ≤ s.cellBytes ∧ s.mapBit slot (s.cellIndex g (s.dieChannel d k) (n / max 1 s.inputsHere)) = true ∧ s.cellAddr slot (s.cellIndex g (s.dieChannel d k) (n / max 1 s.inputsHere)) + s.cellBytes ≤ s.dramSize ∧ s.mapBase slot + s.cellIndex g (s.dieChannel d k) (n / max 1 s.inputsHere) / 8 < s.dramSize) ∧
    (∃ (d : Nat) (t : Nat) (s : State), BlockInv s ∧ d < 6 ∧ ((s.at t).tileReady d = true)) ∧
    (∃ (d : Nat) (t : Nat) (t0 : Nat) (s : State), BlockInv s ∧ d < 6 ∧ s.works (3 + d) (7 + d) = true ∧ ((s.die d).running = some t0) ∧ ((s.at t).cyclesPassed t0 (s.tileCycles d) = true)) ∧
    (∃ (d : Nat) (x : TileSums) (l : List TileSums) (r : Nat) (re : Int) (im : Int) (n : Nat) (m : List (Nat × Int × Int × Nat)) (s : State), BlockInv s ∧ d < 6 ∧ s.dramOpen = true ∧ ((s.die d).out = x :: l) ∧ x.sums = (r, re, im, n) :: m) ∧
    (∃ (d : Nat) (x : TileSums) (l : List TileSums) (r : Nat) (re : Int) (im : Int) (n : Nat) (m : List (Nat × Int × Int × Nat)) (s : State), BlockInv s ∧ d < 6 ∧ s.dramOpen = true ∧ ((s.die d).out = x :: l) ∧ x.sums = (r, re, im, n) :: m ∧ s.corr.replacing = true ∧ s.corr.filling = none ∧ s.dram.errs = [] ∧ s.dram.tags = [] ∧ s.fld DMC.CHSTAT_FAILED = 0 ∧ s.istAddr r + 16 ≤ s.dramSize) ∧
    (∃ (d : Nat) (x : TileSums) (l : List TileSums) (r : Nat) (re : Int) (im : Int) (n : Nat) (m : List (Nat × Int × Int × Nat)) (s : State), BlockInv s ∧ d < 6 ∧ s.dramOpen = true ∧ ((s.die d).out = x :: l) ∧ x.sums = (r, re, im, n) :: m ∧ s.corr.replacing = false ∧ s.dram.errs = [] ∧ s.dram.tags = [] ∧ s.fld DMC.CHSTAT_FAILED = 0 ∧ s.istAddr r + 16 ≤ s.dramSize ∧ recN (ofBytes (s.read (s.istAddr r) 16)) ≠ 2 ^ 32 - 1) ∧
    (∃ (d : Nat) (x : TileSums) (l : List TileSums) (s : State), BlockInv s ∧ d < 6 ∧ s.dramOpen = true ∧ ((s.die d).out = x :: l) ∧ x.begun = false) ∧
    (∃ (t : Nat) (s : State), BlockInv s ∧ 1022 ≤ (s.at t).slotNow ∧ s.corr.frame.isSome = true) ∧
    (∃ (d : Dump) (s : State), s.corr.last = some d) := by
  exact ⟨⟨5, 0, windowing State.reset 5 { StallDie.reset with wins := [(0, 1)] }, by unfold BlockInv Shape; decide +kernel⟩,
    ⟨5, 0, 0, 0, [], 4, windowing State.reset 5 { StallDie.reset with wins := [(0, 0)] }, by unfold BlockInv Shape; decide +kernel⟩,
    ⟨5, 0, 0, 0, [], 4, 127, 127, (windowing State.reset 5 { StallDie.reset with wins := [(0, 0)] }).setRing { State.reset.ring with slots := List.replicate 64 ⟨none, false, 0, 0, []⟩ }, by unfold BlockInv Shape; decide +kernel⟩,
    ⟨5, 0, 0, 0, [], 4, 4, 3, 31, 3, (windowing State.reset 5 { StallDie.reset with wins := [(0, 0)] }).setMapBit 4 ((windowing State.reset 5 StallDie.reset).cellIndex 31 ((windowing State.reset 5 StallDie.reset).dieChannel 5 0) 3), by unfold BlockInv Shape; decide +kernel⟩,
    ⟨5, 0, stalls State.reset 5 1021 { StallDie.reset with wins := [(0, 1)] }, by unfold BlockInv Shape; decide +kernel⟩,
    ⟨5, 0, 4194304 * ns, stalls State.reset 5 1 { StallDie.reset with wins := [(0, 1)], running := some (4194304 * ns) }, by unfold BlockInv Shape; decide +kernel⟩,
    ⟨5, ⟨0, 0, false, [(0, 5, 7, 1)]⟩, [], 0, 5, 7, 1, [], windowing State.reset 5 { StallDie.reset with out := [⟨0, 0, false, [(0, 5, 7, 1)]⟩] }, by unfold BlockInv Shape; decide +kernel⟩,
    ⟨5, ⟨0, 0, false, [(3, 5, 7, 1)]⟩, [], 3, 5, 7, 1, [], windowing State.reset 5 { StallDie.reset with out := [⟨0, 0, false, [(3, 5, 7, 1)]⟩] }, by unfold BlockInv Shape; decide +kernel⟩,
    ⟨5, ⟨0, 0, false, [(3, 5, 7, 1)]⟩, [], 3, 5, 7, 1, [], { windowing State.reset 5 { StallDie.reset with out := [⟨0, 0, false, [(3, 5, 7, 1)]⟩] } with corr := { (windowing State.reset 5 { StallDie.reset with out := [⟨0, 0, false, [(3, 5, 7, 1)]⟩] }).corr with replacing := false } }, by unfold BlockInv Shape; decide +kernel⟩,
    ⟨5, ⟨0, 0, false, [(0, 5, 7, 1)]⟩, [], windowing State.reset 5 { StallDie.reset with out := [⟨0, 0, false, [(0, 5, 7, 1)]⟩] }, by unfold BlockInv Shape; decide +kernel⟩,
    ⟨0, stalls State.reset 5 1022 { StallDie.reset with wins := [(0, 1)] }, by unfold BlockInv Shape; decide +kernel⟩,
    ⟨aDump, { State.reset with corr := { State.reset.corr with last := some aDump } }, by decide +kernel⟩⟩

/-- The hypotheses of the clauses of Obligations.aisle_crown_calibration_commands_complete can be met. -/
theorem met_aisle_crown_calibration_commands_complete :
    (∃ (d : Nat) (t : Nat) (p : Nat × Nat) (s : State), BlockInv s ∧ d < 6 ∧ s.nextPass d = some p ∧ ((s.at t).passReady d p = true)) ∧
    (∃ (d : Nat) (t : Nat) (t1 : Nat) (p : Nat × Nat) (s : State), BlockInv s ∧ d < 6 ∧ s.nextPass d = some p ∧ ((s.at t).passReady d p = true) ∧ ((s.at t1).cyclesPassed (s.at t).now (max (s.blocks * s.specW) 4096) = true)) ∧
    (∃ (d : Nat) (t : Nat) (k : Nat) (g : Nat) (t0 : Nat) (s : State), BlockInv s ∧ d < 6 ∧ s.works (3 + d) (13 + d) = true ∧ (s.die d).pass = some (k, g, t0) ∧ ((s.at t).cyclesPassed t0 (max (s.blocks * s.specW) 4096) = true)) ∧
    (∃ (d : Nat) (t : Nat) (k : Nat) (g : Nat) (t0 : Nat) (i : Nat) (s : State), BlockInv s ∧ d < 6 ∧ s.works (3 + d) (13 + d) = true ∧ (s.die d).pass = some (k, g, t0) ∧ ((s.at t).cyclesPassed t0 (max (s.blocks * s.specW) 4096) = true) ∧ i < 32 ∧ s.ninAt s.aisle.page.active (32 * g + i) ≠ 0 ∧ s.sampled (AIS.BEAM_CFG_OUTV (32 * g + i)) = 1) ∧
    (∃ (v : Word) (s : State), v.toNat.testBit 1 = true ∧ s.flag CAL.CTRL_AISLE_FB = false) ∧
    (∃ (v : Word) (s : State), v.toNat.testBit 1 = true ∧ s.flag CAL.CTRL_AISLE_FB = true) ∧
    (∃ (v : Word) (t : Nat) (s : State), s.aisle.page.inUse false (v.toNat % 2) = false ∧ ((s.at t).beforeDeadline ((s.at t).fullFrame 31 (v.toNat / 2) + 1) = true)) ∧
    (∃ (v : Word) (t : Nat) (s : State), s.aisle.page.inUse false (v.toNat % 2) = false ∧ ((s.at t).beforeDeadline ((s.at t).fullFrame 31 (v.toNat / 2) + 1) = false)) ∧
    (∃ (v : Word) (s : State), BlockInv s ∧ v.toNat.testBit 31 = true ∧ Store.has s.aisle.page.pend (1 - s.aisle.page.active) = false ∧ s.ctxUsed (1 - s.aisle.page.active) - s.ninAt (1 - s.aisle.page.active) (v.toNat % 256) + bits v.toNat 8 19 ≤ 262144) ∧
    (∃ (v : Word) (s : State), v.toNat.testBit 31 = true ∧ Store.has s.aisle.page.pend (1 - s.aisle.page.active) = true) ∧
    (∃ (f : Nat) (s : State), s.corr.frame = some f ∧ s.dramOpen = true ∧ s.crown.published = false ∧ s.itemOpen 0x0F [] = true ∧ s.aislesOver = true ∧ (s.isLead = false ∨ s.crown.ranked = true)) ∧
    (∃ (f : Nat) (w : Nat) (s : State), s.corr.frame = some f ∧ s.dramOpen = true ∧ s.crown.published = false ∧ s.itemOpen 0x0F [] = true ∧ s.aislesOver = true ∧ (s.isLead = false ∨ s.crown.ranked = true) ∧ s.productOpen 5 ∧ w < 64 ∧ s.watchOn w = true) ∧
    (∃ (f : Nat) (s : State), s.corr.frame = some f ∧ s.isLead = false ∧ s.crown.partSent = false ∧ s.aislesOver = true) ∧
    (∃ (f : Nat) (w : Nat) (p : Nat) (s : State), s.corr.frame = some f ∧ s.isLead = false ∧ s.crown.partSent = false ∧ s.aislesOver = true ∧ w < 64 ∧ s.watchOn w = true ∧ s.watchWide w = true ∧ s.candidates w ≠ [] ∧ p < 2 ∧ s.svcUp p = true) ∧
    (∃ (f : List Byte) (t : Nat) (s : State), beAt f 12 2 = 0x88B5 ∧ beAt (f.drop 14) 0 2 = 2 ∧ s.isLead = true ∧ 1012 ≤ (s.at t).slotNow) ∧
    (∃ (f : List Byte) (t : Nat) (s : State), beAt f 12 2 = 0x88B5 ∧ beAt (f.drop 14) 0 2 = 2 ∧ s.isLead = true ∧ ((s.at t).slotNow < 1012) ∧ some (beAt (f.drop 14) 4 8) = s.corr.frame ∧ beAt (f.drop 14) 3 1 < 64 ∧ s.watchWide (beAt (f.drop 14) 3 1) = true ∧ s.crown.ranked = false) ∧
    (∃ (p : Nat) (f : List Byte) (t : Nat) (s : State), BlockInv s ∧ beAt f 12 2 = 0x88B5 ∧ beAt (f.drop 14) 0 2 = 2 ∧ s.isLead = false ∧ s.svcChain = true ∧ s.svcUp (otherSvc p) = true ∧ ((s.svcOut (otherSvc p)).frames = []) ∧ ((s.svcOut (otherSvc p)).freeAt ≤ (s.at t).up) ∧ f.length + 4 ≤ 2 ^ 18) ∧
    (∃ (t : Nat) (w : Nat) (s : State), s.isLead = true ∧ s.corr.frame.isSome = true ∧ s.crown.ranked = false ∧ 1012 ≤ (s.at t).slotNow ∧ w < 64 ∧ s.watchOn w = true ∧ s.watchWide w = true) ∧
    (∃ (t : Nat) (w : Nat) (q : Nat) (s : State), s.isLead = true ∧ s.corr.frame.isSome = true ∧ s.crown.ranked = false ∧ 1012 ≤ (s.at t).slotNow ∧ w < 64 ∧ s.watchOn w = true ∧ s.watchWide w = true ∧ s.candidates w ≠ [] ∧ q < s.canopySize ∧ q ≠ s.myPitch ∧ Store.has s.crown.parts (w * 64 + q) = false) ∧
    (∃ (s : State), s.works 15 19 = true ∧ s.dramOpen = true ∧ s.cal.active = true ∧ s.cal.next < s.cLoc ∧ s.calDeferred = false ∧ s.itemOpen 0x10 [s.cal.next] = true) ∧
    (∃ (s : State), s.works 15 19 = true ∧ s.dramOpen = true ∧ s.cal.active = true ∧ s.cal.next < s.cLoc ∧ s.calDeferred = false ∧ s.itemOpen 0x10 [s.cal.next] = true ∧ ((s.solveChannel s.cal.next).status ≠ 0)) := by
  exact ⟨⟨5, 0, (0, 0), stalls (beams State.reset) 5 3 { StallDie.reset with wins := [(0, 1)] }, by unfold BlockInv Shape; decide +kernel⟩,
    ⟨5, 0, 5000000 * ns, (0, 0), stalls (beams State.reset) 5 3 { StallDie.reset with wins := [(0, 1)] }, by unfold BlockInv Shape; decide +kernel⟩,
    ⟨5, 0, 1, 0, 4194304 * ns, stalls (beams State.reset) 5 4 { StallDie.reset with wins := [(0, 1)], pass := some (1, 0, 4194304 * ns) }, by unfold BlockInv Shape; decide +kernel⟩,
    ⟨5, 4294304 * ns, 1, 0, 4194304 * ns, 0, stalls { beams State.reset with aisle := { (beams State.reset).aisle with cfg := [(AIS.BEAM_CFG 0, 1#32)] } } 5 4 { StallDie.reset with wins := [(0, 1)], pass := some (1, 0, 4194304 * ns) }, by unfold BlockInv Shape; decide +kernel⟩,
    ⟨3#32, State.reset.setFlag CAL.CTRL_AISLE_FB false, by decide +kernel⟩,
    ⟨3#32, State.reset.setFlag CAL.CTRL_AISLE_FB true, by decide +kernel⟩,
    ⟨0xC#32, 0, { rung State.reset 3 0 with aisle := { State.reset.aisle with page := Page.reset } }, by decide +kernel⟩,
    ⟨6#32, 0, { rung State.reset 3 0 with aisle := { State.reset.aisle with page := Page.reset } }, by decide +kernel⟩,
    ⟨0x83FFFCFF#32, beams State.reset, by unfold BlockInv Shape; decide +kernel⟩,
    ⟨0x800001FF#32, { State.reset with aisle := { State.reset.aisle with page := { Page.reset with pend := [(1, 9)] } } }, by decide +kernel⟩,
    ⟨4, crowning State.reset 1000, by decide +kernel⟩,
    ⟨4, 63, watching (crowning State.reset 1000), by unfold State.productOpen; decide +kernel⟩,
    ⟨4, { (canopy State.reset) with corr := { State.reset.corr with frame := some 4, dies := List.replicate 6 StallDie.reset }, crown := { State.reset.crown with partSent := false } } |> fun x => (List.range 6).foldl (fun y d => y.setFld (STL.CHCNT_COUNT d) 0) x, by decide +kernel⟩,
    ⟨4, 63, 1, watching ((crowning State.reset 1000).setFlag (PTP.SVC_STATUS_UP 1) true), by decide +kernel⟩,
    ⟨crownFrame, 0, (rung State.reset 3 1012).setFlag BEL.STATUS_LEAD true, by decide +kernel⟩,
    ⟨crownFrame, 0, { (rung State.reset 3 1011).setFlag BEL.STATUS_LEAD true with corr := { State.reset.corr with frame := some 4 }, crown := { State.reset.crown with ranked := false }, aisle := { State.reset.aisle with cfg := [((CRN.WATCH_CFG_EN 63).reg, 0xFFFFFFFF#32)] } }, by decide +kernel⟩,
    ⟨1, crownFrame, 0, ((State.reset.setFlag BEL.STATUS_LEAD false).setFlag PTP.STATUS_CHAIN true).setFlag (PTP.SVC_STATUS_UP 0) true, by unfold BlockInv Shape; decide +kernel⟩,
    ⟨0, 63, watching ((crowning State.reset 1012).setFlag BEL.STATUS_LEAD true), by decide +kernel⟩,
    ⟨0, 63, 2, watching ((crowning State.reset 1012).setFlag BEL.STATUS_LEAD true), by decide +kernel⟩,
    ⟨{ (dramUp (masters (canopy State.reset))).setFld (STL.ICFG_INPUTS 0) 3 with schedule := [], deferred := [], cal := { State.reset.cal with active := true, next := 1, q := 0, cfg := [] } }, by decide +kernel⟩,
    ⟨{ (dramUp (masters (canopy State.reset))).setFld (STL.ICFG_INPUTS 0) 3 with schedule := [], deferred := [], cal := { State.reset.cal with active := true, next := 1, q := 0, cfg := [] } }, by decide +kernel⟩⟩

/-- The hypotheses of the clauses of Obligations.output_commands_complete can be met. -/
theorem met_output_commands_complete :
    (∃ (p : Nat) (lock : Nat) (fec : Bool) (s : State), p < 4 ∧ s.outUp p = false ∧ s.flag (OUT.PORT_CTRL_EN p) = true ∧ lock % 16 = 15 ∧ (Store.getD s.outs.fec p 0 ≠ 1 ∨ fec = true)) ∧
    (∃ (p : Nat) (lock : Nat) (s : State), p < 4 ∧ s.outUp p = true ∧ lock % 16 ≠ 15) ∧
    (∃ (p : Nat) (s : State), p < 4) ∧
    (∃ (v : Word) (k : Nat) (s : State), k < 16 ∧ v.toNat.testBit k = true ∧ ((s.fld OUT.STREN_EN).testBit k = false) ∧ s.badWords (streamAddr k) 64 = []) ∧
    (∃ (v : Word) (k : Nat) (s : State), k < 16 ∧ v.toNat.testBit k = true ∧ ((s.fld OUT.STREN_EN).testBit k = false) ∧ s.badWords (streamAddr k) 64 ≠ []) ∧
    (∃ (v : Word) (s : State), s.flag CFG.STATUS_LOCKED = true ∧ fmtSize (s.fld OUT.DUMP_FMTMAX) < fmtSize (v.toNat % 4)) ∧
    (∃ (v : Word) (s : State), s.flag CFG.STATUS_LOCKED = true ∧ fmtSize (v.toNat % 4) ≤ fmtSize (s.fld OUT.DUMP_FMTMAX)) ∧
    (∃ (p : Nat) (q : ProdPkt) (s : State), s.nextProduct p = some q ∧ s.works 1 27 = true ∧ s.outUp p = true ∧ s.itemOpen 0x11 [q.kind] = true) ∧
    (∃ (t : Nat) (d : Dump) (l : List Dump) (s : State), s.works 1 27 = true ∧ s.dramOpen = true ∧ s.outs.dumps = d :: l ∧ s.outs.dumpAt ≤ (s.at t).up ∧ s.outs.nextRec + min (recsPerPacket d.fmt) (s.dumpRecords - s.outs.nextRec) < s.dumpRecords) ∧
    (∃ (t : Nat) (d : Dump) (l : List Dump) (s : State), s.productOpen 1 ∧ s.dramOpen = true ∧ s.outs.dumps = d :: l ∧ s.outs.dumpAt ≤ (s.at t).up) ∧
    (∃ (t : Nat) (d : Dump) (l : List Dump) (s : State), s.works 1 27 = true ∧ s.dramOpen = true ∧ s.outs.dumps = d :: l ∧ s.outs.dumpAt ≤ (s.at t).up ∧ s.dumpRecords ≤ s.outs.nextRec + min (recsPerPacket d.fmt) (s.dumpRecords - s.outs.nextRec)) ∧
    (∃ (m : Manifest) (l : List Manifest) (s : State), s.works 1 27 = true ∧ s.outs.manifests = m :: l ∧ m.sent < m.body.length) ∧
    (∃ (m : Manifest) (l : List Manifest) (s : State), s.productOpen 2 ∧ s.outs.manifests = m :: l ∧ m.sent < m.body.length) ∧
    (∃ (m : Manifest) (l : List Manifest) (x : List Byte) (s : State), s.productOpen 2 ∧ s.outs.manifests = m :: l ∧ m.body.length ≤ m.sent ∧ Store.get? s.sec.sigs m.q = some x) ∧
    (∃ (m : Manifest) (l : List Manifest) (x : List Byte) (s : State), s.works 1 27 = true ∧ s.outs.manifests = m :: l ∧ m.body.length ≤ m.sent ∧ Store.get? s.sec.sigs m.q = some x) ∧
    (∃ (m : Manifest) (l : List Manifest) (s : State), s.works 1 27 = true ∧ s.outs.manifests = m :: l ∧ m.body.length ≤ m.sent ∧ Store.get? s.sec.sigs m.q = none ∧ m.q ∉ s.sec.manifests ∧ s.sec.signing ≠ some (.manifest m.q)) ∧
    (∃ (b : BeamPkt) (l : List BeamPkt) (s : State), s.works 1 27 = true ∧ s.aisle.beamv = b :: l) ∧
    (∃ (b : BeamPkt) (l : List BeamPkt) (s : State), s.productOpen 3 ∧ s.aisle.beamv = b :: l ∧ s.beamFill + b.samples.length ≤ 2 ^ 24) ∧
    (∃ (d : DetFrame) (l : List DetFrame) (s : State), s.works 1 27 = true ∧ s.aisle.beamd = d :: l) ∧
    (∃ (d : DetFrame) (l : List DetFrame) (b : Nat) (h : Nat) (i : Nat) (r : Nat) (m : List (Nat × Nat × Nat × Nat)) (s : State), s.productOpen 4 ∧ s.aisle.beamd = d :: l ∧ d.recs = (b, h, i, r) :: m) ∧
    (∃ (s : State), s.works 1 27 = true ∧ s.kindOn 6 = true ∧ 512 ≤ s.evts.length) ∧
    (∃ (t : Nat) (e : EvtEntry) (l : List EvtEntry) (s : State), s.productOpen 6 ∧ s.evts = e :: l ∧ e.at_ + 1000000 * ns ≤ (s.at t).up) := by
  exact ⟨⟨3, 15, true, (State.reset.setFlag (OUT.PORT_STATUS_UP 3) false).setFlag (OUT.PORT_CTRL_EN 3) true, by decide +kernel⟩,
    ⟨3, 14, State.reset.setFlag (OUT.PORT_STATUS_UP 3) true, by decide +kernel⟩,
    ⟨3, State.reset, by decide +kernel⟩,
    ⟨0x8000#32, 15, { State.reset.setFld OUT.STREN_EN 0 with dram := { State.reset.dram with errs := [] } }, by decide +kernel⟩,
    ⟨0x8000#32, 15, { State.reset.setFld OUT.STREN_EN 0 with dram := { State.reset.dram with errs := [((streamAddr 15) / 32 + 1, true)] } }, by decide +kernel⟩,
    ⟨0#32, (State.reset.setFlag CFG.STATUS_LOCKED true).setFld OUT.DUMP_FMTMAX 1, by decide +kernel⟩,
    ⟨1#32, (State.reset.setFlag CFG.STATUS_LOCKED true).setFld OUT.DUMP_FMTMAX 1, by decide +kernel⟩,
    ⟨3, ⟨1, 2, 5, 3, [], [1#8], []⟩, { State.reset.setFlag (OUT.PORT_STATUS_UP 3) true with outs := { State.reset.outs with ready := [⟨1, 2, 5, 3, [], [1#8], []⟩] } }, by decide +kernel⟩,
    ⟨0, aDump, [], ((dumping (dramUp (producing State.reset)) aDump 0).setFld (STL.ICFG_INPUTS 0) 40), by decide +kernel⟩,
    ⟨0, aDump, [], dumping (dramUp (producing State.reset)) aDump 0, by unfold State.productOpen; decide +kernel⟩,
    ⟨0, aDump, [], dumping (dramUp (producing State.reset)) aDump 19, by decide +kernel⟩,
    ⟨⟨9, false, List.replicate 9 1#8, 8⟩, [], { State.reset with outs := { State.reset.outs with manifests := [⟨9, false, List.replicate 9 1#8, 8⟩] } }, by decide +kernel⟩,
    ⟨⟨9, false, List.replicate 9 1#8, 8⟩, [], { producing State.reset with outs := { (producing State.reset).outs with manifests := [⟨9, false, List.replicate 9 1#8, 8⟩] } }, by unfold State.productOpen; decide +kernel⟩,
    ⟨⟨9, false, [1#8], 1⟩, [], [5#8], { producing State.reset with outs := { (producing State.reset).outs with manifests := [⟨9, false, [1#8], 1⟩] }, sec := { State.reset.sec with sigs := [(9, [5#8])] } }, by unfold State.productOpen; decide +kernel⟩,
    ⟨⟨9, false, [1#8], 1⟩, [], [5#8], { State.reset with outs := { State.reset.outs with manifests := [⟨9, false, [1#8], 1⟩] }, sec := { State.reset.sec with sigs := [(9, [5#8])] } }, by decide +kernel⟩,
    ⟨⟨9, false, [1#8], 1⟩, [], { State.reset with outs := { State.reset.outs with manifests := [⟨9, false, [1#8], 1⟩] }, sec := { State.reset.sec with sigs := [], manifests := [], signing := none } }, by decide +kernel⟩,
    ⟨⟨255, 5, 0, [1#8], false, false⟩, [], { State.reset with aisle := { State.reset.aisle with beamv := [⟨255, 5, 0, [1#8], false, false⟩] } }, by decide +kernel⟩,
    ⟨⟨255, 5, 0, [1#8], false, false⟩, [], { producing State.reset with aisle := { State.reset.aisle with beamv := [⟨255, 5, 0, [1#8], false, false⟩] } }, by unfold State.productOpen; decide +kernel⟩,
    ⟨⟨4, false, [], [(1, 0, 0, 5), (2, 0, 0, 6)]⟩, [], { State.reset with aisle := { State.reset.aisle with beamd := [⟨4, false, [], [(1, 0, 0, 5), (2, 0, 0, 6)]⟩] } }, by decide +kernel⟩,
    ⟨⟨4, false, [], [(1, 0, 0, 5), (2, 0, 0, 6)]⟩, [], 1, 0, 0, 5, [(2, 0, 0, 6)], { producing State.reset with aisle := { State.reset.aisle with beamd := [⟨4, false, [], [(1, 0, 0, 5), (2, 0, 0, 6)]⟩] } }, by unfold State.productOpen; decide +kernel⟩,
    ⟨{ producing State.reset with evts := List.replicate 512 ⟨1, 2, false, 3, 4, State.reset.now⟩ }, by decide +kernel⟩,
    ⟨State.reset.now + 1000000 * ns, ⟨1, 2, false, 3, 4, State.reset.now⟩, [], { producing State.reset with evts := [⟨1, 2, false, 3, 4, State.reset.now⟩] }, by unfold State.productOpen; decide +kernel⟩⟩

/-- The hypotheses of the clauses of Obligations.dram_commands_complete can be met. -/
theorem met_dram_commands_complete :
    (∃ (f : Nat) (s : State), s.noneWait ∧ s.flag DMC.STATUS_READY = false ∧ ((s.regN PWR.DOM_ON).testBit 14 = true) ∧ s.pwr.step = 0 ∧ f % 2 ^ 16 = 0) ∧
    (∃ (f : Nat) (s : State), s.noneWait ∧ s.flag DMC.STATUS_READY = false ∧ ((s.regN PWR.DOM_ON).testBit 14 = true) ∧ s.pwr.step = 0 ∧ f % 2 ^ 16 ≠ 0) ∧
    (∃ (v : Word) (s : State), s.noneWait ∧ v.toNat.testBit 0 = true ∧ s.flag DMC.CTRL_EN = false ∧ s.masksOk = true) ∧
    (∃ (v : Word) (s : State), s.noneWait ∧ v.toNat.testBit 0 = true ∧ s.flag DMC.CTRL_EN = false ∧ s.masksOk = false) ∧
    (∃ (v : Word) (s : State), s.noneWait ∧ v.toNat.testBit 0 = false) ∧
    (∃ (s : State), s.bellState = stSTOPPED) ∧
    (∃ (f : Nat) (a : Nat) (s : State), BlockInv s ∧ s.bellState = stSTOPPED ∧ a < s.dramSize ∧ s.chFailed a = true ∧ f.testBit (s.dramLoc a).ch = false) ∧
    (∃ (s : State), s.bellState ≠ stSTOPPED) ∧
    (∃ (r : Nat) (a : Nat) (hint : Nat) (t : Nat) (s : State), r < 16 ∧ a < s.dramSize ∧ s.dramOpen = true ∧ s.dram.queue = [] ∧ ((s.at t).issuable { req := r, cls := s.dramClass r, since := (s.at t).up, addr := a / 64 * 64, hint := hint, write := false, data := [], be := 0 } = true)) ∧
    (∃ (r : Nat) (a : Nat) (s : State), r < 16 ∧ a < s.dramSize ∧ s.dramOpen = false) ∧
    (∃ (r : Nat) (a : Nat) (hint : Nat) (be : Nat) (t : Nat) (d : List Byte) (s : State), BlockInv s ∧ r < 16 ∧ a < s.dramSize ∧ s.dramOpen = true ∧ s.dram.queue = [] ∧ d.length = 64 ∧ be % 2 ^ 64 = 2 ^ 64 - 1 ∧ s.chFailed (a / 64 * 64) = false ∧ ((s.at t).issuable { req := r, cls := s.dramClass r, since := (s.at t).up, addr := a / 64 * 64, hint := hint, write := true, data := d, be := 2 ^ 64 - 1 } = true)) ∧
    (∃ (b : Nat) (s : State), b < 2048 ∧ s.flag DMC.STATUS_READY = true) ∧
    (∃ (q : DramReq) (s : State), s.noneWait ∧ s.dramOpen = false ∧ q ∈ s.dram.queue) ∧
    (∃ (t : Nat) (q : DramReq) (s : State), s.noneWait ∧ s.dramOpen = true ∧ s.dram.queue = [q] ∧ q.cls ≤ 3 ∧ ((s.at t).issuable q = true)) ∧
    (∃ (b : Nat) (t : Nat) (o : OpenRow) (s : State), Store.get? s.dram.rows b = some o ∧ o.hint ≠ 1 ∧ o.last + s.fld DMC.PAGE_IDLE * ns ≤ (s.at t).up) ∧
    (∃ (b : Nat) (t : Nat) (o : OpenRow) (s : State), Store.get? s.dram.rows b = some o ∧ o.hint = 1 ∧ o.opened + max 1 (s.fld DMC.PAGE_OPEN_MAX) * 100 * ns ≤ (s.at t).up) ∧
    (∃ (b : Nat) (r : Nat) (s : State), b < 2048 ∧ s.rhThresh * (Store.getD s.dram.crossed b 0 + 1) ≤ ((List.range 16).map (s.bankActs b)).sum ∧ s.rhPick b = some r) ∧
    (∃ (b : Nat) (s : State), b < 2048 ∧ s.rhThresh * (Store.getD s.dram.crossed b 0 + 1) ≤ ((List.range 16).map (s.bankActs b)).sum ∧ (∀ r, r < 16 → r ≠ 0 → s.bankActs b r = 0)) ∧
    (∃ (t : Nat) (s : State), s.dramOpen = true ∧ s.fld DMC.SCRUB_HOURS ≠ 0 ∧ s.panic = false ∧ s.dram.scrubAt ≤ (s.at t).up) ∧
    (∃ (t : Nat) (e : Bool) (s : State), s.dramOpen = true ∧ s.fld DMC.SCRUB_HOURS ≠ 0 ∧ s.panic = false ∧ s.dram.scrubAt ≤ (s.at t).up ∧ s.dram.scrub < s.dramSize ∧ s.chFailed s.dram.scrub = false ∧ s.dram.tags = [] ∧ s.dram.queue = [] ∧ s.dram.errs = [(s.dram.scrub / 64 * 2, e)]) ∧
    (∃ (t : Nat) (e : Bool) (s : State), s.dramOpen = true ∧ s.fld DMC.SCRUB_HOURS ≠ 0 ∧ s.panic = false ∧ s.dram.scrubAt ≤ (s.at t).up ∧ s.dram.scrub < s.dramSize ∧ s.chFailed s.dram.scrub = false ∧ s.dram.tags = [] ∧ s.dram.queue = [] ∧ s.dram.errs = [(s.dram.scrub / 64 * 2, e)]) ∧
    (∃ (ch : Nat) (sc : Nat) (s : State), ch < 16 ∧ sc < 2) ∧
    (∃ (ch : Nat) (sc : Nat) (s : State), ch < 16 ∧ sc < 2 ∧ 2 ≤ Store.getD s.dram.parity (ch * 2 + sc) 0) := by
  exact ⟨⟨0x10000, { (State.reset.setFlag DMC.STATUS_READY false).setRegN PWR.DOM_ON 0x1FFFF with pwr := { State.reset.pwr with step := 0 } }, by unfold State.noneWait; decide +kernel⟩,
    ⟨0x8000, { (State.reset.setFlag DMC.STATUS_READY false).setRegN PWR.DOM_ON 0x1FFFF with pwr := { State.reset.pwr with step := 0 } }, by unfold State.noneWait; decide +kernel⟩,
    ⟨1#32, State.reset.setFlag DMC.CTRL_EN false, by unfold State.noneWait; decide +kernel⟩,
    ⟨1#32, (State.reset.setFlag DMC.CTRL_EN false).setRegN (DMC.HASH_LO 0) 0, by unfold State.noneWait; decide +kernel⟩,
    ⟨2#32, State.reset, by unfold State.noneWait; decide +kernel⟩,
    ⟨State.reset.setBellState 0, by decide +kernel⟩,
    ⟨0, 64, (State.reset.setBellState 0).setFld DMC.CHSTAT_FAILED 0xFFFF, by unfold BlockInv Shape; decide +kernel⟩,
    ⟨State.reset.setBellState 5, by decide +kernel⟩,
    ⟨15, 2 ^ 39 - 1, 0, 0, dramUp State.reset, by decide +kernel⟩,
    ⟨15, 5, (dramUp State.reset).setFlag DMC.CTRL_EN false, by decide +kernel⟩,
    ⟨15, 64, 0, 2 ^ 64 - 1, 0, List.replicate 64 7#8, dramUp State.reset, by unfold BlockInv Shape; decide +kernel⟩,
    ⟨2047, dramUp State.reset, by decide +kernel⟩,
    ⟨⟨15, 1, 0, 64, 0, false, [], 0⟩, { (State.reset.setFlag DMC.CTRL_EN false).setDram { State.reset.dram with queue := [⟨15, 1, 0, 64, 0, false, [], 0⟩] } with mtx := { State.reset.mtx with out := [] } }, by unfold State.noneWait; decide +kernel⟩,
    ⟨0, ⟨15, 1, 0, 64, 0, false, [], 0⟩, { (dramUp State.reset).setDram { (dramUp State.reset).dram with queue := [⟨15, 1, 0, 64, 0, false, [], 0⟩] } with mtx := { State.reset.mtx with out := [] } }, by unfold State.noneWait; decide +kernel⟩,
    ⟨5, State.reset.now + 1000000 * ns, ⟨7, 0, State.reset.now, 2⟩, State.reset.setDram { State.reset.dram with rows := [(5, ⟨7, 0, State.reset.now, 2⟩)] }, by decide +kernel⟩,
    ⟨5, State.reset.now + 10000000 * ns, ⟨7, State.reset.now, 0, 1⟩, State.reset.setDram { State.reset.dram with rows := [(5, ⟨7, State.reset.now, 0, 1⟩)] }, by decide +kernel⟩,
    ⟨2047, 3, (State.reset.setFld DMC.RH_THRESH 256).setDram { State.reset.dram with acts := [(2047 * 16 + 3, 256)], crossed := [], throttle := [] }, by decide +kernel⟩,
    ⟨2047, (State.reset.setFld DMC.RH_THRESH 256).setDram { State.reset.dram with acts := [(2047 * 16, 256)], crossed := [], throttle := [] }, by decide +kernel⟩,
    ⟨0, ((dramUp State.reset).setFld DMC.SCRUB_HOURS 1).setDram { (dramUp State.reset).dram with scrubAt := 0 }, by decide +kernel⟩,
    ⟨0, true, ((dramUp State.reset).setFld DMC.SCRUB_HOURS 1).setDram { (dramUp State.reset).dram with errs := [(0, true)], tags := [], scrub := 0, scrubAt := 0 }, by decide +kernel⟩,
    ⟨0, false, ((dramUp State.reset).setFld DMC.SCRUB_HOURS 1).setDram { (dramUp State.reset).dram with errs := [(0, false)], tags := [], scrub := 0, scrubAt := 0 }, by decide +kernel⟩,
    ⟨15, 1, State.reset, by decide +kernel⟩,
    ⟨15, 1, State.reset.setDram { State.reset.dram with parity := [(31, 2)] }, by decide +kernel⟩⟩

/-- The hypotheses of the clauses of Obligations.clerk_instructions_complete can be met. -/
theorem met_clerk_instructions_complete :
    (∃ (op : ClerkOp) (n : Nat) (dc : Nat) (s : State), ClerkReady s n dc op ∧ ((s.clerkDoes n dc op).fault = 0) ∧ ((s.clerkDoes n dc op).stall = false) ∧ ((s.clerkDoes n dc op).wait = false) ∧ ((s.clerkDoes n dc op).halt = false)) ∧
    (∃ (op : ClerkOp) (n : Nat) (dc : Nat) (s : State), ClerkReady s n dc op ∧ ((s.clerkDoes n dc op).fault = 0) ∧ ((s.clerkDoes n dc op).stall = false) ∧ ((s.clerkDoes n dc op).wait = false) ∧ ((s.clerkDoes n dc op).halt = false)) ∧
    (∃ (op : ClerkOp) (n : Nat) (dc : Nat) (s : State), ClerkReady s n dc op ∧ ((s.clerkDoes n dc op).fault = 0) ∧ ((s.clerkDoes n dc op).stall = false) ∧ ((s.clerkDoes n dc op).wait = false) ∧ ((s.clerkDoes n dc op).halt = false)) ∧
    (∃ (op : ClerkOp) (n : Nat) (dc : Nat) (s : State), ClerkReady s n dc op ∧ ((s.clerkDoes n dc op).fault = 0) ∧ ((s.clerkDoes n dc op).stall = false) ∧ ((s.clerkDoes n dc op).wait = false) ∧ ((s.clerkDoes n dc op).halt = false)) ∧
    (∃ (op : ClerkOp) (n : Nat) (dc : Nat) (s : State), ClerkReady s n dc op ∧ ((s.clerkDoes n dc op).fault = 0) ∧ ((s.clerkDoes n dc op).stall = false) ∧ ((s.clerkDoes n dc op).wait = false) ∧ ((s.clerkDoes n dc op).halt = false)) ∧
    (∃ (op : ClerkOp) (n : Nat) (dc : Nat) (s : State), ClerkReady s n dc op ∧ ((s.clerkDoes n dc op).fault = 0) ∧ ((s.clerkDoes n dc op).stall = false) ∧ ((s.clerkDoes n dc op).wait = false) ∧ ((s.clerkDoes n dc op).halt = false)) ∧
    (∃ (op : ClerkOp) (n : Nat) (dc : Nat) (s : State), ClerkReady s n dc op ∧ ((s.clerkDoes n dc op).fault = 0) ∧ ((s.clerkDoes n dc op).stall = false) ∧ ((s.clerkDoes n dc op).wait = false) ∧ ((s.clerkDoes n dc op).halt = false)) ∧
    (∃ (op : ClerkOp) (n : Nat) (dc : Nat) (s : State), ClerkReady s n dc op ∧ ((s.clerkDoes n dc op).fault = 0) ∧ ((s.clerkDoes n dc op).stall = false) ∧ ((s.clerkDoes n dc op).wait = false) ∧ ((s.clerkDoes n dc op).halt = false)) ∧
    (∃ (n : Nat) (dc : Nat) (s : State), ClerkReady s n dc .nop ∧ ((s.core n).branch = none) ∧ srLDEPTH (s.core n).sr = 0 ∧ ((s.core n).delayed = [])) ∧
    (∃ (n : Nat) (dc : Nat) (k : Nat) (a : Nat) (r : Bool) (s : State), ClerkReady s n dc .nop ∧ (s.core n).branch = some (a, k, r) ∧ 2 ≤ k) ∧
    (∃ (n : Nat) (dc : Nat) (a : Nat) (s : State), ClerkReady s n dc .nop ∧ (s.core n).branch = some (a, 1, false)) ∧
    (∃ (n : Nat) (dc : Nat) (a : Nat) (s : State), ClerkReady s n dc .nop ∧ (s.core n).branch = some (a, 1, true) ∧ ((s.core n).delayed = [])) ∧
    (∃ (n : Nat) (dc : Nat) (s : State), ClerkReady s n dc .br) ∧
    (∃ (n : Nat) (dc : Nat) (s : State), ClerkReady s n dc .brcc ∧ branchCond (s.core n).sr (bits (s.clerkWord n) 20 4) = true) ∧
    (∃ (n : Nat) (dc : Nat) (s : State), ClerkReady s n dc .brcc ∧ branchCond (s.core n).sr (bits (s.clerkWord n) 20 4) = false) ∧
    (∃ (n : Nat) (dc : Nat) (s : State), ClerkReady s n dc .call) ∧
    (∃ (n : Nat) (dc : Nat) (s : State), ClerkReady s n dc .ret) ∧
    (∃ (n : Nat) (dc : Nat) (s : State), ClerkReady s n dc .rti) ∧
    (∃ (n : Nat) (dc : Nat) (l : Nat) (s : State), ClerkReady s n dc .loop ∧ ((s.clerkWord n).testBit 23 = false) ∧ l = srLDEPTH (s.core n).sr ∧ l < 2 ∧ ((s.core n).delayed = []) ∧ bits (s.clerkWord n) 0 15 ≠ (s.core n).pc) := by
  exact ⟨⟨.nop, 15, 1, coreAt State.reset 15 0 Core.reset, by unfold ClerkReady CoreSteps BlockInv Shape; decide +kernel⟩,
    ⟨.br, 15, 1, coreAt State.reset 15 0x01000005 Core.reset, by unfold ClerkReady CoreSteps BlockInv Shape; decide +kernel⟩,
    ⟨.mac, 15, 1, coreAt State.reset 15 0x14280000 { Core.reset with r := [(1, 3), (2, 0xFFFF)] }, by unfold ClerkReady CoreSteps BlockInv Shape; decide +kernel⟩,
    ⟨.dual, 15, 1, coreAt State.reset 15 0x1C280000 Core.reset, by unfold ClerkReady CoreSteps BlockInv Shape; decide +kernel⟩,
    ⟨.mov, 0, 40, coreAt State.reset 0 0x40014000 Core.reset, by unfold ClerkReady CoreSteps BlockInv Shape; decide +kernel⟩,
    ⟨.ld, 0, 1, coreAt State.reset 0 0x50000000 Core.reset, by unfold ClerkReady CoreSteps BlockInv Shape; decide +kernel⟩,
    ⟨.fst, 0, 1, coreAt State.reset 0 0x71000000 Core.reset, by unfold ClerkReady CoreSteps BlockInv Shape; decide +kernel⟩,
    ⟨.ldi, 0, 1, coreAt State.reset 0 0x6000FFFF Core.reset, by unfold ClerkReady CoreSteps BlockInv Shape; decide +kernel⟩,
    ⟨15, 1, coreAt State.reset 15 0 Core.reset, by unfold ClerkReady CoreSteps BlockInv Shape; decide +kernel⟩,
    ⟨15, 1, 2, 9, false, coreAt State.reset 15 0 { Core.reset with branch := some (9, 2, false) }, by unfold ClerkReady CoreSteps BlockInv Shape; decide +kernel⟩,
    ⟨15, 1, 9, coreAt State.reset 15 0 { Core.reset with branch := some (9, 1, false) }, by unfold ClerkReady CoreSteps BlockInv Shape; decide +kernel⟩,
    ⟨15, 1, 9, coreAt State.reset 15 0 { Core.reset with branch := some (9, 1, true) }, by unfold ClerkReady CoreSteps BlockInv Shape; decide +kernel⟩,
    ⟨15, 1, coreAt State.reset 15 0x01007FFF Core.reset, by unfold ClerkReady CoreSteps BlockInv Shape; decide +kernel⟩,
    ⟨15, 1, coreAt State.reset 15 0x02407FFF Core.reset, by unfold ClerkReady CoreSteps BlockInv Shape; decide +kernel⟩,
    ⟨15, 1, coreAt State.reset 15 0x02307FFF Core.reset, by unfold ClerkReady CoreSteps BlockInv Shape; decide +kernel⟩,
    ⟨15, 1, coreAt State.reset 15 0x03007FFF Core.reset, by unfold ClerkReady CoreSteps BlockInv Shape; decide +kernel⟩,
    ⟨15, 1, coreAt State.reset 15 0x04000000 Core.reset, by unfold ClerkReady CoreSteps BlockInv Shape; decide +kernel⟩,
    ⟨15, 1, coreAt State.reset 15 0x05000000 Core.reset, by unfold ClerkReady CoreSteps BlockInv Shape; decide +kernel⟩,
    ⟨15, 1, 0, coreAt State.reset 15 0x06018009 Core.reset, by unfold ClerkReady CoreSteps BlockInv Shape; decide +kernel⟩⟩

/-- The hypotheses of the clauses of Obligations.clerk_waits_complete can be met. -/
theorem met_clerk_waits_complete :
    (∃ (n : Nat) (dc : Nat) (s : State), ClerkReady s n dc .wait) ∧
    (∃ (n : Nat) (dc : Nat) (s : State), ClerkReady s n dc .halt ∧ ((s.core n).storeQ = [])) ∧
    (∃ (n : Nat) (dc : Nat) (s : State), ClerkReady s n dc .fld ∧ ((s.core n).storeQ = [])) ∧
    (∃ (n : Nat) (dc : Nat) (s : State), ClerkReady s n dc .fence ∧ ((s.core n).storeQ ≠ [])) ∧
    (∃ (n : Nat) (dc : Nat) (s : State), ClerkReady s n dc .fence ∧ ((s.core n).storeQ = []) ∧ ((s.core n).branch = none) ∧ srLDEPTH (s.core n).sr = 0 ∧ ((s.core n).delayed = [])) := by
  exact ⟨⟨15, 1, coreAt State.reset 15 0x07000000 Core.reset, by unfold ClerkReady CoreSteps BlockInv Shape; decide +kernel⟩,
    ⟨15, 1, coreAt State.reset 15 0x08000000 Core.reset, by unfold ClerkReady CoreSteps BlockInv Shape; decide +kernel⟩,
    ⟨15, 1, coreAt State.reset 15 0x70000000 Core.reset, by unfold ClerkReady CoreSteps BlockInv Shape; decide +kernel⟩,
    ⟨15, 1, coreAt State.reset 15 0x09000000 { Core.reset with storeQ := [(64, 5)] }, by unfold ClerkReady CoreSteps BlockInv Shape; decide +kernel⟩,
    ⟨15, 1, coreAt State.reset 15 0x09000000 Core.reset, by unfold ClerkReady CoreSteps BlockInv Shape; decide +kernel⟩⟩

/-- The hypotheses of the clauses of Obligations.clerk_faults can be met. -/
theorem met_clerk_faults :
    (∃ (n : Nat) (s : State), CoreSteps s n ∧ ((s.core n).storeQ = []) ∧ clerkDecode (s.clerkWord n) = none) ∧
    (∃ (op : ClerkOp) (n : Nat) (s : State), CoreSteps s n ∧ ((s.core n).storeQ = []) ∧ clerkDecode (s.clerkWord n) = some op ∧ op.control = true ∧ ((s.core n).branch ≠ none)) ∧
    (∃ (n : Nat) (dc : Nat) (s : State), ClerkReady s n dc .loop ∧ ((s.core n).storeQ = []) ∧ srLDEPTH (s.core n).sr = 2) ∧
    (∃ (op : ClerkOp) (n : Nat) (dc : Nat) (s : State), CoreSteps s n ∧ ((s.core n).storeQ = []) ∧ clerkDecode (s.clerkWord n) = some op ∧ op.control = true ∧ ((s.core n).branch = none) ∧ (((s.core n).advance dc).nearLoopEnd = true)) := by
  exact ⟨⟨15, coreAt State.reset 15 0xF0000000 Core.reset, by unfold CoreSteps BlockInv Shape; decide +kernel⟩,
    ⟨.br, 15, coreAt State.reset 15 0x01000005 { Core.reset with branch := some (9, 1, false) }, by unfold CoreSteps BlockInv Shape; decide +kernel⟩,
    ⟨15, 1, coreAt State.reset 15 0x06000010 { Core.reset with r := [(0x40, 0x40)] }, by unfold ClerkReady CoreSteps BlockInv Shape; decide +kernel⟩,
    ⟨.br, 15, 1, coreAt State.reset 15 0x01000005 { Core.reset with r := [(0x40, 0x20), (0x45, 5), (0x46, 9)] }, by unfold CoreSteps BlockInv Shape; decide +kernel⟩⟩

/-- The hypotheses of the clauses of Obligations.clerk_accumulator_results can be met. -/
theorem met_clerk_accumulator_results :
    (∃ (n : Nat) (dc : Nat) (s : State) (a : Nat) (b : Nat) (x : Int) (y : Int), a = bits (s.clerkWord n) 22 2 ∧ b = bits (s.clerkWord n) 20 2 ∧ x = toSigned 16 ((s.core n).d (bits (s.clerkWord n) 21 3)) ∧ y = toSigned 16 ((s.core n).d (bits (s.clerkWord n) 18 3)) ∧ (ClerkReady s n dc .mpy ∧ (s.core n).sr.testBit srFRAC = false)) ∧
    (∃ (n : Nat) (dc : Nat) (s : State) (a : Nat) (b : Nat) (x : Int) (y : Int), a = bits (s.clerkWord n) 22 2 ∧ b = bits (s.clerkWord n) 20 2 ∧ x = toSigned 16 ((s.core n).d (bits (s.clerkWord n) 21 3)) ∧ y = toSigned 16 ((s.core n).d (bits (s.clerkWord n) 18 3)) ∧ (ClerkReady s n dc .mac ∧ (s.core n).sr.testBit srFRAC = false)) ∧
    (∃ (n : Nat) (dc : Nat) (s : State) (a : Nat) (b : Nat) (x : Int) (y : Int), a = bits (s.clerkWord n) 22 2 ∧ b = bits (s.clerkWord n) 20 2 ∧ x = toSigned 16 ((s.core n).d (bits (s.clerkWord n) 21 3)) ∧ y = toSigned 16 ((s.core n).d (bits (s.clerkWord n) 18 3)) ∧ (ClerkReady s n dc .msu ∧ (s.core n).sr.testBit srFRAC = false)) ∧
    (∃ (n : Nat) (dc : Nat) (s : State) (a : Nat) (b : Nat) (x : Int) (y : Int), a = bits (s.clerkWord n) 22 2 ∧ b = bits (s.clerkWord n) 20 2 ∧ x = toSigned 16 ((s.core n).d (bits (s.clerkWord n) 21 3)) ∧ y = toSigned 16 ((s.core n).d (bits (s.clerkWord n) 18 3)) ∧ ClerkReady s n dc .add) ∧
    (∃ (n : Nat) (dc : Nat) (s : State) (a : Nat) (b : Nat) (x : Int) (y : Int), a = bits (s.clerkWord n) 22 2 ∧ b = bits (s.clerkWord n) 20 2 ∧ x = toSigned 16 ((s.core n).d (bits (s.clerkWord n) 21 3)) ∧ y = toSigned 16 ((s.core n).d (bits (s.clerkWord n) 18 3)) ∧ ClerkReady s n dc .sub) ∧
    (∃ (n : Nat) (dc : Nat) (s : State) (a : Nat) (b : Nat) (x : Int) (y : Int), a = bits (s.clerkWord n) 22 2 ∧ b = bits (s.clerkWord n) 20 2 ∧ x = toSigned 16 ((s.core n).d (bits (s.clerkWord n) 21 3)) ∧ y = toSigned 16 ((s.core n).d (bits (s.clerkWord n) 18 3)) ∧ ClerkReady s n dc .neg) ∧
    (∃ (n : Nat) (dc : Nat) (s : State) (a : Nat) (b : Nat) (x : Int) (y : Int), a = bits (s.clerkWord n) 22 2 ∧ b = bits (s.clerkWord n) 20 2 ∧ x = toSigned 16 ((s.core n).d (bits (s.clerkWord n) 21 3)) ∧ y = toSigned 16 ((s.core n).d (bits (s.clerkWord n) 18 3)) ∧ ClerkReady s n dc .abs) ∧
    (∃ (n : Nat) (dc : Nat) (s : State) (a : Nat) (b : Nat) (x : Int) (y : Int), a = bits (s.clerkWord n) 22 2 ∧ b = bits (s.clerkWord n) 20 2 ∧ x = toSigned 16 ((s.core n).d (bits (s.clerkWord n) 21 3)) ∧ y = toSigned 16 ((s.core n).d (bits (s.clerkWord n) 18 3)) ∧ ClerkReady s n dc .clr) ∧
    (∃ (n : Nat) (dc : Nat) (s : State) (a : Nat) (b : Nat) (x : Int) (y : Int), a = bits (s.clerkWord n) 22 2 ∧ b = bits (s.clerkWord n) 20 2 ∧ x = toSigned 16 ((s.core n).d (bits (s.clerkWord n) 21 3)) ∧ y = toSigned 16 ((s.core n).d (bits (s.clerkWord n) 18 3)) ∧ ClerkReady s n dc .asl) ∧
    (∃ (n : Nat) (dc : Nat) (s : State) (a : Nat) (b : Nat) (x : Int) (y : Int), a = bits (s.clerkWord n) 22 2 ∧ b = bits (s.clerkWord n) 20 2 ∧ x = toSigned 16 ((s.core n).d (bits (s.clerkWord n) 21 3)) ∧ y = toSigned 16 ((s.core n).d (bits (s.clerkWord n) 18 3)) ∧ ClerkReady s n dc .asr) ∧
    (∃ (n : Nat) (dc : Nat) (s : State) (a : Nat) (b : Nat) (x : Int) (y : Int), a = bits (s.clerkWord n) 22 2 ∧ b = bits (s.clerkWord n) 20 2 ∧ x = toSigned 16 ((s.core n).d (bits (s.clerkWord n) 21 3)) ∧ y = toSigned 16 ((s.core n).d (bits (s.clerkWord n) 18 3)) ∧ ClerkReady s n dc .addd) ∧
    (∃ (n : Nat) (dc : Nat) (s : State) (a : Nat) (b : Nat) (x : Int) (y : Int), a = bits (s.clerkWord n) 22 2 ∧ b = bits (s.clerkWord n) 20 2 ∧ x = toSigned 16 ((s.core n).d (bits (s.clerkWord n) 21 3)) ∧ y = toSigned 16 ((s.core n).d (bits (s.clerkWord n) 18 3)) ∧ ClerkReady s n dc .divs) ∧
    (∃ (n : Nat) (dc : Nat) (s : State) (a : Nat) (b : Nat) (x : Int) (y : Int), a = bits (s.clerkWord n) 22 2 ∧ b = bits (s.clerkWord n) 20 2 ∧ x = toSigned 16 ((s.core n).d (bits (s.clerkWord n) 21 3)) ∧ y = toSigned 16 ((s.core n).d (bits (s.clerkWord n) 18 3)) ∧ (ClerkReady s n dc .cmp ∧ (s.core n).branch = none)) := by
  exact ⟨⟨15, 1, coreAt State.reset 15 0x10280000 { Core.reset with r := [(1, 0xFFFF), (2, 0x7FFF)] }, bits 0x10280000 22 2, bits 0x10280000 20 2, -1, 0x7FFF, by unfold ClerkReady CoreSteps BlockInv Shape; decide +kernel⟩,
    ⟨15, 1, coreAt State.reset 15 0x17280000 { Core.reset with r := [(1, 0xFFFF), (2, 0x7FFF), (0x103, 0x8000000000)] }, bits 0x17280000 22 2, bits 0x17280000 20 2, -1, 0x7FFF, by unfold ClerkReady CoreSteps BlockInv Shape; decide +kernel⟩,
    ⟨15, 1, coreAt State.reset 15 0x1B280000 { Core.reset with r := [(1, 0xFFFF), (2, 0x7FFF), (0x103, 0x7FFFFFFFFF)] }, bits 0x1B280000 22 2, bits 0x1B280000 20 2, -1, 0x7FFF, by unfold ClerkReady CoreSteps BlockInv Shape; decide +kernel⟩,
    ⟨15, 1, coreAt State.reset 15 0x20D00000 { Core.reset with r := [(0x101, 1), (0x103, 0x7FFFFFFFFF)] }, 3, 1, 0, 0, by unfold ClerkReady CoreSteps BlockInv Shape; decide +kernel⟩,
    ⟨15, 1, coreAt State.reset 15 0x21D00000 { Core.reset with r := [(0x101, 1), (0x103, 0x8000000000)] }, 3, 1, 0, 0, by unfold ClerkReady CoreSteps BlockInv Shape; decide +kernel⟩,
    ⟨15, 1, coreAt State.reset 15 0x22D00000 { Core.reset with r := [(0x101, 0x8000000000)] }, 3, 1, 0, 0, by unfold ClerkReady CoreSteps BlockInv Shape; decide +kernel⟩,
    ⟨15, 1, coreAt State.reset 15 0x23D00000 { Core.reset with r := [(0x101, 0x8000000000)] }, 3, 1, 0, 0, by unfold ClerkReady CoreSteps BlockInv Shape; decide +kernel⟩,
    ⟨15, 1, coreAt State.reset 15 0x24D00000 { Core.reset with r := [(0x103, 0x8000000000)] }, 3, 1, 0, 0, by unfold ClerkReady CoreSteps BlockInv Shape; decide +kernel⟩,
    ⟨15, 1, coreAt State.reset 15 0x25D0003F { Core.reset with r := [(0x101, 1)] }, 3, 1, 0, 0, by unfold ClerkReady CoreSteps BlockInv Shape; decide +kernel⟩,
    ⟨15, 1, coreAt State.reset 15 0x26D0003F { Core.reset with r := [(0x101, 0x8000000000)] }, 3, 1, 0, 0, by unfold ClerkReady CoreSteps BlockInv Shape; decide +kernel⟩,
    ⟨15, 1, coreAt State.reset 15 0x28D20000 { Core.reset with r := [(1, 0xFFFF), (0x103, 0x7FFFFFFFFF)] }, 3, 1, 0, 0, by unfold ClerkReady CoreSteps BlockInv Shape; decide +kernel⟩,
    ⟨15, 1, coreAt State.reset 15 0x30C80000 { Core.reset with r := [(1, 5), (0x103, 0x7FFF)] }, 3, 0, 0, 0, by unfold ClerkReady CoreSteps BlockInv Shape; decide +kernel⟩,
    ⟨15, 1, coreAt State.reset 15 0x27D00000 { Core.reset with r := [(0x101, 0x8000000000), (0x103, 1)] }, 3, 1, 0, 0, by unfold ClerkReady CoreSteps BlockInv Shape; decide +kernel⟩⟩

/-- The hypotheses of the clauses of Obligations.clerk_accumulator_delay can be met. -/
theorem met_clerk_accumulator_delay :
    (∃ (op : ClerkOp) (n : Nat) (dc : Nat) (s : State) (k : Nat), op ∈ [ClerkOp.mpy, .mac, .msu, .add, .sub, .neg, .abs, .clr, .asl, .asr, .addd, .divs] ∧ ClerkReady s n dc op ∧ ((s.core n).delayed = []) ∧ k < 4) := by
  exact ⟨.divs, 15, 1, coreAt State.reset 15 0x30000000 Core.reset, 3, by unfold ClerkReady CoreSteps BlockInv Shape; decide +kernel⟩

/-- The hypotheses of the clauses of Obligations.clerk_d_results can be met. -/
theorem met_clerk_d_results :
    (∃ (n : Nat) (dc : Nat) (s : State) (k : Nat) (x : Nat) (y : Nat), k = bits (s.clerkWord n) 19 3 ∧ x = (s.core n).d k ∧ y = (s.core n).d (bits (s.clerkWord n) 16 3) ∧ ((s.core n).delayed = []) ∧ ClerkReady s n dc .and) ∧
    (∃ (n : Nat) (dc : Nat) (s : State) (k : Nat) (x : Nat) (y : Nat), k = bits (s.clerkWord n) 19 3 ∧ x = (s.core n).d k ∧ y = (s.core n).d (bits (s.clerkWord n) 16 3) ∧ ((s.core n).delayed = []) ∧ ClerkReady s n dc .or) ∧
    (∃ (n : Nat) (dc : Nat) (s : State) (k : Nat) (x : Nat) (y : Nat), k = bits (s.clerkWord n) 19 3 ∧ x = (s.core n).d k ∧ y = (s.core n).d (bits (s.clerkWord n) 16 3) ∧ ((s.core n).delayed = []) ∧ ClerkReady s n dc .xor) ∧
    (∃ (n : Nat) (dc : Nat) (s : State) (k : Nat) (x : Nat) (y : Nat), k = bits (s.clerkWord n) 19 3 ∧ x = (s.core n).d k ∧ y = (s.core n).d (bits (s.clerkWord n) 16 3) ∧ ((s.core n).delayed = []) ∧ ClerkReady s n dc .add16) ∧
    (∃ (n : Nat) (dc : Nat) (s : State) (k : Nat) (x : Nat) (y : Nat), k = bits (s.clerkWord n) 19 3 ∧ x = (s.core n).d k ∧ y = (s.core n).d (bits (s.clerkWord n) 16 3) ∧ ((s.core n).delayed = []) ∧ ClerkReady s n dc .sub16) := by
  exact ⟨⟨15, 1, coreAt State.reset 15 0x313E0000 { Core.reset with r := [(6, 0x1234), (7, 0xFFFF)] }, 7, 0xFFFF, 0x1234, by unfold ClerkReady CoreSteps BlockInv Shape; decide +kernel⟩,
    ⟨15, 1, coreAt State.reset 15 0x323E0000 { Core.reset with r := [(6, 0x1234), (7, 0xFFFF)] }, 7, 0xFFFF, 0x1234, by unfold ClerkReady CoreSteps BlockInv Shape; decide +kernel⟩,
    ⟨15, 1, coreAt State.reset 15 0x333E0000 { Core.reset with r := [(6, 0x1234), (7, 0xFFFF)] }, 7, 0xFFFF, 0x1234, by unfold ClerkReady CoreSteps BlockInv Shape; decide +kernel⟩,
    ⟨15, 1, coreAt State.reset 15 0x343E0000 { Core.reset with r := [(6, 1), (7, 0xFFFF)] }, 7, 0xFFFF, 1, by unfold ClerkReady CoreSteps BlockInv Shape; decide +kernel⟩,
    ⟨15, 1, coreAt State.reset 15 0x353E0000 { Core.reset with r := [(6, 1)] }, 7, 0, 1, by unfold ClerkReady CoreSteps BlockInv Shape; decide +kernel⟩⟩

/-- The hypotheses of the clauses of Obligations.clerk_commands_complete can be met. -/
theorem met_clerk_commands_complete :
    (∃ (n : Nat) (a : Nat) (v : Nat) (l : List (Nat × Nat)) (s : State), BlockInv s ∧ n < 16 ∧ ((s.core n).storeQ = (a, v) :: l) ∧ ((s.core n).stopping = 0) ∧ s.masterLive (clerkMaster n) = true) ∧
    (∃ (n : Nat) (a : Nat) (v : Nat) (l : List (Nat × Nat)) (s : State), BlockInv s ∧ n < 16 ∧ ((s.core n).storeQ = (a, v) :: l) ∧ ((s.core n).stopping = 0) ∧ s.masterLive (clerkMaster n) = true ∧ s.place a = .trunk ∧ a % 4 = 0 ∧ s.ctxInUse a = false ∧ s.waitsFor (clerkMaster n) a = false) ∧
    (∃ (n : Nat) (a : Nat) (s : State), BlockInv s ∧ n < 16 ∧ ((s.core n).farLoad = some a) ∧ ((s.core n).storeQ = []) ∧ s.masterLive (clerkMaster n) = true) ∧
    (∃ (n : Nat) (a : Nat) (s : State), BlockInv s ∧ n < 16 ∧ ((s.core n).farLoad = some a) ∧ ((s.core n).haltNow = false) ∧ s.masterLive (clerkMaster n) = true ∧ s.place a = .trunk ∧ a % 4 = 0 ∧ s.badWords a 4 = [] ∧ s.waitsFor (clerkMaster n) a = false) ∧
    (∃ (n : Nat) (k : Nat) (s : State), BlockInv s ∧ n < 16 ∧ s.works 16 25 = true ∧ ((s.core n).irq = some k) ∧ ((s.core n).st = 2 ∨ (s.core n).st = 3) ∧ ((s.core n).boundary = true) ∧ ((s.core n).sr.testBit srIE = true)) ∧
    (∃ (n : Nat) (s : State), BlockInv s ∧ n < 16 ∧ s.works 16 25 = true ∧ ((s.core n).st = 3) ∧ ((s.core n).sr.testBit srIE = false) ∧ ((s.core n).irq.isSome = true)) ∧
    (∃ (n : Nat) (dc : Nat) (s : State), BlockInv s ∧ n < 16 ∧ s.works 16 25 = true ∧ 0 < (s.core n).get 0x301 ∧ ((s.core n).get 0x301 ≤ dc)) ∧
    (∃ (n : Nat) (s : State), BlockInv s ∧ n < 16) ∧
    (∃ (s : State), s.accessible 0 CLE.MDATA = true ∧ ((s.core (s.fld CLE.MSEL_CORE)).errs = []) ∧ s.fld CLE.MSEL_MEM = 0) ∧
    (∃ (s : State), s.accessible 0 CLE.MDATA = true ∧ s.fld CLE.MSEL_MEM = 0 ∧ ((s.core (s.fld CLE.MSEL_CORE)).st = 2)) ∧
    (∃ (s : State), BlockInv s ∧ s.accessible 0 CLE.MDATA = true ∧ s.fld CLE.MSEL_MEM = 0 ∧ ((s.core (s.fld CLE.MSEL_CORE)).st = 1)) ∧
    (∃ (n : Nat) (v : Word) (s : State), BlockInv s ∧ n < 16 ∧ v.toNat.testBit 0 = true ∧ v.toNat.testBit 3 = false ∧ ((s.core n).st = 0)) ∧
    (∃ (n : Nat) (v : Word) (s : State), BlockInv s ∧ n < 16 ∧ v.toNat.testBit 0 = true ∧ v.toNat.testBit 3 = true ∧ ((s.core n).st = 0)) ∧
    (∃ (n : Nat) (v : Word) (s : State), BlockInv s ∧ n < 16 ∧ v.toNat.testBit 0 = false ∧ v.toNat.testBit 1 = false ∧ ((s.core n).st = 2) ∧ ((s.core n).boundary = true) ∧ ((s.core n).storeQ = [])) ∧
    (∃ (n : Nat) (v : Word) (s : State), BlockInv s ∧ n < 16 ∧ v.toNat.testBit 0 = false ∧ v.toNat.testBit 1 = true ∧ ((s.core n).st = 2)) ∧
    (∃ (n : Nat) (dc : Nat) (s : State), ClerkReady s n dc .mov ∧ bits (s.clerkWord n) 8 8 = 0x4C ∧ moveCode (bits (s.clerkWord n) 16 8) = true) ∧
    (∃ (n : Nat) (dc : Nat) (s : State), ClerkReady s n dc .ldi ∧ bits (s.clerkWord n) 16 8 = 0x4D) := by
  exact ⟨⟨15, 0xFE0000000100, 5, [], coreAt State.reset 15 0 { Core.reset with storeQ := [(0xFE0000000100, 5)] }, by unfold BlockInv Shape; decide +kernel⟩,
    ⟨15, 0xFE0000000100, 5, [], coreAt State.reset 15 0 { Core.reset with storeQ := [(0xFE0000000100, 5)] }, by unfold BlockInv Shape; decide +kernel⟩,
    ⟨15, 0xFE0000000100, coreAt State.reset 15 0x70000000 { Core.reset with farLoad := some 0xFE0000000100 }, by unfold BlockInv Shape; decide +kernel⟩,
    ⟨15, 0xFE0000000100, { coreAt State.reset 15 0x70000000 { Core.reset with farLoad := some 0xFE0000000100 } with dram := { State.reset.dram with errs := [] } }, by unfold BlockInv Shape; decide +kernel⟩,
    ⟨15, 31, coreAt State.reset 15 0 { Core.reset with r := [(0x40, 0x10), (0x4A, 0x80000000), (0x4B, 0x80000000)] }, by unfold BlockInv Shape; decide +kernel⟩,
    ⟨15, State.reset.setCore 15 { Core.reset with st := 3, r := [(0x4A, 0x80000000), (0x4B, 0x80000000)] }, by unfold BlockInv Shape; decide +kernel⟩,
    ⟨15, 9, State.reset.setCore 15 { Core.reset with r := [(0x301, 9)] }, by unfold BlockInv Shape; decide +kernel⟩,
    ⟨15, State.reset, by unfold BlockInv Shape; decide +kernel⟩,
    ⟨((masters State.reset).setFld CLE.MSEL_MEM 0).setRegN CLE.MADDR 0x7FFF, by decide +kernel⟩,
    ⟨(((masters State.reset).setFld CLE.MSEL_MEM 0).setFld CLE.MSEL_CORE 15).setCore 15 { Core.reset with st := 2 }, by decide +kernel⟩,
    ⟨(((masters State.reset).setFld CLE.MSEL_MEM 0).setFld CLE.MSEL_CORE 15).setCore 15 { Core.reset with st := 1 }, by unfold BlockInv Shape; decide +kernel⟩,
    ⟨15, 1#32, State.reset.setCore 15 Core.reset, by unfold BlockInv Shape; decide +kernel⟩,
    ⟨15, 9#32, State.reset.setCore 15 Core.reset, by unfold BlockInv Shape; decide +kernel⟩,
    ⟨15, 0#32, State.reset.setCore 15 { Core.reset with st := 2 }, by unfold BlockInv Shape; decide +kernel⟩,
    ⟨15, 2#32, State.reset.setCore 15 { Core.reset with st := 2 }, by unfold BlockInv Shape; decide +kernel⟩,
    ⟨15, 1, coreAt State.reset 15 0x40004C00 { Core.reset with jobq := [3, 4] }, by unfold ClerkReady CoreSteps BlockInv Shape; decide +kernel⟩,
    ⟨15, 1, coreAt State.reset 15 0x604D0009 Core.reset, by unfold ClerkReady CoreSteps BlockInv Shape; decide +kernel⟩⟩

/-- The hypotheses of the clauses of Obligations.reference_commands_complete can be met. -/
theorem met_reference_commands_complete :
    (∃ (r : Nat) (m : List Byte) (after : Nat) (t : Nat) (s : State), r < 3 ∧ todFormat m = true ∧ 10000000 * ns ≤ after ∧ after ≤ 900000000 * ns ∧ (s.at t).todBefore r ((s.at t).up - after) = some ((leAt m 4 6 + 2 ^ 48 - 1) % 2 ^ 48)) ∧
    (∃ (r : Nat) (m : List Byte) (after : Nat) (t : Nat) (s : State), r < 3 ∧ todFormat m = true ∧ 10000000 * ns ≤ after ∧ after ≤ 900000000 * ns ∧ ((s.at t).todBefore r ((s.at t).up - after) = none)) ∧
    (∃ (r : Nat) (m : List Byte) (after : Nat) (x : Nat) (t : Nat) (s : State), r < 3 ∧ ((s.at t).todBefore r ((s.at t).up - after) = some x) ∧ x ≠ (leAt m 4 6 + 2 ^ 48 - 1) % 2 ^ 48) ∧
    (∃ (r : Nat) (m : List Byte) (s : State), r < 3 ∧ todFormat m = false) ∧
    (∃ (p : Nat) (s : State), p < 2 ∧ s.svcUp p = true) ∧
    (∃ (p : Nat) (t : Nat) (s : State), p < 2 ∧ p ∉ s.mel.esmcFailed ∧ Store.getD s.mel.esmcAt p 0 + 5 * second ≤ (s.at t).up) ∧
    (∃ (p : Nat) (s : State), p < 2 ∧ s.svcUp p = true) ∧
    (∃ (r : Nat) (s : State), s.refOn r = true ∧ s.mel.started = true ∧ s.refQual r ≠ 0) ∧
    (∃ (r : Nat) (t : Nat) (s : State), s.refOn r = true ∧ s.mel.started = true ∧ s.refQual r = 0 ∧ ((s.at t).checksPass r = true)) ∧
    (∃ (r : Nat) (t : Nat) (s : State), s.refOn r = true ∧ s.refQual r = 1 ∧ ((s.at t).waitLeft r = 0)) ∧
    (∃ (b : Nat) (t : Nat) (s : State), s.mel.started = true ∧ t % (100000000 * ns) = 0 ∧ s.flag MEL.CTRL_FORCE_HO = false ∧ s.melState = 2 ∧ s.bestRef = some b ∧ s.noSelection = false ∧ b ≠ s.melActive ∧ s.selectionDue s.melActive b = true) ∧
    (∃ (b : Nat) (t : Nat) (s : State), s.mel.started = true ∧ t % (100000000 * ns) = 0 ∧ s.flag MEL.CTRL_FORCE_HO = false ∧ s.melState = 0 ∧ s.bestRef = some b ∧ s.noSelection = true) ∧
    (∃ (s : State), s.melState = 6) ∧
    (∃ (s : State), s.mel.started = true) ∧
    (∃ (toff : List Int) (r : Nat) (s : State), s.mel.started = true ∧ s.melState = 2 ∧ s.melActive = r ∧ r < 3 ∧ s.qualified r = true ∧ (-(2 ^ 31) ≤ atD toff r 0) ∧ atD toff r 0 < 2 ^ 31) := by
  exact ⟨⟨2, todMsg, 900000000 * ns, 0, { State.reset with up := 2 * second, mel := { State.reset.mel with todPred := [(2, (8, second))] } }, by decide +kernel⟩,
    ⟨2, todMsg, 10000000 * ns, 0, { State.reset with up := 2 * second, mel := { State.reset.mel with todPred := [] } }, by decide +kernel⟩,
    ⟨2, todMsg, 900000000 * ns, 5, 0, { State.reset with up := 2 * second, mel := { State.reset.mel with todPred := [(2, (5, second))] } }, by decide +kernel⟩,
    ⟨2, [], State.reset, by decide +kernel⟩,
    ⟨1, State.reset.setFlag (PTP.SVC_STATUS_UP 1) true, by decide +kernel⟩,
    ⟨1, State.reset.now + 5000000000 * ns, { State.reset with mel := { State.reset.mel with esmcAt := [(1, State.reset.up)], esmcFailed := [] } }, by decide +kernel⟩,
    ⟨1, State.reset.setFlag (PTP.SVC_STATUS_UP 1) true, by decide +kernel⟩,
    ⟨5, { (State.reset.setFld MEL.REFCFG_EN 63).setFld (MEL.REF_STATUS_QUAL 5) 2 with mel := { State.reset.mel with started := true } }, by decide +kernel⟩,
    ⟨0, 0, { (((State.reset.setFld MEL.REFCFG_EN 63).setFld (MEL.REF_QL_CODE 0) 2).setFlag MEL.STATUS_OSC false).setFld (MEL.REF_STATUS_QUAL 0) 0 with mel := { State.reset.mel with started := true, todAt := [(0, State.reset.up)], disagBy := [] } }, by decide +kernel⟩,
    ⟨5, State.reset.now + 3600000000000 * ns, { (State.reset.setFld MEL.REFCFG_EN 63).setFld (MEL.REF_STATUS_QUAL 5) 1 with mel := { State.reset.mel with qualSince := [(5, 0)] } }, by decide +kernel⟩,
    ⟨1, 0, { (((State.reset.setFld MEL.REFCFG_EN 63).setFld MEL.STATUS_STATE 2).setFlag MEL.CTRL_FORCE_HO false).setFld (MEL.REF_STATUS_QUAL 1) 2 with mel := { State.reset.mel with started := true } }, by decide +kernel⟩,
    ⟨1, 0, { ((((State.reset.setFld MEL.REFCFG_EN 63).setFld MEL.STATUS_STATE 0).setFld MEL.STATUS_ACTIVE 7).setFlag MEL.CTRL_FORCE_HO false).setFld (MEL.REF_STATUS_QUAL 1) 2 with mel := { State.reset.mel with started := true } }, by decide +kernel⟩,
    ⟨State.reset.setFld MEL.STATUS_STATE 6, by decide +kernel⟩,
    ⟨{ State.reset with mel := { State.reset.mel with started := true } }, by decide +kernel⟩,
    ⟨[0, 2147483647], 1, { (((State.reset.setFld MEL.REFCFG_EN 63).setFld MEL.STATUS_STATE 2).setFld MEL.STATUS_ACTIVE 1).setFld (MEL.REF_STATUS_QUAL 1) 2 with mel := { State.reset.mel with started := true } }, by decide +kernel⟩⟩

/-- The hypotheses of the clauses of Obligations.melier_commands_complete can be met. -/
theorem met_melier_commands_complete :
    (∃ (t : Nat) (s : State), s.melState = 1 ∧ s.qualified s.melActive = true ∧ s.mel.acqSince.getD 0 + 2 * second ≤ (s.at t).up) ∧
    (∃ (v : Word) (t : Nat) (s : State), v.toNat.testBit 1 = true ∧ v.toNat.testBit 2 = false ∧ v.toNat.testBit 3 = false ∧ v.toNat.testBit 4 = false ∧ s.melState = 2 ∧ ((s.at t).hasHoldover = true)) ∧
    (∃ (v : Word) (t : Nat) (s : State), v.toNat.testBit 1 = true ∧ v.toNat.testBit 2 = false ∧ v.toNat.testBit 3 = false ∧ v.toNat.testBit 4 = false ∧ s.melState = 2 ∧ ((s.at t).hasHoldover = false)) ∧
    (∃ (t : Nat) (s : State), s.melState = 3 ∧ s.regN MEL.HO_LIM * (s.at t).holdTe.2 < (s.at t).holdTe.1) ∧
    (∃ (s : State), s.flag MEL.STATUS_OSC = false) ∧
    (∃ (s : State), s.noneWait ∧ s.flag MEL.STATUS_OSC = true) ∧
    (∃ (s : State), s.noneWait ∧ s.flag MEL.STATUS_OSC = false ∧ s.ready 5 = false) ∧
    (∃ (s : State), s.mel.started = true ∧ s.melState ≠ 7 ∧ s.standbyGood = true ∧ s.mel.resync = false ∧ s.mel.swapAt = none) ∧
    (∃ (a : Nat) (s : State), s.mel.started = true ∧ s.melState ≠ 7 ∧ s.standbyGood = true ∧ s.mel.resync = false ∧ s.mel.swapAt = some a) ∧
    (∃ (s : State), s.mel.started = true ∧ s.melState ≠ 7) ∧
    (∃ (s : State), s.mel.started = true ∧ s.melState ≠ 7 ∧ s.standbyGood = false) ∧
    (∃ (v : Word) (s : State), v.toNat.testBit 1 = false ∧ v.toNat.testBit 2 = true ∧ v.toNat.testBit 3 = false ∧ v.toNat.testBit 4 = false ∧ s.mel.started = true ∧ s.standbyGood = true ∧ s.melState ≠ 6 ∧ s.melState ≠ 7 ∧ s.mel.swapAt = none ∧ s.mel.resync = false) ∧
    (∃ (v : Word) (s : State), v.toNat.testBit 1 = false ∧ v.toNat.testBit 2 = true ∧ v.toNat.testBit 3 = false ∧ v.toNat.testBit 4 = false ∧ s.standbyGood = false) ∧
    (∃ (a : Nat) (s : State), s.mel.swapAt = some a ∧ s.standbyGood = false) ∧
    (∃ (a : Nat) (s : State), s.mel.swapAt = some a ∧ s.standbyGood = true) ∧
    (∃ (t : Nat) (a : Nat) (s : State), s.mel.swapAt = some a ∧ a + 1000000 * ns ≤ (s.at t).up) ∧
    (∃ (v : Word) (s : State), v.toNat.testBit 1 = false ∧ v.toNat.testBit 2 = false ∧ v.toNat.testBit 3 = true ∧ v.toNat.testBit 4 = false ∧ s.mel.started = true ∧ s.melState ≠ 7 ∧ s.mel.swapAt = none ∧ s.flag (okFld (1 - s.melCore)) = false) ∧
    (∃ (s : State), s.mel.resync = true) ∧
    (∃ (v : Word) (s : State), v.toNat.testBit 1 = false ∧ v.toNat.testBit 2 = false ∧ v.toNat.testBit 3 = false ∧ v.toNat.testBit 4 = true ∧ s.bellState = stSTOPPED) ∧
    (∃ (v : Word) (s : State), v.toNat.testBit 1 = false ∧ v.toNat.testBit 2 = false ∧ v.toNat.testBit 3 = false ∧ v.toNat.testBit 4 = true ∧ s.bellState ≠ stSTOPPED) ∧
    (∃ (s : State), s.mel.started = false ∧ s.melStopped = false ∧ s.flag MEL.STATUS_OSC = false) := by
  exact ⟨⟨0, { (((State.reset.setFld MEL.REFCFG_EN 63).setFld MEL.STATUS_STATE 1).setFld MEL.STATUS_ACTIVE 1).setFld (MEL.REF_STATUS_QUAL 1) 2 with up := 5 * second, mel := { State.reset.mel with acqSince := some (3 * second) } }, by decide +kernel⟩,
    ⟨2#32, 0, { State.reset.setFld MEL.STATUS_STATE 2 with mel := { State.reset.mel with hoFreq := some 5 } }, by decide +kernel⟩,
    ⟨2#32, 0, { State.reset.setFld MEL.STATUS_STATE 2 with mel := { State.reset.mel with hoFreq := none } }, by decide +kernel⟩,
    ⟨State.reset.now + 864000000000000 * ns, { (State.reset.setFld MEL.STATUS_STATE 3).setRegN MEL.HO_LIM 1 with mel := { State.reset.mel with hoStart := some 0 } }, by decide +kernel⟩,
    ⟨State.reset.setFlag MEL.STATUS_OSC false, by decide +kernel⟩,
    ⟨State.reset.setFlag MEL.STATUS_OSC true, by unfold State.noneWait; decide +kernel⟩,
    ⟨((masters State.reset).setFlag MEL.STATUS_OSC false).setReady 5 false, by unfold State.noneWait; decide +kernel⟩,
    ⟨{ State.reset.setRegN MEL.STATUS 0x0C38 with mel := { State.reset.mel with started := true, resync := false, swapAt := none } }, by decide +kernel⟩,
    ⟨State.reset.up, { State.reset.setRegN MEL.STATUS 0x0C38 with mel := { State.reset.mel with started := true, resync := false, swapAt := some State.reset.up } }, by decide +kernel⟩,
    ⟨{ State.reset.setRegN MEL.STATUS 0x0C38 with mel := { State.reset.mel with started := true } }, by decide +kernel⟩,
    ⟨{ State.reset.setRegN MEL.STATUS 0x0438 with mel := { State.reset.mel with started := true } }, by decide +kernel⟩,
    ⟨4#32, { State.reset.setRegN MEL.STATUS 0x0C38 with mel := { State.reset.mel with started := true, resync := false, swapAt := none } }, by decide +kernel⟩,
    ⟨4#32, State.reset.setRegN MEL.STATUS 0x0438, by decide +kernel⟩,
    ⟨State.reset.up, { State.reset.setRegN MEL.STATUS 0x0438 with mel := { State.reset.mel with swapAt := some State.reset.up } }, by decide +kernel⟩,
    ⟨State.reset.up, { State.reset.setRegN MEL.STATUS 0x0C38 with mel := { State.reset.mel with swapAt := some State.reset.up } }, by decide +kernel⟩,
    ⟨State.reset.now + 1000000 * ns, State.reset.up, { State.reset.setRegN MEL.STATUS 0x0C38 with mel := { State.reset.mel with swapAt := some State.reset.up } }, by decide +kernel⟩,
    ⟨8#32, { State.reset.setRegN MEL.STATUS 0x0438 with mel := { State.reset.mel with started := true, swapAt := none } }, by decide +kernel⟩,
    ⟨{ State.reset.setRegN MEL.STATUS 0x0438 with mel := { State.reset.mel with resync := true } }, by decide +kernel⟩,
    ⟨16#32, State.reset.setBellState 0, by decide +kernel⟩,
    ⟨16#32, State.reset.setBellState 3, by decide +kernel⟩,
    ⟨{ State.reset.setRegN MEL.STATUS 0 with mel := { State.reset.mel with started := false } }, by decide +kernel⟩⟩

/-- The hypotheses of the clauses of Obligations.station_time_commands_complete can be met. -/
theorem met_station_time_commands_complete :
    (∃ (src : Nat) (s : State), src < 11 ∧ Store.get? s.ptp.lastEdge src = none) ∧
    (∃ (src : Nat) (t : Nat) (a : Nat) (s : State), src < 11 ∧ Store.get? s.ptp.lastEdge src = some a ∧ ((s.at t).up < a + 100 * ns)) ∧
    (∃ (v : Word) (s : State), v.toNat.testBit 0 = true ∧ v.toNat.testBit 1 = true ∧ s.bellState = stSTOPPED) ∧
    (∃ (v : Word) (s : State), v.toNat.testBit 0 = true ∧ v.toNat.testBit 1 = false ∧ s.bellState = stSTOPPED) ∧
    (∃ (v : Word) (s : State), v.toNat.testBit 0 = true ∧ s.bellState ≠ stSTOPPED) ∧
    (∃ (s : State), s.ptp.queue = []) ∧
    (∃ (q : Stamp) (l : List Stamp) (s : State), s.ptp.queue = q :: l) ∧
    (∃ (p : Nat) (s : State), p < 2 ∧ s.svcUp p = true) ∧
    (∃ (p : Nat) (f : List Byte) (s : State), p < 2 ∧ s.svcUp p = true ∧ 9216 < f.length + 4) ∧
    (∃ (p : Nat) (f : List Byte) (s : State), p < 2 ∧ s.svcUp p = true ∧ (s.svcUp (otherSvc p) = false ∨ s.svcChain = false) ∧ f.length ≤ 9212 ∧ beAt f 12 2 ≠ 0x88B5 ∧ beAt f (etherTypeAt f) 2 ≠ 0x8809 ∧ ptpLoc f = none ∧ beAt f 0 6 ≠ 0x0180C200000E) ∧
    (∃ (p : Nat) (f : List Byte) (t : Nat) (s : State), BlockInv s ∧ p < 2 ∧ s.svcUp p = true ∧ s.svcUp (otherSvc p) = true ∧ s.svcChain = true ∧ f.length ≤ 9212 ∧ beAt f 12 2 ≠ 0x88B5 ∧ beAt f (etherTypeAt f) 2 ≠ 0x8809 ∧ ptpLoc f = none ∧ beAt f 0 6 ≠ 0x0180C200000E ∧ ((s.svcOut (otherSvc p)).frames = []) ∧ ((s.svcOut (otherSvc p)).freeAt ≤ (s.at t).up)) ∧
    (∃ (p : Nat) (f : List Byte) (l : PtpLoc) (g : List Byte) (tx : Nat) (t : Nat) (s : State), BlockInv s ∧ p < 2 ∧ s.svcUp p = true ∧ s.svcUp (otherSvc p) = true ∧ s.svcChain = true ∧ s.flag PTP.TC_CTRL_EN = true ∧ f.length ≤ 9212 ∧ ptpLoc f = some l ∧ s.consumesPdelay f = false ∧ ptpType f l.off = 0 ∧ ptpTwoStep f l.off = false ∧ s.p2p = false ∧ ((s.svcOut (otherSvc p)).frames = []) ∧ ((s.svcOut (otherSvc p)).freeAt ≤ (s.at t).up) ∧ ((s.at t).now ≤ tx) ∧ corrected f l ((s.at t).residence p tx) = some g) ∧
    (∃ (t : Nat) (e : TcEntry) (l : List TcEntry) (s : State), s.ptp.tc = e :: l ∧ e.since + second ≤ (s.at t).up) := by
  exact ⟨⟨10, { State.reset with ptp := { State.reset.ptp with lastEdge := [] } }, by decide +kernel⟩,
    ⟨10, State.reset.now + 99 * ns, State.reset.up, { State.reset with ptp := { State.reset.ptp with lastEdge := [(10, State.reset.up)] } }, by decide +kernel⟩,
    ⟨3#32, State.reset.setBellState 0, by decide +kernel⟩,
    ⟨1#32, State.reset.setBellState 0, by decide +kernel⟩,
    ⟨3#32, State.reset.setBellState 3, by decide +kernel⟩,
    ⟨{ State.reset with ptp := { State.reset.ptp with queue := [] } }, by decide +kernel⟩,
    ⟨⟨10, true, 5, true⟩, [], { State.reset with ptp := { State.reset.ptp with queue := [⟨10, true, 5, true⟩] } }, by decide +kernel⟩,
    ⟨1, State.reset.setFlag (PTP.SVC_STATUS_UP 1) true, by decide +kernel⟩,
    ⟨1, List.replicate 9213 1#8, State.reset.setFlag (PTP.SVC_STATUS_UP 1) true, by decide +kernel⟩,
    ⟨1, List.replicate 60 1#8, ((State.reset.setFlag (PTP.SVC_STATUS_UP 1) true).setFlag (PTP.SVC_STATUS_UP 0) false).setFlag PTP.STATUS_CHAIN true, by decide +kernel⟩,
    ⟨1, List.replicate 60 1#8, 0, ((State.reset.setFlag (PTP.SVC_STATUS_UP 1) true).setFlag (PTP.SVC_STATUS_UP 0) true).setFlag PTP.STATUS_CHAIN true, by unfold BlockInv Shape; decide +kernel⟩,
    ⟨1, ptpFrame 0 (List.replicate 10 0#8), ⟨14, 0, 0⟩, _, 0, 0, ((((State.reset.setFlag (PTP.SVC_STATUS_UP 1) true).setFlag (PTP.SVC_STATUS_UP 0) true).setFlag PTP.STATUS_CHAIN true).setFlag PTP.TC_CTRL_EN true).setFlag PTP.TC_CTRL_MECH false, by unfold BlockInv Shape; (iterate 15 refine And.intro (by decide +kernel) ?_); rfl⟩,
    ⟨State.reset.now + second, ⟨0, 1, 2, 0, 0, State.reset.up⟩, [], { State.reset with ptp := { State.reset.ptp with tc := [⟨0, 1, 2, 0, 0, State.reset.up⟩] } }, by decide +kernel⟩⟩

/-- The hypotheses of the clauses of Obligations.peer_delay_and_slave_commands_complete can be met. -/
theorem met_peer_delay_and_slave_commands_complete :
    (∃ (p : Nat) (t : Nat) (s : State), BlockInv s ∧ p < 2 ∧ s.p2p = true ∧ s.svcUp p = true ∧ (∀ a, (s.pd p).sentAt = some a → a + s.pdInterval ≤ (s.at t).up)) ∧
    (∃ (p : Nat) (f : List Byte) (l : PtpLoc) (s : State), p < 2 ∧ s.p2p = true ∧ s.svcUp p = true ∧ ptpLoc f = some l ∧ ptpType f l.off = 2 ∧ s.flag PTP.TC_CTRL_ONESTEP = true) ∧
    (∃ (p : Nat) (f : List Byte) (l : PtpLoc) (s : State), p < 2 ∧ s.p2p = true ∧ s.svcUp p = true ∧ ptpLoc f = some l ∧ ptpType f l.off = 2 ∧ s.flag PTP.TC_CTRL_ONESTEP = false) ∧
    (∃ (p : Nat) (f : List Byte) (l : PtpLoc) (q : Nat) (t1 : Int) (s : State), BlockInv s ∧ p < 2 ∧ s.p2p = true ∧ s.svcUp p = true ∧ ptpLoc f = some l ∧ (s.pd p).req = some (q, t1) ∧ ptpType f l.off = 3 ∧ ptpTwoStep f l.off = false ∧ ptpSeq f l.off = q ∧ beAt f (l.off + 44) 10 = s.ownSpi p) ∧
    (∃ (p : Nat) (s : State), BlockInv s ∧ p < 2 ∧ s.p2p = true ∧ 3 ≤ (s.pd p).unanswered ∧ ((s.pd p).failed = false)) ∧
    (∃ (v : Word) (s : State), v.toNat.testBit 0 = true ∧ s.slaveState = 0 ∧ s.svcUp 0 = true) ∧
    (∃ (v : Word) (s : State), v.toNat.testBit 0 = false) ∧
    (∃ (f : List Byte) (o : Nat) (s : State), s.slaveLoc f = some o ∧ s.svcUp 0 = true ∧ 1 ≤ s.slaveState ∧ s.slaveState ≤ 3 ∧ ptpType f o = 11 ∧ (ptpTimescale f o = true ∨ s.flag PTP.CTRL_ARB = true) ∧ ptpSpi f o / 65536 ≠ s.clockId) ∧
    (∃ (m : PtpMaster) (t : Nat) (s : State), s.selMaster = some m ∧ (s.slaveState = 2 ∨ s.slaveState = 3) ∧ m.last + max 2 (s.fld PTP.SLV_CTRL_ANN_TO) * logSeconds m.logAnn ≤ (s.at t).up) ∧
    (∃ (f : List Byte) (o : Nat) (s : State), s.slaveLoc f = some o ∧ s.svcUp 0 = true ∧ (s.slaveState = 2 ∨ s.slaveState = 3) ∧ some (ptpSpi f o) = s.ptp.sel ∧ ptpType f o = 0 ∧ ptpTwoStep f o = false) ∧
    (∃ (t : Nat) (s : State), s.svcUp 0 = true ∧ (s.slaveState = 2 ∨ s.slaveState = 3) ∧ s.flag PTP.SLV_CTRL_MECH = false ∧ (∀ a, s.ptp.delayAt = some a → a + logSeconds s.ptp.logDelay ≤ (s.at t).up)) ∧
    (∃ (f : List Byte) (o : Nat) (q : Nat) (t3 : Int) (d : Int) (s : State), s.slaveLoc f = some o ∧ s.ptp.delayReq = some (q, t3) ∧ s.ptp.msDelay = some d ∧ s.svcUp 0 = true ∧ (s.slaveState = 2 ∨ s.slaveState = 3) ∧ s.flag PTP.SLV_CTRL_MECH = false ∧ ptpType f o = 9 ∧ some (ptpSpi f o) = s.ptp.sel ∧ ptpSeq f o = q ∧ beAt f (o + 44) 10 = s.ownSpi 0) ∧
    (∃ (p : Nat) (s : State), p < 2 ∧ s.flag (PTP.SVC_CTRL_EN p) = true ∧ s.svcUp p = false) ∧
    (∃ (p : Nat) (s : State), p < 2 ∧ s.svcUp p = true) ∧
    (∃ (t : Nat) (s : State), s.slaveState = 4 ∧ s.svcUp 0 = true ∧ max s.ptp.faultAt (Store.getD s.ptp.upAt 0 0) + second ≤ (s.at t).up) ∧
    (∃ (v : Word) (s : State), v.toNat.testBit 1 = true ∧ s.flag PTP.CDSTATUS_PEND = false) ∧
    (∃ (s : State), s.flag PTP.CDSTATUS_PEND = true) := by
  exact ⟨⟨1, 0, ((State.reset.setFlag PTP.TC_CTRL_MECH true).setFlag (PTP.SVC_STATUS_UP 1) true).setPd 1 { State.reset.pd 1 with sentAt := none }, by unfold BlockInv Shape; decide +kernel⟩,
    ⟨1, ptpFrame 2 (List.replicate 20 0#8), ⟨14, 0, 0⟩, ((State.reset.setFlag PTP.TC_CTRL_MECH true).setFlag (PTP.SVC_STATUS_UP 1) true).setFlag PTP.TC_CTRL_ONESTEP true, by decide +kernel⟩,
    ⟨1, ptpFrame 2 (List.replicate 20 0#8), ⟨14, 0, 0⟩, ((State.reset.setFlag PTP.TC_CTRL_MECH true).setFlag (PTP.SVC_STATUS_UP 1) true).setFlag PTP.TC_CTRL_ONESTEP false, by decide +kernel⟩,
    ⟨1, ptpFrame 3 (List.replicate 10 0#8 ++ toBytesBE 10 2), ⟨14, 0, 0⟩, 8, 77, ((((State.reset.setFlag PTP.TC_CTRL_MECH true).setFlag (PTP.SVC_STATUS_UP 1) true).setRegN PTP.CLKID_LO 0).setRegN PTP.CLKID_HI 0).setPd 1 { State.reset.pd 1 with req := some (8, 77) }, by unfold BlockInv Shape; decide +kernel⟩,
    ⟨1, (State.reset.setFlag PTP.TC_CTRL_MECH true).setPd 1 { State.reset.pd 1 with unanswered := 3, failed := false }, by unfold BlockInv Shape; decide +kernel⟩,
    ⟨0xFFFF#32, slave State.reset 0, by decide +kernel⟩,
    ⟨0#32, slave State.reset 3, by decide +kernel⟩,
    ⟨ptpFrame 11 (List.replicate 30 0#8), 14, slave State.reset 3, by decide +kernel⟩,
    ⟨aMaster, State.reset.now + 3000000000 * ns + State.reset.now * 2, (slave State.reset 3).setFld PTP.SLV_CTRL_ANN_TO 3, by decide +kernel⟩,
    ⟨ptpFrame 0 (List.replicate 10 0#8), 14, slave State.reset 2, by decide +kernel⟩,
    ⟨0, slave State.reset 3, by decide +kernel⟩,
    ⟨ptpFrame 9 (List.replicate 10 0#8 ++ toBytesBE 10 1), 14, 8, 77, 5, { slave State.reset 3 with ptp := { (slave State.reset 3).ptp with delayReq := some (8, 77), msDelay := some 5 } }, by decide +kernel⟩,
    ⟨1, (State.reset.setFlag (PTP.SVC_CTRL_EN 1) true).setFlag (PTP.SVC_STATUS_UP 1) false, by decide +kernel⟩,
    ⟨1, State.reset.setFlag (PTP.SVC_STATUS_UP 1) true, by decide +kernel⟩,
    ⟨State.reset.now + second, { slave State.reset 4 with ptp := { (slave State.reset 4).ptp with faultAt := State.reset.up, upAt := [] } }, by decide +kernel⟩,
    ⟨3#32, State.reset.setFlag PTP.CDSTATUS_PEND false, by decide +kernel⟩,
    ⟨State.reset.setFlag PTP.CDSTATUS_PEND true, by decide +kernel⟩⟩

/-- The hypotheses of the clauses of Obligations.clock_commands_complete can be met. -/
theorem met_clock_commands_complete :
    (∃ (s : State), s.noneWait ∧ s.flag CKG.AON_XRUN = true) ∧
    (∃ (s : State), s.flag CKG.AON_XRUN = true) ∧
    (∃ (s : State), s.ready 6 = true ∧ s.flag CKG.AON_SRC = true) ∧
    (∃ (v : Word) (s : State), v.toNat.testBit 2 = true ∧ s.flag CKG.AON_XRUN = false) ∧
    (∃ (k : Nat) (v : Word) (s : State), k < 4 ∧ v.toNat.testBit 0 = true) ∧
    (∃ (k : Nat) (v : Word) (s : State), k < 4 ∧ v.toNat.testBit 0 = false ∧ s.flag (CKG.PLL_CTRL_EN k) = true ∧ s.pllSelected k = true) ∧
    (∃ (k : Nat) (s : State), k < 4 ∧ s.flag CFG.STATUS_LOCKED = false ∧ s.flag (CKG.PLL_CTRL_EN k) = false) ∧
    (∃ (k : Nat) (s : State), k < 4 ∧ s.flag (CKG.PLL_CTRL_EN k) = true) ∧
    (∃ (k : Nat) (s : State), k < 4 ∧ s.flag CFG.STATUS_LOCKED = true ∧ s.flag (CKG.PLL_CTRL_EN k) = false) ∧
    (∃ (k : Nat) (s : State), s.noneWait ∧ k < 4 ∧ s.flag (CKG.PLL_CTRL_EN k) = true ∧ s.ready (s.refBit k) = true ∧ s.ready k = false) ∧
    (∃ (k : Nat) (s : State), k < 4 ∧ s.ready k = true) ∧
    (∃ (k : Nat) (v : Word) (s : State), k < 4 ∧ v.toNat % 4 ≠ 3 ∧ s.sourceReady k (v.toNat % 4) = true ∧ s.target k = none ∧ s.fld (CKG.DOM_STATUS_CUR k) ≠ v.toNat % 4) ∧
    (∃ (k : Nat) (v : Word) (s : State), k < 4 ∧ (v.toNat % 4 = 3 ∨ s.sourceReady k (v.toNat % 4) = false ∨ s.target k ≠ none ∨ s.fld (CKG.DOM_STATUS_CUR k) = v.toNat % 4)) ∧
    (∃ (k : Nat) (x : Nat) (s : State), s.noneWait ∧ k < 4 ∧ s.target k = some x ∧ s.clockRuns k = true) ∧
    (∃ (k : Nat) (x : Nat) (s : State), s.noneWait ∧ k < 4 ∧ s.target k = some x ∧ s.clockRuns k = false) ∧
    (∃ (v : Word) (s : State), v.toNat.testBit 6 = true ∧ v.toNat.testBit 5 = false ∧ gatePresent s.part (v.toNat % 32) = true ∧ (∀ c, c < 30 → gateParent c = some (v.toNat % 32) → s.gateBit c = false) ∧ s.gateBit (v.toNat % 32) = true ∧ s.gatePending (v.toNat % 32) = false) ∧
    (∃ (v : Word) (s : State), v.toNat.testBit 6 = true ∧ v.toNat.testBit 5 = false ∧ gatePresent s.part (v.toNat % 32) = true ∧ (∀ c, c < 30 → gateParent c = some (v.toNat % 32) → s.gateBit c = false) ∧ s.gateBit (v.toNat % 32) = true ∧ s.gatePending (v.toNat % 32) = false) ∧
    (∃ (v : Word) (s : State), s.noneWait ∧ v.toNat.testBit 6 = true ∧ v.toNat.testBit 5 = true ∧ gatePresent s.part (v.toNat % 32) = true ∧ (∀ p, gateParent (v.toNat % 32) = some p → s.gateBit p = true) ∧ s.gatePending (v.toNat % 32) = false) ∧
    (∃ (v : Word) (p : Nat) (s : State), s.noneWait ∧ v.toNat.testBit 6 = true ∧ v.toNat.testBit 5 = true ∧ gatePresent s.part (v.toNat % 32) = true ∧ gateParent (v.toNat % 32) = some p ∧ s.gateBit p = false) ∧
    (∃ (g : Nat) (s : State), s.noneWait ∧ s.gatePending g = true) ∧
    (∃ (g : Nat) (s : State), s.noneWait ∧ s.gatePending g = true) := by
  exact ⟨⟨State.reset.setFlag CKG.AON_XRUN true, by unfold State.noneWait; decide +kernel⟩,
    ⟨State.reset.setFlag CKG.AON_XRUN true, by decide +kernel⟩,
    ⟨(State.reset.setReady 6 true).setFlag CKG.AON_SRC true, by decide +kernel⟩,
    ⟨4#32, State.reset.setFlag CKG.AON_XRUN false, by decide +kernel⟩,
    ⟨3, 1#32, State.reset, by decide +kernel⟩,
    ⟨3, 0#32, (State.reset.setFlag (CKG.PLL_CTRL_EN 3) true).setFld (CKG.DOM_STATUS_CUR 3) 1, by decide +kernel⟩,
    ⟨3, (State.reset.setFlag CFG.STATUS_LOCKED false).setFlag (CKG.PLL_CTRL_EN 3) false, by decide +kernel⟩,
    ⟨3, State.reset.setFlag (CKG.PLL_CTRL_EN 3) true, by decide +kernel⟩,
    ⟨3, (State.reset.setFlag CFG.STATUS_LOCKED true).setFlag (CKG.PLL_CTRL_EN 3) false, by decide +kernel⟩,
    ⟨3, (((State.reset.setFlag (CKG.PLL_CTRL_EN 3) true).setReady 4 true).setReady 5 true).setReady 3 false, by unfold State.noneWait; decide +kernel⟩,
    ⟨3, State.reset.setReady 3 true, by decide +kernel⟩,
    ⟨3, 2#32, { (State.reset.setReady 6 true).setFld (CKG.DOM_STATUS_CUR 3) 0 with clk := { target := [], stopped := 0 } }, by decide +kernel⟩,
    ⟨3, 3#32, State.reset, by decide +kernel⟩,
    ⟨3, 2, { State.reset with clk := { target := [(3, 2)], stopped := 0 } }, by unfold State.noneWait; decide +kernel⟩,
    ⟨3, 2, { masters State.reset with clk := { target := [(3, 2)], stopped := 8 } }, by unfold State.noneWait; decide +kernel⟩,
    ⟨0x5D#32, ((State.reset.setRegN CKG.GATE_OPEN 0x3FFFFFFF).setRegN CKG.GATE_PEND 0), by decide +kernel⟩,
    ⟨0x5D#32, ((State.reset.setRegN CKG.GATE_OPEN 0x3FFFFFFF).setRegN CKG.GATE_PEND 0), by decide +kernel⟩,
    ⟨0x7D#32, ((State.reset.setRegN CKG.GATE_OPEN 0x1FFFFFFF).setRegN CKG.GATE_PEND 0), by unfold State.noneWait; decide +kernel⟩,
    ⟨0x7D#32, 24, ((State.reset.setRegN CKG.GATE_OPEN 0).setRegN CKG.GATE_PEND 0), by unfold State.noneWait; decide +kernel⟩,
    ⟨29, State.reset.setRegN CKG.GATE_PEND 0x20000000, by unfold State.noneWait; decide +kernel⟩,
    ⟨29, State.reset.setRegN CKG.GATE_PEND 0x20000000, by unfold State.noneWait; decide +kernel⟩⟩

/-- The hypotheses of the clauses of Obligations.power_commands_complete can be met. -/
theorem met_power_commands_complete :
    (∃ (d : Nat) (s : State), d < 17 ∧ domainPresent s.part d = true ∧ d ≠ 0 ∧ d ≠ 1 ∧ d ≠ 13) ∧
    (∃ (d : Nat) (m : Nat) (s : State), d < 17 ∧ domainPresent s.part d = true ∧ d ≠ 0 ∧ d ≠ 1 ∧ d ≠ 13 ∧ (m = 1 ∨ m = 2)) ∧
    (∃ (d : Nat) (t : Nat) (s : State), ((s.at t).mayComeUp d = true) ∧ s.cfg.full = none) ∧
    (∃ (d : Nat) (t : Nat) (s : State), ((s.at t).mayGoDown d = true)) ∧
    (∃ (d : Nat) (t : Nat) (s : State), ((s.at t).mayGoDown d = true)) ∧
    (∃ (d : Nat) (t : Nat) (a : Nat) (s : State), Store.get? s.pwr.trimAt d = some a ∧ a + 10000000 * ns ≤ (s.at t).up) ∧
    (∃ (v : Word) (s : State), v.toNat.testBit 0 = true ∧ s.powerState = 0 ∧ s.bellState = stSTOPPED) ∧
    (∃ (v : Word) (s : State), v.toNat.testBit 0 = true ∧ s.powerState = 0 ∧ s.bellState ≠ stSTOPPED) ∧
    (∃ (s : State), s.powerState = 6 ∧ s.pwr.wakeHeld = false) ∧
    (∃ (s : State), s.lockout = false ∧ s.powerState = 2) ∧
    (∃ (s : State), s.lockout = false ∧ s.powerState = 6) ∧
    (∃ (s : State), s.pwr.step = 1 ∧ s.pwr.undoneAt = none) ∧
    (∃ (s : State), s.pwr.step = 2 ∧ s.pwr.undoneAt = none ∧ s.ready 6 = true) ∧
    (∃ (s : State), s.pwr.step = 3 ∧ s.pwr.undoneAt = none ∧ (∀ k, k < 4 → s.ready k = true)) ∧
    (∃ (t : Nat) (s : State), s.pwr.step = 4 ∧ s.pwr.undoneAt = none ∧ ((s.at t).stepSatisfied 4 = true)) ∧
    (∃ (t : Nat) (s : State), s.pwr.step = 1 ∧ s.pwr.undoneAt = none ∧ s.pwr.stepAt + 2000000 * ns ≤ (s.at t).up ∧ atD s.pwr.attempts 0 0 < 3) ∧
    (∃ (t : Nat) (s : State), s.pwr.step = 1 ∧ s.pwr.undoneAt = none ∧ s.pwr.stepAt + 2000000 * ns ≤ (s.at t).up ∧ 3 ≤ atD s.pwr.attempts 0 0) ∧
    (∃ (t : Nat) (a : Nat) (s : State), s.pwr.undoneAt = some a ∧ a + 1000000 * ns ≤ (s.at t).up) := by
  exact ⟨⟨16, State.reset, by decide +kernel⟩,
    ⟨16, 2, State.reset, by decide +kernel⟩,
    ⟨8, 0, { (((State.reset.setRegN PWR.DOM_ON 0x1FEFF).setPowerState 0).setRegN PWR.VETO 0).setFld SEC.STATUS_STATE 0 with cfg := { State.reset.cfg with full := none } } |> fun x => x.setRegN (PWR.VOTE 8) 1, by decide +kernel⟩,
    ⟨8, 0, { ((((State.reset.setRegN PWR.DOM_ON 0x1FFFF).setPowerState 0).setRegN PWR.VETO 0x100).setRegN (PWR.VOTE 8) 0) with pwr := { State.reset.pwr with trimAt := [] } }, by decide +kernel⟩,
    ⟨8, 0, { ((((State.reset.setRegN PWR.DOM_ON 0x1FFFF).setPowerState 0).setRegN PWR.VETO 0x100).setRegN (PWR.VOTE 8) 0) with pwr := { State.reset.pwr with trimAt := [] } }, by decide +kernel⟩,
    ⟨8, State.reset.now + 10000000 * ns, State.reset.up, { State.reset with pwr := { State.reset.pwr with trimAt := [(8, State.reset.up)] } }, by decide +kernel⟩,
    ⟨1#32, (State.reset.setPowerState 0).setBellState 0, by decide +kernel⟩,
    ⟨1#32, (State.reset.setPowerState 0).setBellState 1, by decide +kernel⟩,
    ⟨{ State.reset.setPowerState 6 with pwr := { State.reset.pwr with wakeHeld := false } }, by decide +kernel⟩,
    ⟨(State.reset.setPowerState 2).setFld SEC.STATUS_STATE 0, by decide +kernel⟩,
    ⟨(State.reset.setPowerState 6).setFld SEC.STATUS_STATE 0, by decide +kernel⟩,
    ⟨{ State.reset.setPowerState 1 with pwr := { State.reset.pwr with step := 1, undoneAt := none } }, by decide +kernel⟩,
    ⟨{ (State.reset.setPowerState 1).setReady 6 true with pwr := { State.reset.pwr with step := 2, undoneAt := none } }, by decide +kernel⟩,
    ⟨{ (State.reset.setPowerState 1).setRegN CKG.READY 0x7F with pwr := { State.reset.pwr with step := 3, undoneAt := none } }, by decide +kernel⟩,
    ⟨0, { (State.reset.setPowerState 1).setRegN PWR.DOM_ON 0x1FFFF with pwr := { State.reset.pwr with step := 4, undoneAt := none } }, by decide +kernel⟩,
    ⟨State.reset.now + 2000000 * ns, { State.reset.setPowerState 1 with pwr := { State.reset.pwr with step := 1, undoneAt := none, stepAt := State.reset.up, attempts := [2, 0, 0, 0] } }, by decide +kernel⟩,
    ⟨State.reset.now + 2000000 * ns, { State.reset.setPowerState 1 with pwr := { State.reset.pwr with step := 1, undoneAt := none, stepAt := State.reset.up, attempts := [3, 0, 0, 0] } }, by decide +kernel⟩,
    ⟨State.reset.now + 1000000 * ns, State.reset.up, { State.reset with pwr := { State.reset.pwr with undoneAt := some State.reset.up } }, by decide +kernel⟩⟩

/-- The hypotheses of the clauses of Obligations.ledger_and_thermal_commands_complete can be met. -/
theorem met_ledger_and_thermal_commands_complete :
    (∃ (r : Nat) (s : State), BlockInv s ∧ r < 13 ∧ s.flag (LED.RAIL_CFG_EN r) = true) ∧
    (∃ (r : Nat) (s : State), BlockInv s ∧ r < 13 ∧ s.flag (LED.RAIL_CFG_EN r) = true ∧ ((s.rail r).watts ≠ [])) ∧
    (∃ (r : Nat) (s : State), BlockInv s ∧ r < 13 ∧ s.flag (LED.RAIL_CFG_EN r) = true ∧ ((s.rail r).watts = [])) ∧
    (∃ (r : Nat) (t : Nat) (s : State), BlockInv s ∧ r < 13 ∧ s.flag (LED.RAIL_CFG_EN r) = true ∧ ((s.rail r).lost = false) ∧ ((s.rail r).replyAt + 3000000000 * ns ≤ (s.at t).up)) ∧
    (∃ (v : Word) (s : State), v.toNat.testBit 1 = true) ∧
    (∃ (t : Nat) (f : Nat) (s : State), ((s.at t).curFrame = some f) ∧ ((s.at t).slotAt 1023 ≤ (s.at t).now) ∧ s.led.next = none) ∧
    (∃ (t : Nat) (p : FramePlan) (s : State), s.led.cur = some p ∧ s.led.slots < 1024 ∧ ((s.at t).slotAt (s.led.slots + 1) ≤ (s.at t).now)) ∧
    (∃ (r : FrameReport) (l : List FrameReport) (s : State), s.led.due = r :: l) ∧
    (∃ (k : Nat) (s : State), BlockInv s ∧ s.sensorPresent k = true ∧ s.domOn 1 = true) ∧
    (∃ (k : Nat) (t : Nat) (s : State), BlockInv s ∧ s.sensorPresent k = true ∧ s.domOn 1 = true ∧ ((s.sensor k).lastAt + 10000000 * ns ≤ (s.at t).up)) ∧
    (∃ (s : State), s.domOn 1 = true) ∧
    (∃ (k : Nat) (s : State), s.powerState ≠ 5 ∧ 2 ≤ (s.sensor k).hot ∧ s.otp.log.length < 256) ∧
    (∃ (v : Word) (s : State), v.toNat.testBit 8 = true ∧ logUnacked (atD s.otp.log (v.toNat % 256) 0) = true) ∧
    (∃ (v : Word) (s : State), v.toNat.testBit 8 = true ∧ logUnacked (atD s.otp.log (v.toNat % 256) 0) = false ∧ s.logFull = false) := by
  exact ⟨⟨12, State.reset.setFlag (LED.RAIL_CFG_EN 12) true, by unfold BlockInv Shape; decide +kernel⟩,
    ⟨12, (State.reset.setFlag (LED.RAIL_CFG_EN 12) true).setRail 12 { State.reset.rail 12 with watts := [65536], sensed := 1000000 }, by unfold BlockInv Shape; decide +kernel⟩,
    ⟨12, (State.reset.setFlag (LED.RAIL_CFG_EN 12) true).setRail 12 { State.reset.rail 12 with watts := [] }, by unfold BlockInv Shape; decide +kernel⟩,
    ⟨12, State.reset.now + 3000000000 * ns, (State.reset.setFlag (LED.RAIL_CFG_EN 12) true).setRail 12 { State.reset.rail 12 with lost := false, replyAt := State.reset.up }, by unfold BlockInv Shape; decide +kernel⟩,
    ⟨2#32, State.reset, by decide +kernel⟩,
    ⟨0, 4, { rung State.reset 3 1023 with led := { State.reset.led with next := none } }, by decide +kernel⟩,
    ⟨0, ⟨4, 0, 0, 0, 0, false, [], []⟩, { rung State.reset 3 1023 with led := { State.reset.led with slots := 1022, cur := some ⟨4, 0, 0, 0, 0, false, [], []⟩ } }, by decide +kernel⟩,
    ⟨⟨4, true, false, List.replicate 48 3#8⟩, [], (State.reset.setRegN LED.RPT_LO 0).setLed { State.reset.led with due := [⟨4, true, false, List.replicate 48 3#8⟩] }, by decide +kernel⟩,
    ⟨27, State.reset.setRegN PWR.DOM_ON 0x1FFFF, by unfold BlockInv Shape; decide +kernel⟩,
    ⟨27, State.reset.now + 10000000 * ns, (State.reset.setRegN PWR.DOM_ON 0x1FFFF).setSensor 27 { State.reset.sensor 27 with lastAt := State.reset.up }, by unfold BlockInv Shape; decide +kernel⟩,
    ⟨State.reset.setRegN PWR.DOM_ON 0x1FFFF, by decide +kernel⟩,
    ⟨27, { (State.reset.setPowerState 0).setSensor 27 { State.reset.sensor 27 with hot := 2 } with otp := { State.reset.otp with log := List.replicate 255 0 } }, by decide +kernel⟩,
    ⟨0x1FF#32, { State.reset with otp := { State.reset.otp with log := List.replicate 256 0x10000 } }, by decide +kernel⟩,
    ⟨0x1FE#32, { State.reset with otp := { State.reset.otp with log := List.replicate 255 0 } }, by decide +kernel⟩⟩

/-- The hypotheses of the clauses of Obligations.image_and_cast_commands_complete can be met. -/
theorem met_image_and_cast_commands_complete :
    (∃ (v : Word) (s : State), v.toNat.testBit 0 = true ∧ v.toNat.testBit 1 = false ∧ v.toNat.testBit 2 = false ∧ s.loadBusy = false ∧ s.ldState ≠ 0 ∧ s.bellState = stSTOPPED) ∧
    (∃ (v : Word) (s : State), v.toNat.testBit 0 = true ∧ s.loadBusy = true) ∧
    (∃ (t : Nat) (j : LoadJob) (s : State), s.cfg.job = some j ∧ j.recheck = false ∧ ((s.at t).verdict j ≠ 0)) ∧
    (∃ (j : LoadJob) (s : State), s.cfg.job = some j ∧ s.imgKind j.base = 1 ∧ j.recheck = true ∧ s.formatOk j.base j.len = true ∧ s.imgDigest j.base = s.cfg.digFull ∧ s.digestsOk j.base = true) ∧
    (∃ (j : LoadJob) (s : State), s.cfg.job = some j ∧ s.imgKind j.base = 1 ∧ j.recheck = false) ∧
    (∃ (j : LoadJob) (s : State), s.cfg.accepted = some j ∧ s.hasPitch = true) ∧
    (∃ (s : State), s.ldState = 2 ∧ s.bootSrc = 0 ∧ s.recovery = false ∧ s.imaged = false ∧ s.cfg.job = none ∧ s.cfg.flashSlot < 2 ∧ 0 < ofBytes (s.flashRead (flashSlotAt s.cfg.flashSlot + 0x10) 8) ∧ ofBytes (s.flashRead (flashSlotAt s.cfg.flashSlot + 0x10) 8) ≤ 2 ^ 25) ∧
    (∃ (s : State), s.ldState = 2 ∧ s.bootSrc = 0 ∧ s.recovery = false ∧ s.imaged = false ∧ s.cfg.job = none ∧ s.cfg.flashSlot = 1 ∧ ofBytes (s.flashRead (flashSlotAt 1 + 0x10) 8) = 0) ∧
    (∃ (v : Word) (s : State), v.toNat.testBit 0 = true ∧ s.flag CFG.STATUS_LOCKED = false) ∧
    (∃ (v : Word) (s : State), v.toNat.testBit 0 = true ∧ s.imaged = true) ∧
    (∃ (base : Nat) (len : Nat) (s : State), s.cfg.full = some (base, len) ∧ s.flag CFG.CAST_GO = true ∧ s.imaged = true ∧ s.cfg.castOff + 8192 < len) ∧
    (∃ (base : Nat) (len : Nat) (s : State), s.cfg.full = some (base, len) ∧ s.flag CFG.CAST_GO = true ∧ s.imaged = true ∧ s.cfg.castOff < len ∧ len ≤ s.cfg.castOff + 8192) ∧
    (∃ (p : Nat) (frame : List Byte) (s : State), p < 2 ∧ s.svcUp p = true ∧ beAt frame 12 2 = 0x88B5 ∧ beAt frame 14 2 = 3 ∧ s.castWaiting = true ∧ s.cfg.rx = none ∧ s.cfg.rejected = [] ∧ beAt frame 30 2 % 4 = 0 ∧ 4 ≤ beAt frame 30 2 ∧ beAt frame 30 2 ≤ 8192 ∧ beAt frame 22 8 + beAt frame 30 2 < beAt frame 34 8 ∧ beAt frame 34 8 ≤ 2 ^ 28 ∧ 42 + beAt frame 30 2 ≤ frame.length) ∧
    (∃ (p : Nat) (frame : List Byte) (s : State), p < 2 ∧ s.svcUp p = true ∧ beAt frame 12 2 = 0x88B5 ∧ beAt frame 14 2 = 3 ∧ s.castWaiting = true ∧ s.cfg.rx = none ∧ s.cfg.rejected = [] ∧ beAt frame 30 2 % 4 = 0 ∧ 4 ≤ beAt frame 30 2 ∧ beAt frame 30 2 ≤ 8192 ∧ beAt frame 22 8 = 0 ∧ beAt frame 34 8 = beAt frame 30 2 ∧ 42 + beAt frame 30 2 ≤ frame.length) := by
  exact ⟨⟨1#32, loaderIdle State.reset, by decide +kernel⟩,
    ⟨1#32, State.reset.setCfg { State.reset.cfg with job := some aJob }, by decide +kernel⟩,
    ⟨0, aJob, { State.reset with mem := [], cfg := { State.reset.cfg with job := some aJob } }, by decide +kernel⟩,
    ⟨{ aJob with recheck := true }, { State.reset with part := .iz8, mem := imageBytes, cfg := { State.reset.cfg with job := some { aJob with recheck := true }, digFull := imageDigest } }, by decide +kernel⟩,
    ⟨aJob, { State.reset with part := .iz8, mem := imageBytes, cfg := { State.reset.cfg with job := some aJob } }, by decide +kernel⟩,
    ⟨aJob, { canopy State.reset with part := .iz8, mem := imageBytes, cfg := { State.reset.cfg with accepted := some aJob, job := none, change := none } }, by decide +kernel⟩,
    ⟨{ staging State.reset 0 1 with flash := [(0x2000010, 4), (0x2000011, 0), (0x2000012, 0), (0x2000013, 0), (0x2000014, 0), (0x2000015, 0), (0x2000016, 0), (0x2000017, 0)] }, by decide +kernel⟩,
    ⟨{ staging State.reset 0 1 with flash := [(0x2000010, 0), (0x2000011, 0), (0x2000012, 0), (0x2000013, 0), (0x2000014, 0), (0x2000015, 0), (0x2000016, 0), (0x2000017, 0)] }, by decide +kernel⟩,
    ⟨1#32, State.reset.setFlag CFG.STATUS_LOCKED false, by decide +kernel⟩,
    ⟨1#32, State.reset.setRegN BEL.SCHED_ID 7, by decide +kernel⟩,
    ⟨0x1000, 8193, { (State.reset.setRegN BEL.SCHED_ID 7).setFlag CFG.CAST_GO true with cfg := { State.reset.cfg with full := some (0x1000, 8193), castOff := 0 } }, by decide +kernel⟩,
    ⟨0x1000, 8192, { (State.reset.setRegN BEL.SCHED_ID 7).setFlag CFG.CAST_GO true with cfg := { State.reset.cfg with full := some (0x1000, 8192), castOff := 0 } }, by decide +kernel⟩,
    ⟨1, castFrame 8 4 13, (staging State.reset 2 0).setFlag (PTP.SVC_STATUS_UP 1) true, by decide +kernel⟩,
    ⟨1, castFrame 0 4 4, (staging State.reset 2 0).setFlag (PTP.SVC_STATUS_UP 1) true, by decide +kernel⟩⟩

/-- The hypotheses of the clauses of Obligations.change_commands_complete can be met. -/
theorem met_change_commands_complete :
    (∃ (v : Word) (s : State), BlockInv s ∧ v.toNat.testBit 0 = true ∧ v.toNat.testBit 1 = true ∧ v.toNat.testBit 2 = false ∧ ((presentDies s.part).testBit (bits v.toNat 5 3) = true) ∧ s.loadBusy = false ∧ s.ldState ≠ 0 ∧ s.bellState = stSTOPPED) ∧
    (∃ (v : Word) (s : State), BlockInv s ∧ v.toNat.testBit 0 = true ∧ v.toNat.testBit 1 = true ∧ v.toNat.testBit 2 = false ∧ ((presentDies s.part).testBit (bits v.toNat 5 3) = true) ∧ s.loadBusy = false ∧ s.ldState ≠ 0 ∧ s.bellState ≠ stSTOPPED ∧ ((s.die (bits v.toNat 5 3)).closed = false)) ∧
    (∃ (c : Change) (s : State), s.cfg.change = some c ∧ c.clerk = false ∧ c.phase = 1 ∧ c.hold = true ∧ c.pcycle = false ∧ s.imgCount c.base = 0 ∧ s.domOn (3 + c.die) = true) ∧
    (∃ (c : Change) (s : State), s.cfg.change = some c ∧ c.clerk = false ∧ c.phase = 1) ∧
    (∃ (v : Word) (c : Change) (s : State), v.toNat.testBit 0 = true ∧ s.cfg.change = some c ∧ c.phase = 3 ∧ c.noimg = false ∧ s.bellState ≠ stSTOPPED) ∧
    (∃ (v : Word) (c : Change) (s : State), BlockInv s ∧ v.toNat.testBit 0 = true ∧ s.cfg.change = some c ∧ c.phase = 3 ∧ c.noimg = false ∧ c.clerk = false ∧ c.die < 6 ∧ s.bellState = stSTOPPED) ∧
    (∃ (c : Change) (s : State), s.cfg.change = some c ∧ c.clerk = true ∧ c.phase = 1 ∧ c.hold = false ∧ s.bellState ≠ stSTOPPED) ∧
    (∃ (c : Change) (s : State), s.cfg.change = some c ∧ c.clerk = true ∧ c.phase = 1 ∧ c.hold = false ∧ s.bellState = stSTOPPED) := by
  exact ⟨⟨0xA3#32, { loaderIdle State.reset with part := .iz8 }, by unfold BlockInv Shape; decide +kernel⟩,
    ⟨0xA3#32, { ((loaderIdle State.reset).setBellState 3).setDie 5 { State.reset.die 5 with closed := false } with part := .iz8 }, by unfold BlockInv Shape; decide +kernel⟩,
    ⟨aChange, { State.reset.setRegN PWR.DOM_ON 0x1FFFF with mem := [], cfg := { State.reset.cfg with change := some aChange } }, by decide +kernel⟩,
    ⟨aChange, State.reset.setChange (some aChange), by decide +kernel⟩,
    ⟨1#32, { aChange with phase := 3 }, (State.reset.setBellState 3).setChange (some { aChange with phase := 3 }), by decide +kernel⟩,
    ⟨1#32, { aChange with phase := 3 }, (State.reset.setBellState 0).setChange (some { aChange with phase := 3 }), by unfold BlockInv Shape; decide +kernel⟩,
    ⟨{ aChange with clerk := true, hold := false, cores := 0xFFFF }, (State.reset.setBellState 3).setChange (some { aChange with clerk := true, hold := false, cores := 0xFFFF }), by decide +kernel⟩,
    ⟨{ aChange with clerk := true, hold := false, cores := 0xFFFF }, (State.reset.setBellState 0).setChange (some { aChange with clerk := true, hold := false, cores := 0xFFFF }), by decide +kernel⟩⟩

/-- The hypotheses of the clauses of Obligations.security_commands_complete can be met. -/
theorem met_security_commands_complete :
    (∃ (s : State), s.sec.sealing = false ∧ (s.secState = scBLANK ∨ s.secState = scERASED) ∧ s.bellState = stSTOPPED ∧ s.helperSlots < 8) ∧
    (∃ (s : State), s.sec.sealing = false ∧ s.secState ≠ scBLANK ∧ s.secState ≠ scERASED) ∧
    (∃ (s : State), s.sec.sealing = false ∧ s.secState = scPROVISIONING ∧ s.trunkReady s.bufAddr 1952) ∧
    (∃ (s : State), s.sec.sealing = false ∧ s.secState = scPROVISIONING ∧ s.place s.bufAddr = .none) ∧
    (∃ (slot : Nat) (s : State), slot < 16 ∧ s.sec.sealing = false ∧ s.secState = scPROVISIONING ∧ s.trunkReady s.bufAddr 32) ∧
    (∃ (len : Nat) (s : State), 1 ≤ len ∧ len ≤ 65536 ∧ s.sec.sealing = false ∧ s.secState = scPROVISIONING ∧ s.trunkReady s.bufAddr len) ∧
    (∃ (s : State), s.sec.sealing = false ∧ s.secState = scPROVISIONING ∧ s.sec.keys.root.isSome = true) ∧
    (∃ (s : State), Store.wf 0xFF s.flash = true ∧ s.sec.sealing = false ∧ s.secState = scPROVISIONING ∧ s.sec.keys.root.isSome = true) ∧
    (∃ (s : State), s.sec.sealing = true) ∧
    (∃ (s : State), s.sec.sealing = false ∧ s.secState = scPROVISIONED ∧ s.recovery = false ∧ s.attPending = false) ∧
    (∃ (v : Word) (s : State), s.sec.sealing = false ∧ s.secState ≠ scLOCKOUT ∧ s.otp.epoch < v.toNat % 256) ∧
    (∃ (s : State), s.secState ≠ scLOCKOUT) ∧
    (∃ (v : Word) (s : State), v ≠ 0x45524153#32 ∧ s.secState ≠ scLOCKOUT) ∧
    (∃ (q : Nat) (s : State), s.sec.signing = some (.manifest q)) ∧
    (∃ (s : State), s.sec.signing = some .attest ∧ s.sec.manifests = [] ∧ s.sec.attWait = false) ∧
    (∃ (k : Nat) (s : State), k < 12 ∧ s.sensorMask.testBit k = true ∧ ((s.fld SEC.VIOL_SENSORS).testBit k = false) ∧ s.secPolicy k = 0) ∧
    (∃ (k : Nat) (s : State), k < 12 ∧ s.sensorMask.testBit k = true ∧ ((s.fld SEC.VIOL_SENSORS).testBit k = false) ∧ s.secPolicy k = 2 ∧ s.secState ≠ scLOCKOUT) ∧
    (∃ (s : State), s.locked = false) ∧
    (∃ (v : Word) (k : Nat) (s : State), s.locked = true ∧ k < 12 ∧ bits v.toNat (2 * k) 2 < bits (s.regN SEC.POLICY) (2 * k) 2) := by
  exact ⟨⟨{ (secure State.reset 0).setBellState 0 with otp := { State.reset.otp with helpers := List.replicate 7 { killed := false, blob := [], keys := KeyStore.empty } } }, by decide +kernel⟩,
    ⟨secure State.reset scPROVISIONED, by decide +kernel⟩,
    ⟨((secure State.reset scPROVISIONING).setRegN PWR.DOM_ON 0x1FFFF).setPair SEC.BUF_LO SEC.BUF_HI 0xFE0000000000, by unfold State.trunkReady; decide +kernel⟩,
    ⟨(secure State.reset scPROVISIONING).setPair SEC.BUF_LO SEC.BUF_HI 0xFD0000000000, by decide +kernel⟩,
    ⟨15, ((secure State.reset scPROVISIONING).setRegN PWR.DOM_ON 0x1FFFF).setPair SEC.BUF_LO SEC.BUF_HI 0xFE0000000000, by unfold State.trunkReady; decide +kernel⟩,
    ⟨1, ((secure State.reset scPROVISIONING).setRegN PWR.DOM_ON 0x1FFFF).setPair SEC.BUF_LO SEC.BUF_HI 0xFE0000000000, by unfold State.trunkReady; decide +kernel⟩,
    ⟨{ secure State.reset scPROVISIONING with sec := { (secure State.reset scPROVISIONING).sec with keys := { State.reset.sec.keys with root := some [] } } }, by decide +kernel⟩,
    ⟨{ secure State.reset scPROVISIONING with sec := { (secure State.reset scPROVISIONING).sec with keys := { State.reset.sec.keys with root := some [] } } }, by decide +kernel⟩,
    ⟨{ secure State.reset scPROVISIONING with sec := { (secure State.reset scPROVISIONING).sec with sealing := true } }, by decide +kernel⟩,
    ⟨secure State.reset scPROVISIONED, by decide +kernel⟩,
    ⟨1#32, secure State.reset 0, by decide +kernel⟩,
    ⟨secure State.reset scPROVISIONED, by decide +kernel⟩,
    ⟨5#32, secure State.reset scPROVISIONED, by decide +kernel⟩,
    ⟨9, { State.reset with sec := { State.reset.sec with signing := some (.manifest 9) } }, by decide +kernel⟩,
    ⟨{ State.reset with sec := { State.reset.sec with signing := some .attest, manifests := [], attWait := false } }, by decide +kernel⟩,
    ⟨11, { (State.reset.setFld SEC.VIOL_SENSORS 0).setRegN SEC.POLICY 0 with part := .iz8 }, by decide +kernel⟩,
    ⟨11, { ((secure State.reset 0).setFld SEC.VIOL_SENSORS 0).setRegN SEC.POLICY 0x800000 with part := .iz8 }, by decide +kernel⟩,
    ⟨State.reset.setFlag CFG.STATUS_LOCKED false, by decide +kernel⟩,
    ⟨0#32, 11, (State.reset.setFlag CFG.STATUS_LOCKED true).setRegN SEC.POLICY 0x400000, by decide +kernel⟩⟩

/-- The hypotheses of the clauses of Obligations.matrix_commands_complete can be met. -/
theorem met_matrix_commands_complete :
    (∃ (a : Nat) (k : Nat) (w : Bool) (s : State), s.mtx.err = some (a, k, w) ∧ k < 16) ∧
    (∃ (m : Nat) (s : State), m < 12 ∧ s.inReset m = true ∧ ((s.regN MTX.MSTAT).testBit m = false)) ∧
    (∃ (s : State), s.domOn 13 = true ∧ s.flag PCI.LINK_UP = false) ∧
    (∃ (s : State), s.flag PCI.LINK_UP = true) ∧
    (∃ (s : State), s.flag PCI.LINK_UP = true) ∧
    (∃ (n : Nat) (s : State), linkPresent s.part n = true) ∧
    (∃ (n : Nat) (k : Nat) (s : State), linkPresent s.part n = true ∧ Store.get? s.mtx.d2d n = some k ∧ k < 9) ∧
    (∃ (n : Nat) (s : State), linkPresent s.part n = true ∧ Store.get? s.mtx.d2d n = some 9 ∧ s.secPolicy 10 < 2) ∧
    (∃ (m : Nat) (a : Nat) (n : Nat) (data : List Byte) (s : State), BlockInv s ∧ s.noneWait ∧ m < 12 ∧ 1 ≤ n ∧ a / 4096 = (a + n - 1) / 4096 ∧ s.masterLive m = true ∧ s.outRoom m = true ∧ s.trunkReady a n ∧ s.behind m a = false ∧ data.length = n) ∧
    (∃ (m : Nat) (a : Nat) (n : Nat) (s : State), s.noneWait ∧ m < 12 ∧ 1 ≤ n ∧ a / 4096 = (a + n - 1) / 4096 ∧ s.masterLive m = true ∧ s.outRoom m = true ∧ s.trunkReady a n ∧ s.behind m a = false) ∧
    (∃ (m : Nat) (a : Nat) (n : Nat) (s : State), s.noneWait ∧ m < 12 ∧ 1 ≤ n ∧ n ≤ 65536 ∧ s.masterLive m = true ∧ s.outRoom m = true ∧ s.place a = .none) ∧
    (∃ (m : Nat) (a : Nat) (n : Nat) (data : List Byte) (s : State), m < 12 ∧ 1 ≤ n ∧ a / 4096 = (a + n - 1) / 4096 ∧ s.masterLive m = true ∧ s.outRoom m = true ∧ s.trunkReady a n ∧ s.behind m a = false ∧ data.length = n) ∧
    (∃ (m : Nat) (write : Bool) (a : Nat) (n : Nat) (be : Nat) (data : List Byte) (s : State), m < 12 ∧ 1 ≤ n ∧ n ≤ 65536 ∧ s.masterLive m = true ∧ s.outRoom m = true ∧ s.badTxn write a n be = false ∧ (s.waitsFor m a = true ∨ s.behind m a = true) ∧ data.length = n) ∧
    (∃ (k : Nat) (x : Txn) (t : Nat) (s : State), s.noneWait ∧ s.mtx.out[k]? = some x ∧ x.issuedAt + s.timeout ≤ (s.at t).up) := by
  exact ⟨⟨0x123456789ABC, 15, true, { State.reset with mtx := { State.reset.mtx with err := some (0x123456789ABC, 15, true) } }, by decide +kernel⟩,
    ⟨11, (State.reset.setRegN MTX.MRST 0x800).setRegN MTX.MSTAT 0, by decide +kernel⟩,
    ⟨(State.reset.setRegN PWR.DOM_ON 0x1FFFF).setFlag PCI.LINK_UP false, by decide +kernel⟩,
    ⟨State.reset.setFlag PCI.LINK_UP true, by decide +kernel⟩,
    ⟨{ State.reset.setFlag PCI.LINK_UP true with mtx := { State.reset.mtx with out := [aTxn, { aTxn with master := 0 }] } }, by decide +kernel⟩,
    ⟨6, { State.reset with part := .iz4 }, by decide +kernel⟩,
    ⟨6, 8, { State.reset with mtx := { State.reset.mtx with d2d := [(6, 8)] } }, by decide +kernel⟩,
    ⟨6, { State.reset.setRegN SEC.POLICY 0 with mtx := { State.reset.mtx with d2d := [(6, 9)] } }, by decide +kernel⟩,
    ⟨11, 0xFE0000000FFE, 2, [1#8, 2#8], masters State.reset, by unfold BlockInv Shape State.noneWait State.trunkReady; decide +kernel⟩,
    ⟨11, 0xFE0000000FFE, 2, { masters State.reset with dram := { State.reset.dram with errs := [] } }, by unfold State.noneWait State.trunkReady; decide +kernel⟩,
    ⟨0, 0xFFFFFFFFFFFF, 1, masters State.reset, by unfold State.noneWait; decide +kernel⟩,
    ⟨0, 0xFE0000000000, 2, [1#8, 2#8], masters State.reset, by unfold State.trunkReady; decide +kernel⟩,
    ⟨0, false, 0xFF0000000000, 4, 0, [0#8, 0#8, 0#8, 0#8], { masters State.reset with clk := { target := [], stopped := 4 } }, by decide +kernel⟩,
    ⟨0, aTxn, State.reset.now + 65535 * 1000 * ns, { State.reset with mtx := { State.reset.mtx with out := [{ aTxn with issuedAt := 0 }] } }, by unfold State.noneWait; decide +kernel⟩⟩

/-- The hypotheses of the clauses of Obligations.register_and_flash_commands_complete can be met. -/
theorem met_register_and_flash_commands_complete :
    (∃ (m : Nat) (s : State), s.noneWait ∧ s.accessible m MTX.TMO = true) ∧
    (∃ (m : Nat) (r : Nat) (s : State), s.noneWait ∧ s.mayAccess m r = true ∧ s.regWaits r = false ∧ s.regRefused r = true) ∧
    (∃ (m : Nat) (r : Nat) (s : State), s.noneWait ∧ s.mayAccess m r = true ∧ s.regWaits r = true) ∧
    (∃ (m : Nat) (s : State), s.accessible m CFG.REJ_CNT = true) ∧
    (∃ (m : Nat) (s : State), s.accessible m BEL.BELL_LO = true) ∧
    (∃ (b : Nat) (m : Nat) (s : State), (b = 15 ∨ b = 16 ∨ b = 17 ∨ b = 25) ∧ s.accessible m (mailReg b) = true ∧ ((s.mailbox b).unread = true)) ∧
    (∃ (b : Nat) (m : Nat) (s : State), (b = 15 ∨ b = 16 ∨ b = 17 ∨ b = 25) ∧ s.accessible m (mailReg b) = true ∧ ((s.mailbox b).unread = false)) ∧
    (∃ (m : Nat) (d : Nat) (v : Word) (s : State), d < 113 ∧ s.accessible m (MTX.EVR d) = true ∧ eventSource (v.toNat % 128) = true ∧ (¬(d < 64 ∧ 32 ≤ v.toNat % 128 ∧ v.toNat % 128 ≤ 63))) ∧
    (∃ (m : Nat) (d : Nat) (v : Word) (s : State), d < 64 ∧ s.accessible m (MTX.EVR d) = true ∧ 32 ≤ v.toNat % 128 ∧ v.toNat % 128 ≤ 63) ∧
    (∃ (vec : Nat) (s : State), vec < 64 ∧ s.msixPend.testBit vec = true) ∧
    (∃ (vec : Nat) (s : State), vec < 64) ∧
    (∃ (m : Nat) (s : State), s.accessible m MTX.FL_DATA = true) ∧
    (∃ (m : Nat) (s : State), Store.wf 0xFF s.flash = true ∧ s.accessible m MTX.FL_DATA = true ∧ s.blobLocked (s.regN MTX.FL_ADDR) = false) ∧
    (∃ (m : Nat) (s : State), s.accessible m MTX.FL_DATA = true ∧ s.blobLocked (s.regN MTX.FL_ADDR) = true) ∧
    (∃ (m : Nat) (s : State), s.accessible m MTX.FL_CMD = true ∧ s.blobLocked (s.regN MTX.FL_ADDR) = false) ∧
    (∃ (a : Nat) (s : State), Store.wf 0xFF s.flash = true ∧ s.mtx.erasing = some a) ∧
    (∃ (b : Nat) (m : Nat) (s : State), (b = 15 ∨ b = 16 ∨ b = 17 ∨ b = 25) ∧ s.accessible m (mailReg b) = true ∧ ((s.mailbox b).unread = true) ∧ mailHead b (s.mailbox b).newest < 2 ^ 32) := by
  exact ⟨⟨11, masters State.reset, by unfold State.noneWait; decide +kernel⟩,
    ⟨11, STL.CTRL 5, { masters State.reset with part := .iz4 }, by unfold State.noneWait; decide +kernel⟩,
    ⟨0, FFL.CADDR, { masters State.reset with clk := { target := [], stopped := 8 } }, by unfold State.noneWait; decide +kernel⟩,
    ⟨11, masters State.reset, by decide +kernel⟩,
    ⟨11, masters State.reset, by decide +kernel⟩,
    ⟨15, 11, (masters State.reset).setMailbox 15 ⟨5, [5, 127, 1, 0], true⟩, by decide +kernel⟩,
    ⟨25, 11, (masters State.reset).setMailbox 25 ⟨5, [5, 1, 1, 0], false⟩, by decide +kernel⟩,
    ⟨11, 112, 0xBF#32, masters State.reset, by decide +kernel⟩,
    ⟨11, 63, 0xA0#32, masters State.reset, by decide +kernel⟩,
    ⟨63, { State.reset with msixPend := 2 ^ 63 }, by decide +kernel⟩,
    ⟨63, State.reset, by decide +kernel⟩,
    ⟨11, masters State.reset, by decide +kernel⟩,
    ⟨11, { (masters State.reset).setRegN MTX.FL_ADDR 0x3FFFFFC with flash := [(0x3FFFFFC, 0x3C)] }, by decide +kernel⟩,
    ⟨11, (masters State.reset).setRegN MTX.FL_ADDR 0x4000000, by decide +kernel⟩,
    ⟨11, (masters State.reset).setRegN MTX.FL_ADDR 0x3FFFFFC, by decide +kernel⟩,
    ⟨0x10000, { State.reset with flash := [(0xFFFF, 1), (0x10000, 2), (0x1FFFF, 3), (0x20000, 4)], mtx := { State.reset.mtx with erasing := some 0x10000 } }, by decide +kernel⟩,
    ⟨16, 11, (masters State.reset).setMailbox 16 ⟨5, [5, 1, 8191], true⟩, by decide +kernel⟩⟩

/-- The hypotheses of the clauses of Obligations.porter_and_counter_commands_complete can be met. -/
theorem met_porter_and_counter_commands_complete :
    (∃ (c : Nat) (m : Nat) (s : State), BlockInv s ∧ c < 32 ∧ s.accessible m (POR.CH_CTRL c) = true ∧ s.flag (POR.CH_CTRL_EN c) = false ∧ s.porterLive c = true ∧ s.trunkReady (s.porterFirst c) 32 ∧ ((descOf (s.read (s.porterFirst c) 32)).valid = true)) ∧
    (∃ (c : Nat) (m : Nat) (s : State), BlockInv s ∧ c < 32 ∧ s.accessible m (POR.CH_CTRL c) = true ∧ s.flag (POR.CH_CTRL_EN c) = true) ∧
    (∃ (c : Nat) (l : List Nat) (s : State), BlockInv s ∧ c < 32 ∧ s.porTrig = c :: l ∧ ((s.porter c).st = 1)) ∧
    (∃ (c : Nat) (l : List Nat) (s : State), s.porTrig = c :: l ∧ ((s.porter c).st = 2)) ∧
    (∃ (c : Nat) (d : Desc) (s : State), BlockInv s ∧ c < 32 ∧ s.porterLive c = true ∧ s.porter c = { st := 2, desc := d, read := 0, written := 0, held := [], cntOpen := false } ∧ d.sw < 7 ∧ d.dw < 7 ∧ d.valid = true ∧ d.sfix = false ∧ d.dfix = false ∧ d.chain = false ∧ s.trunkReady d.src d.len ∧ s.trunkReady d.dst d.len ∧ (d.src + d.len ≤ d.dst ∨ d.dst + d.len ≤ d.src)) ∧
    (∃ (c : Nat) (s : State), BlockInv s ∧ c < 32 ∧ s.porterLive c = true ∧ ((s.porter c).st = 2)) ∧
    (∃ (t : Nat) (s : State), s.flag PMC.CTRL_EN = true ∧ s.works 1 29 = true ∧ ((s.at t).now % s.pmcWindow = 0) ∧ s.pmc.held = none) ∧
    (∃ (t : Nat) (s : State), s.flag PMC.CTRL_EN = true ∧ s.works 1 29 = true ∧ ((s.at t).now % s.pmcWindow = 0) ∧ s.pmc.held.isSome = true) ∧
    (∃ (t : Nat) (s : State) (a : Nat), BlockInv s ∧ s.flag PMC.CTRL_EN = true ∧ s.works 1 29 = true ∧ ((s.at t).now % s.pmcWindow = 0) ∧ s.pmc.held = none ∧ a = s.regN PMC.BASE_LO + s.fld PMC.BASE_HI_ADDR * 2 ^ 32 + (s.at t).now / s.pmcWindow % max 1 (s.fld PMC.NREC_COUNT) * 2048 ∧ a % 2048 = 0 ∧ s.trunkReady a 2048 ∧ s.inReset 6 = false) := by
  exact ⟨⟨31, 11, { ((((masters State.reset).setFlag (POR.CH_CTRL_EN 31) false).setRegN (POR.CH_DESC_LO 31) 0).setRegN (POR.CH_DESC_HI 31) 0xFE00) with mem := [(0xFE0000000010, 64#8)], dram := { State.reset.dram with errs := [] } }, by unfold BlockInv Shape State.trunkReady; decide +kernel⟩,
    ⟨31, 11, (masters State.reset).setFlag (POR.CH_CTRL_EN 31) true, by unfold BlockInv Shape; decide +kernel⟩,
    ⟨31, [], { State.reset.setPorter 31 (aPorter 1) with porTrig := [31] }, by unfold BlockInv Shape; decide +kernel⟩,
    ⟨31, [], { State.reset.setPorter 31 (aPorter 2) with porTrig := [31] }, by decide +kernel⟩,
    ⟨31, aDesc, { (masters State.reset).setPorter 31 (aPorter 2) with mem := [(0xFE0000000000, 1#8), (0xFE000000003F, 2#8)], dram := { State.reset.dram with errs := [] } }, by unfold BlockInv Shape State.trunkReady; decide +kernel⟩,
    ⟨31, (masters State.reset).setPorter 31 (aPorter 2), by unfold BlockInv Shape; decide +kernel⟩,
    ⟨0, { State.reset.setFlag PMC.CTRL_EN true with now := 0, pmc := { State.reset.pmc with held := none } }, by decide +kernel⟩,
    ⟨0, { State.reset.setFlag PMC.CTRL_EN true with now := 0, pmc := { State.reset.pmc with held := some ([], 0) } }, by decide +kernel⟩,
    ⟨0, { ((((masters State.reset).setFlag PMC.CTRL_EN true).setRegN PMC.BASE_LO 0).setRegN PMC.BASE_HI 0xFE00) with now := 0, pmc := { State.reset.pmc with held := none } }, 0xFE0000000000, by unfold BlockInv Shape State.trunkReady; decide +kernel⟩⟩

/-- The hypotheses of the clauses of Obligations.step_runs_front_command can be met. -/
theorem met_step_runs_front_command :
    (∃ (c : Instr) (l : List Instr) (s : State), s.pending = c :: l) ∧
    (∃ (s : State), s.pending = []) := by
  exact ⟨⟨.errAddrRead 11, [], { State.reset with pending := [.errAddrRead 11] }, by decide +kernel⟩,
    ⟨State.reset, by decide +kernel⟩⟩

/-- The hypotheses of the clauses of Obligations.reset_values can be met. -/
theorem met_reset_values :
    (∃ (n : Nat), n < 16) ∧
    (∃ (b : Nat), b < 31) := by
  exact ⟨⟨15, by decide +kernel⟩,
    ⟨30, by decide +kernel⟩⟩

/-- The hypotheses of the clauses of Obligations.absent_blocks_answer_errors can be met. -/
theorem met_absent_blocks_answer_errors :
    (∃ (m : Nat) (r : Nat) (s : State), s.noneWait ∧ s.part = .iz4 ∧ 10 ≤ r / 65536 ∧ r / 65536 ≤ 13 ∧ s.mayAccess m r = true ∧ s.regWaits r = false) ∧
    (∃ (m : Nat) (r : Nat) (s : State), s.noneWait ∧ s.part = .iz4 ∧ 10 ≤ r / 65536 ∧ r / 65536 ≤ 13 ∧ s.mayAccess m r = true ∧ s.regWaits r = false) ∧
    (∃ (m : Nat) (r : Nat) (s : State), s.part = .iz4 ∧ 10 ≤ r / 65536 ∧ r / 65536 ≤ 13 ∧ s.mayAccess m r = true ∧ s.regWaits r = false) ∧
    (∃ (m : Nat) (r : Nat) (s : State), s.part = .iz4 ∧ 10 ≤ r / 65536 ∧ r / 65536 ≤ 13 ∧ s.mayAccess m r = true ∧ s.regWaits r = false) ∧
    (∃ (m : Nat) (d : Nat) (i : Nat) (n : Nat) (s : State), s.noneWait ∧ s.part = .iz4 ∧ 2 ≤ d ∧ d < 6 ∧ i + n ≤ 0x10000000 ∧ m < 12 ∧ 1 ≤ n ∧ n ≤ 65536 ∧ s.masterLive m = true ∧ s.outRoom m = true) ∧
    (∃ (m : Nat) (d : Nat) (i : Nat) (n : Nat) (s : State), s.noneWait ∧ s.part = .iz4 ∧ 2 ≤ d ∧ d < 6 ∧ i + n ≤ 0x10000000 ∧ m < 12 ∧ 1 ≤ n ∧ n ≤ 65536 ∧ s.masterLive m = true ∧ s.outRoom m = true) := by
  exact ⟨⟨11, 10 * 65536, { masters State.reset with part := .iz4 }, by unfold State.noneWait; decide +kernel⟩,
    ⟨3, 13 * 65536 + 0xFFFC, { masters State.reset with part := .iz4 }, by unfold State.noneWait; decide +kernel⟩,
    ⟨11, 10 * 65536, { masters State.reset with part := .iz4 }, by decide +kernel⟩,
    ⟨3, 13 * 65536 + 0xFFFC, { masters State.reset with part := .iz4 }, by decide +kernel⟩,
    ⟨11, 2, 0, 1, { masters State.reset with part := .iz4 }, by unfold State.noneWait; decide +kernel⟩,
    ⟨3, 5, 0xFFF0000, 65536, { masters State.reset with part := .iz4 }, by unfold State.noneWait; decide +kernel⟩⟩

/-- The hypotheses of the clauses of Obligations.unnamed_registers_are_reserved can be met. -/
theorem met_unnamed_registers_are_reserved :
    (∃ (m : Nat) (r : Reg) (s : State), s.accessible m r = true ∧ regRow r = none) ∧
    (∃ (m : Nat) (r : Reg) (s : State), s.noneWait ∧ s.accessible m r = true ∧ regRow r = none) ∧
    (∃ (n : Reg) (k : Reg), 1 ≤ n ∧ n ≤ 5 ∧ 0x100 ≤ k ∧ k < 65536) ∧
    (∃ (n : Reg) (k : Reg), 1 ≤ n ∧ n ≤ 5 ∧ 0x100 ≤ k ∧ k < 65536) ∧
    (∃ (m : Nat) (write : Bool) (r : Nat) (n : Nat) (be : Nat) (s : State), s.noneWait ∧ s.place (regionBase + r) = .reg ∧ m < 12 ∧ 1 ≤ n ∧ n ≤ 65536 ∧ s.masterLive m = true ∧ s.outRoom m = true ∧ (n ≠ 4 ∨ r % 4 ≠ 0 ∨ (write = true ∧ be % 16 ≠ 15))) ∧
    (∃ (m : Nat) (write : Bool) (r : Nat) (n : Nat) (be : Nat) (s : State), s.noneWait ∧ s.place (regionBase + r) = .reg ∧ m < 12 ∧ 1 ≤ n ∧ n ≤ 65536 ∧ s.masterLive m = true ∧ s.outRoom m = true ∧ (n ≠ 4 ∨ r % 4 ≠ 0 ∨ (write = true ∧ be % 16 ≠ 15))) ∧
    (∃ (m : Nat) (write : Bool) (r : Nat) (n : Nat) (be : Nat) (s : State), s.noneWait ∧ s.place (regionBase + r) = .reg ∧ m < 12 ∧ 1 ≤ n ∧ n ≤ 65536 ∧ s.masterLive m = true ∧ s.outRoom m = true ∧ (n ≠ 4 ∨ r % 4 ≠ 0 ∨ (write = true ∧ be % 16 ≠ 15))) := by
  exact ⟨⟨11, 30 * 65536 + 0xFFFC, masters State.reset, by decide +kernel⟩,
    ⟨11, 30 * 65536 + 0xFFFC, masters State.reset, by unfold State.noneWait; decide +kernel⟩,
    ⟨1, 0x100, by decide +kernel⟩,
    ⟨5, 65535, by decide +kernel⟩,
    ⟨11, false, FFL.CADDR, 3, 15, masters State.reset, by unfold State.noneWait; decide +kernel⟩,
    ⟨11, true, 1, 4, 15, masters State.reset, by unfold State.noneWait; decide +kernel⟩,
    ⟨11, true, FFL.CADDR, 4, 14, masters State.reset, by unfold State.noneWait; decide +kernel⟩⟩

/-- The hypotheses of the clauses of Obligations.event_registers can be met. -/
theorem met_event_registers :
    (∃ (b : Nat), b < 31) ∧
    (∃ (m : Nat) (b : Nat) (s : State) (row : RegRow) (k : Nat), s.noneWait ∧ b < 31 ∧ s.accessible m (statOf b) = true ∧ regRow (statOf b) = some (row, k)) ∧
    (∃ (m : Nat) (b : Nat) (s : State) (row : RegRow) (k : Nat), s.noneWait ∧ b < 31 ∧ s.accessible m (maskOf b) = true ∧ regRow (maskOf b) = some (row, k)) ∧
    (∃ (m : Nat) (b : Nat) (s : State), b < 31 ∧ s.accessible m (b * 65536 + 8) = true) ∧
    (∃ (s : State) (b : Nat), b < 31 ∧ s.reg (statOf b) &&& s.reg (maskOf b) ≠ 0#32) := by
  exact ⟨⟨30, by decide +kernel⟩,
    ⟨11, 30, masters State.reset, ((regRow (statOf 30)).map (·.1)).getD ⟨0, 0, 0, 0, 0, 0, 0, 0, 0, 0⟩, 0, by unfold State.noneWait; decide +kernel⟩,
    ⟨11, 30, masters State.reset, ((regRow (maskOf 30)).map (·.1)).getD ⟨0, 0, 0, 0, 0, 0, 0, 0, 0, 0⟩, 0, by unfold State.noneWait; decide +kernel⟩,
    ⟨11, 30, masters State.reset, by decide +kernel⟩,
    ⟨(State.reset.setRegN (statOf 30) 1).setRegN (maskOf 30) 1, 30, by decide +kernel⟩⟩

/-- The hypotheses of the clauses of Obligations.locked_registers_discard_writes can be met. -/
theorem met_locked_registers_discard_writes :
    (∃ (m : Nat) (r : Reg) (s : State) (row : RegRow) (k : Nat), s.noneWait ∧ s.locked = true ∧ s.accessible m r = true ∧ regRow r = some (row, k) ∧ row.rwl ≠ 0) := by
  exact ⟨11, BEL.FLEN_LO, (masters State.reset).setFlag CFG.STATUS_LOCKED true, ((regRow BEL.FLEN_LO).map (·.1)).getD ⟨0, 0, 0, 0, 0, 0, 0, 0, 0, 0⟩, 0, by unfold State.noneWait; decide +kernel⟩

/-- The hypotheses of the clauses of Obligations.boot_lock can be met. -/
theorem met_boot_lock :
    (∃ (v : Word) (s : State), v.toNat.testBit 0 = true) ∧
    (∃ (s : State), s.recovery = false ∧ s.imaged = true ∧ s.frameLenOk = true ∧ s.flag BEL.CTRL_RUN = false) ∧
    (∃ (s : State), (s.recovery = true ∨ s.imaged = false ∨ s.frameLenOk = false)) ∧
    (∃ (s : State), (s.recovery = true ∨ s.imaged = false ∨ s.frameLenOk = false)) ∧
    (∃ (s : State), s.locked = false) := by
  exact ⟨⟨0xFFFFFFFF#32, State.reset, by decide +kernel⟩,
    ⟨(((State.reset.setFlag SEC.STATUS_RECOVERY false).setRegN BEL.SCHED_ID 7).setRegN BEL.FLEN_LO 1048576).setFlag BEL.CTRL_RUN false, by decide +kernel⟩,
    ⟨State.reset.setFlag SEC.STATUS_RECOVERY true, by decide +kernel⟩,
    ⟨State.reset.setRegN BEL.SCHED_ID 0, by decide +kernel⟩,
    ⟨State.reset.setFlag CFG.STATUS_LOCKED false, by decide +kernel⟩⟩

/-- The hypotheses of the clauses of Obligations.helper_slots_are_exhausted can be met. -/
theorem met_helper_slots_are_exhausted :
    (∃ (s : State), s.sec.sealing = false ∧ (s.secState = scBLANK ∨ s.secState = scERASED) ∧ s.bellState = stSTOPPED ∧ s.helperSlots = 8) ∧
    (∃ (s : State), s.sec.sealing = true ∧ s.secState = scPROVISIONING) := by
  exact ⟨⟨{ (secure State.reset 0).setBellState 0 with otp := { State.reset.otp with helpers := List.replicate 8 { killed := false, blob := [], keys := KeyStore.empty } } }, by decide +kernel⟩,
    ⟨{ secure State.reset 1 with sec := { (secure State.reset 1).sec with sealing := true } }, by decide +kernel⟩⟩

/-- The hypotheses of the clauses of Obligations.timeouts_and_error_latch can be met. -/
theorem met_timeouts_and_error_latch :
    (∃ (k : Nat) (x : Txn) (t : Nat) (s : State), s.noneWait ∧ s.mtx.out[k]? = some x ∧ x.issuedAt + s.timeout ≤ (s.at t).up) ∧
    (∃ (k : Nat) (x : Txn) (t : Nat) (s : State), s.noneWait ∧ s.mtx.out[k]? = some x ∧ x.issuedAt + s.timeout ≤ (s.at t).up) ∧
    (∃ (s : State), s.mtx.err = none) ∧
    (∃ (s : State) (x : Nat × Nat × Bool), s.mtx.err = some x) := by
  exact ⟨⟨0, { aTxn with issuedAt := State.reset.up }, State.reset.now + 65535 * 1000 * ns + State.reset.up, { State.reset with mtx := { State.reset.mtx with out := [{ aTxn with issuedAt := State.reset.up }] } }, by unfold State.noneWait; decide +kernel⟩,
    ⟨0, { aTxn with issuedAt := State.reset.up }, State.reset.now + 65535 * 1000 * ns + State.reset.up, { State.reset with mtx := { State.reset.mtx with out := [{ aTxn with issuedAt := State.reset.up }] } }, by unfold State.noneWait; decide +kernel⟩,
    ⟨{ State.reset with mtx := { State.reset.mtx with err := none } }, by decide +kernel⟩,
    ⟨{ State.reset with mtx := { State.reset.mtx with err := some (5, 3, false) } }, (5, 3, false), by decide +kernel⟩⟩

/-- The hypotheses of the clauses of Obligations.loop_instruction can be met. -/
theorem met_loop_instruction :
    (∃ (n : Nat) (dc : Nat) (s : State) (l : Nat) (count : Nat), ClerkReady s n dc .loop ∧ ((s.core n).delayed = []) ∧ l = srLDEPTH (s.core n).sr ∧ l < 2 ∧ bits (s.clerkWord n) 0 15 ≠ (s.core n).pc ∧ count = (if (s.clerkWord n).testBit 23 = true then (if (s.core n).d (bits (s.clerkWord n) 15 3) = 0 then 65536 else (s.core n).d (bits (s.clerkWord n) 15 3)) else bits (s.clerkWord n) 15 8 + 1) ∧ ((s.core n).d (bits (s.clerkWord n) 15 3) < 65536) ∧ ((s.core n).pc < 32768)) ∧
    (∃ (n : Nat) (dc : Nat) (s : State) (l : Nat) (count : Nat), ClerkReady s n dc .loop ∧ ((s.core n).delayed = []) ∧ l = srLDEPTH (s.core n).sr ∧ l < 2 ∧ bits (s.clerkWord n) 0 15 ≠ (s.core n).pc ∧ count = (if (s.clerkWord n).testBit 23 = true then (if (s.core n).d (bits (s.clerkWord n) 15 3) = 0 then 65536 else (s.core n).d (bits (s.clerkWord n) 15 3)) else bits (s.clerkWord n) 15 8 + 1) ∧ ((s.core n).d (bits (s.clerkWord n) 15 3) < 65536) ∧ ((s.core n).pc < 32768)) ∧
    (∃ (n : Nat) (dc : Nat) (s : State) (l : Nat) (count : Nat), ClerkReady s n dc .loop ∧ ((s.core n).delayed = []) ∧ l = srLDEPTH (s.core n).sr ∧ l < 2 ∧ bits (s.clerkWord n) 0 15 ≠ (s.core n).pc ∧ count = (if (s.clerkWord n).testBit 23 = true then (if (s.core n).d (bits (s.clerkWord n) 15 3) = 0 then 65536 else (s.core n).d (bits (s.clerkWord n) 15 3)) else bits (s.clerkWord n) 15 8 + 1) ∧ ((s.core n).d (bits (s.clerkWord n) 15 3) < 65536) ∧ ((s.core n).pc < 32768)) ∧
    (∃ (n : Nat) (dc : Nat) (s : State), ClerkReady s n dc .loop ∧ ((s.core n).storeQ = []) ∧ srLDEPTH (s.core n).sr = 2) := by
  exact ⟨⟨15, 1, coreAt State.reset 15 0x067F8009 Core.reset, 0, 256, by unfold ClerkReady CoreSteps BlockInv Shape; decide +kernel⟩,
    ⟨15, 1, coreAt State.reset 15 0x0680FFFF { Core.reset with r := [(0x40, 0x20)] }, 1, 65536, by unfold ClerkReady CoreSteps BlockInv Shape; decide +kernel⟩,
    ⟨0, 0, coreAt State.reset 0 0x06000009 { Core.reset with r := [(0x40, 0x20)] }, 1, 1, by unfold ClerkReady CoreSteps BlockInv Shape; decide +kernel⟩,
    ⟨15, 1, coreAt State.reset 15 0x067F8009 { Core.reset with r := [(0x40, 0x40)] }, by unfold ClerkReady CoreSteps BlockInv Shape; decide +kernel⟩⟩

/-- The hypotheses of the clauses of Obligations.event_matrix_edges can be met. -/
theorem met_event_matrix_edges :
    (∃ (s : State) (f : Fld) (d : Nat), f.reg % 65536 = 0 ∧ f.reg / 65536 < 31 ∧ f.lo < 32 ∧ ((s.regN (maskOf (f.reg / 65536))).testBit f.lo = true) ∧ s.regN (MTX.EVR d) = f.reg / 65536 + 128) ∧
    (∃ (s : State) (f : Fld) (d : Nat), f.reg % 65536 = 0 ∧ f.reg / 65536 < 31 ∧ f.lo < 32 ∧ ((s.regN (maskOf (f.reg / 65536))).testBit f.lo = true) ∧ s.regN (MTX.EVR d) = f.reg / 65536 + 128) ∧
    (∃ (s : State) (f : Fld) (d : Nat), f.reg % 65536 = 0 ∧ f.reg / 65536 < 31 ∧ f.lo < 32 ∧ ((s.regN (maskOf (f.reg / 65536))).testBit f.lo = true) ∧ s.regN (MTX.EVR d) = f.reg / 65536 + 128) := by
  exact ⟨⟨(State.reset.setRegN (maskOf 30) 1).setRegN (MTX.EVR 63) 158, ⟨30 * 65536, 0, 1⟩, 63, by decide +kernel⟩,
    ⟨(State.reset.setRegN (maskOf 30) 1).setRegN (MTX.EVR 79) 158, ⟨30 * 65536, 0, 1⟩, 79, by decide +kernel⟩,
    ⟨{ (State.reset.setRegN (maskOf 0) 0x80000000).setRegN (MTX.EVR 0) 128 with msixMask := 1 }, ⟨0, 31, 1⟩, 0, by decide +kernel⟩⟩

/-- Command c has a next state from s. -/
def runs (c : Instr) (s : State) : Bool := match exec c s with | .next _ => true | _ => false

theorem next_of_runs {c : Instr} {s : State} (h : runs c s = true) : ∃ u, exec c s = .next u := by
  unfold runs at h
  split at h
  · exact ⟨_, ‹_›⟩
  · simp at h

/-- A command of family F, well formed, that runs from some state. -/
def Runs (F : Instr → Bool) : Prop := ∃ c s u, F c = true ∧ c.wf = true ∧ exec c s = .next u

theorem runs_of {F : Instr → Bool} (c : Instr) (h : F c = true) (w : c.wf = true) (r : runs c State.reset = true) : Runs F :=
  let ⟨u, e⟩ := next_of_runs r
  ⟨c, State.reset, u, h, w, e⟩

theorem reset_noneWait : State.reset.noneWait := by unfold State.noneWait; decide +kernel

/-- As `Runs`, from a state in which no transaction waits. -/
def QuietRuns (F : Instr → Bool) : Prop := ∃ c s u, State.noneWait s ∧ F c = true ∧ c.wf = true ∧ exec c s = .next u

theorem quietRuns_of {F : Instr → Bool} (c : Instr) (h : F c = true) (w : c.wf = true) (r : runs c State.reset = true) : QuietRuns F :=
  let ⟨u, e⟩ := next_of_runs r
  ⟨c, State.reset, u, reset_noneWait, h, w, e⟩

/-- The hypotheses of Obligations.step_keeps_invariant can be met. -/
theorem met_step_keeps_invariant : ∃ s u, BlockInv s ∧ step s = .next u := by
  have ⟨u, e⟩ := next_of_runs (c := .lanePowerWrite 79 3#32) (s := State.reset) (by decide +kernel)
  exact ⟨{ State.reset with pending := [.lanePowerWrite 79 3#32] }, u, by unfold BlockInv Shape; decide +kernel, e⟩

/-- The hypothesis of Obligations.commands_keep_queue_and_part can be met. -/
theorem met_commands_keep_queue_and_part : ∃ c s u, exec c s = .next u :=
  let ⟨u, e⟩ := next_of_runs (c := .bellRunSet 0) (s := State.reset) (by decide +kernel)
  ⟨_, _, u, e⟩

/-- The hypotheses of Obligations.one_time_programmable_only_grows can be met, with a programmed slot too. -/
theorem met_one_time_programmable_only_grows : ∃ (c : Instr) (s u : State) (n : Nat) (h : Helper), exec c s = .next u ∧ s.otp.helpers[n]? = some h :=
  let s := { State.reset with otp := { State.reset.otp with helpers := [⟨false, [1#8], KeyStore.empty⟩] } }
  let ⟨u, e⟩ := next_of_runs (c := .violationSensorFire 5 0) (s := s) (by decide +kernel)
  ⟨_, s, u, 0, _, e, rfl⟩

/-- The hypotheses of Obligations.frame_of_signal_path_commands can be met. -/
theorem met_frame_of_signal_path_commands : Runs ingestCommand ∧ Runs frontCommand ∧ Runs channelCommand ∧ Runs portCommand :=
  ⟨runs_of (.lanePowerWrite 79 3#32) rfl rfl (by decide +kernel), runs_of (.thresholdEvent 127) rfl rfl (by decide +kernel),
    runs_of (.windowSwapCmd 0) rfl rfl (by decide +kernel), runs_of (.windowDataAccess true 5#32) rfl rfl (by decide +kernel)⟩

/-- The hypotheses of Obligations.frame_of_canopy_and_capture_commands can be met. -/
theorem met_frame_of_canopy_and_capture_commands : Runs canopyCommand ∧
    (∃ p k tr c t s u, (Instr.parkCastRx p k tr c t).wf = true ∧ exec (.parkCastRx p k tr c t) s = .next u) ∧ Runs captureCommand :=
  ⟨runs_of (.portEnable 3) rfl rfl (by decide +kernel),
    let ⟨u, e⟩ := next_of_runs (c := .parkCastRx 1 { body := .cast ⟨3, 2, 1, 0, 0, 1, 1, 5⟩ } (trailer 0) true 0)
      (s := (portIn State.reset 1 3).setPort 1 { State.reset.port 1 with rxSeq := 0 }) (by decide +kernel)
    ⟨_, _, _, _, _, _, u, rfl, e⟩,
    runs_of (.hostTrigger 0) rfl rfl (by decide +kernel)⟩

/-- The hypotheses of Obligations.frame_of_correlation_and_output_commands can be met. -/
theorem met_frame_of_correlation_and_output_commands : Runs dieCommand ∧ Runs aisleCommand ∧ Runs outputCommand ∧
    (∃ c s u, (∃ k t, c = Instr.scheduleItemStart k t ∨ c = .jobPush k t) ∧ exec c s = .next u) ∧
    ∃ c s u, (∃ k t, c = Instr.scheduleItemCutoff k t ∨ c = .jobLate k t) ∧ exec c s = .next u :=
  ⟨runs_of (.tileChannelStart 5 0) rfl rfl (by decide +kernel), runs_of (.gainCommit 5#32) rfl rfl (by decide +kernel),
    runs_of (.outputPortUp 3 15 true true) rfl rfl (by decide +kernel),
    let ⟨u, e⟩ := next_of_runs (c := .jobPush 0 0) (s := jobItem State.reset 3 2) (by decide +kernel)
    ⟨_, _, u, ⟨0, 0, .inr rfl⟩, e⟩,
    let ⟨u, e⟩ := next_of_runs (c := .scheduleItemCutoff 0 0) (s := jobItem State.reset 6 2) (by decide +kernel)
    ⟨_, _, u, ⟨0, 0, .inl rfl⟩, e⟩⟩

/-- The hypotheses of Obligations.frame_of_time_and_clock_commands can be met. -/
theorem met_frame_of_time_and_clock_commands : QuietRuns melierCommand ∧ Runs ptpCommand ∧ QuietRuns clockCommand :=
  ⟨quietRuns_of (.todMessageRx 2 todMsg 9 0) rfl rfl (by decide +kernel), runs_of (.stampEdge 10 true 0) rfl rfl (by decide +kernel),
    quietRuns_of (.swDone 3) rfl rfl (by decide +kernel)⟩

/-- The hypotheses of Obligations.frame_of_control_commands can be met. -/
theorem met_frame_of_control_commands :
    Runs serviceCommand ∧ (∃ c s u, State.noneWait s ∧ s.dram.queue = [] ∧ dramCommand c = true ∧ exec c s = .next u) ∧ Runs powerCommand ∧
      Runs ledgerCommand ∧ Runs configCommand ∧ Runs matrixCommand :=
  ⟨runs_of (.esmcPduTx 1 0) rfl rfl (by decide +kernel),
    let ⟨u, e⟩ := next_of_runs (c := .dramEnable 1#32) (s := State.reset) (by decide +kernel)
    ⟨_, _, u, reset_noneWait, rfl, rfl, e⟩, runs_of (.powerUpRetry 3) rfl rfl (by decide +kernel),
    runs_of (.sensorSilent 27 0) rfl rfl (by decide +kernel), runs_of (.bootLockClose 1#32 0) rfl rfl (by decide +kernel),
    runs_of (.errAddrRead 11) rfl rfl (by decide +kernel)⟩

/-- The hypotheses of Obligations.frame_of_clerk_instructions can be met. -/
theorem met_frame_of_clerk_instructions : ∃ op n dc s u, n < 16 ∧ exec (clerkCommand op n dc) s = .next u :=
  let ⟨u, e⟩ := next_of_runs (c := .mac 15 1) (s := coreAt State.reset 15 0x14280000 Core.reset) (by decide +kernel)
  ⟨.mac, 15, 1, _, u, by decide, e⟩

/-- The hypotheses of Obligations.frame_of_reads can be met. -/
theorem met_frame_of_reads : Runs readCommand := runs_of (.dseqRead 11) rfl rfl (by decide +kernel)

/-- The hypotheses of the clauses of Obligations.memory_frame_of_stores can be met, at the first byte after what is stored. -/
theorem met_memory_frame_of_stores :
    (∃ (v t : Nat) (h : VPkt) (l : List VPkt) (x : List Byte) (n c : Nat) (s u : State) (b : Nat), s.voq v = h :: l ∧ h.pkt.body = .data x ∧
      s.openSlotOf (s.frameOf h.pkt) = some n ∧ s.localIndex h.pkt.channel = some c ∧ exec (.ringCellStore v t) s = .next u ∧
      b = s.cellAddr n (s.cellIndex (h.pkt.m0 % s.specW / s.packK) c h.pkt.src) + s.cellBytes ∧
      b ≠ s.mapBase n + s.cellIndex (h.pkt.m0 % s.specW / s.packK) c h.pkt.src / 8) ∧
    (∃ (v t : Nat) (h : VPkt) (l : List VPkt) (x : List Byte) (s u : State), s.voq v = h :: l ∧ h.pkt.body = .data x ∧
      s.openSlotOf (s.frameOf h.pkt) = none ∧ exec (.ringCellStore v t) s = .next u) ∧
    (∃ t s u, exec (.flashBootRead t) s = .next u) ∧
    (∃ p frame room t s u, exec (.castFrameRx p frame room t) s = .next u) ∧
    (∃ t r l s u, s.led.due = r :: l ∧ exec (.ledgerReport t) s = .next u) ∧
    (∃ (prompt : Bool) (t : Nat) (s u : State) (a : Nat), s.pmc.held = none ∧
      a = s.regN PMC.BASE_LO + s.fld PMC.BASE_HI_ADDR * 2 ^ 32 + (s.at t).now / s.pmcWindow % max 1 (s.fld PMC.NREC_COUNT) * 2048 ∧
      exec (.pmcSnapshot prompt t) s = .next u) ∧
    (∃ t s u, exec (.provision t) s = .next u) ∧
    (∃ t s u, exec (.attest t) s = .next u) ∧
    (∃ t s u, exec (.signatureComplete t) s = .next u) := by
  have ⟨u1, e1⟩ := next_of_runs (c := .ringCellStore (3 * State.reset.chanN + 5) 0) (s := queued State.reset) (by decide +kernel)
  have ⟨u2, e2⟩ := next_of_runs (c := .ringCellStore (3 * State.reset.chanN + 5) 0)
    (s := (queued State.reset).setRing { (queued State.reset).ring with slots := [] }) (by decide +kernel)
  have ⟨u3, e3⟩ := next_of_runs (c := .flashBootRead 0) (s := staging State.reset 1 0) (by decide +kernel)
  have ⟨u4, e4⟩ := next_of_runs (c := .castFrameRx 1 (castFrame 0 1408 4096) true 0) (s := staging State.reset 2 0) (by decide +kernel)
  have ⟨u5, e5⟩ := next_of_runs (c := .ledgerReport 0)
    (s := { State.reset with led := { State.reset.led with due := [⟨15, true, false, []⟩] } }) (by decide +kernel)
  have ⟨u6, e6⟩ := next_of_runs (c := .pmcSnapshot true 0)
    (s := { State.reset with pmc := { State.reset.pmc with held := none } }) (by decide +kernel)
  have ⟨u7, e7⟩ := next_of_runs (c := .provision 0) (s := (secure State.reset 0).setBellState 0) (by decide +kernel)
  have ⟨u8, e8⟩ := next_of_runs (c := .attest 0) (s := secure State.reset 2) (by decide +kernel)
  have ⟨u9, e9⟩ := next_of_runs (c := .signatureComplete 0)
    (s := { State.reset with sec := { State.reset.sec with signing := some .attest } }) (by decide +kernel)
  exact ⟨⟨3 * State.reset.chanN + 5, 0, ownPkt 516, [], List.replicate 32 7#8, 4, 0, _, u1, _, by decide +kernel, by decide +kernel, by decide +kernel,
      by decide +kernel, e1, rfl, by decide +kernel⟩,
    ⟨3 * State.reset.chanN + 5, 0, ownPkt 516, [], List.replicate 32 7#8, _, u2, by decide +kernel, by decide +kernel, by decide +kernel, e2⟩,
    ⟨_, _, u3, e3⟩, ⟨_, _, _, _, _, u4, e4⟩, ⟨_, _, _, _, u5, rfl, e5⟩, ⟨_, _, _, u6, _, rfl, rfl, e6⟩, ⟨_, _, u7, e7⟩, ⟨_, _, u8, e8⟩,
    ⟨_, _, u9, e9⟩⟩

/-- The hypotheses of the clause of Obligations.event_registers on raised events can be met. -/
theorem met_event_registers_raise : ∃ (s : State) (f : Fld) (i : Nat), f.lo < 32 ∧ (s.reg f.reg).toNat.testBit i = true :=
  ⟨State.reset.setRegN BEL.STAT 0x80000000, ⟨BEL.STAT, 31, 1⟩, 31, by decide +kernel⟩

/-- The hypotheses of the clause of Obligations.output_commands_complete on a full BEAMV buffer can be met by any packet too long for it. -/
theorem met_output_full_buffer_of (n : Nat) (h : 2 ^ 24 < n) : ∃ (b : BeamPkt) (l : List BeamPkt) (s : State), s.productOpen 3 ∧
    s.aisle.beamv = b :: l ∧ 2 ^ 24 < s.beamFill + b.samples.length := by
  refine ⟨⟨255, 5, 0, List.replicate n 0#8, false, false⟩, [],
    { producing State.reset with aisle := { State.reset.aisle with beamv := [⟨255, 5, 0, List.replicate n 0#8, false, false⟩] } }, ?_, rfl, ?_⟩
  · rw [productOpen_aisle]; unfold State.productOpen; decide +kernel
  · rw [List.length_replicate]; omega

/-- Those hypotheses met, one byte over the buffer. -/
theorem met_output_full_buffer : ∃ (b : BeamPkt) (l : List BeamPkt) (s : State), s.productOpen 3 ∧ s.aisle.beamv = b :: l ∧
    2 ^ 24 < s.beamFill + b.samples.length := met_output_full_buffer_of (2 ^ 24 + 1) (Nat.lt_succ_self _)

/-- The hypotheses of the last clause of Obligations.boot_lock can be met. -/
theorem met_boot_lock_kept : ∃ c s u, s.locked = true ∧ exec c s = .next u :=
  let s := State.reset.setFlag CFG.STATUS_LOCKED true
  let ⟨u, e⟩ := next_of_runs (c := .bootLockClose 0#32 0) (s := s) (by decide +kernel)
  ⟨_, s, u, by decide +kernel, e⟩

/-- The hypotheses of the second clause of Obligations.helper_slots_are_exhausted can be met with 7 slots programmed. -/
theorem met_helper_slots_kept : ∃ c s u, s.helperSlots ≤ 8 ∧ (s.sec.sealing = true ∨ s.secState = scPROVISIONING → s.helperSlots < 8) ∧
    exec c s = .next u :=
  let s := { secure State.reset 1 with sec := { State.reset.sec with sealing := true },
                                       otp := { State.reset.otp with helpers := List.replicate 7 ⟨false, [], KeyStore.empty⟩ } }
  let ⟨u, e⟩ := next_of_runs (c := .sealComplete true 0) (s := s) (by decide +kernel)
  ⟨_, s, u, by decide +kernel, by decide +kernel, e⟩

/-! ## Ill-formed commands are refused, one for each check of WellFormed -/

/-- One ill-formed command for each check; the check refuses it, and passes the last number in range. -/
theorem test_ill_formed_signal_path :
    [Instr.lockGained 208, Instr.lanePowerWrite 80 0#32, .groupEnable 32 0#32, .thresholdEvent 128, .portEnable 4, .outputRxDiscard 4 0 0 0, .pdelayReqTx 2 0,
      .tileChannelStart 6 0, .nop 16 1, .adaptationDone 79 16 0].map Instr.wf = List.replicate 10 false ∧
    [Instr.lockGained 207, Instr.lanePowerWrite 79 0#32, .groupEnable 31 0#32, .thresholdEvent 127, .portEnable 3, .outputRxDiscard 3 0 0 0, .pdelayReqTx 1 0,
      .tileChannelStart 5 0, .nop 15 1, .adaptationDone 79 15 0].map Instr.wf = List.replicate 10 true := by decide

theorem test_ill_formed_control :
    [Instr.errAddrRead 12, .registerWrite 0 0x1F0000 0#32 0, .readClear 0 2 0, .refDisqualify 6 0 0, .dramRead 16 0 0 0,
      .caParityError 16 0 0 false 0, .fabricTransaction 0 true 0 0 0 [] true 0, .mailboxHeadRead 18 0 0, .t0Write 3 0#32,
      .slotBoundary 1024 0, .setkey 16 0].map Instr.wf = List.replicate 11 false ∧
    [Instr.errAddrRead 11, .registerWrite 0 0x1EFFFC 0#32 0, .readClear 0 4 0, .refDisqualify 5 0 0, .dramRead 15 0 0 0,
      .caParityError 15 0 0 false 0, .fabricTransaction 0 true 0 65536 0 [] true 0, .mailboxHeadRead 25 0 0, .t0Write 2 0#32,
      .slotBoundary 1023 0, .setkey 15 0].map Instr.wf = List.replicate 11 true := by decide

theorem test_ill_formed_power_and_matrix :
    [Instr.pllEnable 4 0#32, .swDone 4, .gateCloseDone 32, .domainPowerUp 17 0, .correctionUpdate 13 0, .sensorSilent 28 0,
      .violationSensorFire 4096 0, .porterEnable 32 0 0, .msixUnmask 64 true 0, .eventRouteWrite 0 113 0#32 0, .d2dLinkRetrain 7 0,
      .stampEdge 11 true 0, .brownout 256].map Instr.wf = List.replicate 13 false ∧
    [Instr.pllEnable 3 0#32, .swDone 3, .gateCloseDone 31, .domainPowerUp 16 0, .correctionUpdate 12 0, .sensorSilent 27 0,
      .violationSensorFire 4095 0, .porterEnable 31 0 0, .msixUnmask 63 true 0, .eventRouteWrite 0 112 0#32 0, .d2dLinkRetrain 6 0,
      .stampEdge 10 true 0, .brownout 255].map Instr.wf = List.replicate 13 true := by decide

/-- No row of the table gives bits. -/
theorem test_decode_table_word : decodeTableWord 32 0x12345678 = none := rfl

end Sys2Proof.Tests
end

section
/-! SUPPORT. What an access to a register does as a whole: the time moves on, the side bus counts it (R447), the block takes it or answers
an error response (R429); and what the counting and the error response leave as they were. -/
namespace Sys2Proof.Machine

/-! ## Registers kept -/

theorem RegsKept.trans {bs : List Nat} {s u w : State} (h : RegsKept bs s u) (h' : RegsKept bs u w) : RegsKept bs s w :=
  fun r hr hn => (h' r hr hn).trans (h r hr hn)

theorem RegsKept.mono {bs cs : List Nat} {s u : State} (h : RegsKept bs s u) (hc : bs ⊆ cs) : RegsKept cs s u :=
  fun r hr hn => h r (fun hb => hr (hc hb)) hn

theorem regsKept_setRegN {bs : List Nat} (s : State) {r : Reg} (n : Nat) (h : r / 65536 ∈ bs) : RegsKept bs s (s.setRegN r n) :=
  fun _ hx _ => s.reg_setRegN_ne n (fun e => hx (e ▸ h))

theorem regsKept_raise {bs : List Nat} (s : State) {f : Fld} (hb : f.reg / 65536 < 32) (h : f.reg / 65536 ∈ bs) :
    RegsKept bs s (s.raise f) :=
  fun _ hx hn => s.reg_raise_ne f hb (fun e => hx (e ▸ h)) hn

theorem regsKept_count (s : State) {b : Nat} (code k : Nat) (hb : b < 32) : RegsKept [] s (s.count b code k) :=
  fun r _ hn => pmcCount_other s.part s.serial s.regs b code k r _ hb hn

/-! ## Messages already sent stay -/

theorem Edges.mem_sent_deliver {mask d : Nat} {host : List Trigger} {e : Edges} {o : Out} (h : o ∈ e.sent) :
    o ∈ (e.deliver mask host d).sent := by
  unfold Edges.deliver
  split
  · split
    · exact h
    · exact List.mem_cons_of_mem _ h
  · split
    · exact h
    · split <;> exact h

theorem Edges.mem_sent_foldl_deliver {mask : Nat} {host : List Trigger} {o : Out} (l : List Nat) {e : Edges} (h : o ∈ e.sent) :
    o ∈ (l.foldl (Edges.deliver mask host) e).sent := by
  induction l generalizing e with
  | nil => exact h
  | cons d l ih => exact ih (Edges.mem_sent_deliver h)

theorem State.mem_sent_withLine {s : State} {o : Out} (b : Nat) (regs : Store Word) (h : o ∈ s.sent) : o ∈ (s.withLine b regs).sent := by
  unfold State.withLine
  dsimp only
  split
  · exact Edges.mem_sent_foldl_deliver _ h
  · exact h

theorem State.mem_sent_raise {s : State} {o : Out} (f : Fld) (h : o ∈ s.sent) : o ∈ (s.raise f).sent := State.mem_sent_withLine _ _ h

/-! ## The latch of R429 and error responses -/

theorem State.out_latchErr (s : State) (m a : Nat) (w : Bool) : (s.latchErr m a w).mtx.out = s.mtx.out := by
  unfold State.latchErr; split <;> rfl

theorem State.mem_latchErr (s : State) (m a : Nat) (w : Bool) : (s.latchErr m a w).mem = s.mem := by
  unfold State.latchErr; split <;> rfl

theorem regsKept_latchErr (s : State) (m a : Nat) (w : Bool) : RegsKept [27] s (s.latchErr m a w) := by
  unfold State.latchErr
  split
  · exact fun _ _ _ => rfl
  · exact RegsKept.trans (regsKept_setRegN (s.setMtx _) _ (by decide)) (regsKept_raise _ (by decide) (by decide))

theorem State.out_errorTo (s : State) (m a : Nat) (w : Bool) : (s.errorTo m a w).mtx.out = s.mtx.out := by
  unfold State.errorTo
  dsimp only
  split <;> exact s.out_latchErr m a w

theorem State.mem_errorTo (s : State) (m a : Nat) (w : Bool) : (s.errorTo m a w).mem = s.mem := by
  unfold State.errorTo
  dsimp only
  split <;> exact s.mem_latchErr m a w

theorem State.errResp_mem_sent_errorTo (s : State) (m a : Nat) (w : Bool) : Out.errResp m a w ∈ (s.errorTo m a w).sent := by
  have hemit : Out.errResp m a w ∈ ((s.latchErr m a w).emit (.errResp m a w)).sent := List.mem_cons_self
  unfold State.errorTo
  dsimp only
  split
  · exact State.mem_sent_raise _ hemit
  · exact hemit

/-- An error response writes registers of the matrix and, for the PCIe master, of its endpoint. -/
theorem regsKept_errorTo (s : State) (m a : Nat) (w : Bool) : RegsKept [27, 30] s (s.errorTo m a w) := by
  have hlatch : RegsKept [27, 30] s ((s.latchErr m a w).emit (.errResp m a w)) := (regsKept_latchErr s m a w).mono (by simp)
  unfold State.errorTo
  dsimp only
  split
  · exact hlatch.trans (regsKept_raise _ (by cases w <;> decide) (by cases w <;> decide))
  · exact hlatch

/-! ## Transactions that wait -/

theorem State.noneWait_of_out {s u : State} (h : s.noneWait) (e : u.mtx.out = s.mtx.out) : u.noneWait := by
  unfold State.noneWait; rw [e]; exact h

/-- Nothing waits, so nothing is let go. -/
theorem State.retryOut_of_noneWait {s : State} (h : s.noneWait) : s.retryOut = s := by
  have hw : s.mtx.out.filter (·.waits) = [] := List.filter_eq_nil_iff.mpr (fun x hx => by simp [h x hx])
  unfold State.retryOut
  rw [hw]
  rfl

/-! ## Accesses to a register -/

theorem State.accessible_iff {s : State} {m r : Nat} :
    s.accessible m r = true ↔ s.mayAccess m r = true ∧ s.regWaits r = false ∧ s.regRefused r = false := by
  unfold State.accessible
  simp only [Bool.and_eq_true, Bool.not_eq_true', and_assoc]

/-- Register numbers are below the 31 blocks' end. -/
theorem State.block_lt_of_mayAccess {s : State} {m r : Nat} (h : s.mayAccess m r = true) : r / 65536 < 31 := by
  unfold State.mayAccess regOffset at h
  simp only [Bool.and_eq_true, decide_eq_true_eq] at h
  obtain ⟨⟨_, hr, _⟩, _⟩ := h
  omega

/-- The state in which an access to register r at time t is performed: the time has moved on and its block's port has counted it. -/
def State.taking (s : State) (t : Nat) (r : Reg) : State := (s.at t).count (r / 65536) 2 1

theorem regsKept_taking (s : State) (t : Nat) {r : Reg} (h : r / 65536 < 31) : RegsKept [] s (s.taking t r) :=
  regsKept_count (s.at t) 2 1 (Nat.lt_succ_of_lt h)

/-- A register access that the bus refuses gets an error response (R424). -/
theorem exec_registerWrite_refused {s : State} {m r : Nat} (v : Word) (t : Nat) (hn : s.noneWait) (hm : s.mayAccess m r = true)
    (hw : s.regWaits r = false) (hr : s.regRefused r = true) :
    exec (.registerWrite m r v t) s = .next ((s.at t).errorTo m (regionBase + r) true) := by
  have hanswer : (s.at t).answerWrite m r v.toNat = (s.at t).errorTo m (regionBase + r) true := by
    have hw' : (s.at t).regWaits r = false := hw
    have hr' : (s.at t).regRefused r = true := hr
    simp [State.answerWrite, State.regWrite, hw', hr']
  calc exec (.registerWrite m r v t) s
      = .next (if s.mayAccess m r then ((s.at t).answerWrite m r v.toNat).retryOut else s.at t) := rfl
    _ = .next ((s.at t).errorTo m (regionBase + r) true) := by
      rw [if_pos hm, hanswer, State.retryOut_of_noneWait (State.noneWait_of_out hn ((s.at t).out_errorTo ..))]

theorem exec_readClear_refused {s : State} {m r : Nat} (t : Nat) (hm : s.mayAccess m r = true) (hw : s.regWaits r = false)
    (hr : s.regRefused r = true) : exec (.readClear m r t) s = .next ((s.at t).errorTo m (regionBase + r) false) := by
  have hw' : (s.at t).regWaits r = false := hw
  have hr' : (s.at t).regRefused r = true := hr
  calc exec (.readClear m r t) s
      = .next (if s.mayAccess m r then (s.at t).answerRead m r else s.at t) := rfl
    _ = .next ((s.at t).errorTo m (regionBase + r) false) := by simp [hm, State.answerRead, State.regRead, hw', hr']

/-- A read that its block takes answers what `busRead` gives. -/
theorem exec_readClear_taken {s : State} {m r : Nat} (t : Nat) (h : s.accessible m r = true) :
    exec (.readClear m r t) s = .next (((s.taking t r).busRead r).2.emit (.readData m ((s.taking t r).busRead r).1)) := by
  obtain ⟨hm, hw, hr⟩ := State.accessible_iff.mp h
  have hw' : (s.at t).regWaits r = false := hw
  have hr' : (s.at t).regRefused r = false := hr
  calc exec (.readClear m r t) s
      = .next (if s.mayAccess m r then (s.at t).answerRead m r else s.at t) := rfl
    _ = _ := by simp [hm, State.answerRead, State.regRead, hw', hr', State.taking]

/-- The key blob's bar holds back accesses to the flash port only (R434). -/
theorem State.blobRefused_of_ne (s : State) {r : Reg} (v : Nat) (hd : r ≠ MTX.FL_DATA) (hc : r ≠ MTX.FL_CMD) :
    s.blobRefused r v = false := by
  simp [State.blobRefused, hd, hc]

/-- A write that its block takes is performed and answered; it frees no waiting transaction where it leaves the pool as it was. -/
theorem exec_registerWrite_taken {s : State} {m r : Nat} {v : Word} {t : Nat} (hn : s.noneWait) (h : s.accessible m r = true)
    (hd : r ≠ MTX.FL_DATA) (hc : r ≠ MTX.FL_CMD) (ho : ((s.taking t r).busWrite m r v.toNat s.locked).mtx.out = s.mtx.out) :
    exec (.registerWrite m r v t) s = .next (((s.taking t r).busWrite m r v.toNat s.locked).emit (.writeDone m)) := by
  obtain ⟨hm, hw, hr⟩ := State.accessible_iff.mp h
  have hanswer : (s.at t).answerWrite m r v.toNat = ((s.taking t r).busWrite m r v.toNat s.locked).emit (.writeDone m) := by
    have hw' : (s.at t).regWaits r = false := hw
    have hr' : (s.at t).regRefused r = false := hr
    have hv : v.toNat % 2 ^ 32 = v.toNat := Nat.mod_eq_of_lt v.isLt
    have hblob := (s.taking t r).blobRefused_of_ne v.toNat hd hc
    unfold State.taking at hblob
    simp only [State.answerWrite, State.regWrite, hw', hr', hblob, hv, State.taking]
    rfl
  calc exec (.registerWrite m r v t) s
      = .next (if s.mayAccess m r then ((s.at t).answerWrite m r v.toNat).retryOut else s.at t) := rfl
    _ = _ := by
      rw [if_pos hm, hanswer]
      exact congrArg _ (State.retryOut_of_noneWait (State.noneWait_of_out hn ho))

/-! ## Transactions that no target takes -/

/-- What counting a transaction leaves: all but the counters of block 29 and the bytes carried over to the next transaction. -/
def Counted (s u : State) : Prop := u = { s with regs := u.regs, mtx := { s.mtx with rem := u.mtx.rem } } ∧ RegsKept [] s u

theorem Counted.trans {s u w : State} (h : Counted s u) (h' : Counted u w) : Counted s w := by
  obtain ⟨hu, hru⟩ := h
  obtain ⟨hw, hrw⟩ := h'
  refine ⟨?_, hru.trans hrw⟩
  rw [hw, hu]

theorem counted_count (s : State) {b : Nat} (code k : Nat) (hb : b < 32) : Counted s (s.count b code k) :=
  ⟨rfl, regsKept_count s code k hb⟩

theorem counted_countBytes (s : State) {b : Nat} (code n : Nat) (hb : b < 32) : Counted s (s.countBytes b code n) :=
  ⟨rfl, regsKept_count (s.setMtx _) code _ hb⟩

theorem masterBlock_lt (m : Nat) : masterBlock m < 32 := by
  have hlist : ∀ k, atD [16, 2, 7, 17, 19] k 31 < 32
    | 0 | 1 | 2 | 3 | 4 => by decide
    | _ + 5 => (by decide : 31 < 32)
  unfold masterBlock
  split
  · decide
  · split
    · decide
    · split
      · decide
      · exact hlist _

theorem counted_countTxn (s : State) (m a n : Nat) : Counted s (s.countTxn m a n) :=
  State.each_keeps (Counted s) _ _ _
    (((counted_count s 3 1 (masterBlock_lt m)).trans (counted_countBytes _ 4 n (masterBlock_lt m))).trans
      (counted_countBytes _ (0x40 + m) n (by decide)))
    (fun _ _ h => h.trans (counted_countBytes _ _ _ (by decide)))

/-- Above the DRAM, what an address names depends on the part alone (R2, R423). -/
theorem State.place_eq_of_part {s u : State} {a : Nat} (hp : u.part = s.part) (ha : 2 ^ 41 ≤ a) : u.place a = s.place a := by
  have hdram : ∀ x : State, ¬ a < x.dramSize := fun x => by unfold State.dramSize; split <;> omega
  simp only [State.place, hdram, if_false, hp]

theorem State.perform_of_badTxn {s : State} {write : Bool} {a n be : Nat} (m hint : Nat) (l : List Byte)
    (h : s.badTxn write a n be = true) : s.perform m write a n be l hint = (none, s) := by
  unfold State.perform; rw [if_pos h]

/-- A transaction that no target takes is counted and gets an error response (R424). -/
theorem exec_fabricTransaction_bad {s : State} {m a n be : Nat} {write : Bool} (data : List Byte) (answered : Bool) (t : Nat)
    (hn : s.noneWait) (hm : m < 12) (h1 : 1 ≤ n) (h2 : n ≤ 65536) (hl : s.masterLive m = true) (hr : s.outRoom m = true)
    (hbad : ((s.at t).countTxn m a n).badTxn write a n be = true) :
    exec (.fabricTransaction m write a n be data answered t) s = .next (((s.at t).countTxn m a n).errorTo m a write) := by
  have hc : (m < 12 && 1 ≤ n && n ≤ 65536 && s.masterLive m && s.outRoom m) = true := by simp [hm, h1, h2, hl, hr]
  have hout : (((s.at t).countTxn m a n).errorTo m a write).mtx.out = s.mtx.out :=
    (State.out_errorTo ..).trans (congrArg (fun u => u.mtx.out) (counted_countTxn (s.at t) m a n).1)
  show execFabricTransaction m write a n be data answered t s = _
  unfold execFabricTransaction doneIf
  rw [if_pos hc]
  simp only [hbad, State.perform_of_badTxn _ _ _ hbad, State.answer, Bool.not_true, Bool.false_and, Bool.false_eq_true, if_false,
    State.retryOut_of_noneWait (State.noneWait_of_out hn hout)]

end Sys2Proof.Machine
end

section
/-! SUPPORT. What a performed write does to the register written: the value under its access codes, and the registers with an effect of
their own. -/
namespace Sys2Proof.Machine

/-! ## Rows of the register tables -/

theorem RegRow.of_index? {row : RegRow} {off k : Nat} (h : row.index? off = some k) :
    k < row.count ∧ off = row.off + k * row.stride := by
  unfold RegRow.index? at h
  split at h
  · dsimp only at h
    split at h
    · split at h
      · next hk e => rw [Option.some.injEq] at h; rw [← h]; exact ⟨hk, e⟩
      · exact absurd h (by simp)
    · exact absurd h (by simp)
  · exact absurd h (by simp)

theorem rowAt_some {l : List RegRow} {off : Nat} {p : RegRow × Nat} (h : rowAt l off = some p) :
    p.1 ∈ l ∧ p.2 < p.1.count ∧ off = p.1.off + p.2 * p.1.stride := by
  induction l with
  | nil => exact absurd h (by simp [rowAt])
  | cons row l ih =>
    unfold rowAt at h
    split at h
    · next k hk =>
      rw [Option.some.injEq] at h
      rw [← h]
      exact ⟨List.mem_cons_self, RegRow.of_index? hk⟩
    · exact ⟨List.mem_cons_of_mem _ (ih h).1, (ih h).2⟩

/-- A named register's row stands in its block's table, and its number tells how far it lies from the row's first register. -/
theorem regRow_some {r : Nat} {row : RegRow} {k : Nat} (h : regRow r = some (row, k)) :
    row ∈ blockRows (r / 65536) ∧ k < row.count ∧ r = r / 65536 * 65536 + row.off + k * row.stride := by
  unfold regRow at h
  split at h
  · exact absurd h (by simp)
  · obtain ⟨hmem, hk, hoff⟩ := rowAt_some h
    exact ⟨hmem, hk, by dsimp only at hoff; omega⟩

/-! ## The value under the access codes -/

theorem State.mtx_storeReg (s : State) (r : Reg) (v : Nat) (lk : Bool) : (s.storeReg r v lk).mtx = s.mtx := by
  unfold State.storeReg
  split
  · rfl
  · dsimp only
    split <;> rfl

/-- The bits of a stored write: RW bits take the value, W1C bits written 1 are cleared, all others stay (R10, R11). -/
theorem State.reg_storeReg (s : State) {r : Reg} (v : Nat) (lk : Bool) {row : RegRow} {k : Nat} (h : regRow r = some (row, k)) :
    (s.storeReg r v lk).reg r = BitVec.ofNat 32
      (((((s.reg r).toNat &&& (0xFFFFFFFF ^^^ (row.rw ||| (if lk then 0 else row.rwl)))) |||
        (v &&& (row.rw ||| (if lk then 0 else row.rwl)))) &&& (0xFFFFFFFF ^^^ (v &&& row.w1c)))) := by
  unfold State.storeReg
  rw [h]
  dsimp only
  split
  · exact (Store.getD_put _ _ _ _ _).trans (if_pos rfl)
  · exact s.reg_setReg_same r _

/-- The bits of `mask` in register r are in u as they are in s, and the pool of outstanding transactions is. -/
def KeepsBits (r : Reg) (mask : Nat) (s u : State) : Prop :=
  (∀ i, mask.testBit i = true → (u.reg r).toNat.testBit i = (s.reg r).toNat.testBit i) ∧ u.mtx.out = s.mtx.out

theorem KeepsBits.and_eq {r : Reg} {mask : Nat} {s u : State} (h : KeepsBits r mask s u) :
    (u.reg r).toNat &&& mask = (s.reg r).toNat &&& mask := by
  apply Nat.eq_of_testBit_eq
  intro i
  rw [Nat.testBit_and, Nat.testBit_and]
  cases hm : mask.testBit i with
  | false => rw [Bool.and_false, Bool.and_false]
  | true => rw [h.1 i hm]

theorem KeepsBits.of_reg_eq {r : Reg} {mask : Nat} {s u : State} (h : u.reg r = s.reg r) (ho : u.mtx.out = s.mtx.out) :
    KeepsBits r mask s u := ⟨fun _ _ => by rw [h], ho⟩

theorem KeepsBits.trans {r : Reg} {mask : Nat} {s u w : State} (h : KeepsBits r mask s u) (h' : KeepsBits r mask u w) :
    KeepsBits r mask s w :=
  ⟨fun i hi => (h'.1 i hi).trans (h.1 i hi), h'.2.trans h.2⟩

theorem keepsBits_raise {r : Reg} {mask : Nat} (s : State) {f : Fld} (hb : f.reg / 65536 < 32) (h : r ≠ f.reg)
    (h2 : r / 65536 ≠ 29) : KeepsBits r mask s (s.raise f) :=
  .of_reg_eq (s.reg_raise_ne f hb h h2) rfl

/-- Bits that are neither RW nor W1C stay in a write behind the boot lock (R10). -/
theorem keepsBits_storeReg {r : Reg} {mask : Nat} (s : State) (v : Nat) {row : RegRow} {k : Nat} (h : regRow r = some (row, k))
    (hrw : mask &&& row.rw = 0) (hw1c : mask &&& row.w1c = 0) : KeepsBits r mask s (s.storeReg r v true) := by
  refine ⟨fun i hi => ?_, congrArg Matrix.out (s.mtx_storeReg r v true)⟩
  have clear : ∀ x, mask &&& x = 0 → x.testBit i = false := fun x hx => by
    have := congrArg (Nat.testBit · i) hx
    simpa [hi] using this
  have hlow : ∀ i, Nat.testBit 0xFFFFFFFF i = decide (i < 32) := Nat.testBit_two_pow_sub_one 32
  rw [s.reg_storeReg v true h, BitVec.toNat_ofNat, Nat.testBit_mod_two_pow]
  by_cases hi32 : i < 32
  · simp [hlow, clear _ hrw, clear _ hw1c, hi32]
  · have hbig : (s.reg r).toNat < 2 ^ i := Nat.lt_of_lt_of_le (s.reg r).isLt (Nat.pow_le_pow_right (by decide) (by omega))
    simp [hi32, Nat.testBit_lt_two_pow hbig]

/-- A field put back after a write is as it was, so what the write keeps stays kept. -/
theorem KeepsBits.setFld {r : Reg} {mask : Nat} {s u : State} {f : Fld} (h : KeepsBits r mask s u) (hf : f.reg = r)
    (hw : f.lo + f.wid ≤ 32) : KeepsBits r mask s (u.setFld f (s.fld f)) := by
  subst hf
  refine ⟨fun i hi => ?_, h.2⟩
  rw [State.toNat_setFld _ _ _ hw, testBit_putBits]
  split
  · exact h.1 i hi
  · split
    · unfold State.fld bits
      rw [Nat.testBit_mod_two_pow, Nat.testBit_shiftRight]
      next h1 h2 =>
        rw [show f.lo + (i - f.lo) = i by omega, show decide (i - f.lo < f.wid) = true by simp; omega, Bool.true_and]
    · exact h.1 i hi

theorem keepsBits_storeKeep {r : Reg} {mask : Nat} (s : State) (v : Nat) (ok : Bool) {f : Fld} {row : RegRow} {k : Nat}
    (h : regRow r = some (row, k)) (hrw : mask &&& row.rw = 0) (hw1c : mask &&& row.w1c = 0) (hf : f.reg = r)
    (hw : f.lo + f.wid ≤ 32) : KeepsBits r mask s (s.storeKeep r v true f ok) := by
  have hstore := keepsBits_storeReg s v h hrw hw1c
  unfold State.storeKeep
  dsimp only
  split
  · exact hstore
  · exact hstore.setFld hf hw

/-! ## Registers with an effect of their own -/

/-- The registers at which a write has an effect of `writeFront`; in a row of several, the first. -/
def frontEffects : List Reg :=
  [BEL.CTRL, BEL.T0_NS, BEL.T0_SEC_LO, BEL.T0_SEC_HI, BEL.LOOP, CFG.LOCK, CFG.LOAD, CFG.OPEN, CFG.CAST, SEC.STAT, SEC.CMD, SEC.POLICY,
   PIT.CTRL, PIT.ASSIGN, ING.EPOCH_NS, ING.LATENCY, ING.LANE_CTRL 0, ING.GRP_CTRL 0, FFL.DET, FFL.NCO_CMD, FFL.PCOMMIT, FFL.SWAP_CMD,
   FFL.CDATA, FFL.GRP_DC 0, FFL.IN_CFG 0, FFL.GRP_CHAIN 0, FFL.PAGE0 0, FFL.PAGE1 0, CHN.PCOMMIT, CHN.SCOMMIT, CHN.SDATA, CHN.WDATA,
   CHN.SWAP_CMD, CHN.PAGE0 0, CHN.PAGE1 0]

/-- The registers at which a write has an effect of `writeData`. -/
def dataEffects : List Reg :=
  [CAN.PORT_CTRL 0, CAN.SHAPE, STL.CFG 0, STL.CFG 1, STL.CFG 2, STL.CFG 3, STL.CFG 4, STL.CFG 5, STL.DUMP_N 0, CAN.PORT_ASYM 0,
   CAN.CHMAP 0, RRG.HOST_TRIG, RRG.CAP_REL, RRG.RD_CMD, AIS.PCOMMIT, AIS.BADD, AIS.GCOMMIT, DMC.CTRL, OUT.PORT_CTRL 0, OUT.STREN,
   OUT.DUMP, CLE.FLAGS_SET, CLE.FLAGS_CLR, CLE.MDATA, CLE.CORE_CTRL 0, CLE.CORE_DBELL 0]

/-- The registers at which a write has an effect of `writeCtl`. -/
def ctlEffects : List Reg :=
  [MEL.CTRL, MEL.REFCFG, MEL.QLMAP_LO, MEL.QLMAP_HI, PTP.TSET_NS, PTP.TSET_CMD, PTP.SLV_CTRL, PTP.SVC_CTRL 0, PTP.CDCOMMIT,
   PTP.CDBANK0 0, PTP.CDBANK1 0, CKG.AON, CKG.PLL_CTRL 0, CKG.PLL_CFG 0, CKG.DOM_SRC 0, CKG.GATE_CMD, PWR.CTRL, PWR.RET_BAD, PWR.VOTE 0,
   LED.CTRL, LED.RAIL_CFG 0, THM.CTRL, THM.ACK, MTX.MRST, MTX.EVR 0, MTX.FL_ADDR, MTX.FL_DATA, MTX.FL_CMD, POR.CH_CTRL 0, PMC.CTRL,
   PMC.CNT 0]

theorem State.writeFront_eq_none {base : Nat} (s : State) (k v : Nat) (lk : Bool) (h : base ∉ frontEffects) :
    s.writeFront base k v lk = none := by
  simp only [frontEffects, List.mem_cons, List.not_mem_nil, or_false, not_or] at h
  simp only [State.writeFront, h, if_false]

theorem State.writeData_eq_none {base : Nat} (s : State) (k v : Nat) (lk : Bool) (h : base ∉ dataEffects) :
    s.writeData base k v lk = none := by
  have hcfg : ¬ (8 ≤ base / 65536 ∧ base / 65536 ≤ 13 ∧ base % 65536 = STL.CFG 0 % 65536) := by
    rintro ⟨h8, h13, ho⟩
    replace ho : base % 65536 = 0x14 := ho
    have hdie : base = 0x080014 ∨ base = 0x090014 ∨ base = 0x0A0014 ∨ base = 0x0B0014 ∨ base = 0x0C0014 ∨ base = 0x0D0014 := by omega
    rcases hdie with rfl | rfl | rfl | rfl | rfl | rfl <;> exact h (by decide)
  simp only [dataEffects, List.mem_cons, List.not_mem_nil, or_false, not_or] at h
  simp only [State.writeData, h, hcfg, if_false]

theorem State.writeCtl_eq_none {base : Nat} (s : State) (m k v : Nat) (lk : Bool) (h : base ∉ ctlEffects) :
    s.writeCtl m base k v lk = none := by
  simp only [ctlEffects, List.mem_cons, List.not_mem_nil, or_false, not_or] at h
  simp only [State.writeCtl, h, if_false]

/-- A write to a register with no effect of its own is the value under its access codes. -/
theorem State.busWrite_eq_storeReg {r : Nat} {row : RegRow} {k : Nat} (s : State) (m v : Nat) (lk : Bool)
    (h : regRow r = some (row, k)) (hf : r - k * row.stride ∉ frontEffects) (hd : r - k * row.stride ∉ dataEffects)
    (hc : r - k * row.stride ∉ ctlEffects) : s.busWrite m r v lk = s.storeReg r v lk := by
  unfold State.busWrite
  rw [h]
  dsimp only
  rw [s.writeFront_eq_none k v lk hf, s.writeData_eq_none k v lk hd, s.writeCtl_eq_none m k v lk hc]

theorem State.busWrite_eq_self {r : Nat} (s : State) (m v : Nat) (lk : Bool) (h : regRow r = none) : s.busWrite m r v lk = s := by
  unfold State.busWrite; rw [h]

theorem State.busWrite_of_front {s u : State} {m r v k base : Nat} {lk : Bool} {row : RegRow} (h : regRow r = some (row, k))
    (hb : r - k * row.stride = base) (hf : s.writeFront base k v lk = some u) : s.busWrite m r v lk = u := by
  simp only [State.busWrite, h, hb, hf]

theorem State.busWrite_of_data {s u : State} {m r v k base : Nat} {lk : Bool} {row : RegRow} (h : regRow r = some (row, k))
    (hb : r - k * row.stride = base) (hf : s.writeFront base k v lk = none) (hd : s.writeData base k v lk = some u) :
    s.busWrite m r v lk = u := by
  simp only [State.busWrite, h, hb, hf, hd]

theorem State.busWrite_of_ctl {s u : State} {m r v k base : Nat} {lk : Bool} {row : RegRow} (h : regRow r = some (row, k))
    (hb : r - k * row.stride = base) (hf : s.writeFront base k v lk = none) (hd : s.writeData base k v lk = none)
    (hc : s.writeCtl m base k v lk = some u) : s.busWrite m r v lk = u := by
  simp only [State.busWrite, h, hb, hf, hd, hc]

/-- FL_DATA and FL_CMD are named, and no bit of them is RWL. -/
theorem ne_flash_of_rwl {r : Reg} (h : (regRow r).map (·.1.rwl) ≠ some 0) : r ≠ MTX.FL_DATA ∧ r ≠ MTX.FL_CMD := by
  have hdata : (regRow MTX.FL_DATA).map (·.1.rwl) = some 0 := by decide +kernel
  have hcmd : (regRow MTX.FL_CMD).map (·.1.rwl) = some 0 := by decide +kernel
  exact ⟨fun e => h (e ▸ hdata), fun e => h (e ▸ hcmd)⟩

end Sys2Proof.Machine
end

section
/-! SUPPORT. RWL bits behind the boot lock (R10, R399): every write leaves them, the registers with an effect of their own included. -/
namespace Sys2Proof.Machine

/-- The registers with RWL bits at which a write has an effect of its own: the first of the row, the row's stride and number of
registers, and its RWL bits. -/
def lockedEffects : List (Reg × Nat × Nat × Nat) :=
  [(ING.EPOCH_NS, 4, 1, 0x3FFFFFFF), (ING.LATENCY, 4, 1, 0x7FFF), (FFL.GRP_CHAIN 0, 16, 32, 0x3FF), (CAN.SHAPE, 4, 1, 0x1FF),
   (STL.DUMP_N 0, 4, 1, 0xFFFFFF), (CAN.CHMAP 0, 4, 8192, 0xFFFFFFFF), (OUT.DUMP, 4, 1, 0x30), (CKG.PLL_CFG 0, 16, 4, 0x7FFF)] ++
    (List.range 6).map (fun d => (STL.CFG d, 4, 1, 0x1FFFF))

/-- Rows with RWL bits count no events, and none of those bits is RW or W1C too. -/
theorem rwlRows_masks : ∀ b < 31, ∀ row ∈ blockRows b, row.rwl ≠ 0 →
    b ≠ 29 ∧ row.rwl &&& row.rw = 0 ∧ row.rwl &&& row.w1c = 0 := by decide +kernel

/-- Of the registers with RWL bits, a write has an effect of its own at those of `lockedEffects` only. -/
theorem rwlRows_effects : ∀ b < 31, ∀ row ∈ blockRows b, row.rwl ≠ 0 →
    (b * 65536 + row.off, row.stride, row.count, row.rwl) ∈ lockedEffects ∨
      (b * 65536 + row.off ∉ frontEffects ∧ b * 65536 + row.off ∉ dataEffects ∧ b * 65536 + row.off ∉ ctlEffects) := by
  decide +kernel

theorem KeepsBits.ite {r : Reg} {mask : Nat} {s u w : State} (c : Prop) [Decidable c] (hu : KeepsBits r mask s u)
    (hw : KeepsBits r mask s w) : KeepsBits r mask s (if c then u else w) := by
  split <;> assumption

theorem KeepsBits.refl (r : Reg) (mask : Nat) (s : State) : KeepsBits r mask s s := .of_reg_eq rfl rfl

/-- A position written to a die's CFG may change its STATUS, another register. -/
theorem keepsBits_positionWrite {n mask : Nat} (s : State) (v : Nat) {row : RegRow} {k : Nat} (h : regRow (STL.CFG n) = some (row, k))
    (hrw : mask &&& row.rw = 0) (hw1c : mask &&& row.w1c = 0) : KeepsBits (STL.CFG n) mask s (s.positionWrite n v true) := by
  have hwid : (STL.CFG_LPOS n).lo + (STL.CFG_LPOS n).wid ≤ 32 := (by decide : 0 + 3 ≤ 32)
  have hne : STL.CFG n ≠ (STL.STATUS_STATE n).reg := by show 0x080014 + 0x10000 * n ≠ 0x08001C + 0x10000 * n; omega
  refine (keepsBits_storeKeep s v (v % 8 != 6) h hrw hw1c rfl hwid).trans ?_
  unfold State.positionWrite State.restState
  dsimp only
  exact KeepsBits.ite _ (.of_reg_eq (State.reg_setFld_ne _ _ hne) rfl) (.refl _ _ _)

/-- FMTMAX, the RWL field of OUT.DUMP, is written back as it was (R237). -/
theorem keepsBits_dumpFormat (s : State) (v : Nat) : KeepsBits OUT.DUMP 0x30 s (s.dumpFormat v true) := by
  have hreg : OUT.DUMP ≠ OUT.STAT_FMT_REJ.reg := by decide
  unfold State.dumpFormat
  simp only [if_true]
  refine KeepsBits.ite _ (keepsBits_raise s (by decide) hreg (by decide)) ⟨fun i hi => ?_, congrArg Matrix.out (State.mtx_setRegN ..)⟩
  have hmax : s.fld OUT.DUMP_FMTMAX = bits (s.regN OUT.DUMP) 4 2 := rfl
  have hlt : bits (s.regN OUT.DUMP) 4 2 < 4 := bits_lt _ _ _
  have hfield : 4 ≤ i ∧ i < 6 := by
    have hi6 : i < 6 := by
      by_contra hge
      have hbig : 0x30 < 2 ^ i := Nat.lt_of_lt_of_le (by decide : 0x30 < 2 ^ 6) (Nat.pow_le_pow_right (by decide) (by omega))
      exact absurd hi (by rw [Nat.testBit_lt_two_pow hbig]; decide)
    exact ⟨by by_contra hlow; interval_cases i <;> exact absurd hi (by decide), hi6⟩
  unfold State.setRegN
  rw [State.reg_setReg_same, BitVec.toNat_ofNat, hmax, Nat.mod_eq_of_lt (by omega), Nat.add_comm,
    Nat.testBit_two_pow_mul_add (i := 4) _ (Nat.mod_lt _ (by decide)), if_neg (by omega)]
  unfold bits State.regN
  rw [Nat.testBit_mod_two_pow, Nat.testBit_shiftRight, show 4 + (i - 4) = i by omega, decide_eq_true (by omega), Bool.true_and]

/-- PLLk_CFG is discarded behind the boot lock, or refused while the PLL is on (R345). -/
theorem keepsBits_pllCfg {k : Nat} (mask : Nat) (s : State) (v : Nat) (hk : k < 4) :
    KeepsBits (CKG.PLL_CFG k) mask s (s.pllCfg k v true) := by
  have hne : CKG.PLL_CFG k ≠ CKG.STAT_REFUSED.reg := by show 0x170024 + 0x10 * k ≠ 0x170000; omega
  have hb : CKG.PLL_CFG k / 65536 ≠ 29 := by show (0x170024 + 0x10 * k) / 65536 ≠ 29; omega
  unfold State.pllCfg
  exact KeepsBits.ite _ (keepsBits_raise s (by decide) hne hb) (.refl _ _ _)

/-- What an effect of `writeFront` leaves, the write leaves. -/
theorem keepsBits_of_front {s u : State} {m r v k base mask : Nat} {row : RegRow} (h : regRow r = some (row, k))
    (hb : r - k * row.stride = base) (hf : s.writeFront base k v true = some u) (hu : KeepsBits r mask s u) :
    KeepsBits r mask s (s.busWrite m r v true) := by rw [State.busWrite_of_front h hb hf]; exact hu

/-- What an effect of `writeData` leaves, the write leaves. -/
theorem keepsBits_of_data {s u : State} {m r v k base mask : Nat} {row : RegRow} (h : regRow r = some (row, k))
    (hb : r - k * row.stride = base) (hf : s.writeFront base k v true = none) (hd : s.writeData base k v true = some u)
    (hu : KeepsBits r mask s u) : KeepsBits r mask s (s.busWrite m r v true) := by rw [State.busWrite_of_data h hb hf hd]; exact hu

/-- Position writes, at the CFG of each die. -/
theorem keepsBits_position {n mask : Nat} {row : RegRow} (s : State) (m v : Nat) (hn : n < 6) (h : regRow (STL.CFG n) = some (row, 0))
    (hrw : mask &&& row.rw = 0) (hw1c : mask &&& row.w1c = 0) : KeepsBits (STL.CFG n) mask s (s.busWrite m (STL.CFG n) v true) := by
  have hb : STL.CFG n - 0 * row.stride = STL.CFG n := by rw [Nat.zero_mul, Nat.sub_zero]
  interval_cases n <;> exact keepsBits_of_data h hb rfl rfl (keepsBits_positionWrite s v h hrw hw1c)

/-- The effects at the registers of `lockedEffects` leave their RWL bits. -/
theorem keepsBits_lockedEffects {r k : Nat} {row : RegRow} (s : State) (m v : Nat) (h : regRow r = some (row, k))
    (hrw : row.rwl &&& row.rw = 0) (hw1c : row.rwl &&& row.w1c = 0)
    (he : (r - k * row.stride, row.stride, row.count, row.rwl) ∈ lockedEffects) :
    KeepsBits r row.rwl s (s.busWrite m r v true) := by
  obtain ⟨-, hk, hoff⟩ := regRow_some h
  have hr : r = r - k * row.stride + k * row.stride := by omega
  have single : ∀ {base}, r - k * row.stride = base → row.count = 1 → k = 0 ∧ r = base := fun hb hc => by
    obtain rfl : k = 0 := by omega
    exact ⟨rfl, by omega⟩
  simp only [lockedEffects, List.mem_append, List.mem_cons, List.mem_map, List.mem_range, Prod.mk.injEq, List.not_mem_nil, or_false] at he
  rcases he with (⟨hb, -, hc, -⟩ | ⟨hb, -, hc, -⟩ | ⟨hb, hs, -, -⟩ | ⟨hb, -, hc, -⟩ | ⟨hb, -, hc, -⟩ | ⟨hb, hs, -, -⟩ | ⟨hb, -, hc, hm⟩ |
    ⟨hb, hs, hc, -⟩) | ⟨d, hd, hb, -, hc, -⟩
  · -- ING.EPOCH_NS
    obtain ⟨rfl, rfl⟩ := single hb hc
    exact keepsBits_of_front h hb rfl (.ite _ (keepsBits_storeReg s v h hrw hw1c) (.refl _ _ _))
  · -- ING.LATENCY
    obtain ⟨rfl, rfl⟩ := single hb hc
    exact keepsBits_of_front h hb rfl (.ite _ (keepsBits_storeReg s v h hrw hw1c) (.refl _ _ _))
  · -- FFL.GRPg_CHAIN
    obtain rfl : r = FFL.GRP_CHAIN k := by rw [hr, hb, hs, Nat.mul_comm]
    exact keepsBits_of_front h hb rfl (keepsBits_storeKeep s v _ h hrw hw1c rfl (by decide : 0 + 2 ≤ 32))
  · -- CAN.SHAPE
    obtain ⟨rfl, rfl⟩ := single hb hc
    exact keepsBits_of_data h hb rfl rfl (keepsBits_storeKeep s v _ h hrw hw1c rfl (by decide : 0 + 2 ≤ 32))
  · -- STL0.DUMP_N
    obtain ⟨rfl, rfl⟩ := single hb hc
    exact keepsBits_of_data h hb rfl rfl (keepsBits_storeKeep s v _ h hrw hw1c rfl (by decide : 0 + 24 ≤ 32))
  · -- CAN.CHMAP
    obtain rfl : r = CAN.CHMAP k := by rw [hr, hb, hs, Nat.mul_comm]
    exact keepsBits_of_data h hb rfl rfl (keepsBits_storeReg s _ h hrw hw1c)
  · -- OUT.DUMP
    obtain ⟨rfl, rfl⟩ := single hb hc
    rw [hm]
    exact keepsBits_of_data h hb rfl rfl (keepsBits_dumpFormat s v)
  · -- CKG.PLLk_CFG
    obtain rfl : r = CKG.PLL_CFG k := by rw [hr, hb, hs, Nat.mul_comm]
    rw [State.busWrite_of_ctl h hb rfl rfl rfl]
    exact keepsBits_pllCfg _ s v (hc ▸ hk)
  · -- STLd.CFG
    obtain ⟨rfl, rfl⟩ := single hb.symm hc.symm
    exact keepsBits_position s m v hd h hrw hw1c

/-- Behind the boot lock a write leaves the RWL bits of its register, whatever else it does (R10). -/
theorem keepsBits_busWrite {r k : Nat} {row : RegRow} (s : State) (m v : Nat) (hr : r / 65536 < 31) (h : regRow r = some (row, k))
    (hrwl : row.rwl ≠ 0) : KeepsBits r row.rwl s (s.busWrite m r v true) := by
  obtain ⟨hmem, -, hoff⟩ := regRow_some h
  obtain ⟨-, hrw, hw1c⟩ := rwlRows_masks _ hr _ hmem hrwl
  have hbase : r - k * row.stride = r / 65536 * 65536 + row.off := by omega
  rcases rwlRows_effects _ hr _ hmem hrwl with he | ⟨hf, hd, hc⟩
  · exact keepsBits_lockedEffects s m v h hrw hw1c (hbase ▸ he)
  · rw [s.busWrite_eq_storeReg m v true h (hbase ▸ hf) (hbase ▸ hd) (hbase ▸ hc)]
    exact keepsBits_storeReg s v h hrw hw1c

/-- Settles O55: what `keepsBits_busWrite` leaves of the register, on a write that its block takes. -/
theorem lockedRegistersDiscardWrites : Obligations.locked_registers_discard_writes := by
  unfold Obligations.locked_registers_discard_writes
  intro m r v t s row k hn hlock ha hrow hrwl
  have hr : r / 65536 < 31 := State.block_lt_of_mayAccess (State.accessible_iff.mp ha).1
  have hkept := keepsBits_busWrite (s.taking t r) m v.toNat hr hrow hrwl
  obtain ⟨hdata, hcmd⟩ : r ≠ MTX.FL_DATA ∧ r ≠ MTX.FL_CMD := ne_flash_of_rwl (by simpa [hrow] using hrwl)
  have hexec := exec_registerWrite_taken (v := v) (t := t) hn ha hdata hcmd (hlock ▸ hkept.2)
  rw [hlock] at hexec
  refine ⟨_, hexec, ?_, List.mem_cons_self⟩
  have hn29 := (rwlRows_masks _ hr _ (regRow_some hrow).1 hrwl).1
  rw [← regsKept_taking s t hr r List.not_mem_nil hn29]
  exact hkept.and_eq

end Sys2Proof.Machine
end

section
/-! SUPPORT. The rules of spec/00_scope.md on accesses and events: absent blocks (R2), offsets that name no register (R6), and STAT, MASK
and CAUSE (R7, R8). -/
namespace Sys2Proof.Machine

/-! ## Absent blocks (R2) -/

/-- The blocks of the stall dies that an IZ4 does not have refuse every access. -/
theorem State.regRefused_of_absent {s : State} {r : Nat} (hp : s.part = .iz4) (h10 : 10 ≤ r / 65536) (h13 : r / 65536 ≤ 13) :
    s.regRefused r = true := by
  simp [State.regRefused, hp, h10, h13]

/-- The window stores of the stall dies that an IZ4 does not have lie at addresses that name nothing. -/
theorem State.place_of_absent {s : State} {d i : Nat} (hp : s.part = .iz4) (h2 : 2 ≤ d) (h6 : d < 6) (hi : i < 0x10000000) :
    s.place (0xFC0000000000 + d * 0x10000000 + i) = .none := by
  have hdram : ¬ 0xFC0000000000 + d * 0x10000000 + i < s.dramSize := by unfold State.dramSize; split <;> omega
  have hdies : diesOf s.part = 2 := by rw [hp]; rfl
  unfold State.place
  rw [if_neg hdram, hdies]
  repeat rw [if_neg (by omega)]

/-- Settles O52: the side bus refuses the block, and the address of its window store names no target. -/
theorem absentBlocksAnswerErrors : Obligations.absent_blocks_answer_errors := by
  unfold Obligations.absent_blocks_answer_errors
  refine ⟨?_, ?_, ?_⟩
  · intro m r v t s hn hp h10 h13 hm hw
    exact exec_registerWrite_refused v t hn hm hw (State.regRefused_of_absent hp h10 h13)
  · intro m r t s hp h10 h13 hm hw
    have hr := State.regRefused_of_absent hp h10 h13
    exact ⟨exec_readClear_refused t hm hw hr, exec_readClear_refused t hm hw hr⟩
  · intro m d i n be data t s hn hp h2 h6 hi hm h1 hmax hl hroom write answered
    have hpart : ((s.at t).countTxn m (0xFC0000000000 + d * 0x10000000 + i) n).part = .iz4 :=
      (congrArg State.part (counted_countTxn (s.at t) m _ n).1).trans hp
    refine exec_fabricTransaction_bad data answered t hn hm h1 hmax hl hroom ?_
    simp [State.badTxn, State.place_of_absent hpart h2 h6 (by omega : i < 0x10000000)]

/-! ## Offsets that name no register (R6) -/

theorem State.busRead_of_unnamed (s : State) {r : Reg} (h : regRow r = none) : s.busRead r = (0, s) := by
  unfold State.busRead; rw [h]

/-- STL1 to STL5 name no register from offset 0x100 on (R181). -/
theorem regRow_of_die_offset {n k : Nat} (h1 : 1 ≤ n) (h5 : n ≤ 5) (hk : 0x100 ≤ k) (hmax : k < 65536) :
    regRow ((8 + n) * 65536 + k) = none := by
  have hdie : 9 ≤ ((8 + n) * 65536 + k) / 65536 ∧ ((8 + n) * 65536 + k) / 65536 ≤ 13 ∧ 0x100 ≤ ((8 + n) * 65536 + k) % 65536 := by
    omega
  exact if_pos hdie

/-- A transaction that is not one aligned word finds no target at the register bridge (R424). -/
theorem State.badTxn_of_reg {s : State} {write : Bool} {r n be : Nat} (hp : s.place (regionBase + r) = .reg)
    (h : n ≠ 4 ∨ r % 4 ≠ 0 ∨ (write = true ∧ be % 16 ≠ 15)) : s.badTxn write (regionBase + r) n be = true := by
  have hword : (n != 4 || (regionBase + r) % 4 != 0 || (write && be % 16 != 15)) = true := by
    have hmod : (regionBase + r) % 4 = r % 4 := by unfold regionBase; omega
    rw [hmod]
    rcases h with h | h | ⟨hwrite, h⟩ <;> simp [*]
  simp [State.badTxn, hp, hword]

/-- Settles O53: an unnamed register is read as 0 and its write changes nothing, and the bridge takes whole aligned words only. -/
theorem unnamedRegistersAreReserved : Obligations.unnamed_registers_are_reserved := by
  unfold Obligations.unnamed_registers_are_reserved
  refine ⟨?_, ?_, fun n k => regRow_of_die_offset, ?_⟩
  · intro m r t s ha hrow
    have hr := State.block_lt_of_mayAccess (State.accessible_iff.mp ha).1
    have hexec := exec_readClear_taken t ha
    rw [State.busRead_of_unnamed _ hrow] at hexec
    exact ⟨_, hexec, rfl, regsKept_taking s t hr⟩
  · intro m r v t s hn ha hrow
    have hr := State.block_lt_of_mayAccess (State.accessible_iff.mp ha).1
    have hself := (s.taking t r).busWrite_eq_self m v.toNat s.locked hrow
    obtain ⟨hdata, hcmd⟩ : r ≠ MTX.FL_DATA ∧ r ≠ MTX.FL_CMD := ne_flash_of_rwl (by simp [hrow])
    have hexec := exec_registerWrite_taken (v := v) (t := t) hn ha hdata hcmd (by rw [hself]; rfl)
    rw [hself] at hexec
    exact ⟨_, hexec, rfl, regsKept_taking s t hr⟩
  · intro m write r n be data t s hn hp hm h1 hmax hl hroom hbad
    obtain ⟨hframe, hregs⟩ := counted_countTxn (s.at t) m (regionBase + r) n
    have hpart := congrArg State.part hframe
    have hmem := congrArg State.mem hframe
    have hplace := (State.place_eq_of_part (s := s.at t) hpart (by unfold regionBase; omega : 2 ^ 41 ≤ regionBase + r)).trans hp
    refine ⟨_, exec_fabricTransaction_bad data true t hn hm h1 hmax hl hroom (State.badTxn_of_reg hplace hbad), ?_, ?_, ?_⟩
    · exact State.errResp_mem_sent_errorTo _ _ _ _
    · exact (State.mem_errorTo _ _ _ _).trans hmem
    · exact (hregs.mono (List.nil_subset _)).trans (regsKept_errorTo _ _ _ _)

/-! ## STAT, MASK and CAUSE (R7, R8) -/

theorem pmcBump_low (part : Part) (serial : Nat) (regs : Store Word) (c k r : Nat) (d : Word) (hc : c < 0x3C00) (h : r % 65536 < 0x100) :
    Store.getD (pmcBump part serial regs c k) r d = Store.getD regs r d := by
  have hcnt : r ≠ 0x1D1000 + 4 * c := by omega
  have hovf : r ≠ 0x1D0100 + 4 * (c / 8) := by omega
  unfold pmcBump
  dsimp only
  split
  · rw [Store.getD_put, if_neg hcnt]
  · rw [Store.getD_put, if_neg hovf, Store.getD_put, if_neg hcnt]

/-- Counting an event leaves the low registers of every block, block 29 included (R447). -/
theorem pmcCount_low (part : Part) (serial : Nat) (regs : Store Word) (b code k r : Nat) (d : Word) (hb : b < 32)
    (h : r % 65536 < 0x100) : Store.getD (pmcCount part serial regs b code k) r d = Store.getD regs r d := by
  unfold pmcCount
  have hhits : ∀ c ∈ pmcHits regs b code, c < 0x3C00 := fun _ => pmcHits_lt hb
  generalize pmcHits regs b code = l at hhits
  induction l generalizing regs with
  | nil => rfl
  | cons c l ih =>
    rw [List.foldl_cons, ih _ (fun x hx => hhits x (List.mem_cons_of_mem _ hx))]
    exact pmcBump_low part serial regs c k r d (hhits c List.mem_cons_self) h

theorem resetOf_stat (p : Part) (serial : Nat) {b : Nat} (hb : b < 31) : resetOf p serial (statOf b) = 0#32 := by
  interval_cases b <;> rfl

/-- An event sets its bit of the STAT register and leaves the others (R7). -/
theorem State.reg_raise_stat (s : State) {f : Fld} {b : Nat} (hb : b < 31) (hf : f.reg = statOf b) :
    (s.raise f).reg f.reg = s.reg f.reg ||| BitVec.ofNat 32 (2 ^ f.lo) := by
  have hoff : f.reg % 65536 < 0x100 := by rw [hf]; show b * 65536 % 65536 < 0x100; omega
  have hblock : f.reg / 65536 < 32 := by rw [hf]; show b * 65536 / 65536 < 32; omega
  have hold : s.reg f.reg = Store.getD s.regs f.reg 0#32 := by rw [State.reg_def, hf, resetOf_stat _ _ hb]
  rw [hold]
  show Store.getD (pmcCount s.part s.serial (Store.put s.regs f.reg _) (f.reg / 65536) _ 1) f.reg _ = _
  rw [pmcCount_low _ _ _ _ _ _ _ _ hblock hoff, Store.getD_put, if_pos rfl]

/-- R7's clause of O54 with f in a STAT register, where the spec puts every event: its bit is set, and no bit is lost. -/
theorem State.raise_stat_sticky (s : State) {f : Fld} {b : Nat} (hb : b < 31) (hf : f.reg = statOf b) (hl : f.lo < 32) :
    (s.raise f).flag f = true ∧
      ∀ i, (s.reg f.reg).toNat.testBit i = true → ((s.raise f).reg f.reg).toNat.testBit i = true := by
  have hbit : (BitVec.ofNat 32 (2 ^ f.lo)).toNat = 2 ^ f.lo := by
    rw [BitVec.toNat_ofNat, Nat.mod_eq_of_lt (Nat.pow_lt_pow_right (by decide) hl)]
  unfold State.flag
  rw [s.reg_raise_stat hb hf, BitVec.toNat_or, hbit]
  refine ⟨?_, fun i hi => ?_⟩
  · rw [Nat.testBit_or, Nat.testBit_two_pow_self, Bool.or_true]
  · rw [Nat.testBit_or, hi, Bool.true_or]

/-- Refutes O54: its clause on raised events is over every field, and at a register that is no STAT and whose reset value is not 0 the
unlisted value counts as 0. At reset, an event at bit 0 of ING.LATENCY (reset value 4,000) loses bit 5 of the register. In a STAT
register the clause holds: `State.raise_stat_sticky`. -/
theorem not_eventRegisters : ¬ Obligations.event_registers := by
  unfold Obligations.event_registers
  intro h
  obtain ⟨-, -, -, -, hraise, -⟩ := h
  obtain ⟨-, hsticky⟩ := hraise State.reset ING.LATENCY_NS (by decide)
  have hbefore : (State.reset.reg ING.LATENCY).toNat.testBit 5 = true := by decide +kernel
  have hafter : ((State.reset.raise ING.LATENCY_NS).reg ING.LATENCY).toNat.testBit 5 = false := by decide +kernel
  exact absurd (hsticky 5 hbefore) (by rw [hafter]; decide)

end Sys2Proof.Machine
end

section
/-! SUPPORT. LOCKED of CFG.STATUS (R399): the bit in the registers stored, what the shared operations leave of it, and what it means that a
command keeps a closed lock. -/
namespace Sys2Proof.Machine

/-! ## The bit -/

/-- LOCKED of CFG.STATUS, as the registers stored hold it. -/
def lockBit (regs : Store Word) : Bool := (Store.getD regs CFG.STATUS 0#32).toNat.testBit 3

theorem State.locked_eq_lockBit (s : State) : s.locked = lockBit s.regs := by
  have hreset : resetOf s.part s.serial CFG.STATUS = 0#32 := by cases s.part <;> rfl
  unfold State.locked State.flag State.reg lockBit
  rw [hreset]

@[simp] theorem lockBit_regs (s : State) : lockBit s.regs = s.locked := s.locked_eq_lockBit.symm

/-- An update of fields of the state: the lock is in its registers. -/
@[simp] theorem State.locked_mk (part serial now up regs mem sent free bell latch frameFlags skips evts evtLoss ing front chan schedule
    pit can ring dram outs corr aisle crown cal clk mel ptp pwr led thm otp sec cfg mtx flash por pmc shed deferred cores started ended
    pushed trigQ msixMask msixPend porTrig alertDirect pending) :
    (State.mk part serial now up regs mem sent free bell latch frameFlags skips evts evtLoss ing front chan schedule
      pit can ring dram outs corr aisle crown cal clk mel ptp pwr led thm otp sec cfg mtx flash por pmc shed deferred cores started ended
      pushed trigQ msixMask msixPend porTrig alertDirect pending).locked = lockBit regs := State.locked_eq_lockBit _

theorem State.locked_eq_of_lockBit {s u : State} (h : lockBit u.regs = lockBit s.regs) : u.locked = s.locked := by
  rw [s.locked_eq_lockBit, u.locked_eq_lockBit, h]

@[simp] theorem lockBit_put (l : Store Word) {r : Reg} (v : Word) (h : r ≠ CFG.STATUS) : lockBit (Store.put l r v) = lockBit l := by
  unfold lockBit
  rw [Store.getD_put, if_neg (Ne.symm h)]

/-- The registers of arrays lie above CFG.STATUS; SKIPd of the bell engine are the one exception. -/
@[simp] theorem add_eq_status (k n : Nat) : (k + 0x010011 + n = 0x010010) = False := eq_false (by omega)

/-! The fields and registers chosen by an index: none is CFG.STATUS. -/

@[simp] theorem Fld.reg_ite_ne {c : Prop} {_ : Decidable c} {a b : Fld} (ha : a.reg ≠ CFG.STATUS) (hb : b.reg ≠ CFG.STATUS) :
    (if c then a else b).reg ≠ CFG.STATUS := by
  split
  · exact ha
  · exact hb

@[simp] theorem reg_okFld_ne (c : Nat) : (okFld c).reg ≠ CFG.STATUS := by
  unfold okFld
  split <;> decide

@[simp] theorem reg_latFld_ne (c : Nat) : (latFld c).reg ≠ CFG.STATUS := by
  unfold latFld
  split <;> decide

@[simp] theorem mailReg_ne (b : Nat) : mailReg b ≠ CFG.STATUS := by
  unfold mailReg
  (repeat' split) <;> decide

/-! ## The shared operations -/

@[simp] theorem State.locked_setReg (s : State) {r : Reg} (v : Word) (h : r ≠ CFG.STATUS) : (s.setReg r v).locked = s.locked :=
  State.locked_eq_of_lockBit (lockBit_put _ _ h)
@[simp] theorem State.locked_setRegN (s : State) {r : Reg} (n : Nat) (h : r ≠ CFG.STATUS) : (s.setRegN r n).locked = s.locked :=
  s.locked_setReg _ h
@[simp] theorem State.locked_setFld (s : State) {f : Fld} (n : Nat) (h : f.reg ≠ CFG.STATUS) : (s.setFld f n).locked = s.locked :=
  s.locked_setReg _ h
@[simp] theorem State.locked_setFlag (s : State) {f : Fld} (b : Bool) (h : f.reg ≠ CFG.STATUS) : (s.setFlag f b).locked = s.locked :=
  s.locked_setFld _ h
@[simp] theorem State.locked_bump (s : State) {r : Reg} (k : Nat) (h : r ≠ CFG.STATUS) : (s.bump r k).locked = s.locked :=
  s.locked_setRegN _ h
@[simp] theorem State.locked_setPair (s : State) {lo hi : Reg} (n : Nat) (hlo : lo ≠ CFG.STATUS) (hhi : hi ≠ CFG.STATUS) :
    (s.setPair lo hi n).locked = s.locked :=
  ((s.setRegN lo _).locked_setRegN _ hhi).trans (s.locked_setRegN _ hlo)

/-- The loader's state and the image's source lie in CFG.STATUS beside LOCKED. -/
theorem State.locked_setFld_status (s : State) (lo wid n : Nat) (hw : lo + wid ≤ 32) (h : 3 < lo ∨ lo + wid ≤ 3) :
    (s.setFld ⟨CFG.STATUS, lo, wid⟩ n).locked = s.locked := s.flag_setFld_ne _ CFG.STATUS_LOCKED n hw (.inr h)
@[simp] theorem State.locked_setFld_state (s : State) (n : Nat) : (s.setFld CFG.STATUS_STATE n).locked = s.locked :=
  s.locked_setFld_status _ _ n (by decide) (by decide)
@[simp] theorem State.locked_setFld_src (s : State) (n : Nat) : (s.setFld CFG.STATUS_SRC n).locked = s.locked :=
  s.locked_setFld_status _ _ n (by decide) (by decide)

theorem lockBit_pmcBump (p : Part) (serial : Nat) (l : Store Word) (c k : Nat) : lockBit (pmcBump p serial l c k) = lockBit l := by
  have hcnt : 0x1D1000 + 4 * c ≠ CFG.STATUS := by simp
  have hovf : 0x1D0100 + 4 * (c / 8) ≠ CFG.STATUS := by simp
  unfold pmcBump
  dsimp only
  split
  · exact lockBit_put _ _ hcnt
  · exact (lockBit_put _ _ hovf).trans (lockBit_put _ _ hcnt)

theorem lockBit_pmcCount (p : Part) (serial : Nat) (l : Store Word) (b code k : Nat) :
    lockBit (pmcCount p serial l b code k) = lockBit l := by
  unfold pmcCount
  generalize pmcHits l b code = hits
  induction hits generalizing l with
  | nil => rfl
  | cons c hits ih => exact (ih _).trans (lockBit_pmcBump ..)

@[simp] theorem State.locked_count (s : State) (b code k : Nat) : (s.count b code k).locked = s.locked :=
  State.locked_eq_of_lockBit (lockBit_pmcCount ..)
@[simp] theorem State.locked_withLine (s : State) (b : Nat) (regs : Store Word) : (s.withLine b regs).locked = lockBit regs :=
  State.locked_eq_lockBit _
@[simp] theorem State.locked_raise (s : State) {f : Fld} (h : f.reg ≠ CFG.STATUS) : (s.raise f).locked = s.locked :=
  State.locked_eq_of_lockBit ((lockBit_pmcCount ..).trans (lockBit_put _ _ h))
@[simp] theorem State.locked_raiseIf (s : State) (c : Bool) {f : Fld} (h : f.reg ≠ CFG.STATUS) : (s.raiseIf c f).locked = s.locked := by
  cases c
  · rfl
  · exact s.locked_raise h

/-- The updates that leave the registers. -/
@[simp] theorem State.locked_of_regs (s : State) :
    (∀ t, (s.at t).locked = s.locked) ∧ (∀ w, (s.fresh w).2.locked = s.locked) ∧ (∀ src, (s.pulse src).locked = s.locked) ∧
    (∀ o, (s.emit o).locked = s.locked) ∧ (∀ l, (s.emitAll l).locked = s.locked) ∧ (∀ a l, (s.write a l).locked = s.locked) ∧
    (∀ a n v, (s.writeN a n v).locked = s.locked) ∧ (∀ a n, (s.clear a n).locked = s.locked) :=
  ⟨fun _ => rfl, fun _ => rfl, fun _ => rfl, fun _ => rfl, fun _ => rfl, fun _ _ => rfl, fun _ _ _ => rfl, fun _ _ => rfl⟩

/-- A filter that keeps LOCKED's register keeps a closed lock: the register was found, so only lower ones stand before it. -/
theorem lockBit_filter {l : Store Word} {p : Reg × Word → Bool} (hp : ∀ v, p (CFG.STATUS, v) = true) (h : lockBit l = true) :
    lockBit (l.filter p) = true := by
  have hget : ∀ v, Store.get? l CFG.STATUS = some v → Store.get? (l.filter p) CFG.STATUS = some v := by
    intro v
    clear h
    induction l with
    | nil => exact id
    | cons x l ih =>
      obtain ⟨a, w⟩ := x
      intro hv
      unfold Store.get? at hv
      split at hv
      next ha =>
        subst ha
        rw [List.filter_cons_of_pos (hp w)]
        simpa [Store.get?] using hv
      next ha =>
        split at hv
        · exact absurd hv (by simp)
        next hlt =>
          have hl := ih hv
          cases hpa : p (a, w)
          · rwa [List.filter_cons_of_neg (by simp [hpa])]
          · rw [List.filter_cons_of_pos hpa]
            simpa [Store.get?, ha, hlt] using hl
  unfold lockBit Store.getD at h ⊢
  cases hv : Store.get? l CFG.STATUS with
  | none => simp [hv] at h
  | some v =>
    rw [hget v hv]
    rwa [hv] at h

theorem State.locked_setFlag_locked (s : State) (b : Bool) : (s.setFlag CFG.STATUS_LOCKED b).locked = b :=
  s.flag_setFlag CFG.STATUS_LOCKED b (by decide) (by decide)

theorem State.fld_locked (s : State) : s.fld CFG.STATUS_LOCKED = boolNat s.locked := by
  unfold State.locked State.flag State.fld boolNat bits
  rw [Nat.testBit_eq_decide_div_mod_eq, Nat.shiftRight_eq_div_pow]
  obtain h | h := Nat.mod_two_eq_zero_or_one ((s.reg CFG.STATUS).toNat / 2 ^ 3) <;> simp_all

@[simp] theorem State.locked_bootLock (s : State) : s.bootLock.locked = true := by
  unfold State.bootLock
  split
  · assumption
  · exact (State.locked_raise _ (by decide)).trans (s.locked_setFlag_locked true)

/-! ## Conditions and repetitions -/

@[simp] theorem State.locked_ite {c : Prop} {_ : Decidable c} (a b : State) :
    (if c then a else b).locked = if c then a.locked else b.locked := apply_ite _ _ _ _

@[simp] theorem State.locked_ite_fst {α : Type} {c : Prop} {_ : Decidable c} (a b : State × α) :
    (if c then a else b).1.locked = if c then a.1.locked else b.1.locked := apply_ite (fun x : State × α => x.1.locked) _ _ _

@[simp] theorem State.locked_ite_snd {α : Type} {c : Prop} {_ : Decidable c} (a b : α × State) :
    (if c then a else b).2.locked = if c then a.2.locked else b.2.locked := apply_ite (fun x : α × State => x.2.locked) _ _ _

@[simp] theorem State.locked_when (s : State) (c : Bool) {f : State → State} (h : (f s).locked = s.locked) :
    (s.when c f).locked = s.locked := by
  cases c
  · rfl
  · exact h

/-- A fold whose steps leave the lock of the state that `get` finds in what it carries. -/
theorem locked_foldl_get {α β : Type} (get : β → State) {f : β → α → β} (l : List α) (b : β)
    (h : ∀ b, ∀ x ∈ l, (get (f b x)).locked = (get b).locked) : (get (l.foldl f b)).locked = (get b).locked := by
  induction l generalizing b with
  | nil => rfl
  | cons x l ih =>
    exact (ih (f b x) fun b y hy => h b y (List.mem_cons_of_mem _ hy)).trans (h b x List.mem_cons_self)

@[simp] theorem State.locked_foldl {α : Type} (s : State) (l : List α) {f : State → α → State}
    (h : ∀ t x, (f t x).locked = t.locked) : (l.foldl f s).locked = s.locked := locked_foldl_get id l s fun t x _ => h t x

@[simp] theorem State.locked_each {α : Type} (s : State) (l : List α) {f : State → α → State}
    (h : ∀ t x, (f t x).locked = t.locked) : (s.each l f).locked = s.locked := s.locked_foldl l h

theorem State.locked_each_of {α : Type} (s : State) (l : List α) {f : State → α → State}
    (hf : ∀ t x, t.locked = true → (f t x).locked = true) (hl : s.locked = true) : (s.each l f).locked = true :=
  List.foldlRecOn (motive := fun t : State => t.locked = true) l f hl fun t ht x _ => hf t x ht

/-! ## Commands -/

/-- The boot lock, once closed, is closed in the next state that o gives. -/
def KeepsLock (s : State) (o : Out3) : Prop := ∀ u, o = .next u → s.locked = true → u.locked = true

@[simp] theorem keepsLock_done (s t : State) : KeepsLock s (done t) ↔ (s.locked = true → t.locked = true) :=
  ⟨fun h => h t rfl, fun h u hu => by cases hu; exact h⟩

@[simp] theorem keepsLock_doneIf (s t : State) (c : Bool) (f : State → State) :
    KeepsLock s (doneIf t c f) ↔ (s.locked = true → (if c then (f t).locked else t.locked) = true) := by
  cases c
  · exact keepsLock_done s t
  · exact keepsLock_done s (f t)

theorem KeepsLock.doneIf {s t : State} {c : Bool} {f : State → State} (ht : t.locked = s.locked) (hf : (f t).locked = t.locked) :
    KeepsLock s (Machine.doneIf t c f) := by
  rw [keepsLock_doneIf, hf, ht, ite_self]
  exact id

theorem KeepsLock.of_doneIf {s t : State} {c : Bool} {f : State → State} (ht : t.locked = s.locked)
    (hf : t.locked = true → (f t).locked = true) : KeepsLock s (Machine.doneIf t c f) := by
  rw [keepsLock_doneIf]
  intro h
  split
  · exact hf (ht.trans h)
  · exact ht.trans h

theorem KeepsLock.locked_resultState {o : Out3} {s : State} (ho : KeepsLock s o) (hl : s.locked = true) :
    (resultState o s).locked = true := by
  cases o with
  | next u => exact ho u rfl hl
  | fault _ => exact hl
  | refused _ => exact hl

end Sys2Proof.Machine
end

section
/-! SUPPORT. The operations and commands that leave the boot lock as it is, file by file in the order of the model. A theorem over several
operations is named after the model's heading they stand under, or after its first and last. -/
namespace Sys2Proof.Machine

/-! ## Clocks -/

@[simp] theorem State.locked_gateTree (s : State) :
    (∀ g quiet, (s.gateClose g quiet).locked = s.locked) ∧ (∀ g, (s.gateOpen g).locked = s.locked) ∧
    (∀ v quiet, (s.gateCmd v quiet).locked = s.locked) ∧ (∀ g, (s.gateClosed g).locked = s.locked) ∧
    (∀ g, (s.gateTimeout g).locked = s.locked) := by
  simp [State.gateResult, State.gateRefuse, State.gateClose, State.gateOpen, State.gateCmd, State.gateClosed, State.gateTimeout]

@[simp] theorem State.locked_sourcesAndSwitches (s : State) :
    (∀ bit b, (s.setReady bit b).locked = s.locked) ∧ (∀ k v, (s.setTarget k v).locked = s.locked) ∧
    (∀ sel b, (s.setStopped sel b).locked = s.locked) ∧ s.refsRun.locked = s.locked ∧
    (∀ k v, (s.clockSource k v).locked = s.locked) ∧ (∀ k t forced, (s.switchEnd k t forced).locked = s.locked) := by
  simp [State.setReady, State.setTarget, State.setStopped, State.refsRun, State.clockSource, State.switchEnd]

@[simp] theorem State.locked_abortSwitches (s : State) (lost : Nat → Nat → Bool) : (s.abortSwitches lost).locked = s.locked := by
  unfold State.abortSwitches
  refine s.locked_each _ fun t k => ?_
  split <;> simp

@[simp] theorem State.locked_pllOff (s : State) (k : Nat) : (s.pllOff k).locked = s.locked := by
  simp [State.fallback, State.pllOff]

@[simp] theorem State.locked_plls (s : State) :
    (∀ k v, (s.pllCtrl k v).locked = s.locked) ∧ (∀ k v locked, (s.pllCfg k v locked).locked = s.locked) ∧
    (∀ k, (s.pllLocks k).locked = s.locked) := by
  simp [State.pllCtrl, State.pllCfg, State.pllLocks]

@[simp] theorem State.locked_crystal (s : State) :
    s.xtalStart.locked = s.locked ∧ s.xtalStable.locked = s.locked := by
  simp [State.xtalStart, State.xtalStable]

@[simp] theorem keepsLock_clocksCommands (s : State) :
    (∀ k v, KeepsLock s (execClockSourceWrite k v s)) ∧ (∀ k v, KeepsLock s (execPllEnable k v s)) ∧
    (∀ k ctrl v, KeepsLock s (execPllConfigWrite k ctrl v s)) ∧ (∀ k, KeepsLock s (execPllUnlock k s)) ∧
    (∀ v, KeepsLock s (execXtalRestart v s)) ∧ KeepsLock s (execXtalFail s) ∧ KeepsLock s (execXtalLost s) := by
  simp [execClockSourceWrite, execPllEnable, execPllConfigWrite, execPllUnlock, execXtalRestart, execXtalFail, execXtalLost]

/-! ## Link -/

@[simp] theorem State.locked_setPort (s : State) (p : Nat) (c : CanPort) : (s.setPort p c).locked = s.locked := by
  simp [State.setPort]

@[simp] theorem State.locked_returnCredit (s : State) (v : Nat) (from? : Option Nat) : (s.returnCredit v from?).locked = s.locked := by
  unfold State.returnCredit
  split <;> simp

@[simp] theorem State.locked_virtualOutputQueuesAndCredits (s : State) :
    (∀ v l, (s.setVoq v l).locked = s.locked) ∧ (∀ p from?, (s.enqueue p from?).locked = s.locked) := by
  simp [State.setVoq, State.notePeak, State.enqueue]

@[simp] theorem State.locked_dropQueued (s : State) (drop : VPkt → Bool) : (s.dropQueued drop).1.locked = s.locked := by
  unfold State.dropQueued
  refine locked_foldl_get Prod.fst _ _ fun b q _ => ?_
  dsimp only
  split
  · rfl
  · simp

@[simp] theorem State.locked_routeDrop (s : State) : s.routeDrop.locked = s.locked := by
  simp [State.routeDrop]

@[simp] theorem State.locked_sendingControlPackets (s : State) :
    (∀ p b, (s.queueCtl p b).locked = s.locked) ∧ (∀ p k, (s.sendNumbered p k).locked = s.locked) ∧
    (∀ p, (s.sendHelloNow p).locked = s.locked) ∧ (∀ c, (s.sendCast c).locked = s.locked) := by
  simp [State.queueCtl, State.sendNumbered, State.sendHelloNow, State.sendCast]

@[simp] theorem State.locked_portState (s : State) :
    (∀ p, (s.clearLink p).locked = s.locked) ∧ (∀ p st, (s.portTo p st).locked = s.locked) ∧
    (∀ p, (s.portFail p).locked = s.locked) ∧ s.forgetLead.locked = s.locked := by
  simp [State.clearLink, State.portTo, State.portFail, State.forgetLead]

/-! ## Cascade -/

@[simp] theorem State.locked_lanesOfPort (s : State) :
    (∀ p f, (s.mapLanes p f).locked = s.locked) ∧ (∀ n l, (s.setCanLane n l).locked = s.locked) ∧
    (∀ n hdr payload, (s.canBlock n hdr payload).locked = s.locked) ∧ (∀ n, (s.canCdrLock n).locked = s.locked) ∧
    (∀ p, (s.portStart p).locked = s.locked) ∧ (∀ p, (s.portPower p).locked = s.locked) := by
  simp [State.noteLocked, State.mapLanes, State.setCanLane, State.canBlock, State.canCdrLock, State.portStart, State.portPower]

/-! ## Frame -/

@[simp] theorem State.locked_flagFrame (s : State) (f k : Nat) : (s.flagFrame f k).locked = s.locked := by
  simp [State.flagFrame]

@[simp] theorem State.locked_trigger (s : State) (src tag : Nat) : (s.trigger src tag).locked = s.locked := by
  simp [State.trigger]

/-! ## Front -/

@[simp] theorem State.locked_setInput (s : State) (i : Nat) (x : FrontIn) : (s.setInput i x).locked = s.locked := by
  simp [State.setInput]

@[simp] theorem State.locked_noteSat (s : State) (b : Bool) : (s.noteSat b).locked = s.locked := by
  simp [State.noteSat]

@[simp] theorem State.locked_chainSample (s : State) (g i k : Nat) (x : Option Int) (frozen : Bool) :
    (s.chainSample g i k x frozen).locked = s.locked := by
  unfold State.chainSample
  cases x <;> dsimp only <;> split <;> simp

@[simp] theorem State.locked_ncoApply (s : State) (k : Nat) : (s.ncoApply k).locked = s.locked := by
  simp [State.ncoApply]

@[simp] theorem State.locked_ncoDue (s : State) (k : Nat) : (s.ncoDue k).locked = s.locked := by
  unfold State.ncoDue
  split <;> simp

@[simp] theorem State.locked_ncoArm (s : State) : s.ncoArm.locked = s.locked := by
  simp [State.ncoArm]

@[simp] theorem State.locked_resampleInput (s : State) (g n i : Nat) : (s.resampleInput g n i).locked = s.locked := by
  simp [State.resampleInput]

@[simp] theorem State.locked_positionPolynomials (s : State) :
    (∀ f, (s.polyChange f).locked = s.locked) ∧ (∀ v, (s.polyCommit v).locked = s.locked) := by
  simp [State.polyChange, State.polyCommit]

@[simp] theorem State.locked_resampleAll (s : State) (n : Nat) : (s.resampleAll n).locked = s.locked := by
  simp [State.resampleAll]

@[simp] theorem State.locked_coefficientBanksAndSwaps (s : State) :
    (∀ write v, (s.coefAccess write v).locked = s.locked) ∧ (∀ v, (s.swapCmd v).locked = s.locked) := by
  simp [State.coefAccess, State.swapCmd]

@[simp] theorem State.locked_thresholdEvents (s : State) :
    (∀ i e, (s.flagWindow i e).locked = s.locked) ∧ (∀ e, (s.pushEvent e).locked = s.locked) := by
  simp [State.flagWindow, State.pushEvent]

@[simp] theorem State.locked_decideEvent (s : State) (i : Nat) (e : ThrEvent) : (s.decideEvent i e).locked = s.locked := by
  unfold State.decideEvent
  split <;> simp

@[simp] theorem State.locked_eventEntry (s : State) (i : Nat) (e : ThrEvent) : (s.eventEntry i e).locked = s.locked := by
  simp [State.eventEntry]

@[simp] theorem keepsLock_execBankSwapDone (g : Nat) (s : State) : KeepsLock s (execBankSwapDone g s) := by
  unfold execBankSwapDone
  split <;> simp

@[simp] theorem keepsLock_execThresholdEvent (i : Nat) (s : State) : KeepsLock s (execThresholdEvent i s) := by
  unfold execThresholdEvent
  dsimp only
  split <;> simp

@[simp] theorem keepsLock_frontCommands (s : State) :
    (∀ t, KeepsLock s (execNcoArm t s)) ∧ (∀ k, KeepsLock s (execNcoPhaseReset k s)) ∧
    (∀ f, KeepsLock s (execPolyPageChange f s)) ∧ (∀ f, KeepsLock s (execPolyExpired f s)) ∧
    (∀ v t, KeepsLock s (execPolyCommit v t s)) ∧ (∀ n, KeepsLock s (execResamplerOutput n s)) ∧
    (∀ v, KeepsLock s (execBankSwapCmd v s)) := by
  simp [execNcoArm, execNcoPhaseReset, execPolyPageChange, execPolyExpired, execPolyCommit, execResamplerOutput, execBankSwapCmd]

/-! ## Ingest -/

@[simp] theorem State.locked_setLane (s : State) (n : Nat) (l : IngLane) : (s.setLane n l).locked = s.locked := by
  simp [State.setLane]

@[simp] theorem State.locked_sendLane (s : State) (n kind : Nat) (body : List Byte) : (s.sendLane n kind body).locked = s.locked := by
  unfold State.sendLane
  extract_lets l
  split
  rename_i p h s1 hp
  have h1 : s1.locked = s.locked := by
    split at hp
    · split at hp <;> (injection hp with _ hs; rw [← hs]); simp
    · injection hp with _ hs
      rw [← hs]; simp
  simp [h1]

@[simp] theorem State.locked_laneControl (s : State) (n : Nat) (b : List Byte) : (s.laneControl n b).locked = s.locked := by
  unfold State.laneControl
  dsimp only
  split
  · simp
  · split <;> simp

@[simp] theorem State.locked_laneData (s : State) (n : Nat) (b : List Byte) : (s.laneData n b).locked = s.locked := by
  unfold State.laneData
  split <;> simp

@[simp] theorem State.locked_lanes (s : State) :
    (∀ n, (s.lockGained n).locked = s.locked) ∧ (∀ n, (s.lockLost n).locked = s.locked) ∧
    (∀ n valid, (s.huntHeader n valid).locked = s.locked) ∧ (∀ n valid, (s.lockedHeader n valid).locked = s.locked) := by
  simp [State.lockGained, State.lockLost, State.huntHeader, State.lockedHeader]

@[simp] theorem State.locked_laneBlock (s : State) (n hdr payload : Nat) : (s.laneBlock n hdr payload).locked = s.locked := by
  unfold State.laneBlock
  generalize s.descramble n payload = p
  obtain ⟨x, h⟩ := p
  simp

@[simp] theorem State.locked_readapt_to_laneCtrl (s : State) :
    (∀ n, (s.readapt n).locked = s.locked) ∧ (∀ n v, (s.laneCtrl n v).locked = s.locked) := by
  simp [State.readapt, State.adaptStop, State.lanePower, State.laneCtrl]

@[simp] theorem State.locked_groupsAndSampleFrames (s : State) :
    (∀ g x, (s.setGrp g x).locked = s.locked) ∧ (∀ g, (s.dcClear g).locked = s.locked) ∧
    (∀ g v, (s.groupCtrl g v).locked = s.locked) ∧ (∀ g l, (s.sampleFrame g l).locked = s.locked) ∧
    (∀ g, (s.forgetFrames g).locked = s.locked) := by
  simp [State.setGrp, State.dcClear, State.groupCtrl, State.sampleFrame, State.forgetFrames]

@[simp] theorem State.locked_releaseGroup (s : State) (k g : Nat) : (s.releaseGroup k g).locked = s.locked := by
  simp [State.releaseGroup]

@[simp] theorem State.locked_release (s : State) (k : Nat) : (s.release k).locked = s.locked := by
  simp [State.release]

@[simp] theorem keepsLock_execLaneCdrLock (n t : Nat) (s : State) : KeepsLock s (execLaneCdrLock n t s) := by
  unfold execLaneCdrLock
  split <;> simp

@[simp] theorem keepsLock_execLaneBlockRx (n hdr payload : Nat) (s : State) : KeepsLock s (execLaneBlockRx n hdr payload s) := by
  unfold execLaneBlockRx
  split <;> simp

@[simp] theorem keepsLock_execLockGained (n : Nat) (s : State) : KeepsLock s (execLockGained n s) := by
  unfold execLockGained
  split <;> simp

@[simp] theorem keepsLock_execLockLoss (n : Nat) (s : State) : KeepsLock s (execLockLoss n s) := by
  unfold execLockLoss
  split <;> simp

@[simp] theorem keepsLock_execAdaptationDone (n peak t : Nat) (s : State) : KeepsLock s (execAdaptationDone n peak t s) := by
  unfold execAdaptationDone
  split <;> simp

@[simp] theorem keepsLock_ingestCommands (s : State) :
    (∀ n, KeepsLock s (execReadapt n s)) ∧ (∀ n v, KeepsLock s (execLanePowerWrite n v s)) ∧
    (∀ g v, KeepsLock s (execGroupEnable g v s)) ∧ (∀ g, KeepsLock s (execDcClear g s)) ∧
    (∀ g t lanes, KeepsLock s (execSampleFrameRx g t lanes s)) ∧ (∀ k, KeepsLock s (execSampleRelease k s)) ∧
    (∀ g te t, KeepsLock s (execEpochMessageTx g te t s)) ∧ (∀ g t, KeepsLock s (execAckMessageTx g t s)) := by
  simp [execReadapt, execLanePowerWrite, execGroupEnable, execDcClear, execSampleFrameRx, execSampleRelease, execEpochMessageTx,
    execAckMessageTx]

/-! ## Channel -/

@[simp] theorem State.locked_spectrumOf (s : State) (i m : Nat) : (s.spectrumOf i m).2.locked = s.locked := by
  simp [State.spectrumOf]

@[simp] theorem State.locked_takeCell (s : State) (c m0 : Nat) : (s.takeCell c m0).locked = s.locked := by
  simp [State.takeCell]

@[simp] theorem State.locked_fillChannel (s : State) (m c owner : Nat) (samples : List Byte) :
    (s.fillChannel m c owner samples).locked = s.locked := by
  unfold State.fillChannel
  dsimp only
  split <;> simp

@[simp] theorem State.locked_scaleChange (s : State) (f : Nat) : (s.scaleChange f).locked = s.locked := by
  unfold State.scaleChange
  split <;> simp

@[simp] theorem State.locked_banksPagesAndSpectra (s : State) :
    s.windowSwap.locked = s.locked ∧ (∀ f, (s.fringeChange f).locked = s.locked) := by
  simp [State.windowSwap, State.fringeChange]

@[simp] theorem State.locked_spectrum (s : State) (m : Nat) : (s.spectrum m).locked = s.locked := by
  unfold State.spectrum
  dsimp only
  have hspec : ∀ t : State, ∀ l : List Nat, (l.foldl (fun (a : List (List (List Byte)) × State) i =>
    (a.1 ++ [(a.2.spectrumOf i m).1], (a.2.spectrumOf i m).2)) ([], t)).2.locked = t.locked :=
    fun t l => locked_foldl_get Prod.snd l _ fun b i _ => by simp
  simp [hspec]

@[simp] theorem State.locked_fringeCommit_to_scaleAccess (s : State) :
    (∀ v, (s.fringeCommit v).locked = s.locked) ∧ (∀ v, (s.scaleCommit v).locked = s.locked) ∧ s.windowCmd.locked = s.locked ∧
    (∀ write v, (s.windowAccess write v).locked = s.locked) ∧ (∀ write v, (s.scaleAccess write v).locked = s.locked) := by
  simp [State.fringeCommit, State.scaleCommit, State.windowCmd, State.windowAccess, State.scaleAccess]

@[simp] theorem keepsLock_channelCommands (s : State) :
    (∀ m, KeepsLock s (execWindowSwap m s)) ∧ (∀ f, KeepsLock s (execFringePageChange f s)) ∧
    (∀ f, KeepsLock s (execFringeExpired f s)) ∧ (∀ f, KeepsLock s (execScaleBankChange f s)) ∧
    (∀ m, KeepsLock s (execSpectrumComplete m s)) ∧ (∀ v t, KeepsLock s (execFringeCommit v t s)) ∧
    (∀ v t, KeepsLock s (execScaleCommit v t s)) ∧ (∀ t, KeepsLock s (execWindowSwapCmd t s)) := by
  simp [execWindowSwap, execFringePageChange, execFringeExpired, execScaleBankChange, execSpectrumComplete, execFringeCommit,
    execScaleCommit, execWindowSwapCmd]

/-! ## Dram -/

@[simp] theorem State.locked_setDram (s : State) (d : Dram) : (s.setDram d).locked = s.locked := by
  simp [State.setDram]

@[simp] theorem State.locked_rowsAndActivations (s : State) :
    (∀ c, (s.bufferCmd c).locked = s.locked) ∧ (∀ bank, (s.refreshMgmt bank).locked = s.locked) ∧
    (∀ r bank row hint, (s.openRow r bank row hint).locked = s.locked) ∧ (∀ r a hint, (s.touch r a hint).locked = s.locked) := by
  simp [State.bufferCmd, State.refreshMgmt, State.manageFirst, State.openRow, State.touchRow, State.touch]

@[simp] theorem State.locked_checkedBursts (s : State) :
    (∀ a r half misdir, (s.latchUE a r half misdir).locked = s.locked) ∧ (∀ a r, (s.misdirect a r).locked = s.locked) ∧
    (∀ e, (s.setErrs e).locked = s.locked) := by
  simp [State.latchUE, State.misdirect, State.setErrs]

@[simp] theorem State.locked_checkHalf (s : State) (a r half : Nat) : (s.checkHalf a r half).2.locked = s.locked := by
  unfold State.checkHalf
  dsimp only
  split <;> simp

@[simp] theorem State.locked_setTags_to_checkBurst (s : State) :
    (∀ a p, (s.setTags a p).locked = s.locked) ∧ (∀ a, (s.correctTag a).locked = s.locked) ∧
    (∀ a r, (s.checkBurst a r).2.locked = s.locked) := by
  simp [State.setTags, State.renewTags, State.correctTag, State.checkBurst]

@[simp] theorem State.locked_dramReadHint (s : State) (r a n hint : Nat) : (s.dramReadHint r a n hint).2.2.locked = s.locked := by
  unfold State.dramReadHint
  exact locked_foldl_get Prod.snd _ _ fun b k _ => by simp

@[simp] theorem State.locked_afterRead (r : List Byte × List Nat × State) : (State.afterRead r).locked = r.2.2.locked := by
  rw [State.afterRead]

@[simp] theorem State.locked_afterWrite (r : Bool × State) : (State.afterWrite r).locked = r.2.locked := by
  rw [State.afterWrite]

@[simp] theorem State.locked_dramRead_to_writeBurst (s : State) :
    (∀ r a n, (s.dramRead r a n).2.2.locked = s.locked) ∧ (∀ a r be data, (s.writeBurst a r be data).2.locked = s.locked) := by
  simp [State.dramRead, State.mergeHalf, State.writeHalf, State.writeBurst]

@[simp] theorem State.locked_dramWriteBe (s : State) (r a be : Nat) (l : List Byte) (hint : Nat) :
    (s.dramWriteBe r a be l hint).2.locked = s.locked := by
  unfold State.dramWriteBe
  exact locked_foldl_get Prod.snd _ _ fun b k _ => by simp

@[simp] theorem State.locked_dramWrite (s : State) (r a : Nat) (l : List Byte) : (s.dramWrite r a l).2.locked = s.locked := by
  simp [State.dramWrite]

@[simp] theorem State.locked_clearDram (s : State) (a n : Nat) : (s.clearDram a n).locked = s.locked := by
  simp [State.clearDram]

@[simp] theorem State.locked_queuesClassesPanic (s : State) :
    s.panicCount.locked = s.locked ∧ (∀ n, (s.rtFillUp n).locked = s.locked) ∧ (∀ q, (s.dramIssue q).locked = s.locked) := by
  simp [State.panicCount, State.rtDrain, State.rtFillUp, State.dramIssue]

@[simp] theorem State.locked_serveBank (s : State) (bank n : Nat) : (s.serveBank bank n).locked = s.locked := by
  induction n generalizing s with
  | zero => rfl
  | succ n ih =>
    unfold State.serveBank
    split
    · split
      · simp [ih]
      · rfl
    · rfl

@[simp] theorem State.locked_serveQueue_to_ageQueue (s : State) :
    s.serveQueue.locked = s.locked ∧ (∀ q, (s.dramRequest q).locked = s.locked) ∧ s.ageQueue.locked = s.locked := by
  simp [State.serveQueue, State.dramRequest, State.ageQueue]

@[simp] theorem State.locked_rhCross (s : State) (bank : Nat) : (s.rhCross bank).locked = s.locked := by
  unfold State.rhCross
  dsimp only
  split
  · simp
  · split <;> simp

@[simp] theorem State.locked_refreshBanks (s : State) (bank : Nat) : (s.refreshBanks bank).locked = s.locked := by
  simp [State.refreshBanks]

@[simp] theorem State.locked_replayCmd (s : State) (c : DramCmd) : (s.replayCmd c).locked = s.locked := by
  unfold State.replayCmd
  split <;> simp

@[simp] theorem State.locked_parityReplay (s : State) (ch sc n : Nat) : (s.parityReplay ch sc n).locked = s.locked := by
  simp [State.parityReplay]

@[simp] theorem State.locked_trainingEnableRetrainScrub (s : State) :
    (∀ keep, (s.dramZero keep).locked = s.locked) ∧ (∀ v, (s.dramEnable v).locked = s.locked) := by
  simp [State.dramZero, State.dramEnable]

@[simp] theorem State.locked_bootStaging (s : State) (kept : Nat → Bool) : (s.bootStaging kept).locked = s.locked := by
  unfold State.bootStaging
  dsimp only
  split
  · simp
  · split <;> simp

@[simp] theorem State.locked_dramTrained_to_ueAddrPop (s : State) :
    (∀ failed, (s.dramTrained failed).locked = s.locked) ∧ (∀ failed, (s.dramRetrain failed).locked = s.locked) ∧
    (s.ueAddrPop).2.locked = s.locked := by
  simp [State.dramTrained, State.dramRetrain, State.ueAddrPop]

@[simp] theorem keepsLock_execRowCloseTimer (bank t : Nat) (s : State) : KeepsLock s (execRowCloseTimer bank t s) := by
  unfold execRowCloseTimer
  dsimp only
  split <;> simp

@[simp] theorem keepsLock_execCaParityError (ch sc replayed : Nat) (again : Bool) (t : Nat) (s : State) :
    KeepsLock s (execCaParityError ch sc replayed again t s) := by
  simp [↓State.locked_ite, execCaParityError]

@[simp] theorem keepsLock_dramCommands (s : State) :
    (∀ req addr hint t, KeepsLock s (execDramRead req addr hint t s)) ∧
    (∀ req addr hint be t data, KeepsLock s (execDramWrite req addr hint be t data s)) ∧
    (∀ bank t, KeepsLock s (execDramRefresh bank t s)) ∧ (∀ bank, KeepsLock s (execRowHammerThreshold bank s)) ∧
    (∀ t, KeepsLock s (execRowHammerWindowEnd t s)) ∧ (∀ failed t, KeepsLock s (execDramRetrain failed t s)) ∧
    (∀ t, KeepsLock s (execPatrolScrub t s)) ∧ (∀ master, KeepsLock s (execUeAddrRead master s)) := by
  simp [execDramRead, execDramWrite, execDramRefresh, execRowHammerThreshold, execRowHammerWindowEnd, execDramRetrain, execPatrolScrub,
    execUeAddrRead]

/-! ## Outs -/

@[simp] theorem State.locked_setOuts (s : State) (o : Outs) : (s.setOuts o).locked = s.locked := by
  simp [State.setOuts]

@[simp] theorem State.locked_deal (s : State) (p : ProdPkt) : (s.deal p).locked = s.locked := by
  unfold State.deal
  split <;> simp

@[simp] theorem State.locked_takeSeq (s : State) (stream : Nat) : (s.takeSeq stream).2.locked = s.locked := by
  simp [State.takeSeq]

@[simp] theorem State.locked_product (s : State) (kind : Nat) (ext data : List Byte) (drop : Bool) :
    (s.product kind ext data drop).locked = s.locked := by
  simp [State.product]

@[simp] theorem State.locked_ports (s : State) :
    (∀ p was, (s.portMoved p was).locked = s.locked) ∧ (∀ p lock align fec, (s.portReport p lock align fec).locked = s.locked) ∧
    (∀ p v, (s.outPortCtrl p v).locked = s.locked) := by
  simp [State.portPcs, State.redeal, State.portMoved, State.portReport, State.outPortCtrl]

@[simp] theorem State.locked_streamWrite (s : State) (v : Nat) : (s.streamWrite v).locked = s.locked := by
  simp [State.streamWrite]

@[simp] theorem State.locked_endDump (s : State) (d : Dump) (trunc : Bool) : (s.endDump d trunc).locked = s.locked := by
  simp [State.endDump]

@[simp] theorem State.locked_dumpFormat (s : State) (v : Nat) (locked : Bool) : (s.dumpFormat v locked).locked = s.locked := by
  simp [State.dumpFormat]

@[simp] theorem keepsLock_execOutputPacketTx (p t : Nat) (s : State) : KeepsLock s (execOutputPacketTx p t s) := by
  unfold execOutputPacketTx
  dsimp only
  split <;> simp

@[simp] theorem keepsLock_execEventPacket (t : Nat) (s : State) : KeepsLock s (execEventPacket t s) := by
  unfold execEventPacket
  dsimp only
  split <;> simp

@[simp] theorem keepsLock_outsCommands (s : State) :
    (∀ p lock align fec, KeepsLock s (execOutputPortUp p lock align fec s)) ∧
    (∀ p lock align fec, KeepsLock s (execOutputPortDown p lock align fec s)) ∧
    (∀ p frames cor unc, KeepsLock s (execOutputRxDiscard p frames cor unc s)) ∧ (∀ v, KeepsLock s (execStreamEnable v s)) ∧
    (∀ v, KeepsLock s (execDumpFormatWrite v s)) := by
  simp [execOutputPortUp, execOutputPortDown, execOutputRxDiscard, execStreamEnable, execDumpFormatWrite]

/-! ## Ring -/

@[simp] theorem State.locked_setRing (s : State) (r : Ring) : (s.setRing r).locked = s.locked := by
  simp [State.setRing]

@[simp] theorem State.locked_layout (s : State) :
    (∀ req slot idx, (s.readMap req slot idx).locked = s.locked) ∧ (∀ slot idx, (s.setMapBit slot idx).locked = s.locked) := by
  simp [State.readMap, State.setMapBit]

@[simp] theorem State.locked_ringLate (s : State) : s.ringLate.locked = s.locked := by
  simp [State.ringLate]

@[simp] theorem State.locked_storeCell (s : State) (p : Packet) (payload : List Byte) : (s.storeCell p payload).locked = s.locked := by
  unfold State.storeCell
  dsimp only
  split
  · simp
  · split <;> simp

@[simp] theorem State.locked_placeFrame (s : State) (b n : Nat) : (s.placeFrame b n).locked = s.locked := by
  simp [State.placeFrame]

@[simp] theorem State.locked_assignSlot (s : State) (b : Nat) (prev : Option Nat) : (s.assignSlot b prev).locked = s.locked := by
  unfold State.assignSlot
  split <;> simp

@[simp] theorem State.locked_readCell (s : State) (req slot idx : Nat) : (s.readCell req slot idx).2.2.locked = s.locked := by
  unfold State.readCell
  dsimp only
  split
  · rfl
  · split
    · split <;> simp
    · simp

@[simp] theorem State.locked_writing (s : State) :
    (∀ n f, (s.closeFrame n f).locked = s.locked) ∧ (∀ b closed, (s.dropStale b closed).locked = s.locked) := by
  simp [State.closeFrame, State.dropStale]

@[simp] theorem State.locked_postCapture (s : State) (event cap reason : Nat) (noRec : Bool) (bell : Nat) :
    (s.postCapture event cap reason noRec bell).locked = s.locked := by
  simp [State.postCapture]

@[simp] theorem State.locked_refuseCapture (s : State) (reason cap : Nat) (noRec : Bool) (bell : Nat) :
    (s.refuseCapture reason cap noRec bell).locked = s.locked := by
  unfold State.refuseCapture
  split <;> simp

@[simp] theorem State.locked_handleTrigger (s : State) (tr : Trigger) (b pre post : Nat) :
    (s.handleTrigger tr b pre post).locked = s.locked := by
  unfold State.handleTrigger
  dsimp only
  split
  · simp
  · split <;> simp

@[simp] theorem State.locked_captureTrigger (s : State) (tr : Trigger) : (s.captureTrigger tr).locked = s.locked := by
  unfold State.captureTrigger
  split
  · simp
  · split
    · split <;> simp
    · split <;> simp

@[simp] theorem State.locked_captureTriggers (s : State) :
    s.hostTrig.locked = s.locked ∧ (∀ v, (s.releaseRequest v).locked = s.locked) := by
  simp [State.hostTrig, State.releaseRequest]

@[simp] theorem State.locked_endReadout (s : State) (r : CapRec) (n event : Nat) : (s.endReadout r n event).locked = s.locked := by
  simp [State.endReadout]

@[simp] theorem State.locked_abortReadout (s : State) : s.abortReadout.locked = s.locked := by
  unfold State.abortReadout
  split
  · split <;> simp
  · rfl

@[simp] theorem State.locked_finishReadout (s : State) (n : Nat) : (s.finishReadout n).locked = s.locked := by
  unfold State.finishReadout
  split <;> simp

@[simp] theorem State.locked_startReadout (s : State) (n : Nat) : (s.startReadout n).locked = s.locked := by
  unfold State.startReadout
  split <;> simp

@[simp] theorem State.locked_takeCells (s : State) (slot n i : Nat) : (s.takeCells slot n i).2.2.locked = s.locked := by
  induction n generalizing s i with
  | zero => rfl
  | succ n ih =>
    unfold State.takeCells
    split
    · simp [ih]
    · rfl

@[simp] theorem State.locked_capturePacket (s : State) : s.capturePacket.locked = s.locked := by
  unfold State.capturePacket
  split
  · split <;> simp
  · rfl

@[simp] theorem State.locked_releaseAt (s : State) (b n : Nat) : (s.releaseAt b n).locked = s.locked := by
  unfold State.releaseAt
  split
  · extract_lets x s1 s2
    have h2 : s2.locked = s.locked := by
      unfold s2
      split <;> simp [s1]
    split
    · split
      · exact h2
      · simp [h2]
    · exact h2
  · rfl

@[simp] theorem State.locked_readCmd (s : State) (v : Nat) : (s.readCmd v).locked = s.locked := by
  simp [State.readCmd]

@[simp] theorem State.locked_freezeRec (s : State) (at_ n : Nat) (r : CapRec) : (s.freezeRec at_ n r).locked = s.locked := by
  simp [State.freezeRec]

@[simp] theorem State.locked_captureBell (s : State) (b : Nat) : (s.captureBell b).locked = s.locked := by
  unfold State.captureBell
  refine (State.locked_each _ _ fun t n => ?_).trans (by simp)
  split <;> simp

@[simp] theorem keepsLock_execRingCellStore (voq t : Nat) (s : State) : KeepsLock s (execRingCellStore voq t s) := by
  unfold execRingCellStore
  dsimp only
  split
  · split
    · exact .doneIf rfl (by simp [↓State.locked_ite])
    · simp
  · simp

@[simp] theorem keepsLock_execRingFrameClose (t : Nat) (s : State) : KeepsLock s (execRingFrameClose t s) := by
  unfold execRingFrameClose
  dsimp only
  split
  · refine .doneIf rfl ?_
    split <;> simp
  · simp

@[simp] theorem keepsLock_execCaptureTrigger (t : Nat) (s : State) : KeepsLock s (execCaptureTrigger t s) := by
  unfold execCaptureTrigger
  dsimp only
  split <;> simp

@[simp] theorem keepsLock_execReadoutDone (t : Nat) (s : State) : KeepsLock s (execReadoutDone t s) := by
  unfold execReadoutDone
  dsimp only
  split <;> simp

@[simp] theorem keepsLock_ringCommands (s : State) :
    (∀ t, KeepsLock s (execHostTrigger t s)) ∧ (∀ v, KeepsLock s (execCaptureReleaseRequest v s)) ∧
    (∀ v t, KeepsLock s (execReadoutStart v t s)) ∧ (∀ t, KeepsLock s (execReadoutAbort t s)) ∧
    (∀ t, KeepsLock s (execCapturePacket t s)) := by
  simp [execHostTrigger, execCaptureReleaseRequest, execReadoutStart, execReadoutAbort, execCapturePacket]

/-! ## Corr -/

@[simp] theorem State.locked_corr (s : State) :
    (∀ c, (s.setCorr c).locked = s.locked) ∧ (∀ d x, (s.setDie d x).locked = s.locked) := by
  simp [State.setCorr, State.setDie]

@[simp] theorem locked_gainWords (n a : Nat) (r : List Byte × List Nat × State) : (gainWords n a r).2.locked = r.2.2.locked := by
  simp [gainWords]

@[simp] theorem State.locked_storeChecked (s : State) (a : Nat) (l : List Byte) : (s.storeChecked a l).locked = s.locked := by
  simp [State.storeChecked]

@[simp] theorem State.locked_loadGroup (s : State) (d k b slot g : Nat) : (s.loadGroup d k b slot g).locked = s.locked := by
  unfold State.loadGroup
  refine (State.locked_foldl _ _ fun t j => by simp).trans ?_
  exact locked_foldl_get Prod.snd _ _ fun b p _ => by simp

@[simp] theorem State.locked_loadBlock (s : State) (d k b f : Nat) : (s.loadBlock d k b f).locked = s.locked := by
  unfold State.loadBlock
  split <;> simp

@[simp] theorem State.locked_windowErrors (s : State) (d k b : Nat) : (s.windowErrors d k b).locked = s.locked := by
  simp [State.windowErrors]

@[simp] theorem State.locked_startTile (s : State) (d : Nat) : (s.startTile d).locked = s.locked := by
  simp [State.startTile]

@[simp] theorem State.locked_endTile (s : State) (d : Nat) : (s.endTile d).locked = s.locked := by
  simp [State.endTile]

@[simp] theorem locked_correctionWord (r : List Byte × List Nat × State) : (correctionWord r).2.locked = r.2.2.locked := by
  simp [correctionWord]

@[simp] theorem State.locked_correction (s : State) (c n : Nat) : (s.correction c n).2.locked = s.locked := by
  simp [State.correction]

@[simp] theorem State.locked_fetchGains (s : State) (c : Nat) : (s.fetchGains c).2.locked = s.locked := by
  simp [State.fetchGains]

@[simp] theorem State.locked_cutDump (s : State) (q : Nat) : (s.cutDump q).locked = s.locked := by
  unfold State.cutDump
  split <;> simp

@[simp] theorem State.locked_beginHalf (s : State) : s.beginHalf.locked = s.locked := by
  unfold State.beginHalf
  split <;> simp

@[simp] theorem State.locked_dumpBufferAndDumpConversion (s : State) :
    (∀ rec r, (s.feedRecord rec r).locked = s.locked) ∧ (∀ k, (s.countPoison k).locked = s.locked) := by
  simp [State.feedRecord, State.countPoison]

@[simp] theorem State.locked_takeRecord (s : State) (rec old : Nat) : (s.takeRecord rec old).locked = s.locked := by
  -- the reads behind a name that cannot unfold
  obtain ⟨correction, hread⟩ : ∃ f, f = State.correction := ⟨_, rfl⟩
  have hcorr : ∀ t c n, (correction t c n).2.locked = t.locked := hread ▸ State.locked_correction
  unfold State.takeRecord
  rw [← hread]
  split
  · extract_lets s0 c p
    have h0 : s0.locked = s.locked := s.locked_beginHalf
    split
    rename_i corr s1 hp
    have h1 : s1.locked = s.locked := by
      split at hp
      · obtain ⟨-, rfl⟩ := Prod.mk.inj hp
        exact (hcorr ..).trans ((hcorr ..).trans h0)
      · obtain ⟨-, rfl⟩ := Prod.mk.inj hp
        exact h0
    split
    extract_lets s2 s3 x s4
    have h2 : s2.locked = s.locked := (State.locked_dramWrite ..).trans h1
    have h3 : s3.locked = s.locked := by
      unfold s3
      split <;> simp [h2]
    have h4 : s4.locked = s.locked := by
      unfold s4
      split <;> simp [x, h3]
    split <;> simp [h4]
  · rfl

@[simp] theorem State.locked_writeHalfRec (s : State) (rec v : Nat) : (s.writeHalfRec rec v).locked = s.locked := by
  simp [State.writeHalfRec]

@[simp] theorem State.locked_replaceRead (rec v : Nat) (r : List Byte × List Nat × State) :
    (State.replaceRead rec v r).locked = r.2.2.locked := by
  simp [State.replaceRead]

@[simp] theorem State.locked_addRead (rec : Nat) (re im : Int) (n : Nat) (r : List Byte × List Nat × State) :
    (State.addRead rec re im n r).locked = r.2.2.locked := by
  simp [State.addRead]

@[simp] theorem State.locked_addSkips (s : State) (d k : Nat) : (s.addSkips d k).locked = s.locked := by
  unfold State.addSkips
  split <;> simp

@[simp] theorem State.locked_retireSum_to_skipTile (s : State) :
    (∀ rec re im n, (s.retireSum rec re im n).locked = s.locked) ∧ (∀ c t, (s.skipTile c t).locked = s.locked) := by
  simp [State.replaceRecord, State.addRecord, State.retireSum, State.skipTile]

@[simp] theorem State.locked_skipTiles (s : State) (d : Nat) (l : List (Nat × Nat)) : (s.skipTiles d l).locked = s.locked := by
  simp [State.skipTiles]

@[simp] theorem State.locked_frameShort (s : State) : s.frameShort.locked = s.locked := by
  have hskip : ∀ t : State, ∀ d ∈ List.range 6, ∀ k, (t.bump (BEL.SKIP d) k).locked = t.locked := fun t d hd k => by
    have hne : 0x48 + 4 * d ≠ 0x010010 := by have := List.mem_range.mp hd; omega
    exact t.locked_bump k hne
  have heach : ∀ k : Nat → Nat, (s.each (List.range 6) fun t d => if k d = 0 then t else t.bump (BEL.SKIP d) (k d)).locked = s.locked :=
    fun k => locked_foldl_get id _ _ fun t d hd => by
      show (if k d = 0 then t else t.bump (BEL.SKIP d) (k d)).locked = t.locked
      split
      · rfl
      · exact hskip t d hd _
  unfold State.frameShort
  dsimp only
  split
  · rfl
  · simp [heach]

@[simp] theorem State.locked_completeDump (s : State) : s.completeDump.locked = s.locked := by
  unfold State.completeDump
  split <;> simp

@[simp] theorem State.locked_overrun (s : State) :
    (∀ d, (s.cutTiles d).locked = s.locked) ∧ (∀ d, (s.overrunDie d).locked = s.locked) := by
  simp [State.cutTiles, State.overrunDie]

@[simp] theorem State.locked_bellsFramesRunsAndDumps (s : State) :
    (∀ d, (s.freshDie d).locked = s.locked) ∧ (∀ f, (s.runEvent f).1.locked = s.locked) := by
  simp [State.freshDie, State.runEvent]

@[simp] theorem State.locked_corrBell (s : State) (prev : Option Nat) : (s.corrBell prev).1.locked = s.locked := by
  unfold State.corrBell
  dsimp only
  split <;> simp

@[simp] theorem State.locked_latchDump (s : State) : s.latchDump.locked = s.locked := by
  unfold State.latchDump
  split <;> simp

@[simp] theorem keepsLock_execWindowBlockLoaded (die t : Nat) (s : State) : KeepsLock s (execWindowBlockLoaded die t s) := by
  unfold execWindowBlockLoaded
  dsimp only
  split <;> simp

@[simp] theorem keepsLock_execTileChannelEnd (die t : Nat) (s : State) : KeepsLock s (execTileChannelEnd die t s) := by
  unfold execTileChannelEnd
  dsimp only
  split <;> simp

@[simp] theorem keepsLock_execPartialSumRetire (die : Nat) (intact : Bool) (t : Nat) (s : State) :
    KeepsLock s (execPartialSumRetire die intact t s) := by
  unfold execPartialSumRetire
  dsimp only
  split
  · refine .doneIf rfl ?_
    split
    · split <;> simp
    · simp
  · simp

@[simp] theorem keepsLock_corrCommands (s : State) :
    (∀ die t, KeepsLock s (execWindowLoadStart die t s)) ∧ (∀ die t, KeepsLock s (execTileChannelStart die t s)) ∧
    (∀ t, KeepsLock s (execStallOverrun t s)) ∧ (∀ master, KeepsLock s (execDseqRead master s)) := by
  simp [execWindowLoadStart, execTileChannelStart, execStallOverrun, execDseqRead]

/-! ## Aisle -/

@[simp] theorem State.locked_aisle (s : State) :
    (∀ a, (s.setAisle a).locked = s.locked) ∧ s.sampleBeams.locked = s.locked := by
  simp [State.setAisle, State.sampleBeams]

@[simp] theorem State.locked_directoriesAndContexts (s : State) :
    s.showDirectory.locked = s.locked ∧ (∀ v, (s.contextCommit v).locked = s.locked) := by
  simp [State.showDirectory, State.contextCommit]

@[simp] theorem State.locked_contextBell (s : State) (f : Nat) : (s.contextBell f).locked = s.locked := by
  unfold State.contextBell
  dsimp only
  split <;> simp

@[simp] theorem State.locked_beamAdd (s : State) (v : Nat) : (s.beamAdd v).locked = s.locked := by
  unfold State.beamAdd
  simp [↓State.locked_ite]

@[simp] theorem State.locked_gainBank (s : State) :
    (∀ v, (s.gainCommit v).locked = s.locked) ∧ (∀ bank, (s.gainBank bank).locked = s.locked) := by
  simp [State.gainCommit, State.gainBank]

@[simp] theorem State.locked_gainBell (s : State) : s.gainBell.locked = s.locked := by
  unfold State.gainBell
  split <;> simp

@[simp] theorem State.locked_startPass (s : State) (d k g : Nat) : (s.startPass d k g).locked = s.locked := by
  simp [State.startPass]

@[simp] theorem State.locked_queueBeam (s : State) (b chan formed : Nat) (cut : Bool) (v : List (Option (Int × Int))) :
    (s.queueBeam b chan formed cut v).locked = s.locked := by
  simp [State.queueBeam]

@[simp] theorem State.locked_formGroup (s : State) (b h : Nat) : (s.formGroup b h).locked = s.locked := by
  simp [State.formGroup]

@[simp] theorem State.locked_formIfReady (s : State) (b h : Nat) : (s.formIfReady b h).locked = s.locked := by
  simp [State.formIfReady]

@[simp] theorem State.locked_finishPass (s : State) (d k g formed : Nat) (cut : Bool) :
    (s.finishPass d k g formed cut).locked = s.locked := by
  simp [State.finishPass]

@[simp] theorem State.locked_cutPasses (s : State) (sel : Nat → Nat → Bool) : (s.cutPasses sel).locked = s.locked := by
  simp [State.cutPasses]

@[simp] theorem State.locked_aisleBell (s : State) (prev : Option Nat) : (s.aisleBell prev).locked = s.locked := by
  unfold State.aisleBell
  split <;> simp

@[simp] theorem keepsLock_execAislePassStart (die t : Nat) (s : State) : KeepsLock s (execAislePassStart die t s) := by
  unfold execAislePassStart
  dsimp only
  split <;> simp

@[simp] theorem keepsLock_execAislePassEnd (die t : Nat) (s : State) : KeepsLock s (execAislePassEnd die t s) := by
  unfold execAislePassEnd
  dsimp only
  split <;> simp

@[simp] theorem keepsLock_aisleCommands (s : State) :
    (∀ v t, KeepsLock s (execContextCommit v t s)) ∧ (∀ v, KeepsLock s (execBeamAdd v s)) ∧
    (∀ v, KeepsLock s (execGainCommit v s)) := by
  simp [execContextCommit, execBeamAdd, execGainCommit]

/-! ## Svc -/

@[simp] theorem State.locked_setSvcOut (s : State) (p : Nat) (x : SvcOut) : (s.setSvcOut p x).locked = s.locked := by
  simp [State.setSvcOut]

@[simp] theorem State.locked_svcBegin (s : State) (p u : Nat) (frame : List Byte) : (s.svcBegin p u frame).locked = s.locked := by
  simp [State.svcBegin]

@[simp] theorem State.locked_svcLeave (s : State) (p : Nat) (l : List (List Byte)) : (s.svcLeave p l).locked = s.locked := by
  induction l generalizing s with
  | nil => exact s.locked_setSvcOut ..
  | cons f l ih =>
    unfold State.svcLeave
    dsimp only
    split <;> simp [ih]

@[simp] theorem State.locked_egress (s : State) :
    (∀ p, (s.svcDrain p).locked = s.locked) ∧ (∀ p frame, (s.svcSend p frame).locked = s.locked) ∧
    (∀ port frame, (s.svcForward port frame).locked = s.locked) ∧
    (∀ port frame tx, (s.svcForwardEvent port frame tx).locked = s.locked) := by
  simp [State.svcDrain, State.svcSend, State.svcDrop, State.svcForward, State.svcForwardEvent]

/-! ## Crown -/

@[simp] theorem State.locked_publishWatch (s : State) (f seq w : Nat) : (s.publishWatch f seq w).1.locked = s.locked := by
  unfold State.publishWatch
  extract_lets wide away sums cands l part fire rec_ a s1 s2 s3
  have h1 : s1.locked = s.locked := State.locked_dramWrite ..
  have h2 : s2.locked = s.locked := by
    unfold s2
    split
    · simp [h1]
    · exact h1
  exact (State.locked_when _ _ (State.locked_product ..)).trans h2

@[simp] theorem State.locked_formRest (s : State) : s.formRest.locked = s.locked := by
  simp [State.formRest]

@[simp] theorem State.locked_crown (s : State) :
    (∀ c, (s.setCrown c).locked = s.locked) ∧ (∀ f, (s.queueDetected f).locked = s.locked) := by
  simp [State.setCrown, State.queueDetected]

@[simp] theorem State.locked_crownPublish (s : State) (f : Nat) : (s.crownPublish f).locked = s.locked := by
  unfold State.crownPublish
  extract_lets s0 seq r
  have hr : r.1.locked = s.locked := by
    unfold r
    refine List.foldlRecOn (motive := fun z : State × Nat × Bool × Bool => z.1.locked = s.locked) _ _ ?_ ?_
    · simp [s0]
    · intro z hz w _
      simp [hz]
  clear_value r
  obtain ⟨s1, hits, fire, part⟩ := r
  have h1 : s1.locked = s.locked := hr
  simp [h1]

@[simp] theorem State.locked_canopyWideWatches (s : State) :
    (∀ f w, (s.sendPartials f w).locked = s.locked) ∧ (∀ pl, (s.takePartial pl).locked = s.locked) ∧
    s.canopyRank.locked = s.locked ∧ s.crownBell.locked = s.locked := by
  simp [State.sendPartials, State.takePartial, State.canopyRank, State.crownBell]

@[simp] theorem keepsLock_execCrownPublish (t : Nat) (s : State) : KeepsLock s (execCrownPublish t s) := by
  unfold execCrownPublish
  dsimp only
  split <;> simp

@[simp] theorem keepsLock_execCrownPartialTx (t : Nat) (s : State) : KeepsLock s (execCrownPartialTx t s) := by
  unfold execCrownPartialTx
  dsimp only
  split <;> simp

@[simp] theorem keepsLock_crownCommands (s : State) :
    (∀ port frame _room t, KeepsLock s (execCrownPartialRx port frame _room t s)) ∧ (∀ t, KeepsLock s (execCrownCanopyRank t s)) := by
  simp [execCrownPartialRx, execCrownCanopyRank]

/-! ## Clerk -/

@[simp] theorem State.locked_clerk (s : State) :
    (∀ n c, (s.setCore n c).locked = s.locked) ∧ (∀ n code, (s.stopCore n code).locked = s.locked) ∧
    (∀ n, (s.tryHalt n).locked = s.locked) ∧ (∀ n keys, (s.eccCorrected n keys).locked = s.locked) ∧
    (∀ n e, (s.clerkApply n e).locked = s.locked) := by
  simp [State.setCore, State.stopCore, State.tryHalt, State.eccCorrected, State.clerkApply]

@[simp] theorem State.locked_clerkStep (s : State) (n dc : Nat) (want : ClerkOp → Nat → Bool) :
    (s.clerkStep n dc want).locked = s.locked := by
  unfold State.clerkStep
  dsimp only
  generalize hu : (if s.works 16 25 = true then s.setCore n ((s.core n).advance dc) else s) = u
  have h : u.locked = s.locked := by
    rw [← hu]
    simp
  rw [← h]
  split
  · split
    · simp
    · split <;> simp
  · rfl

@[simp] theorem State.locked_mdataWrite (s : State) (v : Nat) : (s.mdataWrite v).locked = s.locked := by
  unfold State.mdataWrite
  split <;> simp

@[simp] theorem State.locked_doorbell_to_coreCtrl (s : State) :
    (∀ core v, (s.doorbell core v).locked = s.locked) ∧ (s.mdataRead).2.locked = s.locked ∧
    (∀ n, (s.startCore n).locked = s.locked) ∧ (∀ n v, (s.coreCtrl n v).locked = s.locked) := by
  simp [State.doorbell, State.mdataRead, State.startCore, State.coreCtrl]

@[simp] theorem keepsLock_execInterruptEntry (core : Nat) (s : State) : KeepsLock s (execInterruptEntry core s) := by
  unfold execInterruptEntry
  dsimp only
  split <;> simp

@[simp] theorem keepsLock_clerkCommands (s : State) :
    (∀ core dc, KeepsLock s (execNop core dc s)) ∧ (∀ core dc, KeepsLock s (execBr core dc s)) ∧
    (∀ core dc, KeepsLock s (execBrcc core dc s)) ∧ (∀ core dc, KeepsLock s (execCall core dc s)) ∧
    (∀ core dc, KeepsLock s (execRet core dc s)) ∧ (∀ core dc, KeepsLock s (execRti core dc s)) ∧
    (∀ core dc, KeepsLock s (execLoop core dc s)) ∧ (∀ core dc, KeepsLock s (execWait core dc s)) ∧
    (∀ core dc, KeepsLock s (execHalt core dc s)) ∧ (∀ core dc, KeepsLock s (execFence core dc s)) ∧
    (∀ core dc, KeepsLock s (execMpy core dc s)) ∧ (∀ core dc, KeepsLock s (execMac core dc s)) ∧
    (∀ core dc, KeepsLock s (execMsu core dc s)) ∧ (∀ core dc, KeepsLock s (execDualFetch core dc s)) ∧
    (∀ core dc, KeepsLock s (execAccAdd core dc s)) ∧ (∀ core dc, KeepsLock s (execAccSub core dc s)) ∧
    (∀ core dc, KeepsLock s (execNeg core dc s)) ∧ (∀ core dc, KeepsLock s (execAbs core dc s)) ∧
    (∀ core dc, KeepsLock s (execClr core dc s)) ∧ (∀ core dc, KeepsLock s (execAsl core dc s)) ∧
    (∀ core dc, KeepsLock s (execAsr core dc s)) ∧ (∀ core dc, KeepsLock s (execCmp core dc s)) ∧
    (∀ core dc, KeepsLock s (execAddd core dc s)) ∧ (∀ core dc, KeepsLock s (execDivs core dc s)) ∧
    (∀ core dc, KeepsLock s (execAnd core dc s)) ∧ (∀ core dc, KeepsLock s (execOr core dc s)) ∧
    (∀ core dc, KeepsLock s (execXor core dc s)) ∧ (∀ core dc, KeepsLock s (execAdd16 core dc s)) ∧
    (∀ core dc, KeepsLock s (execSub16 core dc s)) ∧ (∀ core dc, KeepsLock s (execMov core dc s)) ∧
    (∀ core dc, KeepsLock s (execLd core dc s)) ∧ (∀ core dc, KeepsLock s (execSt core dc s)) ∧
    (∀ core dc, KeepsLock s (execLd2 core dc s)) ∧ (∀ core dc, KeepsLock s (execSt2 core dc s)) ∧
    (∀ core dc, KeepsLock s (execLdi core dc s)) ∧ (∀ core dc, KeepsLock s (execFld core dc s)) ∧
    (∀ core dc, KeepsLock s (execFst core dc s)) ∧ (∀ core dc, KeepsLock s (execFsta core dc s)) ∧
    (∀ core dc, KeepsLock s (execJobqPop core dc s)) ∧ (∀ core dc, KeepsLock s (execJobDone core dc s)) ∧
    (∀ core, KeepsLock s (execCoreWake core s)) ∧ (∀ core dc, KeepsLock s (execTimerExpire core dc s)) ∧
    (∀ core v, KeepsLock s (execDoorbellWrite core v s)) ∧ (∀ core v, KeepsLock s (execCoreRun core v s)) ∧
    (∀ core v, KeepsLock s (execCoreHalt core v s)) ∧ (∀ v, KeepsLock s (execFlagsSet v s)) ∧
    (∀ v, KeepsLock s (execFlagsClr v s)) := by
  simp [execNop, execBr, execBrcc, execCall, execRet, execRti, execLoop, execWait, execHalt, execFence, execMpy, execMac, execMsu,
    execDualFetch, execAccAdd, execAccSub, execNeg, execAbs, execClr, execAsl, execAsr, execCmp, execAddd, execDivs, execAnd, execOr,
    execXor, execAdd16, execSub16, execMov, execLd, execSt, execLd2, execSt2, execLdi, execFld, execFst, execFsta, execJobqPop,
    execJobDone, execCoreWake, execTimerExpire, execDoorbellWrite, execCoreRun, execCoreHalt, execFlagsSet, execFlagsClr]

/-! ## Cal -/

@[simp] theorem State.locked_setCal (s : State) (c : CalEng) : (s.setCal c).locked = s.locked := by
  simp [State.setCal]

@[simp] theorem State.locked_aisleWord (s : State) (c : C32) : (s.aisleWord c).2.2.locked = s.locked := by
  unfold State.aisleWord
  dsimp only
  split <;> split <;> simp

@[simp] theorem State.locked_storeGains (s : State) (c : Nat) (z : Solve) : (s.storeGains c z).locked = s.locked := by
  unfold State.storeGains
  extract_lets n keep r
  have hr : r.2.2.2.2.locked = s.locked := by
    unfold r
    refine List.foldlRecOn (motive := fun p : List Byte × List Byte × List Byte × Nat × State => p.2.2.2.2.locked = s.locked)
      (List.range n) _ (by rfl) fun p hp i _ => ?_
    split
    extract_lets g st
    split
    · exact (State.locked_aisleWord ..).trans hp
    · exact hp
  clear_value r
  split
  rename_i gw dc gs clips s1
  have h1 : s1.locked = s.locked := hr
  extract_lets s2 s3 s4
  have h2 : s2.locked = s.locked := (State.locked_dramWrite ..).trans h1
  have h3 : s3.locked = s.locked := by
    unfold s3
    split <;> simp [h2]
  have h4 : s4.locked = s.locked := by
    unfold s4
    split <;> simp [h3]
  split <;> simp [h4]

@[simp] theorem State.locked_loadChannel (s : State) (c : Nat) : (s.loadChannel c).locked = s.locked := by
  simp [State.loadChannel]

@[simp] theorem State.locked_countStatus (s : State) (status : Nat) : (s.countStatus status).locked = s.locked := by
  unfold State.countStatus
  split <;> simp

@[simp] theorem State.locked_calProgress (s : State) : s.calProgress.locked = s.locked := by
  unfold State.calProgress
  dsimp only
  split <;> simp

@[simp] theorem State.locked_results (s : State) :
    (∀ c status iter nuse nweak moved rho delta, (s.writeChannelRecord c status iter nuse nweak moved rho delta).locked = s.locked) ∧
    s.endChannel.locked = s.locked := by
  simp [State.writeChannelRecord, State.swapBuffers, State.endChannel]

@[simp] theorem State.locked_windows (s : State) :
    (∀ q, (s.calStart q).locked = s.locked) ∧ s.calEnd.locked = s.locked ∧ s.calAbandon.locked = s.locked := by
  simp [State.copyMem, State.calStart, State.unfinishedRecord, State.swapDbank, State.calEnd, State.calAbandon]

@[simp] theorem State.locked_calBell (s : State) (regular : Bool) (feed : Option Nat) : (s.calBell regular feed).locked = s.locked := by
  unfold State.calBell
  dsimp only
  split <;> simp

@[simp] theorem keepsLock_execCalChannelEnd (t : Nat) (s : State) : KeepsLock s (execCalChannelEnd t s) := by
  simp [execCalChannelEnd]

/-! ## Matrix -/

@[simp] theorem State.locked_setMtx (s : State) (m : Matrix) : (s.setMtx m).locked = s.locked := by
  simp [State.setMtx]

@[simp] theorem State.locked_latchErr (s : State) (m a : Nat) (write : Bool) : (s.latchErr m a write).locked = s.locked := by
  unfold State.latchErr
  split <;> simp

@[simp] theorem State.locked_counting (s : State) :
    (∀ b code n, (s.countBytes b code n).locked = s.locked) ∧ (∀ m a n, (s.countTxn m a n).locked = s.locked) := by
  simp [State.countBytes, State.countTxn]

@[simp] theorem State.locked_errorResponses (s : State) :
    (∀ m a write, (s.errorTo m a write).locked = s.locked) ∧ (s.errAddrRead).2.locked = s.locked := by
  simp [State.errorTo, State.errAddrRead]

@[simp] theorem State.locked_tornWrite (s : State) (a be : Nat) (l : List Byte) : (s.tornWrite a be l).locked = s.locked := by
  induction l generalizing s a be with
  | nil => rfl
  | cons b l ih =>
    unfold State.tornWrite
    simp [ih]

@[simp] theorem State.locked_drainStart (s : State) (m : Nat) : (s.drainStart m).locked = s.locked := by
  unfold State.drainStart
  refine (State.locked_foldl _ _ fun t x => ?_).trans (by simp)
  split
  · split <;> simp
  · rfl

@[simp] theorem State.locked_outstandingPool (s : State) :
    (∀ l, (s.setOut l).locked = s.locked) ∧ (∀ m write a n be l waits, (s.holdTxn m write a n be l waits).locked = s.locked) ∧
    (∀ sel, (s.failOut sel).locked = s.locked) := by
  simp [State.setOut, State.noteFull, State.holdTxn, State.failOut]

@[simp] theorem State.locked_masterResets (s : State) (v : Nat) : (s.masterResets v).locked = s.locked := by
  simp [State.masterResets]

@[simp] theorem State.locked_pcieDown (s : State) : s.pcieDown.locked = s.locked := by
  simp [State.pcieDown]

@[simp] theorem keepsLock_execMasterDrained (m left t : Nat) (s : State) : KeepsLock s (execMasterDrained m left t s) := by
  unfold execMasterDrained
  exact .doneIf rfl (by simp [↓State.locked_ite])

@[simp] theorem keepsLock_execPcieLinkUp (speed width t : Nat) (s : State) : KeepsLock s (execPcieLinkUp speed width t s) := by
  simp [↓State.locked_ite, execPcieLinkUp]

@[simp] theorem keepsLock_execFunctionLevelReset (left t : Nat) (s : State) : KeepsLock s (execFunctionLevelReset left t s) := by
  unfold execFunctionLevelReset
  exact .doneIf rfl (by simp [↓State.locked_ite])

@[simp] theorem keepsLock_matrixCommands (s : State) :
    (∀ master, KeepsLock s (execErrAddrRead master s)) ∧ (∀ v t, KeepsLock s (execMasterReset v t s)) ∧
    (∀ v t, KeepsLock s (execMasterRelease v t s)) ∧ (∀ t, KeepsLock s (execPcieLinkDown t s)) := by
  simp [execErrAddrRead, execMasterReset, execMasterRelease, execPcieLinkDown]

/-! ## Melier -/

@[simp] theorem State.locked_setMel (s : State) (m : MelEng) : (s.setMel m).locked = s.locked := by
  simp [State.setMel]

@[simp] theorem State.locked_states (s : State) :
    (∀ st, (s.setMelState st).locked = s.locked) ∧ (∀ r, (s.follow r).locked = s.locked) ∧ (s.holdFreq).2.locked = s.locked ∧
    s.unlock.locked = s.locked ∧ s.startHoldTimer.locked = s.locked := by
  simp [State.setMelState, State.follow, State.meanFreq, State.holdFreq, State.unlock, State.startHoldTimer]

@[simp] theorem State.locked_holdOver (s : State) : s.holdOver.locked = s.locked := by
  unfold State.holdOver
  dsimp only
  split <;> simp

@[simp] theorem State.locked_trimPairs (s : State) : s.trimPairs.locked = s.locked := by
  simp [State.trimPairs]

@[simp] theorem State.locked_onceQualified (s : State) (r : Nat) : (s.onceQualified r).locked = s.locked := by
  simp [State.onceQualified]

@[simp] theorem State.locked_disqualify (s : State) (r cause : Nat) : (s.disqualify r cause).locked = s.locked := by
  simp [State.disqualify]

@[simp] theorem State.locked_refreshRanks (s : State) : s.refreshRanks.locked = s.locked := by
  simp [State.refreshRanks]

@[simp] theorem State.locked_lockEntered (s : State) : s.lockEntered.locked = s.locked := by
  simp [State.lockEntered]

@[simp] theorem State.locked_refEnables (s : State) : s.refEnables.locked = s.locked := by
  simp [State.refEnables]

@[simp] theorem State.locked_esmcQl (s : State) (port : Nat) : (s.esmcQl port).2.locked = s.locked := by
  simp [State.esmcQl]

@[simp] theorem State.locked_selectRef (s : State) (r : Nat) : (s.selectRef r).locked = s.locked := by
  simp [State.selectRef]

@[simp] theorem State.locked_refEvaluate (s : State) : s.refEvaluate.locked = s.locked := by
  unfold State.refEvaluate
  split
  · rfl
  · split <;> simp

@[simp] theorem State.locked_settlePair (s : State) (i j : Nat) : (s.settlePair i j).locked = s.locked := by
  unfold State.settlePair
  dsimp only
  split
  · split <;> simp
  · simp

@[simp] theorem State.locked_trackRef (s : State) : s.trackRef.locked = s.locked := by
  simp [State.trackRef]

@[simp] theorem State.locked_lockAndHoldover (s : State) :
    s.forceHold.locked = s.locked ∧ s.outOfSpec.locked = s.locked := by
  simp [State.forceHold, State.outOfSpec]

@[simp] theorem State.locked_lossOfOscIn (s : State) :
    (∀ cycles, (s.holdFor cycles).locked = s.locked) ∧ s.holdGap.locked = s.locked ∧ s.oscStops.locked = s.locked ∧
    s.oscBack.locked = s.locked := by
  simp [State.holdFor, State.holdGap, State.oscStops, State.oscBack]

@[simp] theorem State.locked_lockstepPair (s : State) :
    s.passOutput.locked = s.locked ∧ s.swapFails.locked = s.locked ∧ s.coreFault.locked = s.locked ∧
    s.plannedSwap.locked = s.locked ∧ s.pairReset.locked = s.locked ∧ (∀ v, (s.melCtrl v).locked = s.locked) := by
  simp [State.passOutput, State.swapFails, State.coreFault, State.plannedSwap, State.melResync, State.pairReset, State.melCtrl]

@[simp] theorem keepsLock_execTodMessageRx (r : Nat) (msg : List Byte) (after t : Nat) (s : State) :
    KeepsLock s (execTodMessageRx r msg after t s) := by
  unfold execTodMessageRx
  refine .doneIf rfl ?_
  dsimp only
  split
  · split
    · split
      · exact (State.locked_refreshRanks _).trans (by rw [State.locked_setFld]; rfl; simp)
      · simp
    · simp
  · simp

@[simp] theorem keepsLock_execSwapMonitorEnd (mismatch : Bool) (t : Nat) (s : State) : KeepsLock s (execSwapMonitorEnd mismatch t s) := by
  unfold execSwapMonitorEnd
  split <;> simp

@[simp] theorem keepsLock_execMelierStartupDone (t : Nat) (s : State) : KeepsLock s (execMelierStartupDone t s) := by
  simp [↓State.locked_ite, execMelierStartupDone]

@[simp] theorem keepsLock_melierCommands (s : State) :
    (∀ port event ql t, KeepsLock s (execEsmcPduRx port event ql t s)) ∧ (∀ port t, KeepsLock s (execEsmcTimeout port t s)) ∧
    (∀ port t, KeepsLock s (execEsmcPduTx port t s)) ∧ (∀ r cause t, KeepsLock s (execRefDisqualify r cause t s)) ∧
    (∀ r t, KeepsLock s (execRefQualify r t s)) ∧ (∀ r t, KeepsLock s (execRefAvailable r t s)) ∧
    (∀ t, KeepsLock s (execRefSelectEval t s)) ∧ (∀ t, KeepsLock s (execSwitchSettled t s)) ∧
    (∀ foff toff t, KeepsLock s (execDisagreeCheck foff toff t s)) ∧ (∀ t, KeepsLock s (execDpllLock t s)) ∧
    (∀ t, KeepsLock s (execHoldoverExpired t s)) ∧ (∀ t, KeepsLock s (execOscLost t s)) ∧ (∀ t, KeepsLock s (execTakeover t s)) ∧
    (∀ t, KeepsLock s (execMelierMismatch t s)) ∧ (∀ t, KeepsLock s (execTimeCoreFault t s)) ∧
    (∀ t, KeepsLock s (execResyncDone t s)) ∧ (∀ v t, KeepsLock s (execForceHoldover v t s)) ∧
    (∀ v t, KeepsLock s (execPlannedSwap v t s)) ∧ (∀ v t, KeepsLock s (execResync v t s)) ∧
    (∀ v t, KeepsLock s (execPairRst v t s)) := by
  simp [execEsmcPduRx, execEsmcTimeout, execEsmcPduTx, execRefDisqualify, execRefQualify, execRefAvailable, execRefSelectEval,
    execSwitchSettled, execDisagreeCheck, execDpllLock, execHoldoverExpired, execOscLost, execTakeover, execMelierMismatch,
    execTimeCoreFault, execResyncDone, execForceHoldover, execPlannedSwap, execResync, execPairRst]

/-! ## Pitch -/

@[simp] theorem State.locked_pitch (s : State) :
    s.pitchRangeCheck.locked = s.locked ∧ (∀ p src st, (s.takePitch p src st).locked = s.locked) ∧ s.pitchCall.locked = s.locked := by
  simp [State.pitchRangeCheck, State.takePitch, State.pitchCall]

@[simp] theorem State.locked_pitchWordCounted (s : State) (low : Nat) : (s.pitchWordCounted low).locked = s.locked := by
  unfold State.pitchWordCounted
  dsimp only
  split
  · split
    · simp
    · split <;> simp
  · simp

@[simp] theorem State.locked_pitchRecall_to_pitchAssign (s : State) :
    s.pitchRecall.locked = s.locked ∧ (∀ v, (s.pitchAssign v).locked = s.locked) := by
  simp [State.pitchRecall, State.pitchAssign]

@[simp] theorem keepsLock_execPitchWordRx (w : PitchWord) (s : State) : KeepsLock s (execPitchWordRx w s) := by
  unfold execPitchWordRx
  dsimp only
  split
  · split <;> simp
  · simp

@[simp] theorem keepsLock_execAssignmentFrameRx (port : Nat) (frame : List Byte) (_room : Bool) (s : State) :
    KeepsLock s (execAssignmentFrameRx port frame _room s) := by
  unfold execAssignmentFrameRx
  dsimp only
  split
  · split
    · split <;> simp
    · simp
  · simp

@[simp] theorem keepsLock_pitchCommands (s : State) :
    (∀ t, KeepsLock s (execPitchWordTx t s)) ∧ (∀ t, KeepsLock s (execOrphan t s)) ∧ (∀ t, KeepsLock s (execPitchRecall t s)) ∧
    (∀ v, KeepsLock s (execPitchAssign v s)) := by
  simp [execPitchWordTx, execOrphan, execPitchRecall, execPitchAssign]

/-! ## Ptp -/

@[simp] theorem State.locked_setPtp (s : State) (p : PtpEng) : (s.setPtp p).locked = s.locked := by
  simp [State.setPtp]

@[simp] theorem State.locked_stationTime (s : State) :
    (∀ v, (s.loadTime v).locked = s.locked) ∧ (∀ v, (s.timeSet v).locked = s.locked) ∧ s.tsetCancel.locked = s.locked ∧
    (s.nowRead).2.locked = s.locked := by
  simp [State.loadTime, State.timeSet, State.tsetCancel, State.nowRead]

@[simp] theorem State.locked_stampPop (s : State) : (s.stampPop).2.locked = s.locked := by
  unfold State.stampPop
  split <;> simp

@[simp] theorem State.locked_stamps (s : State) :
    (∀ r, (s.ppsEdge r).locked = s.locked) ∧ (∀ src fall fr, (s.queueStamp src fall fr).locked = s.locked) := by
  simp [State.ppsEdge, State.queueStamp]

@[simp] theorem State.locked_transparentClock (s : State) :
    s.tcDisc.locked = s.locked ∧ s.tcUnmatched.locked = s.locked ∧
    (∀ port f o tx, (s.svcForwardPtp port f o tx).locked = s.locked) := by
  simp [State.tcDisc, State.tcUnmatched, State.svcForwardPtp]

@[simp] theorem State.locked_sendCorrected (s : State) (port : Nat) (f : List Byte) (l : PtpLoc) (add : Int) (tx : Nat) :
    (s.sendCorrected port f l add tx).locked = s.locked := by
  unfold State.sendCorrected
  split <;> simp

@[simp] theorem State.locked_tcMessage (s : State) (port : Nat) (f : List Byte) (l : PtpLoc) (tx : Nat) :
    (s.tcMessage port f l tx).locked = s.locked := by
  unfold State.tcMessage
  dsimp only
  split
  · simp
  · split <;> simp
  all_goals simp

@[simp] theorem State.locked_ptpMessage (s : State) (port : Nat) (f : List Byte) (tx : Nat) :
    (s.ptpMessage port f tx).locked = s.locked := by
  unfold State.ptpMessage
  split <;> simp

@[simp] theorem State.locked_slaveFaulty (s : State) : s.slaveFaulty.locked = s.locked := by
  simp [State.slaveFaulty]

@[simp] theorem State.locked_slaveRx (s : State) (port : Nat) (f : List Byte) (ok : Bool) : (s.slaveRx port f ok).locked = s.locked := by
  simp [State.slaveRx]

@[simp] theorem State.locked_setPd (s : State) (port : Nat) (p : PdPort) : (s.setPd port p).locked = s.locked := by
  simp [State.setPd]

@[simp] theorem State.locked_pdValue (s : State) (port : Nat) (twice : Int) : (s.pdValue port twice).locked = s.locked := by
  unfold State.pdValue
  simp [↓State.locked_ite]

@[simp] theorem State.locked_showMaster (s : State) : s.showMaster.locked = s.locked := by
  unfold State.showMaster
  split <;> simp

@[simp] theorem State.locked_slave (s : State) :
    (∀ st, (s.slaveTo st).locked = s.locked) ∧ (∀ st, (s.slaveListen st).locked = s.locked) ∧
    (∀ v, (s.slaveCtrl v).locked = s.locked) ∧ s.masterLost.locked = s.locked := by
  simp [State.slaveTo, State.slaveListen, State.slaveCtrl, State.masterLost]

@[simp] theorem State.locked_selectMaster (s : State) : s.selectMaster.locked = s.locked := by
  unfold State.selectMaster
  dsimp only
  split <;> simp

@[simp] theorem State.locked_ptpSecond (s : State) (m : Int) : (s.ptpSecond m).locked = s.locked := by
  unfold State.ptpSecond
  split <;> simp

@[simp] theorem State.locked_svcDown (s : State) (port : Nat) : (s.svcDown port).locked = s.locked := by
  simp [State.svcDown]

@[simp] theorem State.locked_svcCtrl (s : State) (port v : Nat) : (s.svcCtrl port v).locked = s.locked := by
  simp [State.svcCtrl]

@[simp] theorem State.locked_slaveOffset (s : State) (seq : Nat) (origin stamp : Int) :
    (s.slaveOffset seq origin stamp).locked = s.locked := by
  simp [State.slaveOffset]

@[simp] theorem State.locked_inputDelays (s : State) :
    (∀ v, (s.cdCommit v).locked = s.locked) ∧ s.cdBell.locked = s.locked := by
  simp [State.cdCommit, State.cdBell]

@[simp] theorem keepsLock_execTwoStepEntryTimeout (t : Nat) (s : State) : KeepsLock s (execTwoStepEntryTimeout t s) := by
  unfold execTwoStepEntryTimeout
  dsimp only
  split <;> simp

@[simp] theorem keepsLock_execPdelayReqRx (port : Nat) (frame : List Byte) (tx t : Nat) (s : State) :
    KeepsLock s (execPdelayReqRx port frame tx t s) := by
  unfold execPdelayReqRx
  dsimp only
  split
  · exact .doneIf rfl (by simp [↓State.locked_ite])
  · simp

@[simp] theorem keepsLock_execPdelayRespRx (port : Nat) (frame : List Byte) (t : Nat) (s : State) :
    KeepsLock s (execPdelayRespRx port frame t s) := by
  unfold execPdelayRespRx
  dsimp only
  split
  · refine .doneIf rfl ?_
    split
    · simp
    · split <;> simp
  · simp

@[simp] theorem keepsLock_execAnnounceRx (frame : List Byte) (t : Nat) (s : State) : KeepsLock s (execAnnounceRx frame t s) := by
  unfold execAnnounceRx
  dsimp only
  split <;> simp

@[simp] theorem keepsLock_execAnnounceTimeout (t : Nat) (s : State) : KeepsLock s (execAnnounceTimeout t s) := by
  unfold execAnnounceTimeout
  dsimp only
  split <;> simp

@[simp] theorem keepsLock_execSyncRx (frame : List Byte) (t : Nat) (s : State) : KeepsLock s (execSyncRx frame t s) := by
  unfold execSyncRx
  dsimp only
  split
  · refine .doneIf rfl ?_
    split
    · simp
    · split <;> simp
    · rfl
  · simp

@[simp] theorem keepsLock_execDelayRespRx (frame : List Byte) (t : Nat) (s : State) : KeepsLock s (execDelayRespRx frame t s) := by
  unfold execDelayRespRx
  dsimp only
  split <;> simp

@[simp] theorem keepsLock_execSvcLinkUp (port t : Nat) (s : State) : KeepsLock s (execSvcLinkUp port t s) := by
  simp [↓State.locked_ite, execSvcLinkUp]

@[simp] theorem keepsLock_ptpCommands (s : State) :
    (∀ v t, KeepsLock s (execTimeSetCmd v t s)) ∧ (∀ master t, KeepsLock s (execNowRead master t s)) ∧
    (∀ src fall t, KeepsLock s (execStampEdge src fall t s)) ∧ (∀ master, KeepsLock s (execStampQueuePop master s)) ∧
    (∀ port frame _room tx t, KeepsLock s (execPtpMessageRx port frame _room tx t s)) ∧
    (∀ port t, KeepsLock s (execPdelayReqTx port t s)) ∧ (∀ port t, KeepsLock s (execPdFail port t s)) ∧
    (∀ v t, KeepsLock s (execSlaveEnable v t s)) ∧ (∀ t, KeepsLock s (execDelayReqTx t s)) ∧
    (∀ port t, KeepsLock s (execSvcLinkDown port t s)) ∧ (∀ t, KeepsLock s (execSlaveFaultRecover t s)) ∧
    (∀ v t, KeepsLock s (execInputDelayCommit v t s)) := by
  simp [execTimeSetCmd, execNowRead, execStampEdge, execStampQueuePop, execPtpMessageRx, execPdelayReqTx, execPdFail, execSlaveEnable,
    execDelayReqTx, execSvcLinkDown, execSlaveFaultRecover, execInputDelayCommit]

/-! ## Power -/

@[simp] theorem State.locked_setPwr (s : State) (p : Power) : (s.setPwr p).locked = s.locked := by
  simp [State.setPwr]

@[simp] theorem State.locked_domainsAndVotes (s : State) :
    (∀ st, (s.setPowerState st).locked = s.locked) ∧ (∀ d master v, (s.voteWrite d master v).locked = s.locked) := by
  simp [State.setPowerState, State.voteWrite]

@[simp] theorem State.locked_whatDomainLoses (s : State) :
    (∀ a n, (s.wipe a n).locked = s.locked) ∧ s.dramLose.locked = s.locked ∧ s.strapRegs.locked = s.locked := by
  simp [State.wipe, State.dramLose, State.strapRegs]

/-- The trunk loses its power, LOCKED does not: it is carried over (R399). -/
@[simp] theorem State.locked_trunkOff (s : State) : s.trunkOff.locked = s.locked := by
  unfold State.trunkOff
  dsimp only
  rw [State.locked_setReg _ _ (by decide), State.fld_locked]
  exact State.locked_setFlag_locked _ _

@[simp] theorem State.locked_powerUp (s : State) (d : Nat) : (s.powerUp d).locked = s.locked := by
  simp [State.powerUp]

@[simp] theorem State.locked_holdExit (s : State) : s.holdExit.locked = s.locked := by
  simp [State.holdExit]

@[simp] theorem State.locked_freeBank (s : State) (n : Nat) : (s.freeBank n).locked = s.locked := by
  unfold State.freeBank
  rw [State.locked_mk, State.regs_write, lockBit_regs]

@[simp] theorem State.locked_beginStep (s : State) (k : Nat) : (s.beginStep k).locked = s.locked := by
  unfold State.beginStep
  split <;> simp

@[simp] theorem State.locked_deepEntry (s : State) :
    (∀ v, (s.pwrCtrl v).locked = s.locked) ∧ s.saveBanks.locked = s.locked ∧ s.selfRefresh.locked = s.locked ∧
    s.lowPower.locked = s.locked ∧ (∀ cause, (s.wakeStart cause).locked = s.locked) := by
  simp [State.pwrCtrl, State.saveBanks, State.selfRefresh, State.lowPower, State.wakeStart]

@[simp] theorem State.locked_melRestart (s : State) (held : Option Int) : (s.melRestart held).locked = s.locked := by
  unfold State.melRestart
  dsimp only
  split <;> simp

@[simp] theorem State.locked_powerUpAndWake (s : State) :
    (∀ upset, (s.retentionCheck upset).locked = s.locked) ∧ s.restoreLanes.locked = s.locked ∧
    (∀ v, (s.retBadClear v).locked = s.locked) := by
  simp [State.retentionCheck, State.restoreLanes, State.retBadClear]

@[simp] theorem keepsLock_execThermalVoteRelease (d t : Nat) (s : State) : KeepsLock s (execThermalVoteRelease d t s) := by
  unfold execThermalVoteRelease
  dsimp only
  split <;> simp

@[simp] theorem keepsLock_execWakeEdge (t : Nat) (s : State) : KeepsLock s (execWakeEdge t s) := by
  unfold execWakeEdge
  refine .doneIf rfl ?_
  dsimp only
  split <;> simp

@[simp] theorem keepsLock_execPowerUpRetry (t : Nat) (s : State) : KeepsLock s (execPowerUpRetry t s) := by
  unfold execPowerUpRetry
  dsimp only
  split <;> simp

@[simp] theorem keepsLock_powerCommands (s : State) :
    (∀ d master v t, KeepsLock s (execVoteWrite d master v t s)) ∧ (∀ v t, KeepsLock s (execDeepEntryRequest v t s)) ∧
    (∀ v t, KeepsLock s (execRetentionBadClear v t s)) := by
  simp [execVoteWrite, execDeepEntryRequest, execRetentionBadClear]

/-! ## Fabric -/

@[simp] theorem State.locked_windowRead (s : State) (d a n : Nat) : (s.windowRead d a n).2.locked = s.locked := by
  simp [State.windowRead]

@[simp] theorem State.locked_memRead (s : State) (m a n hint : Nat) : (s.memRead m a n hint).2.locked = s.locked := by
  unfold State.memRead
  split
  · rfl
  · split <;> simp

@[simp] theorem State.locked_sramWrite (s : State) (a be : Nat) (l : List Byte) : (s.sramWrite a be l).locked = s.locked := by
  simp [State.sramWrite]

@[simp] theorem State.locked_memWrite (s : State) (m a be : Nat) (l : List Byte) (hint : Nat) :
    (s.memWrite m a be l hint).2.locked = s.locked := by
  unfold State.memWrite
  split
  · rfl
  · split <;> simp

@[simp] theorem State.locked_ownRead (s : State) (m a n : Nat) : (s.ownRead m a n).2.locked = s.locked := by
  unfold State.ownRead
  refine locked_foldl_get Prod.snd _ _ fun b c _ => ?_
  have hread := b.2.locked_memRead m c.1 c.2 0
  split <;> simp_all

@[simp] theorem State.locked_ownWrite (s : State) (m a : Nat) (l : List Byte) : (s.ownWrite m a l).locked = s.locked := by
  unfold State.ownWrite
  refine s.locked_each _ fun t c => ?_
  have hwrite := t.locked_memWrite m c.1 (2 ^ c.2 - 1) ((l.drop (c.1 - a)).take c.2) 0
  split <;> simp_all

@[simp] theorem State.locked_accessesThatUnitOfDeviceMakesItself (s : State) :
    (∀ a l, (s.ledgerStore a l).locked = s.locked) ∧ (∀ a n, (s.ledgerTouch a n).locked = s.locked) := by
  simp [State.ledgerStore, State.ledgerTouch]

@[simp] theorem State.locked_setPorter (s : State) (c : Nat) (p : Porter) : (s.setPorter c p).locked = s.locked := by
  simp [State.setPorter]

@[simp] theorem State.locked_porterStop (s : State) (c cause : Nat) : (s.porterStop c cause).locked = s.locked := by
  unfold State.porterStop
  split <;> simp

@[simp] theorem State.locked_porterLoad (s : State) (c a : Nat) (go : Bool) : (s.porterLoad c a go).locked = s.locked := by
  unfold State.porterLoad
  dsimp only
  split
  · simp
  · split <;> simp

@[simp] theorem State.locked_porterCtrl (s : State) (c v : Nat) : (s.porterCtrl c v).locked = s.locked := by
  simp [State.porterCtrl]

/-! ## Ledger -/

@[simp] theorem State.locked_ledger (s : State) :
    (∀ l, (s.setLed l).locked = s.locked) ∧ (∀ r x, (s.setRail r x).locked = s.locked) := by
  simp [State.setLed, State.setRail]

@[simp] theorem State.locked_pmbusTelemetry (s : State) :
    (∀ r v, (s.railCfg r v).locked = s.locked) ∧ (∀ x, (s.factorOf x).2.locked = s.locked) := by
  simp [State.railCfg, State.factorOf]

@[simp] theorem State.locked_readCoefs (s : State) : s.readCoefs.locked = s.locked := by
  simp [State.readCoefs]

@[simp] theorem State.locked_metering (s : State) :
    (∀ v, (s.ledCtrl v).locked = s.locked) ∧ (∀ active r e, (s.meterRail active r e).locked = s.locked) ∧
    s.meterEnd.locked = s.locked := by
  simp [State.ledCtrl, State.meterRail, State.meterEnd]

@[simp] theorem State.locked_ledgerClose (s : State) : s.ledgerClose.locked = s.locked := by
  unfold State.ledgerClose
  split <;> simp

@[simp] theorem State.locked_ledgerStart (s : State) : s.ledgerStart.locked = s.locked := by
  unfold State.ledgerStart
  dsimp only
  split <;> simp

@[simp] theorem State.locked_reports (s : State) :
    (∀ shed deferred, (s.dropEntries shed deferred).locked = s.locked) ∧ (∀ f, (s.ledgerBell f).locked = s.locked) := by
  simp [State.dropEntries, State.ledgerBell]

@[simp] theorem State.locked_slotEnds (s : State) :
    (∀ slot p, (s.brake slot p).locked = s.locked) ∧ (∀ active r e, (s.spendRail active r e).locked = s.locked) := by
  simp [State.brake, State.spendRail]

@[simp] theorem keepsLock_execLedgerPlan (t : Nat) (s : State) : KeepsLock s (execLedgerPlan t s) := by
  unfold execLedgerPlan
  dsimp only
  split
  · exact .doneIf rfl (by simp [↓State.locked_ite])
  · simp

@[simp] theorem keepsLock_execLedgerSlotEnd (rails : List Nat) (active : List Active) (t : Nat) (s : State) :
    KeepsLock s (execLedgerSlotEnd rails active t s) := by
  unfold execLedgerSlotEnd
  extract_lets s0
  split
  · refine .doneIf (by rfl) ?_
    extract_lets s1 x s2 s3
    have h2 : s2.locked = s0.locked := by simp [s2, x, s1]
    have h3 : s3.locked = s0.locked := by
      unfold s3
      split
      · split <;> simp [h2]
      · exact h2
    split <;> simp [h3]
  · simp [s0]

@[simp] theorem keepsLock_execLedgerReport (t : Nat) (s : State) : KeepsLock s (execLedgerReport t s) := by
  unfold execLedgerReport
  dsimp only
  split <;> simp

@[simp] theorem keepsLock_ledgerCommands (s : State) :
    (∀ rail raw valid t, KeepsLock s (execPmbusRead rail raw valid t s)) ∧
    (∀ rail t, KeepsLock s (execCorrectionUpdate rail t s)) ∧ (∀ rail t, KeepsLock s (execPmbLost rail t s)) ∧
    (∀ v t, KeepsLock s (execMeterRequest v t s)) := by
  simp [execPmbusRead, execCorrectionUpdate, execPmbLost, execMeterRequest]

/-! ## Image -/

@[simp] theorem State.locked_image (s : State) :
    (∀ c, (s.setCfg c).locked = s.locked) ∧ (∀ k, (s.setLd k).locked = s.locked) := by
  simp [State.setCfg, State.setLd]

@[simp] theorem State.locked_loadRes_to_bootFail (s : State) :
    (∀ result reason kind, (s.loadRes result reason kind).locked = s.locked) ∧
    (∀ reason kind, (s.refuseLoad reason kind).locked = s.locked) ∧ s.bootFail.locked = s.locked := by
  simp [State.loadRes, State.refuseLoad, State.bootFail]

@[simp] theorem State.locked_afterReject (s : State) (j : LoadJob) : (s.afterReject j).locked = s.locked := by
  unfold State.afterReject
  dsimp only
  split
  · simp
  · split <;> simp

@[simp] theorem State.locked_rejectLoad_to_rejectWake (s : State) :
    (∀ j reason, (s.rejectLoad j reason).locked = s.locked) ∧ (∀ j, (s.rejectWake j).locked = s.locked) := by
  simp [State.rejectLoad, State.rejectWake]

@[simp] theorem State.locked_clerkMemories (s : State) :
    (∀ n mem l, (s.loadLocal n mem l).locked = s.locked) ∧ (∀ base sel, (s.loadClerks base sel).locked = s.locked) := by
  simp [State.loadLocal, State.loadClerks]

@[simp] theorem State.locked_handOver (s : State) (n : Nat) : (s.handOver n).locked = s.locked := by
  unfold State.handOver
  split <;> simp

@[simp] theorem State.locked_stallDieAndClerkChanges (s : State) :
    (∀ c, (s.setChange c).locked = s.locked) ∧ (∀ st die takeover hold, (s.showPart st die takeover hold).locked = s.locked) ∧
    (∀ o n, (s.keepLayout o n).locked = s.locked) ∧ (∀ n, (s.reopenDie n).locked = s.locked) ∧
    (∀ c, (s.haltCores c).locked = s.locked) ∧ (∀ c, (s.restartCores c).locked = s.locked) := by
  simp [State.setChange, State.showPart, State.keepLayout, State.reopenDie, State.haltCores, State.restartCores]

@[simp] theorem State.locked_flashBootAndCastFrames (s : State) :
    (∀ v, (s.castCtrl v).locked = s.locked) ∧ (∀ pl, (s.castTake pl).locked = s.locked) := by
  simp [State.castCtrl, State.castTake]

@[simp] theorem keepsLock_execStallReloadFail (t : Nat) (s : State) : KeepsLock s (execStallReloadFail t s) := by
  unfold execStallReloadFail
  dsimp only
  split <;> simp

@[simp] theorem keepsLock_execFlashBootRead (t : Nat) (s : State) : KeepsLock s (execFlashBootRead t s) := by
  simp [↓State.locked_ite, execFlashBootRead]

@[simp] theorem keepsLock_execCastFrameTx (t : Nat) (s : State) : KeepsLock s (execCastFrameTx t s) := by
  unfold execCastFrameTx
  dsimp only
  split
  · exact .doneIf rfl (by simp [↓State.locked_ite])
  · simp

@[simp] theorem keepsLock_imageCommands (s : State) :
    (∀ v t, KeepsLock s (execCastSend v t s)) ∧ (∀ port frame _room t, KeepsLock s (execCastFrameRx port frame _room t s)) := by
  simp [execCastSend, execCastFrameRx]

/-! ## Engine -/

@[simp] theorem State.locked_leaveStopped (s : State) : s.leaveStopped.locked = s.locked := by
  simp [State.leaveStopped]

@[simp] theorem State.locked_engine (s : State) :
    (∀ b, (s.setBell b).locked = s.locked) ∧ (∀ st, (s.setBellState st).locked = s.locked) := by
  simp [State.setBell, State.setBellState]

@[simp] theorem State.locked_t0Write (s : State) (which v : Nat) : (s.t0Write which v).locked = s.locked := by
  unfold State.t0Write
  split
  · rfl
  · split <;> simp

@[simp] theorem State.locked_run (s : State) :
    s.waitLead.locked = s.locked ∧ s.startEngine.locked = s.locked := by
  simp [State.waitLead, State.startEngine]

@[simp] theorem State.locked_loadT0 (s : State) (w : BellWord) : (s.loadT0 w).locked = s.locked := by
  simp [State.loadT0]

@[simp] theorem State.locked_loopUpdate (s : State) (k : Int) (off : Int) : (s.loopUpdate k off).locked = s.locked := by
  simp [State.loopUpdate]

@[simp] theorem State.locked_bellWords (s : State) :
    (∀ off, (s.showOffset off).locked = s.locked) ∧ (∀ w inst, (s.adoptWord w inst).locked = s.locked) ∧
    (∀ k off, (s.matchWord k off).locked = s.locked) ∧ (∀ w k off, (s.stepWord w k off).locked = s.locked) ∧
    (∀ port w, (s.forwardWord port w).locked = s.locked) := by
  simp [State.showOffset, State.adoptWord, State.matchWord, State.stepWord, State.forwardWord]

@[simp] theorem keepsLock_execBellWordMissing (s : State) : KeepsLock s (execBellWordMissing s) := by
  unfold execBellWordMissing
  exact .doneIf rfl (by simp [↓State.locked_ite])

@[simp] theorem keepsLock_engineCommands (s : State) :
    (∀ which v, KeepsLock s (execT0Write which v s)) ∧ (∀ t, KeepsLock s (execBellLost t s)) ∧ (∀ t, KeepsLock s (execNoLead t s)) := by
  simp [execT0Write, execBellLost, execNoLead]

/-! ## Canopy -/

@[simp] theorem State.locked_setCan (s : State) (c : Canopy) : (s.setCan c).locked = s.locked := by
  simp [State.setCan]

@[simp] theorem State.locked_portCtrl (s : State) (p v : Nat) : (s.portCtrl p v).locked = s.locked := by
  simp [State.portCtrl]

@[simp] theorem State.locked_numberingAcknowledgementAndReplay (s : State) :
    (∀ p, (s.replayRound p).locked = s.locked) ∧ (∀ p tr, (s.takeAck p tr).locked = s.locked) ∧
    (∀ p, (s.crcFailed p).locked = s.locked) ∧ (∀ p k tr crcOk, (s.linkAccept p k tr crcOk).1.locked = s.locked) := by
  simp [State.replayRound, State.takeAck, State.takeCredits, State.linkNak, State.crcFailed, State.linkAccept]

@[simp] theorem State.locked_linkRx (s : State) (p : Nat) (k : Packet) (tr : Trailer) (crcOk : Bool) {f : State → State}
    (h : ∀ t, (f t).locked = t.locked) : (s.linkRx p k tr crcOk f).locked = s.locked := by
  simp [State.linkRx, h]

theorem State.locked_linkRx_of (s : State) (p : Nat) (k : Packet) (tr : Trailer) (crcOk : Bool) {f : State → State}
    (hf : ∀ t, t.locked = true → (f t).locked = true) (hl : s.locked = true) : (s.linkRx p k tr crcOk f).locked = true := by
  have hacc : (s.linkAccept p k tr crcOk).1.locked = true := by simp [hl]
  unfold State.linkRx
  dsimp only
  split
  · exact hf _ hacc
  · exact hacc

@[simp] theorem State.locked_takeData (s : State) (p : Nat) (k : Packet) : (s.takeData p k).locked = s.locked := by
  unfold State.takeData
  split <;> simp

@[simp] theorem State.locked_sendData (s : State) (p v : Nat) : (s.sendData p v).locked = s.locked := by
  unfold State.sendData
  split <;> simp

@[simp] theorem State.locked_transmit (s : State) (p : Nat) : (s.transmit p).locked = s.locked := by
  unfold State.transmit
  dsimp only
  split
  · simp
  · split
    · rfl
    · split
      · split <;> simp
      · split <;> simp

@[simp] theorem State.locked_hello (s : State) :
    (∀ p, (s.portToUp p).locked = s.locked) ∧ (∀ p, (s.portMismatch p).locked = s.locked) := by
  simp [State.portToUp, State.portMismatch]

@[simp] theorem State.locked_takeCast (s : State) (p : Nat) (c : Cast) {f : State → State}
    (h : ∀ t, (f t).locked = t.locked) : (s.takeCast p c f).locked = s.locked := by
  unfold State.takeCast
  dsimp only
  split
  · simp
  · exact (h _).trans (by simp)

@[simp] theorem State.locked_probes (s : State) :
    (∀ p, (s.showDelay p).locked = s.locked) ∧ (∀ p t1 t2 t3 t4, (s.takeExchange p t1 t2 t3 t4).locked = s.locked) := by
  simp [State.showDelay, State.takeExchange]

@[simp] theorem State.locked_parkClear (s : State) : s.parkClear.locked = s.locked := by
  unfold State.parkClear
  dsimp only
  split <;> simp

@[simp] theorem State.locked_broadcasts (s : State) :
    (∀ pitch j, (s.noteJoin pitch j).locked = s.locked) ∧ (∀ pitch p, (s.notePark pitch p).locked = s.locked) := by
  simp [State.noteJoin, State.notePark]

@[simp] theorem State.locked_joinBell (s : State) (k : Nat) : (s.joinBell k).locked = s.locked := by
  unfold State.joinBell
  dsimp only
  split <;> simp

@[simp] theorem keepsLock_execCreditPacketRx (port : Nat) (p : Packet) (tr : Trailer) (crcOk : Bool) (t : Nat) (s : State) :
    KeepsLock s (execCreditPacketRx port p tr crcOk t s) := by
  unfold execCreditPacketRx
  split <;> simp

@[simp] theorem keepsLock_execDataPacketRx (port : Nat) (p : Packet) (tr : Trailer) (crcOk : Bool) (t : Nat) (s : State) :
    KeepsLock s (execDataPacketRx port p tr crcOk t s) := by
  unfold execDataPacketRx
  split <;> simp

@[simp] theorem keepsLock_execVoqStarve (port voq t : Nat) (s : State) : KeepsLock s (execVoqStarve port voq t s) := by
  unfold execVoqStarve
  dsimp only
  split <;> simp

@[simp] theorem keepsLock_execProbeRx (port : Nat) (p : Packet) (tr : Trailer) (crcOk : Bool) (rx t : Nat) (s : State) :
    KeepsLock s (execProbeRx port p tr crcOk rx t s) := by
  unfold execProbeRx
  split <;> simp

@[simp] theorem keepsLock_execProbeReplyRx (port : Nat) (p : Packet) (tr : Trailer) (crcOk : Bool) (rx t : Nat) (s : State) :
    KeepsLock s (execProbeReplyRx port p tr crcOk rx t s) := by
  unfold execProbeReplyRx
  split <;> simp

@[simp] theorem keepsLock_execCaptureCastRx (port : Nat) (p : Packet) (tr : Trailer) (crcOk : Bool) (t : Nat) (s : State) :
    KeepsLock s (execCaptureCastRx port p tr crcOk t s) := by
  unfold execCaptureCastRx
  dsimp only
  split
  · split <;> simp
  · simp

@[simp] theorem keepsLock_execJoinCastRx (port : Nat) (p : Packet) (tr : Trailer) (crcOk : Bool) (t : Nat) (s : State) :
    KeepsLock s (execJoinCastRx port p tr crcOk t s) := by
  unfold execJoinCastRx
  dsimp only
  split
  · split <;> simp
  · simp

@[simp] theorem keepsLock_execParkCastRx (port : Nat) (p : Packet) (tr : Trailer) (crcOk : Bool) (t : Nat) (s : State) :
    KeepsLock s (execParkCastRx port p tr crcOk t s) := by
  unfold execParkCastRx
  dsimp only
  split
  · split <;> simp
  · simp

@[simp] theorem keepsLock_canopyCommands (s : State) :
    (∀ port v, KeepsLock s (execCanPortPowerWrite port v s)) ∧ (∀ port, KeepsLock s (execPortEnable port s)) ∧
    (∀ port, KeepsLock s (execPortDisable port s)) ∧ (∀ port t, KeepsLock s (execPortTrained port t s)) ∧
    (∀ port, KeepsLock s (execHelloTx port s)) ∧ (∀ port lanes, KeepsLock s (execPortDown port lanes s)) ∧
    (∀ port t, KeepsLock s (execHelloTimeout port t s)) ∧
    (∀ port p tr crcOk t, KeepsLock s (execUnknownKindPacketRx port p tr crcOk t s)) ∧
    (∀ port t, KeepsLock s (execReplayTimeout port t s)) ∧ (∀ port, KeepsLock s (execReplayLimit port s)) ∧
    (∀ port, KeepsLock s (execAckTx port s)) ∧ (∀ port t, KeepsLock s (execPortTransmit port t s)) ∧
    (∀ port t, KeepsLock s (execProbeTx port t s)) := by
  simp [execCanPortPowerWrite, execPortEnable, execPortDisable, execPortTrained, execHelloTx, execPortDown, execHelloTimeout,
    execUnknownKindPacketRx, execReplayTimeout, execReplayLimit, execAckTx, execPortTransmit, execProbeTx]

/-! ## Security -/

@[simp] theorem State.locked_security (s : State) :
    (∀ x, (s.setSec x).locked = s.locked) ∧ (∀ st, (s.setSecState st).locked = s.locked) := by
  simp [State.setSec, State.setSecState]

@[simp] theorem State.locked_secBoot (s : State) (waking : Bool) : (s.secBoot waking).locked = s.locked := by
  unfold State.secBoot
  split <;> simp

@[simp] theorem State.locked_nextSign (s : State) : s.nextSign.locked = s.locked := by
  unfold State.nextSign
  split
  · rfl
  · split <;> simp

@[simp] theorem State.locked_flashStore (s : State) (a : Nat) (l : List Byte) : (s.flashStore a l).locked = s.locked := by
  simp [State.flashStore]

@[simp] theorem State.locked_sign (s : State) (msg : List Byte) : (s.sign msg).2.locked = s.locked := by
  simp [State.sign]

@[simp] theorem State.locked_askSign (s : State) (q : Nat) : (s.askSign q).locked = s.locked := by
  simp [State.askSign]

@[simp] theorem State.locked_commands (s : State) :
    (∀ result reason code, (s.cmdResult result reason code).locked = s.locked) ∧
    (∀ code reason, (s.cmdRefuse code reason).locked = s.locked) ∧ (∀ code, (s.cmdDone code).locked = s.locked) ∧
    s.cmdProvision.locked = s.locked := by
  simp [State.cmdResult, State.cmdRefuse, State.cmdDone, State.cmdProvision]

@[simp] theorem State.locked_withBuf (s : State) (code n : Nat) {f : State → List Byte → State}
    (h : ∀ t l, (f t l).locked = t.locked) : (s.withBuf code n f).locked = s.locked := by
  have hread := s.locked_ownRead 8 s.bufAddr n
  unfold State.withBuf
  split <;> rename_i hr <;> rw [hr] at hread <;> simpa [h] using hread

@[simp] theorem State.locked_cmdSetRoot_to_cmdEpoch (s : State) :
    s.cmdSetRoot.locked = s.locked ∧ (∀ slot, (s.cmdSetKey slot).locked = s.locked) ∧ (∀ len, (s.cmdCert len).locked = s.locked) ∧
    s.cmdSeal.locked = s.locked ∧ s.cmdAttest.locked = s.locked ∧ (∀ v, (s.cmdEpoch v).locked = s.locked) := by
  simp [State.cmdSetRoot, State.cmdSetKey, State.cmdCert, State.cmdSeal, State.cmdAttest, State.cmdEpoch]

@[simp] theorem State.locked_violationSensors (s : State) :
    (∀ k, (s.logViolation k).locked = s.locked) ∧ s.alarmPin.locked = s.locked ∧ (∀ v, (s.policyWrite v).locked = s.locked) := by
  simp [State.logViolation, State.alarmPin, State.policyWrite]

@[simp] theorem keepsLock_execSealComplete (ok : Bool) (t : Nat) (s : State) : KeepsLock s (execSealComplete ok t s) := by
  simp [↓State.locked_ite, execSealComplete]

@[simp] theorem keepsLock_execSignatureComplete (t : Nat) (s : State) : KeepsLock s (execSignatureComplete t s) := by
  unfold execSignatureComplete
  extract_lets s0
  split
  · extract_lets body
    split
    rename_i sig s1 hp
    have h1 : s1.locked = s.locked := by
      have := State.locked_sign s0 body
      rwa [hp] at this
    simp [h1]
  · split
    rename_i sig s1 hp
    have h1 : s1.locked = s.locked := by
      have := State.locked_sign s0 s0.sec.report
      rwa [hp] at this
    extract_lets x s2 s3
    have h3 : s3.locked = s.locked := by
      unfold s3 s2
      split <;> simp [h1]
    simp [h3]
  · simp [s0]

@[simp] theorem keepsLock_securityCommands (s : State) :
    (∀ sensors t, KeepsLock s (execViolationSensorClear sensors t s)) ∧ (∀ v t, KeepsLock s (execPolicyWrite v t s)) := by
  simp [execViolationSensorClear, execPolicyWrite]

/-! ## OutTx -/

@[simp] theorem State.locked_dumpPacket (s : State) (d : Dump) : (s.dumpPacket d).locked = s.locked := by
  simp [State.dumpPacket]

@[simp] theorem State.locked_manifests (s : State) :
    (∀ m rest, (s.manifestPacket m rest).locked = s.locked) ∧ (∀ m rest sig, (s.signaturePacket m rest sig).locked = s.locked) := by
  simp [State.manifestPacket, State.signaturePacket]

@[simp] theorem State.locked_beamdPacket (s : State) (d : DetFrame) (rest : List DetFrame) :
    (s.beamdPacket d rest).locked = s.locked := by
  unfold State.beamdPacket
  split <;> simp

@[simp] theorem State.locked_beamvPacket (s : State) (b : BeamPkt) (rest : List BeamPkt) : (s.beamvPacket b rest).locked = s.locked := by
  simp [State.beamvPacket]

@[simp] theorem keepsLock_execDumpPacket (t : Nat) (s : State) : KeepsLock s (execDumpPacket t s) := by
  unfold execDumpPacket
  dsimp only
  split <;> simp

@[simp] theorem keepsLock_execManifestPacket (t : Nat) (s : State) : KeepsLock s (execManifestPacket t s) := by
  unfold execManifestPacket
  dsimp only
  split <;> simp

@[simp] theorem keepsLock_execManifestSignaturePacket (t : Nat) (s : State) : KeepsLock s (execManifestSignaturePacket t s) := by
  unfold execManifestSignaturePacket
  dsimp only
  split
  · refine .doneIf rfl ?_
    split <;> simp
  · simp

@[simp] theorem keepsLock_execBeamvPacket (t : Nat) (s : State) : KeepsLock s (execBeamvPacket t s) := by
  unfold execBeamvPacket
  dsimp only
  split <;> simp

@[simp] theorem keepsLock_execBeamdPacket (t : Nat) (s : State) : KeepsLock s (execBeamdPacket t s) := by
  unfold execBeamdPacket
  dsimp only
  split <;> simp

/-! ## BellRing -/

@[simp] theorem State.locked_scheduleItemsAndJobs (s : State) :
    (∀ k e, (s.startItem k e).locked = s.locked) ∧ (∀ e, (s.jobLate e).locked = s.locked) ∧
    (∀ k e, (s.endItem k e).locked = s.locked) := by
  simp [State.pushJob, State.startItem, State.jobLate, State.endItem]

@[simp] theorem State.locked_closeAisles (s : State) : s.closeAisles.locked = s.locked := by
  unfold State.closeAisles
  split <;> simp

@[simp] theorem State.locked_applyStep (s : State) (prev : Option Nat) : (s.applyStep prev).locked = s.locked := by
  unfold State.applyStep
  split
  · dsimp only
    split <;> simp
  · rfl

@[simp] theorem State.locked_whatBellDoes (s : State) :
    s.endItems.locked = s.locked ∧ (∀ k, (s.bellPulse k).locked = s.locked) ∧ (∀ k at_, (s.noteBell k at_).locked = s.locked) ∧
    (∀ n, (s.coreBell n).locked = s.locked) ∧ (∀ k, (s.sendBellWords k).locked = s.locked) ∧ s.countDown.locked = s.locked := by
  simp [State.endItems, State.bellPulse, State.noteBell, State.coreBell, State.sendBellWords, State.countDown]

@[simp] theorem keepsLock_execScheduleItemStart (k t : Nat) (s : State) : KeepsLock s (execScheduleItemStart k t s) := by
  unfold execScheduleItemStart
  dsimp only
  split <;> simp

@[simp] theorem keepsLock_execScheduleItemCutoff (k t : Nat) (s : State) : KeepsLock s (execScheduleItemCutoff k t s) := by
  unfold execScheduleItemCutoff
  dsimp only
  split <;> simp

@[simp] theorem keepsLock_execJobPush (k t : Nat) (s : State) : KeepsLock s (execJobPush k t s) := by
  unfold execJobPush
  dsimp only
  split <;> simp

@[simp] theorem keepsLock_execJobLate (k t : Nat) (s : State) : KeepsLock s (execJobLate k t s) := by
  unfold execJobLate
  dsimp only
  split <;> simp

@[simp] theorem keepsLock_execSlotBoundary (slot t : Nat) (s : State) : KeepsLock s (execSlotBoundary slot t s) := by
  simp [execSlotBoundary]

/-! ## Thermal -/

@[simp] theorem State.locked_noteMax (s : State) : s.noteMax.locked = s.locked := by
  unfold State.noteMax
  dsimp only
  split <;> simp

@[simp] theorem State.locked_thermal (s : State) :
    (∀ k x, (s.setSensor k x).locked = s.locked) ∧ (∀ k why, (s.setBroken k why).locked = s.locked) ∧
    (∀ k v, (s.noteReading k v).locked = s.locked) := by
  simp [State.setSensor, State.setBroken, State.noteReading]

@[simp] theorem State.locked_thmCtrl (s : State) (v : Nat) : (s.thmCtrl v).locked = s.locked := by
  simp [State.thmCtrl]

@[simp] theorem State.locked_tripAck (s : State) (v : Nat) : (s.tripAck v).locked = s.locked := by
  simp [State.tripAck]

@[simp] theorem keepsLock_thermalCommands (s : State) :
    (∀ sensor v t, KeepsLock s (execSensorConversion sensor v t s)) ∧ (∀ sensor t, KeepsLock s (execSensorSilent sensor t s)) ∧
    (∀ t, KeepsLock s (execThermalTick t s)) ∧ (∀ v t, KeepsLock s (execTripAck v t s)) := by
  simp [execSensorConversion, execSensorSilent, execThermalTick, execTripAck]

/-! ## Bus -/

/-- CFG.STATUS is read-only: no bit is written, cleared by a 1 or cleared by a read. -/
theorem row_status {row : RegRow} {k : Nat} (h : regRow CFG.STATUS = some (row, k)) :
    row.rw = 0 ∧ row.rwl = 0 ∧ row.w1c = 0 ∧ row.rc = 0 := by
  have hrow : (regRow CFG.STATUS).map (fun p => (p.1.rw, p.1.rwl, p.1.w1c, p.1.rc)) = some (0, 0, 0, 0) := by decide
  rw [h] at hrow
  simpa using hrow

theorem State.reg_storeReg_status (s : State) (v : Nat) (lk : Bool) : (s.storeReg CFG.STATUS v lk).reg CFG.STATUS = s.reg CFG.STATUS := by
  obtain ⟨⟨row, k⟩, hrow⟩ : ∃ p, regRow CFG.STATUS = some p := Option.isSome_iff_exists.mp (by decide)
  obtain ⟨hrw, hrwl, hw1c, -⟩ := row_status hrow
  have hold : (s.reg CFG.STATUS).toNat &&& 0xFFFFFFFF = (s.reg CFG.STATUS).toNat := by
    rw [show 0xFFFFFFFF = 2 ^ 32 - 1 from rfl, Nat.and_two_pow_sub_one_eq_mod, Nat.mod_eq_of_lt (s.reg CFG.STATUS).isLt]
  rw [s.reg_storeReg v lk hrow]
  simp [hrw, hrwl, hw1c, hold]

@[simp] theorem State.locked_storeReg (s : State) (r : Reg) (v : Nat) (lk : Bool) : (s.storeReg r v lk).locked = s.locked := by
  by_cases hr : r = CFG.STATUS
  · subst hr
    unfold State.locked State.flag
    rw [show CFG.STATUS_LOCKED.reg = CFG.STATUS from rfl, s.reg_storeReg_status]
  · unfold State.storeReg
    split
    · rfl
    · dsimp only
      split <;> simp [hr]

@[simp] theorem State.locked_storeKeep (s : State) (r : Reg) (v : Nat) (lk : Bool) {f : Fld} (ok : Bool) (h : f.reg ≠ CFG.STATUS) :
    (s.storeKeep r v lk f ok).locked = s.locked := by
  unfold State.storeKeep
  split <;> simp [h]

@[simp] theorem State.locked_storeUnless (s : State) (r : Reg) (v : Nat) (lk inUse : Bool) {f : Fld} (h : f.reg ≠ CFG.STATUS) :
    (s.storeUnless r v lk inUse f).locked = s.locked := by
  unfold State.storeUnless
  split <;> simp [h]

@[simp] theorem State.locked_writes (s : State) :
    (∀ v, (s.flashProgram v).locked = s.locked) ∧ (∀ v, (s.flashCmd v).locked = s.locked) ∧
    (∀ d v, (s.routeWrite d v).locked = s.locked) ∧ (∀ n, (s.restState n).locked = s.locked) ∧
    (∀ n v lk, (s.positionWrite n v lk).locked = s.locked) := by
  simp [State.flashProgram, State.flashCmd, State.routeWrite, State.restState, State.positionWrite]

@[simp] theorem State.locked_mailRead (s : State) (b : Nat) : (s.mailRead b).2.locked = s.locked := by
  simp [State.setMailbox, State.mailCompanions, State.mailRead]

@[simp] theorem State.locked_clearRead (s : State) {r : Nat} (base k rc : Nat) (h : r ≠ CFG.STATUS) :
    (s.clearRead r base k rc).2.locked = s.locked := by
  simp [State.clearRead, h]

@[simp] theorem State.locked_readsWithAnEffect (s : State) :
    (s.flashWord).2.locked = s.locked ∧ (∀ r base k, (s.latchRead r base k).2.locked = s.locked) := by
  simp [State.flashWord, State.latchRead]

@[simp] theorem State.locked_busRead (s : State) (r : Reg) : (s.busRead r).2.locked = s.locked := by
  unfold State.busRead
  split
  · rfl
  next row k hrow =>
    by_cases hr : r = CFG.STATUS
    · subst hr
      obtain ⟨-, -, -, hrc⟩ := row_status hrow
      simp [hrc]
    · simp [hr]

@[simp] theorem State.locked_regRead (s : State) (r : Reg) : (s.regRead r).2.locked = s.locked := by
  simp [State.regRead]

@[simp] theorem State.locked_answerRead (s : State) (m r : Nat) : (s.answerRead m r).locked = s.locked := by
  have hread := s.locked_regRead r
  unfold State.answerRead
  split
  · simp
  · split <;> rename_i h <;> (rw [h] at hread; simpa using hread)

@[simp] theorem keepsLock_execFlashEraseDone (t : Nat) (s : State) : KeepsLock s (execFlashEraseDone t s) := by
  unfold execFlashEraseDone
  dsimp only
  split <;> simp

@[simp] theorem keepsLock_execMsixUnmask (vec : Nat) (mask : Bool) (t : Nat) (s : State) : KeepsLock s (execMsixUnmask vec mask t s) := by
  simp [↓State.locked_ite, execMsixUnmask]

@[simp] theorem keepsLock_busCommands (s : State) :
    (∀ m r t, KeepsLock s (execReadClear m r t s)) ∧ (∀ m r t, KeepsLock s (execLatchingRead m r t s)) ∧
    (∀ b m t, KeepsLock s (execMailboxHeadRead b m t s)) ∧ (∀ m t, KeepsLock s (execFlashDataRead m t s)) := by
  simp [execReadClear, execLatchingRead, execMailboxHeadRead, execFlashDataRead]

/-! ## Access -/

@[simp] theorem State.locked_answer (s : State) (m : Nat) (write : Bool) (a : Nat) (r : Option (List Byte)) :
    (s.answer m write a r).locked = s.locked := by
  unfold State.answer
  split <;> simp

@[simp] theorem State.locked_grant (s : State) (m a : Nat) : (s.grant m a).locked = s.locked := by
  simp [State.grant]

@[simp] theorem State.locked_stopDue (s : State) (n : Nat) : (s.stopDue n).locked = s.locked := by
  simp [State.stopDue]

@[simp] theorem State.locked_porterTransfers (s : State) :
    (∀ m a n first, (s.countUnit m a n first).locked = s.locked) ∧ (∀ c, (s.porterWaited c).locked = s.locked) := by
  simp [State.countUnit, State.porterWaited]

@[simp] theorem keepsLock_execPorterTrigger (t : Nat) (s : State) : KeepsLock s (execPorterTrigger t s) := by
  unfold execPorterTrigger
  dsimp only
  split
  · simp
  · split <;> simp

@[simp] theorem keepsLock_accessCommands (s : State) :
    (∀ v quiet, KeepsLock s (execGateClose v quiet s)) ∧ (∀ n again t, KeepsLock s (execD2dFlitError n again t s)) := by
  simp [execGateClose, execD2dFlitError]

/-! ## Apply -/

@[simp] theorem State.locked_loadCode (s : State) (n : Nat) (l : List Byte) : (s.loadCode n l).locked = s.locked := by
  simp [State.loadCode]

@[simp] theorem State.locked_zeroWindows (s : State) (n : Nat) : (s.zeroWindows n).locked = s.locked := by
  simp [State.zeroWindows]

@[simp] theorem State.locked_readSpd (s : State) (geom : Nat) : (s.readSpd geom).locked = s.locked := by
  simp [State.readSpd]

@[simp] theorem State.locked_wakeChecks (s : State) (geom upset : Nat) : (s.wakeChecks geom upset).locked = s.locked := by
  simp [State.wakeChecks]

@[simp] theorem State.locked_fullAndCoefficientImages (s : State) :
    s.ledgerImage.locked = s.locked ∧ (∀ n, (s.reloadClosed n).locked = s.locked) ∧ (∀ j l, (s.keepImage j l).locked = s.locked) := by
  simp [State.ledgerImage, State.reloadClosed, State.keepImage]

@[simp] theorem State.locked_sequenceEnd (s : State) (geom upset : Nat) : (s.sequenceEnd geom upset).locked = s.locked := by
  simp [State.sequenceEnd]

@[simp] theorem State.locked_stepEnd (s : State) (geom upset : Nat) : (s.stepEnd geom upset).locked = s.locked := by
  unfold State.stepEnd
  split <;> simp

@[simp] theorem keepsLock_execPowerUpStepDone (geom upset t : Nat) (s : State) : KeepsLock s (execPowerUpStepDone geom upset t s) := by
  simp [execPowerUpStepDone]

end Sys2Proof.Machine
end

section
/-! SUPPORT. The operations and commands that keep a closed lock: those that close it, or that drop the registers of a domain other than the
trunk's. A table out of order hides the entries behind a larger one, so such a drop keeps a closed lock, not an open one. -/
namespace Sys2Proof.Machine

/-! ## Power -/

@[simp] theorem State.locked_dropRegs {s : State} {d : Nat} (hd : d ≠ 1) (hl : s.locked = true) : (s.dropRegs d).locked = true := by
  rw [State.locked_eq_lockBit] at hl ⊢
  exact lockBit_filter (fun v => bne_iff_ne.mpr fun h : domainOfReg CFG.STATUS = d => hd (h ▸ by decide)) hl

@[simp] theorem State.locked_loseDomain {s : State} (d : Nat) (hl : s.locked = true) : (s.loseDomain d).locked = true := by
  have hports : (s.each (List.range 4) fun t p => (t.setRegN (OUT.PORT_STATUS p) 0).portMoved p (t.outUp p)).locked = true :=
    (s.locked_each _ fun t p => by simp).trans hl
  unfold State.loseDomain
  rcases Nat.lt_or_ge d 3 with h3 | h3
  · simp [hports, hl, Nat.not_le_of_lt h3]
  · have hdrop : (s.dropRegs d).locked = true := s.locked_dropRegs (by omega) hl
    simp [hports, hl, hdrop]

@[simp] theorem State.locked_powerDown {s : State} (d : Nat) (hl : s.locked = true) : (s.powerDown d).locked = true := by
  simp [State.powerDown, hl]

@[simp] theorem State.locked_allDown {s : State} (hl : s.locked = true) : s.allDown.locked = true := by
  unfold State.allDown
  exact s.locked_each_of _ (fun t d ht => by simp [ht]) hl

@[simp] theorem keepsLock_execDomainDrainTimeout (d t : Nat) (s : State) : KeepsLock s (execDomainDrainTimeout d t s) := by
  unfold execDomainDrainTimeout
  dsimp only
  split <;> simp +contextual

@[simp] theorem State.locked_wakeFail {s : State} (k : Nat) (hl : s.locked = true) : (s.wakeFail k).locked = true := by
  simp [State.wakeFail, hl]

@[simp] theorem State.locked_undoStep {s : State} (k : Nat) (hl : s.locked = true) : (s.undoStep k).locked = true := by
  unfold State.undoStep
  split <;> simp [hl]

@[simp] theorem keepsLock_execPowerUpStepTimeout (t : Nat) (s : State) : KeepsLock s (execPowerUpStepTimeout t s) := by
  unfold execPowerUpStepTimeout
  exact .of_doneIf rfl fun h => by simp [↓State.locked_ite, h]

@[simp] theorem keepsLock_execDomainPowerDown_to_execPwrgoodFall (s : State) :
    (∀ d t, KeepsLock s (execDomainPowerDown d t s)) ∧ (∀ t, KeepsLock s (execPwrgoodFall t s)) := by
  simp +contextual [execDomainPowerDown, execPwrgoodFall]

/-! ## Image -/

@[simp] theorem State.locked_reloadDie_to_closeDie {s : State} (hl : s.locked = true) :
    (∀ c, (s.reloadDie c).locked = true) ∧ (∀ c, (s.closeDie c).locked = true) := by
  simp [State.reloadDie, State.closeDie, hl]

@[simp] theorem State.locked_changeOn {s : State} (hl : s.locked = true) : s.changeOn.locked = true := by
  unfold State.changeOn
  split <;> simp [hl]

@[simp] theorem State.locked_changeStep {s : State} (hl : s.locked = true) : s.changeStep.locked = true := by
  unfold State.changeStep
  split <;> simp [hl]

@[simp] theorem State.locked_changeBell {s : State} (b : Nat) (hl : s.locked = true) : (s.changeBell b).locked = true := by
  unfold State.changeBell
  split <;> simp [hl]

@[simp] theorem State.locked_changeNow_to_changeLoaded {s : State} (hl : s.locked = true) :
    s.changeNow.locked = true ∧ (∀ c, (s.beginChange c).locked = true) ∧ (∀ c, (s.changeLoaded c).locked = true) := by
  simp [State.changeNow, State.beginChange, State.changeLoaded, hl]

@[simp] theorem State.locked_loadCmd_to_acceptLoad {s : State} (hl : s.locked = true) :
    (∀ v, (s.loadCmd v).locked = true) ∧ (∀ j, (s.acceptLoad j).locked = true) := by
  simp [State.loadCmd, State.acceptLoad, hl]

@[simp] theorem keepsLock_execImageVerified (t : Nat) (s : State) : KeepsLock s (execImageVerified t s) := by
  unfold execImageVerified
  extract_lets s0
  split
  · split <;> simp +contextual [s0]
  · simp [s0]

@[simp] theorem State.locked_openDie {s : State} (v : Nat) (hl : s.locked = true) : (s.openDie v).locked = true := by
  unfold State.openDie
  split <;> simp [hl]

@[simp] theorem keepsLock_execClerkLoadDone (t : Nat) (s : State) : KeepsLock s (execClerkLoadDone t s) := by
  unfold execClerkLoadDone
  dsimp only
  split <;> simp +contextual

@[simp] theorem keepsLock_execSvcFrameRx (port : Nat) (frame : List Byte) (fcsOk room : Bool) (tx t : Nat) (s : State) :
    KeepsLock s (execSvcFrameRx port frame fcsOk room tx t s) := by
  unfold execSvcFrameRx
  refine .of_doneIf rfl fun h => ?_
  extract_lets s1 ty sub
  have h1 : s1.locked = true := by simp [s1, h]
  split
  · simp [h1]
  · split
    · exact KeepsLock.locked_resultState (by simp) h1
    · split
      · exact KeepsLock.locked_resultState (by simp) h1
      · split
        · exact KeepsLock.locked_resultState (by simp) h1
        · simp [↓State.locked_ite, h1]

@[simp] theorem keepsLock_execBootLockClose_to_execDieOpen (s : State) :
    (∀ v t, KeepsLock s (execBootLockClose v t s)) ∧ (∀ v t, KeepsLock s (execImageLoad v t s)) ∧
    (∀ v t, KeepsLock s (execDieCloseNoimg v t s)) ∧ (∀ v t, KeepsLock s (execDieOpen v t s)) := by
  simp +contextual [execBootLockClose, execImageLoad, execDieCloseNoimg, execDieOpen]

/-! ## Engine -/

@[simp] theorem State.locked_enterStopped {s : State} (hl : s.locked = true) : s.enterStopped.locked = true := by
  unfold State.enterStopped
  dsimp only
  split <;> simp [hl]

@[simp] theorem State.locked_bellStopped {s : State} (hl : s.locked = true) : s.bellStopped.locked = true := by
  simp [State.bellStopped, hl]

@[simp] theorem State.locked_clearRun {s : State} (hl : s.locked = true) : s.clearRun.locked = true := by
  unfold State.clearRun
  simp [↓State.locked_ite, hl]

@[simp] theorem State.locked_runWrite {s : State} (v : Nat) (hl : s.locked = true) : (s.runWrite v).locked = true := by
  simp [State.runWrite, hl]

@[simp] theorem State.locked_noteStop {s : State} (w : BellWord) (hl : s.locked = true) : (s.noteStop w).locked = true := by
  simp [State.noteStop, hl]

@[simp] theorem State.locked_bellWord {s : State} (port : Nat) (w : BellWord) (rx : Nat) (hl : s.locked = true) :
    (s.bellWord port w rx).locked = true := by
  unfold State.bellWord
  extract_lets st inst s1 d k off b s2 s3
  have h1 : s1.locked = true := by simp [s1, hl]
  have h2 : s2.locked = true := by simp [s2, b, h1]
  have h3 : s3.locked = true := by
    unfold s3
    split <;> simp [h2]
  split
  · exact hl
  · split
    · simp [hl]
    · split
      · simp [h1]
      · simp [h3]

@[simp] theorem keepsLock_execBellRunSet_to_execRefusedExit (s : State) :
    (∀ t, KeepsLock s (execBellRunSet t s)) ∧ (∀ t, KeepsLock s (execBellRunClear t s)) ∧ KeepsLock s (execRefusedExit s) := by
  simp +contextual [execBellRunSet, execBellRunClear, execRefusedExit]

/-! ## Canopy -/

@[simp] theorem State.locked_leadNews_to_takeHello {s : State} (hl : s.locked = true) :
    (∀ p h, (s.leadNews p h).locked = true) ∧ (∀ p h, (s.takeHello p h).locked = true) := by
  simp [State.leadNews, State.takeHello, hl]

@[simp] theorem keepsLock_execHelloRx (port : Nat) (p : Packet) (tr : Trailer) (crcOk : Bool) (t : Nat) (s : State) :
    KeepsLock s (execHelloRx port p tr crcOk t s) := by
  unfold execHelloRx
  extract_lets q s0
  split
  · split
    · simp only [keepsLock_done]
      exact fun h => s0.locked_linkRx_of q p tr crcOk (fun t ht => by simp [ht]) h
    · split <;> simp +contextual [s0]
  · simp [s0]

@[simp] theorem keepsLock_execBellWordRx (port : Nat) (p : Packet) (tr : Trailer) (crcOk : Bool) (rx t : Nat) (s : State) :
    KeepsLock s (execBellWordRx port p tr crcOk rx t s) := by
  unfold execBellWordRx
  extract_lets q
  split
  · simp only [keepsLock_done]
    exact fun h => State.locked_linkRx_of _ q p tr crcOk (fun t ht => by simp [ht]) h
  · simp

@[simp] theorem State.locked_parkNow_to_pitCtrl {s : State} (hl : s.locked = true) :
    (∀ first, (s.parkNow first).locked = true) ∧ s.parkSet.locked = true ∧ (∀ v, (s.pitCtrl v).locked = true) := by
  simp [State.parkNow, State.parkSet, State.pitCtrl, hl]

@[simp] theorem State.locked_parkBell {s : State} (k : Nat) (hl : s.locked = true) : (s.parkBell k).locked = true := by
  unfold State.parkBell
  split <;> simp [hl]

@[simp] theorem keepsLock_execParkSet_to_execParkClear (s : State) :
    (∀ t, KeepsLock s (execParkSet t s)) ∧ (∀ t, KeepsLock s (execParkClear t s)) := by
  simp +contextual [execParkSet, execParkClear]

/-! ## Security -/

@[simp] theorem State.locked_enterLockout {s : State} (hl : s.locked = true) : s.enterLockout.locked = true := by
  unfold State.enterLockout
  exact State.locked_each_of _ _ (fun t d ht => by simp [ht]) (by simp [↓State.locked_ite, hl])

@[simp] theorem State.locked_erase {s : State} (hl : s.locked = true) : s.erase.locked = true := by
  unfold State.erase
  dsimp only
  split <;> simp [hl]

@[simp] theorem State.locked_cmdErase {s : State} (v : Nat) (hl : s.locked = true) : (s.cmdErase v).locked = true := by
  simp [State.cmdErase, hl]

@[simp] theorem State.locked_secRun {s : State} (code arg : Nat) (hl : s.locked = true) : (s.secRun code arg).locked = true := by
  unfold State.secRun
  split
  · simp [hl]
  · split <;> simp [hl]

@[simp] theorem State.locked_secCmd {s : State} (v : Nat) (hl : s.locked = true) : (s.secCmd v).locked = true := by
  simp [State.secCmd, hl]

@[simp] theorem State.locked_violate {s : State} (sensors : Nat) (hl : s.locked = true) : (s.violate sensors).locked = true := by
  simp [State.violate, hl]

@[simp] theorem keepsLock_execProvision_to_execViolationSensorFire (s : State) :
    (∀ t, KeepsLock s (execProvision t s)) ∧ (∀ t, KeepsLock s (execSetroot t s)) ∧
    (∀ slot t, KeepsLock s (execSetkey slot t s)) ∧ (∀ len t, KeepsLock s (execCert len t s)) ∧
    (∀ t, KeepsLock s (execSeal t s)) ∧ (∀ t, KeepsLock s (execAttest t s)) ∧ (∀ v t, KeepsLock s (execEpoch v t s)) ∧
    (∀ v t, KeepsLock s (execErase v t s)) ∧ (∀ sensors t, KeepsLock s (execViolationSensorFire sensors t s)) := by
  simp +contextual [execProvision, execSetroot, execSetkey, execCert, execSeal, execAttest, execEpoch, execErase, execViolationSensorFire]

/-! ## BellRing -/

@[simp] theorem State.locked_bellWork_to_ringBell {s : State} (hl : s.locked = true) :
    (∀ k prev, (s.bellWork k prev).locked = true) ∧ (∀ k at_, (s.ringBell k at_).locked = true) := by
  simp [State.bellWork, State.ringBell, hl]

@[simp] theorem keepsLock_execBellRing (t : Nat) (s : State) : KeepsLock s (execBellRing t s) := by
  unfold execBellRing
  dsimp only
  split <;> simp +contextual

/-! ## Thermal -/

@[simp] theorem keepsLock_execThermalTrip (sensor t : Nat) (s : State) : KeepsLock s (execThermalTrip sensor t s) := by
  simp +contextual [execThermalTrip]

/-! ## Bus -/

theorem allLocked_ite {c : Prop} {_ : Decidable c} (a b : Option State) :
    (if c then a else b).all State.locked = if c then a.all State.locked else b.all State.locked := apply_ite _ _ _ _

theorem allLocked_writeFront {s : State} (base k v : Nat) (lk : Bool) (hl : s.locked = true) :
    (s.writeFront base k v lk).all State.locked = true := by
  simp [State.writeFront, allLocked_ite, hl]

theorem allLocked_writeData {s : State} (base k v : Nat) (lk : Bool) (hl : s.locked = true) :
    (s.writeData base k v lk).all State.locked = true := by
  simp [State.writeData, allLocked_ite, hl]

theorem allLocked_writeCtl {s : State} (m base k v : Nat) (lk : Bool) (hl : s.locked = true) :
    (s.writeCtl m base k v lk).all State.locked = true := by
  by_cases h : base = MTX.FL_ADDR
  · subst h
    simp [State.writeCtl, allLocked_ite, hl]
  · simp [State.writeCtl, allLocked_ite, hl, h]

@[simp] theorem State.locked_busWrite {s : State} (m r v : Nat) (lk : Bool) (hl : s.locked = true) :
    (s.busWrite m r v lk).locked = true := by
  unfold State.busWrite
  split
  · exact hl
  next row k hrow =>
    have hfront := allLocked_writeFront (r - k * row.stride) k v lk hl
    have hdata := allLocked_writeData (r - k * row.stride) k v lk hl
    have hctl := allLocked_writeCtl m (r - k * row.stride) k v lk hl
    dsimp only
    split
    next u hu => simpa [hu] using hfront
    · split
      next u hu => simpa [hu] using hdata
      · split
        next u hu => simpa [hu] using hctl
        · simp [hl]

@[simp] theorem State.locked_regWrite_to_portAccess {s : State} (hl : s.locked = true) :
    (∀ m r v, (s.regWrite m r v).2.locked = true) ∧ (∀ m r v, (s.answerWrite m r v).locked = true) ∧
    (∀ r write v, (s.portAccess r write v).locked = true) := by
  simp [State.regWrite, State.answerWrite, State.portAccess, hl]

@[simp] theorem keepsLock_execCoefDataAccess_to_execFlashErase (s : State) :
    (∀ write v, KeepsLock s (execCoefDataAccess write v s)) ∧ (∀ write v, KeepsLock s (execWindowDataAccess write v s)) ∧
    (∀ write v, KeepsLock s (execScaleDataAccess write v s)) ∧ (∀ write v, KeepsLock s (execLocalMemoryAccess write v s)) ∧
    (∀ m d v t, KeepsLock s (execEventRouteWrite m d v t s)) ∧ (∀ m v t, KeepsLock s (execFlashDataWrite m v t s)) ∧
    (∀ m t, KeepsLock s (execFlashErase m t s)) := by
  simp +contextual [execCoefDataAccess, execWindowDataAccess, execScaleDataAccess, execLocalMemoryAccess, execEventRouteWrite,
    execFlashDataWrite, execFlashErase]

/-! ## Access -/

@[simp] theorem State.locked_performChunk {s : State} (m : Nat) (write : Bool) (a n be : Nat) (l : List Byte) (hint : Nat)
    (hl : s.locked = true) : (s.performChunk m write a n be l hint).2.locked = true := by
  simp [State.performChunk, hl]

@[simp] theorem State.locked_perform {s : State} (m : Nat) (write : Bool) (a n be : Nat) (l : List Byte) (hint : Nat)
    (hl : s.locked = true) : (s.perform m write a n be l hint).2.locked = true := by
  unfold State.perform
  split
  · exact hl
  · refine List.foldlRecOn (motive := fun p : Option (List Byte) × State => p.2.locked = true) _ _ hl fun p hp c _ => ?_
    simp [hp]

@[simp] theorem State.locked_moveChunk {s : State} (k : Nat) (hl : s.locked = true) : (s.moveChunk k).locked = true := by
  unfold State.moveChunk
  split <;> simp [hl]

@[simp] theorem State.locked_moveRound {s : State} (hl : s.locked = true) : s.moveRound.locked = true := by
  unfold State.moveRound
  refine s.locked_each_of _ (fun t k ht => ?_) hl
  split <;> simp [ht]

@[simp] theorem State.locked_moveRounds {s : State} (n : Nat) (hl : s.locked = true) : (s.moveRounds n).locked = true := by
  induction n generalizing s with
  | zero => exact hl
  | succ n ih =>
    unfold State.moveRounds
    exact ih (State.locked_moveRound hl)

@[simp] theorem State.locked_retryOut {s : State} (hl : s.locked = true) : s.retryOut.locked = true := by
  simp [State.retryOut, hl]

@[simp] theorem keepsLock_execTargetTimeout (k : Nat) (performed : Bool) (t : Nat) (s : State) :
    KeepsLock s (execTargetTimeout k performed t s) := by
  unfold execTargetTimeout
  dsimp only
  split <;> simp +contextual

@[simp] theorem keepsLock_execSwDone (k : Nat) (s : State) : KeepsLock s (execSwDone k s) := by
  unfold execSwDone
  split <;> simp +contextual

@[simp] theorem keepsLock_execForcedSwitch (k : Nat) (s : State) : KeepsLock s (execForcedSwitch k s) := by
  unfold execForcedSwitch
  split <;> simp +contextual

@[simp] theorem State.locked_finishDram {s : State} (hl : s.locked = true) : s.finishDram.locked = true := by
  unfold State.finishDram
  exact State.locked_each_of _ _ (fun t x ht => by simp [ht]) (by simp [hl])

@[simp] theorem keepsLock_execDeepEntryComplete (t : Nat) (s : State) : KeepsLock s (execDeepEntryComplete t s) := by
  unfold execDeepEntryComplete
  refine .of_doneIf rfl fun h => ?_
  extract_lets lp kept s1 mem s2 held errs x s3 y s4 s5 s6
  have h1 : s1.locked = true := by simp [s1, h]
  have h3 : s3.locked = true := by
    unfold s3 s2
    split <;> simp [h1]
  have h5 : s5.locked = true := by simp [s5, s4, h3]
  have h6 : s6.locked = true := by
    unfold s6
    split <;> simp [h5]
  split <;> simp [h6]

@[simp] theorem State.locked_farAccess {s : State} (core : Nat) (write : Bool) (a v fail : Nat) (hl : s.locked = true) :
    (s.farAccess core write a v fail).2.locked = true := by
  unfold State.farAccess
  dsimp only
  split <;> simp [hl]

@[simp] theorem keepsLock_execFarStoreComplete (core fail t : Nat) (s : State) : KeepsLock s (execFarStoreComplete core fail t s) := by
  unfold execFarStoreComplete
  extract_lets s0
  split
  · simp [s0]
  next a v l hq =>
    refine .of_doneIf rfl fun h => ?_
    extract_lets x s1
    split
    rename_i r s2 hr
    have h2 : s2.locked = true := by
      have := State.locked_farAccess (s := s1) core true a v fail (by simp [s1, h])
      rwa [hr] at this
    split <;> simp [h2]

@[simp] theorem keepsLock_execFarLoadComplete (core fail t : Nat) (s : State) : KeepsLock s (execFarLoadComplete core fail t s) := by
  unfold execFarLoadComplete
  extract_lets s0
  split
  · simp [s0]
  next a hq =>
    refine .of_doneIf rfl fun h => ?_
    extract_lets x s1
    split
    rename_i r s2 hr
    have h2 : s2.locked = true := by
      have := State.locked_farAccess (s := s1) core false a 0 fail (by simp [s1, h])
      rwa [hr] at this
    extract_lets c
    split <;> simp [h2]

@[simp] theorem State.locked_porterUnit {s : State} (c : Nat) (hl : s.locked = true) : (s.porterUnit c).locked = true := by
  unfold State.porterUnit
  extract_lets p d m a sw sr
  have hw : sw.locked = true := by simp [sw, hl]
  have hr : sr.locked = true := by simp [sr, hl]
  split
  · exact hl
  · split
    · split
      rename_i r s2 hp
      have h2 : s2.locked = true := by
        have := State.locked_perform m true a d.dwBytes (fullBe d.dwBytes) (p.held.take d.dwBytes) d.hint hw
        rwa [hp] at this
      split
      · simp [h2]
      · split <;> simp [h2]
    · split
      · split
        rename_i r s2 hp
        have h2 : s2.locked = true := by
          have := State.locked_perform m false a d.swBytes (fullBe d.swBytes) [] d.hint hr
          rwa [hp] at this
        split <;> simp [h2]
      · exact hl

@[simp] theorem State.locked_porterRun {s : State} (c n : Nat) (hl : s.locked = true) : (s.porterRun c n).locked = true := by
  induction n generalizing s with
  | zero => exact hl
  | succ n ih =>
    rw [State.porterRun]
    exact ih (State.locked_porterUnit c hl)

@[simp] theorem State.locked_pmcWrite {s : State} (hl : s.locked = true) : s.pmcWrite.locked = true := by
  unfold State.pmcWrite
  split
  · exact hl
  next l a hheld =>
    extract_lets x s1
    split
    rename_i r s2 hr
    have h2 : s2.locked = true := by
      have := State.locked_perform (s := s1.countTxn 6 a 2048) 6 true a 2048 (fullBe 2048) l 0 (by simp [s1, hl])
      rwa [hr] at this
    split <;> simp [h2]

@[simp] theorem keepsLock_execPmcSnapshot (prompt : Bool) (t : Nat) (s : State) : KeepsLock s (execPmcSnapshot prompt t s) := by
  unfold execPmcSnapshot
  refine .of_doneIf rfl fun h => ?_
  extract_lets q a x s1
  have h1 : s1.locked = true := by
    unfold s1
    split
    · exact (State.locked_raise _ (by decide)).trans h
    · exact (State.locked_mk ..).trans ((lockBit_regs _).trans h)
  split <;> simp [h1]

@[simp] theorem keepsLock_execFabricTransaction_to_execPorterXferErr (s : State) :
    (∀ m write a n be data answered t, KeepsLock s (execFabricTransaction m write a n be data answered t s)) ∧
    (∀ m r v t, KeepsLock s (execRegisterWrite m r v t s)) ∧ (∀ v, KeepsLock s (execGateOpen v s)) ∧
    (∀ g, KeepsLock s (execGateCloseDone g s)) ∧ (∀ g, KeepsLock s (execGateCloseTimeout g s)) ∧
    (∀ k, KeepsLock s (execPllLock k s)) ∧ KeepsLock s (execXtalStable s) ∧ (∀ t, KeepsLock s (execOscRestored t s)) ∧
    (∀ failed t, KeepsLock s (execDramInitDone failed t s)) ∧ (∀ v, KeepsLock s (execDramEnable v s)) ∧
    (∀ t, KeepsLock s (execRequestAgeUp t s)) ∧ (∀ n t, KeepsLock s (execD2dLinkRetrain n t s)) ∧
    (∀ c m t, KeepsLock s (execPorterEnable c m t s)) ∧ (∀ c n m t, KeepsLock s (execPorterDisable c n m t s)) ∧
    (∀ c t, KeepsLock s (execPorterDescriptorEnd c t s)) ∧ (∀ c n t, KeepsLock s (execPorterXferErr c n t s)) := by
  simp +contextual [execFabricTransaction, execRegisterWrite, execGateOpen, execGateCloseDone, execGateCloseTimeout, execPllLock,
    execXtalStable, execOscRestored, execDramInitDone, execDramEnable, execRequestAgeUp, execD2dLinkRetrain, execPorterEnable,
    execPorterDisable, execPorterDescriptorEnd, execPorterXferErr]

/-! ## Apply -/

@[simp] theorem State.locked_loaderWrite {s : State} (a v : Nat) (hl : s.locked = true) : (s.loaderWrite a v).locked = true := by
  simp [State.loaderWrite, hl]

@[simp] theorem State.locked_applySect {s : State} (dom : Option Nat) (x : Sect) (data : List Byte) (hl : s.locked = true) :
    (s.applySect dom x data).locked = true := by
  unfold State.applySect
  extract_lets here
  split
  · refine s.locked_each_of _ (fun t e ht => ?_) hl
    split <;> simp [ht]
  · split
    · exact s.locked_each_of _ (fun t w ht => by simp [ht]) hl
    · exact hl
  all_goals split <;> simp [hl]

@[simp] theorem State.locked_applyImage {s : State} (dom : Option Nat) (base : Nat) (hl : s.locked = true) :
    (s.applyImage dom base).locked = true := by
  unfold State.applyImage
  exact State.locked_each_of _ _ (fun t p ht => by simp [ht]) hl

@[simp] theorem State.locked_reapply {s : State} (d : Nat) (hl : s.locked = true) : (s.reapply d).locked = true := by
  unfold State.reapply
  split <;> simp [hl]

@[simp] theorem keepsLock_execStallReloadDone (t : Nat) (s : State) : KeepsLock s (execStallReloadDone t s) := by
  unfold execStallReloadDone
  extract_lets s0
  split
  next c hc =>
    refine .of_doneIf rfl fun h => ?_
    have h1 : (if c.pcycle = true then s0.reapply (3 + c.die) else s0).locked = true := by simp [h]
    simp [h1]
  · simp [s0]

@[simp] theorem State.locked_applyFull {s : State} (j : LoadJob) (hl : s.locked = true) : (s.applyFull j).locked = true := by
  simp [State.applyFull, hl]

@[simp] theorem State.locked_applyCoef {s : State} (base : Nat) (hl : s.locked = true) : (s.applyCoef base).locked = true := by
  unfold State.applyCoef
  extract_lets dig
  split
  rename_i s1 lost hr
  have h1 : s1.locked = true := by
    rw [show s1 = (s1, lost).1 from rfl, ← hr]
    exact List.foldlRecOn (motive := fun q : State × Bool => q.1.locked = true) _ _ hl fun q hq p _ => by simp [hq]
  split <;> simp [h1]

@[simp] theorem keepsLock_execImageApply (t : Nat) (s : State) : KeepsLock s (execImageApply t s) := by
  unfold execImageApply
  dsimp only
  split <;> simp +contextual

@[simp] theorem keepsLock_execDomainPowerUp (d t : Nat) (s : State) : KeepsLock s (execDomainPowerUp d t s) := by
  simp +contextual [execDomainPowerUp]

end Sys2Proof.Machine
end

section
/-! SUPPORT. The boot lock (R399), settled. -/
namespace Sys2Proof.Machine

/-! ## Every command -/

@[simp] theorem State.locked_powerOn (s : State) (straps cause : Nat) : (s.powerOn straps cause).locked = false := by
  have hreset : State.reset.locked = false := by decide
  simp [State.powerOn, hreset]

/-- Only the rising edge of PWRGOOD and the end of a brown-out open the lock (R399). -/
theorem keepsLock_exec {c : Instr} (s : State) (hrise : ∀ x, c ≠ .pwrgoodRise x) (hbrown : ∀ x, c ≠ .brownout x) :
    KeepsLock s (exec c s) := by
  cases c
  case pwrgoodRise x => exact absurd rfl (hrise x)
  case brownout x => exact absurd rfl (hbrown x)
  all_goals
    unfold exec
    simp

/-! ## A write of RUN and of LOCK.CLOSE -/

/-- The write of RUN is discarded (R399): in recovery, without an image or with no frame length. -/
theorem State.locked_runWrite_rejected {s : State} (h : s.recovery = true ∨ s.imaged = false ∨ s.frameLenOk = false) :
    (s.runWrite 1).locked = s.locked := by
  unfold State.runWrite
  rw [if_pos (by decide)]
  split
  · simp
  next hrec =>
    have hrej : (!s.imaged || !s.frameLenOk) = true := by
      rcases h with h | h | h
      · exact absurd h hrec
      · simp [h]
      · simp [h]
    rw [if_pos hrej]
    simp

theorem State.runWrite_accepted {s : State} (hrec : s.recovery = false) (himg : s.imaged = true) (hlen : s.frameLenOk = true)
    (hrun : s.flag BEL.CTRL_RUN = false) : s.runWrite 1 =
      if (s.setFlag BEL.CTRL_RUN true).bootLock.bellState = stSTOPPED then (s.setFlag BEL.CTRL_RUN true).bootLock.startEngine
      else (s.setFlag BEL.CTRL_RUN true).bootLock := by
  simp [State.runWrite, hrec, himg, hlen, hrun]

theorem State.statLocked_bootLock {s : State} (h : s.locked = false) : s.bootLock.flag CFG.STAT_LOCKED = true := by
  unfold State.bootLock
  rw [h]
  exact State.flag_raise _ _ (by decide) (by decide) (by decide)

theorem State.statLocked_setFld (s : State) {f : Fld} (n : Nat) (h : f.reg ≠ CFG.STAT) :
    (s.setFld f n).flag CFG.STAT_LOCKED = s.flag CFG.STAT_LOCKED := s.flag_setReg_ne _ h.symm

theorem State.statLocked_raise (s : State) {f : Fld} (hb : f.reg / 65536 < 32) (h : f.reg ≠ CFG.STAT) :
    (s.raise f).flag CFG.STAT_LOCKED = s.flag CFG.STAT_LOCKED := s.flag_raise_ne f _ hb h.symm (by decide)

theorem State.statLocked_leaveStopped (s : State) : s.leaveStopped.flag CFG.STAT_LOCKED = s.flag CFG.STAT_LOCKED := by
  have hled : ∀ t : State, t.ledgerStart.flag CFG.STAT_LOCKED = t.flag CFG.STAT_LOCKED := fun t => by
    unfold State.ledgerStart
    dsimp only
    split <;> rfl
  have htset : s.tsetCancel.flag CFG.STAT_LOCKED = s.flag CFG.STAT_LOCKED := by
    unfold State.tsetCancel
    split
    · exact (State.statLocked_raise _ (by decide) (by decide)).trans (s.statLocked_setFld _ (by decide))
    · rfl
  exact (hled _).trans htset

theorem State.statLocked_startEngine (s : State) : s.startEngine.flag CFG.STAT_LOCKED = s.flag CFG.STAT_LOCKED := by
  have hstate : ∀ (t : State) st, (t.setBellState st).flag CFG.STAT_LOCKED = t.flag CFG.STAT_LOCKED :=
    fun t st => t.statLocked_setFld st (by decide)
  unfold State.startEngine
  extract_lets s1 n
  rw [← s.statLocked_leaveStopped]
  split
  · split
    · exact (State.statLocked_raise _ (by decide) (by decide)).trans (hstate ..)
    · exact hstate ..
  · exact hstate ..

/-- Settles O56: what a write of LOCK.CLOSE and of RUN does follows from `State.bootLock` and `State.runWrite`; that nothing else opens the
lock is `keepsLock_exec`, proved command by command. -/
theorem bootLock : Obligations.boot_lock := by
  unfold Obligations.boot_lock
  refine ⟨fun v t s hv => ⟨_, rfl, ?_⟩, fun t s hrec himg hlen hrun => ⟨_, rfl, ?_⟩, fun t s h => ⟨_, rfl, ?_⟩, fun t s h => ⟨⟨_, rfl, ?_⟩,
    fun hrec himg hlen hrun => ⟨_, rfl, ?_⟩⟩, fun straps s => ⟨_, rfl, ?_⟩, fun straps s => ⟨_, rfl, ?_⟩, fun c s u hl hu => ?_⟩
  · rw [if_pos hv]
    exact State.locked_bootLock _
  · rw [State.runWrite_accepted (s := s.at t) hrec himg hlen hrun]
    simp
  · exact State.locked_runWrite_rejected (s := s.at t) h
  · exact State.statLocked_bootLock h
  · have hclosed : ((s.at t).setFlag BEL.CTRL_RUN true).locked = false := by simp [h]
    rw [State.runWrite_accepted (s := s.at t) hrec himg hlen hrun]
    split
    · exact (State.statLocked_startEngine _).trans (State.statLocked_bootLock hclosed)
    · exact State.statLocked_bootLock hclosed
  · exact s.locked_powerOn ..
  · exact (State.locked_raise _ (by decide)).trans (s.locked_powerOn ..)
  · by_cases hrise : ∃ x, c = .pwrgoodRise x
    · exact .inr (.inl hrise)
    · by_cases hbrown : ∃ x, c = .brownout x
      · exact .inr (.inr hbrown)
      · exact .inl (keepsLock_exec s (not_exists.mp hrise) (not_exists.mp hbrown) u hu hl)

end Sys2Proof.Machine
end

section
/-! SUPPORT. The helper slots of R415: what PROVISION and SEAL_COMPLETE do at the limit of 8, and the register table that breaks the step
clause of their statement. -/
namespace Sys2Proof.Machine

/-! ## Refused security commands (R418) -/

theorem State.regN_cmdResult (s : State) (result reason code : Nat) (h : result < 4) :
    (s.cmdResult result reason code).regN SEC.CMD_RES = result + 4 * (reason % 16) + 64 * (code % 16) :=
  s.regN_setRegN _ (by omega)

theorem State.regN_cmdRefuse (s : State) (code reason : Nat) :
    (s.cmdRefuse code reason).regN SEC.CMD_RES = 2 + 4 * (reason % 16) + 64 * (code % 16) :=
  (congrArg BitVec.toNat (State.reg_raise_ne _ _ (by decide) (by decide) (by decide))).trans (s.regN_cmdResult 2 reason code (by decide))

theorem State.flag_cmdRefuse (s : State) (code reason : Nat) : (s.cmdRefuse code reason).flag SEC.STAT_CMD_REF = true :=
  State.flag_raise _ _ (by decide) (by decide) (by decide)

theorem State.secState_cmdRefuse (s : State) (code reason : Nat) : (s.cmdRefuse code reason).secState = s.secState :=
  (State.fld_raise_ne _ _ _ (by decide) (by decide) (by decide)).trans (s.fld_setReg_ne _ (by decide))

theorem State.secState_cmdDone (s : State) (code : Nat) : (s.cmdDone code).secState = s.secState :=
  (State.fld_raise_ne _ _ _ (by decide) (by decide) (by decide)).trans (s.fld_setReg_ne _ (by decide))

theorem State.secState_setSecState (s : State) (st : Nat) : (s.setSecState st).secState = st % 8 :=
  (State.fld_setFld_ne _ _ _ _ (by decide) (by decide)).trans (s.fld_setFld _ _ (by decide))

/-! ## The limit of 8 (R415) -/

theorem State.cmdProvision_exhausted {s : State} (hstate : s.secState = scBLANK ∨ s.secState = scERASED)
    (hbell : s.bellState = stSTOPPED) (hslots : 8 ≤ s.helperSlots) : s.cmdProvision = s.cmdRefuse 1 2 := by
  simp [State.cmdProvision, hstate, hbell, hslots]

/-- The first clause of O57 holds: with 8 slots programmed, PROVISION is refused as EXHAUSTED. -/
theorem provision_exhausted (t : Nat) {s : State} (hidle : s.sec.sealing = false) (hstate : s.secState = scBLANK ∨ s.secState = scERASED)
    (hbell : s.bellState = stSTOPPED) (hslots : s.helperSlots = 8) :
    Completes (.provision t) s
      (fun u => u.regN SEC.CMD_RES = 2 + 4 * 2 + 64 * 1 ∧ u.flag SEC.STAT_CMD_REF = true ∧ u.sec = s.sec) := by
  have hkept : ∀ {f : Fld}, f.reg ≠ SEC.CMD → ((s.at t).setRegN SEC.CMD (0x11 % 16)).fld f = s.fld f :=
    fun h => (s.at t).fld_setReg_ne _ h
  have hrun : (s.at t).secCmd 0x11 = ((s.at t).setRegN SEC.CMD (0x11 % 16)).cmdProvision := by
    have hgo : Nat.testBit 0x11 4 = true := by decide
    simp [State.secCmd, State.secRun, hidle, hgo]
  have hrefused : ((s.at t).setRegN SEC.CMD (0x11 % 16)).cmdProvision = ((s.at t).setRegN SEC.CMD (0x11 % 16)).cmdRefuse 1 2 :=
    State.cmdProvision_exhausted (by unfold State.secState at hstate ⊢; rwa [hkept (by decide)])
      ((hkept (by decide)).trans hbell) hslots.ge
  exact ⟨_, congrArg Host.Outcome.next (hrun.trans hrefused), State.regN_cmdRefuse .., State.flag_cmdRefuse .., rfl⟩

/-- The third clause of O57 holds: a SEAL whose read-back fails is refused as FLASH, its slot unprogrammed. -/
theorem sealComplete_readBack_failed (t : Nat) {s : State} (hseal : s.sec.sealing = true) (hstate : s.secState = scPROVISIONING) :
    Completes (.sealComplete false t) s
      (fun u => u.regN SEC.CMD_RES = 2 + 4 * 3 + 64 * 5 ∧ u.otp = s.otp ∧ u.secState = scPROVISIONING) := by
  have hexec : exec (.sealComplete false t) s = .next (((s.at t).setSec { s.sec with sealing := false }).cmdRefuse 5 3) :=
    congrArg Host.Outcome.next (if_pos hseal)
  exact ⟨_, hexec, State.regN_cmdRefuse .., rfl, (State.secState_cmdRefuse ..).trans hstate⟩

/-- SEAL_COMPLETE, the one command that programs a slot, keeps the bound of the second clause of O57. -/
theorem sealComplete_keeps_slots_le (ok : Bool) (t : Nat) {s u : State} (hmax : s.helperSlots ≤ 8)
    (hroom : s.sec.sealing = true ∨ s.secState = scPROVISIONING → s.helperSlots < 8) (hu : exec (.sealComplete ok t) s = .next u) :
    u.helperSlots ≤ 8 ∧ (u.sec.sealing = true ∨ u.secState = scPROVISIONING → u.helperSlots < 8) := by
  replace hu : execSealComplete ok t s = .next u := hu
  unfold execSealComplete doneIf at hu
  injection hu with hu
  split at hu
  next hseal =>
    have hfree : s.helperSlots < 8 := hroom (.inl hseal)
    dsimp only at hu
    split at hu
    · subst hu
      have hslots : s.otp.helpers.length < 8 := hfree
      refine ⟨?_, ?_⟩
      · show (s.otp.helpers ++ [_]).length ≤ 8
        simpa using hslots
      · rintro (h | h)
        · exact absurd h Bool.false_ne_true
        · rw [State.secState_cmdDone, State.secState_setSecState] at h
          exact absurd h (by decide)
    · subst hu
      exact ⟨hfree.le, fun _ => hfree⟩
  next => subst hu; exact ⟨hmax, hroom⟩

/-! ## A table out of order -/

/-- A device with 8 helper slots, no vote for domain 15 and a register table out of order: the entry of CAL.CTRL hides that of SEC.STATUS,
so STATE reads its reset value, BLANK. -/
def hiddenProvisioning : State :=
  { State.reset with
    regs := [(CAL.CTRL, 0#32), (SEC.STATUS, 1#32), (PWR.VOTE 15, 0#32)]
    otp := { State.reset.otp with helpers := List.replicate 8 ⟨false, [], KeyStore.empty⟩ } }

theorem blockInv_hiddenProvisioning : BlockInv hiddenProvisioning := by
  unfold BlockInv Shape
  decide +kernel

theorem secState_hiddenProvisioning : hiddenProvisioning.secState = scBLANK := by decide +kernel

/-- The power-down of domain 15 drops CAL.CTRL with its registers, and the entry of SEC.STATUS, PROVISIONING, is read again. -/
theorem exec_domainPowerDown_hiddenProvisioning :
    exec (.domainPowerDown 15 0) hiddenProvisioning = .next (hiddenProvisioning.powerDown 15) :=
  congrArg Host.Outcome.next (if_pos (by decide +kernel))

theorem secState_powerDown_hiddenProvisioning : (hiddenProvisioning.powerDown 15).secState = scPROVISIONING := by decide +kernel

theorem helperSlots_powerDown_hiddenProvisioning : (hiddenProvisioning.powerDown 15).helperSlots = 8 := by decide +kernel

/-- Refutes O57: its step clause is over every register table. In one out of order, which `BlockInv` allows, PROVISIONING hides behind a
register of domain 15, and DOMAIN_POWER_DOWN brings it up with 8 slots programmed. The other clauses hold (`provision_exhausted`,
`sealComplete_readBack_failed`), and so does the bound where a slot is programmed (`sealComplete_keeps_slots_le`). -/
theorem not_helperSlotsAreExhausted : ¬ Obligations.helper_slots_are_exhausted := by
  unfold Obligations.helper_slots_are_exhausted
  intro h
  obtain ⟨-, hstep, -⟩ := h
  have hroom : hiddenProvisioning.sec.sealing = true ∨ hiddenProvisioning.secState = scPROVISIONING →
      hiddenProvisioning.helperSlots < 8 := by
    rw [secState_hiddenProvisioning]
    decide
  obtain ⟨-, hafter⟩ := hstep _ _ _ (show hiddenProvisioning.helperSlots ≤ 8 by decide) hroom exec_domainPowerDown_hiddenProvisioning
  exact absurd (hafter (.inr secState_powerDown_hiddenProvisioning)) (by rw [helperSlots_powerDown_hiddenProvisioning]; decide)

end Sys2Proof.Machine
end

section
/-! SUPPORT. Whether a transaction of the outstanding pool waits for its target (R353, R428), and the operations of a performed access that
leave that as it is. A theorem over several operations is named after what they share, or after its first and last. -/
namespace Sys2Proof.Machine

/-! ## The waiting transactions -/

/-- Some transaction of the pool waits for its target. -/
def Matrix.someWait (m : Matrix) : Bool := m.out.any (·.waits)

/-- Some outstanding transaction waits for its target. -/
def State.someWait (s : State) : Bool := s.mtx.someWait

theorem State.someWait_eq_false {s : State} : s.someWait = false ↔ s.noneWait := by
  simp [State.someWait, Matrix.someWait, State.noneWait]

theorem State.someWait_of_out {s u : State} (h : u.mtx.out = s.mtx.out) : u.someWait = s.someWait := congrArg (·.any (·.waits)) h

@[simp] theorem Matrix.someWait_mtx (s : State) : s.mtx.someWait = s.someWait := rfl

/-- An update of fields of the state: the pool is in its matrix. -/
@[simp] theorem State.someWait_mk (part serial now up regs mem sent free bell latch frameFlags skips evts evtLoss ing front chan schedule
    pit can ring dram outs corr aisle crown cal clk mel ptp pwr led thm otp sec cfg mtx flash por pmc shed deferred cores started ended
    pushed trigQ msixMask msixPend porTrig alertDirect pending) :
    (State.mk part serial now up regs mem sent free bell latch frameFlags skips evts evtLoss ing front chan schedule
      pit can ring dram outs corr aisle crown cal clk mel ptp pwr led thm otp sec cfg mtx flash por pmc shed deferred cores started ended
      pushed trigQ msixMask msixPend porTrig alertDirect pending).someWait = mtx.someWait := by
  rw [State.someWait]

/-! ## Conditions and repetitions -/

@[simp] theorem State.someWait_ite {c : Prop} {_ : Decidable c} (a b : State) :
    (if c then a else b).someWait = if c then a.someWait else b.someWait := apply_ite _ _ _ _

@[simp] theorem State.someWait_ite_snd {α : Type} {c : Prop} {_ : Decidable c} (a b : α × State) :
    (if c then a else b).2.someWait = if c then a.2.someWait else b.2.someWait := apply_ite (fun p : α × State => p.2.someWait) _ _ _

@[simp] theorem State.someWait_when (s : State) (c : Bool) {f : State → State} (h : (f s).someWait = s.someWait) :
    (s.when c f).someWait = s.someWait := by
  cases c
  · rfl
  · exact h

/-- A fold whose steps leave what waits in the state that `get` finds in what it carries. -/
theorem someWait_foldl_get {α β : Type} (get : β → State) {f : β → α → β} (l : List α) (b : β)
    (h : ∀ b x, (get (f b x)).someWait = (get b).someWait) : (get (l.foldl f b)).someWait = (get b).someWait :=
  List.foldlRecOn (motive := fun c => (get c).someWait = (get b).someWait) l f rfl fun c hc x _ => (h c x).trans hc

@[simp] theorem State.someWait_foldl {α : Type} (s : State) (l : List α) {f : State → α → State}
    (h : ∀ t x, (f t x).someWait = t.someWait) : (l.foldl f s).someWait = s.someWait := someWait_foldl_get id l s h

@[simp] theorem State.someWait_each {α : Type} (s : State) (l : List α) {f : State → α → State}
    (h : ∀ t x, (f t x).someWait = t.someWait) : (s.each l f).someWait = s.someWait := s.someWait_foldl l h

/-! ## The shared operations -/

@[simp] theorem State.someWait_of_registers (s : State) :
    (∀ r v, (s.setReg r v).someWait = s.someWait) ∧ (∀ r n, (s.setRegN r n).someWait = s.someWait) ∧
    (∀ f n, (s.setFld f n).someWait = s.someWait) ∧ (∀ f b, (s.setFlag f b).someWait = s.someWait) ∧
    (∀ r k, (s.bump r k).someWait = s.someWait) ∧ (∀ lo hi n, (s.setPair lo hi n).someWait = s.someWait) ∧
    (∀ b regs, (s.withLine b regs).someWait = s.someWait) ∧ (∀ f, (s.raise f).someWait = s.someWait) ∧
    (∀ c f, (s.raiseIf c f).someWait = s.someWait) ∧ (∀ b code k, (s.count b code k).someWait = s.someWait) :=
  ⟨fun _ _ => rfl, fun _ _ => rfl, fun _ _ => rfl, fun _ _ => rfl, fun _ _ => rfl, fun _ _ _ => rfl, fun _ _ => rfl, fun _ => rfl,
    fun c _ => by cases c <;> rfl, fun _ _ _ => rfl⟩

@[simp] theorem State.someWait_of_memory (s : State) :
    (∀ a l, (s.write a l).someWait = s.someWait) ∧ (∀ a n, (s.clear a n).someWait = s.someWait) ∧
    (∀ w, (s.fresh w).2.someWait = s.someWait) ∧ (∀ o, (s.emit o).someWait = s.someWait) :=
  ⟨fun _ _ => rfl, fun _ _ => rfl, fun _ => rfl, fun _ => rfl⟩

@[simp] theorem State.someWait_of_engines (s : State) :
    (∀ p c, (s.setPort p c).someWait = s.someWait) ∧ (∀ v l, (s.setVoq v l).someWait = s.someWait) ∧
    (∀ n l, (s.setLane n l).someWait = s.someWait) ∧ (∀ d, (s.setDram d).someWait = s.someWait) ∧
    (∀ o, (s.setOuts o).someWait = s.someWait) ∧ (∀ r, (s.setRing r).someWait = s.someWait) ∧
    (∀ c, (s.setCorr c).someWait = s.someWait) ∧ (∀ d x, (s.setDie d x).someWait = s.someWait) ∧
    (∀ a, (s.setAisle a).someWait = s.someWait) ∧ (∀ p x, (s.setSvcOut p x).someWait = s.someWait) ∧
    (∀ c, (s.setCrown c).someWait = s.someWait) ∧ (∀ n c, (s.setCore n c).someWait = s.someWait) ∧
    (∀ c, (s.setCal c).someWait = s.someWait) ∧ (∀ m, (s.setMel m).someWait = s.someWait) ∧
    (∀ p, (s.setPtp p).someWait = s.someWait) ∧ (∀ p, (s.setPwr p).someWait = s.someWait) ∧
    (∀ c p, (s.setPorter c p).someWait = s.someWait) ∧ (∀ l, (s.setLed l).someWait = s.someWait) ∧
    (∀ c, (s.setCfg c).someWait = s.someWait) ∧ (∀ b, (s.setBell b).someWait = s.someWait) ∧
    (∀ c, (s.setCan c).someWait = s.someWait) ∧ (∀ x, (s.setSec x).someWait = s.someWait) := by
  simp [State.setPort, State.setVoq, State.setLane, State.setDram, State.setOuts, State.setRing, State.setCorr, State.setDie,
    State.setAisle, State.setSvcOut, State.setCrown, State.setCore, State.setCal, State.setMel, State.setPtp, State.setPwr,
    State.setPorter, State.setLed, State.setCfg, State.setBell, State.setCan, State.setSec]

/-! ## Clocks -/

@[simp] theorem State.someWait_gateCmd (s : State) (v : Nat) (quiet : Bool) : (s.gateCmd v quiet).someWait = s.someWait := by
  simp [State.gateResult, State.gateRefuse, State.gateClose, State.gateOpen, State.gateCmd]

@[simp] theorem State.someWait_sourcesAndSwitches (s : State) :
    (∀ bit b, (s.setReady bit b).someWait = s.someWait) ∧ (∀ k v, (s.setTarget k v).someWait = s.someWait) ∧
    s.refsRun.someWait = s.someWait ∧ (∀ k v, (s.clockSource k v).someWait = s.someWait) := by
  simp [State.setReady, State.setTarget, State.setStopped, State.refsRun, State.clockSource]

@[simp] theorem State.someWait_abortSwitches (s : State) (lost : Nat → Nat → Bool) : (s.abortSwitches lost).someWait = s.someWait := by
  unfold State.abortSwitches
  refine s.someWait_each _ fun t k => ?_
  split <;> simp

@[simp] theorem State.someWait_pllCtrl_to_xtalStart (s : State) :
    (∀ k v, (s.pllCtrl k v).someWait = s.someWait) ∧ (∀ k v locked, (s.pllCfg k v locked).someWait = s.someWait) ∧
    s.xtalStart.someWait = s.someWait := by
  simp [State.fallback, State.pllOff, State.pllCtrl, State.pllCfg, State.xtalStart]

/-! ## Link and cascade -/

@[simp] theorem State.someWait_returnCredit (s : State) (v : Nat) (from? : Option Nat) :
    (s.returnCredit v from?).someWait = s.someWait := by
  unfold State.returnCredit
  split <;> rfl

@[simp] theorem State.someWait_dropQueued (s : State) (drop : VPkt → Bool) : (s.dropQueued drop).1.someWait = s.someWait := by
  unfold State.dropQueued
  refine someWait_foldl_get Prod.fst _ _ fun b q => ?_
  dsimp only
  split
  · rfl
  · simp

@[simp] theorem State.someWait_routeDrop (s : State) : s.routeDrop.someWait = s.someWait := by
  simp [State.routeDrop]

@[simp] theorem State.someWait_sendCast_to_portPower (s : State) :
    (∀ c, (s.sendCast c).someWait = s.someWait) ∧ (∀ p, (s.clearLink p).someWait = s.someWait) ∧
    (∀ p st, (s.portTo p st).someWait = s.someWait) ∧ (∀ p, (s.portFail p).someWait = s.someWait) ∧
    s.forgetLead.someWait = s.someWait ∧ (∀ p f, (s.mapLanes p f).someWait = s.someWait) ∧
    (∀ p, (s.portStart p).someWait = s.someWait) ∧ (∀ p, (s.portPower p).someWait = s.someWait) := by
  simp [State.queueCtl, State.sendCast, State.clearLink, State.portTo, State.portFail, State.forgetLead, State.noteLocked,
    State.mapLanes, State.portStart, State.portPower]

/-! ## Front, ingest and channel -/

@[simp] theorem State.someWait_front (s : State) :
    (∀ src tag, (s.trigger src tag).someWait = s.someWait) ∧ s.ncoArm.someWait = s.someWait ∧
    (∀ v, (s.polyCommit v).someWait = s.someWait) ∧ (∀ write v, (s.coefAccess write v).someWait = s.someWait) ∧
    (∀ v, (s.swapCmd v).someWait = s.someWait) := by
  simp [State.trigger, State.ncoArm, State.polyCommit, State.coefAccess, State.swapCmd]

@[simp] theorem State.someWait_ingest (s : State) :
    (∀ n, (s.lockLost n).someWait = s.someWait) ∧ (∀ n v, (s.laneCtrl n v).someWait = s.someWait) ∧
    (∀ g, (s.dcClear g).someWait = s.someWait) ∧ (∀ g v, (s.groupCtrl g v).someWait = s.someWait) := by
  simp [State.lockLost, State.readapt, State.adaptStop, State.lanePower, State.laneCtrl, State.dcClear, State.groupCtrl]

@[simp] theorem State.someWait_channel (s : State) :
    (∀ v, (s.fringeCommit v).someWait = s.someWait) ∧ (∀ v, (s.scaleCommit v).someWait = s.someWait) ∧
    s.windowCmd.someWait = s.someWait ∧ (∀ write v, (s.windowAccess write v).someWait = s.someWait) ∧
    (∀ write v, (s.scaleAccess write v).someWait = s.someWait) := by
  simp [State.fringeCommit, State.scaleCommit, State.windowCmd, State.windowAccess, State.scaleAccess]

/-! ## Dram -/

@[simp] theorem State.someWait_touch (s : State) (r a hint : Nat) : (s.touch r a hint).someWait = s.someWait := by
  simp [State.bufferCmd, State.refreshMgmt, State.manageFirst, State.openRow, State.touchRow, State.touch]

@[simp] theorem State.someWait_latchUE_to_misdirect (s : State) :
    (∀ a r half misdir, (s.latchUE a r half misdir).someWait = s.someWait) ∧ (∀ a r, (s.misdirect a r).someWait = s.someWait) := by
  simp [State.latchUE, State.misdirect]

@[simp] theorem State.someWait_checkHalf (s : State) (a r half : Nat) : (s.checkHalf a r half).2.someWait = s.someWait := by
  unfold State.checkHalf
  dsimp only
  split <;> simp [State.setErrs]

@[simp] theorem State.someWait_setTags_to_checkBurst (s : State) :
    (∀ a p, (s.setTags a p).someWait = s.someWait) ∧ (∀ a, (s.correctTag a).someWait = s.someWait) ∧
    (∀ a r, (s.checkBurst a r).2.someWait = s.someWait) := by
  simp [State.setTags, State.renewTags, State.correctTag, State.checkBurst]

@[simp] theorem State.someWait_dramReadHint (s : State) (r a n hint : Nat) :
    (s.dramReadHint r a n hint).2.2.someWait = s.someWait := by
  unfold State.dramReadHint
  exact someWait_foldl_get Prod.snd _ _ fun b k => by simp

@[simp] theorem State.someWait_writeBurst (s : State) (a r be : Nat) (data : List Byte) :
    (s.writeBurst a r be data).2.someWait = s.someWait := by
  simp [State.setErrs, State.mergeHalf, State.writeHalf, State.writeBurst]

@[simp] theorem State.someWait_dramWriteBe (s : State) (r a be : Nat) (l : List Byte) (hint : Nat) :
    (s.dramWriteBe r a be l hint).2.someWait = s.someWait := by
  unfold State.dramWriteBe
  exact someWait_foldl_get Prod.snd _ _ fun b k => by simp

@[simp] theorem State.someWait_panicCount_to_dramIssue (s : State) :
    s.panicCount.someWait = s.someWait ∧ (∀ q, (s.dramIssue q).someWait = s.someWait) := by
  simp [State.panicCount, State.rtDrain, State.dramIssue]

@[simp] theorem State.someWait_serveBank (s : State) (bank n : Nat) : (s.serveBank bank n).someWait = s.someWait := by
  induction n generalizing s with
  | zero => rfl
  | succ n ih =>
    unfold State.serveBank
    split
    · split
      · simp [ih]
      · rfl
    · rfl

@[simp] theorem State.someWait_dramZero_to_ueAddrPop (s : State) :
    (∀ keep, (s.dramZero keep).someWait = s.someWait) ∧ (∀ v, (s.dramEnable v).someWait = s.someWait) ∧
    (∀ failed, (s.dramRetrain failed).someWait = s.someWait) ∧ (s.ueAddrPop).2.someWait = s.someWait := by
  simp [State.serveQueue, State.dramZero, State.dramEnable, State.dramRetrain, State.ueAddrPop]

/-! ## Outputs -/

@[simp] theorem State.someWait_deal (s : State) (p : ProdPkt) : (s.deal p).someWait = s.someWait := by
  unfold State.deal
  split <;> simp

@[simp] theorem State.someWait_outputs (s : State) :
    (∀ p was, (s.portMoved p was).someWait = s.someWait) ∧ (∀ p v, (s.outPortCtrl p v).someWait = s.someWait) ∧
    (∀ v, (s.streamWrite v).someWait = s.someWait) ∧ (∀ v locked, (s.dumpFormat v locked).someWait = s.someWait) := by
  simp [State.redeal, State.portMoved, State.outPortCtrl, State.streamWrite, State.dumpFormat]

/-! ## Capture -/

@[simp] theorem State.someWait_postCapture_to_endReadout (s : State) :
    s.hostTrig.someWait = s.someWait ∧ (∀ v, (s.releaseRequest v).someWait = s.someWait) ∧
    (∀ r n event, (s.endReadout r n event).someWait = s.someWait) := by
  simp [State.postCapture, State.hostTrig, State.releaseRequest, State.endReadout]

@[simp] theorem State.someWait_abortReadout (s : State) : s.abortReadout.someWait = s.someWait := by
  unfold State.abortReadout
  split
  · split <;> simp
  · rfl

@[simp] theorem State.someWait_finishReadout (s : State) (n : Nat) : (s.finishReadout n).someWait = s.someWait := by
  unfold State.finishReadout
  split <;> simp

@[simp] theorem State.someWait_startReadout (s : State) (n : Nat) : (s.startReadout n).someWait = s.someWait := by
  unfold State.startReadout
  split <;> simp

@[simp] theorem State.someWait_readCmd (s : State) (v : Nat) : (s.readCmd v).someWait = s.someWait := by
  simp [State.readCmd]

/-! ## Correlator and aisles -/

@[simp] theorem State.someWait_latchDump (s : State) : s.latchDump.someWait = s.someWait := by
  unfold State.latchDump
  split <;> simp

@[simp] theorem State.someWait_showDirectory (s : State) : s.showDirectory.someWait = s.someWait := by
  simp [State.showDirectory]

@[simp] theorem State.someWait_beamAdd (s : State) (v : Nat) : (s.beamAdd v).someWait = s.someWait := by
  unfold State.beamAdd
  dsimp only
  simp [↓State.someWait_ite]

@[simp] theorem State.someWait_contextCommit_to_gainCommit (s : State) :
    (∀ v, (s.contextCommit v).someWait = s.someWait) ∧ (∀ v, (s.gainCommit v).someWait = s.someWait) := by
  simp [State.contextCommit, State.gainCommit]

/-! ## Clerks and calibration -/

@[simp] theorem State.someWait_stopCore_to_startCore (s : State) :
    (∀ n, (s.tryHalt n).someWait = s.someWait) ∧ (∀ core v, (s.doorbell core v).someWait = s.someWait) ∧
    (s.mdataRead).2.someWait = s.someWait ∧ (∀ n, (s.startCore n).someWait = s.someWait) := by
  simp [State.stopCore, State.tryHalt, State.eccCorrected, State.doorbell, State.mdataRead, State.startCore]

@[simp] theorem State.someWait_mdataWrite (s : State) (v : Nat) : (s.mdataWrite v).someWait = s.someWait := by
  unfold State.mdataWrite
  split <;> simp

@[simp] theorem State.someWait_coreCtrl (s : State) (n v : Nat) : (s.coreCtrl n v).someWait = s.someWait := by
  simp [State.coreCtrl]

@[simp] theorem State.someWait_calAbandon (s : State) : s.calAbandon.someWait = s.someWait := by
  simp [State.calAbandon]

/-! ## Matrix -/

@[simp] theorem State.someWait_errorTo (s : State) (m a : Nat) (write : Bool) : (s.errorTo m a write).someWait = s.someWait :=
  State.someWait_of_out (s.out_errorTo m a write)

@[simp] theorem State.someWait_countTxn (s : State) (m a n : Nat) : (s.countTxn m a n).someWait = s.someWait :=
  State.someWait_of_out (congrArg (·.mtx.out) (counted_countTxn s m a n).1)

@[simp] theorem State.someWait_errAddrRead (s : State) : (s.errAddrRead).2.someWait = s.someWait := rfl

@[simp] theorem State.someWait_tornWrite (s : State) (a be : Nat) (l : List Byte) : (s.tornWrite a be l).someWait = s.someWait := by
  induction l generalizing s a be with
  | nil => rfl
  | cons b l ih =>
    unfold State.tornWrite
    simp [ih]

@[simp] theorem State.someWait_drainStart (s : State) (m : Nat) : (s.drainStart m).someWait = s.someWait := by
  unfold State.drainStart
  refine (State.someWait_foldl _ _ fun t x => ?_).trans (by simp)
  split
  · split <;> simp
  · rfl

@[simp] theorem State.someWait_masterResets_to_pcieDown (s : State) :
    (∀ v, (s.masterResets v).someWait = s.someWait) ∧ s.pcieDown.someWait = s.someWait := by
  simp [State.masterResets, State.pcieDown]

/-! ## Melier -/

@[simp] theorem State.someWait_setMelState_to_unlock (s : State) :
    (∀ st, (s.setMelState st).someWait = s.someWait) ∧ (∀ r, (s.follow r).someWait = s.someWait) ∧
    s.unlock.someWait = s.someWait ∧ s.startHoldTimer.someWait = s.someWait := by
  simp [State.setMelState, State.follow, State.meanFreq, State.holdFreq, State.unlock, State.startHoldTimer]

@[simp] theorem State.someWait_holdOver (s : State) : s.holdOver.someWait = s.someWait := by
  unfold State.holdOver
  dsimp only
  split <;> simp

@[simp] theorem State.someWait_trimPairs_to_onceQualified (s : State) :
    s.trimPairs.someWait = s.someWait ∧ (∀ r, (s.onceQualified r).someWait = s.someWait) := by
  simp [State.trimPairs, State.onceQualified]

@[simp] theorem State.someWait_disqualify (s : State) (r cause : Nat) : (s.disqualify r cause).someWait = s.someWait := by
  simp [State.disqualify]

@[simp] theorem State.someWait_references (s : State) :
    s.refreshRanks.someWait = s.someWait ∧ s.refEnables.someWait = s.someWait := by
  simp [State.refreshRanks, State.refEnables]

@[simp] theorem State.someWait_plannedSwap_to_pairReset (s : State) :
    s.plannedSwap.someWait = s.someWait ∧ s.melResync.someWait = s.someWait ∧ s.pairReset.someWait = s.someWait := by
  simp [State.plannedSwap, State.melResync, State.pairReset]

@[simp] theorem State.someWait_melCtrl (s : State) (v : Nat) : (s.melCtrl v).someWait = s.someWait := by
  simp [State.forceHold, State.melCtrl]

/-! ## Pitch -/

@[simp] theorem State.someWait_pitch (s : State) :
    s.pitchRecall.someWait = s.someWait ∧ (∀ v, (s.pitchAssign v).someWait = s.someWait) := by
  simp [State.pitchRangeCheck, State.takePitch, State.pitchCall, State.pitchRecall, State.pitchAssign]

/-! ## Station time and the service ports -/

@[simp] theorem State.someWait_stationTime (s : State) :
    (∀ v, (s.timeSet v).someWait = s.someWait) ∧ s.tsetCancel.someWait = s.someWait ∧ (s.nowRead).2.someWait = s.someWait := by
  simp [State.loadTime, State.timeSet, State.tsetCancel, State.nowRead]

@[simp] theorem State.someWait_stampPop (s : State) : (s.stampPop).2.someWait = s.someWait := by
  unfold State.stampPop
  split <;> simp

@[simp] theorem State.someWait_svcLeave (s : State) (p : Nat) (l : List (List Byte)) : (s.svcLeave p l).someWait = s.someWait := by
  induction l generalizing s with
  | nil => simp [State.svcLeave]
  | cons f l ih => simp [State.svcLeave, State.svcBegin, ih]

@[simp] theorem State.someWait_svcDrain (s : State) (p : Nat) : (s.svcDrain p).someWait = s.someWait := s.someWait_svcLeave p _

@[simp] theorem State.someWait_slave (s : State) :
    s.slaveFaulty.someWait = s.someWait ∧ (∀ v, (s.slaveCtrl v).someWait = s.someWait) := by
  simp [State.slaveFaulty, State.slaveTo, State.slaveListen, State.slaveCtrl]

@[simp] theorem State.someWait_svcDown (s : State) (port : Nat) : (s.svcDown port).someWait = s.someWait := by
  simp [State.svcDown]

@[simp] theorem State.someWait_svcCtrl_to_cdCommit (s : State) :
    (∀ port v, (s.svcCtrl port v).someWait = s.someWait) ∧ (∀ v, (s.cdCommit v).someWait = s.someWait) := by
  simp [State.svcCtrl, State.cdCommit]

/-! ## Power -/

@[simp] theorem State.someWait_power (s : State) :
    (∀ d m v, (s.voteWrite d m v).someWait = s.someWait) ∧ (∀ d, (s.dropRegs d).someWait = s.someWait) ∧
    (∀ a n, (s.wipe a n).someWait = s.someWait) ∧ s.dramLose.someWait = s.someWait ∧
    (∀ d, (s.powerUp d).someWait = s.someWait) ∧ s.holdExit.someWait = s.someWait ∧ (∀ v, (s.pwrCtrl v).someWait = s.someWait) ∧
    (∀ v, (s.retBadClear v).someWait = s.someWait) := by
  simp [State.setPowerState, State.voteWrite, State.dropRegs, State.wipe, State.dramLose, State.powerUp, State.holdExit, State.pwrCtrl,
    State.retBadClear]

/-! ## Fabric -/

@[simp] theorem State.someWait_memRead (s : State) (m a n hint : Nat) : (s.memRead m a n hint).2.someWait = s.someWait := by
  unfold State.memRead
  split
  · rfl
  · split <;> simp [State.windowRead]

@[simp] theorem State.someWait_sramWrite (s : State) (a be : Nat) (l : List Byte) : (s.sramWrite a be l).someWait = s.someWait := by
  simp [State.sramWrite]

@[simp] theorem State.someWait_memWrite (s : State) (m a be : Nat) (l : List Byte) (hint : Nat) :
    (s.memWrite m a be l hint).2.someWait = s.someWait := by
  unfold State.memWrite
  split
  · rfl
  · split <;> simp

theorem State.someWait_of_memWrite {s u : State} {m a be : Nat} {l : List Byte} {hint : Nat} {ok : Bool}
    (h : s.memWrite m a be l hint = (ok, u)) : u.someWait = s.someWait :=
  (congrArg (·.2.someWait) h).symm.trans (s.someWait_memWrite m a be l hint)

@[simp] theorem State.someWait_ownRead (s : State) (m a n : Nat) : (s.ownRead m a n).2.someWait = s.someWait := by
  unfold State.ownRead
  refine someWait_foldl_get Prod.snd _ _ fun b c => ?_
  have hread := b.2.someWait_memRead m c.1 c.2 0
  generalize b.2.memRead m c.1 c.2 0 = p at hread
  obtain ⟨_ | l, t⟩ := p
  · simpa using hread
  · exact hread

@[simp] theorem State.someWait_ownWrite (s : State) (m a : Nat) (l : List Byte) : (s.ownWrite m a l).someWait = s.someWait := by
  unfold State.ownWrite
  refine s.someWait_each _ fun t c => ?_
  split
  next u hu => exact State.someWait_of_memWrite hu
  next u hu => exact (u.someWait_errorTo ..).trans (State.someWait_of_memWrite hu)

@[simp] theorem State.someWait_ledgerStore (s : State) (a : Nat) (l : List Byte) : (s.ledgerStore a l).someWait = s.someWait := by
  simp [State.dramWrite, State.ledgerStore]

@[simp] theorem State.someWait_porterStop (s : State) (c cause : Nat) : (s.porterStop c cause).someWait = s.someWait := by
  simp [State.porterStop]

@[simp] theorem State.someWait_porterLoad (s : State) (c a : Nat) (go : Bool) : (s.porterLoad c a go).someWait = s.someWait := by
  unfold State.porterLoad
  dsimp only
  split
  · simp
  · split <;> simp

@[simp] theorem State.someWait_porterCtrl (s : State) (c v : Nat) : (s.porterCtrl c v).someWait = s.someWait := by
  simp [State.porterCtrl]

/-! ## Ledger -/

@[simp] theorem State.someWait_ledger (s : State) :
    (∀ r v, (s.railCfg r v).someWait = s.someWait) ∧ (∀ v, (s.ledCtrl v).someWait = s.someWait) ∧
    s.meterEnd.someWait = s.someWait := by
  simp [State.setRail, State.railCfg, State.ledCtrl, State.meterEnd]

@[simp] theorem State.someWait_ledgerStart (s : State) : s.ledgerStart.someWait = s.someWait := by
  unfold State.ledgerStart
  dsimp only
  split <;> simp

@[simp] theorem State.someWait_ledgerClose (s : State) : s.ledgerClose.someWait = s.someWait := by
  unfold State.ledgerClose
  split <;> simp

/-! ## Images -/

@[simp] theorem State.someWait_loads (s : State) :
    (∀ k, (s.setLd k).someWait = s.someWait) ∧ (∀ result reason kind, (s.loadRes result reason kind).someWait = s.someWait) ∧
    (∀ reason kind, (s.refuseLoad reason kind).someWait = s.someWait) ∧ s.bootFail.someWait = s.someWait ∧
    s.bootLock.someWait = s.someWait := by
  simp [State.setLd, State.loadRes, State.refuseLoad, State.bootFail, State.bootLock]

@[simp] theorem State.someWait_afterReject (s : State) (j : LoadJob) : (s.afterReject j).someWait = s.someWait := by
  unfold State.afterReject
  dsimp only
  split
  · simp
  · split <;> simp

@[simp] theorem State.someWait_rejectLoad (s : State) (j : LoadJob) (reason : Nat) :
    (s.rejectLoad j reason).someWait = s.someWait := by
  simp [State.rejectLoad]

@[simp] theorem State.someWait_handOver (s : State) (n : Nat) : (s.handOver n).someWait = s.someWait := by
  unfold State.handOver
  split <;> simp

@[simp] theorem State.someWait_changes (s : State) :
    (∀ c, (s.setChange c).someWait = s.someWait) ∧
    (∀ st die takeover hold, (s.showPart st die takeover hold).someWait = s.someWait) ∧
    (∀ o n, (s.keepLayout o n).someWait = s.someWait) ∧ (∀ n, (s.reopenDie n).someWait = s.someWait) ∧
    (∀ c, (s.haltCores c).someWait = s.someWait) ∧ (∀ c, (s.restartCores c).someWait = s.someWait) ∧
    (∀ v, (s.castCtrl v).someWait = s.someWait) := by
  simp [State.setChange, State.showPart, State.keepLayout, State.reopenDie, State.haltCores, State.restartCores, State.castCtrl]

/-! ## Bell engine and canopy -/

@[simp] theorem State.someWait_setBellState_to_leaveStopped (s : State) :
    (∀ st, (s.setBellState st).someWait = s.someWait) ∧ s.leaveStopped.someWait = s.someWait := by
  simp [State.setBellState, State.leaveStopped]

@[simp] theorem State.someWait_startEngine (s : State) : s.startEngine.someWait = s.someWait := by
  simp [State.waitLead, State.startEngine]

@[simp] theorem State.someWait_t0Write (s : State) (which v : Nat) : (s.t0Write which v).someWait = s.someWait := by
  unfold State.t0Write
  split
  · rfl
  · split <;> simp

@[simp] theorem State.someWait_canopy (s : State) :
    (∀ p v, (s.portCtrl p v).someWait = s.someWait) ∧ (∀ p, (s.showDelay p).someWait = s.someWait) ∧
    (∀ pitch p, (s.notePark pitch p).someWait = s.someWait) := by
  simp [State.portCtrl, State.showDelay, State.notePark]

@[simp] theorem State.someWait_parkClear (s : State) : s.parkClear.someWait = s.someWait := by
  unfold State.parkClear
  dsimp only
  split <;> simp

/-! ## Security and thermal -/

@[simp] theorem State.someWait_nextSign (s : State) : s.nextSign.someWait = s.someWait := by
  unfold State.nextSign
  split
  · rfl
  · split <;> simp

@[simp] theorem State.someWait_security (s : State) :
    (∀ st, (s.setSecState st).someWait = s.someWait) ∧ (∀ a l, (s.flashStore a l).someWait = s.someWait) ∧
    (∀ code reason, (s.cmdRefuse code reason).someWait = s.someWait) ∧ (∀ code, (s.cmdDone code).someWait = s.someWait) ∧
    s.cmdProvision.someWait = s.someWait ∧ s.alarmPin.someWait = s.someWait ∧ (∀ v, (s.policyWrite v).someWait = s.someWait) := by
  simp [State.setSecState, State.flashStore, State.cmdResult, State.cmdRefuse, State.cmdDone, State.cmdProvision, State.alarmPin,
    State.policyWrite]

@[simp] theorem State.someWait_withBuf (s : State) (code n : Nat) {f : State → List Byte → State}
    (h : ∀ t l, (f t l).someWait = t.someWait) : (s.withBuf code n f).someWait = s.someWait := by
  have hread := s.someWait_ownRead 8 s.bufAddr n
  unfold State.withBuf
  generalize s.ownRead 8 s.bufAddr n = p at hread
  obtain ⟨_ | l, t⟩ := p
  · simpa using hread
  · simpa [h] using hread

@[simp] theorem State.someWait_cmdSetRoot_to_cmdEpoch (s : State) :
    s.cmdSetRoot.someWait = s.someWait ∧ (∀ slot, (s.cmdSetKey slot).someWait = s.someWait) ∧
    (∀ len, (s.cmdCert len).someWait = s.someWait) ∧ s.cmdSeal.someWait = s.someWait ∧ s.cmdAttest.someWait = s.someWait ∧
    (∀ v, (s.cmdEpoch v).someWait = s.someWait) := by
  simp [State.cmdResult, State.cmdSetRoot, State.cmdSetKey, State.cmdCert, State.cmdSeal, State.cmdAttest, State.cmdEpoch]

@[simp] theorem State.someWait_thermal (s : State) :
    (∀ v, (s.thmCtrl v).someWait = s.someWait) ∧ (∀ v, (s.tripAck v).someWait = s.someWait) := by
  simp [State.thmCtrl, State.tripAck]

/-! ## Bus -/

@[simp] theorem State.someWait_storeReg (s : State) (r : Reg) (v : Nat) (lk : Bool) : (s.storeReg r v lk).someWait = s.someWait :=
  State.someWait_of_out (congrArg Matrix.out (s.mtx_storeReg r v lk))

@[simp] theorem State.someWait_writes (s : State) :
    (∀ r v lk f ok, (s.storeKeep r v lk f ok).someWait = s.someWait) ∧
    (∀ r v lk inUse f, (s.storeUnless r v lk inUse f).someWait = s.someWait) ∧ (∀ v, (s.flashProgram v).someWait = s.someWait) ∧
    (∀ d v, (s.routeWrite d v).someWait = s.someWait) ∧ (∀ n v lk, (s.positionWrite n v lk).someWait = s.someWait) := by
  simp [State.storeKeep, State.storeUnless, State.flashProgram, State.routeWrite, State.restState, State.positionWrite]

@[simp] theorem State.someWait_flashCmd (s : State) (v : Nat) : (s.flashCmd v).someWait = s.someWait := by
  unfold State.flashCmd
  dsimp only
  split <;> rfl

@[simp] theorem State.someWait_reads (s : State) :
    (∀ b, (s.mailRead b).2.someWait = s.someWait) ∧ (s.flashWord).2.someWait = s.someWait ∧
    (∀ r base k, (s.latchRead r base k).2.someWait = s.someWait) ∧
    (∀ r base k rc, (s.clearRead r base k rc).2.someWait = s.someWait) := by
  simp [State.setMailbox, State.mailCompanions, State.mailRead, State.flashWord, State.latchRead, State.clearRead]

@[simp] theorem State.someWait_busRead (s : State) (r : Reg) : (s.busRead r).2.someWait = s.someWait := by
  unfold State.busRead
  split
  · rfl
  · simp

@[simp] theorem State.someWait_regRead (s : State) (r : Reg) : (s.regRead r).2.someWait = s.someWait := by
  simp [State.regRead]

@[simp] theorem State.someWait_grant (s : State) (m a : Nat) : (s.grant m a).someWait = s.someWait := rfl

end Sys2Proof.Machine
end

section
/-! SUPPORT. What a performed access leaves of an idle pool: the operations that fail or drop transactions (R359, R433) make none wait,
and so no access does. -/
namespace Sys2Proof.Machine

/-! ## Transactions that fail -/

/-- A fold whose steps make no transaction wait. -/
theorem State.someWait_foldl_of {α : Type} {s : State} (l : List α) {f : State → α → State}
    (hf : ∀ t x, t.someWait = false → (f t x).someWait = false) (hs : s.someWait = false) : (l.foldl f s).someWait = false :=
  List.foldlRecOn (motive := fun t : State => t.someWait = false) l f hs fun t ht x _ => hf t x ht

/-- A pool cut down to some of its transactions. -/
theorem State.someWait_setOut {s : State} {l : List Txn} (hl : l ⊆ s.mtx.out) (hs : s.someWait = false) :
    (s.setOut l).someWait = false := by
  rw [State.someWait_eq_false] at hs ⊢
  exact fun x hx => hs x (hl hx)

@[simp] theorem State.someWait_failOut {s : State} (sel : Txn → Bool) (hs : s.someWait = false) : (s.failOut sel).someWait = false :=
  (State.someWait_each _ _ fun t x => by simp).trans (State.someWait_setOut List.filter_sublist.subset hs)

/-! ## Power -/

/-- The trunk's power-down empties the pool. -/
@[simp] theorem State.someWait_trunkOff (s : State) : s.trunkOff.someWait = false := rfl

@[simp] theorem State.someWait_loseDomain {s : State} (d : Nat) (hs : s.someWait = false) : (s.loseDomain d).someWait = false := by
  simp [State.loseDomain, hs]

@[simp] theorem State.someWait_powerDown {s : State} (d : Nat) (hs : s.someWait = false) : (s.powerDown d).someWait = false := by
  simp [State.powerDown, hs]

/-! ## Images -/

@[simp] theorem State.someWait_reloadDie_to_closeDie {s : State} (hs : s.someWait = false) :
    (∀ c, (s.reloadDie c).someWait = false) ∧ (∀ c, (s.closeDie c).someWait = false) := by
  simp [State.reloadDie, State.closeDie, hs]

@[simp] theorem State.someWait_changeOn {s : State} (hs : s.someWait = false) : s.changeOn.someWait = false := by
  unfold State.changeOn
  split <;> simp [hs]

@[simp] theorem State.someWait_changeStep {s : State} (hs : s.someWait = false) : s.changeStep.someWait = false := by
  unfold State.changeStep
  split <;> simp [hs]

@[simp] theorem State.someWait_changeNow_to_loadCmd {s : State} (hs : s.someWait = false) :
    s.changeNow.someWait = false ∧ (∀ v, (s.loadCmd v).someWait = false) := by
  simp [State.changeNow, State.beginChange, State.loadCmd, hs]

@[simp] theorem State.someWait_openDie {s : State} (v : Nat) (hs : s.someWait = false) : (s.openDie v).someWait = false := by
  unfold State.openDie
  split <;> simp [hs]

/-! ## Bell engine and canopy -/

@[simp] theorem State.someWait_enterStopped {s : State} (hs : s.someWait = false) : s.enterStopped.someWait = false := by
  unfold State.enterStopped
  dsimp only
  split <;> simp [hs]

@[simp] theorem State.someWait_clearRun {s : State} (hs : s.someWait = false) : s.clearRun.someWait = false := by
  unfold State.clearRun
  simp [↓State.someWait_ite, State.bellStopped, hs]

@[simp] theorem State.someWait_runWrite {s : State} (v : Nat) (hs : s.someWait = false) : (s.runWrite v).someWait = false := by
  simp [State.runWrite, hs]

@[simp] theorem State.someWait_pitCtrl {s : State} (v : Nat) (hs : s.someWait = false) : (s.pitCtrl v).someWait = false := by
  simp [State.parkNow, State.parkSet, State.pitCtrl, hs]

/-! ## Security -/

@[simp] theorem State.someWait_enterLockout {s : State} (hs : s.someWait = false) : s.enterLockout.someWait = false := by
  unfold State.enterLockout
  exact State.someWait_foldl_of _ (fun t d ht => by simp [ht]) (by simp [↓State.someWait_ite, hs])

@[simp] theorem State.someWait_erase {s : State} (hs : s.someWait = false) : s.erase.someWait = false := by
  unfold State.erase
  dsimp only
  split <;> simp [hs]

@[simp] theorem State.someWait_secRun {s : State} (code arg : Nat) (hs : s.someWait = false) : (s.secRun code arg).someWait = false := by
  unfold State.secRun
  split
  · simp [hs]
  · split <;> simp [State.cmdErase, hs]

@[simp] theorem State.someWait_secCmd {s : State} (v : Nat) (hs : s.someWait = false) : (s.secCmd v).someWait = false := by
  simp [State.secCmd, hs]

/-! ## Writes with an effect of their own -/

/-- Nothing waits in the state that a write's effect leaves, where it has one. -/
def IdleAfter (o : Option State) : Prop := ∀ u ∈ o, u.someWait = false

@[simp] theorem idleAfter_none : IdleAfter none := by simp [IdleAfter]

@[simp] theorem idleAfter_some (s : State) : IdleAfter (some s) ↔ s.someWait = false := by simp [IdleAfter]

@[simp] theorem idleAfter_ite {c : Prop} {_ : Decidable c} (a b : Option State) :
    IdleAfter (if c then a else b) ↔ if c then IdleAfter a else IdleAfter b := by split <;> rfl

theorem idleAfter_writeFront {s : State} (base k v : Nat) (lk : Bool) (hs : s.someWait = false) :
    IdleAfter (s.writeFront base k v lk) := by
  simp [State.writeFront, hs]

theorem idleAfter_writeData {s : State} (base k v : Nat) (lk : Bool) (hs : s.someWait = false) :
    IdleAfter (s.writeData base k v lk) := by
  simp [State.writeData, hs]

theorem idleAfter_writeCtl {s : State} (m base k v : Nat) (lk : Bool) (hs : s.someWait = false) :
    IdleAfter (s.writeCtl m base k v lk) := by
  simp [State.writeCtl, hs]

/-! ## Accesses -/

@[simp] theorem State.someWait_busWrite {s : State} (m r v : Nat) (lk : Bool) (hs : s.someWait = false) :
    (s.busWrite m r v lk).someWait = false := by
  unfold State.busWrite
  split
  · exact hs
  next row k hrow =>
    dsimp only
    split
    next u hu => exact idleAfter_writeFront _ k v lk hs u hu
    · split
      next u hu => exact idleAfter_writeData _ k v lk hs u hu
      · split
        next u hu => exact idleAfter_writeCtl m _ k v lk hs u hu
        · simp [hs]

@[simp] theorem State.someWait_regWrite {s : State} (m r v : Nat) (hs : s.someWait = false) :
    (s.regWrite m r v).2.someWait = false := by
  simp [State.regWrite, hs]

@[simp] theorem State.someWait_performChunk {s : State} (m : Nat) (write : Bool) (a n be : Nat) (l : List Byte) (hint : Nat)
    (hs : s.someWait = false) : (s.performChunk m write a n be l hint).2.someWait = false := by
  simp [State.performChunk, hs]

/-- A transaction that its targets perform makes none of the pool wait. -/
theorem State.someWait_perform {s : State} (m : Nat) (write : Bool) (a n be : Nat) (l : List Byte) (hint : Nat)
    (hs : s.someWait = false) : (s.perform m write a n be l hint).2.someWait = false := by
  unfold State.perform
  split
  · exact hs
  · refine List.foldlRecOn (motive := fun p : Option (List Byte) × State => p.2.someWait = false) _ _ hs fun p hp c _ => ?_
    simp [hp]

end Sys2Proof.Machine
end

section
/-! SUPPORT. Timeouts and the error latch of R429, settled. -/
namespace Sys2Proof.Machine

/-! ## The latch -/

/-- The first error response since ERR_ADDR_LO was read latches its address and its master. -/
theorem State.latchErr_of_none {s : State} (m a : Nat) (w : Bool) (h : s.mtx.err = none) :
    s.latchErr m a w =
      ((s.setMtx { s.mtx with err := some (a, m, w) }).setRegN MTX.ERR_ADDR_LO (a % 2 ^ 32)).raise MTX.STAT_ERR_RESP := by
  unfold State.latchErr
  rw [h]

/-- A later one leaves the latch. -/
theorem State.latchErr_of_some {s : State} (m a : Nat) (w : Bool) {x : Nat × Nat × Bool} (h : s.mtx.err = some x) :
    s.latchErr m a w = s := by
  unfold State.latchErr
  rw [h]

/-- Beyond the latch, an error response writes the PCIe endpoint's STAT at most: the matrix and every other register stay. -/
theorem State.mtx_errorTo (s : State) (m a : Nat) (w : Bool) : (s.errorTo m a w).mtx = (s.latchErr m a w).mtx := by
  unfold State.errorTo
  dsimp only
  split <;> rfl

theorem State.reg_errorTo (s : State) (m a : Nat) (w : Bool) {r : Reg} (hp : r ≠ PCI.STAT_WR_ERR.reg) (hc : r / 65536 ≠ 29) :
    (s.errorTo m a w).reg r = (s.latchErr m a w).reg r := by
  unfold State.errorTo
  dsimp only
  split
  · cases w <;> exact State.reg_raise_ne _ _ (by decide) hp hc
  · rfl

theorem State.flag_errorTo (s : State) (m a : Nat) (w : Bool) {f : Fld} (hp : f.reg ≠ PCI.STAT_WR_ERR.reg) (hc : f.reg / 65536 ≠ 29) :
    (s.errorTo m a w).flag f = (s.latchErr m a w).flag f := congrArg (fun x : Word => x.toNat.testBit f.lo) (s.reg_errorTo m a w hp hc)

theorem State.latch_errorTo_of_none {s : State} (m a : Nat) (w : Bool) (h : s.mtx.err = none) :
    (s.errorTo m a w).mtx.err = some (a, m, w) ∧ (s.errorTo m a w).regN MTX.ERR_ADDR_LO = a % 2 ^ 32 ∧
      (s.errorTo m a w).flag MTX.STAT_ERR_RESP = true := by
  refine ⟨?_, ?_, ?_⟩
  · rw [State.mtx_errorTo, State.latchErr_of_none m a w h]
    rfl
  · unfold State.regN
    rw [State.reg_errorTo _ _ _ _ (by decide) (by decide), State.latchErr_of_none m a w h,
      State.reg_raise_ne _ _ (by decide) (by decide) (by decide)]
    exact State.regN_setRegN _ _ (Nat.mod_lt _ (by decide))
  · rw [State.flag_errorTo _ _ _ _ (by decide) (by decide), State.latchErr_of_none m a w h]
    exact State.flag_raise _ _ (by decide) (by decide) (by decide)

theorem State.latch_errorTo_of_some {s : State} (m a : Nat) (w : Bool) {x : Nat × Nat × Bool} (h : s.mtx.err = some x) :
    (s.errorTo m a w).mtx = s.mtx ∧ (s.errorTo m a w).reg MTX.ERR_ADDR_LO = s.reg MTX.ERR_ADDR_LO := by
  rw [State.mtx_errorTo, State.reg_errorTo _ _ _ _ (by decide) (by decide), State.latchErr_of_some m a w h]
  exact ⟨rfl, rfl⟩

/-- An event raised before the response stays raised: the latch sets bits of the matrix's STAT and clears none. -/
theorem State.statTmo_errorTo {s : State} (m a : Nat) (w : Bool) (h : s.flag MTX.STAT_TMO = true) :
    (s.errorTo m a w).flag MTX.STAT_TMO = true := by
  rw [State.flag_errorTo _ _ _ _ (by decide) (by decide)]
  unfold State.latchErr
  split
  · exact h
  · exact (State.raise_stat_sticky (b := 27) _ (by decide) rfl (by decide)).2 2 ((State.flag_setReg_ne _ _ (by decide)).trans h)

/-! ## Timeouts -/

/-- The state in which transaction k, timed out at time t, has left the pool, performed by its target or not. -/
def State.timedOut (s : State) (k : Nat) (x : Txn) (performed : Bool) (t : Nat) : State :=
  let s1 := (s.at t).setOut (s.mtx.out.eraseIdx k)
  if performed then (s1.perform x.master x.write x.addr x.len x.be x.data 0).2 else s1

theorem State.noneWait_timedOut {s : State} (k : Nat) (x : Txn) (performed : Bool) (t : Nat) (hn : s.noneWait) :
    (s.timedOut k x performed t).noneWait := by
  have hpool : ((s.at t).setOut (s.mtx.out.eraseIdx k)).someWait = false :=
    State.someWait_setOut (s := s.at t) (List.eraseIdx_sublist ..).subset (State.someWait_eq_false.mpr hn)
  unfold State.timedOut
  cases performed
  · exact State.someWait_eq_false.mp hpool
  · exact State.someWait_eq_false.mp (State.someWait_perform _ _ _ _ _ _ _ hpool)

/-- A timeout raises TMO and answers an error response; the response lets nothing go, as nothing waits. -/
theorem exec_targetTimeout {s : State} {k t : Nat} {x : Txn} (performed : Bool) (hn : s.noneWait) (hx : s.mtx.out[k]? = some x)
    (ht : x.issuedAt + s.timeout ≤ (s.at t).up) :
    exec (.targetTimeout k performed t) s =
      .next (((s.timedOut k x performed t).raise MTX.STAT_TMO).errorTo x.master x.addr x.write) := by
  have hidle : (((s.timedOut k x performed t).raise MTX.STAT_TMO).errorTo x.master x.addr x.write).noneWait :=
    State.noneWait_of_out (State.noneWait_timedOut k x performed t hn) (State.out_errorTo ..)
  show execTargetTimeout k performed t s = _
  unfold execTargetTimeout
  dsimp only
  rw [State.mtx_at, hx]
  dsimp only
  rw [decide_eq_true (p := x.issuedAt + (s.at t).timeout ≤ (s.at t).up) ht]
  exact congrArg Host.Outcome.next (State.retryOut_of_noneWait hidle)

/-- Settles O58: the timeout's state is `exec_targetTimeout`'s, in which nothing waits even where the target performed the transaction
(`State.someWait_perform`), and the latch is as `State.latch_errorTo_of_none` and `State.latch_errorTo_of_some` say. -/
theorem timeoutsAndErrorLatch : Obligations.timeouts_and_error_latch := by
  unfold Obligations.timeouts_and_error_latch
  refine ⟨fun k x t s hn hx ht performed => ?_, fun k x t s hn hx ht => ?_, fun s m a w => State.latch_errorTo_of_none m a w,
    fun s m a w x => State.latch_errorTo_of_some m a w, fun m s => ⟨_, rfl, rfl, rfl⟩⟩
  · exact ⟨_, exec_targetTimeout performed hn hx ht,
      State.statTmo_errorTo _ _ _ (State.flag_raise _ _ (by decide) (by decide) (by decide)), State.errResp_mem_sent_errorTo ..⟩
  · exact ⟨_, exec_targetTimeout false hn hx ht, State.out_errorTo ..⟩

end Sys2Proof.Machine
end

section
/-! SUPPORT. What every command keeps: the queue, the part, the serial number, the one-time-programmable store and the block's invariant, as
one value of the state, and what the shared operations leave of it. -/
namespace Sys2Proof.Machine

/-! ## The value -/

/-- What the commands of the block keep of a state: `inv` is its invariant, or else whatever stands in for it. -/
structure Kept where
  pending : List Instr
  part : Part
  serial : Nat
  otp : Otp
  inv : Prop

/-- What is kept of s. With B true the invariant is not asked for: then the other four are kept in every state. -/
def State.kept (B : Prop) (s : State) : Kept :=
  { pending := s.pending, part := s.part, serial := s.serial, otp := s.otp, inv := B ∨ BlockInv s }

variable {B : Prop}

theorem State.kept_of_inv {s u : State} (hq : u.pending = s.pending) (hp : u.part = s.part) (hs : u.serial = s.serial)
    (ho : u.otp = s.otp) (h : (s.kept B).inv) (hi : BlockInv s → BlockInv u) : u.kept B = s.kept B := by
  have hinv : (B ∨ BlockInv u) = (B ∨ BlockInv s) := propext ⟨fun _ => h, fun h => h.imp id hi⟩
  unfold State.kept
  rw [hq, hp, hs, ho, hinv]

theorem State.inv_of_kept {s u : State} (hu : u.kept B = s.kept B) (h : (s.kept B).inv) : (u.kept B).inv := hu.symm ▸ h

/-- An update of fields of the state that leaves the stores' canonical form and the number of units of each kind. -/
@[simp] theorem State.kept_mk {t : State} {now up regs mem sent free bell latch frameFlags skips evts evtLoss ing front chan schedule
    pit can ring dram outs corr aisle crown cal clk mel ptp pwr led thm sec cfg mtx flash por pmc shed deferred cores started ended
    pushed trigQ msixMask msixPend porTrig alertDirect}
    (hmem : Memory.wf mem = Memory.wf t.mem)
    (hing : ing.lanes.length = t.ing.lanes.length ∧ ing.groups.length = t.ing.groups.length)
    (hfront : front.ins.length = t.front.ins.length ∧ Store.wf 0 front.coef = Store.wf 0 t.front.coef)
    (hchan : Store.wf 0 chan.win = Store.wf 0 t.chan.win ∧ Store.wf 0 chan.scales = Store.wf 0 t.chan.scales)
    (hcan : can.ports.length = t.can.ports.length ∧ can.lanes.length = t.can.lanes.length)
    (hring : ring.slots.length = t.ring.slots.length ∧ ring.recs.length = t.ring.recs.length)
    (hcorr : corr.dies.length = t.corr.dies.length) (haisle : Store.wf 0 aisle.nin = Store.wf 0 t.aisle.nin)
    (hled : led.rails.length = t.led.rails.length) (hthm : thm.length = t.thm.length) (hpor : por.length = t.por.length)
    (hcores : cores.length = t.cores.length) (hptp : ptp.pd.length = t.ptp.pd.length ∧ ptp.egress.length = t.ptp.egress.length)
    (hpwr : pwr.attempts.length = t.pwr.attempts.length) :
    (State.mk t.part t.serial now up regs mem sent free bell latch frameFlags skips evts evtLoss ing front chan schedule
      pit can ring dram outs corr aisle crown cal clk mel ptp pwr led thm t.otp sec cfg mtx flash por pmc shed deferred cores started ended
      pushed trigQ msixMask msixPend porTrig alertDirect t.pending).kept B = t.kept B := by
  obtain ⟨hlanes, hgroups⟩ := hing
  obtain ⟨hins, hcoef⟩ := hfront
  obtain ⟨hwin, hscales⟩ := hchan
  obtain ⟨hports, hclanes⟩ := hcan
  obtain ⟨hslots, hrecs⟩ := hring
  obtain ⟨hpd, hegress⟩ := hptp
  simp only [State.kept, BlockInv, Shape, hmem, hlanes, hgroups, hins, hcoef, hwin, hscales, hports, hclanes, hslots, hrecs, hcorr, haisle,
    hled, hthm, hpor, hcores, hpd, hegress, hpwr]

/-! ## The shared operations -/

theorem length_cores_deliver (mask : Nat) (host : List Trigger) (e : Edges) (d : Nat) :
    (Edges.deliver mask host e d).cores.length = e.cores.length := by
  unfold Edges.deliver
  split
  · split <;> rfl
  · split
    · simp
    · split <;> rfl

theorem State.length_cores_edgesOf (s : State) (regs : Store Word) (src : Nat) : (s.edgesOf regs src).cores.length = s.cores.length :=
  List.foldlRecOn (motive := fun e : Edges => e.cores.length = s.cores.length) _ _ rfl
    fun e he d _ => (length_cores_deliver _ _ e d).trans he

@[simp] theorem State.kept_pulse (s : State) (src : Nat) : (s.pulse src).kept B = s.kept B :=
  State.kept_mk rfl ⟨rfl, rfl⟩ ⟨rfl, rfl⟩ ⟨rfl, rfl⟩ ⟨rfl, rfl⟩ ⟨rfl, rfl⟩ rfl rfl rfl rfl rfl (s.length_cores_edgesOf ..) ⟨rfl, rfl⟩ rfl

@[simp] theorem State.kept_withLine (s : State) (b : Nat) (regs : Store Word) : (s.withLine b regs).kept B = s.kept B := by
  refine State.kept_mk rfl ⟨rfl, rfl⟩ ⟨rfl, rfl⟩ ⟨rfl, rfl⟩ ⟨rfl, rfl⟩ ⟨rfl, rfl⟩ rfl rfl rfl rfl rfl ?_ ⟨rfl, rfl⟩ rfl
  split
  · exact s.length_cores_edgesOf ..
  · rfl

@[simp] theorem State.kept_raise (s : State) (f : Fld) : (s.raise f).kept B = s.kept B := s.kept_withLine ..

@[simp] theorem State.kept_raiseIf (s : State) (c : Bool) (f : Fld) : (s.raiseIf c f).kept B = s.kept B := by
  cases c
  · rfl
  · exact s.kept_raise f

/-- The updates of registers, of time, of free values and of what leaves the device. -/
@[simp] theorem State.kept_setReg_to_emitAll (s : State) :
    (∀ r v, (s.setReg r v).kept B = s.kept B) ∧ (∀ r n, (s.setRegN r n).kept B = s.kept B) ∧ (∀ f n, (s.setFld f n).kept B = s.kept B) ∧
    (∀ f b, (s.setFlag f b).kept B = s.kept B) ∧ (∀ r k, (s.bump r k).kept B = s.kept B) ∧
    (∀ lo hi n, (s.setPair lo hi n).kept B = s.kept B) ∧ (∀ b code k, (s.count b code k).kept B = s.kept B) ∧
    (∀ t, (s.at t).kept B = s.kept B) ∧ (∀ w, (s.fresh w).2.kept B = s.kept B) ∧ (∀ o, (s.emit o).kept B = s.kept B) ∧
    (∀ l, (s.emitAll l).kept B = s.kept B) :=
  ⟨fun _ _ => rfl, fun _ _ => rfl, fun _ _ => rfl, fun _ _ => rfl, fun _ _ => rfl, fun _ _ _ => rfl, fun _ _ _ => rfl, fun _ => rfl,
    fun _ => rfl, fun _ => rfl, fun _ => rfl⟩

theorem State.kept_setReg (s : State) (r : Reg) (v : Word) : (s.setReg r v).kept B = s.kept B := s.kept_setReg_to_emitAll.1 r v

theorem State.kept_setFld (s : State) (f : Fld) (n : Nat) : (s.setFld f n).kept B = s.kept B := s.kept_setReg_to_emitAll.2.2.1 f n

/-- The updates of memory keep its canonical form. -/
theorem State.kept_setMem {s : State} {m : List Host.Cell} (h : (s.kept B).inv) (hm : Memory.wf s.mem = true → Memory.wf m = true) :
    ({ s with mem := m } : State).kept B = s.kept B := by
  refine State.kept_of_inv rfl rfl rfl rfl h fun hi => ?_
  obtain ⟨hmem, hrest⟩ := hi
  exact ⟨hm hmem, hrest⟩

/-- The updates of the coefficient stores of the front filters, and of the window and scale stores of the channeliser. -/
theorem State.kept_setFront {s : State} {x : Front} (h : (s.kept B).inv) (hins : x.ins.length = s.front.ins.length)
    (hcoef : Store.wf 0 s.front.coef = true → Store.wf 0 x.coef = true) : ({ s with front := x } : State).kept B = s.kept B := by
  refine State.kept_of_inv rfl rfl rfl rfl h fun hi => ?_
  obtain ⟨hmem, hc, hwin, hscales, hnin, hlanes, hgroups, hi, hrest⟩ := hi
  exact ⟨hmem, hcoef hc, hwin, hscales, hnin, hlanes, hgroups, hins.trans hi, hrest⟩

theorem State.kept_setChan {s : State} {x : Channelizer} (h : (s.kept B).inv)
    (hwin : Store.wf 0 s.chan.win = true → Store.wf 0 x.win = true)
    (hscales : Store.wf 0 s.chan.scales = true → Store.wf 0 x.scales = true) : ({ s with chan := x } : State).kept B = s.kept B := by
  refine State.kept_of_inv rfl rfl rfl rfl h fun hi => ?_
  obtain ⟨hmem, hcoef, hw, hs, hrest⟩ := hi
  exact ⟨hmem, hcoef, hwin hw, hscales hs, hrest⟩

@[simp] theorem State.kept_memory {s : State} (h : (s.kept B).inv) :
    (∀ a l, (s.write a l).kept B = s.kept B) ∧ (∀ a n v, (s.writeN a n v).kept B = s.kept B) ∧
    (∀ a n, (s.clear a n).kept B = s.kept B) :=
  ⟨fun a l => State.kept_setMem h (s.write_wf a l), fun a n v => State.kept_setMem h (s.writeN_wf a n v),
    fun a n => State.kept_setMem h (s.clear_wf a n)⟩

/-! ## Conditions and repetitions -/

@[simp] theorem State.kept_ite {c : Prop} {_ : Decidable c} (a b : State) :
    (if c then a else b).kept B = if c then a.kept B else b.kept B := apply_ite _ _ _ _

@[simp] theorem State.kept_ite_fst {α : Type} {c : Prop} {_ : Decidable c} (a b : State × α) :
    (if c then a else b).1.kept B = if c then a.1.kept B else b.1.kept B := apply_ite (fun x : State × α => x.1.kept B) _ _ _

@[simp] theorem State.kept_ite_snd {α : Type} {c : Prop} {_ : Decidable c} (a b : α × State) :
    (if c then a else b).2.kept B = if c then a.2.kept B else b.2.kept B := apply_ite (fun x : α × State => x.2.kept B) _ _ _

@[simp] theorem State.kept_when (s : State) (c : Bool) {f : State → State} (h : (f s).kept B = s.kept B) :
    (s.when c f).kept B = s.kept B := by
  cases c
  · rfl
  · exact h

/-- A fold whose steps keep the state that `get` finds in what it carries. -/
theorem kept_foldl_get {α β : Type} (get : β → State) {f : β → α → β} (l : List α) (b : β)
    (h : ∀ b, ∀ x ∈ l, (get (f b x)).kept B = (get b).kept B) : (get (l.foldl f b)).kept B = (get b).kept B := by
  induction l generalizing b with
  | nil => rfl
  | cons x l ih =>
    exact (ih (f b x) fun b y hy => h b y (List.mem_cons_of_mem _ hy)).trans (h b x List.mem_cons_self)

/-- A fold whose steps keep the state that `get` finds where it meets the invariant, as it does before. -/
theorem kept_foldl_get_of {α β : Type} (get : β → State) {f : β → α → β} (l : List α) (b : β) (hb : ((get b).kept B).inv)
    (h : ∀ b, ((get b).kept B).inv → ∀ x ∈ l, (get (f b x)).kept B = (get b).kept B) : (get (l.foldl f b)).kept B = (get b).kept B := by
  induction l generalizing b with
  | nil => rfl
  | cons x l ih =>
    have h1 := h b hb x List.mem_cons_self
    exact (ih (f b x) (h1 ▸ hb) fun b hb y hy => h b hb y (List.mem_cons_of_mem _ hy)).trans h1

@[simp] theorem State.kept_foldl {α : Type} (s : State) (l : List α) {f : State → α → State}
    (h : ∀ t x, (f t x).kept B = t.kept B) : (l.foldl f s).kept B = s.kept B := kept_foldl_get id l s fun t x _ => h t x

@[simp] theorem State.kept_each {α : Type} (s : State) (l : List α) {f : State → α → State}
    (h : ∀ t x, (f t x).kept B = t.kept B) : (s.each l f).kept B = s.kept B := s.kept_foldl l h

theorem State.kept_each_of {α : Type} {s : State} (l : List α) {f : State → α → State} (hs : (s.kept B).inv)
    (h : ∀ t x, (t.kept B).inv → (f t x).kept B = t.kept B) : (s.each l f).kept B = s.kept B :=
  kept_foldl_get_of id l s hs fun t ht x _ => h t x ht

/-! ## What is one-time programmable -/

/-- u's store holds what s's holds, or more: a helper slot may have lost its kill fuse. -/
structure Otp.Grows (s u : Otp) : Prop where
  epoch : s.epoch ≤ u.epoch
  log : s.log.length ≤ u.log.length
  count : s.helpers.length ≤ u.helpers.length
  helpers : ∀ (n : Nat) (h : Helper), s.helpers[n]? = some h → ∃ k : Helper, u.helpers[n]? = some k ∧ k.blob = h.blob ∧ k.keys = h.keys ∧
    (h.killed = true → k.killed = true)

theorem Otp.Grows.refl (s : Otp) : s.Grows s := ⟨le_rfl, le_rfl, le_rfl, fun _ h hn => ⟨h, hn, rfl, rfl, id⟩⟩

theorem Otp.Grows.trans {a b c : Otp} (h : a.Grows b) (k : b.Grows c) : a.Grows c := by
  refine ⟨h.epoch.trans k.epoch, h.log.trans k.log, h.count.trans k.count, fun n x hx => ?_⟩
  obtain ⟨y, hy, hblob, hkeys, hkill⟩ := h.helpers n x hx
  obtain ⟨z, hz, kblob, kkeys, kkill⟩ := k.helpers n y hy
  exact ⟨z, hz, kblob.trans hblob, kkeys.trans hkeys, kkill ∘ hkill⟩

/-- a becomes b: the queue, the part and the serial number stay, what is one-time programmable only grows, and the invariant holds. -/
structure Kept.Evolves (a b : Kept) : Prop where
  pending : b.pending = a.pending
  part : b.part = a.part
  serial : b.serial = a.serial
  otp : a.otp.Grows b.otp
  inv : b.inv

theorem Kept.Evolves.refl {a : Kept} (h : a.inv) : a.Evolves a := ⟨rfl, rfl, rfl, .refl _, h⟩

theorem Kept.Evolves.trans {a b c : Kept} (h : a.Evolves b) (k : b.Evolves c) : a.Evolves c :=
  ⟨k.pending.trans h.pending, k.part.trans h.part, k.serial.trans h.serial, h.otp.trans k.otp, k.inv⟩

@[simp] theorem Kept.evolves_ite {a b k : Kept} {c : Prop} {_ : Decidable c} :
    k.Evolves (if c then a else b) ↔ (c → k.Evolves a) ∧ (¬c → k.Evolves b) := by
  split <;> simp_all

@[simp] theorem Kept.inv_ite {a b : Kept} {c : Prop} {_ : Decidable c} : (if c then a else b).inv ↔ (c → a.inv) ∧ (¬c → b.inv) := by
  split <;> simp_all

/-- An update of the one-time-programmable store that only adds to it. -/
theorem State.evolves_setOtp {s : State} {o : Otp} (h : (s.kept B).inv) (ho : s.otp.Grows o) :
    (s.kept B).Evolves (({ s with otp := o } : State).kept B) := ⟨rfl, rfl, rfl, ho, h⟩

theorem State.evolves_each {α : Type} {g : Kept} (s : State) (l : List α) {f : State → α → State}
    (hf : ∀ t x, g.Evolves (t.kept B) → g.Evolves ((f t x).kept B)) (hs : g.Evolves (s.kept B)) : g.Evolves ((s.each l f).kept B) :=
  List.foldlRecOn (motive := fun t : State => g.Evolves (t.kept B)) l f hs fun t ht x _ => hf t x ht

/-! ## Commands -/

/-- What the outcome o of a command makes of a state of which k is kept. -/
def Keeps (B : Prop) (k : Kept) (o : Out3) : Prop := ∀ u, o = .next u → k.Evolves (u.kept B)

@[simp] theorem keeps_done (k : Kept) (t : State) : Keeps B k (done t) ↔ k.Evolves (t.kept B) :=
  ⟨fun h => h t rfl, fun h u hu => by cases hu; exact h⟩

@[simp] theorem keeps_doneIf (k : Kept) (t : State) (c : Bool) (f : State → State) :
    Keeps B k (doneIf t c f) ↔ k.Evolves (if c then (f t).kept B else t.kept B) := by
  cases c
  · exact keeps_done k t
  · exact keeps_done k (f t)

theorem Keeps.doneIf {k : Kept} {s t : State} {c : Bool} {f : State → State} (hs : k.Evolves (s.kept B)) (ht : t.kept B = s.kept B)
    (hf : (f t).kept B = t.kept B) : Keeps B k (Machine.doneIf t c f) := by
  rw [keeps_doneIf, hf, ht, ite_self]
  exact hs

theorem Keeps.of_doneIf {k : Kept} {t : State} {c : Bool} {f : State → State} (ht : k.Evolves (t.kept B))
    (hf : k.Evolves (t.kept B) → k.Evolves ((f t).kept B)) : Keeps B k (Machine.doneIf t c f) := by
  rw [keeps_doneIf]
  split
  · exact hf ht
  · exact ht

theorem Keeps.evolves_resultState {o : Out3} {k : Kept} {s : State} (ho : Keeps B k o) (hs : k.Evolves (s.kept B)) :
    k.Evolves ((resultState o s).kept B) := by
  cases o with
  | next u => exact ho u rfl
  | fault _ => exact hs
  | refused _ => exact hs

end Sys2Proof.Machine
end

section
/-! SUPPORT. What the operations and commands keep, in the order of the model: those of the registers, the signal path, the clerks, the
references and the clocks. -/
namespace Sys2Proof.Machine

variable {B : Prop}

/-! ## Clocks -/

@[simp] theorem State.kept_gateTree (s : State) :
    (∀ g quiet, (s.gateClose g quiet).kept B = s.kept B) ∧ (∀ g, (s.gateOpen g).kept B = s.kept B) ∧
    (∀ v quiet, (s.gateCmd v quiet).kept B = s.kept B) ∧ (∀ g, (s.gateClosed g).kept B = s.kept B) ∧
    (∀ g, (s.gateTimeout g).kept B = s.kept B) := by
  simp [State.gateResult, State.gateRefuse, State.gateClose, State.gateOpen, State.gateCmd, State.gateClosed, State.gateTimeout]

@[simp] theorem State.kept_sourcesAndSwitches (s : State) :
    (∀ bit b, (s.setReady bit b).kept B = s.kept B) ∧ (∀ k v, (s.setTarget k v).kept B = s.kept B) ∧
    (∀ sel b, (s.setStopped sel b).kept B = s.kept B) ∧ s.refsRun.kept B = s.kept B ∧
    (∀ k v, (s.clockSource k v).kept B = s.kept B) ∧ (∀ k t forced, (s.switchEnd k t forced).kept B = s.kept B) := by
  simp [State.setReady, State.setTarget, State.setStopped, State.refsRun, State.clockSource, State.switchEnd]

@[simp] theorem State.kept_abortSwitches (s : State) (lost : Nat → Nat → Bool) : (s.abortSwitches lost).kept B = s.kept B := by
  unfold State.abortSwitches
  refine s.kept_each _ fun t k => ?_
  split <;> simp

@[simp] theorem State.kept_pllOff (s : State) (k : Nat) : (s.pllOff k).kept B = s.kept B := by
  simp [State.fallback, State.pllOff]

@[simp] theorem State.kept_plls (s : State) :
    (∀ k v, (s.pllCtrl k v).kept B = s.kept B) ∧ (∀ k v locked, (s.pllCfg k v locked).kept B = s.kept B) ∧
    (∀ k, (s.pllLocks k).kept B = s.kept B) := by
  simp [State.pllCtrl, State.pllCfg, State.pllLocks]

@[simp] theorem State.kept_crystal (s : State) :
    s.xtalStart.kept B = s.kept B ∧ s.xtalStable.kept B = s.kept B := by
  simp [State.xtalStart, State.xtalStable]

@[simp] theorem keeps_clocksCommands {K : Kept} {s : State} (hs : K.Evolves (s.kept B)) :
    (∀ k v, Keeps B K (execClockSourceWrite k v s)) ∧ (∀ k v, Keeps B K (execPllEnable k v s)) ∧
    (∀ k ctrl v, Keeps B K (execPllConfigWrite k ctrl v s)) ∧ (∀ k, Keeps B K (execPllUnlock k s)) ∧
    (∀ v, Keeps B K (execXtalRestart v s)) ∧ Keeps B K (execXtalFail s) ∧ Keeps B K (execXtalLost s) := by
  simp [execClockSourceWrite, execPllEnable, execPllConfigWrite, execPllUnlock, execXtalRestart, execXtalFail, execXtalLost, hs]

/-! ## Link -/

@[simp] theorem State.kept_setPort (s : State) (p : Nat) (c : CanPort) : (s.setPort p c).kept B = s.kept B := by
  simp [State.setPort]

@[simp] theorem State.kept_returnCredit (s : State) (v : Nat) (from? : Option Nat) : (s.returnCredit v from?).kept B = s.kept B := by
  unfold State.returnCredit
  split <;> simp

@[simp] theorem State.kept_virtualOutputQueuesAndCredits (s : State) :
    (∀ v l, (s.setVoq v l).kept B = s.kept B) ∧ (∀ p from?, (s.enqueue p from?).kept B = s.kept B) := by
  simp [State.setVoq, State.notePeak, State.enqueue]

@[simp] theorem State.kept_dropQueued (s : State) (drop : VPkt → Bool) : (s.dropQueued drop).1.kept B = s.kept B := by
  unfold State.dropQueued
  refine kept_foldl_get Prod.fst _ _ fun b q _ => ?_
  dsimp only
  split
  · rfl
  · simp

@[simp] theorem State.kept_routeDrop (s : State) : s.routeDrop.kept B = s.kept B := by
  simp [State.routeDrop]

@[simp] theorem State.kept_sendingControlPackets (s : State) :
    (∀ p b, (s.queueCtl p b).kept B = s.kept B) ∧ (∀ p k, (s.sendNumbered p k).kept B = s.kept B) ∧
    (∀ p, (s.sendHelloNow p).kept B = s.kept B) ∧ (∀ c, (s.sendCast c).kept B = s.kept B) := by
  simp [State.queueCtl, State.sendNumbered, State.sendHelloNow, State.sendCast]

@[simp] theorem State.kept_portState (s : State) :
    (∀ p, (s.clearLink p).kept B = s.kept B) ∧ (∀ p st, (s.portTo p st).kept B = s.kept B) ∧
    (∀ p, (s.portFail p).kept B = s.kept B) ∧ s.forgetLead.kept B = s.kept B := by
  simp [State.clearLink, State.portTo, State.portFail, State.forgetLead]

/-! ## Cascade -/

@[simp] theorem State.kept_lanesOfPort (s : State) :
    (∀ p f, (s.mapLanes p f).kept B = s.kept B) ∧ (∀ n l, (s.setCanLane n l).kept B = s.kept B) ∧
    (∀ n hdr payload, (s.canBlock n hdr payload).kept B = s.kept B) ∧ (∀ n, (s.canCdrLock n).kept B = s.kept B) ∧
    (∀ p, (s.portStart p).kept B = s.kept B) ∧ (∀ p, (s.portPower p).kept B = s.kept B) := by
  simp [State.noteLocked, State.mapLanes, State.setCanLane, State.canBlock, State.canCdrLock, State.portStart, State.portPower]

/-! ## Frame -/

@[simp] theorem State.kept_flagFrame (s : State) (f k : Nat) : (s.flagFrame f k).kept B = s.kept B := by
  simp [State.flagFrame]

@[simp] theorem State.kept_trigger (s : State) (src tag : Nat) : (s.trigger src tag).kept B = s.kept B := by
  simp [State.trigger]

/-! ## Front -/

@[simp] theorem State.kept_setInput (s : State) (i : Nat) (x : FrontIn) : (s.setInput i x).kept B = s.kept B := by
  simp [State.setInput]

@[simp] theorem State.kept_noteSat (s : State) (b : Bool) : (s.noteSat b).kept B = s.kept B := by
  simp [State.noteSat]

@[simp] theorem State.kept_chainSample (s : State) (g i k : Nat) (x : Option Int) (frozen : Bool) :
    (s.chainSample g i k x frozen).kept B = s.kept B := by
  unfold State.chainSample
  cases x <;> dsimp only <;> split <;> simp

@[simp] theorem State.kept_ncoApply (s : State) (k : Nat) : (s.ncoApply k).kept B = s.kept B := by
  simp [State.ncoApply]

@[simp] theorem State.kept_ncoDue (s : State) (k : Nat) : (s.ncoDue k).kept B = s.kept B := by
  unfold State.ncoDue
  split <;> simp

@[simp] theorem State.kept_ncoArm (s : State) : s.ncoArm.kept B = s.kept B := by
  simp [State.ncoArm]

@[simp] theorem State.kept_resampleInput (s : State) (g n i : Nat) : (s.resampleInput g n i).kept B = s.kept B := by
  simp [State.resampleInput]

@[simp] theorem State.kept_positionPolynomials (s : State) :
    (∀ f, (s.polyChange f).kept B = s.kept B) ∧ (∀ v, (s.polyCommit v).kept B = s.kept B) := by
  simp [State.polyChange, State.polyCommit]

@[simp] theorem State.kept_resampleAll (s : State) (n : Nat) : (s.resampleAll n).kept B = s.kept B := by
  simp [State.resampleAll]

@[simp] theorem State.kept_swapCmd (s : State) (v : Nat) : (s.swapCmd v).kept B = s.kept B := by
  simp [State.swapCmd]

@[simp] theorem State.kept_coefAccess {s : State} (write : Bool) (v : Nat) (h : (s.kept B).inv) :
    (s.coefAccess write v).kept B = s.kept B := by
  have hset : ∀ k, ({ s with front := { s.front with coef := Store.set 0 s.front.coef k (v % 2 ^ 18) } } : State).kept B = s.kept B :=
    fun k => State.kept_setFront h rfl (Store.wf_set 0 _ k _)
  unfold State.coefAccess
  split
  refine (State.kept_setFld ..).trans ?_
  split
  · rw [State.kept_ite, State.kept_ite, hset]
    simp
  · rfl

@[simp] theorem State.kept_thresholdEvents (s : State) :
    (∀ i e, (s.flagWindow i e).kept B = s.kept B) ∧ (∀ e, (s.pushEvent e).kept B = s.kept B) := by
  simp [State.flagWindow, State.pushEvent]

@[simp] theorem State.kept_decideEvent (s : State) (i : Nat) (e : ThrEvent) : (s.decideEvent i e).kept B = s.kept B := by
  unfold State.decideEvent
  split <;> simp

@[simp] theorem State.kept_eventEntry (s : State) (i : Nat) (e : ThrEvent) : (s.eventEntry i e).kept B = s.kept B := by
  simp [State.eventEntry]

@[simp] theorem keeps_execBankSwapDone (g : Nat) {K : Kept} {s : State} (hs : K.Evolves (s.kept B)) : Keeps B K (execBankSwapDone g s) := by
  unfold execBankSwapDone
  split <;> simp [hs]

@[simp] theorem keeps_execThresholdEvent (i : Nat) {K : Kept} {s : State} (hs : K.Evolves (s.kept B)) :
    Keeps B K (execThresholdEvent i s) := by
  unfold execThresholdEvent
  dsimp only
  split <;> simp [hs]

@[simp] theorem keeps_frontCommands {K : Kept} {s : State} (hs : K.Evolves (s.kept B)) :
    (∀ t, Keeps B K (execNcoArm t s)) ∧ (∀ k, Keeps B K (execNcoPhaseReset k s)) ∧
    (∀ f, Keeps B K (execPolyPageChange f s)) ∧ (∀ f, Keeps B K (execPolyExpired f s)) ∧
    (∀ v t, Keeps B K (execPolyCommit v t s)) ∧ (∀ n, Keeps B K (execResamplerOutput n s)) ∧
    (∀ v, Keeps B K (execBankSwapCmd v s)) := by
  simp [execNcoArm, execNcoPhaseReset, execPolyPageChange, execPolyExpired, execPolyCommit, execResamplerOutput, execBankSwapCmd, hs]

/-! ## Ingest -/

@[simp] theorem State.kept_setLane (s : State) (n : Nat) (l : IngLane) : (s.setLane n l).kept B = s.kept B := by
  simp [State.setLane]

@[simp] theorem State.kept_sendLane (s : State) (n kind : Nat) (body : List Byte) : (s.sendLane n kind body).kept B = s.kept B := by
  unfold State.sendLane
  extract_lets l
  split
  rename_i p h s1 hp
  have h1 : s1.kept B = s.kept B := by
    split at hp
    · split at hp <;> (injection hp with _ hs; rw [← hs]); simp
    · injection hp with _ hs
      rw [← hs]; simp
  simp [h1]

@[simp] theorem State.kept_laneControl (s : State) (n : Nat) (b : List Byte) : (s.laneControl n b).kept B = s.kept B := by
  unfold State.laneControl
  dsimp only
  split
  · simp
  · split <;> simp

@[simp] theorem State.kept_laneData (s : State) (n : Nat) (b : List Byte) : (s.laneData n b).kept B = s.kept B := by
  unfold State.laneData
  split <;> simp

@[simp] theorem State.kept_lanes (s : State) :
    (∀ n, (s.lockGained n).kept B = s.kept B) ∧ (∀ n, (s.lockLost n).kept B = s.kept B) ∧
    (∀ n valid, (s.huntHeader n valid).kept B = s.kept B) ∧ (∀ n valid, (s.lockedHeader n valid).kept B = s.kept B) := by
  simp [State.lockGained, State.lockLost, State.huntHeader, State.lockedHeader]

@[simp] theorem State.kept_laneBlock (s : State) (n hdr payload : Nat) : (s.laneBlock n hdr payload).kept B = s.kept B := by
  unfold State.laneBlock
  generalize s.descramble n payload = p
  obtain ⟨x, h⟩ := p
  simp

@[simp] theorem State.kept_readapt_to_laneCtrl (s : State) :
    (∀ n, (s.readapt n).kept B = s.kept B) ∧ (∀ n v, (s.laneCtrl n v).kept B = s.kept B) := by
  simp [State.readapt, State.adaptStop, State.lanePower, State.laneCtrl]

@[simp] theorem State.kept_groupsAndSampleFrames (s : State) :
    (∀ g x, (s.setGrp g x).kept B = s.kept B) ∧ (∀ g, (s.dcClear g).kept B = s.kept B) ∧
    (∀ g v, (s.groupCtrl g v).kept B = s.kept B) ∧ (∀ g l, (s.sampleFrame g l).kept B = s.kept B) ∧
    (∀ g, (s.forgetFrames g).kept B = s.kept B) := by
  simp [State.setGrp, State.dcClear, State.groupCtrl, State.sampleFrame, State.forgetFrames]

@[simp] theorem State.kept_releaseGroup (s : State) (k g : Nat) : (s.releaseGroup k g).kept B = s.kept B := by
  simp [State.releaseGroup]

@[simp] theorem State.kept_release (s : State) (k : Nat) : (s.release k).kept B = s.kept B := by
  simp [State.release]

@[simp] theorem keeps_execLaneCdrLock (n t : Nat) {K : Kept} {s : State} (hs : K.Evolves (s.kept B)) :
    Keeps B K (execLaneCdrLock n t s) := by
  unfold execLaneCdrLock
  split <;> simp [hs]

@[simp] theorem keeps_execLaneBlockRx (n hdr payload : Nat) {K : Kept} {s : State} (hs : K.Evolves (s.kept B)) :
    Keeps B K (execLaneBlockRx n hdr payload s) := by
  unfold execLaneBlockRx
  split <;> simp [hs]

@[simp] theorem keeps_execLockGained (n : Nat) {K : Kept} {s : State} (hs : K.Evolves (s.kept B)) : Keeps B K (execLockGained n s) := by
  unfold execLockGained
  split <;> simp [hs]

@[simp] theorem keeps_execLockLoss (n : Nat) {K : Kept} {s : State} (hs : K.Evolves (s.kept B)) : Keeps B K (execLockLoss n s) := by
  unfold execLockLoss
  split <;> simp [hs]

@[simp] theorem keeps_execAdaptationDone (n peak t : Nat) {K : Kept} {s : State} (hs : K.Evolves (s.kept B)) :
    Keeps B K (execAdaptationDone n peak t s) := by
  unfold execAdaptationDone
  split <;> simp [hs]

@[simp] theorem keeps_ingestCommands {K : Kept} {s : State} (hs : K.Evolves (s.kept B)) :
    (∀ n, Keeps B K (execReadapt n s)) ∧ (∀ n v, Keeps B K (execLanePowerWrite n v s)) ∧
    (∀ g v, Keeps B K (execGroupEnable g v s)) ∧ (∀ g, Keeps B K (execDcClear g s)) ∧
    (∀ g t lanes, Keeps B K (execSampleFrameRx g t lanes s)) ∧ (∀ k, Keeps B K (execSampleRelease k s)) ∧
    (∀ g te t, Keeps B K (execEpochMessageTx g te t s)) ∧ (∀ g t, Keeps B K (execAckMessageTx g t s)) := by
  simp [execReadapt, execLanePowerWrite, execGroupEnable, execDcClear, execSampleFrameRx, execSampleRelease, execEpochMessageTx,
    execAckMessageTx, hs]

/-! ## Channel -/

@[simp] theorem State.kept_spectrumOf (s : State) (i m : Nat) : (s.spectrumOf i m).2.kept B = s.kept B := by
  simp [State.spectrumOf]

@[simp] theorem State.kept_takeCell (s : State) (c m0 : Nat) : (s.takeCell c m0).kept B = s.kept B := by
  simp [State.takeCell]

@[simp] theorem State.kept_fillChannel (s : State) (m c owner : Nat) (samples : List Byte) :
    (s.fillChannel m c owner samples).kept B = s.kept B := by
  unfold State.fillChannel
  dsimp only
  split <;> simp

@[simp] theorem State.kept_scaleChange (s : State) (f : Nat) : (s.scaleChange f).kept B = s.kept B := by
  unfold State.scaleChange
  split <;> simp

@[simp] theorem State.kept_banksPagesAndSpectra (s : State) :
    s.windowSwap.kept B = s.kept B ∧ (∀ f, (s.fringeChange f).kept B = s.kept B) := by
  simp [State.windowSwap, State.fringeChange]

@[simp] theorem State.kept_spectrum (s : State) (m : Nat) : (s.spectrum m).kept B = s.kept B := by
  unfold State.spectrum
  dsimp only
  have hspec : ∀ t : State, ∀ l : List Nat, (l.foldl (fun (a : List (List (List Byte)) × State) i =>
    (a.1 ++ [(a.2.spectrumOf i m).1], (a.2.spectrumOf i m).2)) ([], t)).2.kept B = t.kept B :=
    fun t l => kept_foldl_get Prod.snd l _ fun b i _ => by simp
  simp [hspec]

@[simp] theorem State.kept_fringeCommit_to_windowCmd (s : State) :
    (∀ v, (s.fringeCommit v).kept B = s.kept B) ∧ (∀ v, (s.scaleCommit v).kept B = s.kept B) ∧ s.windowCmd.kept B = s.kept B := by
  simp [State.fringeCommit, State.scaleCommit, State.windowCmd]

@[simp] theorem State.kept_windowAccess {s : State} (write : Bool) (v : Nat) (h : (s.kept B).inv) :
    (s.windowAccess write v).kept B = s.kept B := by
  unfold State.windowAccess
  dsimp only
  rw [State.kept_setFld]
  split
  · split
    · simp
    · split
      · exact State.kept_setChan h (Store.wf_set 0 _ _ _) id
      · rfl
  · simp

@[simp] theorem State.kept_scaleAccess {s : State} (write : Bool) (v : Nat) (h : (s.kept B).inv) :
    (s.scaleAccess write v).kept B = s.kept B := by
  unfold State.scaleAccess
  dsimp only
  rw [State.kept_setFld]
  split
  · split
    · simp
    · split
      · exact State.kept_setChan h id (Store.wf_set 0 _ _ _)
      · rfl
  · simp

@[simp] theorem keeps_channelCommands {K : Kept} {s : State} (hs : K.Evolves (s.kept B)) :
    (∀ m, Keeps B K (execWindowSwap m s)) ∧ (∀ f, Keeps B K (execFringePageChange f s)) ∧
    (∀ f, Keeps B K (execFringeExpired f s)) ∧ (∀ f, Keeps B K (execScaleBankChange f s)) ∧
    (∀ m, Keeps B K (execSpectrumComplete m s)) ∧ (∀ v t, Keeps B K (execFringeCommit v t s)) ∧
    (∀ v t, Keeps B K (execScaleCommit v t s)) ∧ (∀ t, Keeps B K (execWindowSwapCmd t s)) := by
  simp [execWindowSwap, execFringePageChange, execFringeExpired, execScaleBankChange, execSpectrumComplete, execFringeCommit,
    execScaleCommit, execWindowSwapCmd, hs]

/-! ## Dram -/

@[simp] theorem State.kept_setDram (s : State) (d : Dram) : (s.setDram d).kept B = s.kept B := by
  simp [State.setDram]

@[simp] theorem State.kept_rowsAndActivations (s : State) :
    (∀ c, (s.bufferCmd c).kept B = s.kept B) ∧ (∀ bank, (s.refreshMgmt bank).kept B = s.kept B) ∧
    (∀ r bank row hint, (s.openRow r bank row hint).kept B = s.kept B) ∧ (∀ r a hint, (s.touch r a hint).kept B = s.kept B) := by
  simp [State.bufferCmd, State.refreshMgmt, State.manageFirst, State.openRow, State.touchRow, State.touch]

@[simp] theorem State.kept_checkedBursts (s : State) :
    (∀ a r half misdir, (s.latchUE a r half misdir).kept B = s.kept B) ∧ (∀ a r, (s.misdirect a r).kept B = s.kept B) ∧
    (∀ e, (s.setErrs e).kept B = s.kept B) := by
  simp [State.latchUE, State.misdirect, State.setErrs]

@[simp] theorem State.kept_checkHalf (s : State) (a r half : Nat) : (s.checkHalf a r half).2.kept B = s.kept B := by
  unfold State.checkHalf
  dsimp only
  split <;> simp

@[simp] theorem State.kept_setTags_to_checkBurst (s : State) :
    (∀ a p, (s.setTags a p).kept B = s.kept B) ∧ (∀ a, (s.correctTag a).kept B = s.kept B) ∧
    (∀ a r, (s.checkBurst a r).2.kept B = s.kept B) := by
  simp [State.setTags, State.renewTags, State.correctTag, State.checkBurst]

@[simp] theorem State.kept_dramReadHint (s : State) (r a n hint : Nat) : (s.dramReadHint r a n hint).2.2.kept B = s.kept B := by
  unfold State.dramReadHint
  exact kept_foldl_get Prod.snd _ _ fun b k _ => by simp

@[simp] theorem State.kept_afterRead (r : List Byte × List Nat × State) : (State.afterRead r).kept B = r.2.2.kept B := by
  rw [State.afterRead]

@[simp] theorem State.kept_afterWrite (r : Bool × State) : (State.afterWrite r).kept B = r.2.kept B := by
  rw [State.afterWrite]

@[simp] theorem State.kept_dramRead (s : State) (r a n : Nat) : (s.dramRead r a n).2.2.kept B = s.kept B := by
  simp [State.dramRead]

@[simp] theorem State.kept_mergeHalf {s : State} (k be : Nat) (data : List Byte) (h : (s.kept B).inv) :
    (s.mergeHalf k be data).kept B = s.kept B := State.kept_each_of _ h fun t i ht => by simp [ht]

@[simp] theorem State.kept_writeHalf {s : State} (a r half be : Nat) (mis : Bool) (data : List Byte) (h : (s.kept B).inv) :
    (s.writeHalf a r half be mis data).2.kept B = s.kept B := by
  unfold State.writeHalf
  dsimp only
  split
  · rfl
  · split
    · simp [h]
    · split <;> simp [h]

@[simp] theorem State.kept_writeBurst {s : State} (a r be : Nat) (data : List Byte) (h : (s.kept B).inv) :
    (s.writeBurst a r be data).2.kept B = s.kept B := by
  unfold State.writeBurst
  split
  · rfl
  · extract_lets reads mis s0
    have h0 : s0.kept B = s.kept B := by
      unfold s0
      simp
    simp [h0, h]

@[simp] theorem State.kept_dramWriteBe {s : State} (r a be : Nat) (l : List Byte) (hint : Nat) (h : (s.kept B).inv) :
    (s.dramWriteBe r a be l hint).2.kept B = s.kept B := by
  unfold State.dramWriteBe
  exact kept_foldl_get_of Prod.snd _ _ h fun b hb k _ => by simp [hb]

@[simp] theorem State.kept_dramWrite {s : State} (r a : Nat) (l : List Byte) (h : (s.kept B).inv) :
    (s.dramWrite r a l).2.kept B = s.kept B := by
  simp [State.dramWrite, h]

@[simp] theorem State.kept_clearDram {s : State} (a n : Nat) (h : (s.kept B).inv) : (s.clearDram a n).kept B = s.kept B := by
  unfold State.clearDram
  exact (State.kept_setDram _ _).trans (State.kept_setMem h (Store.wf_filter 0#8 s.mem _))

@[simp] theorem State.kept_panicCount_to_rtFillUp (s : State) :
    s.panicCount.kept B = s.kept B ∧ (∀ n, (s.rtFillUp n).kept B = s.kept B) := by
  simp [State.panicCount, State.rtFillUp]

@[simp] theorem State.kept_rtDrain (s : State) (n : Nat) : (s.rtDrain n).kept B = s.kept B := by
  simp [State.rtDrain]

@[simp] theorem State.kept_dramIssue {s : State} (q : DramReq) (h : (s.kept B).inv) : (s.dramIssue q).kept B = s.kept B := by
  simp [State.dramIssue, h]

@[simp] theorem State.kept_serveBank {s : State} (bank n : Nat) (h : (s.kept B).inv) : (s.serveBank bank n).kept B = s.kept B := by
  induction n generalizing s with
  | zero => rfl
  | succ n ih =>
    unfold State.serveBank
    split
    next k _ =>
      split
      next q _ =>
        have hq : ((s.setDram { s.dram with queue := s.dram.queue.eraseIdx k }).dramIssue q).kept B = s.kept B := by simp [h]
        exact (ih (State.inv_of_kept hq h)).trans hq
      · rfl
    · rfl

@[simp] theorem State.kept_serveQueue {s : State} (h : (s.kept B).inv) : s.serveQueue.kept B = s.kept B := by
  unfold State.serveQueue
  split
  · exact State.kept_each_of _ h fun t b ht => by simp [ht]
  · rfl

@[simp] theorem State.kept_dramRequest {s : State} (q : DramReq) (h : (s.kept B).inv) : (s.dramRequest q).kept B = s.kept B := by
  unfold State.dramRequest
  extract_lets d s1 s2
  have h1 : s1.kept B = s.kept B := by simp [s1]
  have h2 : s2.kept B = s.kept B := (State.kept_serveBank _ _ (State.inv_of_kept h1 h)).trans h1
  have h3 : s2.serveQueue.kept B = s.kept B := (State.kept_serveQueue (State.inv_of_kept h2 h)).trans h2
  simp [h1, h2, h3]

@[simp] theorem State.kept_ageQueue (s : State) : s.ageQueue.kept B = s.kept B := by
  simp [State.ageQueue]

@[simp] theorem State.kept_rhCross (s : State) (bank : Nat) : (s.rhCross bank).kept B = s.kept B := by
  unfold State.rhCross
  dsimp only
  split
  · simp
  · split <;> simp

@[simp] theorem State.kept_refreshBanks (s : State) (bank : Nat) : (s.refreshBanks bank).kept B = s.kept B := by
  simp [State.refreshBanks]

@[simp] theorem State.kept_replayCmd (s : State) (c : DramCmd) : (s.replayCmd c).kept B = s.kept B := by
  unfold State.replayCmd
  split <;> simp

@[simp] theorem State.kept_parityReplay (s : State) (ch sc n : Nat) : (s.parityReplay ch sc n).kept B = s.kept B := by
  simp [State.parityReplay]

@[simp] theorem State.kept_dramZero {s : State} (keep : Nat → Bool) (h : (s.kept B).inv) : (s.dramZero keep).kept B = s.kept B := by
  unfold State.dramZero
  exact (State.kept_setMem (s := s.setDram _) (by simpa using h) (Store.wf_filter 0#8 s.mem _)).trans (s.kept_setDram _)

@[simp] theorem State.kept_dramEnable {s : State} (v : Nat) (h : (s.kept B).inv) : (s.dramEnable v).kept B = s.kept B := by
  simp [State.dramEnable, h]

@[simp] theorem State.kept_bootStaging {s : State} (kept : Nat → Bool) (h : (s.kept B).inv) : (s.bootStaging kept).kept B = s.kept B := by
  unfold State.bootStaging
  dsimp only
  split
  · simp
  · split <;> simp [h]

@[simp] theorem State.kept_dramTrained {s : State} (failed : Nat) (h : (s.kept B).inv) : (s.dramTrained failed).kept B = s.kept B := by
  unfold State.dramTrained
  extract_lets f d s1 keep s2
  have h1 : s1.kept B = s.kept B := by simp [s1]
  have h2 : s2.kept B = s.kept B := by simp [s2, h1, h]
  have h3 : (s2.bootStaging keep).kept B = s.kept B := (State.kept_bootStaging _ (State.inv_of_kept h2 h)).trans h2
  have h4 : (s2.bootStaging keep).serveQueue.kept B = s.kept B := (State.kept_serveQueue (State.inv_of_kept h3 h)).trans h3
  simp [h1, h4]

@[simp] theorem State.kept_dramRetrain {s : State} (failed : Nat) (h : (s.kept B).inv) : (s.dramRetrain failed).kept B = s.kept B := by
  simp [State.dramRetrain, h]

@[simp] theorem State.kept_ueAddrPop (s : State) : (s.ueAddrPop).2.kept B = s.kept B := by
  simp [State.ueAddrPop]

@[simp] theorem keeps_execRowCloseTimer (bank t : Nat) {K : Kept} {s : State} (hs : K.Evolves (s.kept B)) :
    Keeps B K (execRowCloseTimer bank t s) := by
  unfold execRowCloseTimer
  dsimp only
  split <;> simp [hs]

@[simp] theorem keeps_execCaParityError (ch sc replayed : Nat) (again : Bool) (t : Nat) {K : Kept} {s : State} (hs : K.Evolves (s.kept B)) :
    Keeps B K (execCaParityError ch sc replayed again t s) := by
  simp [↓State.kept_ite, execCaParityError, hs]

@[simp] theorem keeps_dramCommands {K : Kept} {s : State} (hs : K.Evolves (s.kept B)) :
    (∀ req addr hint t, Keeps B K (execDramRead req addr hint t s)) ∧
    (∀ req addr hint be t data, Keeps B K (execDramWrite req addr hint be t data s)) ∧
    (∀ bank t, Keeps B K (execDramRefresh bank t s)) ∧ (∀ bank, Keeps B K (execRowHammerThreshold bank s)) ∧
    (∀ t, Keeps B K (execRowHammerWindowEnd t s)) ∧ (∀ failed t, Keeps B K (execDramRetrain failed t s)) ∧
    (∀ t, Keeps B K (execPatrolScrub t s)) ∧ (∀ master, Keeps B K (execUeAddrRead master s)) := by
  simp [execDramRead, execDramWrite, execDramRefresh, execRowHammerThreshold, execRowHammerWindowEnd, execDramRetrain, execPatrolScrub,
    execUeAddrRead, hs, hs.inv]

/-! ## Outs -/

@[simp] theorem State.kept_setOuts (s : State) (o : Outs) : (s.setOuts o).kept B = s.kept B := by
  simp [State.setOuts]

@[simp] theorem State.kept_deal (s : State) (p : ProdPkt) : (s.deal p).kept B = s.kept B := by
  unfold State.deal
  split <;> simp

@[simp] theorem State.kept_takeSeq (s : State) (stream : Nat) : (s.takeSeq stream).2.kept B = s.kept B := by
  simp [State.takeSeq]

@[simp] theorem State.kept_product (s : State) (kind : Nat) (ext data : List Byte) (drop : Bool) :
    (s.product kind ext data drop).kept B = s.kept B := by
  simp [State.product]

@[simp] theorem State.kept_ports (s : State) :
    (∀ p was, (s.portMoved p was).kept B = s.kept B) ∧ (∀ p lock align fec, (s.portReport p lock align fec).kept B = s.kept B) ∧
    (∀ p v, (s.outPortCtrl p v).kept B = s.kept B) := by
  simp [State.portPcs, State.redeal, State.portMoved, State.portReport, State.outPortCtrl]

@[simp] theorem State.kept_streamWrite (s : State) (v : Nat) : (s.streamWrite v).kept B = s.kept B := by
  simp [State.streamWrite]

@[simp] theorem State.kept_endDump (s : State) (d : Dump) (trunc : Bool) : (s.endDump d trunc).kept B = s.kept B := by
  simp [State.endDump]

@[simp] theorem State.kept_dumpFormat (s : State) (v : Nat) (locked : Bool) : (s.dumpFormat v locked).kept B = s.kept B := by
  simp [State.dumpFormat]

@[simp] theorem keeps_execOutputPacketTx (p t : Nat) {K : Kept} {s : State} (hs : K.Evolves (s.kept B)) :
    Keeps B K (execOutputPacketTx p t s) := by
  unfold execOutputPacketTx
  dsimp only
  split <;> simp [hs]

@[simp] theorem keeps_execEventPacket (t : Nat) {K : Kept} {s : State} (hs : K.Evolves (s.kept B)) : Keeps B K (execEventPacket t s) := by
  unfold execEventPacket
  dsimp only
  split <;> simp [hs]

@[simp] theorem keeps_outsCommands {K : Kept} {s : State} (hs : K.Evolves (s.kept B)) :
    (∀ p lock align fec, Keeps B K (execOutputPortUp p lock align fec s)) ∧
    (∀ p lock align fec, Keeps B K (execOutputPortDown p lock align fec s)) ∧
    (∀ p frames cor unc, Keeps B K (execOutputRxDiscard p frames cor unc s)) ∧ (∀ v, Keeps B K (execStreamEnable v s)) ∧
    (∀ v, Keeps B K (execDumpFormatWrite v s)) := by
  simp [execOutputPortUp, execOutputPortDown, execOutputRxDiscard, execStreamEnable, execDumpFormatWrite, hs]

/-! ## Ring -/

@[simp] theorem State.kept_setRing (s : State) (r : Ring) (hslots : r.slots.length = s.ring.slots.length)
    (hrecs : r.recs.length = s.ring.recs.length) : (s.setRing r).kept B = s.kept B := by
  simp [State.setRing, hslots, hrecs]

@[simp] theorem State.kept_readMap (s : State) (req slot idx : Nat) : (s.readMap req slot idx).kept B = s.kept B := by
  simp [State.readMap]

@[simp] theorem State.kept_setMapBit {s : State} (slot idx : Nat) (h : (s.kept B).inv) : (s.setMapBit slot idx).kept B = s.kept B := by
  simp [State.setMapBit, h]

@[simp] theorem State.kept_ringLate (s : State) : s.ringLate.kept B = s.kept B := by
  simp [State.ringLate]

@[simp] theorem State.kept_storeCell {s : State} (p : Packet) (payload : List Byte) (h : (s.kept B).inv) :
    (s.storeCell p payload).kept B = s.kept B := by
  unfold State.storeCell
  dsimp only
  split
  · simp
  · split <;> simp [h]

@[simp] theorem State.kept_placeFrame {s : State} (b n : Nat) (h : (s.kept B).inv) : (s.placeFrame b n).kept B = s.kept B := by
  simp [State.placeFrame, h]

@[simp] theorem State.kept_assignSlot {s : State} (b : Nat) (prev : Option Nat) (h : (s.kept B).inv) :
    (s.assignSlot b prev).kept B = s.kept B := by
  unfold State.assignSlot
  split <;> simp [h]

@[simp] theorem State.kept_readCell (s : State) (req slot idx : Nat) : (s.readCell req slot idx).2.2.kept B = s.kept B := by
  unfold State.readCell
  dsimp only
  split
  · rfl
  · split
    · split <;> simp
    · simp

@[simp] theorem State.kept_writing (s : State) :
    (∀ n f, (s.closeFrame n f).kept B = s.kept B) ∧ (∀ b closed, (s.dropStale b closed).kept B = s.kept B) := by
  simp [State.closeFrame, State.dropStale]

@[simp] theorem State.kept_postCapture (s : State) (event cap reason : Nat) (noRec : Bool) (bell : Nat) :
    (s.postCapture event cap reason noRec bell).kept B = s.kept B := by
  simp [State.postCapture]

@[simp] theorem State.kept_refuseCapture (s : State) (reason cap : Nat) (noRec : Bool) (bell : Nat) :
    (s.refuseCapture reason cap noRec bell).kept B = s.kept B := by
  unfold State.refuseCapture
  split <;> simp

@[simp] theorem State.kept_handleTrigger (s : State) (tr : Trigger) (b pre post : Nat) :
    (s.handleTrigger tr b pre post).kept B = s.kept B := by
  unfold State.handleTrigger
  dsimp only
  split
  · simp
  · split <;> simp

@[simp] theorem State.kept_captureTrigger (s : State) (tr : Trigger) : (s.captureTrigger tr).kept B = s.kept B := by
  unfold State.captureTrigger
  split
  · simp
  · split
    · split <;> simp
    · split <;> simp

@[simp] theorem State.kept_captureTriggers (s : State) :
    s.hostTrig.kept B = s.kept B ∧ (∀ v, (s.releaseRequest v).kept B = s.kept B) := by
  simp [State.hostTrig, State.releaseRequest]

@[simp] theorem State.kept_endReadout (s : State) (r : CapRec) (n event : Nat) : (s.endReadout r n event).kept B = s.kept B := by
  simp [State.endReadout]

@[simp] theorem State.kept_abortReadout (s : State) : s.abortReadout.kept B = s.kept B := by
  unfold State.abortReadout
  split
  · split <;> simp
  · rfl

@[simp] theorem State.kept_finishReadout (s : State) (n : Nat) : (s.finishReadout n).kept B = s.kept B := by
  unfold State.finishReadout
  split <;> simp

@[simp] theorem State.kept_startReadout (s : State) (n : Nat) : (s.startReadout n).kept B = s.kept B := by
  unfold State.startReadout
  split <;> simp

@[simp] theorem State.kept_takeCells (s : State) (slot n i : Nat) : (s.takeCells slot n i).2.2.kept B = s.kept B := by
  induction n generalizing s i with
  | zero => rfl
  | succ n ih =>
    unfold State.takeCells
    split
    · simp [ih]
    · rfl

@[simp] theorem State.kept_capturePacket (s : State) : s.capturePacket.kept B = s.kept B := by
  unfold State.capturePacket
  split
  · split <;> simp
  · rfl

@[simp] theorem State.kept_releaseAt (s : State) (b n : Nat) : (s.releaseAt b n).kept B = s.kept B := by
  unfold State.releaseAt
  split
  · extract_lets x s1 s2
    have h2 : s2.kept B = s.kept B := by
      unfold s2
      split <;> simp [s1, x]
    clear_value s2
    split
    · split
      · exact h2
      · rw [State.kept_postCapture, State.kept_raise, State.kept_setRing _ _ (List.length_map _) (length_setAt ..), h2]
    · exact h2
  · rfl

@[simp] theorem State.kept_readCmd (s : State) (v : Nat) : (s.readCmd v).kept B = s.kept B := by
  simp [State.readCmd]

@[simp] theorem State.kept_freezeRec (s : State) (at_ n : Nat) (r : CapRec) : (s.freezeRec at_ n r).kept B = s.kept B := by
  simp [State.freezeRec]

@[simp] theorem State.kept_captureBell (s : State) (b : Nat) : (s.captureBell b).kept B = s.kept B := by
  unfold State.captureBell
  refine (State.kept_each _ _ fun t n => ?_).trans (by simp)
  split <;> simp

@[simp] theorem keeps_execRingCellStore (voq t : Nat) {K : Kept} {s : State} (hs : K.Evolves (s.kept B)) :
    Keeps B K (execRingCellStore voq t s) := by
  unfold execRingCellStore
  dsimp only
  split
  · split
    · exact .doneIf hs rfl (by simp [↓State.kept_ite, hs.inv])
    · simp [hs]
  · simp [hs]

@[simp] theorem keeps_execRingFrameClose (t : Nat) {K : Kept} {s : State} (hs : K.Evolves (s.kept B)) :
    Keeps B K (execRingFrameClose t s) := by
  unfold execRingFrameClose
  dsimp only
  split
  · refine .doneIf hs rfl ?_
    split <;> simp
  · simp [hs]

@[simp] theorem keeps_execCaptureTrigger (t : Nat) {K : Kept} {s : State} (hs : K.Evolves (s.kept B)) :
    Keeps B K (execCaptureTrigger t s) := by
  unfold execCaptureTrigger
  dsimp only
  split <;> simp [hs]

@[simp] theorem keeps_execReadoutDone (t : Nat) {K : Kept} {s : State} (hs : K.Evolves (s.kept B)) : Keeps B K (execReadoutDone t s) := by
  unfold execReadoutDone
  dsimp only
  split <;> simp [hs]

@[simp] theorem keeps_ringCommands {K : Kept} {s : State} (hs : K.Evolves (s.kept B)) :
    (∀ t, Keeps B K (execHostTrigger t s)) ∧ (∀ v, Keeps B K (execCaptureReleaseRequest v s)) ∧
    (∀ v t, Keeps B K (execReadoutStart v t s)) ∧ (∀ t, Keeps B K (execReadoutAbort t s)) ∧
    (∀ t, Keeps B K (execCapturePacket t s)) := by
  simp [execHostTrigger, execCaptureReleaseRequest, execReadoutStart, execReadoutAbort, execCapturePacket, hs]

/-! ## Corr -/

@[simp] theorem State.kept_setCorr (s : State) (c : Corr) (h : c.dies.length = s.corr.dies.length) :
    (s.setCorr c).kept B = s.kept B := by
  simp [State.setCorr, h]

@[simp] theorem State.kept_setDie (s : State) (d : Nat) (x : StallDie) : (s.setDie d x).kept B = s.kept B := by
  simp [State.setDie]

@[simp] theorem kept_gainWords (n a : Nat) (r : List Byte × List Nat × State) : (gainWords n a r).2.kept B = r.2.2.kept B := by
  simp [gainWords]

@[simp] theorem State.kept_storeChecked {s : State} (a : Nat) (l : List Byte) (h : (s.kept B).inv) :
    (s.storeChecked a l).kept B = s.kept B := by
  simp [State.storeChecked, h]

@[simp] theorem State.kept_loadGroup {s : State} (d k b slot g : Nat) (h : (s.kept B).inv) :
    (s.loadGroup d k b slot g).kept B = s.kept B := by
  unfold State.loadGroup
  extract_lets sb q4 m kk stride c pitches r sample
  have hr : r.2.kept B = s.kept B := kept_foldl_get Prod.snd _ _ fun b p _ => by simp
  exact (State.kept_each_of _ (State.inv_of_kept hr h) fun t j ht => by simp [ht]).trans hr

@[simp] theorem State.kept_loadBlock {s : State} (d k b f : Nat) (h : (s.kept B).inv) : (s.loadBlock d k b f).kept B = s.kept B := by
  unfold State.loadBlock
  split
  · exact (State.kept_setDie ..).trans (State.kept_each_of _ h fun t g ht => State.kept_loadGroup _ _ _ _ _ ht)
  · exact (State.kept_setDie ..).trans (State.kept_each_of _ h fun t q ht => State.kept_storeChecked _ _ ht)

@[simp] theorem State.kept_windowErrors (s : State) (d k b : Nat) : (s.windowErrors d k b).kept B = s.kept B := by
  simp [State.windowErrors]

@[simp] theorem State.kept_startTile (s : State) (d : Nat) : (s.startTile d).kept B = s.kept B := by
  simp [State.startTile]

@[simp] theorem State.kept_endTile (s : State) (d : Nat) : (s.endTile d).kept B = s.kept B := by
  simp [State.endTile]

@[simp] theorem kept_correctionWord (r : List Byte × List Nat × State) : (correctionWord r).2.kept B = r.2.2.kept B := by
  simp [correctionWord]

@[simp] theorem State.kept_correction (s : State) (c n : Nat) : (s.correction c n).2.kept B = s.kept B := by
  simp [State.correction]

@[simp] theorem State.kept_fetchGains (s : State) (c : Nat) : (s.fetchGains c).2.kept B = s.kept B := by
  simp [State.fetchGains]

@[simp] theorem State.kept_cutDump (s : State) (q : Nat) : (s.cutDump q).kept B = s.kept B := by
  unfold State.cutDump
  split <;> simp

@[simp] theorem State.kept_beginHalf (s : State) : s.beginHalf.kept B = s.kept B := by
  unfold State.beginHalf
  split <;> simp

@[simp] theorem State.kept_feedRecord {s : State} (rec r : Nat) (h : (s.kept B).inv) : (s.feedRecord rec r).kept B = s.kept B := by
  simp [State.feedRecord, h]

@[simp] theorem State.kept_countPoison (s : State) (k : Nat) : (s.countPoison k).kept B = s.kept B := by
  simp [State.countPoison]

@[simp] theorem State.kept_takeRecord {s : State} (rec old : Nat) (h : (s.kept B).inv) : (s.takeRecord rec old).kept B = s.kept B := by
  -- the reads behind a name that cannot unfold
  obtain ⟨correction, hread⟩ : ∃ f, f = State.correction := ⟨_, rfl⟩
  have hcorr : ∀ t c n, (correction t c n).2.kept B = t.kept B := hread ▸ State.kept_correction
  unfold State.takeRecord
  rw [← hread]
  split
  · extract_lets s0 c p
    have h0 : s0.kept B = s.kept B := s.kept_beginHalf
    split
    rename_i corr s1 hp
    have h1 : s1.kept B = s.kept B := by
      split at hp
      · obtain ⟨-, rfl⟩ := Prod.mk.inj hp
        exact (hcorr ..).trans ((hcorr ..).trans h0)
      · obtain ⟨-, rfl⟩ := Prod.mk.inj hp
        exact h0
    split
    extract_lets s2 s3 x s4
    have h2 : s2.kept B = s.kept B := (State.kept_dramWrite _ _ _ (State.inv_of_kept h1 h)).trans h1
    have h3 : s3.kept B = s.kept B := by
      unfold s3
      split <;> simp [h2]
    have h4 : s4.kept B = s.kept B := by
      unfold s4
      split <;> simp [x, h3]
    split <;> simp [h4, h]
  · rfl

@[simp] theorem State.kept_writeHalfRec {s : State} (rec v : Nat) (h : (s.kept B).inv) : (s.writeHalfRec rec v).kept B = s.kept B := by
  simp [State.writeHalfRec, h]

@[simp] theorem State.kept_replaceRead (rec v : Nat) (r : List Byte × List Nat × State) (h : (r.2.2.kept B).inv) :
    (State.replaceRead rec v r).kept B = r.2.2.kept B := by
  unfold State.replaceRead
  refine (State.kept_setCorr _ _ rfl).trans ?_
  dsimp only
  split
  · simp [h]
  · have h2 : (if r.2.2.corr.filling.isSome = true then (r.2.2.takeRecord rec poisonRec).countPoison 1 else r.2.2).kept B =
        r.2.2.kept B := by simp [h]
    simp [h, h2]

@[simp] theorem State.kept_addRead (rec : Nat) (re im : Int) (n : Nat) (r : List Byte × List Nat × State) (h : (r.2.2.kept B).inv) :
    (State.addRead rec re im n r).kept B = r.2.2.kept B := by
  simp [State.addRead, h]

@[simp] theorem State.kept_replaceRecord {s : State} (rec v : Nat) (h : (s.kept B).inv) : (s.replaceRecord rec v).kept B = s.kept B := by
  simp [State.replaceRecord, h]

@[simp] theorem State.kept_retireSum {s : State} (rec : Nat) (re im : Int) (n : Nat) (h : (s.kept B).inv) :
    (s.retireSum rec re im n).kept B = s.kept B := by
  simp [State.addRecord, State.retireSum, h]

@[simp] theorem State.kept_skipTile {s : State} (c t : Nat) (h : (s.kept B).inv) : (s.skipTile c t).kept B = s.kept B := by
  unfold State.skipTile
  split
  · exact State.kept_each_of _ h fun t p ht => State.kept_replaceRecord _ _ ht
  · rfl

@[simp] theorem State.kept_addSkips (s : State) (d k : Nat) : (s.addSkips d k).kept B = s.kept B := by
  unfold State.addSkips
  split <;> simp

@[simp] theorem State.kept_skipTiles {s : State} (d : Nat) (l : List (Nat × Nat)) (h : (s.kept B).inv) :
    (s.skipTiles d l).kept B = s.kept B := by
  have h1 : (if (s.die d).closed then s else s.addSkips d l.length).kept B = s.kept B := by simp
  unfold State.skipTiles
  exact (State.kept_each_of _ (State.inv_of_kept h1 h) fun t p ht => State.kept_skipTile _ _ ht).trans h1

@[simp] theorem State.kept_frameShort (s : State) : s.frameShort.kept B = s.kept B := by
  simp [State.frameShort]

@[simp] theorem State.kept_completeDump (s : State) : s.completeDump.kept B = s.kept B := by
  unfold State.completeDump
  split <;> simp

@[simp] theorem State.kept_overrun {s : State} (h : (s.kept B).inv) :
    (∀ d, (s.cutTiles d).kept B = s.kept B) ∧ (∀ d, (s.overrunDie d).kept B = s.kept B) := by
  simp [State.cutTiles, State.overrunDie, h]

@[simp] theorem State.kept_bellsFramesRunsAndDumps (s : State) :
    (∀ d, (s.freshDie d).kept B = s.kept B) ∧ (∀ f, (s.runEvent f).1.kept B = s.kept B) := by
  simp [State.freshDie, State.runEvent]

@[simp] theorem State.kept_corrBell (s : State) (prev : Option Nat) : (s.corrBell prev).1.kept B = s.kept B := by
  unfold State.corrBell
  dsimp only
  split <;> simp

@[simp] theorem State.kept_latchDump (s : State) : s.latchDump.kept B = s.kept B := by
  unfold State.latchDump
  split <;> simp

@[simp] theorem keeps_execWindowBlockLoaded (die t : Nat) {K : Kept} {s : State} (hs : K.Evolves (s.kept B)) :
    Keeps B K (execWindowBlockLoaded die t s) := by
  unfold execWindowBlockLoaded
  dsimp only
  split <;> simp [hs, hs.inv]

@[simp] theorem keeps_execTileChannelEnd (die t : Nat) {K : Kept} {s : State} (hs : K.Evolves (s.kept B)) :
    Keeps B K (execTileChannelEnd die t s) := by
  unfold execTileChannelEnd
  dsimp only
  split <;> simp [hs]

@[simp] theorem keeps_execPartialSumRetire (die : Nat) (intact : Bool) (t : Nat) {K : Kept} {s : State} (hs : K.Evolves (s.kept B)) :
    Keeps B K (execPartialSumRetire die intact t s) := by
  unfold execPartialSumRetire
  dsimp only
  split
  · refine .doneIf hs rfl ?_
    split
    · split <;> simp [hs.inv]
    · simp [hs.inv]
  · simp [hs]

@[simp] theorem keeps_execStallOverrun (t : Nat) {K : Kept} {s : State} (hs : K.Evolves (s.kept B)) :
    Keeps B K (execStallOverrun t s) := by
  unfold execStallOverrun
  refine .of_doneIf (t := s.at t) (by simpa using hs) fun ht => ?_
  rw [State.kept_each_of _ ht.inv fun _ _ hu => (State.kept_overrun hu).2 _]
  exact ht

@[simp] theorem keeps_corrCommands {K : Kept} {s : State} (hs : K.Evolves (s.kept B)) :
    (∀ die t, Keeps B K (execWindowLoadStart die t s)) ∧ (∀ die t, Keeps B K (execTileChannelStart die t s)) ∧
    (∀ master, Keeps B K (execDseqRead master s)) := by
  simp [execWindowLoadStart, execTileChannelStart, execDseqRead, hs]

/-! ## Aisle -/

@[simp] theorem State.kept_setAisle (s : State) (a : Aisle) (h : Store.wf 0 a.nin = Store.wf 0 s.aisle.nin) :
    (s.setAisle a).kept B = s.kept B := by
  simp [State.setAisle, h]

theorem State.kept_setAisle_of {s : State} {a : Aisle} (h : (s.kept B).inv) (hn : Store.wf 0 s.aisle.nin = true → Store.wf 0 a.nin = true) :
    (s.setAisle a).kept B = s.kept B := by
  refine State.kept_of_inv rfl rfl rfl rfl h fun hi => ?_
  obtain ⟨hmem, hcoef, hwin, hscales, hnin, hrest⟩ := hi
  exact ⟨hmem, hcoef, hwin, hscales, hn hnin, hrest⟩

/-- The canonical write of a count of a beam's context. -/
@[simp] theorem State.kept_setNin {s : State} (p : Page) (k n : Nat) (gpend cfg terms recs beamv beamd) (h : (s.kept B).inv) :
    (s.setAisle { page := p, nin := Store.set 0 s.aisle.nin k n, gpend, cfg, terms, recs, beamv, beamd }).kept B = s.kept B :=
  State.kept_setAisle_of h (Store.wf_set 0 _ _ _)

@[simp] theorem State.kept_sampleBeams (s : State) : s.sampleBeams.kept B = s.kept B := by
  simp [State.sampleBeams]

@[simp] theorem State.kept_directoriesAndContexts (s : State) :
    s.showDirectory.kept B = s.kept B ∧ (∀ v, (s.contextCommit v).kept B = s.kept B) := by
  simp [State.showDirectory, State.contextCommit]

theorem wf_foldl_set (l : List Nat) (k v : Nat → Nat) {m : Store Nat} (hm : Store.wf 0 m = true) :
    Store.wf 0 (l.foldl (fun m b => Store.set 0 m (k b) (v b)) m) = true :=
  List.foldlRecOn (motive := fun m : Store Nat => Store.wf 0 m = true) l _ hm fun m hm _ _ => Store.wf_set 0 m _ _ hm

@[simp] theorem State.kept_showDirectory (s : State) : s.showDirectory.kept B = s.kept B := by
  simp [State.showDirectory]

@[simp] theorem State.kept_contextBell {s : State} (f : Nat) (h : (s.kept B).inv) : (s.contextBell f).kept B = s.kept B := by
  unfold State.contextBell
  dsimp only
  split
  · rw [State.kept_showDirectory]
    generalize hs1 : s.setAisle { s.aisle with page := s.aisle.page.change f } = s1
    have h1 : s1.kept B = s.kept B := by simp [← hs1]
    exact (State.kept_setAisle_of (State.inv_of_kept h1 h) (wf_foldl_set _ _ _)).trans h1
  · simp

@[simp] theorem State.kept_beamAdd {s : State} (v : Nat) (h : (s.kept B).inv) : (s.beamAdd v).kept B = s.kept B := by
  unfold State.beamAdd
  split
  · extract_lets s1 b n page busy full res a s2
    have h1 : s1.kept B = s.kept B := by simp [s1]
    have h2 : s2.kept B = s.kept B :=
      (State.kept_showDirectory _).trans ((State.kept_setAisle_of (State.inv_of_kept h1 h) (Store.wf_set 0 _ _ _)).trans h1)
    simp [res, h1, h2]
  · simp

@[simp] theorem State.kept_gainBank (s : State) :
    (∀ v, (s.gainCommit v).kept B = s.kept B) ∧ (∀ bank, (s.gainBank bank).kept B = s.kept B) := by
  simp [State.gainCommit, State.gainBank]

@[simp] theorem State.kept_gainBell (s : State) : s.gainBell.kept B = s.kept B := by
  unfold State.gainBell
  split <;> simp

@[simp] theorem State.kept_startPass (s : State) (d k g : Nat) : (s.startPass d k g).kept B = s.kept B := by
  simp [State.startPass]

@[simp] theorem State.kept_queueBeam (s : State) (b chan formed : Nat) (cut : Bool) (v : List (Option (Int × Int))) :
    (s.queueBeam b chan formed cut v).kept B = s.kept B := by
  simp [State.queueBeam]

@[simp] theorem State.kept_formGroup (s : State) (b h : Nat) : (s.formGroup b h).kept B = s.kept B := by
  simp [State.formGroup]

@[simp] theorem State.kept_formIfReady (s : State) (b h : Nat) : (s.formIfReady b h).kept B = s.kept B := by
  simp [State.formIfReady]

@[simp] theorem State.kept_finishPass (s : State) (d k g formed : Nat) (cut : Bool) :
    (s.finishPass d k g formed cut).kept B = s.kept B := by
  simp [State.finishPass]

@[simp] theorem State.kept_cutPasses (s : State) (sel : Nat → Nat → Bool) : (s.cutPasses sel).kept B = s.kept B := by
  simp [State.cutPasses]

@[simp] theorem State.kept_aisleBell {s : State} (prev : Option Nat) (h : (s.kept B).inv) : (s.aisleBell prev).kept B = s.kept B := by
  unfold State.aisleBell
  split <;> simp [h]

@[simp] theorem keeps_execAislePassStart (die t : Nat) {K : Kept} {s : State} (hs : K.Evolves (s.kept B)) :
    Keeps B K (execAislePassStart die t s) := by
  unfold execAislePassStart
  dsimp only
  split <;> simp [hs]

@[simp] theorem keeps_execAislePassEnd (die t : Nat) {K : Kept} {s : State} (hs : K.Evolves (s.kept B)) :
    Keeps B K (execAislePassEnd die t s) := by
  unfold execAislePassEnd
  dsimp only
  split <;> simp [hs]

@[simp] theorem keeps_aisleCommands {K : Kept} {s : State} (hs : K.Evolves (s.kept B)) :
    (∀ v t, Keeps B K (execContextCommit v t s)) ∧ (∀ v, Keeps B K (execBeamAdd v s)) ∧
    (∀ v, Keeps B K (execGainCommit v s)) := by
  simp [execContextCommit, execBeamAdd, execGainCommit, hs, hs.inv]

/-! ## Svc -/

@[simp] theorem State.kept_setSvcOut (s : State) (p : Nat) (x : SvcOut) : (s.setSvcOut p x).kept B = s.kept B := by
  simp [State.setSvcOut]

@[simp] theorem State.kept_svcBegin (s : State) (p u : Nat) (frame : List Byte) : (s.svcBegin p u frame).kept B = s.kept B := by
  simp [State.svcBegin]

@[simp] theorem State.kept_svcLeave (s : State) (p : Nat) (l : List (List Byte)) : (s.svcLeave p l).kept B = s.kept B := by
  induction l generalizing s with
  | nil => exact s.kept_setSvcOut ..
  | cons f l ih =>
    unfold State.svcLeave
    dsimp only
    split <;> simp [ih]

@[simp] theorem State.kept_egress (s : State) :
    (∀ p, (s.svcDrain p).kept B = s.kept B) ∧ (∀ p frame, (s.svcSend p frame).kept B = s.kept B) ∧
    (∀ port frame, (s.svcForward port frame).kept B = s.kept B) ∧
    (∀ port frame tx, (s.svcForwardEvent port frame tx).kept B = s.kept B) := by
  simp [State.svcDrain, State.svcSend, State.svcDrop, State.svcForward, State.svcForwardEvent]

/-! ## Crown -/

@[simp] theorem State.kept_publishWatch {s : State} (f seq w : Nat) (h : (s.kept B).inv) :
    (s.publishWatch f seq w).1.kept B = s.kept B := by
  unfold State.publishWatch
  extract_lets wide away sums cands l part fire rec_ a s1 s2 s3
  have h1 : s1.kept B = s.kept B := State.kept_dramWrite _ _ _ h
  have h2 : s2.kept B = s.kept B := by
    unfold s2
    split
    · simp [h1]
    · exact h1
  exact (State.kept_when _ _ (State.kept_product ..)).trans h2

@[simp] theorem State.kept_formRest (s : State) : s.formRest.kept B = s.kept B := by
  simp [State.formRest]

@[simp] theorem State.kept_crown (s : State) :
    (∀ c, (s.setCrown c).kept B = s.kept B) ∧ (∀ f, (s.queueDetected f).kept B = s.kept B) := by
  simp [State.setCrown, State.queueDetected]

@[simp] theorem State.kept_crownPublish {s : State} (f : Nat) (h : (s.kept B).inv) : (s.crownPublish f).kept B = s.kept B := by
  unfold State.crownPublish
  extract_lets s0 seq r
  have hr : r.1.kept B = s.kept B := by
    unfold r
    refine List.foldlRecOn (motive := fun z : State × Nat × Bool × Bool => z.1.kept B = s.kept B) _ _ ?_ ?_
    · simp [s0]
    · intro z hz w _
      exact (State.kept_publishWatch _ _ _ (State.inv_of_kept hz h)).trans hz
  clear_value r
  obtain ⟨s1, hits, fire, part⟩ := r
  have h1 : s1.kept B = s.kept B := hr
  simp [h1]

@[simp] theorem State.kept_canopyWideWatches (s : State) :
    (∀ f w, (s.sendPartials f w).kept B = s.kept B) ∧ (∀ pl, (s.takePartial pl).kept B = s.kept B) ∧
    s.canopyRank.kept B = s.kept B ∧ s.crownBell.kept B = s.kept B := by
  simp [State.sendPartials, State.takePartial, State.canopyRank, State.crownBell]

@[simp] theorem keeps_execCrownPublish (t : Nat) {K : Kept} {s : State} (hs : K.Evolves (s.kept B)) : Keeps B K (execCrownPublish t s) := by
  unfold execCrownPublish
  dsimp only
  split <;> simp [hs, hs.inv]

@[simp] theorem keeps_execCrownPartialTx (t : Nat) {K : Kept} {s : State} (hs : K.Evolves (s.kept B)) :
    Keeps B K (execCrownPartialTx t s) := by
  unfold execCrownPartialTx
  dsimp only
  split <;> simp [hs]

@[simp] theorem keeps_crownCommands {K : Kept} {s : State} (hs : K.Evolves (s.kept B)) :
    (∀ port frame _room t, Keeps B K (execCrownPartialRx port frame _room t s)) ∧ (∀ t, Keeps B K (execCrownCanopyRank t s)) := by
  simp [execCrownPartialRx, execCrownCanopyRank, hs]

/-! ## Clerk -/

@[simp] theorem State.kept_clerk (s : State) :
    (∀ n c, (s.setCore n c).kept B = s.kept B) ∧ (∀ n code, (s.stopCore n code).kept B = s.kept B) ∧
    (∀ n, (s.tryHalt n).kept B = s.kept B) ∧ (∀ n keys, (s.eccCorrected n keys).kept B = s.kept B) ∧
    (∀ n e, (s.clerkApply n e).kept B = s.kept B) := by
  simp [State.setCore, State.stopCore, State.tryHalt, State.eccCorrected, State.clerkApply]

@[simp] theorem State.kept_clerkStep (s : State) (n dc : Nat) (want : ClerkOp → Nat → Bool) :
    (s.clerkStep n dc want).kept B = s.kept B := by
  unfold State.clerkStep
  dsimp only
  generalize hu : (if s.works 16 25 = true then s.setCore n ((s.core n).advance dc) else s) = u
  have h : u.kept B = s.kept B := by
    rw [← hu]
    simp
  rw [← h]
  split
  · split
    · simp
    · split <;> simp
  · rfl

@[simp] theorem State.kept_mdataWrite (s : State) (v : Nat) : (s.mdataWrite v).kept B = s.kept B := by
  unfold State.mdataWrite
  split <;> simp

@[simp] theorem State.kept_doorbell_to_coreCtrl (s : State) :
    (∀ core v, (s.doorbell core v).kept B = s.kept B) ∧ (s.mdataRead).2.kept B = s.kept B ∧
    (∀ n, (s.startCore n).kept B = s.kept B) ∧ (∀ n v, (s.coreCtrl n v).kept B = s.kept B) := by
  simp [State.doorbell, State.mdataRead, State.startCore, State.coreCtrl]

@[simp] theorem keeps_execInterruptEntry (core : Nat) {K : Kept} {s : State} (hs : K.Evolves (s.kept B)) :
    Keeps B K (execInterruptEntry core s) := by
  unfold execInterruptEntry
  dsimp only
  split <;> simp [hs]

@[simp] theorem keeps_clerkCommands {K : Kept} {s : State} (hs : K.Evolves (s.kept B)) :
    (∀ core dc, Keeps B K (execNop core dc s)) ∧ (∀ core dc, Keeps B K (execBr core dc s)) ∧
    (∀ core dc, Keeps B K (execBrcc core dc s)) ∧ (∀ core dc, Keeps B K (execCall core dc s)) ∧
    (∀ core dc, Keeps B K (execRet core dc s)) ∧ (∀ core dc, Keeps B K (execRti core dc s)) ∧
    (∀ core dc, Keeps B K (execLoop core dc s)) ∧ (∀ core dc, Keeps B K (execWait core dc s)) ∧
    (∀ core dc, Keeps B K (execHalt core dc s)) ∧ (∀ core dc, Keeps B K (execFence core dc s)) ∧
    (∀ core dc, Keeps B K (execMpy core dc s)) ∧ (∀ core dc, Keeps B K (execMac core dc s)) ∧
    (∀ core dc, Keeps B K (execMsu core dc s)) ∧ (∀ core dc, Keeps B K (execDualFetch core dc s)) ∧
    (∀ core dc, Keeps B K (execAccAdd core dc s)) ∧ (∀ core dc, Keeps B K (execAccSub core dc s)) ∧
    (∀ core dc, Keeps B K (execNeg core dc s)) ∧ (∀ core dc, Keeps B K (execAbs core dc s)) ∧
    (∀ core dc, Keeps B K (execClr core dc s)) ∧ (∀ core dc, Keeps B K (execAsl core dc s)) ∧
    (∀ core dc, Keeps B K (execAsr core dc s)) ∧ (∀ core dc, Keeps B K (execCmp core dc s)) ∧
    (∀ core dc, Keeps B K (execAddd core dc s)) ∧ (∀ core dc, Keeps B K (execDivs core dc s)) ∧
    (∀ core dc, Keeps B K (execAnd core dc s)) ∧ (∀ core dc, Keeps B K (execOr core dc s)) ∧
    (∀ core dc, Keeps B K (execXor core dc s)) ∧ (∀ core dc, Keeps B K (execAdd16 core dc s)) ∧
    (∀ core dc, Keeps B K (execSub16 core dc s)) ∧ (∀ core dc, Keeps B K (execMov core dc s)) ∧
    (∀ core dc, Keeps B K (execLd core dc s)) ∧ (∀ core dc, Keeps B K (execSt core dc s)) ∧
    (∀ core dc, Keeps B K (execLd2 core dc s)) ∧ (∀ core dc, Keeps B K (execSt2 core dc s)) ∧
    (∀ core dc, Keeps B K (execLdi core dc s)) ∧ (∀ core dc, Keeps B K (execFld core dc s)) ∧
    (∀ core dc, Keeps B K (execFst core dc s)) ∧ (∀ core dc, Keeps B K (execFsta core dc s)) ∧
    (∀ core dc, Keeps B K (execJobqPop core dc s)) ∧ (∀ core dc, Keeps B K (execJobDone core dc s)) ∧
    (∀ core, Keeps B K (execCoreWake core s)) ∧ (∀ core dc, Keeps B K (execTimerExpire core dc s)) ∧
    (∀ core v, Keeps B K (execDoorbellWrite core v s)) ∧ (∀ core v, Keeps B K (execCoreRun core v s)) ∧
    (∀ core v, Keeps B K (execCoreHalt core v s)) ∧ (∀ v, Keeps B K (execFlagsSet v s)) ∧
    (∀ v, Keeps B K (execFlagsClr v s)) := by
  simp [execNop, execBr, execBrcc, execCall, execRet, execRti, execLoop, execWait, execHalt, execFence, execMpy, execMac, execMsu,
    execDualFetch, execAccAdd, execAccSub, execNeg, execAbs, execClr, execAsl, execAsr, execCmp, execAddd, execDivs, execAnd, execOr,
    execXor, execAdd16, execSub16, execMov, execLd, execSt, execLd2, execSt2, execLdi, execFld, execFst, execFsta, execJobqPop,
    execJobDone, execCoreWake, execTimerExpire, execDoorbellWrite, execCoreRun, execCoreHalt, execFlagsSet, execFlagsClr, hs]

/-! ## Cal -/

@[simp] theorem State.kept_setCal (s : State) (c : CalEng) : (s.setCal c).kept B = s.kept B := by
  simp [State.setCal]

@[simp] theorem State.kept_aisleWord (s : State) (c : C32) : (s.aisleWord c).2.2.kept B = s.kept B := by
  unfold State.aisleWord
  dsimp only
  split <;> split <;> simp

@[simp] theorem State.kept_storeGains {s : State} (c : Nat) (z : Solve) (h : (s.kept B).inv) : (s.storeGains c z).kept B = s.kept B := by
  unfold State.storeGains
  extract_lets n keep r
  have hr : r.2.2.2.2.kept B = s.kept B := by
    unfold r
    refine List.foldlRecOn (motive := fun p : List Byte × List Byte × List Byte × Nat × State => p.2.2.2.2.kept B = s.kept B)
      (List.range n) _ (by rfl) fun p hp i _ => ?_
    split
    extract_lets g st
    split
    · exact (State.kept_aisleWord ..).trans hp
    · exact hp
  clear_value r
  split
  rename_i gw dc gs clips s1
  have h1 : s1.kept B = s.kept B := hr
  extract_lets s2 s3 s4
  have h2 : s2.kept B = s.kept B := (State.kept_dramWrite _ _ _ (State.inv_of_kept h1 h)).trans h1
  have h3 : s3.kept B = s.kept B := by
    unfold s3
    split <;> simp [h2, h]
  have h4 : s4.kept B = s.kept B := by
    unfold s4
    split <;> simp [h3, h]
  split <;> simp [h4]

@[simp] theorem State.kept_loadChannel (s : State) (c : Nat) : (s.loadChannel c).kept B = s.kept B := by
  simp [State.loadChannel]

@[simp] theorem State.kept_countStatus (s : State) (status : Nat) : (s.countStatus status).kept B = s.kept B := by
  unfold State.countStatus
  split <;> simp

@[simp] theorem State.kept_calProgress (s : State) : s.calProgress.kept B = s.kept B := by
  unfold State.calProgress
  dsimp only
  split <;> simp

@[simp] theorem State.kept_writeChannelRecord {s : State} (c status iter nuse nweak : Nat) (moved : Bool) (rho delta : Option Nat)
    (h : (s.kept B).inv) : (s.writeChannelRecord c status iter nuse nweak moved rho delta).kept B = s.kept B := by
  simp [State.writeChannelRecord, h]

@[simp] theorem State.kept_swapBuffers (s : State) (c : Nat) : (s.swapBuffers c).kept B = s.kept B := by
  simp [State.swapBuffers]

@[simp] theorem State.kept_endChannel {s : State} (h : (s.kept B).inv) : s.endChannel.kept B = s.kept B := by
  unfold State.endChannel
  extract_lets c o delta weak s1 s2 s3 s4 s5
  have h2 : s2.kept B = s.kept B := by
    unfold s2
    split <;> simp [s1, h]
  have h4 : s4.kept B = s.kept B := by simp [s4, s3, h2, h]
  simp [s5, h4]

@[simp] theorem State.kept_unfinishedRecord {s : State} (c : Nat) (h : (s.kept B).inv) : (s.unfinishedRecord c).kept B = s.kept B := by
  simp [State.unfinishedRecord, h]

/-- The cells of one region, put into another: none of them is 0. -/
theorem wf_foldl_put (l : List Host.Cell) (k : Host.Cell → Nat) {m : List Host.Cell} (hl : ∀ c ∈ l, c.2 ≠ 0#8) (hm : Memory.wf m = true) :
    Memory.wf (l.foldl (fun m c => Store.put m (k c) c.2) m) = true := by
  refine List.foldlRecOn (motive := fun m : List Host.Cell => Memory.wf m = true) l _ hm fun m hm c hc => ?_
  have hset : Store.set 0#8 m (k c) c.2 = Store.put m (k c) c.2 := if_neg (hl c hc)
  exact hset ▸ Store.wf_set 0#8 m _ _ hm

@[simp] theorem State.kept_copyMem {s : State} (a b n : Nat) (h : (s.kept B).inv) : (s.copyMem a b n).kept B = s.kept B := by
  unfold State.copyMem
  extract_lets cells errs s1 s2 keep
  have h2 : s2.kept B = s.kept B := by
    refine State.kept_setMem h fun hm => wf_foldl_put _ _ (fun c hc => ?_) (s.clear_wf b n hm)
    obtain ⟨-, hall⟩ := Bool.and_eq_true_iff.mp hm
    exact of_decide_eq_true (List.all_eq_true.mp hall c (List.mem_of_mem_filter hc))
  exact (State.kept_setDram _ _).trans h2

@[simp] theorem State.kept_calStart {s : State} (q : Nat) (h : (s.kept B).inv) : (s.calStart q).kept B = s.kept B := by
  unfold State.calStart
  extract_lets fb dc n c s1 bank s2 db base s3 s4 s5
  have h1 : s1.kept B = s.kept B := by simp [s1]
  clear_value s1
  have h2 : s2.kept B = s.kept B := by
    unfold s2
    split <;> simp [h1, h]
  clear_value s2
  have h3 : s3.kept B = s.kept B := by
    unfold s3
    split <;> simp [h2, h]
  clear_value s3
  simp [s5, s4, h3, h]

@[simp] theorem State.kept_swapDbank (s : State) : s.swapDbank.kept B = s.kept B := State.kept_setCorr _ _ rfl

@[simp] theorem State.kept_calEnd {s : State} (h : (s.kept B).inv) : s.calEnd.kept B = s.kept B := by
  unfold State.calEnd
  extract_lets left s1 fa da inst dinst s2 s3 s4 s5 c s6
  have h1 : s1.kept B = s.kept B := by
    refine State.kept_each_of _ h fun t c ht => ?_
    rw [State.kept_countStatus]
    split
    · exact State.kept_unfinishedRecord _ ht
    · exact State.kept_writeChannelRecord _ _ _ _ _ _ _ _ ht
  clear_value s1
  have h2 : s2.kept B = s.kept B := by
    unfold s2
    split <;> simp [h1]
  clear_value s2
  have h4 : s4.kept B = s.kept B := by simp [s4, s3, h2]
  clear_value s4
  have h5 : s5.kept B = s.kept B := (State.kept_dramWrite _ _ _ (State.inv_of_kept h4 h)).trans h4
  clear_value s5
  have h6 : s6.kept B = s.kept B := by
    unfold s6
    simp [h5]
  clear_value s6
  simp [h6]

@[simp] theorem State.kept_calAbandon (s : State) : s.calAbandon.kept B = s.kept B := by
  simp [State.calAbandon]

@[simp] theorem State.kept_calBell {s : State} (regular : Bool) (feed : Option Nat) (h : (s.kept B).inv) :
    (s.calBell regular feed).kept B = s.kept B := by
  unfold State.calBell
  dsimp only
  split <;> simp [h]

@[simp] theorem keeps_execCalChannelEnd (t : Nat) {K : Kept} {s : State} (hs : K.Evolves (s.kept B)) :
    Keeps B K (execCalChannelEnd t s) := by
  simp [execCalChannelEnd, hs, hs.inv]

/-! ## Matrix -/

@[simp] theorem State.kept_setMtx (s : State) (m : Matrix) : (s.setMtx m).kept B = s.kept B := by
  simp [State.setMtx]

@[simp] theorem State.kept_latchErr (s : State) (m a : Nat) (write : Bool) : (s.latchErr m a write).kept B = s.kept B := by
  unfold State.latchErr
  split <;> simp

@[simp] theorem State.kept_counting (s : State) :
    (∀ b code n, (s.countBytes b code n).kept B = s.kept B) ∧ (∀ m a n, (s.countTxn m a n).kept B = s.kept B) := by
  simp [State.countBytes, State.countTxn]

@[simp] theorem State.kept_errorResponses (s : State) :
    (∀ m a write, (s.errorTo m a write).kept B = s.kept B) ∧ (s.errAddrRead).2.kept B = s.kept B := by
  simp [State.errorTo, State.errAddrRead]

@[simp] theorem State.kept_tornWrite {s : State} (a be : Nat) (l : List Byte) (h : (s.kept B).inv) :
    (s.tornWrite a be l).kept B = s.kept B := by
  induction l generalizing s a be with
  | nil => rfl
  | cons b l ih =>
    unfold State.tornWrite
    split
    next k s1 hk =>
      have h1 : s1.kept B = s.kept B := congrArg (fun p : Nat × State => p.2.kept B) hk.symm
      have h2 : (if k = 1 ∧ be.testBit 0 = true then s1.write a [b] else s1).kept B = s.kept B := by simp [h1, h]
      exact (ih _ _ (State.inv_of_kept h2 h)).trans h2

@[simp] theorem State.kept_drainStart {s : State} (m : Nat) (h : (s.kept B).inv) : (s.drainStart m).kept B = s.kept B := by
  unfold State.drainStart
  refine State.kept_each_of _ h fun t x ht => ?_
  split
  · split <;> simp [ht]
  · rfl

@[simp] theorem State.kept_outstandingPool (s : State) :
    (∀ l, (s.setOut l).kept B = s.kept B) ∧ (∀ m write a n be l waits, (s.holdTxn m write a n be l waits).kept B = s.kept B) ∧
    (∀ sel, (s.failOut sel).kept B = s.kept B) := by
  simp [State.setOut, State.noteFull, State.holdTxn, State.failOut]

@[simp] theorem State.kept_masterResets {s : State} (v : Nat) (h : (s.kept B).inv) : (s.masterResets v).kept B = s.kept B := by
  unfold State.masterResets
  refine (State.kept_each_of _ (by simpa using h) fun t m ht => ?_).trans (by simp)
  split
  · exact State.kept_drainStart _ ht
  · split <;> simp

@[simp] theorem State.kept_pcieDown {s : State} (h : (s.kept B).inv) : s.pcieDown.kept B = s.kept B := by
  simp [State.pcieDown, h]

@[simp] theorem keeps_execMasterDrained (m left t : Nat) {K : Kept} {s : State} (hs : K.Evolves (s.kept B)) :
    Keeps B K (execMasterDrained m left t s) := by
  unfold execMasterDrained
  exact .doneIf hs rfl (by simp [↓State.kept_ite])

@[simp] theorem keeps_execPcieLinkUp (speed width t : Nat) {K : Kept} {s : State} (hs : K.Evolves (s.kept B)) :
    Keeps B K (execPcieLinkUp speed width t s) := by
  simp [↓State.kept_ite, execPcieLinkUp, hs]

@[simp] theorem keeps_execFunctionLevelReset (left t : Nat) {K : Kept} {s : State} (hs : K.Evolves (s.kept B)) :
    Keeps B K (execFunctionLevelReset left t s) := by
  unfold execFunctionLevelReset
  exact .doneIf hs rfl (by simp [↓State.kept_ite, hs.inv])

@[simp] theorem keeps_matrixCommands {K : Kept} {s : State} (hs : K.Evolves (s.kept B)) :
    (∀ master, Keeps B K (execErrAddrRead master s)) ∧ (∀ v t, Keeps B K (execMasterReset v t s)) ∧
    (∀ v t, Keeps B K (execMasterRelease v t s)) ∧ (∀ t, Keeps B K (execPcieLinkDown t s)) := by
  simp [execErrAddrRead, execMasterReset, execMasterRelease, execPcieLinkDown, hs, hs.inv]

/-! ## Melier -/

@[simp] theorem State.kept_setMel (s : State) (m : MelEng) : (s.setMel m).kept B = s.kept B := by
  simp [State.setMel]

@[simp] theorem State.kept_states (s : State) :
    (∀ st, (s.setMelState st).kept B = s.kept B) ∧ (∀ r, (s.follow r).kept B = s.kept B) ∧ (s.holdFreq).2.kept B = s.kept B ∧
    s.unlock.kept B = s.kept B ∧ s.startHoldTimer.kept B = s.kept B := by
  simp [State.setMelState, State.follow, State.meanFreq, State.holdFreq, State.unlock, State.startHoldTimer]

@[simp] theorem State.kept_holdOver (s : State) : s.holdOver.kept B = s.kept B := by
  unfold State.holdOver
  dsimp only
  split <;> simp

@[simp] theorem State.kept_trimPairs (s : State) : s.trimPairs.kept B = s.kept B := by
  simp [State.trimPairs]

@[simp] theorem State.kept_onceQualified (s : State) (r : Nat) : (s.onceQualified r).kept B = s.kept B := by
  simp [State.onceQualified]

@[simp] theorem State.kept_disqualify (s : State) (r cause : Nat) : (s.disqualify r cause).kept B = s.kept B := by
  simp [State.disqualify]

@[simp] theorem State.kept_refreshRanks (s : State) : s.refreshRanks.kept B = s.kept B := by
  simp [State.refreshRanks]

@[simp] theorem State.kept_lockEntered (s : State) : s.lockEntered.kept B = s.kept B := by
  simp [State.lockEntered]

@[simp] theorem State.kept_refEnables (s : State) : s.refEnables.kept B = s.kept B := by
  simp [State.refEnables]

@[simp] theorem State.kept_esmcQl (s : State) (port : Nat) : (s.esmcQl port).2.kept B = s.kept B := by
  simp [State.esmcQl]

@[simp] theorem State.kept_selectRef (s : State) (r : Nat) : (s.selectRef r).kept B = s.kept B := by
  simp [State.selectRef]

@[simp] theorem State.kept_refEvaluate (s : State) : s.refEvaluate.kept B = s.kept B := by
  unfold State.refEvaluate
  split
  · rfl
  · split <;> simp

@[simp] theorem State.kept_settlePair (s : State) (i j : Nat) : (s.settlePair i j).kept B = s.kept B := by
  unfold State.settlePair
  dsimp only
  split
  · split <;> simp
  · simp

@[simp] theorem State.kept_trackRef (s : State) : s.trackRef.kept B = s.kept B := by
  simp [State.trackRef]

@[simp] theorem State.kept_lockAndHoldover (s : State) :
    s.forceHold.kept B = s.kept B ∧ s.outOfSpec.kept B = s.kept B := by
  simp [State.forceHold, State.outOfSpec]

@[simp] theorem State.kept_lossOfOscIn (s : State) :
    (∀ cycles, (s.holdFor cycles).kept B = s.kept B) ∧ s.holdGap.kept B = s.kept B ∧ s.oscStops.kept B = s.kept B ∧
    s.oscBack.kept B = s.kept B := by
  simp [State.holdFor, State.holdGap, State.oscStops, State.oscBack]

@[simp] theorem State.kept_lockstepPair (s : State) :
    s.passOutput.kept B = s.kept B ∧ s.swapFails.kept B = s.kept B ∧ s.coreFault.kept B = s.kept B ∧
    s.plannedSwap.kept B = s.kept B ∧ s.pairReset.kept B = s.kept B ∧ (∀ v, (s.melCtrl v).kept B = s.kept B) := by
  simp [State.passOutput, State.swapFails, State.coreFault, State.plannedSwap, State.melResync, State.pairReset, State.melCtrl]

@[simp] theorem keeps_execTodMessageRx (r : Nat) (msg : List Byte) (after t : Nat) {K : Kept} {s : State} (hs : K.Evolves (s.kept B)) :
    Keeps B K (execTodMessageRx r msg after t s) := by
  unfold execTodMessageRx
  refine .doneIf hs rfl ?_
  dsimp only
  split
  · split
    · split <;> simp
    · simp
  · simp

@[simp] theorem keeps_execSwapMonitorEnd (mismatch : Bool) (t : Nat) {K : Kept} {s : State} (hs : K.Evolves (s.kept B)) :
    Keeps B K (execSwapMonitorEnd mismatch t s) := by
  unfold execSwapMonitorEnd
  split <;> simp [hs]

@[simp] theorem keeps_execMelierStartupDone (t : Nat) {K : Kept} {s : State} (hs : K.Evolves (s.kept B)) :
    Keeps B K (execMelierStartupDone t s) := by
  simp [↓State.kept_ite, execMelierStartupDone, hs]

@[simp] theorem keeps_melierCommands {K : Kept} {s : State} (hs : K.Evolves (s.kept B)) :
    (∀ port event ql t, Keeps B K (execEsmcPduRx port event ql t s)) ∧ (∀ port t, Keeps B K (execEsmcTimeout port t s)) ∧
    (∀ port t, Keeps B K (execEsmcPduTx port t s)) ∧ (∀ r cause t, Keeps B K (execRefDisqualify r cause t s)) ∧
    (∀ r t, Keeps B K (execRefQualify r t s)) ∧ (∀ r t, Keeps B K (execRefAvailable r t s)) ∧
    (∀ t, Keeps B K (execRefSelectEval t s)) ∧ (∀ t, Keeps B K (execSwitchSettled t s)) ∧
    (∀ foff toff t, Keeps B K (execDisagreeCheck foff toff t s)) ∧ (∀ t, Keeps B K (execDpllLock t s)) ∧
    (∀ t, Keeps B K (execHoldoverExpired t s)) ∧ (∀ t, Keeps B K (execOscLost t s)) ∧ (∀ t, Keeps B K (execTakeover t s)) ∧
    (∀ t, Keeps B K (execMelierMismatch t s)) ∧ (∀ t, Keeps B K (execTimeCoreFault t s)) ∧
    (∀ t, Keeps B K (execResyncDone t s)) ∧ (∀ v t, Keeps B K (execForceHoldover v t s)) ∧
    (∀ v t, Keeps B K (execPlannedSwap v t s)) ∧ (∀ v t, Keeps B K (execResync v t s)) ∧
    (∀ v t, Keeps B K (execPairRst v t s)) := by
  simp [execEsmcPduRx, execEsmcTimeout, execEsmcPduTx, execRefDisqualify, execRefQualify, execRefAvailable, execRefSelectEval,
    execSwitchSettled, execDisagreeCheck, execDpllLock, execHoldoverExpired, execOscLost, execTakeover, execMelierMismatch,
    execTimeCoreFault, execResyncDone, execForceHoldover, execPlannedSwap, execResync, execPairRst, hs]

/-! ## Pitch -/

@[simp] theorem State.kept_pitch (s : State) :
    s.pitchRangeCheck.kept B = s.kept B ∧ (∀ p src st, (s.takePitch p src st).kept B = s.kept B) ∧ s.pitchCall.kept B = s.kept B := by
  simp [State.pitchRangeCheck, State.takePitch, State.pitchCall]

@[simp] theorem State.kept_pitchWordCounted (s : State) (low : Nat) : (s.pitchWordCounted low).kept B = s.kept B := by
  unfold State.pitchWordCounted
  dsimp only
  split
  · split
    · simp
    · split <;> simp
  · simp

@[simp] theorem State.kept_pitchRecall_to_pitchAssign (s : State) :
    s.pitchRecall.kept B = s.kept B ∧ (∀ v, (s.pitchAssign v).kept B = s.kept B) := by
  simp [State.pitchRecall, State.pitchAssign]

@[simp] theorem keeps_execPitchWordRx (w : PitchWord) {K : Kept} {s : State} (hs : K.Evolves (s.kept B)) :
    Keeps B K (execPitchWordRx w s) := by
  unfold execPitchWordRx
  dsimp only
  split
  · split <;> simp [hs]
  · simp [hs]

@[simp] theorem keeps_execAssignmentFrameRx (port : Nat) (frame : List Byte) (_room : Bool) {K : Kept} {s : State} (hs :
    K.Evolves (s.kept B)) :
    Keeps B K (execAssignmentFrameRx port frame _room s) := by
  unfold execAssignmentFrameRx
  dsimp only
  split
  · split
    · split <;> simp [hs]
    · simp [hs]
  · simp [hs]

@[simp] theorem keeps_pitchCommands {K : Kept} {s : State} (hs : K.Evolves (s.kept B)) :
    (∀ t, Keeps B K (execPitchWordTx t s)) ∧ (∀ t, Keeps B K (execOrphan t s)) ∧ (∀ t, Keeps B K (execPitchRecall t s)) ∧
    (∀ v, Keeps B K (execPitchAssign v s)) := by
  simp [execPitchWordTx, execOrphan, execPitchRecall, execPitchAssign, hs]

/-! ## Ptp -/

@[simp] theorem State.kept_setPtp (s : State) (p : PtpEng) (hpd : p.pd.length = s.ptp.pd.length)
    (hegress : p.egress.length = s.ptp.egress.length) : (s.setPtp p).kept B = s.kept B := by
  simp [State.setPtp, hpd, hegress]

@[simp] theorem State.kept_stationTime (s : State) :
    (∀ v, (s.loadTime v).kept B = s.kept B) ∧ (∀ v, (s.timeSet v).kept B = s.kept B) ∧ s.tsetCancel.kept B = s.kept B ∧
    (s.nowRead).2.kept B = s.kept B := by
  simp -implicitDefEqProofs [State.loadTime, State.timeSet, State.tsetCancel, State.nowRead]

@[simp] theorem State.kept_stampPop (s : State) : (s.stampPop).2.kept B = s.kept B := by
  unfold State.stampPop
  split <;> simp

@[simp] theorem State.kept_stamps (s : State) :
    (∀ r, (s.ppsEdge r).kept B = s.kept B) ∧ (∀ src fall fr, (s.queueStamp src fall fr).kept B = s.kept B) := by
  simp [State.ppsEdge, State.queueStamp]

@[simp] theorem State.kept_transparentClock (s : State) :
    s.tcDisc.kept B = s.kept B ∧ s.tcUnmatched.kept B = s.kept B ∧
    (∀ port f o tx, (s.svcForwardPtp port f o tx).kept B = s.kept B) := by
  simp [State.tcDisc, State.tcUnmatched, State.svcForwardPtp]

@[simp] theorem State.kept_sendCorrected (s : State) (port : Nat) (f : List Byte) (l : PtpLoc) (add : Int) (tx : Nat) :
    (s.sendCorrected port f l add tx).kept B = s.kept B := by
  unfold State.sendCorrected
  split <;> simp

@[simp] theorem State.kept_tcMessage (s : State) (port : Nat) (f : List Byte) (l : PtpLoc) (tx : Nat) :
    (s.tcMessage port f l tx).kept B = s.kept B := by
  unfold State.tcMessage
  dsimp only
  split
  · simp
  · split <;> simp
  all_goals simp

@[simp] theorem State.kept_ptpMessage (s : State) (port : Nat) (f : List Byte) (tx : Nat) :
    (s.ptpMessage port f tx).kept B = s.kept B := by
  unfold State.ptpMessage
  split <;> simp

@[simp] theorem State.kept_slaveFaulty (s : State) : s.slaveFaulty.kept B = s.kept B := by
  simp [State.slaveFaulty]

@[simp] theorem State.kept_slaveRx (s : State) (port : Nat) (f : List Byte) (ok : Bool) : (s.slaveRx port f ok).kept B = s.kept B := by
  simp [State.slaveRx]

@[simp] theorem State.kept_setPd (s : State) (port : Nat) (p : PdPort) : (s.setPd port p).kept B = s.kept B := by
  simp [State.setPd]

@[simp] theorem State.kept_pdValue (s : State) (port : Nat) (twice : Int) : (s.pdValue port twice).kept B = s.kept B := by
  unfold State.pdValue
  simp [↓State.kept_ite]

@[simp] theorem State.kept_showMaster (s : State) : s.showMaster.kept B = s.kept B := by
  unfold State.showMaster
  split <;> simp

@[simp] theorem State.kept_slave (s : State) :
    (∀ st, (s.slaveTo st).kept B = s.kept B) ∧ (∀ st, (s.slaveListen st).kept B = s.kept B) ∧
    (∀ v, (s.slaveCtrl v).kept B = s.kept B) ∧ s.masterLost.kept B = s.kept B := by
  simp -implicitDefEqProofs [State.slaveTo, State.slaveListen, State.slaveCtrl, State.masterLost]

@[simp] theorem State.kept_selectMaster (s : State) : s.selectMaster.kept B = s.kept B := by
  unfold State.selectMaster
  dsimp only
  split <;> simp

@[simp] theorem State.kept_ptpSecond (s : State) (m : Int) : (s.ptpSecond m).kept B = s.kept B := by
  unfold State.ptpSecond
  split <;> simp

@[simp] theorem State.kept_svcDown (s : State) (port : Nat) : (s.svcDown port).kept B = s.kept B := by
  simp [State.svcDown]

@[simp] theorem State.kept_svcCtrl (s : State) (port v : Nat) : (s.svcCtrl port v).kept B = s.kept B := by
  simp [State.svcCtrl]

@[simp] theorem State.kept_slaveOffset (s : State) (seq : Nat) (origin stamp : Int) :
    (s.slaveOffset seq origin stamp).kept B = s.kept B := by
  simp [State.slaveOffset]

@[simp] theorem State.kept_inputDelays (s : State) :
    (∀ v, (s.cdCommit v).kept B = s.kept B) ∧ s.cdBell.kept B = s.kept B := by
  simp [State.cdCommit, State.cdBell]

@[simp] theorem keeps_execTwoStepEntryTimeout (t : Nat) {K : Kept} {s : State} (hs : K.Evolves (s.kept B)) :
    Keeps B K (execTwoStepEntryTimeout t s) := by
  unfold execTwoStepEntryTimeout
  dsimp only
  split <;> simp -implicitDefEqProofs [hs]

@[simp] theorem keeps_execPdelayReqRx (port : Nat) (frame : List Byte) (tx t : Nat) {K : Kept} {s : State} (hs : K.Evolves (s.kept B)) :
    Keeps B K (execPdelayReqRx port frame tx t s) := by
  unfold execPdelayReqRx
  dsimp only
  split
  · exact .doneIf hs rfl (by simp [↓State.kept_ite])
  · simp [hs]

@[simp] theorem keeps_execPdelayRespRx (port : Nat) (frame : List Byte) (t : Nat) {K : Kept} {s : State} (hs : K.Evolves (s.kept B)) :
    Keeps B K (execPdelayRespRx port frame t s) := by
  unfold execPdelayRespRx
  dsimp only
  split
  · refine .doneIf hs rfl ?_
    split
    · simp
    · split <;> simp
  · simp [hs]

@[simp] theorem keeps_execAnnounceRx (frame : List Byte) (t : Nat) {K : Kept} {s : State} (hs : K.Evolves (s.kept B)) :
    Keeps B K (execAnnounceRx frame t s) := by
  unfold execAnnounceRx
  dsimp only
  split <;> simp -implicitDefEqProofs [hs]

@[simp] theorem keeps_execAnnounceTimeout (t : Nat) {K : Kept} {s : State} (hs : K.Evolves (s.kept B)) :
    Keeps B K (execAnnounceTimeout t s) := by
  unfold execAnnounceTimeout
  dsimp only
  split <;> simp -implicitDefEqProofs [hs]

@[simp] theorem keeps_execSyncRx (frame : List Byte) (t : Nat) {K : Kept} {s : State} (hs : K.Evolves (s.kept B)) :
    Keeps B K (execSyncRx frame t s) := by
  unfold execSyncRx
  dsimp only
  split
  · refine .doneIf hs rfl ?_
    split
    · simp -implicitDefEqProofs
    · split <;> simp -implicitDefEqProofs
    · rfl
  · simp -implicitDefEqProofs [hs]

@[simp] theorem keeps_execDelayRespRx (frame : List Byte) (t : Nat) {K : Kept} {s : State} (hs : K.Evolves (s.kept B)) :
    Keeps B K (execDelayRespRx frame t s) := by
  unfold execDelayRespRx
  dsimp only
  split <;> simp -implicitDefEqProofs [hs]

@[simp] theorem keeps_execSvcLinkUp (port t : Nat) {K : Kept} {s : State} (hs : K.Evolves (s.kept B)) :
    Keeps B K (execSvcLinkUp port t s) := by
  simp -implicitDefEqProofs [↓State.kept_ite, execSvcLinkUp, hs]

@[simp] theorem keeps_ptpCommands {K : Kept} {s : State} (hs : K.Evolves (s.kept B)) :
    (∀ v t, Keeps B K (execTimeSetCmd v t s)) ∧ (∀ master t, Keeps B K (execNowRead master t s)) ∧
    (∀ src fall t, Keeps B K (execStampEdge src fall t s)) ∧ (∀ master, Keeps B K (execStampQueuePop master s)) ∧
    (∀ port frame _room tx t, Keeps B K (execPtpMessageRx port frame _room tx t s)) ∧
    (∀ port t, Keeps B K (execPdelayReqTx port t s)) ∧ (∀ port t, Keeps B K (execPdFail port t s)) ∧
    (∀ v t, Keeps B K (execSlaveEnable v t s)) ∧ (∀ t, Keeps B K (execDelayReqTx t s)) ∧
    (∀ port t, Keeps B K (execSvcLinkDown port t s)) ∧ (∀ t, Keeps B K (execSlaveFaultRecover t s)) ∧
    (∀ v t, Keeps B K (execInputDelayCommit v t s)) := by
  simp -implicitDefEqProofs [execTimeSetCmd, execNowRead, execStampEdge, execStampQueuePop, execPtpMessageRx, execPdelayReqTx, execPdFail,
    execSlaveEnable,
    execDelayReqTx, execSvcLinkDown, execSlaveFaultRecover, execInputDelayCommit, hs]


end Sys2Proof.Machine
end

section
/-! SUPPORT. What the operations and commands of power, memory, the ledger, the loader, the bell engine, the canopy, security and the bus
keep. -/
namespace Sys2Proof.Machine

variable {B : Prop}

/-! ## Power -/

@[simp] theorem State.kept_setPwr (s : State) (p : Power) (h : p.attempts.length = s.pwr.attempts.length) :
    (s.setPwr p).kept B = s.kept B := by
  simp [State.setPwr, h]

@[simp] theorem State.kept_domainsAndVotes (s : State) :
    (∀ st, (s.setPowerState st).kept B = s.kept B) ∧ (∀ d master v, (s.voteWrite d master v).kept B = s.kept B) := by
  simp [State.setPowerState, State.voteWrite]

@[simp] theorem State.kept_dramLose {s : State} (h : (s.kept B).inv) : s.dramLose.kept B = s.kept B := by
  simp [State.dramLose, h]

@[simp] theorem State.kept_strapRegs (s : State) : s.strapRegs.kept B = s.kept B := by
  simp [State.strapRegs]

@[simp] theorem State.kept_wipe {s : State} (a n : Nat) (h : (s.kept B).inv) : (s.wipe a n).kept B = s.kept B := by
  simp [State.wipe, h]

/-- The trunk's power-down puts as many units of each kind in the place of the old. -/
@[simp] theorem State.kept_trunkOff {s : State} (h : (s.kept B).inv) : s.trunkOff.kept B = s.kept B := by
  unfold State.trunkOff
  extract_lets r locked dram sec s1 s2
  have h1 : s1.kept B = s.kept B := by
    refine State.kept_of_inv rfl rfl rfl rfl h fun hi => ?_
    obtain ⟨hmem, hcoef, hwin, hscales, hnin, hlanes, hgroups, hins, hports, hclanes, hslots, hrecs, hdies, hrails, hthm, hpor, hcores,
      hpd, hegress, hattempts⟩ := hi
    exact ⟨hmem, rfl, rfl, rfl, rfl, rfl, rfl, rfl, rfl, rfl, rfl, rfl, rfl, rfl, rfl, rfl, rfl, hpd, hegress, hattempts⟩
  clear_value s1
  simp [s2, h1, h]

@[simp] theorem State.kept_powerUp (s : State) (d : Nat) : (s.powerUp d).kept B = s.kept B := by
  simp -implicitDefEqProofs [State.powerUp]

@[simp] theorem State.kept_holdExit (s : State) : s.holdExit.kept B = s.kept B := by
  simp [State.holdExit]

theorem State.kept_setFree (s : State) (n : Nat) : ({ s with free := n } : State).kept B = s.kept B := by
  simp

@[simp] theorem State.kept_freeBank {s : State} (n : Nat) (h : (s.kept B).inv) : (s.freeBank n).kept B = s.kept B :=
  (State.kept_setFree _ _).trans ((State.kept_memory h).1 _ _)

@[simp] theorem State.kept_beginStep (s : State) (k : Nat) : (s.beginStep k).kept B = s.kept B := by
  unfold State.beginStep
  split <;> simp

@[simp] theorem State.kept_deepEntry (s : State) : (∀ v, (s.pwrCtrl v).kept B = s.kept B) ∧ s.lowPower.kept B = s.kept B := by
  simp [State.pwrCtrl, State.lowPower]

/-- A wake-up counts its four attempts from 0. -/
@[simp] theorem State.kept_wakeStart {s : State} (cause : Nat) (h : (s.kept B).inv) : (s.wakeStart cause).kept B = s.kept B := by
  unfold State.wakeStart
  extract_lets x s1
  have h1 : s1.kept B = s.kept B := by
    refine State.kept_of_inv rfl rfl rfl rfl h fun hi => ?_
    obtain ⟨hmem, hcoef, hwin, hscales, hnin, hlanes, hgroups, hins, hports, hclanes, hslots, hrecs, hdies, hrails, hthm, hpor, hcores,
      hpd, hegress, hattempts⟩ := hi
    exact ⟨hmem, hcoef, hwin, hscales, hnin, hlanes, hgroups, hins, hports, hclanes, hslots, hrecs, hdies, hrails, hthm, hpor, hcores,
      hpd, hegress, rfl⟩
  clear_value s1
  simp [h1]

@[simp] theorem State.kept_saveBanks {s : State} (h : (s.kept B).inv) : s.saveBanks.kept B = s.kept B := by
  have hbank : ∀ (t : State) n, t.kept B = s.kept B → (t.freeBank n).kept B = s.kept B := fun t n ht =>
    (State.kept_freeBank n (State.inv_of_kept ht h)).trans ht
  unfold State.saveBanks
  exact hbank _ _ (hbank _ _ (hbank _ _ (hbank _ _ (hbank _ _ (by simp)))))

@[simp] theorem State.kept_selfRefresh {s : State} (h : (s.kept B).inv) : s.selfRefresh.kept B = s.kept B := State.kept_dramZero _ h

@[simp] theorem State.kept_melRestart (s : State) (held : Option Int) : (s.melRestart held).kept B = s.kept B := by
  unfold State.melRestart
  dsimp only
  split <;> simp

@[simp] theorem State.kept_retentionCheck {s : State} (upset : Nat) (h : (s.kept B).inv) : (s.retentionCheck upset).kept B = s.kept B := by
  unfold State.retentionCheck
  extract_lets s1 bad s2 x
  have h1 : s1.kept B = s.kept B := State.kept_each_of _ h fun t n ht => State.kept_freeBank n ht
  clear_value s1 bad
  simp -implicitDefEqProofs [x, s2, h1]

@[simp] theorem State.kept_powerUpAndWake (s : State) :
    s.restoreLanes.kept B = s.kept B ∧ (∀ v, (s.retBadClear v).kept B = s.kept B) := by
  simp [State.restoreLanes, State.retBadClear]

@[simp] theorem keeps_execThermalVoteRelease (d t : Nat) {K : Kept} {s : State} (hs : K.Evolves (s.kept B)) :
    Keeps B K (execThermalVoteRelease d t s) := by
  unfold execThermalVoteRelease
  dsimp only
  split <;> simp -implicitDefEqProofs [hs]

@[simp] theorem keeps_execWakeEdge (t : Nat) {K : Kept} {s : State} (hs : K.Evolves (s.kept B)) : Keeps B K (execWakeEdge t s) := by
  unfold execWakeEdge
  refine .doneIf hs rfl ?_
  dsimp only
  split <;> simp -implicitDefEqProofs [hs.inv]

@[simp] theorem keeps_execPowerUpRetry (t : Nat) {K : Kept} {s : State} (hs : K.Evolves (s.kept B)) : Keeps B K (execPowerUpRetry t s) := by
  unfold execPowerUpRetry
  dsimp only
  split <;> simp [hs]

@[simp] theorem keeps_powerCommands {K : Kept} {s : State} (hs : K.Evolves (s.kept B)) :
    (∀ d master v t, Keeps B K (execVoteWrite d master v t s)) ∧ (∀ v t, Keeps B K (execDeepEntryRequest v t s)) ∧
    (∀ v t, Keeps B K (execRetentionBadClear v t s)) := by
  simp [execVoteWrite, execDeepEntryRequest, execRetentionBadClear, hs]

/-! ## Fabric -/

@[simp] theorem State.kept_windowRead (s : State) (d a n : Nat) : (s.windowRead d a n).2.kept B = s.kept B := by
  simp [State.windowRead]

@[simp] theorem State.kept_memRead (s : State) (m a n hint : Nat) : (s.memRead m a n hint).2.kept B = s.kept B := by
  unfold State.memRead
  split
  · rfl
  · split <;> simp

@[simp] theorem State.kept_sramWrite {s : State} (a be : Nat) (l : List Byte) (h : (s.kept B).inv) :
    (s.sramWrite a be l).kept B = s.kept B := by
  unfold State.sramWrite
  refine (State.kept_setDram _ _).trans (State.kept_each_of _ h fun t p ht => ?_)
  split
  · exact State.kept_memory ht |>.1 _ _
  · rfl

@[simp] theorem State.kept_memWrite {s : State} (m a be : Nat) (l : List Byte) (hint : Nat) (h : (s.kept B).inv) :
    (s.memWrite m a be l hint).2.kept B = s.kept B := by
  unfold State.memWrite
  split
  · rfl
  · split <;> simp [h]

@[simp] theorem State.kept_ownRead (s : State) (m a n : Nat) : (s.ownRead m a n).2.kept B = s.kept B := by
  unfold State.ownRead
  refine kept_foldl_get Prod.snd _ _ fun b c _ => ?_
  have hread := b.2.kept_memRead (B := B) m c.1 c.2 0
  split <;> simp_all

@[simp] theorem State.kept_ownWrite {s : State} (m a : Nat) (l : List Byte) (h : (s.kept B).inv) :
    (s.ownWrite m a l).kept B = s.kept B := by
  unfold State.ownWrite
  refine State.kept_each_of _ h fun t c ht => ?_
  have hwrite := State.kept_memWrite m c.1 (2 ^ c.2 - 1) ((l.drop (c.1 - a)).take c.2) 0 ht
  split <;> simp_all

@[simp] theorem State.kept_ledgerTouch (s : State) (a n : Nat) : (s.ledgerTouch a n).kept B = s.kept B := by
  simp [State.ledgerTouch]

@[simp] theorem State.kept_ledgerStore {s : State} (a : Nat) (l : List Byte) (h : (s.kept B).inv) :
    (s.ledgerStore a l).kept B = s.kept B := by
  simp [State.ledgerStore, h]

@[simp] theorem State.kept_setPorter (s : State) (c : Nat) (p : Porter) : (s.setPorter c p).kept B = s.kept B := by
  simp [State.setPorter]

@[simp] theorem State.kept_porterStop (s : State) (c cause : Nat) : (s.porterStop c cause).kept B = s.kept B := by
  unfold State.porterStop
  split <;> simp

@[simp] theorem State.kept_porterLoad (s : State) (c a : Nat) (go : Bool) : (s.porterLoad c a go).kept B = s.kept B := by
  unfold State.porterLoad
  dsimp only
  split
  · simp
  · split <;> simp

@[simp] theorem State.kept_porterCtrl (s : State) (c v : Nat) : (s.porterCtrl c v).kept B = s.kept B := by
  simp [State.porterCtrl]

/-! ## Ledger -/

@[simp] theorem State.kept_setLed (s : State) (l : Ledger) (h : l.rails.length = s.led.rails.length) :
    (s.setLed l).kept B = s.kept B := by
  simp [State.setLed, h]

theorem State.kept_setLed_of {s t : State} {l : Ledger} (ht : t.kept B = s.kept B) (h : (s.kept B).inv)
    (hl : l.rails.length = s.led.rails.length) : (t.setLed l).kept B = s.kept B := by
  refine Eq.trans ?_ ht
  rcases h with hB | ⟨hmem, hcoef, hwin, hscales, hnin, hlanes, hgroups, hins, hports, hclanes, hslots, hrecs, hdies, hs, hrest⟩
  · simp [State.kept, State.setLed, hB]
  · refine State.kept_of_inv rfl rfl rfl rfl (State.inv_of_kept ht (.inr ?_)) fun hi => ?_
    · exact ⟨hmem, hcoef, hwin, hscales, hnin, hlanes, hgroups, hins, hports, hclanes, hslots, hrecs, hdies, hs, hrest⟩
    · obtain ⟨kmem, kcoef, kwin, kscales, knin, klanes, kgroups, kins, kports, kclanes, kslots, krecs, kdies, -, krest⟩ := hi
      exact ⟨kmem, kcoef, kwin, kscales, knin, klanes, kgroups, kins, kports, kclanes, kslots, krecs, kdies, hl.trans hs, krest⟩

@[simp] theorem State.kept_setRail (s : State) (r : Nat) (x : RailMeter) : (s.setRail r x).kept B = s.kept B := by
  simp [State.setRail]

@[simp] theorem State.kept_pmbusTelemetry (s : State) :
    (∀ r v, (s.railCfg r v).kept B = s.kept B) ∧ (∀ x, (s.factorOf x).2.kept B = s.kept B) := by
  simp [State.railCfg, State.factorOf]

@[simp] theorem State.kept_readCoefs (s : State) : s.readCoefs.kept B = s.kept B := by
  simp [State.readCoefs]

@[simp] theorem State.kept_metering (s : State) :
    (∀ v, (s.ledCtrl v).kept B = s.kept B) ∧ (∀ active r e, (s.meterRail active r e).kept B = s.kept B) := by
  simp [State.ledCtrl, State.meterRail]

@[simp] theorem State.kept_meterEnd {s : State} (h : (s.kept B).inv) : s.meterEnd.kept B = s.kept B := by
  unfold State.meterEnd
  split
  · simp
  · extract_lets a s1
    have h1 : s1.kept B = s.kept B := State.kept_each_of _ h fun t e ht => by simp [ht]
    clear_value s1
    simp [h1]

@[simp] theorem State.kept_ledgerClose {s : State} (h : (s.kept B).inv) : s.ledgerClose.kept B = s.kept B := by
  unfold State.ledgerClose
  split <;> simp [h]

@[simp] theorem State.kept_ledgerStart (s : State) : s.ledgerStart.kept B = s.kept B := by
  unfold State.ledgerStart
  dsimp only
  split <;> simp -implicitDefEqProofs

@[simp] theorem State.kept_dropEntries (s : State) (shed deferred : List Nat) : (s.dropEntries shed deferred).kept B = s.kept B := by
  simp [State.dropEntries]

@[simp] theorem State.kept_ledgerBell {s : State} (f : Nat) (h : (s.kept B).inv) : (s.ledgerBell f).kept B = s.kept B := by
  unfold State.ledgerBell
  extract_lets s1 p m q x s2
  have h2 : s2.kept B = s.kept B := by simp [s2, x, s1, h]
  clear_value s2
  simp [h2]

@[simp] theorem State.kept_slotEnds (s : State) :
    (∀ slot p, (s.brake slot p).kept B = s.kept B) ∧ (∀ active r e, (s.spendRail active r e).kept B = s.kept B) := by
  simp [State.brake, State.spendRail]

@[simp] theorem keeps_execLedgerPlan (t : Nat) {K : Kept} {s : State} (hs : K.Evolves (s.kept B)) : Keeps B K (execLedgerPlan t s) := by
  unfold execLedgerPlan
  extract_lets s0
  split
  · refine .doneIf hs rfl ?_
    extract_lets p x s1
    have h1 : s1.kept B = s0.kept B :=
      (State.kept_setFld _ _ _).trans (State.kept_setLed_of s0.kept_readCoefs hs.inv rfl)
    clear_value s1
    simp [↓State.kept_ite, h1]
  · simp [s0, hs]

@[simp] theorem keeps_execLedgerSlotEnd (rails : List Nat) (active : List Active) (t : Nat) {K : Kept} {s : State} (hs :
    K.Evolves (s.kept B)) :
    Keeps B K (execLedgerSlotEnd rails active t s) := by
  unfold execLedgerSlotEnd
  extract_lets s0
  split
  · refine .doneIf hs (by rfl) ?_
    extract_lets s1 x s2 s3
    have h2 : s2.kept B = s0.kept B := by simp [s2, x, s1]
    have h3 : s3.kept B = s0.kept B := by
      unfold s3
      split
      · split <;> simp [h2]
      · exact h2
    have h0 : (s0.kept B).inv := hs.inv
    clear_value s3
    split <;> simp [h3, h0]
  · simp [s0, hs]

/-- What a report that has been written leaves of the ledger. -/
theorem State.evolves_reported {K : Kept} {s : State} (h : K.Evolves (s.kept B)) (due : List FrameReport) (seq : Nat) (mb : Mailbox) :
    K.Evolves ((s.setLed { s.led with due := due, seq := seq, mb := mb }).kept B) := by
  simpa using h

@[simp] theorem keeps_execLedgerReport (t : Nat) {K : Kept} {s : State} (hs : K.Evolves (s.kept B)) : Keeps B K (execLedgerReport t s) := by
  unfold execLedgerReport
  dsimp only
  split
  next r l hdue =>
    refine (keeps_done _ _).mpr (State.evolves_reported ?_ l _ _)
    rw [State.kept_ledgerStore (s := s.at t) _ _ hs.inv]
    exact hs
  · exact (keeps_done _ _).mpr hs

@[simp] theorem keeps_ledgerCommands {K : Kept} {s : State} (hs : K.Evolves (s.kept B)) :
    (∀ rail raw valid t, Keeps B K (execPmbusRead rail raw valid t s)) ∧
    (∀ rail t, Keeps B K (execCorrectionUpdate rail t s)) ∧ (∀ rail t, Keeps B K (execPmbLost rail t s)) ∧
    (∀ v t, Keeps B K (execMeterRequest v t s)) := by
  simp [execPmbusRead, execCorrectionUpdate, execPmbLost, execMeterRequest, hs]

/-! ## Image -/

@[simp] theorem State.kept_image (s : State) :
    (∀ c, (s.setCfg c).kept B = s.kept B) ∧ (∀ k, (s.setLd k).kept B = s.kept B) := by
  simp [State.setCfg, State.setLd]

@[simp] theorem State.kept_loadRes_to_bootFail (s : State) :
    (∀ result reason kind, (s.loadRes result reason kind).kept B = s.kept B) ∧
    (∀ reason kind, (s.refuseLoad reason kind).kept B = s.kept B) ∧ s.bootFail.kept B = s.kept B := by
  simp [State.loadRes, State.refuseLoad, State.bootFail]

@[simp] theorem State.kept_afterReject (s : State) (j : LoadJob) : (s.afterReject j).kept B = s.kept B := by
  unfold State.afterReject
  dsimp only
  split
  · simp
  · split <;> simp

@[simp] theorem State.kept_rejectLoad_to_rejectWake (s : State) :
    (∀ j reason, (s.rejectLoad j reason).kept B = s.kept B) ∧ (∀ j, (s.rejectWake j).kept B = s.kept B) := by
  simp [State.rejectLoad, State.rejectWake]

@[simp] theorem State.kept_clerkMemories (s : State) :
    (∀ n mem l, (s.loadLocal n mem l).kept B = s.kept B) ∧ (∀ base sel, (s.loadClerks base sel).kept B = s.kept B) := by
  simp [State.loadLocal, State.loadClerks]

@[simp] theorem State.kept_handOver (s : State) (n : Nat) : (s.handOver n).kept B = s.kept B := by
  unfold State.handOver
  split <;> simp

@[simp] theorem State.kept_stallDieAndClerkChanges (s : State) :
    (∀ c, (s.setChange c).kept B = s.kept B) ∧ (∀ st die takeover hold, (s.showPart st die takeover hold).kept B = s.kept B) ∧
    (∀ o n, (s.keepLayout o n).kept B = s.kept B) ∧ (∀ n, (s.reopenDie n).kept B = s.kept B) ∧
    (∀ c, (s.haltCores c).kept B = s.kept B) ∧ (∀ c, (s.restartCores c).kept B = s.kept B) := by
  simp [State.setChange, State.showPart, State.keepLayout, State.reopenDie, State.haltCores, State.restartCores]

@[simp] theorem State.kept_castCtrl (s : State) (v : Nat) : (s.castCtrl v).kept B = s.kept B := by
  simp [State.castCtrl]

@[simp] theorem State.kept_castTake {s : State} (pl : List Byte) (h : (s.kept B).inv) : (s.castTake pl).kept B = s.kept B := by
  simp [State.castTake, h]

@[simp] theorem keeps_execStallReloadFail (t : Nat) {K : Kept} {s : State} (hs : K.Evolves (s.kept B)) :
    Keeps B K (execStallReloadFail t s) := by
  unfold execStallReloadFail
  dsimp only
  split <;> simp [hs]

@[simp] theorem keeps_execFlashBootRead (t : Nat) {K : Kept} {s : State} (hs : K.Evolves (s.kept B)) :
    Keeps B K (execFlashBootRead t s) := by
  simp [↓State.kept_ite, execFlashBootRead, hs, hs.inv]

@[simp] theorem keeps_execCastFrameTx (t : Nat) {K : Kept} {s : State} (hs : K.Evolves (s.kept B)) : Keeps B K (execCastFrameTx t s) := by
  unfold execCastFrameTx
  dsimp only
  split
  · exact .doneIf hs rfl (by simp [↓State.kept_ite])
  · simp [hs]

@[simp] theorem keeps_imageCommands {K : Kept} {s : State} (hs : K.Evolves (s.kept B)) :
    (∀ v t, Keeps B K (execCastSend v t s)) ∧ (∀ port frame _room t, Keeps B K (execCastFrameRx port frame _room t s)) := by
  simp [execCastSend, execCastFrameRx, hs, hs.inv]

/-! ## Engine -/

@[simp] theorem State.kept_leaveStopped (s : State) : s.leaveStopped.kept B = s.kept B := by
  unfold State.leaveStopped
  extract_lets s1 x s2
  have h2 : s2.kept B = s.kept B := by simp [s2, x, s1]
  clear_value s2
  simp [h2]

@[simp] theorem State.kept_engine (s : State) :
    (∀ b, (s.setBell b).kept B = s.kept B) ∧ (∀ st, (s.setBellState st).kept B = s.kept B) := by
  simp [State.setBell, State.setBellState]

@[simp] theorem State.kept_t0Write (s : State) (which v : Nat) : (s.t0Write which v).kept B = s.kept B := by
  unfold State.t0Write
  split
  · rfl
  · split <;> simp

@[simp] theorem State.kept_run (s : State) :
    s.waitLead.kept B = s.kept B ∧ s.startEngine.kept B = s.kept B := by
  simp [State.waitLead, State.startEngine]

@[simp] theorem State.kept_loadT0 (s : State) (w : BellWord) : (s.loadT0 w).kept B = s.kept B := by
  simp [State.loadT0]

@[simp] theorem State.kept_loopUpdate (s : State) (k : Int) (off : Int) : (s.loopUpdate k off).kept B = s.kept B := by
  simp [State.loopUpdate]

@[simp] theorem State.kept_bellWords (s : State) :
    (∀ off, (s.showOffset off).kept B = s.kept B) ∧ (∀ w inst, (s.adoptWord w inst).kept B = s.kept B) ∧
    (∀ k off, (s.matchWord k off).kept B = s.kept B) ∧ (∀ w k off, (s.stepWord w k off).kept B = s.kept B) ∧
    (∀ port w, (s.forwardWord port w).kept B = s.kept B) := by
  simp [State.showOffset, State.adoptWord, State.matchWord, State.stepWord, State.forwardWord]

@[simp] theorem keeps_execBellWordMissing {K : Kept} {s : State} (hs : K.Evolves (s.kept B)) : Keeps B K (execBellWordMissing s) := by
  unfold execBellWordMissing
  exact .doneIf hs rfl (by simp [↓State.kept_ite])

@[simp] theorem keeps_engineCommands {K : Kept} {s : State} (hs : K.Evolves (s.kept B)) :
    (∀ which v, Keeps B K (execT0Write which v s)) ∧ (∀ t, Keeps B K (execBellLost t s)) ∧ (∀ t, Keeps B K (execNoLead t s)) := by
  simp [execT0Write, execBellLost, execNoLead, hs]

/-! ## Canopy -/

@[simp] theorem State.kept_setCan (s : State) (c : Canopy) (hports : c.ports.length = s.can.ports.length)
    (hlanes : c.lanes.length = s.can.lanes.length) : (s.setCan c).kept B = s.kept B := by
  simp [State.setCan, hports, hlanes]

@[simp] theorem State.kept_portCtrl (s : State) (p v : Nat) : (s.portCtrl p v).kept B = s.kept B := by
  simp [State.portCtrl]

@[simp] theorem State.kept_numberingAcknowledgementAndReplay (s : State) :
    (∀ p, (s.replayRound p).kept B = s.kept B) ∧ (∀ p tr, (s.takeAck p tr).kept B = s.kept B) ∧
    (∀ p, (s.crcFailed p).kept B = s.kept B) ∧ (∀ p k tr crcOk, (s.linkAccept p k tr crcOk).1.kept B = s.kept B) := by
  simp [State.replayRound, State.takeAck, State.takeCredits, State.linkNak, State.crcFailed, State.linkAccept]

@[simp] theorem State.kept_linkRx (s : State) (p : Nat) (k : Packet) (tr : Trailer) (crcOk : Bool) {f : State → State}
    (h : ∀ t, (f t).kept B = t.kept B) : (s.linkRx p k tr crcOk f).kept B = s.kept B := by
  simp [State.linkRx, h]

theorem State.evolves_linkRx {K : Kept} {s : State} (p : Nat) (k : Packet) (tr : Trailer) (crcOk : Bool) {f : State → State}
    (hf : ∀ t, K.Evolves (t.kept B) → K.Evolves ((f t).kept B)) (hs : K.Evolves (s.kept B)) :
    K.Evolves ((s.linkRx p k tr crcOk f).kept B) := by
  have hacc : K.Evolves ((s.linkAccept p k tr crcOk).1.kept B) := by simp [hs]
  unfold State.linkRx
  dsimp only
  split
  · exact hf _ hacc
  · exact hacc

@[simp] theorem State.kept_takeData (s : State) (p : Nat) (k : Packet) : (s.takeData p k).kept B = s.kept B := by
  unfold State.takeData
  split <;> simp

@[simp] theorem State.kept_sendData (s : State) (p v : Nat) : (s.sendData p v).kept B = s.kept B := by
  unfold State.sendData
  split <;> simp

@[simp] theorem State.kept_transmit (s : State) (p : Nat) : (s.transmit p).kept B = s.kept B := by
  unfold State.transmit
  dsimp only
  split
  · simp
  · split
    · rfl
    · split
      · split <;> simp
      · split <;> simp

@[simp] theorem State.kept_hello (s : State) :
    (∀ p, (s.portToUp p).kept B = s.kept B) ∧ (∀ p, (s.portMismatch p).kept B = s.kept B) := by
  simp [State.portToUp, State.portMismatch]

@[simp] theorem State.kept_takeCast (s : State) (p : Nat) (c : Cast) {f : State → State}
    (h : ∀ t, (f t).kept B = t.kept B) : (s.takeCast p c f).kept B = s.kept B := by
  unfold State.takeCast
  dsimp only
  split
  · simp
  · exact (h _).trans (by simp)

@[simp] theorem State.kept_probes (s : State) :
    (∀ p, (s.showDelay p).kept B = s.kept B) ∧ (∀ p t1 t2 t3 t4, (s.takeExchange p t1 t2 t3 t4).kept B = s.kept B) := by
  simp [State.showDelay, State.takeExchange]

@[simp] theorem State.kept_parkClear (s : State) : s.parkClear.kept B = s.kept B := by
  unfold State.parkClear
  dsimp only
  split <;> simp -implicitDefEqProofs

@[simp] theorem State.kept_broadcasts (s : State) :
    (∀ pitch j, (s.noteJoin pitch j).kept B = s.kept B) ∧ (∀ pitch p, (s.notePark pitch p).kept B = s.kept B) := by
  simp [State.noteJoin, State.notePark]

@[simp] theorem State.kept_joinBell (s : State) (k : Nat) : (s.joinBell k).kept B = s.kept B := by
  unfold State.joinBell
  dsimp only
  split <;> simp

@[simp] theorem keeps_execCreditPacketRx (port : Nat) (p : Packet) (tr : Trailer) (crcOk : Bool) (t : Nat) {K : Kept} {s : State} (hs :
    K.Evolves (s.kept B)) :
    Keeps B K (execCreditPacketRx port p tr crcOk t s) := by
  unfold execCreditPacketRx
  split <;> simp [hs]

@[simp] theorem keeps_execDataPacketRx (port : Nat) (p : Packet) (tr : Trailer) (crcOk : Bool) (t : Nat) {K : Kept} {s : State} (hs :
    K.Evolves (s.kept B)) :
    Keeps B K (execDataPacketRx port p tr crcOk t s) := by
  unfold execDataPacketRx
  split <;> simp [hs]

@[simp] theorem keeps_execVoqStarve (port voq t : Nat) {K : Kept} {s : State} (hs : K.Evolves (s.kept B)) :
    Keeps B K (execVoqStarve port voq t s) := by
  unfold execVoqStarve
  dsimp only
  split <;> simp [hs]

@[simp] theorem keeps_execProbeRx (port : Nat) (p : Packet) (tr : Trailer) (crcOk : Bool) (rx t : Nat) {K : Kept} {s : State} (hs :
    K.Evolves (s.kept B)) :
    Keeps B K (execProbeRx port p tr crcOk rx t s) := by
  unfold execProbeRx
  split <;> simp [hs]

@[simp] theorem keeps_execProbeReplyRx (port : Nat) (p : Packet) (tr : Trailer) (crcOk : Bool) (rx t : Nat) {K : Kept} {s : State} (hs :
    K.Evolves (s.kept B)) :
    Keeps B K (execProbeReplyRx port p tr crcOk rx t s) := by
  unfold execProbeReplyRx
  split <;> simp [hs]

@[simp] theorem keeps_execCaptureCastRx (port : Nat) (p : Packet) (tr : Trailer) (crcOk : Bool) (t : Nat) {K : Kept} {s : State} (hs :
    K.Evolves (s.kept B)) :
    Keeps B K (execCaptureCastRx port p tr crcOk t s) := by
  unfold execCaptureCastRx
  dsimp only
  split
  · split
    · rw [keeps_done, State.kept_linkRx]
      · exact hs
      · exact fun t => State.kept_takeCast _ _ _ fun t => by split <;> simp
    · simp [hs]
  · simp [hs]

@[simp] theorem keeps_execJoinCastRx (port : Nat) (p : Packet) (tr : Trailer) (crcOk : Bool) (t : Nat) {K : Kept} {s : State} (hs :
    K.Evolves (s.kept B)) :
    Keeps B K (execJoinCastRx port p tr crcOk t s) := by
  unfold execJoinCastRx
  dsimp only
  split
  · split <;> simp [hs]
  · simp [hs]

@[simp] theorem keeps_execParkCastRx (port : Nat) (p : Packet) (tr : Trailer) (crcOk : Bool) (t : Nat) {K : Kept} {s : State} (hs :
    K.Evolves (s.kept B)) :
    Keeps B K (execParkCastRx port p tr crcOk t s) := by
  unfold execParkCastRx
  dsimp only
  split
  · split <;> simp [hs]
  · simp [hs]

@[simp] theorem keeps_canopyCommands {K : Kept} {s : State} (hs : K.Evolves (s.kept B)) :
    (∀ port v, Keeps B K (execCanPortPowerWrite port v s)) ∧ (∀ port, Keeps B K (execPortEnable port s)) ∧
    (∀ port, Keeps B K (execPortDisable port s)) ∧ (∀ port t, Keeps B K (execPortTrained port t s)) ∧
    (∀ port, Keeps B K (execHelloTx port s)) ∧ (∀ port lanes, Keeps B K (execPortDown port lanes s)) ∧
    (∀ port t, Keeps B K (execHelloTimeout port t s)) ∧
    (∀ port p tr crcOk t, Keeps B K (execUnknownKindPacketRx port p tr crcOk t s)) ∧
    (∀ port t, Keeps B K (execReplayTimeout port t s)) ∧ (∀ port, Keeps B K (execReplayLimit port s)) ∧
    (∀ port, Keeps B K (execAckTx port s)) ∧ (∀ port t, Keeps B K (execPortTransmit port t s)) ∧
    (∀ port t, Keeps B K (execProbeTx port t s)) := by
  simp [execCanPortPowerWrite, execPortEnable, execPortDisable, execPortTrained, execHelloTx, execPortDown, execHelloTimeout,
    execUnknownKindPacketRx, execReplayTimeout, execReplayLimit, execAckTx, execPortTransmit, execProbeTx, hs]

/-! ## Security -/

@[simp] theorem State.kept_security (s : State) :
    (∀ x, (s.setSec x).kept B = s.kept B) ∧ (∀ st, (s.setSecState st).kept B = s.kept B) := by
  simp [State.setSec, State.setSecState]

@[simp] theorem State.kept_secBoot (s : State) (waking : Bool) : (s.secBoot waking).kept B = s.kept B := by
  unfold State.secBoot
  split <;> simp

@[simp] theorem State.kept_nextSign (s : State) : s.nextSign.kept B = s.kept B := by
  unfold State.nextSign
  split
  · rfl
  · split <;> simp

@[simp] theorem State.kept_flashStore (s : State) (a : Nat) (l : List Byte) : (s.flashStore a l).kept B = s.kept B := by
  simp [State.flashStore]

@[simp] theorem State.kept_sign (s : State) (msg : List Byte) : (s.sign msg).2.kept B = s.kept B := by
  simp [State.sign]

@[simp] theorem State.kept_askSign (s : State) (q : Nat) : (s.askSign q).kept B = s.kept B := by
  simp [State.askSign]

@[simp] theorem State.kept_commands (s : State) :
    (∀ result reason code, (s.cmdResult result reason code).kept B = s.kept B) ∧
    (∀ code reason, (s.cmdRefuse code reason).kept B = s.kept B) ∧ (∀ code, (s.cmdDone code).kept B = s.kept B) := by
  simp [State.cmdResult, State.cmdRefuse, State.cmdDone]

@[simp] theorem State.kept_cmdProvision {s : State} (h : (s.kept B).inv) : s.cmdProvision.kept B = s.kept B := by
  simp [State.cmdProvision, h]

@[simp] theorem State.kept_withBuf (s : State) (code n : Nat) {f : State → List Byte → State}
    (h : ∀ t l, (f t l).kept B = t.kept B) : (s.withBuf code n f).kept B = s.kept B := by
  have hread := s.kept_ownRead (B := B) 8 s.bufAddr n
  unfold State.withBuf
  split <;> rename_i hr <;> rw [hr] at hread <;> simpa [h] using hread

@[simp] theorem State.kept_cmdSetRoot_to_cmdSeal (s : State) :
    s.cmdSetRoot.kept B = s.kept B ∧ (∀ slot, (s.cmdSetKey slot).kept B = s.kept B) ∧ (∀ len, (s.cmdCert len).kept B = s.kept B) ∧
    s.cmdSeal.kept B = s.kept B := by
  simp [State.cmdSetRoot, State.cmdSetKey, State.cmdCert, State.cmdSeal]

@[simp] theorem State.kept_cmdAttest {s : State} (h : (s.kept B).inv) : s.cmdAttest.kept B = s.kept B := by
  simp [State.cmdAttest, h]

/-- The epoch is only raised. -/
@[simp] theorem State.evolves_cmdEpoch {K : Kept} {s : State} (v : Nat) (hs : K.Evolves (s.kept B)) :
    K.Evolves ((s.cmdEpoch v).kept B) := by
  unfold State.cmdEpoch
  split
  · simpa using hs
  · split
    · simpa using hs
    next hv =>
      have hgrow : s.otp.Grows { s.otp with epoch := v % 256 } :=
        ⟨(Nat.lt_of_not_le hv).le, le_rfl, le_rfl, fun _ x hx => ⟨x, hx, rfl, rfl, id⟩⟩
      simpa using hs.trans (State.evolves_setOtp hs.inv hgrow)

@[simp] theorem State.kept_violationSensors (s : State) :
    (∀ k, (s.logViolation k).kept B = s.kept B) ∧ s.alarmPin.kept B = s.kept B ∧ (∀ v, (s.policyWrite v).kept B = s.kept B) := by
  simp [State.logViolation, State.alarmPin, State.policyWrite]

/-- A slot that is programmed stands after those before it. -/
theorem Otp.grows_addHelper (o : Otp) (h : Helper) : o.Grows { o with helpers := o.helpers ++ [h] } :=
  ⟨le_rfl, le_rfl, by simp, fun n x hx => ⟨x, (List.getElem?_append_left (List.getElem?_eq_some_iff.mp hx).1).trans hx, rfl, rfl, id⟩⟩

@[simp] theorem keeps_execSealComplete (ok : Bool) (t : Nat) {K : Kept} {s : State} (hs : K.Evolves (s.kept B)) :
    Keeps B K (execSealComplete ok t s) := by
  refine .of_doneIf hs fun h => ?_
  extract_lets n blob x s1 helper y s2
  have h1 : K.Evolves (s1.kept B) := by simpa [s1] using h
  split
  · simpa [s2] using h1.trans (State.evolves_setOtp h1.inv (Otp.grows_addHelper _ helper))
  · simpa using h1

@[simp] theorem keeps_execSignatureComplete (t : Nat) {K : Kept} {s : State} (hs : K.Evolves (s.kept B)) :
    Keeps B K (execSignatureComplete t s) := by
  unfold execSignatureComplete
  extract_lets s0
  split
  · extract_lets body
    split
    rename_i sig s1 hp
    have h1 : s1.kept B = s.kept B := by
      have := State.kept_sign (B := B) s0 body
      rwa [hp] at this
    simp [h1, hs]
  · split
    rename_i sig s1 hp
    have h1 : s1.kept B = s.kept B := by
      have := State.kept_sign (B := B) s0 s0.sec.report
      rwa [hp] at this
    extract_lets x s2 s3
    have h3 : s3.kept B = s.kept B := by
      unfold s3 s2
      split <;> simp [h1, hs.inv]
    simp [h3, hs]
  · simp [s0, hs]

@[simp] theorem keeps_securityCommands {K : Kept} {s : State} (hs : K.Evolves (s.kept B)) :
    (∀ sensors t, Keeps B K (execViolationSensorClear sensors t s)) ∧ (∀ v t, Keeps B K (execPolicyWrite v t s)) := by
  simp [execViolationSensorClear, execPolicyWrite, hs]

/-! ## OutTx -/

@[simp] theorem State.kept_dumpPacket (s : State) (d : Dump) : (s.dumpPacket d).kept B = s.kept B := by
  simp [State.dumpPacket]

@[simp] theorem State.kept_manifests (s : State) :
    (∀ m rest, (s.manifestPacket m rest).kept B = s.kept B) ∧ (∀ m rest sig, (s.signaturePacket m rest sig).kept B = s.kept B) := by
  simp [State.manifestPacket, State.signaturePacket]

@[simp] theorem State.kept_beamdPacket (s : State) (d : DetFrame) (rest : List DetFrame) :
    (s.beamdPacket d rest).kept B = s.kept B := by
  unfold State.beamdPacket
  split <;> simp

@[simp] theorem State.kept_beamvPacket (s : State) (b : BeamPkt) (rest : List BeamPkt) : (s.beamvPacket b rest).kept B = s.kept B := by
  simp [State.beamvPacket]

@[simp] theorem keeps_execDumpPacket (t : Nat) {K : Kept} {s : State} (hs : K.Evolves (s.kept B)) : Keeps B K (execDumpPacket t s) := by
  unfold execDumpPacket
  dsimp only
  split <;> simp [hs]

@[simp] theorem keeps_execManifestPacket (t : Nat) {K : Kept} {s : State} (hs : K.Evolves (s.kept B)) :
    Keeps B K (execManifestPacket t s) := by
  unfold execManifestPacket
  dsimp only
  split <;> simp [hs]

@[simp] theorem keeps_execManifestSignaturePacket (t : Nat) {K : Kept} {s : State} (hs : K.Evolves (s.kept B)) :
    Keeps B K (execManifestSignaturePacket t s) := by
  unfold execManifestSignaturePacket
  dsimp only
  split
  · refine .doneIf hs rfl ?_
    split <;> simp
  · simp [hs]

@[simp] theorem keeps_execBeamvPacket (t : Nat) {K : Kept} {s : State} (hs : K.Evolves (s.kept B)) : Keeps B K (execBeamvPacket t s) := by
  unfold execBeamvPacket
  dsimp only
  split <;> simp [hs]

@[simp] theorem keeps_execBeamdPacket (t : Nat) {K : Kept} {s : State} (hs : K.Evolves (s.kept B)) : Keeps B K (execBeamdPacket t s) := by
  unfold execBeamdPacket
  dsimp only
  split <;> simp [hs]

/-! ## BellRing -/

@[simp] theorem State.kept_scheduleItemsAndJobs (s : State) :
    (∀ k e, (s.startItem k e).kept B = s.kept B) ∧ (∀ e, (s.jobLate e).kept B = s.kept B) := by
  simp [State.pushJob, State.startItem, State.jobLate]

@[simp] theorem State.kept_endItem {s : State} (k : Nat) (e : SchedEntry) (h : (s.kept B).inv) : (s.endItem k e).kept B = s.kept B := by
  unfold State.endItem
  extract_lets s1
  have h1 : s1.kept B = s.kept B := by simp [s1]
  have hs1 : (s1.kept B).inv := State.inv_of_kept h1 h
  split
  · simp [h1]
  · split
    · exact (State.kept_each_of _ hs1 fun t d ht => by simp [ht]).trans h1
    · simp [h1]

@[simp] theorem State.kept_closeAisles {s : State} (h : (s.kept B).inv) : s.closeAisles.kept B = s.kept B := by
  unfold State.closeAisles
  split <;> simp [h]

@[simp] theorem State.kept_applyStep (s : State) (prev : Option Nat) : (s.applyStep prev).kept B = s.kept B := by
  unfold State.applyStep
  split
  · dsimp only
    split <;> simp
  · rfl

@[simp] theorem State.kept_endItems {s : State} (h : (s.kept B).inv) : s.endItems.kept B = s.kept B :=
  State.kept_each_of _ h fun t e ht => by simp [ht]

@[simp] theorem State.kept_noteBell (s : State) (k at_ : Nat) : (s.noteBell k at_).kept B = s.kept B := by
  unfold State.noteBell
  extract_lets b s1
  have h1 : s1.kept B = s.kept B := by simp [s1]
  clear_value s1
  simp [h1]

@[simp] theorem State.kept_whatBellDoes (s : State) :
    (∀ k, (s.bellPulse k).kept B = s.kept B) ∧ (∀ n, (s.coreBell n).kept B = s.kept B) ∧
    (∀ k, (s.sendBellWords k).kept B = s.kept B) ∧ s.countDown.kept B = s.kept B := by
  simp [State.bellPulse, State.coreBell, State.sendBellWords, State.countDown]

@[simp] theorem keeps_execScheduleItemStart (k t : Nat) {K : Kept} {s : State} (hs : K.Evolves (s.kept B)) :
    Keeps B K (execScheduleItemStart k t s) := by
  unfold execScheduleItemStart
  dsimp only
  split <;> simp [hs]

@[simp] theorem keeps_execScheduleItemCutoff (k t : Nat) {K : Kept} {s : State} (hs : K.Evolves (s.kept B)) :
    Keeps B K (execScheduleItemCutoff k t s) := by
  unfold execScheduleItemCutoff
  dsimp only
  split <;> simp [hs, hs.inv]

@[simp] theorem keeps_execJobPush (k t : Nat) {K : Kept} {s : State} (hs : K.Evolves (s.kept B)) : Keeps B K (execJobPush k t s) := by
  unfold execJobPush
  dsimp only
  split <;> simp [hs]

@[simp] theorem keeps_execJobLate (k t : Nat) {K : Kept} {s : State} (hs : K.Evolves (s.kept B)) : Keeps B K (execJobLate k t s) := by
  unfold execJobLate
  dsimp only
  split <;> simp [hs, hs.inv]

@[simp] theorem keeps_execSlotBoundary (slot t : Nat) {K : Kept} {s : State} (hs : K.Evolves (s.kept B)) :
    Keeps B K (execSlotBoundary slot t s) := by
  simp [execSlotBoundary, hs]

/-! ## Thermal -/

@[simp] theorem State.kept_noteMax (s : State) : s.noteMax.kept B = s.kept B := by
  unfold State.noteMax
  dsimp only
  split <;> simp

@[simp] theorem State.kept_thermal (s : State) :
    (∀ k x, (s.setSensor k x).kept B = s.kept B) ∧ (∀ k why, (s.setBroken k why).kept B = s.kept B) ∧
    (∀ k v, (s.noteReading k v).kept B = s.kept B) := by
  simp [State.setSensor, State.setBroken, State.noteReading]

@[simp] theorem State.kept_thmCtrl (s : State) (v : Nat) : (s.thmCtrl v).kept B = s.kept B := by
  simp [State.thmCtrl]

/-- An acknowledged entry stays in the log. -/
theorem Otp.grows_setLog (o : Otp) (i x : Nat) : o.Grows { o with log := setAt o.log i x } :=
  ⟨le_rfl, by simp, le_rfl, fun _ x hx => ⟨x, hx, rfl, rfl, id⟩⟩

@[simp] theorem State.evolves_tripAck {K : Kept} {s : State} (v : Nat) (hs : K.Evolves (s.kept B)) :
    K.Evolves ((s.tripAck v).kept B) := by
  unfold State.tripAck
  extract_lets i o s1 x s2 y
  split
  · have h1 : K.Evolves (s1.kept B) := hs.trans (State.evolves_setOtp hs.inv (Otp.grows_setLog _ _ _))
    have h2 : s2.kept B = s1.kept B := by
      unfold s2 x
      split <;> simp
    simpa [h2] using h1
  · simpa [y] using hs

@[simp] theorem keeps_thermalCommands {K : Kept} {s : State} (hs : K.Evolves (s.kept B)) :
    (∀ sensor v t, Keeps B K (execSensorConversion sensor v t s)) ∧ (∀ sensor t, Keeps B K (execSensorSilent sensor t s)) ∧
    (∀ t, Keeps B K (execThermalTick t s)) ∧ (∀ v t, Keeps B K (execTripAck v t s)) := by
  simp [execSensorConversion, execSensorSilent, execThermalTick, execTripAck, hs]

/-! ## Bus -/

@[simp] theorem State.kept_storeReg (s : State) (r : Reg) (v : Nat) (lk : Bool) : (s.storeReg r v lk).kept B = s.kept B := by
  unfold State.storeReg
  split
  · rfl
  · dsimp only
    split <;> simp

@[simp] theorem State.kept_storeKeep (s : State) (r : Reg) (v : Nat) (lk : Bool) (f : Fld) (ok : Bool) :
    (s.storeKeep r v lk f ok).kept B = s.kept B := by
  unfold State.storeKeep
  split <;> simp

@[simp] theorem State.kept_storeUnless (s : State) (r : Reg) (v : Nat) (lk inUse : Bool) (f : Fld) :
    (s.storeUnless r v lk inUse f).kept B = s.kept B := by
  unfold State.storeUnless
  split <;> simp

@[simp] theorem State.kept_writes (s : State) :
    (∀ v, (s.flashProgram v).kept B = s.kept B) ∧ (∀ v, (s.flashCmd v).kept B = s.kept B) ∧
    (∀ d v, (s.routeWrite d v).kept B = s.kept B) ∧ (∀ n, (s.restState n).kept B = s.kept B) ∧
    (∀ n v lk, (s.positionWrite n v lk).kept B = s.kept B) := by
  simp [State.flashProgram, State.flashCmd, State.routeWrite, State.restState, State.positionWrite]

@[simp] theorem State.kept_mailRead (s : State) (b : Nat) : (s.mailRead b).2.kept B = s.kept B := by
  simp [State.setMailbox, State.mailCompanions, State.mailRead]

@[simp] theorem State.kept_clearRead (s : State) (r base k rc : Nat) : (s.clearRead r base k rc).2.kept B = s.kept B := by
  simp [State.clearRead]

@[simp] theorem State.kept_readsWithAnEffect (s : State) :
    (s.flashWord).2.kept B = s.kept B ∧ (∀ r base k, (s.latchRead r base k).2.kept B = s.kept B) := by
  simp [State.flashWord, State.latchRead]

@[simp] theorem State.kept_busRead {s : State} (r : Reg) (h : (s.kept B).inv) : (s.busRead r).2.kept B = s.kept B := by
  unfold State.busRead
  split
  · rfl
  · simp [h]

@[simp] theorem State.kept_regRead {s : State} (r : Reg) (h : (s.kept B).inv) : (s.regRead r).2.kept B = s.kept B := by
  simp [State.regRead, h]

@[simp] theorem State.kept_answerRead {s : State} (m r : Nat) (h : (s.kept B).inv) : (s.answerRead m r).kept B = s.kept B := by
  have hread := State.kept_regRead r h
  unfold State.answerRead
  split
  · simp
  · split <;> rename_i hr <;> (rw [hr] at hread; simpa using hread)

@[simp] theorem keeps_execFlashEraseDone (t : Nat) {K : Kept} {s : State} (hs : K.Evolves (s.kept B)) :
    Keeps B K (execFlashEraseDone t s) := by
  unfold execFlashEraseDone
  dsimp only
  split <;> simp [hs]

@[simp] theorem keeps_execMsixUnmask (vec : Nat) (mask : Bool) (t : Nat) {K : Kept} {s : State} (hs : K.Evolves (s.kept B)) :
    Keeps B K (execMsixUnmask vec mask t s) := by
  simp [↓State.kept_ite, execMsixUnmask, hs]

@[simp] theorem keeps_busCommands {K : Kept} {s : State} (hs : K.Evolves (s.kept B)) :
    (∀ m r t, Keeps B K (execReadClear m r t s)) ∧ (∀ m r t, Keeps B K (execLatchingRead m r t s)) ∧
    (∀ b m t, Keeps B K (execMailboxHeadRead b m t s)) ∧ (∀ m t, Keeps B K (execFlashDataRead m t s)) := by
  simp [execReadClear, execLatchingRead, execMailboxHeadRead, execFlashDataRead, hs, hs.inv]

/-! ## Access -/

@[simp] theorem State.kept_answer (s : State) (m : Nat) (write : Bool) (a : Nat) (r : Option (List Byte)) :
    (s.answer m write a r).kept B = s.kept B := by
  unfold State.answer
  split <;> simp

@[simp] theorem State.kept_grant (s : State) (m a : Nat) : (s.grant m a).kept B = s.kept B := by
  simp [State.grant]

@[simp] theorem State.kept_stopDue (s : State) (n : Nat) : (s.stopDue n).kept B = s.kept B := by
  simp [State.stopDue]

@[simp] theorem State.kept_porterTransfers (s : State) :
    (∀ m a n first, (s.countUnit m a n first).kept B = s.kept B) ∧ (∀ c, (s.porterWaited c).kept B = s.kept B) := by
  simp [State.countUnit, State.porterWaited]

@[simp] theorem keeps_execPorterTrigger (t : Nat) {K : Kept} {s : State} (hs : K.Evolves (s.kept B)) :
    Keeps B K (execPorterTrigger t s) := by
  unfold execPorterTrigger
  dsimp only
  split
  · simp [hs]
  · split <;> simp [hs]

@[simp] theorem keeps_accessCommands {K : Kept} {s : State} (hs : K.Evolves (s.kept B)) :
    (∀ v quiet, Keeps B K (execGateClose v quiet s)) ∧ (∀ n again t, Keeps B K (execD2dFlitError n again t s)) := by
  simp [execGateClose, execD2dFlitError, hs]

/-! ## Apply -/

@[simp] theorem State.kept_loadCode (s : State) (n : Nat) (l : List Byte) : (s.loadCode n l).kept B = s.kept B := by
  simp [State.loadCode]

@[simp] theorem State.kept_zeroWindows {s : State} (n : Nat) (h : (s.kept B).inv) : (s.zeroWindows n).kept B = s.kept B := by
  simp [State.zeroWindows, h]

@[simp] theorem State.kept_readSpd (s : State) (geom : Nat) : (s.readSpd geom).kept B = s.kept B := by
  simp [State.readSpd]

@[simp] theorem State.kept_wakeChecks {s : State} (geom upset : Nat) (h : (s.kept B).inv) :
    (s.wakeChecks geom upset).kept B = s.kept B := by
  simp [State.wakeChecks, h]

@[simp] theorem State.kept_ledgerImage {s : State} (h : (s.kept B).inv) : s.ledgerImage.kept B = s.kept B := by
  unfold State.ledgerImage
  extract_lets sv s1 a s2 x
  have h1 : s1.kept B = s.kept B := by simp [s1]
  have h2 : s2.kept B = s.kept B := (State.kept_each_of _ (State.inv_of_kept h1 h) fun t p ht => by simp [ht]).trans h1
  clear_value s1 s2
  split <;> simp -implicitDefEqProofs [x, h1, h2]

@[simp] theorem State.kept_keepImage {s : State} (j : LoadJob) (l : List Byte) (h : (s.kept B).inv) :
    (s.keepImage j l).kept B = s.kept B := by
  simp [State.keepImage, h]

@[simp] theorem State.kept_reloadClosed {s : State} (n : Nat) (h : (s.kept B).inv) : (s.reloadClosed n).kept B = s.kept B := by
  simp [State.reloadClosed, h]

@[simp] theorem State.kept_sequenceEnd {s : State} (geom upset : Nat) (h : (s.kept B).inv) :
    (s.sequenceEnd geom upset).kept B = s.kept B := by
  simp [State.sequenceEnd, h]

@[simp] theorem State.kept_stepEnd {s : State} (geom upset : Nat) (h : (s.kept B).inv) : (s.stepEnd geom upset).kept B = s.kept B := by
  unfold State.stepEnd
  split <;> simp [h]

@[simp] theorem keeps_execPowerUpStepDone (geom upset t : Nat) {K : Kept} {s : State} (hs : K.Evolves (s.kept B)) :
    Keeps B K (execPowerUpStepDone geom upset t s) := by
  simp [execPowerUpStepDone, hs, hs.inv]

end Sys2Proof.Machine
end

section
/-! SUPPORT. What the operations and commands keep that may take a domain down, write a register or burn a fuse. -/
namespace Sys2Proof.Machine

variable {B : Prop}

/-! ## Power -/

@[simp] theorem State.kept_dropRegs (s : State) (d : Nat) : (s.dropRegs d).kept B = s.kept B := by
  simp [State.dropRegs]

/-- The station domain's power-down puts as many lanes, groups and inputs in the place of the old. -/
theorem State.kept_ingestLost {s : State} (h : (s.kept B).inv) :
    ({ s with ing := Ingest.reset, front := Front.reset, chan := Channelizer.reset } : State).kept B = s.kept B := by
  refine State.kept_of_inv rfl rfl rfl rfl h fun hi => ?_
  obtain ⟨hmem, -, -, -, hnin, -, -, -, hrest⟩ := hi
  exact ⟨hmem, rfl, rfl, rfl, hnin, rfl, rfl, rfl, hrest⟩

theorem State.kept_coresLost {s : State} (h : (s.kept B).inv) :
    ({ s with cores := List.replicate 16 Core.reset } : State).kept B = s.kept B := by
  refine State.kept_of_inv rfl rfl rfl rfl h fun hi => ?_
  obtain ⟨hmem, hcoef, hwin, hscales, hnin, hlanes, hgroups, hins, hports, hclanes, hslots, hrecs, hdies, hrails, hthm, hpor, -, hrest⟩ := hi
  exact ⟨hmem, hcoef, hwin, hscales, hnin, hlanes, hgroups, hins, hports, hclanes, hslots, hrecs, hdies, hrails, hthm, hpor, rfl, hrest⟩

@[simp] theorem State.kept_loseDomain {s : State} (d : Nat) (h : (s.kept B).inv) : (s.loseDomain d).kept B = s.kept B := by
  have hdrop : ((s.dropRegs d).kept B).inv := h
  have hwipe (a n : Nat) : ((s.dropRegs d).wipe a n).kept B = s.kept B := State.kept_wipe a n hdrop
  have hingest : ({ s.dropRegs d with ing := Ingest.reset, front := Front.reset, chan := Channelizer.reset } : State).kept B = s.kept B :=
    State.kept_ingestLost (s := s.dropRegs d) hdrop
  have hcores : ({ (s.dropRegs 16).wipe 0xFE0030000000 0x200000 with cores := List.replicate 16 Core.reset } : State).kept B = s.kept B := by
    have hw : ((s.dropRegs 16).wipe 0xFE0030000000 0x200000).kept B = s.kept B := State.kept_wipe (s := s.dropRegs 16) _ _ h
    exact (State.kept_coresLost (State.inv_of_kept hw h)).trans hw
  by_cases h16 : d = 16
  · subst h16
    exact hcores
  · unfold State.loseDomain
    split
    · simp [h]
    · split
      next h2 => exact h2 ▸ hingest
      · simp [h, hwipe]

@[simp] theorem State.kept_powerDown {s : State} (d : Nat) (h : (s.kept B).inv) : (s.powerDown d).kept B = s.kept B := by
  simp [State.powerDown, h]

@[simp] theorem State.kept_allDown {s : State} (h : (s.kept B).inv) : s.allDown.kept B = s.kept B :=
  State.kept_each_of _ h fun t d ht => by simp [ht]

@[simp] theorem keeps_execDomainDrainTimeout (d t : Nat) {K : Kept} {s : State} (hs : K.Evolves (s.kept B)) :
    Keeps B K (execDomainDrainTimeout d t s) := by
  unfold execDomainDrainTimeout
  dsimp only
  split <;> simp [hs, hs.inv]

@[simp] theorem State.kept_wakeFail {s : State} (k : Nat) (h : (s.kept B).inv) : (s.wakeFail k).kept B = s.kept B := by
  simp [State.wakeFail, h]

@[simp] theorem State.kept_undoStep {s : State} (k : Nat) (h : (s.kept B).inv) : (s.undoStep k).kept B = s.kept B := by
  unfold State.undoStep
  split <;> simp [h]

@[simp] theorem keeps_execPowerUpStepTimeout (t : Nat) {K : Kept} {s : State} (hs : K.Evolves (s.kept B)) :
    Keeps B K (execPowerUpStepTimeout t s) := by
  unfold execPowerUpStepTimeout
  exact .of_doneIf hs fun h => by simp [↓State.kept_ite, hs, hs.inv]

@[simp] theorem keeps_execDomainPowerDown_to_execPwrgoodFall {K : Kept} {s : State} (hs : K.Evolves (s.kept B)) :
    (∀ d t, Keeps B K (execDomainPowerDown d t s)) ∧ (∀ t, Keeps B K (execPwrgoodFall t s)) := by
  simp [hs, hs.inv, execDomainPowerDown, execPwrgoodFall]

/-! ## Image -/

@[simp] theorem State.kept_reloadDie_to_closeDie {s : State} (h : (s.kept B).inv) :
    (∀ c, (s.reloadDie c).kept B = s.kept B) ∧ (∀ c, (s.closeDie c).kept B = s.kept B) := by
  simp [State.reloadDie, State.closeDie, h]

@[simp] theorem State.kept_changeOn {s : State} (h : (s.kept B).inv) : s.changeOn.kept B = s.kept B := by
  unfold State.changeOn
  split <;> simp [h]

@[simp] theorem State.kept_changeStep {s : State} (h : (s.kept B).inv) : s.changeStep.kept B = s.kept B := by
  unfold State.changeStep
  split <;> simp [h]

@[simp] theorem State.kept_changeBell {s : State} (b : Nat) (h : (s.kept B).inv) : (s.changeBell b).kept B = s.kept B := by
  unfold State.changeBell
  split <;> simp [h]

@[simp] theorem State.kept_changeNow_to_changeLoaded {s : State} (h : (s.kept B).inv) :
    s.changeNow.kept B = s.kept B ∧ (∀ c, (s.beginChange c).kept B = s.kept B) ∧ (∀ c, (s.changeLoaded c).kept B = s.kept B) := by
  simp [State.changeNow, State.beginChange, State.changeLoaded, h]

@[simp] theorem State.kept_loadCmd_to_acceptLoad {s : State} (h : (s.kept B).inv) :
    (∀ v, (s.loadCmd v).kept B = s.kept B) ∧ (∀ j, (s.acceptLoad j).kept B = s.kept B) := by
  simp [State.loadCmd, State.acceptLoad, h]

@[simp] theorem keeps_execImageVerified (t : Nat) {K : Kept} {s : State} (hs : K.Evolves (s.kept B)) :
    Keeps B K (execImageVerified t s) := by
  unfold execImageVerified
  extract_lets s0
  split
  · split <;> simp [hs, hs.inv, s0]
  · simp [s0, hs]

@[simp] theorem State.kept_openDie {s : State} (v : Nat) (h : (s.kept B).inv) : (s.openDie v).kept B = s.kept B := by
  unfold State.openDie
  split <;> simp [h]

@[simp] theorem keeps_execClerkLoadDone (t : Nat) {K : Kept} {s : State} (hs : K.Evolves (s.kept B)) :
    Keeps B K (execClerkLoadDone t s) := by
  unfold execClerkLoadDone
  dsimp only
  split <;> simp [hs, hs.inv]

@[simp] theorem keeps_execSvcFrameRx (port : Nat) (frame : List Byte) (fcsOk room : Bool) (tx t : Nat) {K : Kept} {s : State} (hs :
    K.Evolves (s.kept B)) :
    Keeps B K (execSvcFrameRx port frame fcsOk room tx t s) := by
  unfold execSvcFrameRx
  refine .of_doneIf hs fun h => ?_
  extract_lets s1 ty sub
  have h1 : K.Evolves (s1.kept B) := by simp [s1, hs]
  split
  · simp [h1]
  · split
    · exact Keeps.evolves_resultState (by simp [h1]) h1
    · split
      · exact Keeps.evolves_resultState (by simp [h1]) h1
      · split
        · exact Keeps.evolves_resultState (by simp [h1]) h1
        · simp [↓State.kept_ite, h1]

@[simp] theorem State.kept_bootLock (s : State) : s.bootLock.kept B = s.kept B := by
  simp [State.bootLock]

@[simp] theorem keeps_execBootLockClose_to_execDieOpen {K : Kept} {s : State} (hs : K.Evolves (s.kept B)) :
    (∀ v t, Keeps B K (execBootLockClose v t s)) ∧ (∀ v t, Keeps B K (execImageLoad v t s)) ∧
    (∀ v t, Keeps B K (execDieCloseNoimg v t s)) ∧ (∀ v t, Keeps B K (execDieOpen v t s)) := by
  simp [hs, hs.inv, execBootLockClose, execImageLoad, execDieCloseNoimg, execDieOpen]

/-! ## Engine -/

@[simp] theorem State.kept_enterStopped {s : State} (h : (s.kept B).inv) : s.enterStopped.kept B = s.kept B := by
  unfold State.enterStopped
  extract_lets s1 x y s2 s3 s4
  have h2 : s2.kept B = s.kept B := by
    have h1 : s1.kept B = s.kept B := by simp [s1, h]
    clear_value s1
    simp [s2, x, h1]
  have h3 : s3.kept B = s.kept B := by
    clear_value s2
    simp [s3, h2]
  have h4 : s4.kept B = s.kept B := by
    clear_value s3
    unfold s4
    simp [h3]
  clear_value s4
  simp [h4, h]

@[simp] theorem State.kept_bellStopped {s : State} (h : (s.kept B).inv) : s.bellStopped.kept B = s.kept B := by
  simp [State.bellStopped, h]

@[simp] theorem State.kept_clearRun {s : State} (h : (s.kept B).inv) : s.clearRun.kept B = s.kept B := by
  unfold State.clearRun
  simp [↓State.kept_ite, h]

@[simp] theorem State.kept_runWrite {s : State} (v : Nat) (h : (s.kept B).inv) : (s.runWrite v).kept B = s.kept B := by
  simp [State.runWrite, h]

@[simp] theorem State.kept_noteStop {s : State} (w : BellWord) (h : (s.kept B).inv) : (s.noteStop w).kept B = s.kept B := by
  simp [State.noteStop, h]

@[simp] theorem State.kept_bellWord {s : State} (port : Nat) (w : BellWord) (rx : Nat) (h : (s.kept B).inv) :
    (s.bellWord port w rx).kept B = s.kept B := by
  unfold State.bellWord
  extract_lets st inst s1 d k off b s2 s3
  have h1 : s1.kept B = s.kept B := by simp [s1]
  have h2 : s2.kept B = s.kept B := by simp [s2, b, h1]
  have h3 : s3.kept B = s.kept B := by
    unfold s3
    split <;> simp [h2]
  clear_value s1 s3
  split
  · rfl
  · split
    · simp
    · split
      · simp [h1]
      · simp [h3, h]

@[simp] theorem keeps_execBellRunSet_to_execRefusedExit {K : Kept} {s : State} (hs : K.Evolves (s.kept B)) :
    (∀ t, Keeps B K (execBellRunSet t s)) ∧ (∀ t, Keeps B K (execBellRunClear t s)) ∧ Keeps B K (execRefusedExit s) := by
  simp [hs, hs.inv, execBellRunSet, execBellRunClear, execRefusedExit]

/-! ## Canopy -/

@[simp] theorem State.kept_leadNews_to_takeHello {s : State} (h : (s.kept B).inv) :
    (∀ p h, (s.leadNews p h).kept B = s.kept B) ∧ (∀ p h, (s.takeHello p h).kept B = s.kept B) := by
  simp [State.leadNews, State.takeHello, h]

@[simp] theorem keeps_execHelloRx (port : Nat) (p : Packet) (tr : Trailer) (crcOk : Bool) (t : Nat) {K : Kept} {s : State} (hs :
    K.Evolves (s.kept B)) :
    Keeps B K (execHelloRx port p tr crcOk t s) := by
  unfold execHelloRx
  extract_lets q s0
  split
  · split
    · rw [keeps_done]
      exact State.evolves_linkRx q p tr crcOk (fun t ht => by simp [ht, ht.inv]) hs
    · split <;> simp [hs, hs.inv, s0]
  · simp [s0, hs]

@[simp] theorem keeps_execBellWordRx (port : Nat) (p : Packet) (tr : Trailer) (crcOk : Bool) (rx t : Nat) {K : Kept} {s : State} (hs :
    K.Evolves (s.kept B)) :
    Keeps B K (execBellWordRx port p tr crcOk rx t s) := by
  unfold execBellWordRx
  extract_lets q
  split
  · rw [keeps_done]
    exact State.evolves_linkRx q p tr crcOk (fun t ht => by simp [ht, ht.inv]) hs
  · simp [hs]

@[simp] theorem State.kept_parkNow {s : State} (first : Nat) (h : (s.kept B).inv) : (s.parkNow first).kept B = s.kept B := by
  simp [State.parkNow, h]

@[simp] theorem State.kept_parkSet_to_pitCtrl {s : State} (h : (s.kept B).inv) :
    s.parkSet.kept B = s.kept B ∧ (∀ v, (s.pitCtrl v).kept B = s.kept B) := by
  simp -implicitDefEqProofs [State.parkSet, State.pitCtrl, h]

@[simp] theorem State.kept_parkBell {s : State} (k : Nat) (h : (s.kept B).inv) : (s.parkBell k).kept B = s.kept B := by
  unfold State.parkBell
  split <;> simp [h]

@[simp] theorem keeps_execParkSet_to_execParkClear {K : Kept} {s : State} (hs : K.Evolves (s.kept B)) :
    (∀ t, Keeps B K (execParkSet t s)) ∧ (∀ t, Keeps B K (execParkClear t s)) := by
  simp [hs, hs.inv, execParkSet, execParkClear]

/-! ## Security -/

@[simp] theorem State.kept_enterLockout {s : State} (h : (s.kept B).inv) : s.enterLockout.kept B = s.kept B := by
  unfold State.enterLockout
  extract_lets s1 x s2
  have h2 : s2.kept B = s.kept B := by simp [s2, x, s1, h]
  exact (State.kept_each_of _ (State.inv_of_kept h2 h) fun t d ht => by simp [ht]).trans h2

/-- A kill fuse is only burnt. -/
theorem Otp.grows_killHelper (o : Otp) (n : Nat) : o.Grows { o with helpers := killHelper o.helpers n } := by
  refine ⟨le_rfl, le_rfl, by simp [killHelper], fun i h hi => ⟨if i = n then { h with killed := true } else h, ?_, ?_⟩⟩
  · simp [killHelper, List.getElem?_zipIdx, hi]
  · split <;> simp

@[simp] theorem State.evolves_erase {K : Kept} {s : State} (hs : K.Evolves (s.kept B)) : K.Evolves (s.erase.kept B) := by
  unfold State.erase
  extract_lets x otp y sec s0 s1 s2
  have hgrow : s.otp.Grows otp := by
    unfold otp
    split
    · exact s.otp.grows_killHelper _
    · exact .refl _
  have h0 : K.Evolves (s0.kept B) := hs.trans (State.evolves_setOtp (s := s.setSec sec) hs.inv hgrow)
  clear_value s0
  have h2 : s2.kept B = s0.kept B := by
    unfold s2
    split <;> simp [s1]
  simp [h2, h0, h0.inv]

@[simp] theorem State.evolves_cmdErase {K : Kept} {s : State} (v : Nat) (hs : K.Evolves (s.kept B)) :
    K.Evolves ((s.cmdErase v).kept B) := by
  simp [State.cmdErase, hs]

@[simp] theorem State.evolves_secRun {K : Kept} {s : State} (code arg : Nat) (hs : K.Evolves (s.kept B)) :
    K.Evolves ((s.secRun code arg).kept B) := by
  unfold State.secRun
  split
  · simp [hs]
  · split <;> simp [hs, hs.inv]

@[simp] theorem State.evolves_secCmd {K : Kept} {s : State} (v : Nat) (hs : K.Evolves (s.kept B)) : K.Evolves ((s.secCmd v).kept B) := by
  simp [State.secCmd, hs]

@[simp] theorem State.evolves_violate {K : Kept} {s : State} (sensors : Nat) (hs : K.Evolves (s.kept B)) :
    K.Evolves ((s.violate sensors).kept B) := by
  simp [State.violate, hs]

@[simp] theorem keeps_execProvision_to_execViolationSensorFire {K : Kept} {s : State} (hs : K.Evolves (s.kept B)) :
    (∀ t, Keeps B K (execProvision t s)) ∧ (∀ t, Keeps B K (execSetroot t s)) ∧
    (∀ slot t, Keeps B K (execSetkey slot t s)) ∧ (∀ len t, Keeps B K (execCert len t s)) ∧
    (∀ t, Keeps B K (execSeal t s)) ∧ (∀ t, Keeps B K (execAttest t s)) ∧ (∀ v t, Keeps B K (execEpoch v t s)) ∧
    (∀ v t, Keeps B K (execErase v t s)) ∧ (∀ sensors t, Keeps B K (execViolationSensorFire sensors t s)) := by
  simp [hs, execProvision, execSetroot, execSetkey, execCert, execSeal, execAttest, execEpoch, execErase, execViolationSensorFire]

/-! ## BellRing -/

@[simp] theorem State.kept_bellWork {s : State} (k : Nat) (prev : Option Nat) (h : (s.kept B).inv) :
    (s.bellWork k prev).kept B = s.kept B := by
  unfold State.bellWork
  extract_lets feed s1
  have h1 : s1.kept B = s.kept B := State.kept_changeBell k h
  have h2 : (s1.corrBell prev).1.kept B = s.kept B := (s1.kept_corrBell prev).trans h1
  have h2i := State.inv_of_kept h2 h
  split
  rename_i s2 regular hr
  rw [hr] at h2 h2i
  simp [h2, h]

@[simp] theorem State.kept_ringBell {s : State} (k at_ : Nat) (h : (s.kept B).inv) : (s.ringBell k at_).kept B = s.kept B := by
  unfold State.ringBell
  extract_lets prev stop park work s0 s1
  have h0 : s0.kept B = s.kept B := by simp [s0, h]
  have h1 : s1.kept B = s.kept B := by
    clear_value s0
    simp [s1, h0, h]
  clear_value s1
  split
  · simp [h1, h]
  · split
    · simp [h1, h]
    · have h2 : ((s1.assignSlot k prev).ledgerBell k).kept B = s.kept B := by simp [h1, h]
      simp [h2, h]

@[simp] theorem keeps_execBellRing (t : Nat) {K : Kept} {s : State} (hs : K.Evolves (s.kept B)) : Keeps B K (execBellRing t s) := by
  unfold execBellRing
  dsimp only
  split <;> simp [hs, hs.inv]

/-! ## Thermal -/

/-- A trip adds its entry to the log. -/
theorem Otp.grows_addLog (o : Otp) (x : Nat) : o.Grows { o with log := o.log ++ [x] } :=
  ⟨le_rfl, by simp, le_rfl, fun _ x hx => ⟨x, hx, rfl, rfl, id⟩⟩

theorem State.kept_setThm {s : State} (h :
    (s.kept B).inv) : ({ s with thm := List.replicate 28 Sensor.reset } : State).kept B = s.kept B := by
  refine State.kept_of_inv rfl rfl rfl rfl h fun hi => ?_
  obtain ⟨hmem, hcoef, hwin, hscales, hnin, hlanes, hgroups, hins, hports, hclanes, hslots, hrecs, hdies, hrails, -, hrest⟩ := hi
  exact ⟨hmem, hcoef, hwin, hscales, hnin, hlanes, hgroups, hins, hports, hclanes, hslots, hrecs, hdies, hrails, rfl, hrest⟩

@[simp] theorem keeps_execThermalTrip (sensor t : Nat) {K : Kept} {s : State} (hs : K.Evolves (s.kept B)) :
    Keeps B K (execThermalTrip sensor t s) := by
  unfold execThermalTrip
  extract_lets s0
  refine .of_doneIf hs fun h0 => ?_
  extract_lets sec e s1 x s2 y s3
  have h1 : s1.kept B = s0.kept B := State.kept_allDown h0.inv
  have h2 : s2.kept B = s0.kept B := by
    clear_value s1
    simp [s2, x, h1]
  have hd (d : Dram) : (s2.setDram d).kept B = s0.kept B := (s2.kept_setDram d).trans h2
  have h3 : s3.kept B = s0.kept B := (State.kept_setThm (s := s2.setDram _) (State.inv_of_kept (hd _) h0.inv)).trans (hd _)
  have hk : K.Evolves (s3.kept B) := h3 ▸ h0
  split
  · exact hk
  · exact hk.trans (State.evolves_setOtp hk.inv (Otp.grows_addLog _ _))

/-! ## Bus -/

/-- What a write of a register with an effect of its own makes of a state of which k is kept: none where it has no such effect. -/
def KeepsSome (B : Prop) (k : Kept) (o : Option State) : Prop := ∀ u, o = some u → k.Evolves (u.kept B)

@[simp] theorem keepsSome_some (k : Kept) (s : State) : KeepsSome B k (some s) ↔ k.Evolves (s.kept B) :=
  ⟨fun h => h s rfl, fun h u hu => by cases hu; exact h⟩

@[simp] theorem keepsSome_none (k : Kept) : KeepsSome B k none := fun _ hu => by cases hu

@[simp] theorem keepsSome_ite (k : Kept) {c : Prop} {_ : Decidable c} (a b : Option State) :
    KeepsSome B k (if c then a else b) ↔ (c → KeepsSome B k a) ∧ (¬c → KeepsSome B k b) := by
  split <;> simp_all

theorem keepsSome_writeFront {K : Kept} {s : State} (base k v : Nat) (lk : Bool) (hs : K.Evolves (s.kept B)) :
    KeepsSome B K (s.writeFront base k v lk) := by
  simp [State.writeFront, hs, hs.inv]

theorem keepsSome_writeData {K : Kept} {s : State} (base k v : Nat) (lk : Bool) (hs : K.Evolves (s.kept B)) :
    KeepsSome B K (s.writeData base k v lk) := by
  simp [State.writeData, hs, hs.inv]

theorem keepsSome_writeCtl {K : Kept} {s : State} (m base k v : Nat) (lk : Bool) (hs : K.Evolves (s.kept B)) :
    KeepsSome B K (s.writeCtl m base k v lk) := by
  simp [State.writeCtl, hs, hs.inv]

@[simp] theorem State.evolves_busWrite {K : Kept} {s : State} (m r v : Nat) (lk : Bool) (hs : K.Evolves (s.kept B)) :
    K.Evolves ((s.busWrite m r v lk).kept B) := by
  unfold State.busWrite
  split
  · exact hs
  next row k hrow =>
    dsimp only
    split
    next u hu => exact keepsSome_writeFront _ k v lk hs u hu
    · split
      next u hu => exact keepsSome_writeData _ k v lk hs u hu
      · split
        next u hu => exact keepsSome_writeCtl m _ k v lk hs u hu
        · simp [hs]

@[simp] theorem State.evolves_regWrite_to_portAccess {K : Kept} {s : State} (hs : K.Evolves (s.kept B)) :
    (∀ m r v, K.Evolves ((s.regWrite m r v).2.kept B)) ∧ (∀ m r v, K.Evolves ((s.answerWrite m r v).kept B)) ∧
    (∀ r write v, K.Evolves ((s.portAccess r write v).kept B)) := by
  simp [State.regWrite, State.answerWrite, State.portAccess, hs, hs.inv]

@[simp] theorem keeps_execCoefDataAccess_to_execFlashErase {K : Kept} {s : State} (hs : K.Evolves (s.kept B)) :
    (∀ write v, Keeps B K (execCoefDataAccess write v s)) ∧ (∀ write v, Keeps B K (execWindowDataAccess write v s)) ∧
    (∀ write v, Keeps B K (execScaleDataAccess write v s)) ∧ (∀ write v, Keeps B K (execLocalMemoryAccess write v s)) ∧
    (∀ m d v t, Keeps B K (execEventRouteWrite m d v t s)) ∧ (∀ m v t, Keeps B K (execFlashDataWrite m v t s)) ∧
    (∀ m t, Keeps B K (execFlashErase m t s)) := by
  simp [hs, execCoefDataAccess, execWindowDataAccess, execScaleDataAccess, execLocalMemoryAccess, execEventRouteWrite,
    execFlashDataWrite, execFlashErase]

/-! ## Access -/

@[simp] theorem State.evolves_performChunk {K : Kept} {s : State} (m : Nat) (write : Bool) (a n be : Nat) (l : List Byte) (hint : Nat)
    (hs : K.Evolves (s.kept B)) : K.Evolves ((s.performChunk m write a n be l hint).2.kept B) := by
  simp [State.performChunk, hs, hs.inv]

@[simp] theorem State.evolves_perform {K : Kept} {s : State} (m : Nat) (write : Bool) (a n be : Nat) (l : List Byte) (hint : Nat)
    (hs : K.Evolves (s.kept B)) : K.Evolves ((s.perform m write a n be l hint).2.kept B) := by
  unfold State.perform
  split
  · exact hs
  · refine List.foldlRecOn (motive := fun p : Option (List Byte) × State => K.Evolves (p.2.kept B)) _ _ hs fun p hp c _ => ?_
    simp [hp]

@[simp] theorem State.evolves_moveChunk {K : Kept} {s : State} (k : Nat) (hs : K.Evolves (s.kept B)) :
    K.Evolves ((s.moveChunk k).kept B) := by
  unfold State.moveChunk
  split <;> simp [hs]

@[simp] theorem State.evolves_moveRound {K : Kept} {s : State} (hs : K.Evolves (s.kept B)) : K.Evolves (s.moveRound.kept B) := by
  unfold State.moveRound
  refine s.evolves_each _ (fun t k ht => ?_) hs
  split <;> simp [ht]

@[simp] theorem State.evolves_moveRounds {K : Kept} {s : State} (n : Nat) (hs : K.Evolves (s.kept B)) :
    K.Evolves ((s.moveRounds n).kept B) := by
  induction n generalizing s with
  | zero => exact hs
  | succ n ih =>
    unfold State.moveRounds
    exact ih (State.evolves_moveRound hs)

@[simp] theorem State.evolves_retryOut {K : Kept} {s : State} (hs : K.Evolves (s.kept B)) : K.Evolves (s.retryOut.kept B) := by
  simp [State.retryOut, hs]

@[simp] theorem keeps_execTargetTimeout (k : Nat) (performed : Bool) (t : Nat) {K : Kept} {s : State} (hs : K.Evolves (s.kept B)) :
    Keeps B K (execTargetTimeout k performed t s) := by
  unfold execTargetTimeout
  dsimp only
  split <;> simp [hs]

@[simp] theorem keeps_execSwDone (k : Nat) {K : Kept} {s : State} (hs : K.Evolves (s.kept B)) : Keeps B K (execSwDone k s) := by
  unfold execSwDone
  split <;> simp [hs]

@[simp] theorem keeps_execForcedSwitch (k : Nat) {K : Kept} {s : State} (hs : K.Evolves (s.kept B)) : Keeps B K (execForcedSwitch k s) := by
  unfold execForcedSwitch
  split <;> simp [hs]

@[simp] theorem State.evolves_finishDram {K : Kept} {s : State} (hs : K.Evolves (s.kept B)) : K.Evolves (s.finishDram.kept B) := by
  unfold State.finishDram
  exact State.evolves_each _ _ (fun t x ht => by simp [ht]) (by simp [hs, hs.inv])

theorem Store.rising_append {α : Type} {n : Nat} {b : Option Nat} {l m : Store α} (hl : Store.rising b l = true) (hm : Store.rising none m = true)
    (hln : ∀ p ∈ l, p.1 < n) (hmn : ∀ p ∈ m, n ≤ p.1) (hb : ∀ c, b = some c → c < n) : Store.rising b (l ++ m) = true := by
  induction l generalizing b with
  | nil =>
    cases b with
    | none => exact hm
    | some c =>
      cases m with
      | nil => rfl
      | cons p m =>
        have hc := hb c rfl
        have hp := hmn p List.mem_cons_self
        simp only [Store.rising] at hm
        simp [Store.rising, hm]
        omega
  | cons p l ih =>
    have hp := hln p List.mem_cons_self
    have hrest : Store.rising (some p.1) l = true := by cases b <;> simp_all [Store.rising]
    have := ih hrest (fun q hq => hln q (List.mem_cons_of_mem _ hq)) fun c hc => Option.some.inj hc ▸ hp
    cases b <;> simp_all [Store.rising]

/-- Two stores in canonical form, one below an address and one from there on, are one. -/
theorem Store.wf_split {α : Type} [DecidableEq α] {d : α} {l m : Store α} (n : Nat) (hl : Store.wf d l = true) (hm : Store.wf d m = true) :
    Store.wf d (l.filter (fun p => decide (p.1 < n)) ++ m.filter (fun p => decide (n ≤ p.1))) = true := by
  have hl' := Store.wf_filter d l (fun p => decide (p.1 < n)) hl
  have hm' := Store.wf_filter d m (fun p => decide (n ≤ p.1)) hm
  simp only [Store.wf, Bool.and_eq_true] at hl' hm' ⊢
  obtain ⟨hlr, hla⟩ := hl'
  obtain ⟨hmr, hma⟩ := hm'
  refine ⟨Store.rising_append (n := n) hlr hmr (by simp) (by simp) (by simp), ?_⟩
  rw [List.all_append, hla, hma]
  rfl

/-- Memory of which the part below n is taken back from a state before. -/
theorem State.kept_heldMem {s t : State} (ht : t.kept B = s.kept B) (h : (s.kept B).inv) (n : Nat) :
    ({ t with mem := s.mem.filter (fun c => decide (c.1 < n)) ++ t.mem.filter (fun c => decide (n ≤ c.1)) } : State).kept B = s.kept B := by
  refine Eq.trans ?_ ht
  rcases h with hB | ⟨hmem, hrest⟩
  · simp [State.kept, hB]
  · exact State.kept_setMem (State.inv_of_kept ht (.inr ⟨hmem, hrest⟩)) (Store.wf_split n hmem)

@[simp] theorem keeps_execDeepEntryComplete (t : Nat) {K : Kept} {s : State} (hs : K.Evolves (s.kept B)) :
    Keeps B K (execDeepEntryComplete t s) := by
  unfold execDeepEntryComplete
  refine .of_doneIf hs fun h => ?_
  extract_lets lp kept s1 mem s2 held errs x s3 y s4 s5 s6
  have h1 : K.Evolves (s1.kept B) := by
    have hf := State.evolves_finishDram h
    unfold s1
    rw [State.kept_selfRefresh, State.kept_saveBanks hf.inv]
    · exact hf
    · rw [State.kept_saveBanks hf.inv]
      exact hf.inv
  have h2 : s2.kept B = s1.kept B := State.kept_allDown h1.inv
  have h3 : s3.kept B = s1.kept B := by
    unfold s3
    split
    · exact State.kept_heldMem (t := s2.setDram _) ((s2.kept_setDram _).trans h2) h1.inv s1.dramSize
    · exact h2
  have h5 : s5.kept B = s1.kept B := by simp [s5, s4, h3]
  have h6 : s6.kept B = s1.kept B := by
    unfold s6
    split <;> simp [h5]
  clear_value s6 s1
  split <;> simp [h6, h1, h1.inv]

@[simp] theorem State.evolves_farAccess {K : Kept} {s : State} (core : Nat) (write : Bool) (a v fail : Nat) (hs : K.Evolves (s.kept B)) :
    K.Evolves ((s.farAccess core write a v fail).2.kept B) := by
  unfold State.farAccess
  dsimp only
  split <;> simp [hs]

@[simp] theorem keeps_execFarStoreComplete (core fail t : Nat) {K : Kept} {s : State} (hs : K.Evolves (s.kept B)) :
    Keeps B K (execFarStoreComplete core fail t s) := by
  unfold execFarStoreComplete
  extract_lets s0
  split
  · simp [s0, hs]
  next a v l hq =>
    refine .of_doneIf hs fun h => ?_
    extract_lets x s1
    have h2 : K.Evolves ((s1.farAccess core true a v fail).2.kept B) := State.evolves_farAccess core true a v fail (by simp [s1, h])
    split
    rename_i r s2 hr
    rw [hr] at h2
    split <;> simp [h2]

@[simp] theorem keeps_execFarLoadComplete (core fail t : Nat) {K : Kept} {s : State} (hs : K.Evolves (s.kept B)) :
    Keeps B K (execFarLoadComplete core fail t s) := by
  unfold execFarLoadComplete
  extract_lets s0
  split
  · simp [s0, hs]
  next a hq =>
    refine .of_doneIf hs fun h => ?_
    extract_lets x s1
    have h2 : K.Evolves ((s1.farAccess core false a 0 fail).2.kept B) := State.evolves_farAccess core false a 0 fail (by simp [s1, h])
    split
    rename_i r s2 hr
    rw [hr] at h2
    extract_lets c
    split <;> simp [h2]

@[simp] theorem State.evolves_porterUnit {K : Kept} {s : State} (c : Nat) (hs : K.Evolves (s.kept B)) :
    K.Evolves ((s.porterUnit c).kept B) := by
  unfold State.porterUnit
  extract_lets p d m a sw sr
  have hw : K.Evolves (sw.kept B) := by simp [sw, hs]
  have hr : K.Evolves (sr.kept B) := by simp [sr, hs]
  split
  · exact hs
  · split
    · have h2 := State.evolves_perform m true a d.dwBytes (fullBe d.dwBytes) (p.held.take d.dwBytes) d.hint hw
      split
      rename_i r s2 hp
      rw [hp] at h2
      split
      · simp [h2]
      · split <;> simp [h2]
    · split
      · have h2 := State.evolves_perform m false a d.swBytes (fullBe d.swBytes) [] d.hint hr
        split
        rename_i r s2 hp
        rw [hp] at h2
        split <;> simp [h2]
      · exact hs

@[simp] theorem State.evolves_porterRun {K : Kept} {s : State} (c n : Nat) (hs : K.Evolves (s.kept B)) :
    K.Evolves ((s.porterRun c n).kept B) := by
  induction n generalizing s with
  | zero => exact hs
  | succ n ih =>
    rw [State.porterRun]
    exact ih (State.evolves_porterUnit c hs)

@[simp] theorem State.evolves_pmcWrite {K : Kept} {s : State} (hs : K.Evolves (s.kept B)) : K.Evolves (s.pmcWrite.kept B) := by
  unfold State.pmcWrite
  split
  · exact hs
  next l a hheld =>
    extract_lets x s1
    have h2 := State.evolves_perform (s := s1.countTxn 6 a 2048) 6 true a 2048 (fullBe 2048) l 0 (show K.Evolves _ by simpa [s1] using hs)
    split
    rename_i r s2 hr
    rw [hr] at h2
    split <;> simp [h2]

@[simp] theorem keeps_execPmcSnapshot (prompt : Bool) (t : Nat) {K : Kept} {s : State} (hs : K.Evolves (s.kept B)) :
    Keeps B K (execPmcSnapshot prompt t s) := by
  unfold execPmcSnapshot
  refine .of_doneIf hs fun h => ?_
  extract_lets q a x s1
  have h1 : K.Evolves (s1.kept B) := by
    unfold s1
    split <;> simpa using h
  split <;> simp [h1]

@[simp] theorem keeps_execFabricTransaction_to_execPorterXferErr {K : Kept} {s : State} (hs : K.Evolves (s.kept B)) :
    (∀ m write a n be data answered t, Keeps B K (execFabricTransaction m write a n be data answered t s)) ∧
    (∀ m r v t, Keeps B K (execRegisterWrite m r v t s)) ∧ (∀ v, Keeps B K (execGateOpen v s)) ∧
    (∀ g, Keeps B K (execGateCloseDone g s)) ∧ (∀ g, Keeps B K (execGateCloseTimeout g s)) ∧
    (∀ k, Keeps B K (execPllLock k s)) ∧ Keeps B K (execXtalStable s) ∧ (∀ t, Keeps B K (execOscRestored t s)) ∧
    (∀ failed t, Keeps B K (execDramInitDone failed t s)) ∧ (∀ v, Keeps B K (execDramEnable v s)) ∧
    (∀ t, Keeps B K (execRequestAgeUp t s)) ∧ (∀ n t, Keeps B K (execD2dLinkRetrain n t s)) ∧
    (∀ c m t, Keeps B K (execPorterEnable c m t s)) ∧ (∀ c n m t, Keeps B K (execPorterDisable c n m t s)) ∧
    (∀ c t, Keeps B K (execPorterDescriptorEnd c t s)) ∧ (∀ c n t, Keeps B K (execPorterXferErr c n t s)) := by
  simp [hs, hs.inv, execFabricTransaction, execRegisterWrite, execGateOpen, execGateCloseDone, execGateCloseTimeout, execPllLock,
    execXtalStable, execOscRestored, execDramInitDone, execDramEnable, execRequestAgeUp, execD2dLinkRetrain, execPorterEnable,
    execPorterDisable, execPorterDescriptorEnd, execPorterXferErr]

/-! ## Apply -/

@[simp] theorem State.evolves_loaderWrite {K : Kept} {s : State} (a v : Nat) (hs : K.Evolves (s.kept B)) :
    K.Evolves ((s.loaderWrite a v).kept B) := by
  simp [State.loaderWrite, hs]

@[simp] theorem State.evolves_applySect {K : Kept} {s : State} (dom : Option Nat) (x : Sect) (data : List Byte) (hs :
    K.Evolves (s.kept B)) :
    K.Evolves ((s.applySect dom x data).kept B) := by
  unfold State.applySect
  extract_lets here
  split
  · refine s.evolves_each _ (fun t e ht => ?_) hs
    split <;> simp [ht]
  · split
    · exact s.evolves_each _ (fun t w ht => by simp [ht]) hs
    · exact hs
  all_goals split <;> simp [hs, hs.inv]

@[simp] theorem State.evolves_applyImage {K : Kept} {s : State} (dom : Option Nat) (base : Nat) (hs : K.Evolves (s.kept B)) :
    K.Evolves ((s.applyImage dom base).kept B) := by
  unfold State.applyImage
  exact State.evolves_each _ _ (fun t p ht => by simp [ht]) (by simp [hs])

@[simp] theorem State.evolves_reapply {K : Kept} {s : State} (d : Nat) (hs : K.Evolves (s.kept B)) : K.Evolves ((s.reapply d).kept B) := by
  unfold State.reapply
  split <;> simp [hs]

@[simp] theorem keeps_execStallReloadDone (t : Nat) {K : Kept} {s : State} (hs : K.Evolves (s.kept B)) :
    Keeps B K (execStallReloadDone t s) := by
  unfold execStallReloadDone
  extract_lets s0
  split
  next c hc =>
    refine .of_doneIf hs fun h => ?_
    extract_lets s1 s2 x s3
    have h1 : K.Evolves ((s1.applyImage none c.base).kept B) := by
      refine State.evolves_applyImage _ _ ?_
      unfold s1
      split <;> simp [h]
    have h2 : K.Evolves (s2.kept B) := by
      have : s2.kept B = (s1.applyImage none c.base).kept B := by simp [s2, h1.inv]
      rw [this]
      exact h1
    clear_value s2
    simp [s3, h2, h2.inv]
  · simp [s0, hs]

/-- The sections of a full image are in force: the ledger's coefficients of bank 4 no longer count. -/
theorem State.evolves_setBanks {K : Kept} {s : State} (hs : K.Evolves (s.kept B)) (v : Nat) :
    K.Evolves ((s.setPwr { s.pwr with banksOk := v }).kept B) := by
  simpa using hs

/-- The full image that is in force now is kept, and the dies it leaves open are loaded with their states at rest. -/
theorem State.evolves_reloaded {K : Kept} {s : State} (hs : K.Evolves (s.kept B)) (j : LoadJob) (l : List Byte) (c : Loader) :
    K.Evolves ((((((((s.keepImage j l).setFld CFG.STATUS_SRC j.src).setCfg c).setRegN CFG.PART 0).each (List.range 6) fun t n =>
      t.reloadClosed n).each (List.range 6) fun t n => t.restState n)).kept B) := by
  refine State.evolves_each _ _ (fun t n ht => by simpa using ht) (State.evolves_each _ _ (fun t n ht => by simp [ht, ht.inv]) ?_)
  simp [hs, hs.inv]

theorem State.evolves_setFresh {K : Kept} {s : State} (hs : K.Evolves (s.kept B)) :
    K.Evolves (({ s with corr := { s.corr with fresh := true }, alertDirect := false } : State).kept B) := by
  simpa using hs

theorem State.evolves_ledgerImage {K : Kept} {s : State} (hs : K.Evolves (s.kept B)) :
    K.Evolves (s.pitchRangeCheck.ledgerImage.kept B) := by
  simp [hs, hs.inv]

@[simp] theorem State.evolves_applyFull {K : Kept} {s : State} (j : LoadJob) (hs : K.Evolves (s.kept B)) :
    K.Evolves ((s.applyFull j).kept B) := by
  have h1 : K.Evolves (((((((s.ownRead 8 j.base j.len).2.setRegN BEL.FLEN_FRAC 0).setRegN BEL.FLEN_LO 0).setRegN BEL.FLEN_HI 0).applyImage
      none j.base).setRegN BEL.SCHED_ID (s.img j.base 0xC 4)).setRegN CFG.IMG_VER (s.img j.base 0x18 4) |>.kept B) := by simp [hs]
  exact State.evolves_setBanks (State.evolves_ledgerImage (State.evolves_setFresh (State.evolves_reloaded h1 j (s.read j.base j.len) _))) _

@[simp] theorem State.evolves_applyCoef {K : Kept} {s : State} (base : Nat) (hs : K.Evolves (s.kept B)) :
    K.Evolves ((s.applyCoef base).kept B) := by
  unfold State.applyCoef
  extract_lets dig
  split
  rename_i s1 lost hr
  have h1 : K.Evolves (s1.kept B) := by
    rw [show s1 = (s1, lost).1 from rfl, ← hr]
    exact List.foldlRecOn (motive := fun q : State × Bool => K.Evolves (q.1.kept B)) _ _ hs fun q hq p _ => by simp [hq]
  split <;> simp [h1]

@[simp] theorem keeps_execImageApply (t : Nat) {K : Kept} {s : State} (hs : K.Evolves (s.kept B)) : Keeps B K (execImageApply t s) := by
  unfold execImageApply
  dsimp only
  split <;> simp [hs]

@[simp] theorem keeps_execDomainPowerUp (d t : Nat) {K : Kept} {s : State} (hs : K.Evolves (s.kept B)) :
    Keeps B K (execDomainPowerUp d t s) := by
  simp [hs, execDomainPowerUp]

end Sys2Proof.Machine
end

section
/-! SUPPORT. What every command keeps, and the obligations on it, settled. -/
namespace Sys2Proof.Machine

variable {B : Prop}

/-! ## Power on -/

theorem blockInv_reset : BlockInv State.reset :=
  ⟨rfl, rfl, rfl, rfl, rfl, rfl, rfl, rfl, rfl, rfl, rfl, rfl, rfl, rfl, rfl, rfl, rfl, rfl, rfl, rfl⟩

/-- A device that powers on keeps its identity, its queue and what is one-time programmable; the rest is the reset state's. -/
theorem State.kept_reset {s : State} (h : (s.kept B).inv) (sent : List Out) (free : Nat) (flash : Store Nat) :
    ({ State.reset with part := s.part, serial := s.serial, sent := sent, free := free, otp := s.otp, flash := flash,
                        pending := s.pending } : State).kept B = s.kept B :=
  State.kept_of_inv rfl rfl rfl rfl h fun _ => blockInv_reset

theorem State.evolves_powerOn {K : Kept} {s : State} (straps cause : Nat) (hs : K.Evolves (s.kept B)) :
    K.Evolves ((s.powerOn straps cause).kept B) := by
  unfold State.powerOn
  extract_lets r s1 s2 s3
  have h1 : s1.kept B = s.kept B := State.kept_reset hs.inv ..
  clear_value s1
  simp [s3, s2, h1, hs]

@[simp] theorem keeps_execPwrgoodRise_to_execBrownout {K : Kept} {s : State} (hs : K.Evolves (s.kept B)) :
    (∀ straps, Keeps B K (execPwrgoodRise straps s)) ∧ (∀ straps, Keeps B K (execBrownout straps s)) := by
  simp [execPwrgoodRise, execBrownout, State.evolves_powerOn, hs]

/-! ## Every command -/

theorem keeps_exec (c : Instr) {K : Kept} {s : State} (hs : K.Evolves (s.kept B)) : Keeps B K (exec c s) := by
  cases c
  all_goals
    unfold exec
    simp [hs]

/-- Every command answers a next state; the ones named here do so in each of their cases. -/
theorem exec_next (c : Instr) (s : State) : ∃ u, exec c s = .next u := by
  cases c
  case
      targetTimeout | bellRing | scheduleItemStart | scheduleItemCutoff | bellWordRx | laneCdrLock | laneBlockRx | lockGained | lockLoss |
        adaptationDone | bankSwapDone | thresholdEvent | pitchWordRx | assignmentFrameRx | helloRx | dataPacketRx | creditPacketRx |
        voqStarve | probeRx | probeReplyRx | captureCastRx | joinCastRx | parkCastRx | ringCellStore | ringFrameClose | captureTrigger |
        readoutDone | windowBlockLoaded | tileChannelEnd | partialSumRetire | aislePassStart | aislePassEnd | crownPublish |
        crownPartialTx | outputPacketTx | dumpPacket | manifestPacket | manifestSignaturePacket | beamvPacket | beamdPacket | eventPacket
        | rowCloseTimer | farStoreComplete | farLoadComplete | interruptEntry | jobPush | jobLate | swapMonitorEnd | twoStepEntryTimeout |
        pdelayReqRx | pdelayRespRx | announceRx | announceTimeout | syncRx | delayRespRx | swDone | forcedSwitch | domainDrainTimeout |
        thermalVoteRelease | powerUpRetry | ledgerPlan | ledgerSlotEnd | ledgerReport | imageVerified | imageApply | castFrameTx |
        stallReloadDone | stallReloadFail | clerkLoadDone | signatureComplete | flashEraseDone | porterTrigger =>
    simp only [exec,
      execTargetTimeout, execBellRing, execScheduleItemStart, execScheduleItemCutoff, execBellWordRx, execLaneCdrLock, execLaneBlockRx,
        execLockGained, execLockLoss, execAdaptationDone, execBankSwapDone, execThresholdEvent, execPitchWordRx, execAssignmentFrameRx,
        execHelloRx, execDataPacketRx, execCreditPacketRx, execVoqStarve, execProbeRx, execProbeReplyRx, execCaptureCastRx,
        execJoinCastRx, execParkCastRx, execRingCellStore, execRingFrameClose, execCaptureTrigger, execReadoutDone, execWindowBlockLoaded,
        execTileChannelEnd, execPartialSumRetire, execAislePassStart, execAislePassEnd, execCrownPublish, execCrownPartialTx,
        execOutputPacketTx, execDumpPacket, execManifestPacket, execManifestSignaturePacket, execBeamvPacket, execBeamdPacket,
        execEventPacket, execRowCloseTimer, execFarStoreComplete, execFarLoadComplete, execInterruptEntry, execJobPush, execJobLate,
        execSwapMonitorEnd, execTwoStepEntryTimeout, execPdelayReqRx, execPdelayRespRx, execAnnounceRx, execAnnounceTimeout, execSyncRx,
        execDelayRespRx, execSwDone, execForcedSwitch, execDomainDrainTimeout, execThermalVoteRelease, execPowerUpRetry, execLedgerPlan,
        execLedgerSlotEnd, execLedgerReport, execImageVerified, execImageApply, execCastFrameTx, execStallReloadDone, execStallReloadFail,
        execClerkLoadDone, execSignatureComplete, execFlashEraseDone, execPorterTrigger]
    repeat' split
    all_goals exact ⟨_, rfl⟩
  all_goals exact ⟨_, rfl⟩

theorem exec_evolves {c : Instr} {s u : State} (h : (s.kept B).inv) (hu : exec c s = .next u) : (s.kept B).Evolves (u.kept B) :=
  keeps_exec c (.refl h) u hu

/-! ## The obligations -/

/-- Settles O37: the two branches of the step. -/
theorem stepRunsFrontCommand : Obligations.step_runs_front_command := by
  unfold Obligations.step_runs_front_command
  constructor
  · intro c l s hq
    unfold step
    rw [hq]
  · intro s hq
    unfold step
    rw [hq]

/-- Settles O38: every command answers a next state, and an empty queue idles. -/
theorem everyStepIsSafe : Obligations.every_step_is_safe := by
  unfold Obligations.every_step_is_safe
  refine ⟨exec_next, fun s => ?_⟩
  unfold SafeStep step
  split
  · exact ⟨s, rfl⟩
  · exact exec_next _ _

/-- Settles O39: the reset state's stores are empty and its units are counted. -/
theorem resetMeetsInvariant : Obligations.reset_meets_invariant := by
  unfold Obligations.reset_meets_invariant
  exact blockInv_reset

/-- Settles O40: the front command keeps the invariant, the queue being no part of it. -/
theorem stepKeepsInvariant : Obligations.step_keeps_invariant := by
  unfold Obligations.step_keeps_invariant
  intro s u hs hu
  unfold step at hu
  split at hu
  · cases hu
    exact hs
  next c l hq =>
    have hl : (State.kept False { s with pending := l }).inv := .inr hs
    exact (exec_evolves hl hu).inv.resolve_left id

/-- Settles O41: what a command keeps in every state. -/
theorem commandsKeepQueueAndPart : Obligations.commands_keep_queue_and_part := by
  unfold Obligations.commands_keep_queue_and_part
  intro c s u hu
  have h := exec_evolves (B := True) (.inl trivial) hu
  exact ⟨h.pending, h.part, h.serial⟩

/-- Settles O42: what is one-time programmable grows in every state. -/
theorem oneTimeProgrammableOnlyGrows : Obligations.one_time_programmable_only_grows := by
  unfold Obligations.one_time_programmable_only_grows
  intro c s u hu
  have h := (exec_evolves (B := True) (.inl trivial) hu).otp
  exact ⟨h.epoch, h.log, h.count, h.helpers⟩

end Sys2Proof.Machine
end

section
/-! SUPPORT. The clerk cores: what a core's registers hold after a write, what an instruction's effect and the move to the next
instruction leave of the core, and the step of a core that runs. -/
namespace Sys2Proof.Machine

/-! ## Registers of a core -/

theorem Core.get_put (c : Core) (k j v : Nat) : (c.put k v).get j = if j = k then v else c.get j := Store.getD_put ..

@[simp] theorem Core.get_put_same (c : Core) (k v : Nat) : (c.put k v).get k = v := by
  simp [Core.get_put]

@[simp] theorem Core.put_rest (c : Core) (k v : Nat) :
    (c.put k v).st = c.st ∧ (c.put k v).pc = c.pc ∧ (c.put k v).pm = c.pm ∧ (c.put k v).xm = c.xm ∧ (c.put k v).ym = c.ym ∧
    (c.put k v).errs = c.errs ∧ (c.put k v).delayed = c.delayed ∧ (c.put k v).fwd = c.fwd ∧ (c.put k v).noInt = c.noInt ∧
    (c.put k v).branch = c.branch ∧ (c.put k v).storeQ = c.storeQ ∧ (c.put k v).farLoad = c.farLoad ∧
    (c.put k v).stopping = c.stopping ∧ (c.put k v).fault = c.fault ∧ (c.put k v).jobq = c.jobq ∧ (c.put k v).haltNow = c.haltNow ∧
    (c.put k v).haltBell = c.haltBell :=
  ⟨rfl, rfl, rfl, rfl, rfl, rfl, rfl, rfl, rfl, rfl, rfl, rfl, rfl, rfl, rfl, rfl, rfl⟩

/-- A core without its registers and the jobs it has reported: what register writes leave alone. -/
def Core.still (c : Core) : Core := { c with r := [], done := [] }

@[simp] theorem Core.still_put (c : Core) (k v : Nat) : (c.put k v).still = c.still := rfl

@[simp] theorem Core.still_write (c : Core) (k v : Nat) : (c.write k v).still = c.still := by
  have hite {p : Prop} [Decidable p] {a b : Core} (ha : a.still = c.still) (hb : b.still = c.still) :
      (if p then a else b).still = c.still := by
    split
    · exact ha
    · exact hb
  unfold Core.write
  refine hite rfl (hite rfl (hite ?_ ?_))
  · dsimp only
    split <;> rfl
  · repeat' refine hite rfl ?_
    rfl

@[simp] theorem Core.still_writeAll (c : Core) (l : List (Nat × Nat)) : (c.writeAll l).still = c.still := by
  induction l generalizing c with
  | nil => rfl
  | cons p l ih => exact (ih _).trans (c.still_write ..)

@[simp] theorem Core.writeAll_rest (c : Core) (l : List (Nat × Nat)) :
    (c.writeAll l).st = c.st ∧ (c.writeAll l).pc = c.pc ∧ (c.writeAll l).pm = c.pm ∧ (c.writeAll l).xm = c.xm ∧
    (c.writeAll l).ym = c.ym ∧ (c.writeAll l).errs = c.errs ∧ (c.writeAll l).branch = c.branch ∧
    (c.writeAll l).storeQ = c.storeQ ∧ (c.writeAll l).farLoad = c.farLoad ∧ (c.writeAll l).stopping = c.stopping ∧
    (c.writeAll l).haltNow = c.haltNow ∧ (c.writeAll l).jobq = c.jobq := by
  have h := c.still_writeAll l
  simp only [Core.still, Core.mk.injEq] at h
  simp [h]

@[simp] theorem Core.writeAll_nil (c : Core) : c.writeAll [] = c := rfl

@[simp] theorem Core.writeAll_cons (c : Core) (p : Nat × Nat) (l : List (Nat × Nat)) :
    c.writeAll (p :: l) = (c.write p.1 p.2).writeAll l := rfl

@[simp] theorem Core.writeAll_append (c : Core) (l m : List (Nat × Nat)) : c.writeAll (l ++ m) = (c.writeAll l).writeAll m :=
  List.foldl_append

/-! Writes by code that are writes of one register. -/

theorem Core.write_low (c : Core) {k : Nat} (v : Nat) (h : k < 0x10) : c.write k v = c.put k (v % 65536) := by
  simp [Core.write, h]

theorem Core.write_acc (c : Core) {a : Nat} (v : Nat) (h : a < 4) : c.write (0x100 + a) v = c.put (0x100 + a) (v % 2 ^ 40) := by
  unfold Core.write
  simp (disch := omega) only [if_neg, if_pos]

theorem Core.write_zn (c : Core) (v : Nat) : c.write 0x200 v = c.put 0x40 (srWithZN c.sr v) := rfl

theorem Core.write_depth (c : Core) (v : Nat) : c.write 0x201 v = c.put 0x40 (putBits c.sr 5 2 v) := rfl

theorem Core.write_sticky (c : Core) (v : Nat) : c.write 0x202 v = c.put 0x40 (srSticky c.sr v) := rfl

/-- LR, IPC, ISR and the loop registers take a word of their width. -/
theorem Core.write_control (c : Core) {k : Nat} (v : Nat) (h : 0x40 ≤ k) (h2 : k ≤ 0x49) : c.write k v = c.put k (v % 2 ^ moveWidth k) := by
  unfold Core.write
  simp (disch := omega) only [if_neg]

/-! ## A core as time passes -/

@[simp] theorem Core.advance_rest (c : Core) (dc : Nat) :
    (c.advance dc).st = c.st ∧ (c.advance dc).pc = c.pc ∧ (c.advance dc).pm = c.pm ∧ (c.advance dc).xm = c.xm ∧
    (c.advance dc).ym = c.ym ∧ (c.advance dc).errs = c.errs ∧ (c.advance dc).delayed = c.delayed ∧
    (c.advance dc).fwd = c.fwd ∧ (c.advance dc).branch = c.branch ∧ (c.advance dc).storeQ = c.storeQ ∧
    (c.advance dc).farLoad = c.farLoad ∧ (c.advance dc).stopping = c.stopping ∧ (c.advance dc).jobq = c.jobq ∧
    (c.advance dc).haltNow = c.haltNow := by
  unfold Core.advance
  dsimp only
  split <;> split <;> split <;> simp [Core.pend]

/-- Time moves CYC, TMR and the timer's IPEND bit, and no other register. -/
theorem Core.get_advance (c : Core) (dc : Nat) {k : Nat} (h : k ≠ 0x300) (h1 : k ≠ 0x301) (h2 : k ≠ 0x4B) :
    (c.advance dc).get k = c.get k := by
  have hpend (c : Core) : (c.pend 3).get k = c.get k := by
    simp [Core.pend, Core.get, Store.getD_put, h2]
  unfold Core.advance
  dsimp only
  have hr (c : Core) (b : Nat) : Core.get { c with busyNow := b } k = c.get k := rfl
  rw [apply_ite (Core.get · k), hr, ite_self]
  split <;> split <;> simp [hpend, Core.get_put, h, h1]

@[simp] theorem Core.sr_advance (c : Core) (dc : Nat) : (c.advance dc).sr = c.sr := c.get_advance dc (by decide) (by decide) (by decide)

theorem Core.d_advance (c : Core) (dc : Nat) {k : Nat} (h : k < 0x40) : (c.advance dc).d k = c.d k :=
  c.get_advance dc (by omega) (by omega) (by omega)

theorem Core.acc_advance (c : Core) (dc : Nat) {a : Nat} (h : a < 4) : (c.advance dc).acc a = c.acc a :=
  c.get_advance dc (by omega) (by omega) (by omega)

@[simp] theorem Core.dm_advance (c : Core) (dc a : Nat) : (c.advance dc).dm a = c.dm a := by
  simp [Core.dm]

theorem Core.accFwd_advance (c : Core) (dc : Nat) {a : Nat} (h : a < 4) : (c.advance dc).accFwd a = c.accFwd a := by
  simp [Core.accFwd, c.acc_advance dc h]

/-! ## A core after an instruction's effect -/

/-- A core without its data memories: what stores to them leave alone. -/
def Core.noData (c : Core) : Core := { c with xm := [], ym := [], errs := [] }

@[simp] theorem Core.noData_setDm (c : Core) (a v : Nat) : (c.setDm a v).noData = c.noData := by
  unfold Core.setDm
  dsimp only
  split <;> rfl

@[simp] theorem Core.noData_setDms (c : Core) (l : List (Nat × Nat)) :
    (l.foldl (fun c p => c.setDm p.1 p.2) c).noData = c.noData := by
  induction l generalizing c with
  | nil => rfl
  | cons p l ih => exact (ih _).trans (c.noData_setDm ..)

/-- What an instruction's effect leaves of a core: the registers its writes leave, its own delayed writes, the core running. -/
@[simp] theorem Core.apply_rest (c : Core) (e : Eff) :
    (c.apply e).r = ((c.writeAll c.delayed).writeAll e.now).r ∧ (c.apply e).delayed = e.later ∧ (c.apply e).noInt = e.noInt ∧
    (c.apply e).st = 2 ∧ (c.apply e).pc = c.pc ∧ (c.apply e).branch = c.branch ∧ (c.apply e).haltNow = c.haltNow ∧
    (c.apply e).storeQ = c.storeQ ++ e.far.toList := by
  have h := (((c.writeAll c.delayed).writeAll e.now).noData_setDms e.stores)
  have hw := (c.writeAll c.delayed).writeAll_rest e.now
  have hd := c.writeAll_rest c.delayed
  simp only [Core.noData, Core.mk.injEq] at h
  unfold Core.apply
  dsimp only
  split <;> split <;> simp_all

theorem Core.get_apply (c : Core) (e : Eff) (k : Nat) :
    (c.apply e).get k = ((c.writeAll c.delayed).writeAll e.now).get k := by
  rw [Core.get, (c.apply_rest e).1]
  rfl

/-- An effect that stores nothing in local memory leaves it. -/
theorem Core.dm_apply (c : Core) (e : Eff) (a : Nat) :
    (c.apply e).dm a = (e.stores.foldl (fun c p => c.setDm p.1 p.2) ((c.writeAll c.delayed).writeAll e.now)).dm a := by
  unfold Core.apply
  dsimp only
  split <;> split <;> rfl

/-! ## The move to the next instruction -/

/-- The move to the next instruction changes the PC, a branch on its way, and registers. -/
def Core.unmoved (c : Core) : Core := { c.still with pc := 0, branch := none }

@[simp] theorem Core.unmoved_goNext (c : Core) (e : Eff) : (c.goNext e).unmoved = c.unmoved := by
  unfold Core.goNext
  dsimp only
  split
  · split
    · split <;> rfl
    · rfl
  · split
    · rfl
    · split
      · rfl
      · split
        · exact congrArg (fun c : Core => { c with pc := 0, branch := none }) (Core.still_write ..)
        · rfl

@[simp] theorem Core.goNext_rest (c : Core) (e : Eff) :
    (c.goNext e).st = c.st ∧ (c.goNext e).xm = c.xm ∧ (c.goNext e).ym = c.ym ∧ (c.goNext e).delayed = c.delayed ∧
    (c.goNext e).noInt = c.noInt ∧ (c.goNext e).storeQ = c.storeQ ∧ (c.goNext e).haltNow = c.haltNow := by
  have h := c.unmoved_goNext e
  simp only [Core.unmoved, Core.still, Core.mk.injEq] at h
  simp [h]

/-- Where a branch in its delay slots goes on. -/
theorem Core.goNext_of_branch {c : Core} {t k : Nat} {rti : Bool} (e : Eff) (h : c.branch = some (t, k, rti)) (hk : 2 ≤ k) :
    c.goNext e = { c with pc := (c.pc + 1) % 32768, branch := some (t, k - 1, rti) } := by
  simp [Core.goNext, h, show ¬ k ≤ 1 by omega]

/-- A branch whose delay slots are over is taken; RTI restores SR. -/
theorem Core.goNext_of_taken {c : Core} {t : Nat} {rti : Bool} (e : Eff) (h : c.branch = some (t, 1, rti)) :
    c.goNext e = if rti then Core.put { c with pc := t, branch := none } 0x40 (c.get 0x43 % 2 ^ 13) else { c with pc := t, branch := none } := by
  simp [Core.goNext, h]
  rfl

theorem Core.goNext_of_branches {c : Core} {e : Eff} {t : Nat} {rti : Bool} (h : c.branch = none) (he : e.branch = some (t, rti)) :
    c.goNext e = { c with pc := (c.pc + 1) % 32768, branch := some (t, 2, rti) } := by
  simp [Core.goNext, h, he]

/-- Outside loops, and before a loop's last instruction, the PC goes on by one. -/
theorem Core.goNext_of_next {c : Core} {e : Eff} (h : c.branch = none) (he : e.branch = none)
    (hl : srLDEPTH c.sr = 0 ∨ c.pc ≠ c.get (0x46 + 3 * (srLDEPTH c.sr - 1))) : c.goNext e = { c with pc := (c.pc + 1) % 32768 } := by
  simp [Core.goNext, h, he, hl]

/-- The move to the next instruction writes SR and the loops' counts only. -/
theorem Core.get_goNext (c : Core) (e : Eff) {j : Nat} (h0 : j ≠ 0x40) (h1 : j ≠ 0x44) (h2 : j ≠ 0x47) : (c.goNext e).get j = c.get j := by
  have hput (c : Core) (k v : Nat) (h : j ≠ k) : (c.put k v).get j = c.get j := by rw [Core.get_put, if_neg h]
  have hl : min 2 (bits c.sr 5 2) ≤ 2 := Nat.min_le_left ..
  unfold Core.goNext srLDEPTH
  dsimp only
  split
  · split
    · split
      · exact hput _ _ _ h0
      · rfl
    · rfl
  · split
    · rfl
    · split
      · rfl
      · split
        · exact hput _ _ _ h0
        · exact hput _ _ _ (by omega)

/-! ## Cores of the block -/

theorem atD_map {α : Type} (l : List α) (f : α → α) (k : Nat) (d : α) : atD (l.map f) k d = if k < l.length then f (atD l k d) else atD l k d := by
  induction l generalizing k with
  | nil => simp [atD]
  | cons x l ih => cases k <;> simp [atD, ih]

theorem setAt_setAt {α : Type} (l : List α) (k : Nat) (a b : α) : setAt (setAt l k a) k b = setAt l k b := by
  induction l generalizing k with
  | nil => rfl
  | cons x l ih => cases k <;> simp [setAt, ih]

theorem setAt_atD {α : Type} (l : List α) (k : Nat) (d : α) : setAt l k (atD l k d) = l := by
  induction l generalizing k with
  | nil => rfl
  | cons x l ih => cases k <;> simp [setAt, atD, ih]

theorem setAt_of_length_le {α : Type} (l : List α) (k : Nat) (a : α) (h : l.length ≤ k) : setAt l k a = l := by
  induction l generalizing k with
  | nil => rfl
  | cons x l ih =>
    cases k with
    | zero => simp at h
    | succ k => simp [setAt, ih k (by simpa using h)]

@[simp] theorem State.setCore_setCore (s : State) (n : Nat) (c d : Core) : (s.setCore n c).setCore n d = s.setCore n d := by
  simp [State.setCore, setAt_setAt]

@[simp] theorem State.setCore_core (s : State) (n : Nat) : s.setCore n (s.core n) = s := by
  simp [State.setCore, State.core, setAt_atD]

theorem State.core_setCore {s : State} {n : Nat} (h : n < s.cores.length) (c : Core) (m : Nat) :
    (s.setCore n c).core m = if m = n then c else s.core m := atD_setAt _ _ _ _ _ h

theorem State.core_setCore_ne (s : State) {n m : Nat} (c : Core) (h : m ≠ n) : (s.setCore n c).core m = s.core m := by
  rcases Nat.lt_or_ge n s.cores.length with hn | hn
  · rw [s.core_setCore hn, if_neg h]
  · rw [State.setCore, setAt_of_length_le _ _ _ hn]

@[simp] theorem State.setCore_regs (s : State) (n : Nat) (c : Core) : (s.setCore n c).regs = s.regs := rfl

/-! ## What events leave of a core -/

theorem CoreKept.refl (s : State) (n : Nat) : CoreKept s s n := ⟨rfl, fun _ _ => rfl⟩

theorem CoreKept.trans {s t u : State} {n : Nat} (h : CoreKept s t n) (k : CoreKept t u n) : CoreKept s u n :=
  ⟨k.1.trans h.1, fun j hj => (k.2 j hj).trans (h.2 j hj)⟩

theorem CoreKept.of_cores {s u : State} (h : u.cores = s.cores) (n : Nat) : CoreKept s u n := by
  unfold CoreKept State.core
  rw [h]
  exact CoreKept.refl s n

/-- Pending an interrupt changes IPEND only. -/
theorem coreKept_pend (s u : State) (k n : Nat) (h : u.cores = s.cores.map (fun c => c.pend k)) : CoreKept s u n := by
  unfold CoreKept State.core
  rw [h, atD_map]
  split
  · exact ⟨rfl, fun j hj => by rw [Core.pend]; exact (Store.get?_put ..).trans (if_neg hj)⟩
  · exact CoreKept.refl s n

theorem coreKept_deliver (s u v : State) (mask : Nat) (host : List Trigger) (e : Edges) (d n : Nat) (h : CoreKept s { u with cores := e.cores } n) :
    CoreKept s { v with cores := (e.deliver mask host d).cores } n := by
  unfold Edges.deliver
  split
  · split <;> exact h
  · split
    · exact h.trans (coreKept_pend _ _ _ _ rfl)
    · split <;> exact h

theorem State.coreKept_edgesOf (s v : State) (regs : Store Word) (src n : Nat) :
    CoreKept s { v with cores := (s.edgesOf regs src).cores } n := by
  have H : ∀ (l : List Nat) (e : Edges), CoreKept s { v with cores := e.cores } n →
      CoreKept s { v with cores := (l.foldl (Edges.deliver s.msixMask (hostTrigger regs)) e).cores } n := by
    intro l
    induction l with
    | nil => exact fun _ h => h
    | cons d l ih => exact fun e h => ih _ (coreKept_deliver s v v _ _ e d n h)
  exact H _ _ (.of_cores rfl n)

theorem State.coreKept_pulse (s : State) (src n : Nat) : CoreKept s (s.pulse src) n := s.coreKept_edgesOf (s.pulse src) s.regs src n

theorem State.coreKept_raise (s : State) (f : Fld) (n : Nat) : CoreKept s (s.raise f) n := by
  unfold State.raise State.withLine
  dsimp only
  split
  · exact s.coreKept_edgesOf s _ _ n
  · exact .of_cores rfl n

/-- An event leaves a core's run state. -/
theorem State.core_raise (s : State) (f : Fld) (n : Nat) :
    ((s.raise f).core n).st = (s.core n).st ∧ ((s.raise f).core n).fault = (s.core n).fault ∧ ((s.raise f).core n).pc = (s.core n).pc := by
  have h := (s.coreKept_raise f n).1
  simp only [Core.mk.injEq] at h
  simp [h]

/-! ## The step of a core -/

theorem exec_clerkCommand (op : ClerkOp) (n dc : Nat) (s : State) :
    exec (clerkCommand op n dc) s = .next (s.clerkStep n dc (fun o _ => o == op)) := by
  cases op <;> rfl

theorem CoreSteps.core_setCore {s : State} {n : Nat} (h : CoreSteps s n) (c : Core) : (s.setCore n c).core n = c := by
  obtain ⟨⟨-, -, -, -, -, -, -, -, -, -, -, -, -, -, -, -, hcores, -⟩, hn, -⟩ := h
  rw [State.core_setCore (by omega), if_pos rfl]

/-- A core with no word in error meets no ECC error. -/
theorem State.eccCorrected_of_errs_nil {s : State} {n : Nat} (h : (s.core n).errs = []) (keys : List Nat) : s.eccCorrected n keys = s := by
  have hk : (s.core n).eccCorrect keys = 0 := by
    unfold Core.eccCorrect
    rw [h, List.filter_eq_nil_iff.2 (by simp [Store.has, Store.get?]), List.length_nil]
  unfold State.eccCorrected
  dsimp only
  rw [if_pos hk]

theorem Core.eccFault_of_errs_nil {c : Core} (h : c.errs = []) (keys : List Nat) (code : Nat) : c.eccFault keys code = 0 := by
  simp [Core.eccFault, h]

theorem State.tryHalt_of_not_asked {s : State} {n : Nat} (h : (s.core n).haltNow = false) : s.tryHalt n = s := by
  simp [State.tryHalt, h]

/-- The step of a core that runs: what it does once time has passed for it. -/
theorem CoreSteps.clerkStep_eq {s : State} {n : Nat} (h : CoreSteps s n) (dc : Nat) (want : ClerkOp → Nat → Bool) :
    s.clerkStep n dc want =
      match clerkDecode (s.clerkWord n) with
      | none => (s.setCore n ((s.core n).advance dc)).stopCore n 3
      | some op =>
        if want op (s.clerkWord n) then
          if op.control && (s.core n).branch.isSome then (s.setCore n ((s.core n).advance dc)).stopCore n 4
          else if op.control && ((s.core n).advance dc).nearLoopEnd then (s.setCore n ((s.core n).advance dc)).stopCore n 6
          else (s.setCore n ((s.core n).advance dc)).clerkApply n (clerkEff op ((s.core n).advance dc) (s.clerkWord n))
        else s.setCore n ((s.core n).advance dc) := by
  have hset := h.core_setCore ((s.core n).advance dc)
  obtain ⟨-, hn, hw, hst, herr, -⟩ := h
  have herr' : ((s.setCore n ((s.core n).advance dc)).core n).errs = [] := by simp [hset, herr]
  unfold State.clerkStep
  rcases hd : clerkDecode (s.clerkWord n) with _ | op
  all_goals
    unfold State.clerkWord at hd ⊢
    simp only [hw, if_true, hset, Core.advance_rest, hn, hst, true_or]
    rw [show (s.setCore n ((s.core n).advance dc)).works 16 25 = s.works 16 25 from rfl, hw]
    simp only [Core.eccFault_of_errs_nil (c := (s.core n).advance dc) (by simp [herr]), State.eccCorrected_of_errs_nil herr', ne_eq,
      not_true_eq_false, if_false, and_self, if_true, hd]

/-- A core with no far store queued faults at once. -/
theorem CoreSteps.fault {s : State} {n : Nat} (h : CoreSteps s n) {c : Core} {code : Nat} (hq : c.storeQ = []) (hc : code ≠ 1) :
    (((s.setCore n c).stopCore n code).core n).st = 4 ∧ (((s.setCore n c).stopCore n code).core n).fault = code - 2 ∧
    ((s.setCore n c).stopCore n code).reg (CLE.CORE_FPC n) = BitVec.ofNat 32 c.pc ∧
    ((s.setCore n c).stopCore n code).flag CLE.STAT_CORE_FAULT = true := by
  have hn := h.2.1
  unfold State.stopCore
  simp only [h.core_setCore, hq, hc, if_true, if_false, State.setCore_setCore]
  refine ⟨?_, ?_, ?_, State.flag_raise _ _ (by decide) (by decide) (by decide)⟩
  · rw [(State.core_raise ..).1]
    exact congrArg Core.st (h.core_setCore _)
  · rw [(State.core_raise ..).2.1]
    exact congrArg Core.fault (h.core_setCore _)
  · rw [State.reg_raise_ne _ _ (by decide) (show 0x140108 + 0x20 * n ≠ CLE.STAT by unfold CLE.STAT; omega)
      (show (0x140108 + 0x20 * n) / 65536 ≠ 29 by omega)]
    exact State.reg_setReg_same ..

/-- A core with no far store queued halts at once. -/
theorem CoreSteps.halted {s : State} {n : Nat} (h : CoreSteps s n) {c : Core} (hq : c.storeQ = []) :
    (((s.setCore n c).stopCore n 1).core n).st = 1 ∧ ((s.setCore n c).stopCore n 1).flag CLE.STAT_HALTED = true := by
  unfold State.stopCore
  simp only [h.core_setCore, hq, if_true, State.setCore_setCore]
  refine ⟨?_, State.flag_raise _ _ (by decide) (by decide) (by decide)⟩
  rw [(State.core_raise ..).1]
  exact congrArg Core.st (h.core_setCore _)

/-- What an instruction that a core may run does: the step applies its effect. -/
theorem ClerkReady.step_eq {s : State} {n dc : Nat} {op : ClerkOp} (h : ClerkReady s n dc op) :
    exec (clerkCommand op n dc) s = .next ((s.setCore n ((s.core n).advance dc)).clerkApply n (s.clerkDoes n dc op)) := by
  obtain ⟨hs, hop, hc⟩ := h
  rw [exec_clerkCommand, hs.clerkStep_eq, hop]
  cases hk : op.control with
  | false => simp [hk, State.clerkDoes]
  | true => simp [hk, hc hk, State.clerkDoes]

/-- Where a core with no word in error applies an instruction's effect. -/
theorem CoreSteps.clerkApply_eq {s : State} {n : Nat} (h : CoreSteps s n) (dc : Nat) (e : Eff) :
    (s.setCore n ((s.core n).advance dc)).clerkApply n e =
      if e.fault ≠ 0 then (s.setCore n ((s.core n).advance dc)).stopCore n (2 + e.fault)
      else if e.stall then s.setCore n { (s.core n).advance dc with st := 5, farLoad := e.load }
      else if e.halt then (s.setCore n ((((s.core n).advance dc).apply e).goNext e)).stopCore n 1
      else if e.wait && (((((s.core n).advance dc).apply e).goNext e).get 0x4A &&& ((((s.core n).advance dc).apply e).goNext e).get 0x4B) == 0
      then s.setCore n { (((s.core n).advance dc).apply e).goNext e with st := 3 }
      else s.setCore n ((((s.core n).advance dc).apply e).goNext e) := by
  have herr : ((s.core n).advance dc).errs = [] := by simp [h.2.2.2.2.1]
  have hhalt : ((((s.core n).advance dc).apply e).goNext e).haltNow = false := by simp [h.2.2.2.2.2]
  unfold State.clerkApply
  rw [State.eccCorrected_of_errs_nil (by rw [h.core_setCore, herr])]
  simp only [h.core_setCore, Core.eccFault_of_errs_nil herr, ne_eq, not_true_eq_false, if_false, State.setCore_setCore]
  rw [State.tryHalt_of_not_asked (by rw [h.core_setCore]; exact hhalt), State.tryHalt_of_not_asked (by rw [h.core_setCore]; exact hhalt)]

/-- An instruction that neither faults, stalls, waits nor halts leaves its core as its effect and the move to the next one make it. -/
theorem ClerkReady.completes {s : State} {n dc : Nat} {op : ClerkOp} (h : ClerkReady s n dc op) (hf : (s.clerkDoes n dc op).fault = 0)
    (hs : (s.clerkDoes n dc op).stall = false) (hw : (s.clerkDoes n dc op).wait = false) (hh : (s.clerkDoes n dc op).halt = false) :
    exec (clerkCommand op n dc) s =
      .next (s.setCore n ((((s.core n).advance dc).apply (s.clerkDoes n dc op)).goNext (s.clerkDoes n dc op))) := by
  rw [h.step_eq, h.1.clerkApply_eq, if_neg (not_not.2 hf), hs, hw, hh]
  rfl

/-- The core that such an instruction leaves. -/
theorem ClerkReady.completes_core {s : State} {n dc : Nat} {op : ClerkOp} {P : State → Prop} (h : ClerkReady s n dc op)
    (hf : (s.clerkDoes n dc op).fault = 0) (hs : (s.clerkDoes n dc op).stall = false) (hw : (s.clerkDoes n dc op).wait = false)
    (hh : (s.clerkDoes n dc op).halt = false)
    (hP : ∀ u : State, u.core n = (((s.core n).advance dc).apply (s.clerkDoes n dc op)).goNext (s.clerkDoes n dc op) → P u) :
    Completes (clerkCommand op n dc) s P :=
  ⟨_, h.completes hf hs hw hh, hP _ (h.1.core_setCore _)⟩

end Sys2Proof.Machine
end

section
/-! SUPPORT. The clerk statements: faults and waits, the PC and its branches, LOOP, accumulator and D results. -/
namespace Sys2Proof.Machine

/-! ## Faults and waits -/

/-- Settles O19, from what the step of a running core does and what a stop leaves. -/
theorem clerkFaults : Obligations.clerk_faults := by
  refine ⟨fun op n dc s h hq hd => ⟨_, exec_clerkCommand .., ?_⟩, fun op n dc s h hq hd hc hb => ⟨_, exec_clerkCommand .., ?_⟩,
    fun n dc s h hq hl => ⟨_, h.step_eq, ?_⟩, fun op n dc s h hq hd hc hb hl => ⟨_, exec_clerkCommand .., ?_⟩⟩
  · rw [h.clerkStep_eq, hd]
    simpa using h.fault (c := (s.core n).advance dc) (code := 3) (by simpa using hq) (by decide)
  · rw [h.clerkStep_eq, hd]
    obtain ⟨hst, hf, -, hflag⟩ := h.fault (c := (s.core n).advance dc) (code := 4) (by simpa using hq) (by decide)
    simp [hc, Option.isSome_iff_ne_none.2 hb, hst, hf, hflag]
  · obtain ⟨hst, hf, -, hflag⟩ := h.1.fault (c := (s.core n).advance dc) (code := 5) (by simpa using hq) (by decide)
    have he : s.clerkDoes n dc .loop = { fault := 3 } := by simp [State.clerkDoes, clerkEff, effLoop, hl]
    rw [h.1.clerkApply_eq, he]
    simp [hst, hf, hflag]
  · rw [h.clerkStep_eq, hd]
    obtain ⟨hst, hf, -, hflag⟩ := h.fault (c := (s.core n).advance dc) (code := 6) (by simpa using hq) (by decide)
    simp [hc, hb, hl, hst, hf, hflag]

/-- Where no delayed write is out, an effect's own writes make the registers. -/
theorem Core.get_apply_of_settled {c : Core} (e : Eff) (hd : c.delayed = []) (dc k : Nat) :
    ((c.advance dc).apply e).get k = ((c.advance dc).writeAll e.now).get k := by
  rw [Core.get_apply, (c.advance_rest dc).2.2.2.2.2.2.1, hd, Core.writeAll_nil]

@[simp] theorem Core.farBase_advance (c : Core) (dc : Nat) {k : Nat} (h : k < 4) : (c.advance dc).farBase k = c.farBase k := by
  unfold Core.farBase
  rw [c.get_advance dc (by omega) (by omega) (by omega), c.get_advance dc (by omega) (by omega) (by omega),
    c.get_advance dc (by omega) (by omega) (by omega)]

theorem Core.farAddr_advance (c : Core) (dc w : Nat) : ((c.advance dc).farAddr w).1 = (c.farAddr w).1 := by
  have hj : bits w 15 3 < 8 := bits_lt ..
  unfold Core.farAddr
  dsimp only
  rw [c.farBase_advance dc (bits_lt ..), c.get_advance dc (by omega) (by omega) (by omega)]
  split <;> rfl

/-- Settles O18, instruction by instruction. -/
theorem clerkWaitsComplete : Obligations.clerk_waits_complete := by
  refine ⟨fun n dc s h => ⟨_, h.step_eq, ?_⟩, fun n dc s h hq => ⟨_, h.step_eq, ?_⟩, fun n dc s h hq => ⟨_, h.step_eq, ?_⟩,
    fun n dc s h hq => ⟨_, h.step_eq, ?_⟩, fun n dc s h hq hb hl hd => ?_⟩
  · rw [h.1.clerkApply_eq, show s.clerkDoes n dc .wait = { wait := true } from rfl]
    simp only [ne_eq, not_true_eq_false, if_false, Bool.false_eq_true, Bool.true_and, beq_iff_eq]
    split
    case isTrue h0 => rw [h.1.core_setCore]; exact (if_pos h0).symm
    case isFalse h0 => rw [h.1.core_setCore, if_neg h0]; simp
  · rw [h.1.clerkApply_eq, show s.clerkDoes n dc .halt = { halt := true } from rfl]
    exact h.1.halted (by simp [hq])
  · have he : s.clerkDoes n dc .fld = { load := some (((s.core n).advance dc).farAddr (s.clerkWord n)).1, stall := true } := by
      simp [State.clerkDoes, clerkEff, effFld, hq]
    rw [h.1.clerkApply_eq, he]
    simp only [ne_eq, not_true_eq_false, if_false, if_true, h.1.core_setCore, Core.farAddr_advance]
    simp
  · have he : s.clerkDoes n dc .fence = { stall := true } := by
      simp [State.clerkDoes, clerkEff, effFence, hq]
    rw [h.1.clerkApply_eq, he]
    simp [h.1.core_setCore]
  · have he : s.clerkDoes n dc .fence = {} := by
      simp [State.clerkDoes, clerkEff, effFence, hq]
    refine h.completes_core (by rw [he]) (by rw [he]) (by rw [he]) (by rw [he]) fun u hu => ?_
    have hsr : (((s.core n).advance dc).apply {}).sr = (s.core n).sr :=
      (Core.get_apply_of_settled {} hd dc 0x40).trans (Core.sr_advance ..)
    rw [hu, he, Core.goNext_of_next (by simp [hb]) rfl (.inl (by rw [hsr, hl]))]
    simp

/-! ## The PC, branches and loops -/

/-- LOOP raises LDEPTH and writes the registers of its level (R281). -/
theorem ClerkReady.loop_completes {s : State} {n dc l : Nat} (h : ClerkReady s n dc .loop) (hd : (s.core n).delayed = [])
    (hl : l = srLDEPTH (s.core n).sr) (h2 : l < 2) (hpc : bits (s.clerkWord n) 0 15 ≠ (s.core n).pc) :
    Completes (.loop n dc) s (fun u => (u.core n).pc = ((s.core n).pc + 1) % 32768 ∧ srLDEPTH (u.core n).sr = l + 1 ∧
      (u.core n).get (0x44 + 3 * l) =
        (if (s.clerkWord n).testBit 23 then (s.core n).d (bits (s.clerkWord n) 15 3) else bits (s.clerkWord n) 15 8 + 1) % 65536 ∧
      (u.core n).get (0x45 + 3 * l) = ((s.core n).pc + 1) % 32768 ∧ (u.core n).get (0x46 + 3 * l) = bits (s.clerkWord n) 0 15) := by
  have hb : (s.core n).branch = none := (h.2.2 rfl).1
  have hk : bits (s.clerkWord n) 15 3 < 8 := bits_lt ..
  have ht : bits (s.clerkWord n) 0 15 < 2 ^ 15 := bits_lt ..
  have he : s.clerkDoes n dc .loop =
      { now := [(0x201, l + 1), (0x44 + 3 * l,
          (if (s.clerkWord n).testBit 23 then (s.core n).d (bits (s.clerkWord n) 15 3) else bits (s.clerkWord n) 15 8 + 1) % 65536),
          (0x45 + 3 * l, ((s.core n).pc + 1) % 32768), (0x46 + 3 * l, bits (s.clerkWord n) 0 15)] } := by
    simp [State.clerkDoes, clerkEff, effLoop, ← hl, show l ≠ 2 by omega, (s.core n).d_advance dc (show bits (s.clerkWord n) 15 3 < 0x40 by omega)]
  generalize (if (s.clerkWord n).testBit 23 then (s.core n).d (bits (s.clerkWord n) 15 3) else bits (s.clerkWord n) 15 8 + 1) = count at he ⊢
  refine h.completes_core (by rw [he]) (by rw [he]) (by rw [he]) (by rw [he]) fun u hu => ?_
  have hw : moveWidth (0x44 + 3 * l) = 16 ∧ moveWidth (0x45 + 3 * l) = 15 ∧ moveWidth (0x46 + 3 * l) = 15 := by
    obtain rfl | rfl : l = 0 ∨ l = 1 := by omega
    all_goals decide
  have hget (k : Nat) : (((s.core n).advance dc).apply (s.clerkDoes n dc .loop)).get k =
      if k = 0x46 + 3 * l then bits (s.clerkWord n) 0 15 else if k = 0x45 + 3 * l then ((s.core n).pc + 1) % 32768
      else if k = 0x44 + 3 * l then count % 65536 else if k = 0x40 then putBits (s.core n).sr 5 2 (l + 1)
      else ((s.core n).advance dc).get k := by
    rw [Core.get_apply_of_settled _ hd, he]
    simp only [Core.writeAll_cons, Core.writeAll_nil, Core.write_depth]
    rw [Core.write_control _ _ (by omega) (by omega), Core.write_control _ _ (by omega) (by omega),
      Core.write_control _ _ (by omega) (by omega)]
    simp only [Core.get_put, hw, Core.sr_advance]
    split_ifs <;> omega
  have hsr : (((s.core n).advance dc).apply (s.clerkDoes n dc .loop)).sr = putBits (s.core n).sr 5 2 (l + 1) := by
    rw [Core.sr, hget]
    split_ifs <;> omega
  have hdepth : srLDEPTH (putBits (s.core n).sr 5 2 (l + 1)) = l + 1 := by
    rw [srLDEPTH, bits_putBits]
    omega
  have hg : u.core n = { ((s.core n).advance dc).apply (s.clerkDoes n dc .loop) with pc := ((s.core n).pc + 1) % 32768 } := by
    rw [hu, Core.goNext_of_next (by simp [hb]) (by rw [he]) (.inr ?_)]
    · simp
    · rw [hsr, hdepth, hget, if_pos (by omega)]
      simpa using Ne.symm hpc
  have hgk (k : Nat) : (u.core n).get k = (((s.core n).advance dc).apply (s.clerkDoes n dc .loop)).get k := by rw [hg]; rfl
  refine ⟨by rw [hg], ?_, ?_, ?_, ?_⟩
  · rw [Core.sr, hgk, ← Core.sr, hsr, hdepth]
  · rw [hgk, hget, if_neg (by omega), if_neg (by omega), if_pos rfl]
  · rw [hgk, hget, if_neg (by omega), if_pos rfl]
  · rw [hgk, hget, if_pos rfl]

/-- Settles O59: a D count of 0 stands for 65,536. -/
theorem loopInstruction : Obligations.loop_instruction := by
  refine ⟨fun n dc s l count h hd hl h2 hpc hcount hlt _ => ?_, clerkFaults.2.2.1⟩
  obtain ⟨u, hu, -, hdepth, hlc, hls, hle⟩ := h.loop_completes hd hl h2 hpc
  have hb : bits (s.clerkWord n) 15 8 < 2 ^ 8 := bits_lt ..
  refine ⟨u, hu, hdepth, ?_, hls, hle⟩
  rw [hlc, hcount]
  split_ifs <;> omega

/-- A control instruction that branches leaves the PC at its first delay slot. -/
theorem ClerkReady.branches {s : State} {n dc t : Nat} {op : ClerkOp} {rti : Bool} (h : ClerkReady s n dc op) (hc : op.control = true)
    (hf : (s.clerkDoes n dc op).fault = 0) (hs : (s.clerkDoes n dc op).stall = false) (hw : (s.clerkDoes n dc op).wait = false)
    (hh : (s.clerkDoes n dc op).halt = false) (hbr : (s.clerkDoes n dc op).branch = some (t, rti)) :
    Completes (clerkCommand op n dc) s (fun u => (u.core n).pc = ((s.core n).pc + 1) % 32768 ∧ (u.core n).branch = some (t, 2, rti) ∧
      ∀ k, (u.core n).get k = (((s.core n).advance dc).apply (s.clerkDoes n dc op)).get k) := by
  refine h.completes_core hf hs hw hh fun u hu => ?_
  rw [hu, Core.goNext_of_branches (by simp [(h.2.2 hc).1]) hbr]
  exact ⟨by simp, rfl, fun _ => rfl⟩

theorem Completes.mono {c : Instr} {s : State} {P Q : State → Prop} (h : Completes c s P) (hPQ : ∀ u, P u → Q u) : Completes c s Q := by
  obtain ⟨u, hu, hP⟩ := h
  exact ⟨u, hu, hPQ u hP⟩

/-- Settles O17: what a ready instruction does, then the PC of NOP and of each control instruction. -/
theorem clerkInstructionsComplete : Obligations.clerk_instructions_complete := by
  refine ⟨fun op n dc s h hf hs hw hh => h.completes hf hs hw hh, fun n dc s h hb hl hd => ?_, fun n dc k a r s h hb hk => ?_,
    fun n dc a s h hb => ?_, fun n dc a s h hb hd => ?_, fun n dc s h => ?_, fun n dc s h hc => ?_, fun n dc s h hc => ?_,
    fun n dc s h => ?_, fun n dc s h => ?_, fun n dc s h => ?_, fun n dc l s h hw hl h2 hd hpc => ?_⟩
  · refine h.completes_core rfl rfl rfl rfl fun u hu => ?_
    have hget (k : Nat) : (((s.core n).advance dc).apply (s.clerkDoes n dc .nop)).get k = ((s.core n).advance dc).get k :=
      Core.get_apply_of_settled _ hd dc k
    rw [hu, Core.goNext_of_next (by simp [hb]) rfl (.inl (by rw [Core.sr, hget, ← Core.sr, Core.sr_advance, hl]))]
    exact ⟨by simp, fun k h0 h1 h2 => (hget k).trans (Core.get_advance _ _ h0 h1 h2)⟩
  · refine h.completes_core rfl rfl rfl rfl fun u hu => ?_
    rw [hu, Core.goNext_of_branch (t := a) (k := k) (rti := r) _ (by simp [hb]) hk]
    simp
  · refine h.completes_core rfl rfl rfl rfl fun u hu => ?_
    rw [hu, Core.goNext_of_taken (t := a) (rti := false) _ (by simp [hb])]
    simp
  · refine h.completes_core rfl rfl rfl rfl fun u hu => ?_
    rw [hu, Core.goNext_of_taken (t := a) (rti := true) _ (by simp [hb])]
    refine ⟨rfl, rfl, (Core.get_put_same ..).trans ?_⟩
    rw [Core.get_apply_of_settled _ hd]
    exact congrArg (· % 2 ^ 13) (Core.get_advance _ _ (by decide) (by decide) (by decide))
  · exact (h.branches rfl rfl rfl rfl rfl rfl).mono fun u hu => ⟨hu.1, hu.2.1⟩
  · have hbr : (s.clerkDoes n dc .brcc).branch = some (bits (s.clerkWord n) 0 15, false) := by
      simp [State.clerkDoes, clerkEff, effBrcc, hc]
    exact (h.branches rfl rfl rfl rfl rfl hbr).mono fun u hu => ⟨hu.1, hu.2.1⟩
  · have hbr : (s.clerkDoes n dc .brcc).branch = some (((s.core n).pc + 3) % 32768, false) := by
      simp [State.clerkDoes, clerkEff, effBrcc, hc]
    exact (h.branches rfl rfl rfl rfl rfl hbr).mono fun u hu => ⟨hu.1, hu.2.1⟩
  · refine (h.branches rfl rfl rfl rfl rfl rfl).mono fun u hu => ⟨hu.1, ?_, hu.2.1⟩
    rw [hu.2.2, Core.get_apply]
    show (Core.write _ 0x41 ((((s.core n).advance dc).pc + 3) % 32768)).get 0x41 = _
    rw [Core.write_control _ _ (by decide) (by decide), Core.get_put_same]
    simp [moveWidth]
  · have hbr : (s.clerkDoes n dc .ret).branch = some ((s.core n).get 0x41, false) := by
      simp [State.clerkDoes, clerkEff, effRet, Core.get_advance]
    exact (h.branches rfl rfl rfl rfl rfl hbr).mono fun u hu => ⟨hu.1, hu.2.1⟩
  · have hbr : (s.clerkDoes n dc .rti).branch = some ((s.core n).get 0x42, true) := by
      simp [State.clerkDoes, clerkEff, effRti, Core.get_advance]
    exact (h.branches rfl rfl rfl rfl rfl hbr).mono fun u hu => ⟨hu.1, hu.2.1⟩
  · have hb : bits (s.clerkWord n) 15 8 < 2 ^ 8 := bits_lt ..
    obtain ⟨u, hu, hpc', hdepth, hlc, hls, hle⟩ := h.loop_completes hd hl h2 hpc
    refine ⟨u, hu, hpc', hdepth, ?_, hls, hle⟩
    rw [hlc, hw]
    simp only [Bool.false_eq_true, if_false]
    omega

/-! ## Accumulators and D registers -/

/-- The writes of D, P, SR's flags and LDEPTH: one register below 0x10, or SR. -/
def plainWrite (p : Nat × Nat) : Prop := p.1 < 0x10 ∨ 0x200 ≤ p.1 ∧ p.1 ≤ 0x202

theorem Core.get_write_of_plain (c : Core) {k v j : Nat} (h : plainWrite (k, v)) (hj : j ≠ k) (h0 : j ≠ 0x40) : (c.write k v).get j = c.get j := by
  rcases h with h | ⟨h, h'⟩
  · rw [c.write_low v h, Core.get_put, if_neg hj]
  · simp only at h h'
    obtain rfl | rfl | rfl : k = 0x200 ∨ k = 0x201 ∨ k = 0x202 := by omega
    · rw [Core.write_zn, Core.get_put, if_neg h0]
    · rw [Core.write_depth, Core.get_put, if_neg h0]
    · rw [Core.write_sticky, Core.get_put, if_neg h0]

theorem Core.get_writeAll_of_plain (c : Core) {l : List (Nat × Nat)} {j : Nat} (h : ∀ p ∈ l, plainWrite p ∧ j ≠ p.1) (h0 : j ≠ 0x40) :
    (c.writeAll l).get j = c.get j := by
  induction l generalizing c with
  | nil => rfl
  | cons p l ih =>
    obtain ⟨hp, hj⟩ := h p (List.mem_cons_self ..)
    rw [Core.writeAll_cons, ih _ (fun q hq => h q (List.mem_cons_of_mem _ hq)), c.get_write_of_plain hp hj h0]

theorem Core.acc_writeAll_of_plain (c : Core) {l : List (Nat × Nat)} (h : ∀ p ∈ l, plainWrite p) {a : Nat} (ha : a < 4) :
    (c.writeAll l).acc a = c.acc a :=
  c.get_writeAll_of_plain (fun p hp => ⟨h p hp, by rcases h p hp with h | h <;> omega⟩) (by omega)

/-- What an effect with an accumulator write does: its own writes are plain, and its delayed writes are the accumulator's, and plain
ones after it. -/
def Eff.WritesAcc (e : Eff) (a v : Nat) : Prop :=
  e.fault = 0 ∧ e.stall = false ∧ e.wait = false ∧ e.halt = false ∧ e.noInt = true ∧ (∀ p ∈ e.now, plainWrite p) ∧
    ∃ l, e.later = (0x100 + a, v) :: l ∧ ∀ p ∈ l, plainWrite p

theorem writesAcc_accWrite (a : Nat) (i : Int) (st : Nat) (f : Bool) : (accWrite a i st f).WritesAcc a (ofSigned 40 i) := by
  refine ⟨rfl, rfl, rfl, rfl, rfl, ?_, [(0x200, znBits (ofSigned 40 i))], rfl, ?_⟩
  · simp [accWrite, accResult, plainWrite]
  · simp [plainWrite]

theorem Core.plainWrite_dualAddr (c : Core) {k : Nat} (mod mreg : Nat) (h : k < 8) : ∀ p ∈ (c.dualAddr k mod mreg).2, plainWrite p := by
  have hp : plainWrite (8 + k, 0) := .inl (by simp only; omega)
  unfold Core.dualAddr
  dsimp only
  split <;> simp [plainWrite] <;> omega

/-- A load into a D register adds plain writes to an effect. -/
theorem Eff.WritesAcc.load {e : Eff} {a v d x : Nat} {u : List (Nat × Nat)} {r : List Nat} (h : e.WritesAcc a v) (hu : ∀ p ∈ u, plainWrite p)
    (hd : d < 0x10) : Eff.WritesAcc { e with now := e.now ++ u, later := e.later ++ [(d, x)], noInt := true, reads := r } a v := by
  obtain ⟨hf, hs, hw, hh, -, hn, l, hl, hp⟩ := h
  refine ⟨hf, hs, hw, hh, rfl, fun p hp => ?_, l ++ [(d, x)], by simp [hl], fun p hpl => ?_⟩
  · rcases List.mem_append.1 hp with hp | hp
    · exact hn p hp
    · exact hu p hp
  · rcases List.mem_append.1 hpl with hpl | hpl
    · exact hp p hpl
    · obtain rfl := List.mem_singleton.1 hpl
      exact .inl hd

theorem Core.writesAcc_dualLoads (c : Core) (w : Nat) {e : Eff} {a v : Nat} (h : e.WritesAcc a v) : (c.dualLoads w e).WritesAcc a v := by
  have hx := c.plainWrite_dualAddr (k := bits w 12 2) (bits w 10 2) (bits w 1 1) (by have := bits_lt w 12 2; omega)
  have hy := c.plainWrite_dualAddr (k := 4 + bits w 4 2) (bits w 2 2) (2 + bits w 1 1) (by have := bits_lt w 4 2; omega)
  have h1 : bits w 14 3 < 0x10 := by have := bits_lt w 14 3; omega
  have h2 : bits w 6 3 < 0x10 := by have := bits_lt w 6 3; omega
  unfold Core.dualLoads
  dsimp only
  split
  case isTrue =>
    split
    case isTrue => exact (h.load hx h1).load hy h2
    case isFalse => exact h.load hy h2
  case isFalse =>
    split
    case isTrue => exact h.load hx h1
    case isFalse => exact h

theorem Core.writesAcc_multiply (c : Core) (w : Nat) (f : Int → Int → Int) : (c.multiply w f).WritesAcc (bits w 24 2)
    (ofSigned 40 (f (acc40 (c.accFwd (bits w 24 2))) (product c.sr (c.d (bits w 21 3)) (c.d (bits w 18 3))).1)) :=
  c.writesAcc_dualLoads w (writesAcc_accWrite ..)

theorem Core.writesAcc_accOp (c : Core) (w : Nat) (f : Int → Int → Int) : (c.accOp w f).WritesAcc (bits w 22 2)
    (ofSigned 40 (f (acc40 (c.acc (bits w 22 2))) (acc40 (c.acc (bits w 20 2))))) :=
  writesAcc_accWrite ..

theorem writesAcc_effDivs (c : Core) (w : Nat) :
    (effDivs c w).WritesAcc (bits w 22 2) (divStep (c.accFwd (bits w 22 2)) (c.d (bits w 19 3))) :=
  ⟨rfl, rfl, rfl, rfl, rfl, by simp [effDivs], _, rfl, by simp [plainWrite]⟩

/-- An accumulator result, as the second instruction after sees it. -/
theorem ClerkReady.settled_acc {s : State} {n dc a v : Nat} {op : ClerkOp} (h : ClerkReady s n dc op)
    (he : (s.clerkDoes n dc op).WritesAcc a v) (ha : a < 4) :
    Completes (clerkCommand op n dc) s (fun u => (u.core n).settled.acc a = v % 2 ^ 40) := by
  obtain ⟨hf, hs, hw, hh, -, -, l, hl, hp⟩ := he
  refine h.completes_core hf hs hw hh fun u hu => ?_
  have hdel : (u.core n).delayed = (0x100 + a, v) :: l := by rw [hu]; simp [hl]
  rw [Core.settled, hdel, Core.writeAll_cons, Core.acc_writeAll_of_plain _ hp ha, Core.acc]
  exact (congrArg (Core.get · (0x100 + a)) (Core.write_acc _ _ ha)).trans (Core.get_put_same ..)

/-- Each operation that writes an accumulator writes one of the four. -/
theorem writesAcc_clerkEff {op : ClerkOp} (h : op ∈ [ClerkOp.mpy, .mac, .msu, .add, .sub, .neg, .abs, .clr, .asl, .asr, .addd, .divs])
    (c : Core) (w : Nat) : ∃ a v, (clerkEff op c w).WritesAcc a v := by
  have hmul (f : Int → Int → Int) : ∃ a v, (c.multiply w f).WritesAcc a v := ⟨_, _, c.writesAcc_multiply w f⟩
  have hacc (f : Int → Int → Int) : ∃ a v, (c.accOp w f).WritesAcc a v := ⟨_, _, c.writesAcc_accOp w f⟩
  have hdiv : ∃ a v, (effDivs c w).WritesAcc a v := ⟨_, _, writesAcc_effDivs c w⟩
  simp only [List.mem_cons, List.not_mem_nil, or_false] at h
  obtain rfl | rfl | rfl | rfl | rfl | rfl | rfl | rfl | rfl | rfl | rfl | rfl := h
  all_goals
    simp only [clerkEff, effMpy, effMac, effMsu, effAdd, effSub, effNeg, effAbs, effClr, effAsl, effAsr, effAddd, hmul, hacc, hdiv]

/-- Settles O21: an accumulator write is among the delayed writes. -/
theorem clerkAccumulatorDelay : Obligations.clerk_accumulator_delay := by
  intro op n dc s k hop h hd hk
  obtain ⟨a, v, hf, hs, hw, hh, hi, hn, -⟩ := writesAcc_clerkEff hop ((s.core n).advance dc) (s.clerkWord n)
  refine h.completes_core hf hs hw hh fun u hu => ?_
  rw [hu]
  refine ⟨?_, by simpa [State.clerkDoes] using hi⟩
  rw [Core.acc, Core.get_goNext _ _ (by omega) (by omega) (by omega), Core.get_apply_of_settled _ hd]
  exact (Core.acc_writeAll_of_plain _ hn hk).trans (Core.acc_advance _ _ hk)

theorem ofSigned_lt (w : Nat) (i : Int) : ofSigned w i < 2 ^ w := by
  have h : (0 : Int) < ((2 ^ w : Nat) : Int) := by exact_mod_cast Nat.two_pow_pos w
  have h0 := Int.emod_nonneg i h.ne'
  have h1 := Int.emod_lt_of_pos i h
  unfold ofSigned
  omega

/-- A multiplication without FRAC, as the second instruction after sees it. -/
theorem ClerkReady.settled_multiply {s : State} {n dc : Nat} {op : ClerkOp} (f : Int → Int → Int) (h : ClerkReady s n dc op)
    (hop : clerkEff op = fun c w => c.multiply w f) (hfrac : (s.core n).sr.testBit srFRAC = false) :
    Completes (clerkCommand op n dc) s (fun u => (u.core n).settled.acc (bits (s.clerkWord n) 24 2) =
      ofSigned 40 (f (acc40 ((s.core n).accFwd (bits (s.clerkWord n) 24 2)))
        (toSigned 16 ((s.core n).d (bits (s.clerkWord n) 21 3)) * toSigned 16 ((s.core n).d (bits (s.clerkWord n) 18 3))))) := by
  have h1 : bits (s.clerkWord n) 21 3 < 0x40 := by have := bits_lt (s.clerkWord n) 21 3; omega
  have h2 : bits (s.clerkWord n) 18 3 < 0x40 := by have := bits_lt (s.clerkWord n) 18 3; omega
  have he := ((s.core n).advance dc).writesAcc_multiply (s.clerkWord n) f
  rw [Core.accFwd_advance _ _ (bits_lt ..), Core.d_advance _ _ h1, Core.d_advance _ _ h2, Core.sr_advance, product] at he
  simp only [hfrac, Bool.false_eq_true, if_false] at he
  refine (h.settled_acc (by rw [State.clerkDoes, hop]; exact he) (bits_lt ..)).mono fun u hu => hu.trans ?_
  exact Nat.mod_eq_of_lt (ofSigned_lt ..)

/-- A class 0x2 operation, as the second instruction after sees it. -/
theorem ClerkReady.settled_accOp {s : State} {n dc : Nat} {op : ClerkOp} (f : Int → Int → Int) (h : ClerkReady s n dc op)
    (hop : s.clerkDoes n dc op = ((s.core n).advance dc).accOp (s.clerkWord n) f) :
    Completes (clerkCommand op n dc) s (fun u => (u.core n).settled.acc (bits (s.clerkWord n) 22 2) =
      ofSigned 40 (f (acc40 ((s.core n).acc (bits (s.clerkWord n) 22 2))) (acc40 ((s.core n).acc (bits (s.clerkWord n) 20 2))))) := by
  have he := ((s.core n).advance dc).writesAcc_accOp (s.clerkWord n) f
  rw [Core.acc_advance _ _ (bits_lt ..), Core.acc_advance _ _ (bits_lt ..)] at he
  refine (h.settled_acc (by rw [hop]; exact he) (bits_lt ..)).mono fun u hu => hu.trans ?_
  exact Nat.mod_eq_of_lt (ofSigned_lt ..)

/-- The move to the next instruction leaves SR's flags, where no branch is on its way. -/
theorem Core.testBit_sr_goNext {c : Core} {e : Eff} (h : c.branch = none) {i : Nat} (hi : 7 ≤ i) : (c.goNext e).sr.testBit i = c.sr.testBit i := by
  have hl : min 2 (bits c.sr 5 2) ≤ 2 := Nat.min_le_left ..
  unfold Core.goNext srLDEPTH
  simp only [h]
  split
  · rfl
  · split
    · rfl
    · split
      · rw [Core.write_depth, Core.sr, Core.get_put_same, testBit_putBits, if_neg (by omega), if_neg (by omega)]
        rfl
      · rw [Core.sr, Core.get_put, if_neg (by omega)]
        rfl

/-- CMP's flags are those of the difference. -/
theorem testBit_srWithZN (sr v : Nat) :
    (srWithZN sr (znBits v)).testBit srZ = decide (v % 2 ^ 40 = 0) ∧ (srWithZN sr (znBits v)).testBit srN = v.testBit 39 := by
  unfold srWithZN znBits srZ srN
  rw [testBit_putBits, testBit_putBits]
  split_ifs with h1 h2 <;> simp_all [Nat.testBit_eq_decide_div_mod_eq]

theorem ClerkReady.cmp_completes {s : State} {n dc : Nat} (h : ClerkReady s n dc .cmp) (hb : (s.core n).branch = none) :
    Completes (.cmp n dc) s (fun u =>
      (u.core n).sr.testBit srZ = decide (ofSigned 40 (acc40 ((s.core n).acc (bits (s.clerkWord n) 22 2)) -
        acc40 ((s.core n).acc (bits (s.clerkWord n) 20 2))) = 0) ∧
      (u.core n).sr.testBit srN =
        (ofSigned 40 (acc40 ((s.core n).acc (bits (s.clerkWord n) 22 2)) - acc40 ((s.core n).acc (bits (s.clerkWord n) 20 2)))).testBit 39 ∧
      ((s.core n).delayed = [] → ∀ k, k < 4 → (u.core n).acc k = (s.core n).acc k)) := by
  refine h.completes_core rfl rfl rfl rfl fun u hu => ?_
  have hacc (lo : Nat) : ((s.core n).advance dc).acc (bits (s.clerkWord n) lo 2) = (s.core n).acc (bits (s.clerkWord n) lo 2) :=
    Core.acc_advance _ _ (bits_lt ..)
  obtain ⟨ov, he⟩ : ∃ ov : Bool, (s.clerkDoes n dc .cmp).now =
      [(0x200, znBits (ofSigned 40 (acc40 ((s.core n).acc (bits (s.clerkWord n) 22 2)) - acc40 ((s.core n).acc (bits (s.clerkWord n) 20 2))))),
        (0x202, if ov then 2 ^ srAOV else 0)] := by
    rw [← hacc, ← hacc]
    exact ⟨_, rfl⟩
  have hlt := ofSigned_lt 40 (acc40 ((s.core n).acc (bits (s.clerkWord n) 22 2)) - acc40 ((s.core n).acc (bits (s.clerkWord n) 20 2)))
  generalize hv : ofSigned 40 (acc40 ((s.core n).acc (bits (s.clerkWord n) 22 2)) - acc40 ((s.core n).acc (bits (s.clerkWord n) 20 2))) = v at *
  have hsr (i : Nat) (hi : 11 ≤ i) : (u.core n).sr.testBit i =
      (srWithZN (((s.core n).advance dc).writeAll ((s.core n).advance dc).delayed).sr (znBits v)).testBit i := by
    rw [hu, Core.testBit_sr_goNext (by simp [hb]) (by omega), Core.sr, Core.get_apply, he]
    simp only [Core.writeAll_cons, Core.writeAll_nil, Core.write_sticky, Core.write_zn, Core.get_put_same, Core.sr, srSticky]
    rw [Nat.testBit_or]
    split
    · rw [Nat.testBit_two_pow_of_ne (by unfold srAOV; omega), Bool.or_false]
    · simp
  obtain ⟨hz, hn⟩ := testBit_srWithZN (((s.core n).advance dc).writeAll ((s.core n).advance dc).delayed).sr v
  refine ⟨?_, ?_, fun hd k hk => ?_⟩
  · rw [hsr _ (by decide), hz, Nat.mod_eq_of_lt hlt]
  · rw [hsr _ (by decide), hn]
  · rw [hu, Core.acc, Core.get_goNext _ _ (by omega) (by omega) (by omega), Core.get_apply_of_settled _ hd]
    refine (Core.acc_writeAll_of_plain _ ?_ hk).trans (Core.acc_advance _ _ hk)
    rw [he]
    simp [plainWrite]

/-- Settles O20, each operation by the accumulator write it makes. -/
theorem clerkAccumulatorResults : Obligations.clerk_accumulator_results := by
  rintro n dc s a b x y rfl rfl rfl rfl
  refine ⟨fun h hf => h.settled_multiply (fun _ p => p) rfl hf, fun h hf => h.settled_multiply (fun a p => a + p) rfl hf,
    fun h hf => h.settled_multiply (fun a p => a - p) rfl hf, fun h => h.settled_accOp (fun a b => a + b) rfl,
    fun h => h.settled_accOp (fun a b => a - b) rfl, fun h => h.settled_accOp (fun _ b => -b) rfl, fun h => ?_, fun h => ?_,
    fun h => h.settled_accOp (fun _ b => b * 2 ^ bits (s.clerkWord n) 0 6) rfl,
    fun h => h.settled_accOp (fun _ b => b / 2 ^ bits (s.clerkWord n) 0 6) rfl, fun h => ?_, fun h => ?_, fun h hb => h.cmp_completes hb⟩
  · refine (h.settled_accOp (fun _ b => if b < 0 then -b else b) rfl).mono fun u hu => hu.trans (congrArg _ ?_)
    split <;> omega
  · exact h.settled_accOp (fun _ _ => 0) rfl
  · have hk : bits (s.clerkWord n) 17 3 < 0x40 := by have := bits_lt (s.clerkWord n) 17 3; omega
    refine h.settled_accOp (fun a _ => a + toSigned 16 ((s.core n).d (bits (s.clerkWord n) 17 3)) * 65536) ?_
    rw [← Core.d_advance _ dc hk]
    rfl
  · have hk : bits (s.clerkWord n) 19 3 < 0x40 := by have := bits_lt (s.clerkWord n) 19 3; omega
    have he := writesAcc_effDivs ((s.core n).advance dc) (s.clerkWord n)
    rw [Core.accFwd_advance _ _ (bits_lt ..), Core.d_advance _ _ hk] at he
    exact h.settled_acc he (bits_lt ..)

/-! ### D registers, local memory and far stores -/

theorem Store.getD_set_of_rising {α : Type} [DecidableEq α] (d : α) {l : Store α} (k j : Nat) (v : α) (h : Store.rising none l = true) :
    Store.getD (Store.set d l k v) j d = if j = k then v else Store.getD l j d := by
  unfold Store.set
  split
  · rename_i hv
    simp only [Store.getD, Store.get?_del l none k j h, hv]
    split <;> rfl
  · exact Store.getD_put l k j v d

/-- A store to local memory, read back. -/
theorem Core.dm_setDm {c : Core} (hx : Store.rising none c.xm = true) (hy : Store.rising none c.ym = true) (a b v : Nat) :
    (c.setDm a v).dm b = if b % 65536 = a % 65536 then v % 65536 else c.dm b := by
  unfold Core.setDm Core.dm
  dsimp only
  split
  · split
    · rw [Store.getD_set_of_rising 0 _ _ _ hx]
    · rw [if_neg (by omega)]
  · split
    · rw [if_neg (by omega)]
    · have hk : b % 65536 - 32768 = a % 65536 - 32768 ↔ b % 65536 = a % 65536 := by omega
      simp only [Store.getD_set_of_rising 0 _ _ _ hy, hk]

theorem Core.rising_setDm {c : Core} (hx : Store.rising none c.xm = true) (hy : Store.rising none c.ym = true) (a v : Nat) :
    Store.rising none (c.setDm a v).xm = true ∧ Store.rising none (c.setDm a v).ym = true := by
  have hset (l : Store Nat) (h : Store.rising none l = true) (k v : Nat) : Store.rising none (Store.set 0 l k v) = true := by
    unfold Store.set
    split
    · exact Store.rising_del l none k h
    · exact Store.rising_put l none k v h (by simp)
  unfold Core.setDm
  dsimp only
  split
  · exact ⟨hset _ hx .., hy⟩
  · exact ⟨hx, hset _ hy ..⟩

/-- The address of a local access does not move with time. -/
theorem Core.localAddr_advance (c : Core) (dc w : Nat) : ((c.advance dc).localAddr w).1 = (c.localAddr w).1 := by
  have hk : bits w 13 3 < 8 := bits_lt ..
  unfold Core.localAddr
  dsimp only
  rw [c.get_advance dc (by omega) (by omega) (by omega)]
  split <;> rfl

/-- The registers that an instruction's last own write leaves: a D register it writes. -/
theorem ClerkReady.d_written {s : State} {n dc k v : Nat} {op : ClerkOp} {l : List (Nat × Nat)} (h : ClerkReady s n dc op)
    (hf : (s.clerkDoes n dc op).fault = 0) (hs : (s.clerkDoes n dc op).stall = false) (hw : (s.clerkDoes n dc op).wait = false)
    (hh : (s.clerkDoes n dc op).halt = false) (he : (s.clerkDoes n dc op).now = l ++ [(k, v)]) (hk : k < 0x10) :
    Completes (clerkCommand op n dc) s (fun u => (u.core n).d k = v % 65536) := by
  refine h.completes_core hf hs hw hh fun u hu => ?_
  rw [hu, Core.d, Core.get_goNext _ _ (by omega) (by omega) (by omega), Core.get_apply, he, Core.writeAll_append, Core.writeAll_cons,
    Core.writeAll_nil, Core.write_low _ _ hk, Core.get_put_same]

/-- A D register that an instruction's last delayed write loads. -/
theorem ClerkReady.d_loaded {s : State} {n dc k v : Nat} {op : ClerkOp} {l : List (Nat × Nat)} (h : ClerkReady s n dc op)
    (hf : (s.clerkDoes n dc op).fault = 0) (hs : (s.clerkDoes n dc op).stall = false) (hw : (s.clerkDoes n dc op).wait = false)
    (hh : (s.clerkDoes n dc op).halt = false) (he : (s.clerkDoes n dc op).later = l ++ [(k, v)]) (hk : k < 0x10) :
    Completes (clerkCommand op n dc) s (fun u => (u.core n).settled.d k = v % 65536) := by
  refine h.completes_core hf hs hw hh fun u hu => ?_
  rw [Core.settled, show (u.core n).delayed = l ++ [(k, v)] by rw [hu]; simp [he], Core.writeAll_append, Core.writeAll_cons,
    Core.writeAll_nil, Core.write_low _ _ hk, Core.d, Core.get_put_same]

/-- AND to SUB16: D := D op D. -/
theorem ClerkReady.dOp_completes {s : State} {n dc : Nat} {op : ClerkOp} (f : Nat → Nat → Nat) (h : ClerkReady s n dc op)
    (hop : clerkEff op = fun c w => c.dOp w f) :
    Completes (clerkCommand op n dc) s (fun u => (u.core n).d (bits (s.clerkWord n) 19 3) =
      f ((s.core n).d (bits (s.clerkWord n) 19 3)) ((s.core n).d (bits (s.clerkWord n) 16 3)) % 65536) := by
  have h1 : bits (s.clerkWord n) 19 3 < 8 := bits_lt ..
  have h2 : bits (s.clerkWord n) 16 3 < 8 := bits_lt ..
  have he : s.clerkDoes n dc op = { now := [] ++ [(bits (s.clerkWord n) 19 3,
      f ((s.core n).d (bits (s.clerkWord n) 19 3)) ((s.core n).d (bits (s.clerkWord n) 16 3)) % 65536)] } := by
    rw [State.clerkDoes, hop]
    simp only [Core.dOp, List.nil_append]
    rw [Core.d_advance _ _ (by omega), Core.d_advance _ _ (by omega)]
  refine (h.d_written (by rw [he]) (by rw [he]) (by rw [he]) (by rw [he]) (by rw [he]) (by omega)).mono fun u hu => hu.trans ?_
  exact Nat.mod_mod ..

/-- The source of a move from a D register. -/
theorem Core.source_of_d (c : Core) {k : Nat} (h : k < 8) : c.source k = ⟨c.get k, 0, false, []⟩ := by
  unfold Core.source
  simp (disch := omega) only [if_neg]

/-- The source of a move from an accumulator, high or rounded. -/
theorem Core.source_of_acc (c : Core) {k : Nat} (h : 0x10 ≤ k) (h2 : k ≤ 0x17) :
    c.source k = ⟨(accRead c.sr (decide (0x14 ≤ k)) (c.acc (k % 4))).1, (accRead c.sr (decide (0x14 ≤ k)) (c.acc (k % 4))).2, false, []⟩ := by
  unfold Core.source
  rw [if_pos ⟨h, h2⟩]

theorem moveCode_of_le {k : Nat} (h : k ≤ 0x23) : moveCode k = true := by simp [moveCode, h]

/-- What a MOV between these codes does. -/
theorem State.clerkDoes_mov {s : State} {n dc : Nat} (hd : bits (s.clerkWord n) 16 8 ≤ 0x23) (hs : bits (s.clerkWord n) 8 8 ≤ 0x23) :
    s.clerkDoes n dc .mov = moveWrite (bits (s.clerkWord n) 16 8) (((s.core n).advance dc).source (bits (s.clerkWord n) 8 8)).value
      { now := (((s.core n).advance dc).source (bits (s.clerkWord n) 8 8)).now ++ [(0x202, (((s.core n).advance dc).source (bits (s.clerkWord n) 8 8)).sticky)],
        pop := (((s.core n).advance dc).source (bits (s.clerkWord n) 8 8)).pop } := by
  simp [State.clerkDoes, clerkEff, effMov, moveCode_of_le hd, moveCode_of_le hs]

theorem moveWrite_of_d {dst v : Nat} (e : Eff) (h : dst < 8) : moveWrite dst v e = { e with now := e.now ++ [(dst, v)] } := if_pos h

theorem ClerkReady.mov_completes {s : State} {n dc v : Nat} {st : Nat} (h : ClerkReady s n dc .mov) (hd : bits (s.clerkWord n) 16 8 < 8)
    (hs : bits (s.clerkWord n) 8 8 ≤ 0x23) (hsrc : ((s.core n).advance dc).source (bits (s.clerkWord n) 8 8) = ⟨v, st, false, []⟩) :
    Completes (.mov n dc) s (fun u => (u.core n).d (bits (s.clerkWord n) 16 8) = v % 65536) := by
  have he : s.clerkDoes n dc .mov = { now := [(0x202, st)] ++ [(bits (s.clerkWord n) 16 8, v)] } := by
    rw [State.clerkDoes_mov (by omega) hs, hsrc, moveWrite_of_d _ hd, List.nil_append]
  exact h.d_written (by rw [he]) (by rw [he]) (by rw [he]) (by rw [he]) (by rw [he]) (by omega)

/-- A move into an accumulator's high word sign-extends it and clears the low word (R270). -/
theorem ClerkReady.mov_acc_completes {s : State} {n dc : Nat} (h : ClerkReady s n dc .mov) (hd : 0x10 ≤ bits (s.clerkWord n) 16 8)
    (hd' : bits (s.clerkWord n) 16 8 ≤ 0x17) (hs : bits (s.clerkWord n) 8 8 < 8) :
    Completes (.mov n dc) s (fun u => (u.core n).acc (bits (s.clerkWord n) 16 8 % 4) =
      ofSigned 40 (toSigned 16 ((s.core n).d (bits (s.clerkWord n) 8 8)) * 65536)) := by
  have he : s.clerkDoes n dc .mov =
      { now := [(0x202, 0)] ++ [(bits (s.clerkWord n) 16 8, (s.core n).d (bits (s.clerkWord n) 8 8))], noInt := true } := by
    rw [State.clerkDoes_mov (by omega) (by omega), Core.source_of_d _ hs, moveWrite, if_neg (by omega), if_pos (by omega)]
    rw [← Core.d, Core.d_advance _ _ (by omega), List.nil_append]
  refine h.completes_core (by rw [he]) (by rw [he]) (by rw [he]) (by rw [he]) fun u hu => ?_
  rw [hu, Core.acc, Core.get_goNext _ _ (by omega) (by omega) (by omega), Core.get_apply, he, Core.writeAll_append, Core.writeAll_cons,
    Core.writeAll_nil]
  show (Core.write _ (bits (s.clerkWord n) 16 8) ((s.core n).d (bits (s.clerkWord n) 8 8))).get _ = _
  unfold Core.write
  rw [if_neg (by omega), if_pos hd', Core.get_put, if_neg (by omega), Core.get_put_same]

/-- Local memory after an instruction's stores. -/
theorem ClerkReady.dm_stored {s : State} {n dc : Nat} {op : ClerkOp} (h : ClerkReady s n dc op)
    (hf : (s.clerkDoes n dc op).fault = 0) (hs : (s.clerkDoes n dc op).stall = false) (hw : (s.clerkDoes n dc op).wait = false)
    (hh : (s.clerkDoes n dc op).halt = false) {P : (Nat → Nat) → Prop}
    (hP : ∀ c : Core, c.xm = (s.core n).xm → c.ym = (s.core n).ym →
      P ((s.clerkDoes n dc op).stores.foldl (fun c p => c.setDm p.1 p.2) c).dm) :
    Completes (clerkCommand op n dc) s (fun u => P (u.core n).dm) := by
  refine h.completes_core hf hs hw hh fun u hu => ?_
  have hm : (u.core n).dm = (((s.core n).advance dc).apply (s.clerkDoes n dc op)).dm := by
    funext a
    rw [hu]
    unfold Core.dm
    simp only [Core.goNext_rest]
  rw [hm, funext (Core.dm_apply _ _)]
  exact hP _ (by simp) (by simp)

theorem ClerkReady.st_completes {s : State} {n dc : Nat} (h : ClerkReady s n dc .st) (hx : Store.rising none (s.core n).xm = true)
    (hy : Store.rising none (s.core n).ym = true) : Completes (.st n dc) s (fun u =>
      (u.core n).dm ((s.core n).localAddr (s.clerkWord n)).1 = (s.core n).d (bits (s.clerkWord n) 21 3) % 65536) := by
  have hk : bits (s.clerkWord n) 21 3 < 0x40 := by have := bits_lt (s.clerkWord n) 21 3; omega
  have he : (s.clerkDoes n dc .st).stores = [(((s.core n).localAddr (s.clerkWord n)).1, (s.core n).d (bits (s.clerkWord n) 21 3))] := by
    rw [← Core.localAddr_advance _ dc, ← Core.d_advance _ dc hk]
    rfl
  refine h.dm_stored rfl rfl rfl rfl (P := fun m => m _ = _) fun c hcx hcy => ?_
  rw [he, List.foldl_cons, List.foldl_nil, Core.dm_setDm (hcx ▸ hx) (hcy ▸ hy), if_pos rfl]

theorem ClerkReady.st2_completes {s : State} {n dc : Nat} (h : ClerkReady s n dc .st2) (hx : Store.rising none (s.core n).xm = true)
    (hy : Store.rising none (s.core n).ym = true) : Completes (.st2 n dc) s (fun u =>
      (u.core n).dm ((s.core n).localAddr (s.clerkWord n)).1 = (s.core n).d (2 * bits (s.clerkWord n) 21 2) % 65536 ∧
      (u.core n).dm ((((s.core n).localAddr (s.clerkWord n)).1 + 1) % 65536) = (s.core n).d (2 * bits (s.clerkWord n) 21 2 + 1) % 65536) := by
  have hk : bits (s.clerkWord n) 21 2 < 4 := bits_lt ..
  have he : (s.clerkDoes n dc .st2).stores = [(((s.core n).localAddr (s.clerkWord n)).1, (s.core n).d (2 * bits (s.clerkWord n) 21 2)),
      ((((s.core n).localAddr (s.clerkWord n)).1 + 1) % 65536, (s.core n).d (2 * bits (s.clerkWord n) 21 2 + 1))] := by
    rw [← Core.localAddr_advance _ dc, ← Core.d_advance _ dc (k := 2 * bits (s.clerkWord n) 21 2) (by omega),
      ← Core.d_advance _ dc (k := 2 * bits (s.clerkWord n) 21 2 + 1) (by omega)]
    rfl
  refine h.dm_stored rfl rfl rfl rfl (P := fun m => m _ = _ ∧ m _ = _) fun c hcx hcy => ?_
  generalize ((s.core n).localAddr (s.clerkWord n)).1 = a at he ⊢
  obtain ⟨hx1, hy1⟩ := Core.rising_setDm (c := c) (hcx ▸ hx) (hcy ▸ hy) a ((s.core n).d (2 * bits (s.clerkWord n) 21 2))
  rw [he, List.foldl_cons, List.foldl_cons, List.foldl_nil]
  refine ⟨?_, ?_⟩
  · rw [Core.dm_setDm hx1 hy1, if_neg (by omega), Core.dm_setDm (hcx ▸ hx) (hcy ▸ hy), if_pos rfl]
  · rw [Core.dm_setDm hx1 hy1, if_pos rfl]

/-- A far store that the queue takes. -/
theorem ClerkReady.far_stored {s : State} {n dc data st : Nat} {op : ClerkOp} (h : ClerkReady s n dc op) (hq : (s.core n).storeQ.length < 16)
    (he : s.clerkDoes n dc op = ((s.core n).advance dc).farStore (s.clerkWord n) data st) :
    Completes (clerkCommand op n dc) s (fun u => (u.core n).storeQ =
      (s.core n).storeQ ++ [(((s.core n).farAddr (s.clerkWord n)).1, data)]) := by
  have hf : s.clerkDoes n dc op =
      { now := (((s.core n).advance dc).farAddr (s.clerkWord n)).2 ++ [(0x202, st)]
        far := some (((s.core n).farAddr (s.clerkWord n)).1, data) } := by
    rw [he, Core.farStore, if_pos (by simpa using hq), ← Core.farAddr_advance _ dc]
  refine h.completes_core (by rw [hf]) (by rw [hf]) (by rw [hf]) (by rw [hf]) fun u hu => ?_
  rw [hu, hf]
  simp

/-- The D registers that a class 0x1 instruction loads, in order. -/
theorem Core.dualLoads_later (c : Core) (w : Nat) (e : Eff) : (c.dualLoads w e).later = e.later ++
    (if w.testBit 17 then [(bits w 14 3, Store.getD c.xm (c.get (8 + bits w 12 2) % 32768) 0)] else []) ++
    (if w.testBit 9 then [(bits w 6 3, Store.getD c.ym (c.get (12 + bits w 4 2) % 32768) 0)] else []) := by
  have hk : 8 + (4 + bits w 4 2) = 12 + bits w 4 2 := by omega
  unfold Core.dualLoads
  split <;> split <;> simp [Core.dualAddr, hk]

theorem Core.dualLoads_goes (c : Core) (w : Nat) (e : Eff) : (c.dualLoads w e).fault = e.fault ∧ (c.dualLoads w e).stall = e.stall ∧
    (c.dualLoads w e).wait = e.wait ∧ (c.dualLoads w e).halt = e.halt := by
  unfold Core.dualLoads
  split <;> split <;> simp

theorem ClerkReady.dual_loaded {s : State} {n dc k v : Nat} (h : ClerkReady s n dc .dual)
    (he : ∃ l, (((s.core n).advance dc).dualLoads (s.clerkWord n) {}).later = l ++ [(k, v)]) (hk : k < 0x10) :
    Completes (.dualFetch n dc) s (fun u => (u.core n).settled.d k = v % 65536) := by
  obtain ⟨hf, hs, hw, hh⟩ := ((s.core n).advance dc).dualLoads_goes (s.clerkWord n) {}
  obtain ⟨l, he⟩ := he
  exact h.d_loaded hf hs hw hh he hk

/-- Settles O22, by the write each instruction makes. -/
theorem clerkDResults : Obligations.clerk_d_results := by
  rintro n dc s k x y rfl rfl rfl hd
  have h21 : bits (s.clerkWord n) 21 3 < 8 := bits_lt ..
  have h21' : bits (s.clerkWord n) 21 2 < 4 := bits_lt ..
  have h19 : bits (s.clerkWord n) 19 2 < 4 := bits_lt ..
  refine ⟨fun h => h.dOp_completes (fun a b => a &&& b) rfl, fun h => h.dOp_completes (fun a b => a ||| b) rfl,
    fun h => h.dOp_completes (fun a b => a ^^^ b) rfl, fun h => h.dOp_completes (fun a b => a + b) rfl, fun h => ?_, fun h hx hy => ?_,
    fun h hy => ?_, fun h h1 h2 => ?_, fun h h1 h2 h3 => ?_, fun h h1 h2 h3 => h.mov_acc_completes h1 h2 h3, fun h h1 => ?_, fun h => ?_, fun h => ?_,
    fun h hx hy => h.st_completes hx hy, fun h hx hy => h.st2_completes hx hy, fun h hq => ?_, fun h hq => ?_⟩
  · refine (h.dOp_completes (fun a b => a + 65536 - b % 65536) rfl).mono fun u hu => ?_
    rw [hu]
    omega
  · have hk : bits (s.clerkWord n) 12 2 < 4 := bits_lt ..
    refine h.dual_loaded ⟨[], ?_⟩ (by have := bits_lt (s.clerkWord n) 14 3; omega)
    rw [Core.dualLoads_later, hx, hy, Core.get_advance _ _ (by omega) (by omega) (by omega)]
    simp
  · have hk : bits (s.clerkWord n) 4 2 < 4 := bits_lt ..
    have he := ((s.core n).advance dc).dualLoads_later (s.clerkWord n) {}
    rw [hy, (s.core n).get_advance dc (k := 12 + bits (s.clerkWord n) 4 2) (by omega) (by omega) (by omega), ((s.core n).advance_rest dc).2.2.2.2.1] at he
    exact h.dual_loaded ⟨_, he⟩ (by have := bits_lt (s.clerkWord n) 6 3; omega)
  · exact h.mov_completes h1 (by omega) (st := 0) (by rw [Core.source_of_d _ h2, ← Core.d, Core.d_advance _ _ (by omega)])
  · exact h.mov_completes h1 (by omega) (by rw [Core.source_of_acc _ h2 h3, Core.sr_advance, Core.acc_advance _ _ (by omega)])
  · have he : s.clerkDoes n dc .ldi = { now := [] ++ [(bits (s.clerkWord n) 16 8, bits (s.clerkWord n) 0 16)] } := by
      simp [State.clerkDoes, clerkEff, effLdi, moveCode_of_le (show bits (s.clerkWord n) 16 8 ≤ 0x23 by omega), moveWrite_of_d _ h1]
    refine (h.d_written (by rw [he]) (by rw [he]) (by rw [he]) (by rw [he]) (by rw [he]) (by omega)).mono fun u hu => hu.trans ?_
    exact Nat.mod_eq_of_lt (bits_lt ..)
  · have he : (s.clerkDoes n dc .ld).later = [] ++ [(bits (s.clerkWord n) 21 3, (s.core n).dm ((s.core n).localAddr (s.clerkWord n)).1)] := by
      rw [← Core.localAddr_advance _ dc, ← Core.dm_advance _ dc]
      rfl
    exact h.d_loaded rfl rfl rfl rfl he (by omega)
  · have he : (s.clerkDoes n dc .ld2).later = [(2 * bits (s.clerkWord n) 21 2, (s.core n).dm ((s.core n).localAddr (s.clerkWord n)).1),
        (2 * bits (s.clerkWord n) 21 2 + 1, (s.core n).dm ((((s.core n).localAddr (s.clerkWord n)).1 + 1) % 65536))] := by
      rw [← Core.localAddr_advance _ dc, ← (s.core n).dm_advance dc (((s.core n).advance dc).localAddr (s.clerkWord n)).1,
        ← (s.core n).dm_advance dc (((((s.core n).advance dc).localAddr (s.clerkWord n)).1 + 1) % 65536)]
      rfl
    refine h.completes_core rfl rfl rfl rfl fun u hu => ?_
    rw [Core.settled, show (u.core n).delayed = _ by rw [hu, (Core.goNext_rest ..).2.2.2.1, (Core.apply_rest ..).2.1, he]]
    simp only [Core.writeAll_cons, Core.writeAll_nil, Core.d]
    rw [Core.write_low _ _ (by omega), Core.write_low _ _ (by omega), Core.get_put, if_neg (by omega), Core.get_put_same, Core.get_put_same]
    exact ⟨rfl, rfl⟩
  · refine h.far_stored hq (st := 0) ?_
    rw [← Core.d_advance _ dc (k := 2 * bits (s.clerkWord n) 19 2) (by omega), ← Core.d_advance _ dc (k := 2 * bits (s.clerkWord n) 19 2 + 1) (by omega)]
    rfl
  · refine h.far_stored hq (st := (accClip32 (s.core n).sr ((s.core n).acc (bits (s.clerkWord n) 19 2))).2) ?_
    rw [← Core.sr_advance _ dc, ← Core.acc_advance _ dc h19]
    rfl

end Sys2Proof.Machine
end

section
/-! SUPPORT. The frame of the clerk instructions, and the edges of the event matrix. -/
namespace Sys2Proof.Machine

/-! ## The frame of a clerk instruction -/

theorem RegsKept.refl (bs : List Nat) (s : State) : RegsKept bs s s := fun _ _ _ => rfl

theorem RegsKept.of_regs {bs : List Nat} {s u : State} (h : u.regs = s.regs) (hp : u.part = s.part) (hs : u.serial = s.serial) :
    RegsKept bs s u := fun r _ _ => by rw [State.reg_def, State.reg_def, h, hp, hs]

theorem State.eventsFrom_trans {s t u : State} (h : t = s.eventsFrom t) (k : u = t.eventsFrom u) : u = s.eventsFrom u :=
  calc u = t.eventsFrom u := k
    _ = (s.eventsFrom t).eventsFrom u := congrArg (·.eventsFrom u) h
    _ = s.eventsFrom u := rfl

/-- u is s but for core n, the registers of CLE and what events deliver. -/
def CoreFrame (n : Nat) (s u : State) : Prop :=
  u = s.eventsFrom u ∧ RegsKept [20] s u ∧ (∀ m, m ≠ n → CoreKept s u m) ∧ u.now = s.now ∧ u.up = s.up ∧ u.free = s.free

theorem CoreFrame.refl (n : Nat) (s : State) : CoreFrame n s s := ⟨rfl, RegsKept.refl _ _, fun _ _ => CoreKept.refl _ _, rfl, rfl, rfl⟩

theorem CoreFrame.trans {n : Nat} {s t u : State} (h : CoreFrame n s t) (k : CoreFrame n t u) : CoreFrame n s u := by
  obtain ⟨he, hr, hc, hn, hu, hf⟩ := h
  obtain ⟨ke, kr, kc, kn, ku, kf⟩ := k
  exact ⟨State.eventsFrom_trans he ke, hr.trans kr, fun m hm => (hc m hm).trans (kc m hm), kn.trans hn, ku.trans hu, kf.trans hf⟩

theorem coreFrame_setCore (n : Nat) (s : State) (c : Core) : CoreFrame n s (s.setCore n c) := by
  refine ⟨rfl, RegsKept.of_regs rfl rfl rfl, fun m hm => ?_, rfl, rfl, rfl⟩
  unfold CoreKept
  rw [s.core_setCore_ne c hm]
  exact CoreKept.refl s m

theorem coreFrame_setRegN (n : Nat) (s : State) {r : Reg} (v : Nat) (h : r / 65536 = 20) : CoreFrame n s (s.setRegN r v) :=
  ⟨rfl, regsKept_setRegN s v (by simp [h]), fun _ _ => CoreKept.of_cores rfl _, rfl, rfl, rfl⟩

theorem coreFrame_raise (n : Nat) (s : State) (f : Fld) (h : f.reg / 65536 = 20) : CoreFrame n s (s.raise f) :=
  ⟨rfl, regsKept_raise s (by rw [h]; decide) (by simp [h]), fun m _ => s.coreKept_raise f m, rfl, rfl, rfl⟩

theorem coreFrame_stopCore {n : Nat} (hn : n < 16) (s : State) (code : Nat) : CoreFrame n s (s.stopCore n code) := by
  have hfpc : CLE.CORE_FPC n / 65536 = 20 := by
    show (0x140108 + 0x20 * n) / 65536 = 20
    omega
  unfold State.stopCore
  dsimp only
  split
  · split
    · exact (coreFrame_setCore ..).trans (coreFrame_raise n _ _ (by decide))
    · exact ((coreFrame_setCore ..).trans (coreFrame_setRegN n _ _ hfpc)).trans (coreFrame_raise n _ _ (by decide))
  · exact coreFrame_setCore ..

theorem coreFrame_eccCorrected (n : Nat) (s : State) (keys : List Nat) : CoreFrame n s (s.eccCorrected n keys) := by
  unfold State.eccCorrected
  dsimp only
  split
  · exact .refl ..
  · exact ((coreFrame_setCore ..).trans (coreFrame_setRegN n _ _ (by decide))).trans (coreFrame_raise n _ _ (by decide))

theorem coreFrame_tryHalt {n : Nat} (hn : n < 16) (s : State) : CoreFrame n s (s.tryHalt n) := by
  unfold State.tryHalt
  dsimp only
  split
  · exact coreFrame_stopCore hn ..
  · exact .refl ..

theorem coreFrame_clerkApply {n : Nat} (hn : n < 16) (s : State) (e : Eff) : CoreFrame n s (s.clerkApply n e) := by
  have hecc := coreFrame_eccCorrected n s (e.reads.map (fun a => 32768 + a))
  unfold State.clerkApply
  dsimp only
  split
  · exact hecc.trans (coreFrame_stopCore hn ..)
  · split
    · exact hecc.trans (coreFrame_stopCore hn ..)
    · split
      · exact hecc.trans (coreFrame_setCore ..)
      · split
        · exact hecc.trans ((coreFrame_setCore ..).trans (coreFrame_stopCore hn ..))
        · split
          · exact hecc.trans ((coreFrame_setCore ..).trans (coreFrame_tryHalt hn _))
          · exact hecc.trans ((coreFrame_setCore ..).trans (coreFrame_tryHalt hn _))

theorem coreFrame_clerkStep {n : Nat} (hn : n < 16) (s : State) (dc : Nat) (want : ClerkOp → Nat → Bool) : CoreFrame n s (s.clerkStep n dc want) := by
  unfold State.clerkStep
  extract_lets t c w
  have ht : CoreFrame n s t := by
    unfold t
    split
    · exact coreFrame_setCore ..
    · exact .refl ..
  clear_value t
  split
  · split
    · exact ht.trans (coreFrame_stopCore hn ..)
    · have hecc := ht.trans (coreFrame_eccCorrected n t [c.pc])
      split
      · exact hecc.trans (coreFrame_stopCore hn ..)
      · split
        · split
          · exact hecc.trans (coreFrame_stopCore hn ..)
          · split
            · exact hecc.trans (coreFrame_stopCore hn ..)
            · exact hecc.trans (coreFrame_clerkApply hn ..)
        · exact ht
  · exact ht

/-- Settles O49: each part of a core's step keeps the frame. -/
theorem frameOfClerkInstructions : Obligations.frame_of_clerk_instructions := by
  intro op n dc s u hn hu
  rw [exec_clerkCommand] at hu
  obtain rfl : s.clerkStep n dc (fun o _ => o == op) = u := by injection hu
  exact coreFrame_clerkStep hn ..

/-! ## Edges of the event matrix -/

theorem resetOf_mask (p : Part) (serial : Nat) {b : Nat} (hb : b < 31) : resetOf p serial (maskOf b) = 0#32 := by
  interval_cases b <;> rfl

theorem resetOf_evr (p : Part) (serial : Nat) {d : Nat} (hd : d < 80) : resetOf p serial (MTX.EVR d) = 0#32 := by
  interval_cases d <;> rfl

theorem Store.mem_of_get? {α : Type} {l : Store α} {k : Nat} {v : α} (h : Store.get? l k = some v) : (k, v) ∈ l := by
  induction l with
  | nil => simp [Store.get?] at h
  | cons p l ih =>
    obtain ⟨a, w⟩ := p
    simp only [Store.get?] at h
    split at h
    · simp_all
    · split at h
      · simp at h
      · exact List.mem_cons_of_mem _ (ih h)

/-- A routed destination is among those an edge reaches. -/
theorem mem_routesOf {regs : Store Word} {d b : Nat} (hd : d < 80) (hb : b < 31) (h : (Store.getD regs (MTX.EVR d) 0#32).toNat = b + 128) :
    d ∈ routesOf regs b := by
  have hevr : MTX.EVR d = 0x1B0400 + 4 * d := rfl
  obtain ⟨v, hv, hn⟩ : ∃ v, Store.get? regs (MTX.EVR d) = some v ∧ v.toNat = b + 128 := by
    unfold Store.getD at h
    cases hg : Store.get? regs (MTX.EVR d) with
    | none => simp [hg] at h
    | some v => exact ⟨v, rfl, by simpa [hg] using h⟩
  have hbit : v.toNat.testBit 7 = true := by
    rw [hn, Nat.testBit_eq_decide_div_mod_eq, decide_eq_true_eq]
    omega
  refine List.mem_filterMap.2 ⟨_, Store.mem_of_get? hv, ?_⟩
  simp only [hevr]
  rw [if_pos ⟨by omega, by omega, by omega, by omega, hbit⟩]
  exact congrArg some (by omega)

/-- What a delivery to d brings about, and every delivery keeps, holds once an edge has reached d. -/
theorem foldl_deliver_of_mem {P : Edges → Prop} {mask d : Nat} {host : List Trigger} (hd : ∀ e, P (Edges.deliver mask host e d))
    (hk : ∀ e d', P e → P (Edges.deliver mask host e d')) {l : List Nat} (h : d ∈ l) (e : Edges) : P (l.foldl (Edges.deliver mask host) e) := by
  have hkeep (l : List Nat) (e : Edges) (he : P e) : P (l.foldl (Edges.deliver mask host) e) := by
    induction l generalizing e with
    | nil => exact he
    | cons a l ih => exact ih _ (hk e a he)
  induction l generalizing e with
  | nil => simp at h
  | cons a l ih =>
    rcases List.mem_cons.1 h with rfl | h
    · exact hkeep l _ (hd e)
    · exact ih h _

theorem foldl_deliver_msix {mask d : Nat} {host : List Trigger} {l : List Nat} (h : d ∈ l) (hd : d < 64) (hm : mask.testBit d = false) (e : Edges) :
    Out.msix d ∈ (l.foldl (Edges.deliver mask host) e).sent :=
  foldl_deliver_of_mem (P := fun e => Out.msix d ∈ e.sent) (fun e => by simp [Edges.deliver, hd, hm])
    (fun _ _ he => Edges.mem_sent_deliver he) h e

theorem foldl_deliver_pend {mask d : Nat} {host : List Trigger} {l : List Nat} (h : d ∈ l) (hd : d < 64) (hm : mask.testBit d = true) (e : Edges) :
    (l.foldl (Edges.deliver mask host) e).msixPend.testBit d = true := by
  refine foldl_deliver_of_mem (P := fun e => e.msixPend.testBit d = true) (fun e => ?_) (fun e d' he => ?_) h e
  · simp [Edges.deliver, hd, hm, testBit_setBit]
  · unfold Edges.deliver
    split
    · split
      · simp [testBit_setBit, he]
      · exact he
    · split
      · exact he
      · split <;> exact he

theorem Core.testBit_ipend_pend (c : Core) (j k : Nat) : ((c.pend j).get 0x4B).testBit k = if k = j then true else (c.get 0x4B).testBit k := by
  rw [Core.pend, Core.get, Store.getD_put, if_pos rfl, testBit_setBit]
  rfl

theorem foldl_deliver_cores {mask d : Nat} {host : List Trigger} {l : List Nat} (h : d ∈ l) (h64 : 64 ≤ d) (h80 : d < 80) (e : Edges) :
    ∀ n, n < (l.foldl (Edges.deliver mask host) e).cores.length →
      ((atD (l.foldl (Edges.deliver mask host) e).cores n Core.reset).get 0x4B).testBit (16 + (d - 64)) = true := by
  refine foldl_deliver_of_mem (P := fun e => ∀ n, n < e.cores.length → ((atD e.cores n Core.reset).get 0x4B).testBit (16 + (d - 64)) = true)
    (fun e n hn => ?_) (fun e d' he => ?_) h e
  · simp only [Edges.deliver, if_neg (show ¬ d < 64 by omega), if_pos h80, List.length_map] at hn ⊢
    rw [atD_map, if_pos hn, Core.testBit_ipend_pend, if_pos rfl]
  · unfold Edges.deliver
    split
    · split <;> exact he
    · split
      · intro n hn
        rw [List.length_map] at hn
        rw [atD_map, if_pos hn, Core.testBit_ipend_pend]
        split
        · rfl
        · exact he n hn
      · split <;> exact he

/-- The block's line after an enabled event is high. -/
theorem lineHigh_of_testBit {stat mask : Word} {k : Nat} (hs : stat.toNat.testBit k = true) (hm : mask.toNat.testBit k = true) :
    lineHigh stat mask = true := by
  have h : (stat &&& mask).toNat.testBit k = true := by rw [BitVec.toNat_and, Nat.testBit_and, hs, hm]; rfl
  have h0 : stat &&& mask ≠ 0#32 := by
    intro h0
    simp [h0] at h
  simpa [lineHigh] using h0

/-- Settles O60: the line rises exactly where it was low, and an edge reaches every destination routed to it. -/
theorem eventMatrixEdges : Obligations.event_matrix_edges := by
  intro s f d h0 hb hlo hmask hevr
  obtain ⟨b, hreg⟩ : ∃ b, f.reg = statOf b := ⟨f.reg / 65536, (Nat.div_mul_cancel (Nat.dvd_of_mod_eq_zero h0)).symm⟩
  have hdiv : f.reg / 65536 = b := by rw [hreg]; exact Nat.mul_div_cancel b (by decide)
  rw [hdiv] at hb hmask hevr ⊢
  replace hb : b < 31 := hb
  have hold (r : Reg) (hr : resetOf s.part s.serial r = 0#32) : Store.getD s.regs r 0#32 = s.reg r := by rw [State.reg_def, hr]
  have hline : lineHigh (Store.getD s.regs (statOf b) 0#32) (Store.getD s.regs (maskOf b) 0#32) = s.line b := by
    rw [hold _ (resetOf_stat _ _ hb), hold _ (resetOf_mask _ _ hb)]
    rfl
  have hraise : s.raise f = s.withLine b (s.raise f).regs := by
    unfold State.raise
    rw [hdiv]
    rfl
  generalize hregs : (s.raise f).regs = regs at hraise
  have hsplit (r : Reg) : Store.getD regs r 0#32 = Store.getD (pmcCount s.part s.serial (Store.put s.regs (statOf b)
      (Store.getD s.regs (statOf b) 0#32 ||| BitVec.ofNat 32 (2 ^ f.lo))) b (0x20 + f.lo) 1) r 0#32 := by
    rw [← hregs, ← hreg]
    show Store.getD (pmcCount s.part s.serial (Store.put s.regs f.reg _) (f.reg / 65536) _ 1) r _ = _
    rw [hdiv]
  have hstat : (Store.getD regs (statOf b) 0#32).toNat.testBit f.lo = true := by
    rw [hsplit, pmcCount_low _ _ _ _ _ _ _ _ (by omega) (by show b * 65536 % 65536 < 0x100; omega), Store.getD_put, if_pos rfl,
      BitVec.toNat_or, Nat.testBit_or, BitVec.toNat_ofNat,
      Nat.mod_eq_of_lt (Nat.pow_lt_pow_right (by omega) hlo), Nat.testBit_two_pow_self, Bool.or_true]
  have hhigh : lineHigh (Store.getD regs (statOf b) 0#32) (Store.getD regs (maskOf b) 0#32) = true := by
    refine lineHigh_of_testBit hstat ?_
    rw [hsplit, pmcCount_low _ _ _ _ _ _ _ _ (by omega) (by show (b * 65536 + 4) % 65536 < 0x100; omega), Store.getD_put,
      if_neg (by show b * 65536 + 4 ≠ b * 65536; omega), hold _ (resetOf_mask _ _ hb)]
    exact hmask
  have hedge (h : s.line b = false) : (s.raise f).sent = (s.edgesOf regs b).sent ∧ (s.raise f).msixPend = (s.edgesOf regs b).msixPend ∧
      (s.raise f).cores = (s.edgesOf regs b).cores := by
    rw [hraise]
    unfold State.withLine
    simp only [hline, h, hhigh, Bool.not_false, Bool.and_self, if_true, and_self]
  have hroute (hd : d < 80) : d ∈ routesOf regs b := by
    refine mem_routesOf hd hb ?_
    rw [hsplit, pmcCount_other _ _ _ _ _ _ _ _ (by omega) (by show (0x1B0400 + 4 * d) / 65536 ≠ 29; omega), Store.getD_put,
      if_neg (by show 0x1B0400 + 4 * d ≠ b * 65536; omega), hold _ (resetOf_evr _ _ hd)]
    exact hevr
  refine ⟨fun hl hd hm => ?_, fun hl hd hm => ?_, fun hl h64 h80 n hn => ?_, fun hl => ?_⟩
  · rw [(hedge hl).1]
    exact foldl_deliver_msix (hroute (by omega)) hd hm _
  · rw [(hedge hl).2.1]
    exact foldl_deliver_pend (hroute (by omega)) hd hm _
  · unfold State.core
    rw [(hedge hl).2.2]
    exact foldl_deliver_cores (hroute h80) h64 h80 _ n (by rw [← s.length_cores_edgesOf regs b] at hn; exact hn)
  · rw [hraise]
    unfold State.withLine
    simp only [hline, hl, Bool.not_true, Bool.false_and, Bool.false_eq_true, if_false]
    rfl

end Sys2Proof.Machine
end

section
/-! SUPPORT. What a register, a field or a flag reads after the shared updates: lemmas for rewriting, with conditions on addresses. -/
namespace Sys2Proof.Machine

/-! ## Reads -/

/-- What every step of a fold keeps, the fold keeps. -/
theorem foldl_proj {α β γ : Type} (get : β → γ) {f : β → α → β} (h : ∀ b a, get (f b a) = get b) (l : List α) (b : β) :
    get (l.foldl f b) = get b := by
  induction l generalizing b with
  | nil => rfl
  | cons a l ih => exact (ih (f b a)).trans (h b a)

/-- What reads of registers depend on. -/
def State.regKey (s : State) : Store Word × Part × Nat := (s.regs, s.part, s.serial)

/-- Reads go through the registers alone. -/
theorem State.reads_of_regKey {s u : State} (h : u.regKey = s.regKey) :
    (∀ r, u.reg r = s.reg r) ∧ (∀ r, u.regN r = s.regN r) ∧ (∀ f, u.fld f = s.fld f) ∧ ∀ f, u.flag f = s.flag f := by
  obtain ⟨hregs, hp, hs⟩ : u.regs = s.regs ∧ u.part = s.part ∧ u.serial = s.serial := by simpa [State.regKey] using h
  have hr (r : Reg) : u.reg r = s.reg r := by rw [State.reg_def, State.reg_def, hregs, hp, hs]
  exact ⟨hr, fun r => congrArg BitVec.toNat (hr r), fun f => by rw [State.fld, hr]; rfl, fun f => by rw [State.flag, hr]; rfl⟩

/-- Reads of another register. -/
theorem State.reads_setReg_ne {s : State} {r x : Reg} (v : Word) (h : x ≠ r) :
    (s.setReg r v).reg x = s.reg x ∧ (s.setReg r v).regN x = s.regN x := by
  have := s.reg_setReg_ne v h
  exact ⟨this, congrArg BitVec.toNat this⟩

theorem State.reads_setRegN_ne {s : State} {r x : Reg} (n : Nat) (h : x ≠ r) :
    (s.setRegN r n).reg x = s.reg x ∧ (s.setRegN r n).regN x = s.regN x := s.reads_setReg_ne _ h

theorem State.reads_setFld_ne {s : State} {f : Fld} {x : Reg} (n : Nat) (h : x ≠ f.reg) :
    (s.setFld f n).reg x = s.reg x ∧ (s.setFld f n).regN x = s.regN x := s.reads_setReg_ne _ h

theorem State.reads_setFlag_ne {s : State} {f : Fld} {x : Reg} (b : Bool) (h : x ≠ f.reg) :
    (s.setFlag f b).reg x = s.reg x ∧ (s.setFlag f b).regN x = s.regN x := s.reads_setReg_ne _ h

theorem State.reads_bump_ne {s : State} {r x : Reg} (k : Nat) (h : x ≠ r) :
    (s.bump r k).reg x = s.reg x ∧ (s.bump r k).regN x = s.regN x := s.reads_setReg_ne _ h

theorem State.reads_raise_ne {s : State} {f : Fld} {x : Reg} (hb : f.reg / 65536 < 32) (h : x ≠ f.reg) (h2 : x / 65536 ≠ 29) :
    (s.raise f).reg x = s.reg x ∧ (s.raise f).regN x = s.regN x := by
  have := s.reg_raise_ne f hb h h2
  exact ⟨this, congrArg BitVec.toNat this⟩

/-! Fields and flags, of another register or of other bits. -/

theorem State.fields_setReg_ne {s : State} {r : Reg} {g : Fld} (v : Word) (h : g.reg ≠ r) :
    (s.setReg r v).fld g = s.fld g ∧ (s.setReg r v).flag g = s.flag g := ⟨s.fld_setReg_ne v h, s.flag_setReg_ne v h⟩

theorem State.fields_setRegN_ne {s : State} {r : Reg} {g : Fld} (n : Nat) (h : g.reg ≠ r) :
    (s.setRegN r n).fld g = s.fld g ∧ (s.setRegN r n).flag g = s.flag g := s.fields_setReg_ne _ h

theorem State.fields_bump_ne {s : State} {r : Reg} {g : Fld} (k : Nat) (h : g.reg ≠ r) :
    (s.bump r k).fld g = s.fld g ∧ (s.bump r k).flag g = s.flag g := s.fields_setReg_ne _ h

theorem State.fields_raise_ne {s : State} {f g : Fld} (hb : f.reg / 65536 < 32) (h : g.reg ≠ f.reg) (h2 : g.reg / 65536 ≠ 29) :
    (s.raise f).fld g = s.fld g ∧ (s.raise f).flag g = s.flag g := ⟨s.fld_raise_ne f g hb h h2, s.flag_raise_ne f g hb h h2⟩

theorem State.flag_setFlag_ne {s : State} {f g : Fld} (b : Bool) (hf : f.lo + f.wid ≤ 32)
    (h : g.reg ≠ f.reg ∨ g.lo < f.lo ∨ f.lo + f.wid ≤ g.lo) : (s.setFlag f b).flag g = s.flag g := s.flag_setFld_ne f g _ hf h

theorem State.fld_setFlag_ne {s : State} {f g : Fld} (b : Bool) (hf : f.lo + f.wid ≤ 32)
    (h : g.reg ≠ f.reg ∨ g.lo + g.wid ≤ f.lo ∨ f.lo + f.wid ≤ g.lo) : (s.setFlag f b).fld g = s.fld g := s.fld_setFld_ne f g _ hf h

/-- An event keeps every flag that is set. -/
theorem State.flag_raise_of_flag {s : State} {f g : Fld} (h : s.flag g = true) (h0 : f.reg % 65536 = 0) (hb : f.reg / 65536 < 31) (hl : f.lo < 32)
    (h2 : g.reg / 65536 ≠ 29) : (s.raise f).flag g = true := by
  by_cases hr : g.reg = f.reg
  · have hf : f.reg = statOf (f.reg / 65536) := (Nat.div_mul_cancel (Nat.dvd_of_mod_eq_zero h0)).symm
    unfold State.flag at h ⊢
    rw [hr] at h ⊢
    exact (s.raise_stat_sticky hb hf hl).2 _ h
  · rw [s.flag_raise_ne f g (Nat.lt_trans hb (by decide)) hr h2, h]

/-- An event leaves every flag of its register but its own. -/
theorem State.flag_raise_lo_ne {s : State} {f g : Fld} (h : g.lo ≠ f.lo) (h0 : f.reg % 65536 = 0) (hb : f.reg / 65536 < 31) (hl : f.lo < 32)
    (h2 : g.reg / 65536 ≠ 29) : (s.raise f).flag g = s.flag g := by
  by_cases hr : g.reg = f.reg
  · have hf : f.reg = statOf (f.reg / 65536) := (Nat.div_mul_cancel (Nat.dvd_of_mod_eq_zero h0)).symm
    unfold State.flag
    rw [hr, s.reg_raise_stat hb hf, BitVec.toNat_or, Nat.testBit_or, BitVec.toNat_ofNat,
      Nat.mod_eq_of_lt (Nat.pow_lt_pow_right (by decide) hl), Nat.testBit_two_pow_of_ne h.symm, Bool.or_false]
  · rw [s.flag_raise_ne f g (Nat.lt_trans hb (by decide)) hr h2]

/-! ## Updates done under a condition -/

@[simp] theorem State.raiseIf_true (s : State) (f : Fld) : s.raiseIf true f = s.raise f := rfl
@[simp] theorem State.raiseIf_false (s : State) (f : Fld) : s.raiseIf false f = s := rfl
@[simp] theorem State.when_true (s : State) (f : State → State) : s.when true f = f s := rfl
@[simp] theorem State.when_false (s : State) (f : State → State) : s.when false f = s := rfl

theorem Completes.of {c : Instr} {s u : State} {P : State → Prop} (h : exec c s = .next u) (hP : P u) : Completes c s P := ⟨u, h, hP⟩

/-- A command whose condition holds takes the state its effect makes. -/
theorem Completes.of_doneIf {c : Instr} {s t : State} {b : Bool} {f : State → State} {P : State → Prop} (h : exec c s = doneIf t b f)
    (hb : b = true) (hP : P (f t)) : Completes c s P := ⟨f t, by rw [h, doneIf, hb]; rfl, hP⟩

end Sys2Proof.Machine
end

section
/-! SUPPORT. The canopy's ports (R114 to R122): what the link's shared operations leave, and the commands that bring a port up and down. -/
namespace Sys2Proof.Machine

/-! ## The registers that the link's operations leave -/

@[simp] theorem State.regKey_returnCredit (s : State) (v : Nat) (from? : Option Nat) : (s.returnCredit v from?).regKey = s.regKey := by
  unfold State.returnCredit
  split <;> rfl

@[simp] theorem State.regKey_dropQueued (s : State) (drop : VPkt → Bool) : (s.dropQueued drop).1.regKey = s.regKey := by
  unfold State.dropQueued
  refine foldl_proj (fun acc : State × Nat => acc.1.regKey) (fun acc q => ?_) _ _
  dsimp only
  split
  · rfl
  · exact foldl_proj State.regKey (fun s g => s.regKey_returnCredit _ _) _ _

/-- Dropping transit packets counts them and raises ROUTE_DROP, and no other register changes. -/
theorem State.reads_routeDrop {s : State} {x : Reg} (h : x ≠ CAN.ROUTE_CNT) (h' : x ≠ CAN.STAT) (h29 : x / 65536 ≠ 29) :
    s.routeDrop.reg x = s.reg x ∧ s.routeDrop.regN x = s.regN x := by
  suffices hr : s.routeDrop.reg x = s.reg x from ⟨hr, congrArg BitVec.toNat hr⟩
  unfold State.routeDrop
  dsimp only
  have hread (drop : VPkt → Bool) : (s.dropQueued drop).1.reg x = s.reg x := (State.reads_of_regKey (s.regKey_dropQueued drop)).1 x
  split
  · exact hread _
  · rw [(State.reads_raise_ne (by decide) h' h29).1, (State.reads_bump_ne _ h).1, hread]

theorem State.fields_routeDrop {s : State} {g : Fld} (h : g.reg ≠ CAN.ROUTE_CNT) (h' : g.reg ≠ CAN.STAT) (h29 : g.reg / 65536 ≠ 29) :
    s.routeDrop.fld g = s.fld g ∧ s.routeDrop.flag g = s.flag g := by
  have hr := (s.reads_routeDrop h h' h29).1
  exact ⟨by rw [State.fld, hr]; rfl, by rw [State.flag, hr]; rfl⟩

/-- A flag that is set stays set as transit packets are dropped. -/
theorem State.flag_routeDrop_of_flag {s : State} {g : Fld} (h : s.flag g = true) (hc : g.reg ≠ CAN.ROUTE_CNT) (h29 : g.reg / 65536 ≠ 29) :
    s.routeDrop.flag g = true := by
  unfold State.routeDrop
  dsimp only
  have hread (drop : VPkt → Bool) : (s.dropQueued drop).1.flag g = true := by
    rw [(State.reads_of_regKey (s.regKey_dropQueued drop)).2.2.2, h]
  split
  · exact hread _
  · exact State.flag_raise_of_flag ((State.fields_bump_ne _ hc).2.trans (hread _)) (by decide) (by decide) (by decide) h29

/-! ## A port's state -/

/-- A port's state is the one it entered. -/
theorem State.portState_portTo (s : State) {p : Nat} (st : Nat) (hp : p < 4) : (s.portTo p st).portState p = st % 8 := by
  rw [State.portTo, State.portState, (State.fields_routeDrop (by grind) (by grind) (by grind)).1]
  exact State.fld_setFld _ _ _ (by simp)

theorem State.reads_portTo {s : State} {p st : Nat} {x : Reg} (hp : x ≠ CAN.PORT_STATUS p) (h : x ≠ CAN.ROUTE_CNT) (h' : x ≠ CAN.STAT)
    (h29 : x / 65536 ≠ 29) : (s.portTo p st).reg x = s.reg x ∧ (s.portTo p st).regN x = s.regN x := by
  rw [State.portTo, (State.reads_routeDrop h h' h29).1, (State.reads_routeDrop h h' h29).2]
  exact State.reads_setFld_ne _ hp

theorem State.fields_portTo {s : State} {p st : Nat} {g : Fld} (hp : g.reg ≠ CAN.PORT_STATUS p) (h : g.reg ≠ CAN.ROUTE_CNT) (h' : g.reg ≠ CAN.STAT)
    (h29 : g.reg / 65536 ≠ 29) : (s.portTo p st).fld g = s.fld g ∧ (s.portTo p st).flag g = s.flag g := by
  have hr := (s.reads_portTo (st := st) hp h h' h29).1
  exact ⟨by rw [State.fld, hr]; rfl, by rw [State.flag, hr]; rfl⟩

theorem State.flag_portTo_of_flag {s : State} {p st : Nat} {g : Fld} (h : s.flag g = true) (hp : g.reg ≠ CAN.PORT_STATUS p) (hc : g.reg ≠ CAN.ROUTE_CNT)
    (h29 : g.reg / 65536 ≠ 29) : (s.portTo p st).flag g = true :=
  State.flag_routeDrop_of_flag ((State.flag_setReg_ne _ _ hp).trans h) hc h29

/-- A change of a port's lanes writes its count of locked ones. -/
theorem State.portState_mapLanes (s : State) (p : Nat) (f : Nat → CanLane → CanLane) : (s.mapLanes p f).portState p = s.portState p :=
  State.fld_setFld_ne _ _ _ _ (by simp) (.inr (.inl (by simp)))

theorem State.reads_mapLanes {s : State} {p : Nat} {x : Reg} (f : Nat → CanLane → CanLane) (h : x ≠ CAN.PORT_STATUS p) :
    (s.mapLanes p f).reg x = s.reg x ∧ (s.mapLanes p f).regN x = s.regN x := State.reads_setFld_ne _ h

theorem State.fields_mapLanes {s : State} {p : Nat} {g : Fld} (f : Nat → CanLane → CanLane) (h : g.reg ≠ CAN.PORT_STATUS p) :
    (s.mapLanes p f).fld g = s.fld g ∧ (s.mapLanes p f).flag g = s.flag g := ⟨State.fld_setReg_ne _ _ h, State.flag_setReg_ne _ _ h⟩

/-- The way to TRAIN (R122) leaves the port in TRAIN with PORT_DOWN raised. -/
theorem State.portFail_completes (s : State) {p : Nat} (hp : p < 4) :
    (s.portFail p).portState p = 1 ∧ (s.portFail p).flag CAN.STAT_PORT_DOWN = true := by
  unfold State.portFail
  refine ⟨State.portState_portTo _ _ hp, State.flag_portTo_of_flag (State.flag_raise _ _ (by decide) (by decide) (by decide)) ?_ (by decide) (by decide)⟩
  grind

/-! ## A write of a port's control register -/

/-- The value that a write of v leaves in a port's control register. -/
def portCtrlValue (old v : Nat) (refused : Bool) : Nat := v % 256 / 4 * 4 + (if v % 4 = 3 ∨ refused then old % 4 else v % 4)

/-- The state once the register is written: what the port's power and its start come after. -/
def State.portCtrlStored (s : State) (p v : Nat) : State :=
  let refused := s.flag (CAN.PORT_CTRL_EN p) && decide (s.regN (CAN.PORT_CTRL p) % 4 < v % 4) && v % 4 != 3
  let s2 := (s.raiseIf refused CAN.STAT_REFUSED).setRegN (CAN.PORT_CTRL p) (portCtrlValue (s.regN (CAN.PORT_CTRL p)) v refused)
  if v.testBit 7 ∨ s2.portState p = 0 then s2 else (s2.clearLink p).portTo p 0

theorem State.portCtrl_eq (s : State) (p v : Nat) : s.portCtrl p v = ((s.portCtrlStored p v).portPower p).portStart p := rfl

theorem State.reads_portPower {s : State} {p : Nat} {x : Reg} (h : x ≠ CAN.PORT_STATUS p) :
    (s.portPower p).reg x = s.reg x ∧ (s.portPower p).regN x = s.regN x := by
  unfold State.portPower
  split
  · exact State.reads_mapLanes _ h
  · split
    · exact ⟨rfl, rfl⟩
    · exact State.reads_mapLanes _ h

theorem State.fields_portPower {s : State} {p : Nat} {g : Fld} (h : g.reg ≠ CAN.PORT_STATUS p) :
    (s.portPower p).fld g = s.fld g ∧ (s.portPower p).flag g = s.flag g := by
  have hr := (s.reads_portPower h).1
  exact ⟨by rw [State.fld, hr]; rfl, by rw [State.flag, hr]; rfl⟩

theorem State.portState_portPower (s : State) (p : Nat) : (s.portPower p).portState p = s.portState p := by
  unfold State.portPower
  split
  · exact s.portState_mapLanes ..
  · split
    · rfl
    · exact s.portState_mapLanes ..

theorem State.reads_portStart {s : State} {p : Nat} {x : Reg} (hp : x ≠ CAN.PORT_STATUS p) (h : x ≠ CAN.ROUTE_CNT) (h' : x ≠ CAN.STAT)
    (h29 : x / 65536 ≠ 29) : (s.portStart p).reg x = s.reg x ∧ (s.portStart p).regN x = s.regN x := by
  unfold State.portStart
  split
  · exact State.reads_portTo hp h h' h29
  · exact ⟨rfl, rfl⟩

theorem State.flag_portStart_of_flag {s : State} {p : Nat} {g : Fld} (h : s.flag g = true) (hp : g.reg ≠ CAN.PORT_STATUS p) (hc : g.reg ≠ CAN.ROUTE_CNT)
    (h29 : g.reg / 65536 ≠ 29) : (s.portStart p).flag g = true := by
  unfold State.portStart
  split
  · exact State.flag_portTo_of_flag h hp hc h29
  · exact h

theorem portCtrlValue_lt (old v : Nat) (r : Bool) : portCtrlValue old v r < 2 ^ 32 := by
  unfold portCtrlValue
  split <;> omega

/-- A write leaves its value in the register, but for a PWR that is refused or reserved. -/
theorem State.regN_portCtrlStored (s : State) {p : Nat} (v : Nat) (hp : p < 4) : (s.portCtrlStored p v).regN (CAN.PORT_CTRL p) =
    portCtrlValue (s.regN (CAN.PORT_CTRL p)) v (s.flag (CAN.PORT_CTRL_EN p) && decide (s.regN (CAN.PORT_CTRL p) % 4 < v % 4) && v % 4 != 3) := by
  unfold State.portCtrlStored
  dsimp only
  split
  · exact State.regN_setRegN _ _ (portCtrlValue_lt ..)
  · rw [(State.reads_portTo (by clear * -; grind) (by clear * -; grind) (by clear * -; grind) (by clear * -hp; grind)).2]
    exact State.regN_setRegN _ _ (portCtrlValue_lt ..)

theorem State.regN_portCtrl (s : State) {p : Nat} (v : Nat) (hp : p < 4) : (s.portCtrl p v).regN (CAN.PORT_CTRL p) =
    portCtrlValue (s.regN (CAN.PORT_CTRL p)) v (s.flag (CAN.PORT_CTRL_EN p) && decide (s.regN (CAN.PORT_CTRL p) % 4 < v % 4) && v % 4 != 3) := by
  rw [s.portCtrl_eq, (State.reads_portStart (by grind) (by grind) (by grind) (by grind)).2, (State.reads_portPower (by grind)).2, s.regN_portCtrlStored v hp]

/-- A refused change of PWR raises REFUSED. -/
theorem State.refused_portCtrl {s : State} {p v : Nat} (he : s.flag (CAN.PORT_CTRL_EN p) = true) (h : s.regN (CAN.PORT_CTRL p) % 4 < v % 4)
    (h3 : v % 4 ≠ 3) : (s.portCtrl p v).flag CAN.STAT_REFUSED = true := by
  rw [s.portCtrl_eq]
  refine State.flag_portStart_of_flag ?_ (by grind) (by decide) (by decide)
  rw [(State.fields_portPower (by grind)).2]
  have hr (n : Nat) : ((s.raise CAN.STAT_REFUSED).setRegN (CAN.PORT_CTRL p) n).flag CAN.STAT_REFUSED = true := by
    rw [(State.fields_setRegN_ne _ (by grind)).2]
    exact State.flag_raise _ _ (by decide) (by decide) (by decide)
  unfold State.portCtrlStored
  rw [show (s.flag (CAN.PORT_CTRL_EN p) && decide (s.regN (CAN.PORT_CTRL p) % 4 < v % 4) && v % 4 != 3) = true by simp [he, h, h3]]
  dsimp only
  split
  · exact hr _
  · exact State.flag_portTo_of_flag (hr _) (by clear * -; grind) (by decide) (by decide)

/-- A write that leaves EN set leaves the port's state and the registers of other blocks until the port starts. -/
theorem State.portCtrlStored_of_enabled {s : State} {p v : Nat} (hp : p < 4) (hv : v.testBit 7 = true) :
    (s.portCtrlStored p v).portState p = s.portState p ∧ (s.portCtrlStored p v).domOn 10 = s.domOn 10 := by
  have hset (t : State) (n : Nat) : (t.setRegN (CAN.PORT_CTRL p) n).portState p = t.portState p ∧
      (t.setRegN (CAN.PORT_CTRL p) n).domOn 10 = t.domOn 10 :=
    ⟨(State.fields_setRegN_ne n (by grind)).1, congrArg (·.testBit 10) (State.reads_setRegN_ne n (by grind)).2⟩
  have hraise : (s.raise CAN.STAT_REFUSED).portState p = s.portState p ∧ (s.raise CAN.STAT_REFUSED).domOn 10 = s.domOn 10 :=
    ⟨(State.fields_raise_ne (by decide) (by grind) (by grind)).1,
      congrArg (·.testBit 10) (State.reads_raise_ne (by decide) (by decide) (by decide)).2⟩
  unfold State.portCtrlStored
  dsimp only
  rw [if_pos (.inl hv), (hset ..).1, (hset ..).2]
  cases s.flag (CAN.PORT_CTRL_EN p) && decide (s.regN (CAN.PORT_CTRL p) % 4 < v % 4) && v % 4 != 3
  case false => exact ⟨rfl, rfl⟩
  case true => exact hraise

theorem testBit_portCtrlValue (old v : Nat) (r : Bool) : (portCtrlValue old v r).testBit 7 = v.testBit 7 := by
  unfold portCtrlValue
  rw [Nat.testBit_eq_decide_div_mod_eq, Nat.testBit_eq_decide_div_mod_eq]
  congr 2
  split <;> omega

/-- The port's EN bit is that of the value written. -/
theorem State.flag_en_portCtrl (s : State) {p : Nat} (v : Nat) (hp : p < 4) : (s.portCtrl p v).flag (CAN.PORT_CTRL_EN p) = v.testBit 7 :=
  (congrArg (·.testBit 7) (s.regN_portCtrl v hp)).trans (testBit_portCtrlValue ..)

/-- A disabled port whose PWR is Active starts as its EN is set (R122). -/
theorem State.portCtrl_starts {s : State} {p : Nat} (hp : p < 4) (h0 : s.regN (CAN.PORT_CTRL p) % 4 = 0) (hst : s.portState p = 0)
    (hd : s.domOn 10 = true) : ∃ t : State, s.portCtrl p (setBit (s.regN (CAN.PORT_CTRL p)) 7 true) = (t.portTo p 1).emit (.align p) := by
  have hv : (setBit (s.regN (CAN.PORT_CTRL p)) 7 true).testBit 7 = true := by rw [testBit_setBit, if_pos rfl]
  have hlow : setBit (s.regN (CAN.PORT_CTRL p)) 7 true % 4 = 0 := by
    rw [← h0]
    refine Nat.eq_of_testBit_eq fun i => ?_
    rw [show 4 = 2 ^ 2 from rfl, Nat.testBit_mod_two_pow, Nat.testBit_mod_two_pow, testBit_setBit]
    by_cases hi : i < 2
    · rw [if_neg (by omega)]
    · simp [hi]
  generalize setBit (s.regN (CAN.PORT_CTRL p)) 7 true = v at hv hlow
  obtain ⟨hst', hd'⟩ := s.portCtrlStored_of_enabled hp hv
  have hreg := s.regN_portCtrlStored v hp
  generalize (s.flag (CAN.PORT_CTRL_EN p) && decide (s.regN (CAN.PORT_CTRL p) % 4 < v % 4) && v % 4 != 3) = r at hreg
  have hen : ((s.portCtrlStored p v).portPower p).flag (CAN.PORT_CTRL_EN p) = true := by
    rw [(State.fields_portPower (by clear * -; grind)).2]
    exact (congrArg (·.testBit 7) hreg).trans ((testBit_portCtrlValue ..).trans hv)
  have hpwr : ((s.portCtrlStored p v).portPower p).fld (CAN.PORT_CTRL_PWR p) = 0 := by
    rw [(State.fields_portPower (by clear * -; grind)).1]
    refine (congrArg (bits · 0 2) hreg).trans ?_
    unfold portCtrlValue bits
    simp only [h0, hlow, ite_self]
    omega
  refine ⟨(s.portCtrlStored p v).portPower p, ?_⟩
  rw [s.portCtrl_eq, State.portStart, if_pos]
  rw [hen, hpwr, State.portState_portPower, hst', hst]
  simpa [State.domOn, (State.reads_portPower (s := s.portCtrlStored p v) (p := p) (x := PWR.DOM_ON) (by clear * -hp; grind)).2, hd] using hd'.trans hd

/-- A write that leaves EN clear takes the port DOWN. -/
theorem State.portState_portCtrl_of_disabled {s : State} {p v : Nat} (hp : p < 4) (hv : v.testBit 7 = false) : (s.portCtrl p v).portState p = 0 := by
  have hreg := s.regN_portCtrlStored v hp
  have hen : ((s.portCtrlStored p v).portPower p).flag (CAN.PORT_CTRL_EN p) = false := by
    rw [(State.fields_portPower (by clear * -; grind)).2]
    exact (congrArg (·.testBit 7) hreg).trans ((testBit_portCtrlValue ..).trans hv)
  rw [s.portCtrl_eq, State.portStart, hen]
  simp only [Bool.false_and, Bool.false_eq_true, if_false]
  rw [State.portState_portPower]
  unfold State.portCtrlStored
  dsimp only
  split
  case isTrue h => exact h.resolve_left (by simp [hv])
  case isFalse => exact State.portState_portTo _ _ hp

/-! ## HELLO -/

/-- R122's checks read the registers of PIT, BEL and CAN.SHAPE. -/
theorem State.helloOk_congr {s u : State} (p : Nat) (h : Hello) (hpit : u.reg PIT.STATUS = s.reg PIT.STATUS) (hshape : u.reg CAN.SHAPE = s.reg CAN.SHAPE)
    (hsched : u.reg BEL.SCHED_ID = s.reg BEL.SCHED_ID) : u.helloOk p h = s.helloOk p h := by
  have hf (f : Fld) (hr : f.reg = PIT.STATUS ∨ f.reg = CAN.SHAPE) : u.fld f = s.fld f := by
    rcases hr with hr | hr <;> simp only [State.fld, hr, hpit, hshape]
  have htopo : u.topo = s.topo := hf _ (.inr rfl)
  have hmy : u.myPitch = s.myPitch := hf _ (.inl rfl)
  have hX : u.dimX = s.dimX := by rw [State.dimX, State.dimX, htopo, hf _ (.inr rfl)]
  have hY : u.dimY = s.dimY := by rw [State.dimY, State.dimY, htopo, hf _ (.inr rfl)]
  have hcx (q : Nat) : u.coordX q = s.coordX q := by rw [State.coordX, State.coordX, hX]
  have hcy (q : Nat) : u.coordY q = s.coordY q := by rw [State.coordY, State.coordY, htopo, hX]
  have hn : u.neighbour p = s.neighbour p := by
    unfold State.neighbour
    split <;> simp only [hmy, hX, hY, hcx, hcy]
  have hpit' : u.hasPitch = s.hasPitch := by rw [State.hasPitch, State.hasPitch, hf _ (.inl rfl)]
  have hxm : u.fld CAN.SHAPE_XM1 = s.fld CAN.SHAPE_XM1 := hf _ (.inr rfl)
  have hym : u.fld CAN.SHAPE_YM1 = s.fld CAN.SHAPE_YM1 := hf _ (.inr rfl)
  have hsched' : u.regN BEL.SCHED_ID = s.regN BEL.SCHED_ID := congrArg BitVec.toNat hsched
  rw [State.helloOk, State.helloOk, State.canopySize, State.canopySize, hpit', hmy, hX, hY, hn, htopo, hxm, hym, hsched']

/-- A run that ends in RINGING only counts down (R25). -/
theorem State.clearRun_of_ringing {s : State} (h : s.bellState = stRINGING) :
    s.clearRun = s.setFlag BEL.CTRL_RUN false ∨ ∃ b, s.clearRun = (s.setFlag BEL.CTRL_RUN false).setBell b := by
  have hb : (s.setFlag BEL.CTRL_RUN false).bellState = stRINGING := (State.fld_setReg_ne _ _ (by decide)).trans h
  unfold State.clearRun
  dsimp only
  rw [if_pos hb]
  split
  · exact .inr ⟨_, rfl⟩
  · exact .inl rfl

/-- What a HELLO says of the lead changes no port's state, and takes no event back. -/
theorem State.leadNews_keeps {s : State} (p : Nat) (h : Hello) :
    (∀ q, q < 4 → (s.leadNews p h).portState q = s.portState q) ∧
      ∀ g : Fld, g.reg = CAN.STAT → s.flag g = true → (s.leadNews p h).flag g = true := by
  have hrefl : (∀ q, q < 4 → s.portState q = s.portState q) ∧ ∀ g : Fld, g.reg = CAN.STAT → s.flag g = true → s.flag g = true :=
    ⟨fun _ _ => rfl, fun _ _ h => h⟩
  have hraise : (∀ q, q < 4 → (s.raise CAN.STAT_CANOPY_CONFLICT).portState q = s.portState q) ∧
      ∀ g : Fld, g.reg = CAN.STAT → s.flag g = true → (s.raise CAN.STAT_CANOPY_CONFLICT).flag g = true :=
    ⟨fun q hq => (State.fields_raise_ne (by decide) (by grind) (by grind)).1,
      fun g hg h => State.flag_raise_of_flag h (by decide) (by decide) (by decide) (by rw [hg]; decide)⟩
  have hrun (t : State) : (∀ q, q < 4 → (t.setFlag BEL.CTRL_RUN false).portState q = t.portState q) ∧
      ∀ g : Fld, g.reg = CAN.STAT → (t.setFlag BEL.CTRL_RUN false).flag g = t.flag g :=
    ⟨fun q hq => State.fld_setReg_ne _ _ (by grind), fun g hg => State.flag_setReg_ne _ _ (by rw [hg]; decide)⟩
  unfold State.leadNews
  split
  · split
    · dsimp only
      split
      case isTrue hring =>
        rcases State.clearRun_of_ringing hring.1 with hc | ⟨b, hc⟩ <;> rw [hc]
        · exact ⟨fun q hq => ((hrun _).1 q hq).trans (hraise.1 q hq), fun g hg h => ((hrun _).2 g hg).trans (hraise.2 g hg h)⟩
        · exact ⟨fun q hq => ((hrun _).1 q hq).trans (hraise.1 q hq), fun g hg h => ((hrun _).2 g hg).trans (hraise.2 g hg h)⟩
      case isFalse => exact hraise
    · exact hrefl
  · split
    · exact hrefl
    · split
      · split <;> exact hrefl
      · split <;> exact hrefl

/-- What port p reads of its neighbour's HELLO. -/
def State.noteHello (s : State) (p : Nat) (h : Hello) : State :=
  (((s.setPort p { s.port p with hello := some h, helloAt := s.up }).setFld (CAN.PORT_STATUS_NBR p) h.pitch).setFlag
    (CAN.PORT_STATUS_NBR_ALIGNED p) h.aligned).setFlag (CAN.PORT_STATUS_NBR_PARKED p) h.parked

theorem State.noteHello_keeps (s : State) (p : Nat) (h : Hello) :
    (s.noteHello p h).portState p = s.portState p ∧ (s.noteHello p h).helloOk p h = s.helloOk p h := by
  have hreg (x : Reg) (hx : x ≠ CAN.PORT_STATUS p) : (s.noteHello p h).reg x = s.reg x := by
    unfold State.noteHello
    rw [(State.reads_setFlag_ne _ hx).1, (State.reads_setFlag_ne _ hx).1, (State.reads_setFld_ne _ hx).1]
    rfl
  refine ⟨?_, State.helloOk_congr p h (hreg _ (by grind)) (hreg _ (by grind)) (hreg _ (by grind))⟩
  unfold State.noteHello State.portState
  rw [State.fld_setFlag_ne _ (by simp) (.inr (.inl (by simp))), State.fld_setFlag_ne _ (by simp) (.inr (.inl (by simp))),
    State.fld_setFld_ne _ _ _ _ (by simp) (.inr (.inl (by simp)))]
  rfl

/-- A HELLO that passes R122's checks takes a port in HELLO to UP. -/
theorem State.takeHello_up {s : State} {p : Nat} {h : Hello} (hp : p < 4) (hst : s.portState p = 2) (hok : s.helloOk p h = true) :
    (s.takeHello p h).portState p = 3 ∧ (s.takeHello p h).flag CAN.STAT_PORT_UP = true := by
  obtain ⟨hkst, hkok⟩ := s.noteHello_keeps p h
  have he : s.takeHello p h = ((s.noteHello p h).portToUp p).leadNews p h := by
    show (if (s.noteHello p h).helloOk p h then (if (s.noteHello p h).portState p = 2 ∨ (s.noteHello p h).portState p = 4 then (s.noteHello p h).portToUp p
      else s.noteHello p h) else _).leadNews p h = _
    rw [hkok, hok, hkst, hst]
    rfl
  obtain ⟨hs, hf⟩ := State.leadNews_keeps (s := (s.noteHello p h).portToUp p) p h
  rw [he, hs p hp]
  refine ⟨?_, hf _ rfl (State.flag_raise _ _ (by decide) (by decide) (by decide))⟩
  exact ((State.fields_raise_ne (by decide) (by grind) (by grind)).1).trans (State.portState_portTo _ 3 hp)

/-- A HELLO that fails them takes the port to MISMATCH. -/
theorem State.takeHello_mismatch {s : State} {p : Nat} {h : Hello} (hp : p < 4) (hst : s.portState p = 2) (hok : s.helloOk p h = false) :
    (s.takeHello p h).portState p = 4 ∧ (s.takeHello p h).flag CAN.STAT_MISMATCH = true := by
  obtain ⟨hkst, hkok⟩ := s.noteHello_keeps p h
  have he : s.takeHello p h = ((s.noteHello p h).portMismatch p).leadNews p h := by
    show (if (s.noteHello p h).helloOk p h then _ else (if (s.noteHello p h).portState p = 2 ∨ (s.noteHello p h).portState p = 3 then (s.noteHello p h).portMismatch p
      else s.noteHello p h)).leadNews p h = _
    rw [hkok, hok, hkst, hst]
    rfl
  obtain ⟨hs, hf⟩ := State.leadNews_keeps (s := (s.noteHello p h).portMismatch p) p h
  rw [he, hs p hp]
  refine ⟨?_, hf _ rfl (State.flag_raise _ _ (by decide) (by decide) (by decide))⟩
  exact ((State.fields_raise_ne (by decide) (by grind) (by grind)).1).trans (State.portState_portTo _ 4 hp)

/-! ## A port that fails -/

theorem State.lanes_dropQueued (s : State) (drop : VPkt → Bool) : (s.dropQueued drop).1.can.lanes = s.can.lanes := by
  have hcred (s : State) (v : Nat) (f : Option Nat) : (s.returnCredit v f).can.lanes = s.can.lanes := by
    unfold State.returnCredit
    split <;> rfl
  unfold State.dropQueued
  refine foldl_proj (fun acc : State × Nat => acc.1.can.lanes) (fun acc q => ?_) _ _
  dsimp only
  split
  · rfl
  · exact foldl_proj (fun s : State => s.can.lanes) (fun s g => hcred s _ _) _ _

theorem State.lanes_portFail (s : State) (p : Nat) : (s.portFail p).can.lanes = s.can.lanes := by
  have hdrop (t : State) : t.routeDrop.can.lanes = t.can.lanes := by
    unfold State.routeDrop
    dsimp only
    split <;> exact t.lanes_dropQueued _
  unfold State.portFail State.portTo
  rw [hdrop]
  split <;> rfl

theorem atD_eq_getElem? {α : Type} (l : List α) (k : Nat) (d : α) : atD l k d = l[k]?.getD d := by
  induction l generalizing k with
  | nil => simp [atD]
  | cons x l ih => cases k <;> simp [atD, ih]

/-- A lane of the port whose lanes change. -/
theorem State.locked_mapLanes (s : State) {p k : Nat} {f : Nat → CanLane → CanLane} (hk : k < 32) (hf : ∀ l, (f k l).locked = false) :
    ((s.mapLanes p f).canLane (80 + 32 * p + k)).locked = false := by
  have hdiv : (32 * p + k) / 32 = p ∧ (32 * p + k) % 32 = k := by omega
  show (atD (s.can.lanes.zipIdx.map _) (80 + 32 * p + k - 80) CanLane.reset).locked = false
  rw [show 80 + 32 * p + k - 80 = 32 * p + k by omega, atD_eq_getElem?, List.getElem?_map, List.getElem?_zipIdx]
  cases s.can.lanes[32 * p + k]? with
  | none => rfl
  | some l => simp [hdiv, hf]

/-- A HELLO on a port in HELLO is taken where its CRC holds. -/
theorem exec_helloRx_of_hello {p : Nat} {k : Packet} {h : Hello} {s : State} (tr : Trailer) (t : Nat) (hb : k.body = .hello h)
    (hst : s.portState (p % 4) = 2) : exec (.helloRx p k tr true t) s = .next ((s.at t).takeHello (p % 4) h) := by
  have hup : (s.at t).portUp (p % 4) = false := by rw [State.portUp]; exact (congrArg (· == 3) hst).trans rfl
  have hlive : (s.at t).portLive (p % 4) = true := by
    rw [State.portLive]
    exact (congrArg (fun x => decide (2 ≤ x) && decide (x ≤ 4)) hst).trans rfl
  show execHelloRx p k tr true t s = _
  unfold execHelloRx
  simp only [hb, hup, hlive, Bool.false_eq_true, if_false, if_true]
  rfl

theorem BlockInv.port_setPort {s : State} (h : BlockInv s) {p : Nat} (hp : p < 4) (c : CanPort) : (s.setPort p c).port p = c := by
  obtain ⟨-, -, -, -, -, -, -, -, hports, -⟩ := h
  exact (atD_setAt _ _ _ _ _ (by omega)).trans (if_pos rfl)

/-- Settles O8, command by command. -/
theorem portCommandsComplete : Obligations.port_commands_complete := by
  have hp4 (p : Nat) : p % 4 < 4 := Nat.mod_lt _ (by decide)
  refine ⟨fun p v s he h3 => .of rfl ?_, fun p v s he h3 hlt => .of rfl ⟨?_, State.refused_portCtrl he hlt h3⟩, fun p s h0 hst hd => .of rfl ?_,
    fun p s hst => .of rfl ?_, fun p t s hst hd ha => .of rfl ?_, fun p s hl hu => .of rfl ?_, fun p s hinv hu => .of rfl ?_,
    fun p k tr t h s hinv hb hst hok => ?_, fun p k tr t h s hb hst hok => ?_, fun p n s hl => .of rfl ?_, fun p t s hl ht => .of rfl ?_⟩
  · rw [State.regN_portCtrl _ _ (hp4 p), he]
    simp only [Bool.false_and, portCtrlValue, h3, Bool.false_eq_true, or_self, if_false]
    omega
  · rw [State.regN_portCtrl _ _ (hp4 p), portCtrlValue, if_pos (.inr (by simp [he, hlt, h3]))]
    omega
  · obtain ⟨t, ht⟩ := State.portCtrl_starts (hp4 p) h0 hst hd
    refine ⟨?_, ?_, t.portTo (p % 4) 1 |>.sent, by rw [ht]; rfl⟩
    · rw [ht]
      exact State.portState_portTo _ 1 (hp4 p)
    · rw [State.flag_en_portCtrl _ _ (hp4 p), testBit_setBit, if_pos rfl]
  · have hv : (setBit (s.regN (CAN.PORT_CTRL (p % 4))) 7 false).testBit 7 = false := by rw [testBit_setBit, if_pos rfl]
    exact ⟨State.portState_portCtrl_of_disabled (hp4 p) hv, (State.flag_en_portCtrl _ _ (hp4 p)).trans hv⟩
  · rw [if_pos (by rw [Bool.and_eq_true, Bool.and_eq_true, beq_iff_eq]; exact ⟨⟨hst, hd⟩, ha⟩)]
    exact ⟨State.portState_portTo _ 2 (hp4 p), _, _, _, rfl, rfl⟩
  · rw [if_pos hl]
    simp only [hu, Bool.false_eq_true, if_false]
    exact ⟨_, _, rfl, rfl, rfl⟩
  · rw [if_pos (by rw [State.portLive, beq_iff_eq.1 hu]; rfl)]
    simp only [hu, if_true]
    exact ⟨_, congrArg CanPort.ctl (hinv.port_setPort (hp4 p) _), rfl⟩
  · exact .of (exec_helloRx_of_hello tr t hb hst) (State.takeHello_up (s := s.at t) (hp4 p) hst hok)
  · exact .of (exec_helloRx_of_hello tr t hb hst) (State.takeHello_mismatch (s := s.at t) (hp4 p) hst hok)
  · rw [if_pos hl]
    refine ⟨(State.portFail_completes _ (hp4 p)).1, (State.portFail_completes _ (hp4 p)).2, fun k h31 h32 => ?_⟩
    rw [State.canLane, State.lanes_portFail]
    refine State.locked_mapLanes s h32 fun l => ?_
    rw [if_pos h31]
    rfl
  · rw [if_pos (by rw [Bool.and_eq_true, decide_eq_true_eq]; exact ⟨hl, ht⟩)]
    exact State.portFail_completes _ (hp4 p)

end Sys2Proof.Machine
end

section
/-! SUPPORT. Packets received on a port in UP (R114 to R133): what the link's acceptance leaves, and what each kind of packet does. -/
namespace Sys2Proof.Machine

/-! ## The link's acceptance -/

@[simp] theorem State.setPort_setPort (s : State) (p : Nat) (c d : CanPort) : (s.setPort p c).setPort p d = s.setPort p d := by
  simp [State.setPort, setAt_setAt]

@[simp] theorem State.setPort_port (s : State) (p : Nat) : s.setPort p (s.port p) = s := by
  simp [State.setPort, State.port, setAt_atD]

@[simp] theorem State.regKey_setPort (s : State) (p : Nat) (c : CanPort) : (s.setPort p c).regKey = s.regKey := rfl

/-- c' is c but for what acceptance of a packet moves: numbering, replay and credits. -/
def CanPort.Receives (c c' : CanPort) : Prop :=
  c'.ctl = c.ctl ∧ c'.rtts = c.rtts ∧ c'.hello = c.hello

/-- Credits and an acknowledgement of a trailer change their port only. -/
theorem BlockInv.takeCredits {s : State} (h : BlockInv s) {p : Nat} (hp : p < 4) (tr : Trailer) :
    ∃ u, s.takeCredits p tr = s.setPort p { s.port p with credUsed := u } := by
  have hfold (l : List (Nat × Nat)) (u : Store Nat) : ∃ u', l.foldl (fun (s : State) (vc : Nat × Nat) =>
      s.setPort p { s.port p with credUsed := Store.set 0 (s.port p).credUsed vc.1 (Store.getD (s.port p).credUsed vc.1 0 - vc.2) })
        (s.setPort p { s.port p with credUsed := u }) = s.setPort p { s.port p with credUsed := u' } := by
    induction l generalizing u with
    | nil => exact ⟨u, rfl⟩
    | cons a l ih =>
      rw [List.foldl_cons, State.setPort_setPort, h.port_setPort hp]
      exact ih _
  obtain ⟨u, hu⟩ := hfold (tr.cred.take 3) (s.port p).credUsed
  rw [show s.setPort p { s.port p with credUsed := (s.port p).credUsed } = s from s.setPort_port p] at hu
  exact ⟨u, hu⟩

/-- What an acknowledgement without a NAK leaves of its port. -/
def CanPort.acked (c : CanPort) (tr : Trailer) (up : Nat) : CanPort :=
  let n := (c.held.takeWhile (fun h => Machine.acked tr.ack h.1.seq)).length
  if n = 0 then c
  else { c with held := c.held.drop n, replay := c.replay.filter (fun h => !Machine.acked tr.ack h.1.seq), rounds := 0, progressAt := up }

theorem State.takeAck_of_not_nak {s : State} {tr : Trailer} (p : Nat) (h : tr.nak = false) :
    s.takeAck p tr = s.setPort p ((s.port p).acked tr s.up) := by
  unfold State.takeAck
  rw [h]
  rfl

theorem CanPort.acked_keeps (c : CanPort) (tr : Trailer) (up : Nat) : c.Receives (c.acked tr up) ∧ (c.acked tr up).rxSeq = c.rxSeq := by
  unfold CanPort.acked
  dsimp only
  split <;> exact ⟨⟨rfl, rfl, rfl⟩, rfl⟩

theorem BlockInv.setPort {s : State} (h : BlockInv s) (p : Nat) (c : CanPort) : BlockInv (s.setPort p c) := by
  obtain ⟨h1, h2, h3, h4, h5, h6⟩ := h
  refine ⟨h1, h2, h3, h4, h5, ?_⟩
  simpa [Shape, State.setPort] using h6

/-- A packet that counts moves its port's numbering, replay and credits on, and nothing else. -/
theorem State.linkRx_of_acceptable {s : State} {p : Nat} {k : Packet} {tr : Trailer} (h : acceptable s p k tr) (f : State → State) :
    ∃ c', s.linkRx p k tr true f = f (s.setPort p c') ∧ (s.port p).Receives c' ∧ c'.rxSeq = ((s.port p).rxSeq + 1) % 65536 ∧
      (s.setPort p c').port p = c' := by
  obtain ⟨hp, hinv, hup, hseq, hnak⟩ := h
  have hlive : s.portLive p = true := by rw [State.portLive, beq_iff_eq.1 hup]; rfl
  obtain ⟨u, hu⟩ := (hinv.setPort p { s.port p with rxSeq := ((s.port p).rxSeq + 1) % 65536, nakSent := false, ackOwed := true }).takeCredits hp tr
  rw [hinv.port_setPort hp, State.setPort_setPort] at hu
  refine ⟨({ s.port p with rxSeq := ((s.port p).rxSeq + 1) % 65536, nakSent := false, ackOwed := true, credUsed := u } : CanPort).acked tr s.up, ?_,
    (CanPort.acked_keeps _ tr s.up).1, (CanPort.acked_keeps _ tr s.up).2, hinv.port_setPort hp _⟩
  have hack := State.takeAck_of_not_nak (s := s.setPort p { s.port p with rxSeq := ((s.port p).rxSeq + 1) % 65536, nakSent := false, ackOwed := true, credUsed := u }) p hnak
  rw [hinv.port_setPort hp, State.setPort_setPort] at hack
  unfold State.linkRx State.linkAccept
  simp only [hlive, hup, hseq, Bool.not_true, Bool.false_eq_true, if_false, if_true, hu, hack]
  exact if_pos hup

/-! ## What casts leave -/

@[simp] theorem State.regKey_queueCtls (s : State) (l : List Nat) (b : Body) :
    (s.each l (fun (s : State) q => s.queueCtl q b)).regKey = s.regKey := foldl_proj State.regKey (f := fun (s : State) q => s.queueCtl q b) (fun _ _ => rfl) l s

/-- A cast of an origin not heard of is noted, its event raised, and goes on: its effect comes on a state with the same engines. -/
theorem State.takeCast_of_new {s : State} {p : Nat} {c : Cast} (hnew : ∀ q ∈ s.can.castsSeen, q.1 ≠ c.origin) (f : State → State) :
    ∃ t : State, s.takeCast p c f = f t ∧ t.flag CAN.STAT_CAST_RX = true ∧
      (∀ g : Fld, g.reg ≠ CAN.STAT → g.reg / 65536 ≠ 29 → t.flag g = s.flag g ∧ t.fld g = s.fld g) := by
  have hlive : (s.can.castsSeen.filter (fun q => decide (s.up ≤ q.2.2 + 1000000000 * ns))).any (fun q => q.1 == c.origin && q.2.1 == c.cseq) = false := by
    rw [List.any_eq_false]
    intro q hq
    simp [hnew q (List.mem_of_mem_filter hq)]
  unfold State.takeCast
  simp only [hlive, Bool.false_eq_true, if_false]
  refine ⟨_, rfl, ?_, fun g hg h29 => ?_⟩
  · rw [(State.reads_of_regKey (State.regKey_queueCtls ..)).2.2.2]
    exact State.flag_raise _ _ (by decide) (by decide) (by decide)
  · rw [(State.reads_of_regKey (State.regKey_queueCtls ..)).2.2.2, (State.reads_of_regKey (State.regKey_queueCtls ..)).2.2.1,
      (State.fields_raise_ne (by decide) hg h29).1, (State.fields_raise_ne (by decide) hg h29).2]
    exact ⟨rfl, rfl⟩

/-! ## Bell words -/

/-- The port of bell words does not depend on a port's numbering, replay and credits. -/
theorem BlockInv.bellPort_setPort {s : State} (h : BlockInv s) {p : Nat} (hp : p < 4) {c : CanPort} (hc : (s.port p).Receives c) :
    (s.setPort p c).bellPort = s.bellPort := by
  obtain ⟨-, hrtts, hhello⟩ := hc
  have hport (q : Nat) : ((s.setPort p c).port q).rtts = (s.port q).rtts ∧ ((s.setPort p c).port q).hello = (s.port q).hello := by
    by_cases hq : q = p
    · rw [hq, h.port_setPort hp, hrtts, hhello]
      exact ⟨rfl, rfl⟩
    · have : (s.setPort p c).port q = s.port q := (atD_setAt _ _ _ _ _ (by obtain ⟨-, -, -, -, -, -, -, -, hl, -⟩ := h; omega)).trans (if_neg hq)
      rw [this]
      exact ⟨rfl, rfl⟩
  have hsrc : (s.setPort p c).bellSource = s.bellSource := by
    funext q
    rw [State.bellSource, State.bellSource, (hport q).1, (hport q).2]
    rfl
  unfold State.bellPort
  rw [hsrc]
  rfl

theorem State.bellWord_of_waiting {s : State} {p rx : Nat} {w : BellWord} (hlead : s.isLead = false) (hst : s.bellState = stWAIT_LEAD)
    (hport : s.bellPort = some p) : s.bellWord p w rx =
      if w.dNs * ns + w.dFrac ≠ s.frameLen then s.raise BEL.STAT_FLEN_MISMATCH
      else ((s.setFld BEL.STATUS_PARENT p).setFld BEL.STATUS_HOPS (1 + s.hopsTo0 (s.neighbour p))).adoptWord w
        (((rx : Int) - s.dIn p - w.txoff) * 2 ^ 29) := by
  unfold State.bellWord
  simp [hlead, hst, hport]

/-- An adopted word makes the engine acquire at its index. -/
theorem State.adoptWord_completes (s : State) (w : BellWord) (inst : Int) :
    (s.adoptWord w inst).bellState = stACQUIRE ∧ (s.adoptWord w inst).bell.baseIdx = w.index ∧
      (s.adoptWord w inst).regN BEL.T0_NS = w.t0Ns % 2 ^ 30 := by
  refine ⟨State.fld_setFld _ _ _ (by decide), rfl, ?_⟩
  unfold State.adoptWord State.setBellState
  dsimp only
  rw [(State.reads_setFld_ne _ (by decide)).2]
  show (((s.setRegN BEL.T0_NS (w.t0Ns % 2 ^ 30)).setRegN BEL.T0_SEC_LO _).setRegN BEL.T0_SEC_HI _).regN BEL.T0_NS = _
  rw [(State.reads_setRegN_ne _ (by decide)).2, (State.reads_setRegN_ne _ (by decide)).2, State.regN_setRegN _ _ (by omega)]

/-! ## DATA -/

theorem State.voq_enqueue (s : State) (k : Packet) (from? : Option Nat) : (s.enqueue k from?).voq (s.voqOf k) =
    s.voq (s.voqOf k) ++ [{ pkt := k, from? := from?, since := s.up, starved := false }] := by
  show Store.getD (if _ = [] then _ else _) _ _ = _
  rw [if_neg (by simp), Store.getD_put, if_pos rfl]

/-- A DATA packet for the device itself waits in its queue. -/
theorem State.voq_takeData {s : State} {k : Packet} (hr : s.routePort k = none) (hp : s.ownParked (s.frameOf k) = false) (p : Nat) :
    (s.takeData p k).voq (s.voqOf k) = s.voq (s.voqOf k) ++ [{ pkt := k, from? := some p, since := s.up, starved := false }] := by
  rw [State.takeData, hr]
  dsimp only
  rw [hp]
  exact s.voq_enqueue k (some p)

/-- A DATA packet for a port that is not UP is dropped. -/
theorem State.flag_takeData {s : State} {k : Packet} {q : Nat} (hr : s.routePort k = some q) (hq : s.portUp q = false) (p : Nat) :
    (s.takeData p k).flag CAN.STAT_ROUTE_DROP = true := by
  rw [State.takeData, hr]
  dsimp only
  rw [hq, if_neg Bool.false_ne_true, (State.reads_of_regKey (State.regKey_returnCredit ..)).2.2.2]
  exact State.flag_raise _ _ (by decide) (by decide) (by decide)

theorem State.voqOf_setPort (s : State) (p : Nat) (c : CanPort) (k : Packet) : (s.setPort p c).voqOf k = s.voqOf k := rfl

theorem State.voqOf_at (s : State) (t : Nat) (k : Packet) : (s.at t).voqOf k = s.voqOf k := rfl

theorem exec_dataPacketRx {p : Nat} {k : Packet} {l : List Byte} {s : State} (tr : Trailer) (ok : Bool) (t : Nat) (hb : k.body = .data l) :
    exec (.dataPacketRx p k tr ok t) s = .next ((s.at t).linkRx (p % 4) k tr ok (fun s => s.takeData (p % 4) k)) := by
  show execDataPacketRx p k tr ok t s = _
  unfold execDataPacketRx
  rw [hb]
  rfl

theorem exec_bellWordRx {p : Nat} {k : Packet} {w : BellWord} {s : State} (tr : Trailer) (rx t : Nat) (hb : k.body = .bell w) :
    exec (.bellWordRx p k tr true rx t) s = .next ((s.at t).linkRx (p % 4) k tr true (fun s => s.bellWord (p % 4) w rx)) := by
  show execBellWordRx p k tr true rx t s = _
  unfold execBellWordRx
  rw [hb]
  rfl

theorem exec_parkCastRx {p : Nat} {k : Packet} {c : Cast} {s : State} (tr : Trailer) (t : Nat) (hb : k.body = .cast c) (hk : c.ckind = 3) :
    exec (.parkCastRx p k tr true t) s =
      .next ((s.at t).linkRx (p % 4) k tr true (fun s => s.takeCast (p % 4) c (fun s => s.notePark c.origin c.bell))) := by
  show execParkCastRx p k tr true t s = _
  unfold execParkCastRx
  rw [hb]
  exact if_pos hk

/-- What a capture cast brings about on a device that takes them (R148). -/
def State.castTrigger (s : State) (c : Cast) : State :=
  if s.flag RRG.CTRL_CAST_EN ∧ (s.fld RRG.TRIG_EN).testBit 4 ∧ !s.isParked then
    { s with trigQ := s.trigQ ++ [{ source := 4, tag := c.tag, bell := c.bell, pre := c.pre, post := c.post, origin := c.origin }] }
  else s

/-- A packet whose CRC fails is counted. -/
theorem State.regN_crcFailed (s : State) (p : Nat) : (s.crcFailed p).regN (CAN.PORT_CRCERR p) = min (s.regN (CAN.PORT_CRCERR p) + 1) (2 ^ 32 - 1) := by
  have hnak (t : State) : (t.linkNak p).regN (CAN.PORT_CRCERR p) = t.regN (CAN.PORT_CRCERR p) := by
    unfold State.linkNak
    dsimp only
    split <;> rfl
  unfold State.crcFailed
  dsimp only
  split
  · rw [hnak, State.regN_bump]
  · exact State.regN_bump ..

theorem CanPort.held_acked (c : CanPort) (tr : Trailer) (up : Nat) :
    (c.acked tr up).held = c.held.dropWhile (fun h => Machine.acked tr.ack h.1.seq) := by
  have hdrop (l : List (Packet × Trailer)) : l.drop (l.takeWhile (fun h => Machine.acked tr.ack h.1.seq)).length =
      l.dropWhile (fun h => Machine.acked tr.ack h.1.seq) := by
    induction l with
    | nil => rfl
    | cons h l ih =>
      by_cases ha : Machine.acked tr.ack h.1.seq = true
      · simp [ha, ih]
      · simp [ha]
  rw [← hdrop]
  unfold CanPort.acked
  dsimp only
  split
  case isTrue h => rw [h, List.drop_zero]
  case isFalse => rfl

/-- Settles O9, kind by kind. -/
theorem packetReceptionCompletes : Obligations.packet_reception_completes := by
  refine ⟨fun p k tr t l s hb h hr hpk => ?_, fun p k tr t l q s hb h hr hq => ?_, fun p k tr t l s hb hl => ?_, fun p k tr t s h => ?_,
    fun p k tr t s hinv hc hn hup => ?_, fun p k tr rx t t1 s hb h => ?_, fun p k tr rx t t1 t2 t3 s hb h => ?_, fun p k tr rx t w s hb h hlead hst hport hd => ?_,
    fun p k tr rx t w s hb h hlead hst hport hd => ?_, fun p k tr t c s hb hk h hnew hen htr hpk => ?_, fun p k tr t c s hb hk h hnew => ?_,
    fun p k tr t c s hb hk h hnew h0 => ?_, fun p k tr t c s hb hk h hnew h0 => ?_⟩
  · refine .of (exec_dataPacketRx tr true t hb) ?_
    obtain ⟨c', he, -⟩ := State.linkRx_of_acceptable (s := s.at t) h (fun s => s.takeData (p % 4) k)
    have hq := State.voq_takeData (s := (s.at t).setPort (p % 4) c') hr hpk (p % 4)
    rw [State.voqOf_setPort, State.voqOf_at] at hq
    rw [he, hq]
    rfl
  · refine .of (exec_dataPacketRx tr true t hb) ?_
    obtain ⟨c', he, -⟩ := State.linkRx_of_acceptable (s := s.at t) h (fun s => s.takeData (p % 4) k)
    rw [he]
    exact State.flag_takeData (s := (s.at t).setPort (p % 4) c') hr hq (p % 4)
  · refine .of (exec_dataPacketRx tr false t hb) ?_
    have he : (s.at t).linkRx (p % 4) k tr false (fun s => s.takeData (p % 4) k) = (s.at t).crcFailed (p % 4) := by
      simp [State.linkRx, State.linkAccept, show (s.at t).portLive (p % 4) = true from hl]
    rw [he, State.regN_crcFailed]
    rfl
  · refine .of rfl ?_
    obtain ⟨c', he, -, hseq, hport⟩ := State.linkRx_of_acceptable (s := s.at t) h id
    rw [he]
    exact (congrArg CanPort.rxSeq hport).trans hseq
  · refine .of (u := (s.at t).takeAck (p % 4) tr) ?_ ?_
    · show execCreditPacketRx p k tr true t s = _
      unfold execCreditPacketRx
      rw [if_pos ⟨hc, rfl⟩, doneIf, show (s.at t).portUp (p % 4) = true from hup]
      rfl
    · rw [State.takeAck_of_not_nak _ hn, BlockInv.port_setPort (s := s.at t) hinv (Nat.mod_lt _ (by decide)), CanPort.held_acked]
      rfl
  · refine .of (u := (s.at t).linkRx (p % 4) k tr true (fun s => s.queueCtl (p % 4) (.probeReply t1 rx 0))) ?_ ?_
    · show execProbeRx p k tr true rx t s = _
      unfold execProbeRx
      rw [hb]
      rfl
    · obtain ⟨c', he, hkeep, -, hport⟩ := State.linkRx_of_acceptable (s := s.at t) h (fun s => s.queueCtl (p % 4) (.probeReply t1 rx 0))
      rw [he, State.queueCtl, hport, State.setPort_setPort, BlockInv.port_setPort (s := s.at t) h.2.1 h.1, hkeep.1]
      exact ⟨_, rfl, rfl⟩
  · refine .of (u := (s.at t).linkRx (p % 4) k tr true (fun s => s.takeExchange (p % 4) t1 t2 t3 rx)) ?_ ?_
    · show execProbeReplyRx p k tr true rx t s = _
      unfold execProbeReplyRx
      rw [hb]
      rfl
    · obtain ⟨c', he, hkeep, -, hport⟩ := State.linkRx_of_acceptable (s := s.at t) h (fun s => s.takeExchange (p % 4) t1 t2 t3 rx)
      have hshow (s : State) (q x : Nat) : (s.showDelay q).port x = s.port x := rfl
      rw [he, State.takeExchange]
      rw [hshow, hport, State.setPort_setPort, BlockInv.port_setPort (s := s.at t) h.2.1 h.1, hkeep.2.1]
      rfl
  · refine .of (exec_bellWordRx tr rx t hb) ?_
    obtain ⟨c', he, hkeep, -⟩ := State.linkRx_of_acceptable (s := s.at t) h (fun s => s.bellWord (p % 4) w rx)
    have hport' := (BlockInv.bellPort_setPort (s := s.at t) h.2.1 h.1 hkeep).trans hport
    have hd' : w.dNs * ns + w.dFrac = ((s.at t).setPort (p % 4) c').frameLen := hd
    rw [he, State.bellWord_of_waiting (s := (s.at t).setPort (p % 4) c') hlead hst hport', if_neg (not_not.2 hd')]
    exact State.adoptWord_completes ..
  · refine .of (exec_bellWordRx tr rx t hb) ?_
    obtain ⟨c', he, hkeep, -⟩ := State.linkRx_of_acceptable (s := s.at t) h (fun s => s.bellWord (p % 4) w rx)
    have hport' := (BlockInv.bellPort_setPort (s := s.at t) h.2.1 h.1 hkeep).trans hport
    have hd' : w.dNs * ns + w.dFrac ≠ ((s.at t).setPort (p % 4) c').frameLen := hd
    rw [he, State.bellWord_of_waiting (s := (s.at t).setPort (p % 4) c') hlead hst hport', if_pos hd']
    exact ⟨((State.fields_raise_ne (by decide) (by decide) (by decide)).1).trans hst, State.flag_raise _ _ (by decide) (by decide) (by decide)⟩
  · refine .of (u := (s.at t).linkRx (p % 4) k tr true (fun s => s.takeCast (p % 4) c (fun s => s.castTrigger c))) ?_ ?_
    · show execCaptureCastRx p k tr true t s = _
      unfold execCaptureCastRx
      rw [hb]
      dsimp only
      rw [if_pos hk]
      rfl
    · obtain ⟨c', he, -⟩ := State.linkRx_of_acceptable (s := s.at t) h (fun s => s.takeCast (p % 4) c (fun s => s.castTrigger c))
      obtain ⟨u, hu, hflag, hreads⟩ := State.takeCast_of_new (s := (s.at t).setPort (p % 4) c') (p := p % 4) hnew (fun s => s.castTrigger c)
      have hcond : u.flag RRG.CTRL_CAST_EN ∧ (u.fld RRG.TRIG_EN).testBit 4 ∧ !u.isParked :=
        ⟨((hreads _ (by decide) (by decide)).1).trans hen, by rw [(hreads RRG.TRIG_EN (by decide) (by decide)).2]; exact htr,
          by rw [State.isParked, (hreads PIT.STATUS_PARKED (by decide) (by decide)).1]; exact congrArg not hpk⟩
      rw [he, hu, State.castTrigger, if_pos hcond]
      exact ⟨hflag, _, rfl⟩
  · refine .of (u := (s.at t).linkRx (p % 4) k tr true (fun s => s.takeCast (p % 4) c (fun s => s.noteJoin c.origin c.bell))) ?_ ?_
    · show execJoinCastRx p k tr true t s = _
      unfold execJoinCastRx
      rw [hb]
      exact if_pos hk
    · obtain ⟨c', he, -⟩ := State.linkRx_of_acceptable (s := s.at t) h (fun s => s.takeCast (p % 4) c (fun s => s.noteJoin c.origin c.bell))
      obtain ⟨u, hu, hflag, -⟩ := State.takeCast_of_new (s := (s.at t).setPort (p % 4) c') (p := p % 4) hnew (fun s => s.noteJoin c.origin c.bell)
      rw [he, hu]
      exact ⟨hflag, List.mem_append_left _ (List.mem_cons_self ..)⟩
  · refine .of (exec_parkCastRx tr t hb hk) ?_
    obtain ⟨c', he, -⟩ := State.linkRx_of_acceptable (s := s.at t) h (fun s => s.takeCast (p % 4) c (fun s => s.notePark c.origin c.bell))
    obtain ⟨u, hu, hflag, -⟩ := State.takeCast_of_new (s := (s.at t).setPort (p % 4) c') (p := p % 4) hnew (fun s => s.notePark c.origin c.bell)
    rw [he, hu, State.notePark]
    simp only [h0, if_false]
    exact ⟨hflag, List.mem_append_left _ (List.mem_cons_self ..)⟩
  · refine .of (exec_parkCastRx tr t hb hk) ?_
    obtain ⟨c', he, -⟩ := State.linkRx_of_acceptable (s := s.at t) h (fun s => s.takeCast (p % 4) c (fun s => s.notePark c.origin c.bell))
    obtain ⟨u, hu, -⟩ := State.takeCast_of_new (s := (s.at t).setPort (p % 4) c') (p := p % 4) hnew (fun s => s.notePark c.origin c.bell)
    rw [he, hu, State.notePark]
    intro r hr hopen
    obtain ⟨r', -, rfl⟩ := List.mem_map.1 hr
    simp only [h0, beq_self_eq_true, Bool.true_or, Bool.and_true] at hopen ⊢
    split at hopen
    case isTrue ho => simp [ho]
    case isFalse ho => exact absurd hopen ho

end Sys2Proof.Machine
end

section
/-! SUPPORT. Frames: what an update of the state leaves alone, as one value of the state. A footprint names the blocks whose registers and the
fields whose values are free; registers of block 0x1D, IPEND of the clerk cores and what events deliver are free in every frame. -/
namespace Sys2Proof.Machine

/-- What a frame leaves free: the registers of some blocks, and fields of the state. -/
structure Foot where
  blocks : List Nat
  lt : ∀ b ∈ blocks, b < 32 := by decide
  mem : Bool := false
  bell : Bool := false
  latch : Bool := false
  frameFlags : Bool := false
  skips : Bool := false
  evts : Bool := false
  ing : Bool := false
  front : Bool := false
  chan : Bool := false
  pit : Bool := false
  can : Bool := false
  ring : Bool := false
  dram : Bool := false
  outs : Bool := false
  corr : Bool := false
  aisle : Bool := false
  crown : Bool := false
  cal : Bool := false
  clk : Bool := false
  mel : Bool := false
  ptp : Bool := false
  pwr : Bool := false
  led : Bool := false
  thm : Bool := false
  sec : Bool := false
  cfg : Bool := false
  mtx : Bool := false
  items : Bool := false
  ended : Bool := false
  shed : Bool := false
  msixMask : Bool := false
  alertDirect : Bool := false

/-- A value, unless it is free. -/
def unlessFree {α : Type} (free : Bool) (x : α) : Option α := if free then none else some x

/-- What a footprint leaves of a state. -/
structure Still where
  fixed : Part × Nat × List SchedEntry × Otp × Store Nat × List Porter × Pmc × List Instr
  reg : Reg → Option Word
  core : Nat → Core × (Nat → Option Nat)
  mem : Option (List Host.Cell)
  bell : Option BellEng
  latch : Option (Store Word)
  frameFlags : Option (Store Nat)
  skips : Option (Store Nat)
  evts : Option (List EvtEntry × Bool)
  ing : Option Ingest
  front : Option Front
  chan : Option Channelizer
  pit : Option PitchCall
  can : Option Canopy
  ring : Option Ring
  dram : Option Dram
  outs : Option Outs
  corr : Option Corr
  aisle : Option Aisle
  crown : Option Crown
  cal : Option CalEng
  clk : Option Clk
  mel : Option MelEng
  ptp : Option PtpEng
  pwr : Option Power
  led : Option Ledger
  thm : Option (List Sensor)
  sec : Option SecEng
  cfg : Option Loader
  mtx : Option Matrix
  items : Option (List Nat × List Nat)
  ended : Option (List Nat)
  shed : Option (List Nat × List Nat)
  msixMask : Option Nat
  alertDirect : Option Bool

/-- A clerk core without IPEND. -/
def Core.sansPend (c : Core) : Core × (Nat → Option Nat) := ({ c with r := [] }, fun k => if k = 0x4B then none else Store.get? c.r k)

/-- What the footprint F leaves of s. -/
def State.still (F : Foot) (s : State) : Still where
  fixed := (s.part, s.serial, s.schedule, s.otp, s.flash, s.por, s.pmc, s.pending)
  reg r := if r / 65536 ∈ F.blocks ∨ r / 65536 = 29 then none else some (s.reg r)
  core n := (s.core n).sansPend
  mem := unlessFree F.mem s.mem
  bell := unlessFree F.bell s.bell
  latch := unlessFree F.latch s.latch
  frameFlags := unlessFree F.frameFlags s.frameFlags
  skips := unlessFree F.skips s.skips
  evts := unlessFree F.evts (s.evts, s.evtLoss)
  ing := unlessFree F.ing s.ing
  front := unlessFree F.front s.front
  chan := unlessFree F.chan s.chan
  pit := unlessFree F.pit s.pit
  can := unlessFree F.can s.can
  ring := unlessFree F.ring s.ring
  dram := unlessFree F.dram s.dram
  outs := unlessFree F.outs s.outs
  corr := unlessFree F.corr s.corr
  aisle := unlessFree F.aisle s.aisle
  crown := unlessFree F.crown s.crown
  cal := unlessFree F.cal s.cal
  clk := unlessFree F.clk s.clk
  mel := unlessFree F.mel { s.mel with offset := 0 }
  ptp := unlessFree F.ptp s.ptp
  pwr := unlessFree F.pwr s.pwr
  led := unlessFree F.led s.led
  thm := unlessFree F.thm s.thm
  sec := unlessFree F.sec s.sec
  cfg := unlessFree F.cfg s.cfg
  mtx := unlessFree F.mtx s.mtx
  items := unlessFree F.items (s.started, s.pushed)
  ended := unlessFree F.ended s.ended
  shed := unlessFree F.shed (s.shed, s.deferred)
  msixMask := unlessFree F.msixMask s.msixMask
  alertDirect := unlessFree F.alertDirect s.alertDirect

variable {F : Foot}

/-! ## Updates of fields -/

/-- An update of the fields that F leaves free: registers and cores apart. -/
theorem State.still_mk {t : State} {now up mem sent free bell latch frameFlags skips evts evtLoss ing front chan
    pit can ring dram outs corr aisle crown cal clk mel ptp pwr led thm sec cfg mtx shed deferred started ended
    pushed trigQ msixMask msixPend porTrig alertDirect}
    (hmem : F.mem = true ∨ mem = t.mem) (hbell : F.bell = true ∨ bell = t.bell) (hlatch : F.latch = true ∨ latch = t.latch)
    (hff : F.frameFlags = true ∨ frameFlags = t.frameFlags) (hskips : F.skips = true ∨ skips = t.skips)
    (hevts : F.evts = true ∨ evts = t.evts ∧ evtLoss = t.evtLoss) (hing : F.ing = true ∨ ing = t.ing) (hfront : F.front = true ∨ front = t.front)
    (hchan : F.chan = true ∨ chan = t.chan) (hpit : F.pit = true ∨ pit = t.pit) (hcan : F.can = true ∨ can = t.can)
    (hring : F.ring = true ∨ ring = t.ring) (hdram : F.dram = true ∨ dram = t.dram) (houts : F.outs = true ∨ outs = t.outs)
    (hcorr : F.corr = true ∨ corr = t.corr) (haisle : F.aisle = true ∨ aisle = t.aisle) (hcrown : F.crown = true ∨ crown = t.crown)
    (hcal : F.cal = true ∨ cal = t.cal) (hclk : F.clk = true ∨ clk = t.clk)
    (hmel : F.mel = true ∨ { mel with offset := 0 } = ({ t.mel with offset := 0 } : MelEng))
    (hptp : F.ptp = true ∨ ptp = t.ptp) (hpwr : F.pwr = true ∨ pwr = t.pwr) (hled : F.led = true ∨ led = t.led)
    (hthm : F.thm = true ∨ thm = t.thm) (hsec : F.sec = true ∨ sec = t.sec) (hcfg : F.cfg = true ∨ cfg = t.cfg)
    (hmtx : F.mtx = true ∨ mtx = t.mtx) (hitems : F.items = true ∨ started = t.started ∧ pushed = t.pushed)
    (hended : F.ended = true ∨ ended = t.ended)
    (hshed : F.shed = true ∨ shed = t.shed ∧ deferred = t.deferred) (hmask : F.msixMask = true ∨ msixMask = t.msixMask)
    (halert : F.alertDirect = true ∨ alertDirect = t.alertDirect) :
    (State.mk t.part t.serial now up t.regs mem sent free bell latch frameFlags skips evts evtLoss ing front chan t.schedule
      pit can ring dram outs corr aisle crown cal clk mel ptp pwr led thm t.otp sec cfg mtx t.flash t.por t.pmc shed deferred t.cores started ended
      pushed trigQ msixMask msixPend porTrig alertDirect t.pending).still F = t.still F := by
  have hfree {α : Type} {b : Bool} {x y : α} (h : b = true ∨ x = y) : unlessFree b x = unlessFree b y := by
    obtain rfl | rfl := h <;> rfl
  have hpair {α β : Type} {b : Bool} {x y : α} {z w : β} (h : b = true ∨ x = y ∧ z = w) : unlessFree b (x, z) = unlessFree b (y, w) :=
    hfree (h.imp_right fun ⟨hx, hz⟩ => by rw [hx, hz])
  have hregs (r : Reg) : (State.mk t.part t.serial now up t.regs mem sent free bell latch frameFlags skips evts evtLoss ing front chan t.schedule
      pit can ring dram outs corr aisle crown cal clk mel ptp pwr led thm t.otp sec cfg mtx t.flash t.por t.pmc shed deferred t.cores started ended
      pushed trigQ msixMask msixPend porTrig alertDirect t.pending).reg r = t.reg r := rfl
  have hcores (n : Nat) : (State.mk t.part t.serial now up t.regs mem sent free bell latch frameFlags skips evts evtLoss ing front chan t.schedule
      pit can ring dram outs corr aisle crown cal clk mel ptp pwr led thm t.otp sec cfg mtx t.flash t.por t.pmc shed deferred t.cores started ended
      pushed trigQ msixMask msixPend porTrig alertDirect t.pending).core n = t.core n := rfl
  simp only [State.still, hregs, hcores, hfree hmem, hfree hbell, hfree hlatch, hfree hff, hfree hskips, hpair hevts, hfree hing, hfree hfront,
    hfree hchan, hfree hpit, hfree hcan, hfree hring, hfree hdram, hfree houts, hfree hcorr, hfree haisle, hfree hcrown, hfree hcal, hfree hclk,
    hfree hmel, hfree hptp, hfree hpwr, hfree hled, hfree hthm, hfree hsec, hfree hcfg, hfree hmtx, hfree hmask, hfree halert, hpair hshed, hpair hitems, hfree hended]

/-- s with what F leaves free and what events deliver taken from u. -/
def State.overlay (F : Foot) (s u : State) : State :=
  { s.eventsFrom u with
    mem := if F.mem then u.mem else s.mem
    bell := if F.bell then u.bell else s.bell
    latch := if F.latch then u.latch else s.latch
    frameFlags := if F.frameFlags then u.frameFlags else s.frameFlags
    skips := if F.skips then u.skips else s.skips
    evts := if F.evts then u.evts else s.evts
    evtLoss := if F.evts then u.evtLoss else s.evtLoss
    ing := if F.ing then u.ing else s.ing
    front := if F.front then u.front else s.front
    chan := if F.chan then u.chan else s.chan
    pit := if F.pit then u.pit else s.pit
    can := if F.can then u.can else s.can
    ring := if F.ring then u.ring else s.ring
    dram := if F.dram then u.dram else s.dram
    outs := if F.outs then u.outs else s.outs
    corr := if F.corr then u.corr else s.corr
    aisle := if F.aisle then u.aisle else s.aisle
    crown := if F.crown then u.crown else s.crown
    cal := if F.cal then u.cal else s.cal
    clk := if F.clk then u.clk else s.clk
    mel := if F.mel then u.mel else { s.mel with offset := u.mel.offset }
    ptp := if F.ptp then u.ptp else s.ptp
    pwr := if F.pwr then u.pwr else s.pwr
    led := if F.led then u.led else s.led
    thm := if F.thm then u.thm else s.thm
    sec := if F.sec then u.sec else s.sec
    cfg := if F.cfg then u.cfg else s.cfg
    mtx := if F.mtx then u.mtx else s.mtx
    started := if F.items then u.started else s.started
    ended := if F.ended then u.ended else s.ended
    pushed := if F.items then u.pushed else s.pushed
    shed := if F.shed then u.shed else s.shed
    deferred := if F.shed then u.deferred else s.deferred
    msixMask := if F.msixMask then u.msixMask else s.msixMask
    alertDirect := if F.alertDirect then u.alertDirect else s.alertDirect }

theorem eq_ite_of_unlessFree {α : Type} {b : Bool} {x y : α} (h : unlessFree b x = unlessFree b y) : x = if b then x else y := by
  cases b
  · exact Option.some.inj h
  · rfl

theorem fields_eq_of_unlessFree {α β : Type} {b : Bool} {x y : α × β} (h : unlessFree b x = unlessFree b y) :
    x.1 = (if b then x.1 else y.1) ∧ x.2 = if b then x.2 else y.2 := by
  cases b
  · rw [Option.some.inj h]
    exact ⟨rfl, rfl⟩
  · exact ⟨rfl, rfl⟩

/-- What F leaves alone, the cores apart, comes from s. -/
theorem State.eq_overlay {s u : State} {k : Nat → Core × (Nat → Option Nat)} (h : { u.still F with core := k } = { s.still F with core := k }) :
    u = s.overlay F u := by
  have hget {α : Type} (get : Still → α) : get { u.still F with core := k } = get { s.still F with core := k } := congrArg get h
  obtain ⟨hpart, hserial, hsched, hotp, hflash, hpor, hpmc, hpend⟩ : u.part = s.part ∧ u.serial = s.serial ∧ u.schedule = s.schedule ∧ u.otp = s.otp ∧
      u.flash = s.flash ∧ u.por = s.por ∧ u.pmc = s.pmc ∧ u.pending = s.pending := by simpa [State.still] using hget Still.fixed
  have hmel : u.mel = if F.mel then u.mel else { s.mel with offset := u.mel.offset } := by
    have := hget Still.mel
    unfold State.still unlessFree at this
    cases hF : F.mel
    · simp only [hF, Bool.false_eq_true, if_false, Option.some.injEq] at this
      exact congrArg (fun m : MelEng => { m with offset := u.mel.offset }) this
    · rfl
  obtain ⟨hstart, hpush⟩ := fields_eq_of_unlessFree (hget Still.items)
  obtain ⟨hevts, hloss⟩ := fields_eq_of_unlessFree (hget Still.evts)
  obtain ⟨hshed, hdef⟩ := fields_eq_of_unlessFree (hget Still.shed)
  have hf {α : Type} {b : Bool} {x y : α} (h : unlessFree b x = unlessFree b y) := eq_ite_of_unlessFree h
  calc u = { u with part := s.part, serial := s.serial, schedule := s.schedule, otp := s.otp, flash := s.flash, por := s.por, pmc := s.pmc,
                    pending := s.pending } := by rw [← hpart, ← hserial, ← hsched, ← hotp, ← hflash, ← hpor, ← hpmc, ← hpend]
    _ = s.overlay F u := by
      unfold State.overlay State.eventsFrom
      congr 1
      · exact hf (hget Still.mem)
      · exact hf (hget Still.bell)
      · exact hf (hget Still.latch)
      · exact hf (hget Still.frameFlags)
      · exact hf (hget Still.skips)
      · exact hf (hget Still.ing)
      · exact hf (hget Still.front)
      · exact hf (hget Still.chan)
      · exact hf (hget Still.pit)
      · exact hf (hget Still.can)
      · exact hf (hget Still.ring)
      · exact hf (hget Still.dram)
      · exact hf (hget Still.outs)
      · exact hf (hget Still.corr)
      · exact hf (hget Still.aisle)
      · exact hf (hget Still.crown)
      · exact hf (hget Still.cal)
      · exact hf (hget Still.clk)
      · exact hf (hget Still.ptp)
      · exact hf (hget Still.pwr)
      · exact hf (hget Still.led)
      · exact hf (hget Still.thm)
      · exact hf (hget Still.sec)
      · exact hf (hget Still.cfg)
      · exact hf (hget Still.mtx)
      · exact hf (hget Still.ended)
      · exact hf (hget Still.msixMask)
      · exact hf (hget Still.alertDirect)

theorem State.regsKept_of_still {s u : State} (h : u.still F = s.still F) : RegsKept F.blocks s u := by
  intro r hr h29
  have := congrFun (congrArg Still.reg h) r
  simp only [State.still, hr, h29, or_self, if_false, Option.some.injEq] at this
  exact this

theorem State.coreKept_of_still {s u : State} (h : u.still F = s.still F) (n : Nat) : CoreKept s u n := by
  have hn := congrFun (congrArg Still.core h) n
  obtain ⟨hc, hr⟩ := Prod.mk.inj hn
  refine ⟨hc, fun k hk => ?_⟩
  have := congrFun hr k
  simpa only [hk, if_false] using this

theorem State.framed_of_still {s u : State} (h : u.still F = s.still F) : Framed F.blocks s u (s.overlay F u) :=
  ⟨State.eq_overlay (k := (s.still F).core) (congrArg (fun x : Still => { x with core := (s.still F).core }) h), State.regsKept_of_still h, State.coreKept_of_still h⟩

end Sys2Proof.Machine
end

section
/-! SUPPORT. What the shared operations leave of a state: registers, events, time, the engines' setters, conditions and repetitions. -/
namespace Sys2Proof.Machine

variable {F : Foot}

/-- What changes registers of free blocks and delivers events is in the frame. -/
theorem State.still_of_events {s u : State} (h : u = s.eventsFrom u) (hr : RegsKept F.blocks s u) (hc : ∀ n, CoreKept s u n) :
    u.still F = s.still F := by
  have hreg : (u.still F).reg = (s.still F).reg := by
    funext r
    by_cases hn : r / 65536 ∈ F.blocks ∨ r / 65536 = 29
    · exact (if_pos hn).trans (if_pos hn).symm
    · exact (if_neg hn).trans ((congrArg some (hr r (fun hb => hn (.inl hb)) (fun h29 => hn (.inr h29)))).trans (if_neg hn).symm)
  have hcore : (u.still F).core = (s.still F).core := by
    funext n
    obtain ⟨hn, hk⟩ := hc n
    refine Prod.ext hn (funext fun k => ?_)
    by_cases h : k = 0x4B
    · exact (if_pos h).trans (if_pos h).symm
    · exact (if_neg h).trans ((hk k h).trans (if_neg h).symm)
  have hrest : u.still F = { (s.eventsFrom u).still F with reg := (u.still F).reg, core := (u.still F).core } := by rw [← h]
  rw [hrest, hreg, hcore]
  rfl

theorem State.still_setReg {s : State} {r : Reg} (h : r / 65536 ∈ F.blocks) (v : Word) : (s.setReg r v).still F = s.still F :=
  State.still_of_events rfl (fun x hx _ => s.reg_setReg_ne v (by rintro rfl; exact hx h)) (fun _ => .of_cores rfl _)

/-- Updates of registers of a free block. -/
@[simp] theorem State.still_regs {s : State} {r : Reg} (h : r / 65536 ∈ F.blocks) :
    (∀ v, (s.setReg r v).still F = s.still F) ∧ (∀ n, (s.setRegN r n).still F = s.still F) ∧ ∀ k, (s.bump r k).still F = s.still F :=
  ⟨State.still_setReg h, fun _ => State.still_setReg h _, fun _ => State.still_setReg h _⟩

@[simp] theorem State.still_flds {s : State} {f : Fld} (h : f.reg / 65536 ∈ F.blocks) :
    (∀ n, (s.setFld f n).still F = s.still F) ∧ ∀ b, (s.setFlag f b).still F = s.still F :=
  ⟨fun _ => State.still_setReg h _, fun _ => State.still_setReg h _⟩

@[simp] theorem State.still_setPair {s : State} {lo hi : Reg} (n : Nat) (hlo : lo / 65536 ∈ F.blocks) (hhi : hi / 65536 ∈ F.blocks) :
    (s.setPair lo hi n).still F = s.still F := (State.still_setReg hhi _).trans (State.still_setReg hlo _)

@[simp] theorem State.still_raise {s : State} {f : Fld} (h : f.reg / 65536 ∈ F.blocks) : (s.raise f).still F = s.still F :=
  State.still_of_events rfl (fun _ hx h29 => s.reg_raise_ne f (F.lt _ h) (by rintro rfl; exact hx h) h29) (s.coreKept_raise f)

@[simp] theorem State.still_raiseIf {s : State} {f : Fld} (c : Bool) (h : f.reg / 65536 ∈ F.blocks) : (s.raiseIf c f).still F = s.still F := by
  cases c
  · rfl
  · exact State.still_raise h

/-- Pulses, counted events, time, free values and what leaves the device are in every frame. -/
@[simp] theorem State.still_events (s : State) :
    (∀ k, (s.pulse k).still F = s.still F) ∧ (∀ t, (s.at t).still F = s.still F) ∧ (∀ w, (s.fresh w).2.still F = s.still F) ∧
    (∀ o, (s.emit o).still F = s.still F) ∧ ∀ l, (s.emitAll l).still F = s.still F :=
  ⟨fun k => State.still_of_events rfl (fun _ _ _ => rfl) (s.coreKept_pulse k), fun _ => rfl, fun _ => rfl, fun _ => rfl, fun _ => rfl⟩

@[simp] theorem State.still_count {s : State} {b : Nat} (code k : Nat) (hb : b < 32) : (s.count b code k).still F = s.still F :=
  State.still_of_events rfl ((regsKept_count s code k hb).mono (List.nil_subset _)) (fun _ => .of_cores rfl _)

/-! ## Free fields -/

section
variable {s : State}

@[simp] theorem State.still_can (h : F.can = true) (x : Canopy) : ({ s with can := x } : State).still F = s.still F := by
  unfold State.still
  rw [h]
  rfl

@[simp] theorem State.still_ring (h : F.ring = true) (x : Ring) : ({ s with ring := x } : State).still F = s.still F := by
  unfold State.still
  rw [h]
  rfl

@[simp] theorem State.still_dram (h : F.dram = true) (x : Dram) : ({ s with dram := x } : State).still F = s.still F := by
  unfold State.still
  rw [h]
  rfl

@[simp] theorem State.still_outs (h : F.outs = true) (x : Outs) : ({ s with outs := x } : State).still F = s.still F := by
  unfold State.still
  rw [h]
  rfl

@[simp] theorem State.still_corr (h : F.corr = true) (x : Corr) : ({ s with corr := x } : State).still F = s.still F := by
  unfold State.still
  rw [h]
  rfl

@[simp] theorem State.still_aisle (h : F.aisle = true) (x : Aisle) : ({ s with aisle := x } : State).still F = s.still F := by
  unfold State.still
  rw [h]
  rfl

@[simp] theorem State.still_crown (h : F.crown = true) (x : Crown) : ({ s with crown := x } : State).still F = s.still F := by
  unfold State.still
  rw [h]
  rfl

@[simp] theorem State.still_cal (h : F.cal = true) (x : CalEng) : ({ s with cal := x } : State).still F = s.still F := by
  unfold State.still
  rw [h]
  rfl

@[simp] theorem State.still_mel (h : F.mel = true) (x : MelEng) : ({ s with mel := x } : State).still F = s.still F := by
  unfold State.still
  rw [h]
  rfl

@[simp] theorem State.still_ptp (h : F.ptp = true) (x : PtpEng) : ({ s with ptp := x } : State).still F = s.still F := by
  unfold State.still
  rw [h]
  rfl

@[simp] theorem State.still_pwr (h : F.pwr = true) (x : Power) : ({ s with pwr := x } : State).still F = s.still F := by
  unfold State.still
  rw [h]
  rfl

@[simp] theorem State.still_led (h : F.led = true) (x : Ledger) : ({ s with led := x } : State).still F = s.still F := by
  unfold State.still
  rw [h]
  rfl

@[simp] theorem State.still_cfg (h : F.cfg = true) (x : Loader) : ({ s with cfg := x } : State).still F = s.still F := by
  unfold State.still
  rw [h]
  rfl

@[simp] theorem State.still_mtx (h : F.mtx = true) (x : Matrix) : ({ s with mtx := x } : State).still F = s.still F := by
  unfold State.still
  rw [h]
  rfl

@[simp] theorem State.still_bell (h : F.bell = true) (x : BellEng) : ({ s with bell := x } : State).still F = s.still F := by
  unfold State.still
  rw [h]
  rfl

@[simp] theorem State.still_sec (h : F.sec = true) (x : SecEng) : ({ s with sec := x } : State).still F = s.still F := by
  unfold State.still
  rw [h]
  rfl

@[simp] theorem State.still_ing (h : F.ing = true) (x : Ingest) : ({ s with ing := x } : State).still F = s.still F := by
  unfold State.still
  rw [h]
  rfl

@[simp] theorem State.still_front (h : F.front = true) (x : Front) : ({ s with front := x } : State).still F = s.still F := by
  unfold State.still
  rw [h]
  rfl

@[simp] theorem State.still_chan (h : F.chan = true) (x : Channelizer) : ({ s with chan := x } : State).still F = s.still F := by
  unfold State.still
  rw [h]
  rfl

@[simp] theorem State.still_pit (h : F.pit = true) (x : PitchCall) : ({ s with pit := x } : State).still F = s.still F := by
  unfold State.still
  rw [h]
  rfl

@[simp] theorem State.still_clk (h : F.clk = true) (x : Clk) : ({ s with clk := x } : State).still F = s.still F := by
  unfold State.still
  rw [h]
  rfl

@[simp] theorem State.still_thm (h : F.thm = true) (x : List Sensor) : ({ s with thm := x } : State).still F = s.still F := by
  unfold State.still
  rw [h]
  rfl

@[simp] theorem State.still_latch (h : F.latch = true) (x : Store Word) : ({ s with latch := x } : State).still F = s.still F := by
  unfold State.still
  rw [h]
  rfl

@[simp] theorem State.still_frameFlags (h : F.frameFlags = true) (x : Store Nat) : ({ s with frameFlags := x } : State).still F = s.still F := by
  unfold State.still
  rw [h]
  rfl

@[simp] theorem State.still_skips (h : F.skips = true) (x : Store Nat) : ({ s with skips := x } : State).still F = s.still F := by
  unfold State.still
  rw [h]
  rfl

@[simp] theorem State.still_msixMask (h : F.msixMask = true) (x : Nat) : ({ s with msixMask := x } : State).still F = s.still F := by
  unfold State.still
  rw [h]
  rfl

@[simp] theorem State.still_alertDirect (h : F.alertDirect = true) (x : Bool) : ({ s with alertDirect := x } : State).still F = s.still F := by
  unfold State.still
  rw [h]
  rfl

@[simp] theorem State.still_setCan (h : F.can = true) (x : Canopy) : (s.setCan x).still F = s.still F := State.still_can h x

@[simp] theorem State.still_setRing (h : F.ring = true) (x : Ring) : (s.setRing x).still F = s.still F := State.still_ring h x

@[simp] theorem State.still_setDram (h : F.dram = true) (x : Dram) : (s.setDram x).still F = s.still F := State.still_dram h x

@[simp] theorem State.still_setOuts (h : F.outs = true) (x : Outs) : (s.setOuts x).still F = s.still F := State.still_outs h x

@[simp] theorem State.still_setCorr (h : F.corr = true) (x : Corr) : (s.setCorr x).still F = s.still F := State.still_corr h x

@[simp] theorem State.still_setAisle (h : F.aisle = true) (x : Aisle) : (s.setAisle x).still F = s.still F := State.still_aisle h x

@[simp] theorem State.still_setCrown (h : F.crown = true) (x : Crown) : (s.setCrown x).still F = s.still F := State.still_crown h x

@[simp] theorem State.still_setCal (h : F.cal = true) (x : CalEng) : (s.setCal x).still F = s.still F := State.still_cal h x

@[simp] theorem State.still_setMel (h : F.mel = true) (x : MelEng) : (s.setMel x).still F = s.still F := State.still_mel h x

@[simp] theorem State.still_setPtp (h : F.ptp = true) (x : PtpEng) : (s.setPtp x).still F = s.still F := State.still_ptp h x

@[simp] theorem State.still_setPwr (h : F.pwr = true) (x : Power) : (s.setPwr x).still F = s.still F := State.still_pwr h x

@[simp] theorem State.still_setLed (h : F.led = true) (x : Ledger) : (s.setLed x).still F = s.still F := State.still_led h x

@[simp] theorem State.still_setCfg (h : F.cfg = true) (x : Loader) : (s.setCfg x).still F = s.still F := State.still_cfg h x

@[simp] theorem State.still_setMtx (h : F.mtx = true) (x : Matrix) : (s.setMtx x).still F = s.still F := State.still_mtx h x

@[simp] theorem State.still_setBell (h : F.bell = true) (x : BellEng) : (s.setBell x).still F = s.still F := State.still_bell h x

@[simp] theorem State.still_setSec (h : F.sec = true) (x : SecEng) : (s.setSec x).still F = s.still F := State.still_sec h x

/-- What events and time deliver besides. -/
@[simp] theorem State.still_delivered (s : State) :
    (∀ l, ({ s with trigQ := l } : State).still F = s.still F) ∧ (∀ l, ({ s with porTrig := l } : State).still F = s.still F) ∧
    (∀ l, ({ s with sent := l } : State).still F = s.still F) ∧ ∀ n, ({ s with msixPend := n } : State).still F = s.still F :=
  ⟨fun _ => rfl, fun _ => rfl, fun _ => rfl, fun _ => rfl⟩

@[simp] theorem State.still_evts (h : F.evts = true) :
    (∀ l, ({ s with evts := l } : State).still F = s.still F) ∧ ∀ b, ({ s with evtLoss := b } : State).still F = s.still F := by
  unfold State.still
  rw [h]
  exact ⟨fun _ => rfl, fun _ => rfl⟩

@[simp] theorem State.still_items (h : F.items = true) :
    (∀ l, ({ s with started := l } : State).still F = s.still F) ∧ ∀ l, ({ s with pushed := l } : State).still F = s.still F := by
  unfold State.still
  rw [h]
  exact ⟨fun _ => rfl, fun _ => rfl⟩

@[simp] theorem State.still_ended (h : F.ended = true) (l : List Nat) : ({ s with ended := l } : State).still F = s.still F := by
  unfold State.still
  rw [h]
  rfl

@[simp] theorem State.still_mem (h : F.mem = true) (l : List Host.Cell) : ({ s with mem := l } : State).still F = s.still F := by
  unfold State.still
  rw [h]
  rfl

@[simp] theorem State.still_memory (h : F.mem = true) : (∀ a l, (s.write a l).still F = s.still F) ∧
    (∀ a n v, (s.writeN a n v).still F = s.still F) ∧ ∀ a n, (s.clear a n).still F = s.still F :=
  ⟨fun _ _ => State.still_mem h _, fun _ _ _ => State.still_mem h _, fun _ _ => State.still_mem h _⟩

end

/-! ## Conditions and repetitions -/

@[simp] theorem State.still_ite {c : Prop} {_ : Decidable c} (a b : State) :
    (if c then a else b).still F = if c then a.still F else b.still F := apply_ite _ _ _ _

@[simp] theorem State.still_ite_fst {α : Type} {c : Prop} {_ : Decidable c} (a b : State × α) :
    (if c then a else b).1.still F = if c then a.1.still F else b.1.still F := apply_ite (fun x : State × α => x.1.still F) _ _ _

@[simp] theorem State.still_ite_snd {α : Type} {c : Prop} {_ : Decidable c} (a b : α × State) :
    (if c then a else b).2.still F = if c then a.2.still F else b.2.still F := apply_ite (fun x : α × State => x.2.still F) _ _ _

@[simp] theorem State.still_when (s : State) (c : Bool) {f : State → State} (h : (f s).still F = s.still F) :
    (s.when c f).still F = s.still F := by
  cases c
  · rfl
  · exact h

/-- A fold whose steps keep the state that `get` finds in what it carries. -/
theorem still_foldl_get {α β : Type} (get : β → State) {f : β → α → β} (l : List α) (b : β)
    (h : ∀ b, ∀ x ∈ l, (get (f b x)).still F = (get b).still F) : (get (l.foldl f b)).still F = (get b).still F := by
  induction l generalizing b with
  | nil => rfl
  | cons x l ih =>
    exact (ih (f b x) fun b y hy => h b y (List.mem_cons_of_mem _ hy)).trans (h b x List.mem_cons_self)

@[simp] theorem State.still_foldl {α : Type} (s : State) (l : List α) {f : State → α → State}
    (h : ∀ t x, (f t x).still F = t.still F) : (l.foldl f s).still F = s.still F := still_foldl_get id l s fun t x _ => h t x

@[simp] theorem State.still_each {α : Type} (s : State) (l : List α) {f : State → α → State}
    (h : ∀ t x, (f t x).still F = t.still F) : (s.each l f).still F = s.still F := s.still_foldl l h

theorem State.still_each_mem {α : Type} (s : State) (l : List α) {f : State → α → State}
    (h : ∀ t, ∀ x ∈ l, (f t x).still F = t.still F) : (s.each l f).still F = s.still F := still_foldl_get id l s fun t x hx => h t x hx

/-! ## Commands -/

/-- The outcome o keeps what F leaves of s. -/
def Stays (F : Foot) (s : State) (o : Out3) : Prop := ∀ u, o = .next u → u.still F = s.still F

@[simp] theorem stays_next (s t : State) : Stays F s (.next t) ↔ t.still F = s.still F :=
  ⟨fun h => h t rfl, fun h u hu => by cases hu; exact h⟩

@[simp] theorem stays_done (s t : State) : Stays F s (done t) ↔ t.still F = s.still F := stays_next s t

theorem Stays.doneIf {s t : State} {c : Bool} {f : State → State} (ht : t.still F = s.still F) (hf : (f t).still F = t.still F) :
    Stays F s (Machine.doneIf t c f) := by
  cases c
  · exact (stays_done s t).2 ht
  · exact (stays_done s (f t)).2 (hf.trans ht)

@[simp] theorem stays_doneIf (s t : State) (c : Bool) (f : State → State) :
    Stays F s (Machine.doneIf t c f) ↔ (if c then (f t).still F else t.still F) = s.still F := by
  cases c
  · exact stays_done s t
  · exact stays_done s (f t)

end Sys2Proof.Machine
end

section
/-! SUPPORT. Frames of the lanes, the groups and the front end's samples: what the operations of the ingest commands leave alone. -/
namespace Sys2Proof.Machine

variable {F : Foot}

/-! ## The blocks of the registers -/

theorem can_blocks : CAN.STAT / 65536 = 7 ∧ CAN.ROUTE_CNT / 65536 = 7 := by decide

theorem canPort_blocks {p : Nat} (hp : p < 4) : CAN.PORT_STATUS p / 65536 = 7 ∧ CAN.PORT_LOST p / 65536 = 7 := by grind

theorem ffl_blocks : FFL.STAT / 65536 = 5 ∧ FFL.NCO_CMD / 65536 = 5 ∧ FFL.SAT_CNT / 65536 = 5 := by decide

theorem fflInput_blocks {i : Nat} (hi : i < 128) : FFL.IN_MEAN i / 65536 = 5 := by grind

theorem ing_blocks : ING.STAT / 65536 = 4 ∧ ING.GRP_FLAG / 65536 = 4 := by decide

theorem ingLane_blocks {n : Nat} (hn : n < 80) : ING.LANE_CTRL n / 65536 = 4 ∧ ING.LANE_STATUS n / 65536 = 4 ∧ ING.LANE_ERR n / 65536 = 4 := by grind

theorem ingGroup_blocks {g : Nat} (hg : g < 32) : ING.GRP_CTRL g / 65536 = 4 ∧ ING.GRP_GOOD g / 65536 = 4 ∧ ING.GRP_BAD g / 65536 = 4 ∧
    ING.GRP_FLAGGED g / 65536 = 4 ∧ ING.GRP_LAST_LO g / 65536 = 4 ∧ ING.GRP_LAST_HI g / 65536 = 4 := by grind

/-! ## The link -/

section
variable (hcan : F.can = true)
include hcan

@[simp] theorem State.still_setPort (s : State) (p : Nat) (c : CanPort) : (s.setPort p c).still F = s.still F := State.still_can hcan _

@[simp] theorem State.still_setVoq (s : State) (v : Nat) (l : List VPkt) : (s.setVoq v l).still F = s.still F := State.still_can hcan _

@[simp] theorem State.still_clearLink (s : State) (p : Nat) : (s.clearLink p).still F = s.still F := State.still_setPort hcan ..

@[simp] theorem State.still_returnCredit (s : State) (v : Nat) (from? : Option Nat) : (s.returnCredit v from?).still F = s.still F := by
  cases from? with
  | none => rfl
  | some p => exact State.still_setPort hcan ..

@[simp] theorem State.still_dropQueued (s : State) (drop : VPkt → Bool) : (s.dropQueued drop).1.still F = s.still F := by
  unfold State.dropQueued
  refine still_foldl_get Prod.fst _ _ fun b q _ => ?_
  dsimp only
  split
  · rfl
  · simp [hcan]

variable (h7 : 7 ∈ F.blocks)
include h7

@[simp] theorem State.still_routeDrop (s : State) : s.routeDrop.still F = s.still F := by
  simp [State.routeDrop, can_blocks, hcan, h7, ↓State.still_ite]

@[simp] theorem State.still_portTo {p : Nat} (hp : p < 4) (s : State) (st : Nat) : (s.portTo p st).still F = s.still F := by
  simp [State.portTo, canPort_blocks hp, hcan, h7]

@[simp] theorem State.still_portFail {p : Nat} (hp : p < 4) (s : State) : (s.portFail p).still F = s.still F := by
  simp [State.portFail, can_blocks, canPort_blocks hp, hp, hcan, h7]

@[simp] theorem State.still_mapLanes {p : Nat} (hp : p < 4) (s : State) (f : Nat → CanLane → CanLane) : (s.mapLanes p f).still F = s.still F := by
  simp [State.mapLanes, State.noteLocked, canPort_blocks hp, hcan, h7]

@[simp] theorem State.still_setCanLane {n : Nat} (hn : n < 208) (s : State) (l : CanLane) : (s.setCanLane n l).still F = s.still F := by
  have hp : lanePort n < 4 := by unfold lanePort; omega
  simp [State.setCanLane, State.noteLocked, canPort_blocks hp, hp, hcan, h7]

end

/-! ## Front-end samples -/

section
variable (hfront : F.front = true)
include hfront

@[simp] theorem State.still_setInput (s : State) (i : Nat) (x : FrontIn) : (s.setInput i x).still F = s.still F := State.still_front hfront _

variable (h5 : 5 ∈ F.blocks)
include h5

@[simp] theorem State.still_chainSample (s : State) (g : Nat) {i : Nat} (hi : i < 128) (k : Nat) (x : Option Int) (frozen : Bool) :
    (s.chainSample g i k x frozen).still F = s.still F := by
  unfold State.chainSample
  cases x <;> dsimp only <;> split <;> simp [State.noteSat, ffl_blocks, fflInput_blocks hi, hfront, h5]

@[simp] theorem State.still_ncoApply (s : State) (k : Nat) : (s.ncoApply k).still F = s.still F := by
  simp [State.ncoApply, ffl_blocks, hfront, h5]

@[simp] theorem State.still_ncoDue (s : State) (k : Nat) : (s.ncoDue k).still F = s.still F := by
  unfold State.ncoDue
  split <;> simp [hfront, h5]

omit hfront in
@[simp] theorem State.still_dcClear (s : State) (g : Nat) : (s.dcClear g).still F = s.still F := by
  refine s.still_each_mem _ fun t i hi => ?_
  have : i < 128 := by
    unfold State.grpInputList at hi
    grind
  simp [fflInput_blocks this, h5]

end

/-! ## Lanes and groups -/

section
variable (hing : F.ing = true)
include hing

@[simp] theorem State.still_setLane (s : State) (n : Nat) (l : IngLane) : (s.setLane n l).still F = s.still F := State.still_ing hing _

@[simp] theorem State.still_setGrp (s : State) (g : Nat) (x : IngGroup) : (s.setGrp g x).still F = s.still F := State.still_ing hing _

@[simp] theorem State.still_laneData (s : State) (n : Nat) (b : List Byte) : (s.laneData n b).still F = s.still F := by
  unfold State.laneData
  split <;> simp [hing]

@[simp] theorem State.still_sendLane (s : State) (n kind : Nat) (body : List Byte) : (s.sendLane n kind body).still F = s.still F := by
  unfold State.sendLane
  extract_lets l
  split
  rename_i p h s1 hp
  have hfresh (hp : s.fresh 58 = (h, s1)) : s1.still F = s.still F := by
    rw [← show (s.fresh 58).2 = s1 from congrArg Prod.snd hp, (State.still_events s).2.2.1]
  have h1 : s1.still F = s.still F := by
    split at hp
    · split at hp
      · rw [← show s = s1 from congrArg Prod.snd hp]
      · exact hfresh hp
    · exact hfresh hp
  simp [hing, h1]

@[simp] theorem State.still_readapt (s : State) (n : Nat) : (s.readapt n).still F = s.still F := by simp [State.readapt, hing]

@[simp] theorem State.still_forgetFrames (s : State) (g : Nat) : (s.forgetFrames g).still F = s.still F := by simp [State.forgetFrames, hing]

variable (h4 : 4 ∈ F.blocks)
include h4

@[simp] theorem State.still_lock {n : Nat} (hn : n < 80) (s : State) :
    (s.lockGained n).still F = s.still F ∧ (s.lockLost n).still F = s.still F ∧ (s.adaptStop n).still F = s.still F := by
  refine ⟨?_, ?_, ?_⟩ <;> simp [State.lockGained, State.lockLost, State.adaptStop, ing_blocks, ingLane_blocks hn, hing, h4]

@[simp] theorem State.still_headers {n : Nat} (hn : n < 80) (s : State) (valid : Bool) :
    (s.huntHeader n valid).still F = s.still F ∧ (s.lockedHeader n valid).still F = s.still F := by
  refine ⟨?_, ?_⟩ <;> simp [State.huntHeader, State.lockedHeader, ingLane_blocks hn, hn, hing, h4]

@[simp] theorem State.still_laneControl {n : Nat} (hn : n < 80) (s : State) (b : List Byte) : (s.laneControl n b).still F = s.still F := by
  unfold State.laneControl
  dsimp only
  split
  · simp [hing]
  · split <;> simp [ingLane_blocks hn, hing, h4]

@[simp] theorem State.still_laneBlock {n : Nat} (hn : n < 80) (s : State) (hdr payload : Nat) : (s.laneBlock n hdr payload).still F = s.still F := by
  unfold State.laneBlock
  generalize s.descramble n payload = p
  obtain ⟨x, h⟩ := p
  simp [hn, hing, h4]

@[simp] theorem State.still_lanePower {n : Nat} (hn : n < 80) (s : State) (p : Nat) : (s.lanePower n p).still F = s.still F := by
  simp [State.lanePower, ingLane_blocks hn, hing, h4]

@[simp] theorem State.still_laneCtrl {n : Nat} (hn : n < 80) (s : State) (v : Nat) : (s.laneCtrl n v).still F = s.still F := by
  simp [State.laneCtrl, ing_blocks, ingLane_blocks hn, hn, hing, h4]

@[simp] theorem State.still_sampleFrame {g : Nat} (hg : g < 32) (s : State) (l : List LaneFrame) : (s.sampleFrame g l).still F = s.still F := by
  simp [State.sampleFrame, ing_blocks, ingGroup_blocks hg, hing, h4]

omit hing in
@[simp] theorem State.still_groupCtrl (h5 : 5 ∈ F.blocks) {g : Nat} (hg : g < 32) (s : State) (v : Nat) : (s.groupCtrl g v).still F = s.still F := by
  simp [State.groupCtrl, ing_blocks, ingGroup_blocks hg, h4, h5]

variable (hfront : F.front = true) (h5 : 5 ∈ F.blocks)
include hfront h5

@[simp] theorem State.still_releaseGroup {g : Nat} (hg : g < 32) (s : State) (k : Nat) : (s.releaseGroup k g).still F = s.still F := by
  unfold State.releaseGroup
  extract_lets x fr frozen s1 s2
  have h1 : s1.still F = s.still F := s.still_each _ fun t c => by
    dsimp only
    split
    case isTrue hi => exact State.still_chainSample hfront h5 t g hi k _ frozen
    case isFalse => rfl
  clear_value s1
  simp [s2, ing_blocks, ingGroup_blocks hg, hing, h4, h1]

@[simp] theorem State.still_release (s : State) (k : Nat) : (s.release k).still F = s.still F := by
  unfold State.release
  dsimp only
  rw [State.still_ing hing, State.still_each_mem _ _ (fun t g hg => ?_), State.still_ncoDue hfront h5]
  have hg : g < 32 := by grind
  exact State.still_releaseGroup hing h4 hfront h5 hg ..

end

theorem stays_ingestCommand {F : Foot} (hing : F.ing = true) (hfront : F.front = true) (hcan : F.can = true) (h4 : 4 ∈ F.blocks) (h5 : 5 ∈ F.blocks)
    (h7 : 7 ∈ F.blocks) {c : Instr} (h : ingestCommand c = true) (hwf : c.wf = true) (s : State) : Stays F s (exec c s) := by
  unfold ingestCommand at h
  split at h
  next n t =>
    have hn : n < 208 := of_decide_eq_true hwf
    show Stays F s (execLaneCdrLock n t s)
    unfold execLaneCdrLock
    split
    · simp [State.canCdrLock, hn, hcan, h7]
    · have hn : n < 80 := by omega
      simp [ingLane_blocks hn, hing, h4]
  next n hdr x =>
    have hn : n < 208 := of_decide_eq_true hwf
    show Stays F s (execLaneBlockRx n hdr x s)
    unfold execLaneBlockRx
    split
    · simp [State.canBlock, hn, hcan, h7]
    · have hn : n < 80 := by omega
      simp [hn, hing, h4]
  next n =>
    have hn : n < 208 := of_decide_eq_true hwf
    show Stays F s (execLockGained n s)
    unfold execLockGained
    split
    · simp [hn, hcan, h7]
    · have hn : n < 80 := by omega
      simp [hn, hing, h4]
  next n =>
    have hn : n < 208 := of_decide_eq_true hwf
    show Stays F s (execLockLoss n s)
    unfold execLockLoss
    split
    · simp [hn, hcan, h7]
    · have hn : n < 80 := by omega
      simp [ingLane_blocks hn, hn, hing, h4]
  next n p =>
    have hn : n < 80 := of_decide_eq_true hwf
    show Stays F s (execLanePowerWrite n p s)
    simp [execLanePowerWrite, hn, hing, h4]
  next n =>
    show Stays F s (execReadapt n s)
    simp [execReadapt, hing]
  next n p t =>
    have hn : n < 208 := of_decide_eq_true (Bool.and_eq_true_iff.1 hwf).1
    show Stays F s (execAdaptationDone n p t s)
    unfold execAdaptationDone
    split
    · simp [hn, hcan, h7]
    · have hn : n < 80 := by omega
      simp [ingLane_blocks hn, hing, h4]
  next g v =>
    have hg : g < 32 := of_decide_eq_true hwf
    show Stays F s (execGroupEnable g v s)
    simp [execGroupEnable, hg, h4, h5]
  next g t l =>
    have hg : g < 32 := of_decide_eq_true hwf
    show Stays F s (execSampleFrameRx g t l s)
    simp [execSampleFrameRx, hg, hing, h4]
  next k =>
    show Stays F s (execSampleRelease k s)
    simp [execSampleRelease, hing, hfront, h4, h5]
  next g e t =>
    show Stays F s (execEpochMessageTx g e t s)
    simp [execEpochMessageTx, hing]
  next g t =>
    show Stays F s (execAckMessageTx g t s)
    simp [execAckMessageTx, hing]
  next => contradiction

end Sys2Proof.Machine
end

section
/-! SUPPORT. Frames of the front filters and the channeliser: what the operations of their commands leave alone. -/
namespace Sys2Proof.Machine

variable {F : Foot}

theorem fflGroup_blocks {g : Nat} (hg : g < 32) : FFL.GRP_BANK g / 65536 = 5 := by grind

theorem fflEvent_blocks : FFL.RANGE_CNT / 65536 = 5 ∧ FFL.SWAP_CMD / 65536 = 5 ∧ FFL.ESC_CNT / 65536 = 5 ∧ FFL.EVT_IN / 65536 = 5 ∧
    FFL.EVT_LO / 65536 = 5 ∧ FFL.EVT_HI / 65536 = 5 := by decide

theorem fflCount_blocks {i : Nat} (hi : i < 128) (b : Bool) : (if b then FFL.IN_CNTB i else FFL.IN_CNTA i) / 65536 = 5 := by
  cases b <;> grind

theorem out_blocks : OUT.STAT / 65536 = 19 ∧ OUT.EVT_DROP / 65536 = 19 := by decide

theorem chn_blocks : CHN.STAT / 65536 = 6 ∧ CHN.FLAG_SPEC / 65536 = 6 ∧ CHN.FFT_SAT_CNT / 65536 = 6 ∧ CHN.CLIP_TOT / 65536 = 6 ∧
    CHN.SWAP_CMD / 65536 = 6 := by decide

theorem chnInput_blocks {i : Nat} (hi : i < 128) : CHN.IN_CLIP i / 65536 = 6 := by grind

theorem canPool_blocks : CAN.BUF_PEAK / 65536 = 7 ∧ CAN.POOL_CNT / 65536 = 7 := by decide

@[simp] theorem State.still_flagFrame (h : F.frameFlags = true) (s : State) (f k : Nat) : (s.flagFrame f k).still F = s.still F :=
  State.still_frameFlags h _

@[simp] theorem State.still_trigger (s : State) (src tag : Nat) : (s.trigger src tag).still F = s.still F := by
  unfold State.trigger
  split <;> simp

@[simp] theorem State.still_pushEvent (hevts : F.evts = true) (h19 : 19 ∈ F.blocks) (s : State) (e : EvtEntry) :
    (s.pushEvent e).still F = s.still F := by
  simp [State.pushEvent, out_blocks, hevts, h19]

@[simp] theorem State.still_eventEntry (hevts : F.evts = true) (h19 : 19 ∈ F.blocks) (s : State) (i : Nat) (e : ThrEvent) :
    (s.eventEntry i e).still F = s.still F := by
  simp [State.eventEntry, hevts, h19]

/-! ## Front filters -/

section
variable (hfront : F.front = true) (h5 : 5 ∈ F.blocks)
include hfront h5

@[simp] theorem State.still_ncoArm (s : State) : s.ncoArm.still F = s.still F := by
  simp [State.ncoArm, ffl_blocks, hfront, h5]

@[simp] theorem State.still_polyChange (hff : F.frameFlags = true) (s : State) (f : Nat) : (s.polyChange f).still F = s.still F := by
  simp [State.polyChange, ffl_blocks, hfront, hff, h5]

@[simp] theorem State.still_polyCommit (h0 : 0 ∈ F.blocks) (s : State) (v : Nat) : (s.polyCommit v).still F = s.still F := by
  simp [State.polyCommit, ffl_blocks, hfront, h0, h5]

@[simp] theorem State.still_resampleInput (s : State) (g n i : Nat) : (s.resampleInput g n i).still F = s.still F := by
  simp [State.resampleInput, State.noteSat, ffl_blocks, fflEvent_blocks, hfront, h5]

@[simp] theorem State.still_resampleAll (hff : F.frameFlags = true) (s : State) (n : Nat) : (s.resampleAll n).still F = s.still F := by
  have hgroup (t : State) (g : Nat) : (t.each (t.grpInputList g) fun u i => u.resampleInput g n i).still F = t.still F := by simp [hfront, h5]
  simp [State.resampleAll, hgroup, hfront, hff, h5]

@[simp] theorem State.still_swapCmd (s : State) (v : Nat) : (s.swapCmd v).still F = s.still F := by
  have hg : v % 32 < 32 := Nat.mod_lt _ (by decide)
  unfold State.swapCmd
  extract_lets s0 g w busy late
  have h0 : s0.still F = s.still F := by simp [s0, fflEvent_blocks, h5]
  clear_value s0
  simp [ffl_blocks, fflGroup_blocks hg, g, hfront, h0, h5]

@[simp] theorem State.still_flagWindow (s : State) (i : Nat) (e : ThrEvent) : (s.flagWindow i e).still F = s.still F := by
  simp [State.flagWindow, ffl_blocks, fflEvent_blocks, hfront, h5]

@[simp] theorem State.still_decideEvent {i : Nat} (hi : i < 128) (s : State) (e : ThrEvent) : (s.decideEvent i e).still F = s.still F := by
  have hstat : (if e.thrB then FFL.STAT_THR_B else FFL.STAT_THR_A).reg = FFL.STAT := by split <;> rfl
  simp [State.decideEvent, ffl_blocks, fflEvent_blocks, fflCount_blocks hi, hstat, hfront, h5]

theorem stays_frontCommand (hff : F.frameFlags = true) (hevts : F.evts = true) (h0 : 0 ∈ F.blocks) (h19 : 19 ∈ F.blocks) {c : Instr}
    (h : frontCommand c = true) (hwf : c.wf = true) (s : State) : Stays F s (exec c s) := by
  unfold frontCommand at h
  split at h
  next g =>
    show Stays F s (execDcClear g s)
    simp [execDcClear, h5]
  next t =>
    show Stays F s (execNcoArm t s)
    simp [execNcoArm, hfront, h5]
  next k =>
    show Stays F s (execNcoPhaseReset k s)
    simp [execNcoPhaseReset, hfront, h5]
  next n =>
    show Stays F s (execResamplerOutput n s)
    simp [execResamplerOutput, hfront, hff, h5]
  next v t =>
    show Stays F s (execPolyCommit v t s)
    simp [execPolyCommit, hfront, h0, h5]
  next f =>
    show Stays F s (execPolyPageChange f s)
    simp [execPolyPageChange, hfront, hff, h5]
  next f =>
    show Stays F s (execPolyExpired f s)
    simp [execPolyExpired, hfront, hff, h5]
  next v =>
    show Stays F s (execBankSwapCmd v s)
    simp [execBankSwapCmd, hfront, h5]
  next g =>
    have hg : g < 32 := of_decide_eq_true hwf
    show Stays F s (execBankSwapDone g s)
    unfold execBankSwapDone
    split <;> simp [ffl_blocks, fflGroup_blocks hg, hfront, h5]
  next i =>
    have hi : i < 128 := of_decide_eq_true hwf
    show Stays F s (execThresholdEvent i s)
    unfold execThresholdEvent
    dsimp only
    split <;> simp [hi, hfront, hevts, h5, h19]
  next => contradiction

end

/-! ## Channeliser -/

section
variable (hcan : F.can = true) (h7 : 7 ∈ F.blocks)
include hcan h7

@[simp] theorem State.still_enqueue (s : State) (p : Packet) (from? : Option Nat) : (s.enqueue p from?).still F = s.still F := by
  simp [State.enqueue, State.notePeak, canPool_blocks, hcan, h7]

@[simp] theorem State.still_takeCell (s : State) (c m0 : Nat) : (s.takeCell c m0).still F = s.still F := by
  simp [State.takeCell, can_blocks, canPool_blocks, hcan, h7]

@[simp] theorem State.still_fillChannel (s : State) (m c owner : Nat) (samples : List Byte) :
    (s.fillChannel m c owner samples).still F = s.still F := by
  unfold State.fillChannel
  dsimp only
  split <;> simp [hcan, h7]

end

section
variable (h6 : 6 ∈ F.blocks)
include h6

theorem State.still_spectrumOf {i : Nat} (hi : i < 128) (s : State) (m : Nat) : (s.spectrumOf i m).2.still F = s.still F := by
  simp [State.spectrumOf, chn_blocks, chnInput_blocks hi, h6]

variable (hchan : F.chan = true)
include hchan

@[simp] theorem State.still_windowSwap (s : State) : s.windowSwap.still F = s.still F := by
  simp [State.windowSwap, chn_blocks, hchan, h6]

@[simp] theorem State.still_fringeChange (hff : F.frameFlags = true) (s : State) (f : Nat) : (s.fringeChange f).still F = s.still F := by
  simp [State.fringeChange, chn_blocks, hchan, hff, h6]

omit h6 in
@[simp] theorem State.still_scaleChange (s : State) (f : Nat) : (s.scaleChange f).still F = s.still F := by
  unfold State.scaleChange
  split <;> simp [hchan]

@[simp] theorem State.still_fringeCommit (h0 : 0 ∈ F.blocks) (s : State) (v : Nat) : (s.fringeCommit v).still F = s.still F := by
  simp [State.fringeCommit, chn_blocks, hchan, h0, h6]

@[simp] theorem State.still_scaleCommit (s : State) (v : Nat) : (s.scaleCommit v).still F = s.still F := by
  simp [State.scaleCommit, chn_blocks, hchan, h6]

@[simp] theorem State.still_windowCmd (s : State) : s.windowCmd.still F = s.still F := by
  simp [State.windowCmd, chn_blocks, hchan, h6]

variable (hcan : F.can = true) (hff : F.frameFlags = true) (h7 : 7 ∈ F.blocks)
include hcan hff h7

@[simp] theorem State.still_spectrum (s : State) (m : Nat) : (s.spectrum m).still F = s.still F := by
  have hspec (t : State) : (t.inputsOn.foldl (fun (a : List (List (List Byte)) × State) i =>
      (a.1 ++ [(a.2.spectrumOf i m).1], (a.2.spectrumOf i m).2)) ([], t)).2.still F = t.still F :=
    still_foldl_get Prod.snd _ _ fun b i hi => State.still_spectrumOf h6 (by unfold State.inputsOn at hi; grind) b.2 m
  unfold State.spectrum
  dsimp only
  simp [hspec, hcan, hchan, hff, h6, h7]

theorem stays_channelCommand (h0 : 0 ∈ F.blocks) {c : Instr} (h : channelCommand c = true) (s : State) : Stays F s (exec c s) := by
  unfold channelCommand at h
  split at h
  next m =>
    show Stays F s (execSpectrumComplete m s)
    simp [execSpectrumComplete, hcan, hchan, hff, h6, h7]
  next t =>
    show Stays F s (execWindowSwapCmd t s)
    simp [execWindowSwapCmd, hchan, h6]
  next m =>
    show Stays F s (execWindowSwap m s)
    simp [execWindowSwap, hchan, h6]
  next v t =>
    show Stays F s (execFringeCommit v t s)
    simp [execFringeCommit, hchan, h0, h6]
  next f =>
    show Stays F s (execFringePageChange f s)
    simp [execFringePageChange, hchan, hff, h6]
  next f =>
    show Stays F s (execFringeExpired f s)
    simp [execFringeExpired, hchan, hff, h6]
  next v t =>
    show Stays F s (execScaleCommit v t s)
    simp [execScaleCommit, hchan, h6]
  next f =>
    show Stays F s (execScaleBankChange f s)
    simp [execScaleBankChange, hchan]
  next => contradiction

end

end Sys2Proof.Machine
end

section
/-! SUPPORT. Frames of register accesses and of the fast matrix's own commands. -/
namespace Sys2Proof.Machine

variable {F : Foot}

theorem mtx_blocks : MTX.STAT / 65536 = 27 ∧ MTX.ERR_ADDR_LO / 65536 = 27 ∧ MTX.ERR_ADDR_HI / 65536 = 27 ∧ MTX.OUT_USE / 65536 = 27 ∧
    MTX.ABANDON_CNT / 65536 = 27 ∧ MTX.MSTAT / 65536 = 27 ∧ MTX.FL_ADDR / 65536 = 27 := by decide

theorem pci_blocks : PCI.STAT / 65536 = 30 ∧ PCI.LINK / 65536 = 30 := by decide

/-! ## Waiting and refused transactions -/

section
variable (hmtx : F.mtx = true) (h27 : 27 ∈ F.blocks)
include hmtx h27

@[simp] theorem State.still_setOut (s : State) (l : List Txn) : (s.setOut l).still F = s.still F := by
  simp [State.setOut, mtx_blocks, hmtx, h27]

@[simp] theorem State.still_holdTxn (s : State) (m : Nat) (write : Bool) (a n be : Nat) (l : List Byte) (waits : Bool) :
    (s.holdTxn m write a n be l waits).still F = s.still F := by
  simp [State.holdTxn, State.noteFull, mtx_blocks, hmtx, h27]

@[simp] theorem State.still_latchErr (s : State) (m a : Nat) (write : Bool) : (s.latchErr m a write).still F = s.still F := by
  unfold State.latchErr
  split <;> simp [mtx_blocks, hmtx, h27]

variable (h30 : 30 ∈ F.blocks)
include h30

@[simp] theorem State.still_errorTo (s : State) (m a : Nat) (write : Bool) : (s.errorTo m a write).still F = s.still F := by
  have hstat : (if write then PCI.STAT_WR_ERR else PCI.STAT_RD_ERR).reg = PCI.STAT := by split <;> rfl
  simp [State.errorTo, pci_blocks, hstat, hmtx, h27, h30]

theorem stays_matrixCommand (hmask : F.msixMask = true) {c : Instr} (h : matrixCommand c = true) (s : State) : Stays F s (exec c s) := by
  unfold matrixCommand at h
  split at h
  next m =>
    show Stays F s (execErrAddrRead m s)
    simp [execErrAddrRead, State.errAddrRead, mtx_blocks, hmtx, h27]
  next m n t =>
    show Stays F s (execMasterDrained m n t s)
    refine .doneIf (by simp) ?_
    dsimp only
    split <;> simp [mtx_blocks, hmtx, h27]
  next a b t =>
    show Stays F s (execPcieLinkUp a b t s)
    simp [execPcieLinkUp, ↓State.still_ite, mtx_blocks, pci_blocks, hmtx, h27, h30]
  next n b t =>
    show Stays F s (execD2dFlitError n b t s)
    simp [execD2dFlitError, hmtx]
  next n b t =>
    show Stays F s (execMsixUnmask n b t s)
    refine .doneIf (by simp) ?_
    generalize s.at t = v
    have hv : ({ v with msixMask := setBit v.msixMask n b } : State).still F = v.still F := State.still_msixMask hmask _
    dsimp only
    split
    · exact hv
    · exact hv
  next => contradiction

end

/-! ## The data ports of the front filters and the channeliser -/

theorem port_blocks : FFL.CDATA / 65536 = 5 ∧ FFL.CADDR / 65536 = 5 ∧ CHN.WDATA / 65536 = 6 ∧ CHN.WADDR / 65536 = 6 ∧ CHN.SDATA / 65536 = 6 ∧
    CHN.SADDR / 65536 = 6 := by decide

@[simp] theorem State.still_coefAccess (hfront : F.front = true) (h5 : 5 ∈ F.blocks) (s : State) (write : Bool) (v : Nat) :
    (s.coefAccess write v).still F = s.still F := by
  simp [State.coefAccess, ffl_blocks, port_blocks, hfront, h5]

@[simp] theorem State.still_windowAccess (hchan : F.chan = true) (h6 : 6 ∈ F.blocks) (s : State) (write : Bool) (v : Nat) :
    (s.windowAccess write v).still F = s.still F := by
  simp [State.windowAccess, chn_blocks, port_blocks, hchan, h6]

@[simp] theorem State.still_scaleAccess (hchan : F.chan = true) (h6 : 6 ∈ F.blocks) (s : State) (write : Bool) (v : Nat) :
    (s.scaleAccess write v).still F = s.still F := by
  simp [State.scaleAccess, chn_blocks, port_blocks, hchan, h6]

/-- An access answered at once, held or refused keeps what the register's own effect keeps. -/
theorem State.still_portAccess (hmtx : F.mtx = true) (h27 : 27 ∈ F.blocks) (h30 : 30 ∈ F.blocks) (s : State) {r : Reg} (hr : r / 65536 < 32)
    (hread : ∀ t : State, (t.busRead r).2.still F = t.still F) (hwrite : ∀ (t : State) v lk, (t.busWrite 0 r v lk).still F = t.still F)
    (hblob : r ≠ MTX.FL_DATA ∧ r ≠ MTX.FL_CMD) (write : Bool) (v : Nat) : (s.portAccess r write v).still F = s.still F := by
  obtain ⟨hdata, hcmd⟩ := hblob
  have hnot (t : State) : t.blobRefused r v = false := by simp [State.blobRefused, hdata, hcmd]
  unfold State.portAccess State.answerWrite State.answerRead
  split
  case isTrue =>
    split
    case isTrue => exact State.still_holdTxn hmtx h27 ..
    case isFalse =>
      cases hc : s.regRefused r <;> simp [State.regWrite, hc, hnot, hwrite, hr, hmtx, h27, h30]
  case isFalse =>
    split
    case isTrue => exact State.still_holdTxn hmtx h27 ..
    case isFalse =>
      cases hc : s.regRefused r <;> simp [State.regRead, hc, hread, hr, hmtx, h27, h30]

theorem stays_portCommand (hfront : F.front = true) (hchan : F.chan = true) (hmtx : F.mtx = true) (h5 : 5 ∈ F.blocks) (h6 : 6 ∈ F.blocks)
    (h27 : 27 ∈ F.blocks) (h30 : 30 ∈ F.blocks) {c : Instr} (h : portCommand c = true) (s : State) : Stays F s (exec c s) := by
  unfold portCommand at h
  split at h
  next w v =>
    have hread (t : State) : (t.busRead FFL.CDATA).2.still F = t.still F := State.still_coefAccess hfront h5 t false 0
    have hwrite (t : State) (n : Nat) (lk : Bool) : (t.busWrite 0 FFL.CDATA n lk).still F = t.still F := State.still_coefAccess hfront h5 t true n
    show Stays F s (execCoefDataAccess w v s)
    exact .doneIf rfl (State.still_portAccess hmtx h27 h30 s (by decide) hread hwrite (by decide) w v.toNat)
  next w v =>
    have hread (t : State) : (t.busRead CHN.WDATA).2.still F = t.still F := State.still_windowAccess hchan h6 t false 0
    have hwrite (t : State) (n : Nat) (lk : Bool) : (t.busWrite 0 CHN.WDATA n lk).still F = t.still F := State.still_windowAccess hchan h6 t true n
    show Stays F s (execWindowDataAccess w v s)
    exact .doneIf rfl (State.still_portAccess hmtx h27 h30 s (by decide) hread hwrite (by decide) w v.toNat)
  next w v =>
    have hread (t : State) : (t.busRead CHN.SDATA).2.still F = t.still F := State.still_scaleAccess hchan h6 t false 0
    have hwrite (t : State) (n : Nat) (lk : Bool) : (t.busWrite 0 CHN.SDATA n lk).still F = t.still F := State.still_scaleAccess hchan h6 t true n
    show Stays F s (execScaleDataAccess w v s)
    exact .doneIf rfl (State.still_portAccess hmtx h27 h30 s (by decide) hread hwrite (by decide) w v.toNat)
  next => contradiction

end Sys2Proof.Machine
end

section
namespace Sys2Proof.Machine

/-- Settles O44, family by family. -/
theorem frameOfSignalPathCommands : Obligations.frame_of_signal_path_commands := by
  refine ⟨fun c s u hc hwf he => ?_, fun c s u hc hwf he => ?_, fun c s u hc _ he => ?_, fun c s u hc he => ?_⟩
  · exact State.framed_of_still (F := { blocks := [4, 5, 7], ing := true, front := true, can := true })
      (stays_ingestCommand rfl rfl rfl (by decide) (by decide) (by decide) hc hwf s u he)
  · exact State.framed_of_still (F := { blocks := [0, 5, 19], front := true, frameFlags := true, evts := true })
      (stays_frontCommand rfl (by decide) rfl rfl (by decide) (by decide) hc hwf s u he)
  · exact State.framed_of_still (F := { blocks := [0, 6, 7], chan := true, frameFlags := true, can := true })
      (stays_channelCommand (by decide) rfl rfl rfl (by decide) (by decide) hc s u he)
  · exact State.framed_of_still (F := { blocks := [5, 6, 27, 30], front := true, chan := true, mtx := true })
      (stays_portCommand rfl rfl rfl (by decide) (by decide) (by decide) (by decide) hc s u he)

end Sys2Proof.Machine
end

section
/-! SUPPORT. Frames of the canopy's ports and packets, and of the capture engine. -/
namespace Sys2Proof.Machine

variable {F : Foot}

theorem canEvent_blocks : CAN.PARK_CNT / 65536 = 7 ∧ CAN.STARVE_CNT / 65536 = 7 ∧ CAN.STALE_CNT / 65536 = 7 := by decide

theorem canLink_blocks {p : Nat} (hp : p < 4) : CAN.PORT_CTRL p / 65536 = 7 ∧ CAN.PORT_CRCERR p / 65536 = 7 ∧ CAN.PORT_REPLAY p / 65536 = 7 ∧
    CAN.PORT_RTT p / 65536 = 7 ∧ CAN.PORT_DIN p / 65536 = 7 := by grind

theorem rrg_blocks : RRG.STAT / 65536 = 17 ∧ RRG.MISS_CNT / 65536 = 17 ∧ RRG.REFUSE_CNT / 65536 = 17 ∧ RRG.RD_CMD / 65536 = 17 ∧
    RRG.RD_PROG / 65536 = 17 := by decide

/-! ## Sending -/

section
variable (hcan : F.can = true)
include hcan

@[simp] theorem State.still_queueCtl (s : State) (p : Nat) (b : Body) : (s.queueCtl p b).still F = s.still F := State.still_setPort hcan ..

@[simp] theorem State.still_sendNumbered (s : State) (p : Nat) (k : Packet) : (s.sendNumbered p k).still F = s.still F := by
  simp [State.sendNumbered, hcan]

@[simp] theorem State.still_sendCast (s : State) (c : Cast) : (s.sendCast c).still F = s.still F := by simp [State.sendCast, hcan]

@[simp] theorem State.still_sendData (s : State) (p v : Nat) : (s.sendData p v).still F = s.still F := by
  unfold State.sendData
  split <;> simp [hcan]

@[simp] theorem State.still_linkNak (s : State) (p : Nat) : (s.linkNak p).still F = s.still F := by simp [State.linkNak, hcan]

@[simp] theorem State.still_takeCredits (s : State) (p : Nat) (tr : Trailer) : (s.takeCredits p tr).still F = s.still F := by
  simp [State.takeCredits, hcan]

@[simp] theorem State.still_noteJoin (s : State) (pitch j : Nat) : (s.noteJoin pitch j).still F = s.still F := State.still_setCan hcan _

@[simp] theorem State.still_notePark (hring : F.ring = true) (s : State) (pitch p : Nat) : (s.notePark pitch p).still F = s.still F := by
  simp [State.notePark, hcan, hring]

variable (h7 : 7 ∈ F.blocks)
include h7

@[simp] theorem State.still_takeData (s : State) (p : Nat) (k : Packet) : (s.takeData p k).still F = s.still F := by
  unfold State.takeData
  split <;> simp [can_blocks, canEvent_blocks, hcan, h7]

@[simp] theorem State.still_takeCast (s : State) (p : Nat) (c : Cast) {f : State → State} (h : ∀ t, (f t).still F = t.still F) :
    (s.takeCast p c f).still F = s.still F := by
  unfold State.takeCast
  dsimp only
  split
  · simp [hcan]
  · exact (h _).trans (by simp [can_blocks, hcan, h7])

@[simp] theorem State.still_dropStale (s : State) (b : Nat) (closed : Option Nat) : (s.dropStale b closed).still F = s.still F := by
  simp [State.dropStale, ↓State.still_ite, can_blocks, canEvent_blocks, hcan, h7]

variable {p : Nat} (hp : p < 4)
include hp

@[simp] theorem State.still_portPower (s : State) : (s.portPower p).still F = s.still F := by
  simp [State.portPower, hp, hcan, h7]

@[simp] theorem State.still_portStart (s : State) : (s.portStart p).still F = s.still F := by
  simp [State.portStart, hp, hcan, h7]

@[simp] theorem State.still_portCtrl (s : State) (v : Nat) : (s.portCtrl p v).still F = s.still F := by
  simp [State.portCtrl, can_blocks, canLink_blocks hp, hp, hcan, h7]

@[simp] theorem State.still_replayRound (s : State) : (s.replayRound p).still F = s.still F := by
  simp [State.replayRound, hp, hcan, h7]

@[simp] theorem State.still_takeAck (s : State) (tr : Trailer) : (s.takeAck p tr).still F = s.still F := by
  simp [State.takeAck, hp, hcan, h7]

@[simp] theorem State.still_crcFailed (s : State) : (s.crcFailed p).still F = s.still F := by
  simp [State.crcFailed, canLink_blocks hp, hcan, h7]

@[simp] theorem State.still_linkAccept (s : State) (k : Packet) (tr : Trailer) (ok : Bool) : (s.linkAccept p k tr ok).1.still F = s.still F := by
  simp [State.linkAccept, hp, hcan, h7]

@[simp] theorem State.still_linkRx (s : State) (k : Packet) (tr : Trailer) (ok : Bool) {f : State → State}
    (h : ∀ t, (f t).still F = t.still F) : (s.linkRx p k tr ok f).still F = s.still F := by
  simp [State.linkRx, h, hp, hcan, h7]

@[simp] theorem State.still_takeExchange (s : State) (t1 t2 t3 t4 : Nat) : (s.takeExchange p t1 t2 t3 t4).still F = s.still F := by
  simp [State.takeExchange, State.showDelay, canLink_blocks hp, hcan, h7]

@[simp] theorem State.still_transmit (s : State) : (s.transmit p).still F = s.still F := by
  unfold State.transmit
  dsimp only
  split
  · simp [can_blocks, canLink_blocks hp, hcan, h7]
  · split
    · rfl
    · split
      · split <;> simp [hcan]
      · split <;> simp [hcan]

end

section
variable (hcan : F.can = true) (h7 : 7 ∈ F.blocks)
include hcan h7

theorem stays_canopyCommand {c : Instr} (h : canopyCommand c = true) (s : State) : Stays F s (exec c s) := by
  have hp (p : Nat) : p % 4 < 4 := Nat.mod_lt _ (by decide)
  unfold canopyCommand at h
  split at h
  next p v =>
    show Stays F s (execCanPortPowerWrite p v s)
    simp [execCanPortPowerWrite, hp, hcan, h7]
  next p =>
    show Stays F s (execPortEnable p s)
    simp [execPortEnable, hp, hcan, h7]
  next p =>
    show Stays F s (execPortDisable p s)
    simp [execPortDisable, hp, hcan, h7]
  next p t =>
    show Stays F s (execPortTrained p t s)
    simp [execPortTrained, State.sendHelloNow, hp, hcan, h7]
  next p =>
    show Stays F s (execHelloTx p s)
    simp [execHelloTx, State.sendHelloNow, hcan]
  next p n =>
    show Stays F s (execPortDown p n s)
    simp [execPortDown, hp, hcan, h7]
  next p t =>
    show Stays F s (execHelloTimeout p t s)
    simp [execHelloTimeout, hp, hcan, h7]
  next p k tr ok t =>
    show Stays F s (execDataPacketRx p k tr ok t s)
    unfold execDataPacketRx
    split <;> simp [hp, hcan, h7]
  next p k tr ok t =>
    show Stays F s (execCreditPacketRx p k tr ok t s)
    unfold execCreditPacketRx
    split <;> simp [hp, hcan, h7]
  next p k tr ok t =>
    show Stays F s (execUnknownKindPacketRx p k tr ok t s)
    simp [execUnknownKindPacketRx, hp, hcan, h7]
  next p =>
    show Stays F s (execAckTx p s)
    simp [execAckTx, hcan]
  next p t =>
    show Stays F s (execReplayTimeout p t s)
    simp [execReplayTimeout, hp, hcan, h7]
  next p =>
    show Stays F s (execReplayLimit p s)
    simp [execReplayLimit, hp, hcan, h7]
  next p t =>
    show Stays F s (execPortTransmit p t s)
    simp [execPortTransmit, hp, hcan, h7]
  next p v t =>
    show Stays F s (execVoqStarve p v t s)
    unfold execVoqStarve
    dsimp only
    split <;> simp [can_blocks, canEvent_blocks, hcan, h7]
  next p t =>
    show Stays F s (execProbeTx p t s)
    simp [execProbeTx, hcan]
  next p k tr ok rx t =>
    show Stays F s (execProbeRx p k tr ok rx t s)
    unfold execProbeRx
    split <;> simp [hp, hcan, h7]
  next p k tr ok rx t =>
    show Stays F s (execProbeReplyRx p k tr ok rx t s)
    unfold execProbeReplyRx
    split <;> simp [hp, hcan, h7]
  next p k tr ok t =>
    show Stays F s (execCaptureCastRx p k tr ok t s)
    unfold execCaptureCastRx
    dsimp only
    split
    next c _ =>
      have htrig (s : State) : (s.castTrigger c).still F = s.still F := by simp [State.castTrigger]
      split
      · exact (stays_done _ _).2 ((State.still_linkRx hcan h7 (hp p) _ k tr ok fun u => State.still_takeCast hcan h7 u _ c htrig).trans (by simp))
      · simp
    · simp
  next p k tr ok t =>
    show Stays F s (execJoinCastRx p k tr ok t s)
    unfold execJoinCastRx
    dsimp only
    split
    next c _ =>
      have hjoin (s : State) : (s.takeCast (p % 4) c fun s => s.noteJoin c.origin c.bell).still F = s.still F := by simp [hcan, h7]
      split <;> simp [hjoin, hp, hcan, h7]
    · simp
  next => contradiction

theorem stays_parkCastRx (hring : F.ring = true) (p : Nat) (k : Packet) (tr : Trailer) (ok : Bool) (t : Nat) (s : State) :
    Stays F s (exec (.parkCastRx p k tr ok t) s) := by
  have hp : p % 4 < 4 := Nat.mod_lt _ (by decide)
  show Stays F s (execParkCastRx p k tr ok t s)
  unfold execParkCastRx
  dsimp only
  split
  next c _ =>
    have hpark (s : State) : (s.takeCast (p % 4) c fun s => s.notePark c.origin c.bell).still F = s.still F := by simp [hcan, hring, h7]
    split <;> simp [hpark, hp, hcan, h7]
  · simp

end

/-! ## Capture and readout -/

section
variable (hring : F.ring = true)
include hring

@[simp] theorem State.still_postCapture (s : State) (event cap reason : Nat) (noRec : Bool) (bell : Nat) :
    (s.postCapture event cap reason noRec bell).still F = s.still F := State.still_setRing hring _

@[simp] theorem State.still_releaseRequest (s : State) (v : Nat) : (s.releaseRequest v).still F = s.still F := State.still_setRing hring _

variable (h17 : 17 ∈ F.blocks)
include h17

@[simp] theorem State.still_closeFrame (h0 : 0 ∈ F.blocks) (s : State) (n f : Nat) : (s.closeFrame n f).still F = s.still F := by
  simp [State.closeFrame, State.ringLate, rrg_blocks, hring, h0, h17]

@[simp] theorem State.still_refuseCapture (s : State) (reason cap : Nat) (noRec : Bool) (bell : Nat) :
    (s.refuseCapture reason cap noRec bell).still F = s.still F := by
  unfold State.refuseCapture
  dsimp only
  split <;> simp [rrg_blocks, hring, h17]

@[simp] theorem State.still_handleTrigger (hcan : F.can = true) (s : State) (tr : Trigger) (b pre post : Nat) :
    (s.handleTrigger tr b pre post).still F = s.still F := by
  unfold State.handleTrigger
  dsimp only
  split
  · simp [hring]
  · split <;> simp [hring, hcan, h17]

@[simp] theorem State.still_captureTrigger (hcan : F.can = true) (s : State) (tr : Trigger) : (s.captureTrigger tr).still F = s.still F := by
  unfold State.captureTrigger
  split
  · simp [hring, h17]
  · split
    · split <;> simp [hring, hcan, h17]
    · split <;> simp [hring, hcan, h17]

@[simp] theorem State.still_endReadout (s : State) (r : CapRec) (n event : Nat) : (s.endReadout r n event).still F = s.still F := by
  simp [State.endReadout, rrg_blocks, hring, h17]

@[simp] theorem State.still_abortReadout (s : State) : s.abortReadout.still F = s.still F := by
  unfold State.abortReadout
  split
  · split <;> simp [rrg_blocks, hring, h17]
  · rfl

@[simp] theorem State.still_finishReadout (s : State) (n : Nat) : (s.finishReadout n).still F = s.still F := by
  unfold State.finishReadout
  split <;> simp [rrg_blocks, hring, h17]

@[simp] theorem State.still_startReadout (s : State) (n : Nat) : (s.startReadout n).still F = s.still F := by
  unfold State.startReadout
  split <;> simp [rrg_blocks, hring, h17]

@[simp] theorem State.still_readCmd (s : State) (v : Nat) : (s.readCmd v).still F = s.still F := by
  simp [State.readCmd, rrg_blocks, hring, h17]

theorem stays_captureCommand (hcan : F.can = true) (h0 : 0 ∈ F.blocks) (h7 : 7 ∈ F.blocks) {c : Instr} (h : captureCommand c = true) (s : State) :
    Stays F s (exec c s) := by
  unfold captureCommand at h
  split at h
  next t =>
    show Stays F s (execRingFrameClose t s)
    unfold execRingFrameClose
    dsimp only
    split
    · refine .doneIf (by simp) ?_
      split <;> simp [hcan, hring, h0, h7, h17]
    · simp
  next t =>
    show Stays F s (execHostTrigger t s)
    simp [execHostTrigger, State.hostTrig]
  next t =>
    show Stays F s (execCaptureTrigger t s)
    unfold execCaptureTrigger
    generalize hv : s.at t = v
    have h : v.still F = s.still F := by simp [← hv]
    dsimp only
    split <;> simp [hcan, hring, h17, h]
  next v =>
    show Stays F s (execCaptureReleaseRequest v s)
    simp [execCaptureReleaseRequest, hring]
  next v t =>
    show Stays F s (execReadoutStart v t s)
    simp [execReadoutStart, hring, h17]
  next t =>
    show Stays F s (execReadoutAbort t s)
    simp [execReadoutAbort, hring, h17]
  next t =>
    show Stays F s (execReadoutDone t s)
    unfold execReadoutDone
    dsimp only
    split <;> simp [hring, h17]
  next => contradiction

end

/-- Settles O45, family by family. -/
theorem frameOfCanopyAndCaptureCommands : Obligations.frame_of_canopy_and_capture_commands := by
  refine ⟨fun c s u hc _ he => ?_, fun p k tr ok t s u _ he => ?_, fun c s u hc he => ?_⟩
  · exact State.framed_of_still (F := { blocks := [7], can := true }) (stays_canopyCommand rfl (by decide) hc s u he)
  · exact State.framed_of_still (F := { blocks := [7], can := true, ring := true }) (stays_parkCastRx rfl (by decide) rfl p k tr ok t s u he)
  · exact State.framed_of_still (F := { blocks := [0, 7, 17], ring := true, can := true })
      (stays_captureCommand rfl (by decide) rfl (by decide) (by decide) hc s u he)

end Sys2Proof.Machine
end

section
/-! SUPPORT. Frames of the register reads (R9, R323, R434, R445). -/
namespace Sys2Proof.Machine

/-- What a register read leaves free: registers, and the engines whose registers a read may move on. -/
def readFoot : Foot :=
  { blocks := List.range 32, cal := true, chan := true, crown := true, dram := true, front := true, latch := true, led := true, mtx := true,
    ptp := true, ring := true }

theorem mem_readFoot {r : Nat} : r / 65536 ∈ readFoot.blocks ↔ r < 0x200000 := by
  refine List.mem_range.trans ?_
  omega

theorem mail_regs : CRN.MB_HEAD < 0x200000 ∧ CRN.MB_FRAME_LO < 0x200000 ∧ CRN.MB_FRAME_HI < 0x200000 ∧ CAL.MB_HEAD < 0x200000 ∧
    CAL.MB_DSEQ < 0x200000 ∧ CAL.MB_CONV < 0x200000 ∧ CAL.MB_FAIL < 0x200000 ∧ RRG.MB_HEAD < 0x200000 ∧ RRG.MB_BELL_LO < 0x200000 ∧
    RRG.MB_BELL_HI < 0x200000 ∧ LED.MB_HEAD < 0x200000 ∧ LED.MB_FRAME_LO < 0x200000 ∧ LED.MB_FRAME_HI < 0x200000 := by decide

theorem read_regs : PTP.TSQ_NS < 0x200000 ∧ PTP.NOW_NS < 0x200000 ∧ PTP.NOW_SEC_LO < 0x200000 ∧ PTP.NOW_SEC_HI < 0x200000 ∧
    PTP.NOW_FR < 0x200000 ∧ DMC.UE_ADDR_LO < 0x200000 ∧ DMC.UE_ADDR_HI < 0x200000 ∧ DMC.PANIC_TIME < 0x200000 ∧
    MTX.ERR_ADDR_LO < 0x200000 ∧ MTX.ERR_ADDR_HI < 0x200000 ∧ MTX.FL_ADDR < 0x200000 ∧ STL.DFIRST_LO 0 < 0x200000 ∧
    STL.DFIRST_HI 0 < 0x200000 ∧ STL.DINFO 0 < 0x200000 ∧ STL.DSKIP 0 < 0x200000 := by decide

/-! ## The effects of a read -/

theorem mailReg_lt (b : Nat) : mailReg b < 0x1F0000 := by
  unfold mailReg
  split_ifs <;> decide

theorem State.still_mailCompanions (s : State) (b : Nat) (x : List Nat) : (s.mailCompanions b x).still readFoot = s.still readFoot := by
  unfold State.mailCompanions
  dsimp only
  split_ifs <;> simp [mem_readFoot, mail_regs]

theorem State.still_setMailbox (s : State) (b : Nat) (x : Mailbox) : (s.setMailbox b x).still readFoot = s.still readFoot := by
  unfold State.setMailbox
  split_ifs
  · exact State.still_setCrown rfl _
  · exact State.still_setCal rfl _
  · exact State.still_setRing rfl _
  · exact State.still_setLed rfl _

theorem State.still_mailRead (s : State) (b : Nat) : (s.mailRead b).2.still readFoot = s.still readFoot := by
  have hreg : mailReg b / 65536 ∈ readFoot.blocks := mem_readFoot.2 ((mailReg_lt b).trans (by decide))
  unfold State.mailRead
  dsimp only
  split
  · exact (State.still_mailCompanions ..).trans (((State.still_regs hreg).2.1 _).trans (State.still_setMailbox ..))
  · rfl

theorem State.still_stampPop (s : State) : s.stampPop.2.still readFoot = s.still readFoot := by
  unfold State.stampPop
  split
  · rfl
  · exact ((State.still_regs (mem_readFoot.2 (by decide))).2.1 _).trans (State.still_setPtp rfl _)

theorem State.still_nowRead (s : State) : s.nowRead.2.still readFoot = s.still readFoot := by
  simp [State.nowRead, mem_readFoot, read_regs]

theorem State.still_ueAddrPop (s : State) : s.ueAddrPop.2.still readFoot = s.still readFoot := by
  refine (State.still_setDram rfl _).trans ((State.still_setPair _ ?_ ?_).trans (State.still_latch rfl _)) <;> exact mem_readFoot.2 (by decide)

theorem State.still_errAddrRead (s : State) : s.errAddrRead.2.still readFoot = s.still readFoot := by
  have hmtx := State.still_setMtx (F := readFoot) (s := s) rfl { s.mtx with err := none }
  simp [State.errAddrRead, mem_readFoot, read_regs, hmtx]

theorem State.still_latchDump (s : State) : s.latchDump.still readFoot = s.still readFoot := by
  unfold State.latchDump
  split
  · simp [mem_readFoot, read_regs]
  · rfl

theorem State.still_panicCount (s : State) : s.panicCount.still readFoot = s.still readFoot := by
  unfold State.panicCount
  dsimp only
  split
  · exact ((State.still_regs (mem_readFoot.2 (by decide))).2.2 _).trans (State.still_setDram rfl _)
  · rfl

theorem State.still_clearRead (s : State) {r : Nat} (hr : r < 0x200000) (base k rc : Nat) :
    (s.clearRead r base k rc).2.still readFoot = s.still readFoot := by
  have hreg := State.still_regs (s := s) (mem_readFoot.2 hr)
  unfold State.clearRead
  dsimp only
  split
  · exact hreg.2.1 _
  · exact hreg.2.1 _

theorem still_snd_ite {F : Foot} {c : Prop} {_ : Decidable c} {a b : Nat × State} {s : State} (ha : c → a.2.still F = s.still F)
    (hb : ¬ c → b.2.still F = s.still F) : (if c then a else b).2.still F = s.still F := by
  by_cases h : c
  · rw [if_pos h]
    exact ha h
  · rw [if_neg h]
    exact hb h

/-- A read keeps what it does not name: any register but MDATA, whose read corrects its core's word. -/
theorem State.still_busRead (s : State) {r : Nat} (hr : r < 0x200000) (hm : r ≠ CLE.MDATA) :
    (s.busRead r).2.still readFoot = s.still readFoot := by
  unfold State.busRead
  split
  next => rfl
  next row k =>
    dsimp only
    refine still_snd_ite (fun _ => State.still_mailRead ..) fun _ => ?_
    refine still_snd_ite (fun _ => State.still_stampPop s) fun _ => ?_
    refine still_snd_ite (fun _ => State.still_nowRead s) fun _ => ?_
    refine still_snd_ite (fun _ => State.still_ueAddrPop s) fun _ => ?_
    refine still_snd_ite (fun _ => (State.still_clearRead _ hr ..).trans (State.still_panicCount s)) fun _ => ?_
    refine still_snd_ite (fun _ => State.still_errAddrRead s) fun _ => ?_
    refine still_snd_ite (fun _ => State.still_latchDump s) fun _ => ?_
    refine still_snd_ite (fun h => absurd h hm) fun _ => ?_
    refine still_snd_ite (fun _ => State.still_coefAccess rfl (by decide) ..) fun _ => ?_
    refine still_snd_ite (fun _ => State.still_scaleAccess rfl (by decide) ..) fun _ => ?_
    refine still_snd_ite (fun _ => State.still_windowAccess rfl (by decide) ..) fun _ => ?_
    refine still_snd_ite (fun _ => (State.still_regs (mem_readFoot.2 (by decide))).2.1 _) fun _ => ?_
    refine still_snd_ite (fun _ => rfl) fun _ => ?_
    refine still_snd_ite (fun _ => State.still_latch rfl _) fun _ => ?_
    exact still_snd_ite (fun _ => State.still_clearRead s hr ..) fun _ => rfl

/-- What a state keeps, its clerk cores apart. -/
def State.coreless (s : State) : Still := { s.still readFoot with core := fun _ => Core.reset.sansPend }

theorem State.coreless_of_still {s u : State} (h : u.still readFoot = s.still readFoot) : u.coreless = s.coreless := by
  unfold State.coreless
  rw [h]

theorem State.coreless_mdataRead (s : State) : s.mdataRead.2.coreless = s.coreless := by
  have hcorr (n : Nat) (keys : List Nat) : (s.eccCorrected n keys).coreless = s.coreless := by
    unfold State.eccCorrected
    dsimp only
    split
    · rfl
    · refine (State.coreless_of_still ((State.still_raise (mem_readFoot.2 (by decide))).trans
        ((State.still_regs (mem_readFoot.2 (by decide))).2.2 _))).trans ?_
      rfl
  refine (State.coreless_of_still ((State.still_flds (mem_readFoot.2 (by decide))).1 _)).trans ?_
  split
  · exact hcorr ..
  · rfl

/-! ## Accesses -/

theorem busRead_mdata (s : State) : s.busRead CLE.MDATA = s.mdataRead := rfl

theorem State.still_readCount (s : State) {r : Nat} (hr : r < 0x1F0000) (k n : Nat) : (s.count (r / 65536) k n).still readFoot = s.still readFoot :=
  State.still_count k n (by omega)

theorem State.still_answerRead (s : State) (m : Nat) {r : Nat} (hr : r < 0x1F0000) (hm : r ≠ CLE.MDATA) :
    (s.answerRead m r).still readFoot = s.still readFoot := by
  unfold State.answerRead State.regRead
  split
  · exact State.still_holdTxn rfl (by decide) ..
  · cases s.regRefused r
    · exact (State.still_busRead _ (by omega) hm).trans (s.still_readCount hr 2 1)
    · exact State.still_errorTo rfl (by decide) (by decide) ..

theorem State.coreless_answerRead_mdata (s : State) (m : Nat) : (s.answerRead m CLE.MDATA).coreless = s.coreless := by
  unfold State.answerRead State.regRead
  split
  · exact State.coreless_of_still (State.still_holdTxn rfl (by decide) ..)
  · cases s.regRefused CLE.MDATA
    · exact (State.coreless_mdataRead (s.count (CLE.MDATA / 65536) 2 1)).trans (State.coreless_of_still (s.still_readCount (by decide) 2 1))
    · exact State.coreless_of_still (State.still_errorTo rfl (by decide) (by decide) ..)

/-- An access to a register of the region, when its master may issue it. -/
theorem State.lt_of_mayAccess {s : State} {m r : Nat} (h : s.mayAccess m r = true) : r < 0x1F0000 := by
  simp only [State.mayAccess, regOffset, Bool.and_eq_true, decide_eq_true_eq] at h
  exact h.1.2.1

theorem stays_read {s : State} {m r t : Nat} {c : Bool} (hc : c = true → r < 0x1F0000) (hm : r ≠ CLE.MDATA) :
    Stays readFoot s (doneIf (s.at t) c (fun s => s.answerRead m r)) := by
  rw [stays_doneIf]
  split
  next h => exact State.still_answerRead _ m (hc h) hm
  next => rfl

theorem coreless_read {s u : State} {m r t : Nat} (h : doneIf (s.at t) (s.mayAccess m r) (fun s => s.answerRead m r) = .next u) :
    u.coreless = s.coreless := by
  by_cases hm : r = CLE.MDATA
  · subst hm
    cases h
    split
    · exact State.coreless_answerRead_mdata _ m
    · rfl
  · exact State.coreless_of_still (stays_read State.lt_of_mayAccess hm u h)

/-- A read command keeps what it does not read, and unless it reads MDATA the clerk cores too. -/
theorem reads_keep {c : Instr} {s u : State} (hc : readCommand c = true) (he : exec c s = .next u) :
    u.coreless = s.coreless ∧
      ((∀ m t, c ≠ .readClear m CLE.MDATA t ∧ c ≠ .latchingRead m CLE.MDATA t) → u.still readFoot = s.still readFoot) := by
  have hall (h : u.still readFoot = s.still readFoot) : u.coreless = s.coreless ∧
      ((∀ m t, c ≠ .readClear m CLE.MDATA t ∧ c ≠ .latchingRead m CLE.MDATA t) → u.still readFoot = s.still readFoot) :=
    ⟨State.coreless_of_still h, fun _ => h⟩
  unfold readCommand at hc
  split at hc
  next m r t =>
    exact ⟨coreless_read he, fun hne => stays_read State.lt_of_mayAccess (fun hm => (hne m t).1 (by rw [hm])) u he⟩
  next m r t =>
    exact ⟨coreless_read he, fun hne => stays_read State.lt_of_mayAccess (fun hm => (hne m t).2 (by rw [hm])) u he⟩
  next b m t =>
    have hb : mailReg b ≠ CLE.MDATA := by
      unfold mailReg
      split_ifs <;> decide
    exact hall (stays_read (fun _ => mailReg_lt b) hb u he)
  next m t => exact hall (stays_read (fun _ => by decide) (by decide) u he)
  next m => exact hall ((stays_done s (s.errAddrRead.2.emit (.readData m s.errAddrRead.1))).2 (State.still_errAddrRead s) u he)
  next m t => exact hall ((stays_done s ((s.at t).nowRead.2.emit (.readData m (s.at t).nowRead.1))).2 (State.still_nowRead (s.at t)) u he)
  next m => exact hall ((stays_done s (s.stampPop.2.emit (.readData m s.stampPop.1))).2 (State.still_stampPop s) u he)
  next m => exact hall ((stays_done s (s.ueAddrPop.2.emit (.readData m s.ueAddrPop.1))).2 (State.still_ueAddrPop s) u he)
  next m => exact hall ((stays_done s (s.latchDump.emit (.readData m (s.regN (STL.DSEQ 0))))).2 (State.still_latchDump s) u he)
  next => contradiction

/-- Settles O50. -/
theorem frameOfReads : Obligations.frame_of_reads := by
  intro c s u hc he
  obtain ⟨hless, hstill⟩ := reads_keep hc he
  exact ⟨State.eq_overlay hless, fun hne => State.coreKept_of_still (hstill hne)⟩

end Sys2Proof.Machine
end

section
/-! SUPPORT. Memory that is not in its canonical form (O51 has no premise that it is). -/
namespace Sys2Proof.Machine

/-- A device about to read its first flash slot, one zero byte long, to staging address 8. Its memory lists address 8 before address 7, so
no read finds the entry of address 7 until that of address 8 goes. -/
def outOfOrderMemory : State :=
  (({ State.reset with mem := [(8, 1#8), (7, 7#8)],
                       flash := [(0, 0), (0x10, 1), (0x11, 0), (0x12, 0), (0x13, 0), (0x14, 0), (0x15, 0), (0x16, 0), (0x17, 0)] } : State).setRegN
    CFG.STAGE_LO 8).setLd ldSTAGING

/-- The byte below the image appears when the zero stored at 8 takes the entry of address 8 away. -/
theorem flashBootRead_uncovers : Completes (.flashBootRead 0) outOfOrderMemory (fun u => u.byte 7 = 7#8) :=
  ⟨_, rfl, by decide⟩

/-- Refutes O51: memory out of canonical order, which the statement does not exclude. There a store that removes an entry uncovers the one of
another address, as the flash boot read's clause shows. -/
theorem not_memoryFrameOfStores : ¬ Obligations.memory_frame_of_stores := by
  rintro ⟨-, -, hboot, -⟩
  obtain ⟨u, hu, h7⟩ := flashBootRead_uncovers
  have hkept : u.byte 7 = outOfOrderMemory.byte 7 := hboot 0 outOfOrderMemory u hu 7 (by decide)
  have hbefore : outOfOrderMemory.byte 7 = 0#8 := by decide
  rw [h7, hbefore] at hkept
  exact absurd hkept (by decide)

end Sys2Proof.Machine
end

section
/-! SUPPORT. Reads of registers as rewriting rules: past updates of the other fields, and past updates of other registers and bits, whose
conditions on addresses `decide` settles. -/
namespace Sys2Proof.Machine

section
variable {t : State} {now up mem sent free bell latch frameFlags skips evts evtLoss ing front chan schedule pit can ring dram outs corr aisle crown
  cal clk mel ptp pwr led thm otp sec cfg mtx flash por pmc shed deferred cores started ended pushed trigQ msixMask msixPend porTrig alertDirect
  pending}


theorem State.reg_mk (r : Reg) : (State.mk t.part t.serial now up t.regs mem sent free bell latch frameFlags skips evts evtLoss ing front
    chan schedule pit can ring dram outs corr aisle crown cal clk mel ptp pwr led thm otp sec cfg mtx flash por pmc shed deferred cores started
    ended pushed trigQ msixMask msixPend porTrig alertDirect pending).reg r = t.reg r := rfl

theorem State.regN_mk (r : Reg) : (State.mk t.part t.serial now up t.regs mem sent free bell latch frameFlags skips evts evtLoss ing front
    chan schedule pit can ring dram outs corr aisle crown cal clk mel ptp pwr led thm otp sec cfg mtx flash por pmc shed deferred cores started
    ended pushed trigQ msixMask msixPend porTrig alertDirect pending).regN r = t.regN r := rfl

theorem State.fld_mk (f : Fld) : (State.mk t.part t.serial now up t.regs mem sent free bell latch frameFlags skips evts evtLoss ing front
    chan schedule pit can ring dram outs corr aisle crown cal clk mel ptp pwr led thm otp sec cfg mtx flash por pmc shed deferred cores started
    ended pushed trigQ msixMask msixPend porTrig alertDirect pending).fld f = t.fld f := rfl

theorem State.flag_mk (f : Fld) : (State.mk t.part t.serial now up t.regs mem sent free bell latch frameFlags skips evts evtLoss ing front
    chan schedule pit can ring dram outs corr aisle crown cal clk mel ptp pwr led thm otp sec cfg mtx flash por pmc shed deferred cores started
    ended pushed trigQ msixMask msixPend porTrig alertDirect pending).flag f = t.flag f := rfl

end

/-! ## Reads past an update of another register, or of other bits -/

section
variable {s : State}

/-- A read past writes of another register. -/
theorem State.reads_ne {r x : Reg} (h : x ≠ r) :
    (∀ v, (s.setReg r v).reg x = s.reg x) ∧ (∀ n, (s.setRegN r n).reg x = s.reg x) ∧ (∀ k, (s.bump r k).reg x = s.reg x) ∧
    (∀ v, (s.setReg r v).regN x = s.regN x) ∧ (∀ n, (s.setRegN r n).regN x = s.regN x) ∧ ∀ k, (s.bump r k).regN x = s.regN x := by
  refine ⟨fun v => ?_, fun v => ?_, fun v => ?_, fun v => ?_, fun v => ?_, fun v => ?_⟩
  · exact (s.reads_setReg_ne _ h).1
  · exact (s.reads_setReg_ne _ h).1
  · exact (s.reads_setReg_ne _ h).1
  · exact (s.reads_setReg_ne _ h).2
  · exact (s.reads_setReg_ne _ h).2
  · exact (s.reads_setReg_ne _ h).2

theorem State.reads_fld_ne {f : Fld} {x : Reg} (h : x ≠ f.reg) :
    (∀ n, (s.setFld f n).reg x = s.reg x) ∧ (∀ b, (s.setFlag f b).reg x = s.reg x) ∧
    (∀ n, (s.setFld f n).regN x = s.regN x) ∧ ∀ b, (s.setFlag f b).regN x = s.regN x :=
  ⟨fun _ => (s.reads_setReg_ne _ h).1, fun _ => (s.reads_setReg_ne _ h).1, fun _ => (s.reads_setReg_ne _ h).2, fun _ => (s.reads_setReg_ne _ h).2⟩

theorem State.reads_past_raise {f : Fld} {x : Reg} (hb : f.reg / 65536 < 32) (h : x ≠ f.reg) (h2 : x / 65536 ≠ 29) :
    (s.raise f).reg x = s.reg x ∧ (s.raise f).regN x = s.regN x ∧ (∀ c, (s.raiseIf c f).reg x = s.reg x) ∧
    ∀ c, (s.raiseIf c f).regN x = s.regN x := by
  have hr := s.reg_raise_ne f hb h h2
  refine ⟨hr, congrArg BitVec.toNat hr, fun c => ?_, fun c => ?_⟩
  · cases c
    · rfl
    · exact hr
  · cases c
    · rfl
    · exact congrArg BitVec.toNat hr

theorem State.fields_ne {r : Reg} {g : Fld} (h : g.reg ≠ r) :
    (∀ v, (s.setReg r v).fld g = s.fld g) ∧ (∀ n, (s.setRegN r n).fld g = s.fld g) ∧ (∀ k, (s.bump r k).fld g = s.fld g) ∧
    (∀ v, (s.setReg r v).flag g = s.flag g) ∧ (∀ n, (s.setRegN r n).flag g = s.flag g) ∧ ∀ k, (s.bump r k).flag g = s.flag g :=
  ⟨fun _ => s.fld_setReg_ne _ h, fun _ => s.fld_setReg_ne _ h, fun _ => s.fld_setReg_ne _ h,
    fun _ => s.flag_setReg_ne _ h, fun _ => s.flag_setReg_ne _ h, fun _ => s.flag_setReg_ne _ h⟩

theorem State.fld_bits_ne {f g : Fld} (hf : f.lo + f.wid ≤ 32) (h : g.reg ≠ f.reg ∨ g.lo + g.wid ≤ f.lo ∨ f.lo + f.wid ≤ g.lo) :
    (∀ n, (s.setFld f n).fld g = s.fld g) ∧ ∀ b, (s.setFlag f b).fld g = s.fld g :=
  ⟨fun n => s.fld_setFld_ne f g n hf h, fun b => s.fld_setFlag_ne b hf h⟩

theorem State.flag_bits_ne {f g : Fld} (hf : f.lo + f.wid ≤ 32) (h : g.reg ≠ f.reg ∨ g.lo < f.lo ∨ f.lo + f.wid ≤ g.lo) :
    (∀ n, (s.setFld f n).flag g = s.flag g) ∧ ∀ b, (s.setFlag f b).flag g = s.flag g :=
  ⟨fun n => s.flag_setFld_ne f g n hf h, fun b => s.flag_setFlag_ne b hf h⟩

theorem State.fields_past_raise {f g : Fld} (hb : f.reg / 65536 < 32) (h : g.reg ≠ f.reg) (h2 : g.reg / 65536 ≠ 29) :
    (s.raise f).fld g = s.fld g ∧ (s.raise f).flag g = s.flag g ∧ (∀ c, (s.raiseIf c f).fld g = s.fld g) ∧
    ∀ c, (s.raiseIf c f).flag g = s.flag g := by
  refine ⟨s.fld_raise_ne f g hb h h2, s.flag_raise_ne f g hb h h2, fun c => ?_, fun c => ?_⟩
  · cases c
    · rfl
    · exact s.fld_raise_ne f g hb h h2
  · cases c
    · rfl
    · exact s.flag_raise_ne f g hb h h2

theorem State.flag_raiseIf_of_flag {f g : Fld} (c : Bool) (h : s.flag g = true) (h0 : f.reg % 65536 = 0) (hb : f.reg / 65536 < 31)
    (hl : f.lo < 32) (h2 : g.reg / 65536 ≠ 29) : (s.raiseIf c f).flag g = true := by
  cases c
  · exact h
  · exact State.flag_raise_of_flag h h0 hb hl h2

/-- Pulses and counted events change no register outside block 0x1D. -/
theorem State.reads_pulse {k : Nat} {x : Reg} : (s.pulse k).reg x = s.reg x ∧ (s.pulse k).regN x = s.regN x := ⟨rfl, rfl⟩

theorem State.fields_pulse {k : Nat} {g : Fld} : (s.pulse k).fld g = s.fld g ∧ (s.pulse k).flag g = s.flag g := ⟨rfl, rfl⟩


end

end Sys2Proof.Machine
end

section
/-! SUPPORT. Pitch call (R110 to R113): what a device that takes a pitch shows, and the commands of pitch call (O7). -/
namespace Sys2Proof.Machine

/-- A device that takes a pitch shows it, its source and its state, and PITCHED. -/
theorem State.reads_takePitch (s : State) (p src st : Nat) :
    (s.takePitch p src st).fld PIT.STATUS_STATE = st % 8 ∧ (s.takePitch p src st).fld PIT.STATUS_PITCH = p % 64 ∧
    (s.takePitch p src st).fld PIT.STATUS_SRC = src % 4 ∧ (s.takePitch p src st).flag PIT.STAT_PITCHED = true := by
  unfold State.takePitch State.pitchRangeCheck
  refine ⟨?_, ?_, ?_, State.flag_raiseIf_of_flag _ (State.flag_raise _ _ (by decide) (by decide) (by decide)) (by decide) (by decide) (by decide)
    (by decide)⟩
  · simp (disch := decide) only [State.fields_past_raise, ↓State.fld_mk, State.fld_bits_ne, State.fld_setFld] <;> rfl
  · simp (disch := decide) only [State.fields_past_raise, ↓State.fld_mk, State.fld_bits_ne, State.fld_setFld] <;> rfl
  · simp (disch := decide) only [State.fields_past_raise, ↓State.fld_mk, State.fld_setFld] <;> rfl

/-- A follower that begins pitch call listens, its timer on. -/
theorem State.pitchCall_of_follower {s : State} (h : s.isLead = false) :
    s.pitchCall.fld PIT.STATUS_STATE = 0 ∧ s.pitchCall.pit.timerOn = true ∧ s.pitchCall.can = s.can := by
  unfold State.pitchCall
  rw [if_neg (by simp [h])]
  refine ⟨?_, rfl, rfl⟩
  simp (disch := decide) only [↓State.fld_mk, State.fld_bits_ne, State.fld_setFld] <;> rfl

theorem State.pitchCall_of_lead {s : State} (h : s.isLead = true) : s.pitchCall = s.takePitch 0 0 3 := by
  unfold State.pitchCall
  rw [if_pos h]

/-- The second of two equal words puts a listening device at its pitch (R111). -/
theorem State.pitchWordCounted_of_pair {s : State} {low : Nat} (hst : s.fld PIT.STATUS_STATE = 0) (hp : s.pit.lastWord = some low)
    (hm : low / 64 = 2) : ∃ v : State, s.pitchWordCounted low = v.takePitch (low % 64) 1 1 := by
  unfold State.pitchWordCounted
  rw [hst]
  have hmark : ¬ (low / 64 == 3) = true := by simp [hm]
  exact ⟨_, (if_neg hmark).trans (if_pos hp)⟩

theorem beAt_succ_le {l : List Byte} {o : Nat} (h : beAt l o 1 ≤ 63) : beAt l o 1 % 64 = beAt l o 1 := Nat.mod_eq_of_lt (by omega)

/-- Settles O7, clause by clause. -/
theorem pitchCommandsComplete : Obligations.pitch_commands_complete := by
  refine ⟨fun t s h => ?_, fun w s hw h3 => ?_, fun w s hw h0 hp hm hne => ?_, fun t s h0 hon hat => ?_, fun t s hst hl => ?_, fun t s hst hl => ?_,
    fun t s hst => ?_, fun v s h6 h2 hne => ?_, fun v s h6 h => ?_, fun p f room s hty hsub h2 hser hpos hle hch => ?_⟩
  · have h' : (s.at t).hasPitch = true := h
    refine .of (congrArg done (if_pos h')) ?_
    rfl
  · refine .of (by rw [show exec (.pitchWordRx w) s = execPitchWordRx w s from rfl, execPitchWordRx, if_pos hw]; exact if_pos (.inl h3)) ⟨?_, ?_⟩
    · exact State.fld_setFld _ _ _ (by decide)
    · exact (State.fld_setFld_ne _ _ _ _ (by decide) (by decide)).trans h3
  · have hlow : ¬ (s.fld PIT.STATUS_STATE = 3 ∨ w.word % 256 = 0x80) := by omega
    have h0' : (s.setFld PIT.RXWORD_WORD w.word).fld PIT.STATUS_STATE = 0 := (State.fld_setFld_ne _ _ _ _ (by decide) (by decide)).trans h0
    obtain ⟨v, hv⟩ := State.pitchWordCounted_of_pair h0' hp hm
    have hmod : w.word % 256 % 64 = w.word % 64 := Nat.mod_mod_of_dvd _ (by decide)
    obtain ⟨hs, hpi, hsrc, hf⟩ := v.reads_takePitch (w.word % 256 % 64) 1 1
    refine .of (u := v.takePitch (w.word % 256 % 64) 1 1) ?_ ⟨hs, hpi.trans (by omega), hsrc, hf⟩
    rw [show exec (.pitchWordRx w) s = execPitchWordRx w s from rfl, execPitchWordRx, if_pos hw]
    exact (if_neg hlow).trans (congrArg done hv)
  · have h0' : (s.at t).fld PIT.STATUS_STATE = 0 := h0
    have hc : ((s.at t).fld PIT.STATUS_STATE == 0 && (s.at t).pit.timerOn && decide ((s.at t).pit.timerAt + pitchTimer ≤ (s.at t).up)) = true := by
      simp [h0', hon, hat]
    refine .of (congrArg done (if_pos hc)) ⟨?_, ?_⟩
    · exact (State.fld_raise_ne _ _ _ (by decide) (by decide) (by decide)).trans (State.fld_setFld _ _ _ (by decide))
    · exact State.flag_raise _ _ (by decide) (by decide) (by decide)
  · have hl' : (s.at t).forgetLead.isLead = false := hl
    obtain ⟨hs, hon, hcan⟩ := State.pitchCall_of_follower hl'
    refine .of (congrArg done (if_pos hst)) ⟨hs, hon, ?_, ?_⟩
    · rw [hcan]
      rfl
    · rw [hcan]
      rfl
  · have hl' : (s.at t).forgetLead.isLead = true := hl
    obtain ⟨hs, hp, -, -⟩ := (s.at t).forgetLead.reads_takePitch 0 0 3
    refine .of (congrArg done ((if_pos hst).trans (State.pitchCall_of_lead hl'))) ⟨hs, hp⟩
  · refine .of (congrArg done (if_neg hst)) ⟨State.flag_raise _ _ (by decide) (by decide) (by decide), ?_⟩
    exact State.fld_raise_ne _ _ _ (by decide) (by decide) (by decide)
  · obtain ⟨hs, hp, hsrc, -⟩ := s.reads_takePitch (v.toNat % 64) 2 1
    exact .of (congrArg done ((if_pos h6).trans (if_pos ⟨h2, hne⟩))) ⟨hs, hp.trans (Nat.mod_mod _ _), hsrc⟩
  · exact .of (congrArg done ((if_pos h6).trans (if_neg h))) (State.flag_raise _ _ (by decide) (by decide) (by decide))
  · obtain ⟨hs, hp, hsrc, -⟩ := s.reads_takePitch (beAt (f.drop 14) 10 1) 2 1
    refine .of ?_ ⟨hs, hp.trans (Nat.mod_eq_of_lt (by omega)), hsrc⟩
    exact (if_pos ⟨hty, hsub⟩).trans ((if_pos ⟨h2, hser⟩).trans (if_neg (by omega)))

end Sys2Proof.Machine
end

section
/-! SUPPORT. References (R294 to R306): what disqualifying, ranking and comparing candidates leaves alone, and the reference commands (O24). -/
namespace Sys2Proof.Machine

/-- What messages and measurements write. -/
def MelEng.told (m : MelEng) : Store Nat × Store Nat × Store (Nat × Nat) × List Nat × Store Nat :=
  (m.todAt, m.todSec, m.todPred, m.esmcFailed, m.esmcAt)

/-- u keeps what the choice of references never writes: every register but MEL.STAT, MEL.STATUS and REF_STATUS of the candidates K, the events
raised in MEL.STAT, and the fields of the engine that messages and measurements write. -/
structure RefKept (K : List Nat) (s u : State) : Prop where
  reg : ∀ x, x ≠ MEL.STAT → x ≠ MEL.STATUS → (∀ r ∈ K, x ≠ MEL.REF_STATUS r) → x / 65536 ≠ 29 → u.reg x = s.reg x
  raised : ∀ f : Fld, f.reg = MEL.STAT → s.flag f = true → u.flag f = true
  messages : u.mel.told = s.mel.told
  osc : u.flag MEL.STATUS_OSC = s.flag MEL.STATUS_OSC

variable {K : List Nat}

theorem RefKept.refl (s : State) : RefKept K s s := ⟨fun _ _ _ _ _ => rfl, fun _ _ h => h, rfl, rfl⟩

theorem RefKept.trans {s u w : State} (h : RefKept K s u) (h' : RefKept K u w) : RefKept K s w :=
  ⟨fun x h1 h2 h3 h4 => (h'.reg x h1 h2 h3 h4).trans (h.reg x h1 h2 h3 h4), fun f hf hs => h'.raised f hf (h.raised f hf hs),
    h'.messages.trans h.messages, h'.osc.trans h.osc⟩

theorem RefKept.fld {s u : State} (h : RefKept K s u) {f : Fld} (h1 : f.reg ≠ MEL.STAT) (h2 : f.reg ≠ MEL.STATUS)
    (h3 : ∀ r ∈ K, f.reg ≠ MEL.REF_STATUS r) (h4 : f.reg / 65536 ≠ 29) : u.fld f = s.fld f := by
  unfold State.fld
  rw [h.reg _ h1 h2 h3 h4]

section
variable {s t : State} (h : RefKept K s t)
include h

theorem RefKept.fresh (w : Nat) : RefKept K s (t.fresh w).2 := ⟨h.reg, h.raised, h.messages, h.osc⟩

theorem RefKept.setMel {m : MelEng} (hm : m.told = t.mel.told) : RefKept K s (t.setMel m) := ⟨h.reg, h.raised, hm.trans h.messages, h.osc⟩

theorem RefKept.setStatus (f : Fld) (n : Nat) (hf : f.reg = MEL.STATUS) (hb : f.lo + f.wid ≤ 16 := by decide) : RefKept K s (t.setFld f n) :=
  h.trans ⟨fun x _ h2 _ _ => (State.reads_fld_ne (by rwa [hf])).1 n, fun g hg hs => ((State.fields_ne (by rw [hg, hf]; decide)).2.2.2.1 _).trans hs, rfl,
    (State.flag_bits_ne (hb.trans (by decide)) (.inr (.inr hb))).1 n⟩

theorem RefKept.setRefStatus {r : Nat} (hr : r < 6) (hK : r ∈ K) (f : Fld) (n : Nat) (hf : f.reg = MEL.REF_STATUS r) : RefKept K s (t.setFld f n) := by
  have hstat : MEL.REF_STATUS r ≠ MEL.STAT := by interval_cases r <;> decide
  have hstatus : MEL.STATUS ≠ MEL.REF_STATUS r := by interval_cases r <;> decide
  exact h.trans ⟨fun x _ _ h3 _ => (State.reads_fld_ne (by rw [hf]; exact h3 r hK)).1 n,
    fun g hg hs => ((State.fields_ne (by rw [hg, hf]; exact hstat.symm)).2.2.2.1 _).trans hs, rfl,
    (State.fields_ne (by rw [hf]; exact hstatus)).2.2.2.1 _⟩

theorem RefKept.raise (f : Fld) (hf : f.reg = MEL.STAT) (hl : f.lo < 32) : RefKept K s (t.raise f) :=
  h.trans ⟨fun x h1 _ _ h4 => t.reg_raise_ne f (by rw [hf]; decide) (by rwa [hf]) h4,
    fun g hg hs => State.flag_raise_of_flag hs (by rw [hf]; decide) (by rw [hf]; decide) hl (by rw [hg]; decide), rfl,
    t.flag_raise_ne _ _ (by rw [hf]; decide) (by rw [hf]; decide) (by decide)⟩

theorem RefKept.raiseIf (c : Bool) (f : Fld) (hf : f.reg = MEL.STAT) (hl : f.lo < 32) : RefKept K s (t.raiseIf c f) := by
  cases c
  · exact h
  · exact h.raise f hf hl

theorem RefKept.each {α : Type} (l : List α) {f : State → α → State} (hf : ∀ t, ∀ x ∈ l, RefKept K s t → RefKept K s (f t x)) :
    RefKept K s (t.each l f) := by
  unfold State.each
  induction l generalizing t with
  | nil => exact h
  | cons x l ih => exact ih (hf t x List.mem_cons_self h) fun t y hy => hf t y (List.mem_cons_of_mem _ hy)

/-! ## The choice of references -/

theorem RefKept.follow (r : Nat) : RefKept K s (t.follow r) := (h.setStatus MEL.STATUS_ACTIVE r rfl).setStatus MEL.STATUS_TFLY _ rfl

theorem RefKept.holdFreq : RefKept K s t.holdFreq.2 := by
  unfold State.holdFreq State.meanFreq
  split
  · dsimp only
    split
    · exact h.fresh 32
    · exact h
  · exact h

theorem RefKept.unlock : RefKept K s t.unlock := h.holdFreq.setMel (by rfl)

theorem RefKept.holdOver : RefKept K s t.holdOver := by
  have h1 := h.unlock.follow 7
  unfold State.holdOver
  dsimp only
  split
  · exact (((h1.setMel (by rfl)).setMel (by rfl)).setStatus MEL.STATUS_STATE 3 rfl).raiseIf _ MEL.STAT_HOLDOVER rfl (by decide)
  · exact (h1.setMel (by rfl)).setStatus MEL.STATUS_STATE 0 rfl

theorem RefKept.trimPairs : RefKept K s t.trimPairs := by
  unfold State.trimPairs
  dsimp only
  split
  · exact (h.setMel (by rfl)).setStatus MEL.STATUS_STATE 2 rfl
  · exact h.setMel (by rfl)

theorem RefKept.onceQualified (r : Nat) : RefKept K s (t.onceQualified r) := by
  unfold State.onceQualified
  split
  · exact h
  · exact h.setMel (by rfl)

theorem RefKept.disqualify {r : Nat} (cause : Nat) (hr : r < 6) (hK : r ∈ K) : RefKept K s (t.disqualify r cause) := by
  have hcause := h.setRefStatus hr hK (MEL.REF_STATUS_CAUSE r) (setBit (t.fld (MEL.REF_STATUS_CAUSE r)) cause true) rfl
  have hlost := ((hcause.setRefStatus hr hK (MEL.REF_STATUS_QUAL r) 0 rfl).onceQualified r).raise MEL.STAT_REF_LOST rfl (by decide)
  unfold State.disqualify
  dsimp only
  split
  · exact hcause
  · split
    · split
      · exact (hlost.setMel (by rfl)).holdOver.trimPairs
      · exact (hlost.setMel (by rfl)).trimPairs
    · split
      · exact hlost.holdOver.trimPairs
      · exact hlost.trimPairs

variable (hK : ∀ r, r < 6 → r ∈ K)
include hK

theorem RefKept.refreshRanks : RefKept K s t.refreshRanks := by
  refine h.each _ fun t r hr h => ?_
  have hr : r < 6 := List.mem_range.1 hr
  have hrank := h.setRefStatus hr (hK r hr) (MEL.REF_STATUS_RANK r) (t.rankOf r) rfl
  dsimp only
  split
  · exact hrank.disqualify 5 hr (hK r hr)
  · exact hrank

theorem RefKept.settlePair {i j : Nat} (hi : i < 6) (hj : j < 6) : RefKept K s (t.settlePair i j) := by
  unfold State.settlePair
  split
  · split
    next k hk =>
      cases t.agree i k
      · exact (h.setMel (by rfl)).disqualify 6 hi (hK i hi)
      · exact (h.setMel (by rfl)).disqualify 6 hj (hK j hj)
    next =>
      dsimp only
      have hpair : RefKept K s (if t.mel.pairs.contains (i, j) then t else t.setMel { t.mel with pairs := (i, j) :: t.mel.pairs }) := by
        split
        · exact h
        · exact h.setMel (by rfl)
      generalize (if t.mel.pairs.contains (i, j) then t else t.setMel { t.mel with pairs := (i, j) :: t.mel.pairs }) = u at hpair ⊢
      have hraise (c : Bool) := hpair.raiseIf c MEL.STAT_REF_DISAGREE rfl (by decide)
      split
      · exact (hraise _).setStatus MEL.STATUS_STATE 5 rfl
      · exact hraise _
  · exact (h.setMel (by rfl)).trimPairs

theorem RefKept.settlePairs : RefKept K s (t.each allPairs (fun s p => s.settlePair p.1 p.2)) := by
  refine h.each _ fun t p hp h => ?_
  have hlt : ∀ p ∈ allPairs, p.1 < 6 ∧ p.2 < 6 := by decide
  exact h.settlePair hK (hlt p hp).1 (hlt p hp).2

end

/-! ## Slewing while the reference is locked (R306) -/

/-- What slews: the offset and its rate, in a pair that is locked or in disagreement. -/
def Slewing (o : Int) (w : Nat) (s : State) : Prop := (s.mel.offset = o ∧ s.mel.slew = w) ∧ (s.melState = 2 ∨ s.melState = 5)

theorem melState_setMelState (s : State) {st : Nat} (h : st < 8) : (s.setMelState st).melState = st :=
  (State.fld_setFld s MEL.STATUS_STATE st (by decide)).trans (Nat.mod_eq_of_lt h)

section
variable {o : Int} {w : Nat} {s : State} (h : Slewing o w s)
include h

theorem Slewing.of_eq {u : State} (hm : u.mel.offset = s.mel.offset ∧ u.mel.slew = s.mel.slew) (hs : u.melState = s.melState) : Slewing o w u := by
  obtain ⟨⟨ho, hw⟩, hst⟩ := h
  exact ⟨⟨hm.1.trans ho, hm.2.trans hw⟩, by rwa [hs]⟩

theorem Slewing.setMel {m : MelEng} (hm : m.offset = s.mel.offset ∧ m.slew = s.mel.slew) : Slewing o w (s.setMel m) := h.of_eq hm rfl

theorem Slewing.setRefStatus {r : Nat} (hr : r < 6) (f : Fld) (n : Nat) (hf : f.reg = MEL.REF_STATUS r) : Slewing o w (s.setFld f n) := by
  have hne : MEL.STATUS_STATE.reg ≠ f.reg := by
    rw [hf]
    interval_cases r <;> decide
  exact h.of_eq ⟨rfl, rfl⟩ ((State.fields_ne hne).1 _)

theorem Slewing.raise (f : Fld) (hf : f.reg = MEL.STAT) : Slewing o w (s.raise f) :=
  h.of_eq ⟨rfl, rfl⟩ (s.fld_raise_ne f _ (by rw [hf]; decide) (by rw [hf]; decide) (by decide))

theorem Slewing.setMelState {st : Nat} (hst : st = 2 ∨ st = 5) : Slewing o w (s.setMelState st) := by
  refine ⟨h.1, ?_⟩
  rw [melState_setMelState s (by omega)]
  exact hst

theorem Slewing.trimPairs : Slewing o w s.trimPairs := by
  unfold State.trimPairs
  dsimp only
  split
  · exact (h.setMel (by exact ⟨rfl, rfl⟩)).setMelState (.inl rfl)
  · exact h.setMel (by exact ⟨rfl, rfl⟩)

theorem Slewing.onceQualified (r : Nat) : Slewing o w (s.onceQualified r) := by
  unfold State.onceQualified
  split
  · exact h
  · exact h.setMel (by exact ⟨rfl, rfl⟩)

theorem Slewing.disqualify {r : Nat} (cause : Nat) (hr : r < 6) : Slewing o w (s.disqualify r cause) := by
  have hcause := h.setRefStatus hr (MEL.REF_STATUS_CAUSE r) (setBit (s.fld (MEL.REF_STATUS_CAUSE r)) cause true) rfl
  have hlost := ((hcause.setRefStatus hr (MEL.REF_STATUS_QUAL r) 0 rfl).onceQualified r).raise MEL.STAT_REF_LOST rfl
  have hstay {u : State} (hu : Slewing o w u) : Slewing o w (if (u.melState = 6 && u.melActive = r) = true then u.holdOver.trimPairs else u.trimPairs) := by
    have hne : ¬ ((u.melState = 6 && u.melActive = r) = true) := by
      obtain ⟨-, h2 | h5⟩ := hu
      · simp [h2]
      · simp [h5]
    rw [if_neg hne]
    exact hu.trimPairs
  unfold State.disqualify
  dsimp only
  split
  · exact hcause
  · refine hstay ?_
    split
    · exact hlost.setMel (by exact ⟨rfl, rfl⟩)
    · exact hlost

theorem Slewing.settlePair {i j : Nat} (hi : i < 6) (hj : j < 6) : Slewing o w (s.settlePair i j) := by
  unfold State.settlePair
  split
  · split
    next k hk =>
      cases s.agree i k
      · exact (h.setMel (by exact ⟨rfl, rfl⟩)).disqualify 6 hi
      · exact (h.setMel (by exact ⟨rfl, rfl⟩)).disqualify 6 hj
    next =>
      dsimp only
      have hpair : Slewing o w (if s.mel.pairs.contains (i, j) then s else s.setMel { s.mel with pairs := (i, j) :: s.mel.pairs }) := by
        split
        · exact h
        · exact h.setMel (by exact ⟨rfl, rfl⟩)
      generalize (if s.mel.pairs.contains (i, j) then s else s.setMel { s.mel with pairs := (i, j) :: s.mel.pairs }) = u at hpair ⊢
      have hraise (c : Bool) : Slewing o w (u.raiseIf c MEL.STAT_REF_DISAGREE) := by
        cases c
        · exact hpair
        · exact hpair.raise _ rfl
      split
      · exact (hraise _).setMelState (.inr rfl)
      · exact hraise _
  · exact (h.setMel (by exact ⟨rfl, rfl⟩)).trimPairs

theorem Slewing.settlePairs : Slewing o w (s.each allPairs (fun s p => s.settlePair p.1 p.2)) := by
  have hlt : ∀ p ∈ allPairs, p.1 < 6 ∧ p.2 < 6 := by decide
  unfold State.each
  generalize allPairs = l at hlt
  induction l generalizing s with
  | nil => exact h
  | cons p l ih =>
    have hp := hlt p List.mem_cons_self
    exact ih (h.settlePair hp.1 hp.2) fun q hq => hlt q (List.mem_cons_of_mem _ hq)

end

/-! ## Registers of the candidates -/

theorem refQl_ne : ∀ r, r < 6 → (MEL.REF_QL_CODE r).reg ≠ MEL.STAT ∧ (MEL.REF_QL_CODE r).reg ≠ MEL.STATUS ∧
    (∀ k, k < 6 → (MEL.REF_QL_CODE r).reg ≠ MEL.REF_STATUS k) ∧ (MEL.REF_QL_CODE r).reg / 65536 ≠ 29 := by decide

/-- A candidate's quality level as a message sets it, its ranks as they follow. -/
theorem State.ql_refreshRanks (s : State) {r : Nat} (hr : r < 6) (q : Nat) :
    ((s.setFld (MEL.REF_QL_CODE r) (q % 16)).refreshRanks).fld (MEL.REF_QL_CODE r) = q % 16 := by
  obtain ⟨h1, h2, h3, h4⟩ := refQl_ne r hr
  rw [(RefKept.refl _).refreshRanks (fun r hr => List.mem_range.2 hr) |>.fld h1 h2 (fun k hk => h3 k (List.mem_range.1 hk)) h4, State.fld_setFld _ _ _ (Nat.le_of_ble_eq_true rfl)]
  exact Nat.mod_eq_of_lt (lt_of_lt_of_le (Nat.mod_lt q (by decide)) (Nat.le_of_ble_eq_true rfl))

theorem State.regs_settlePairs (s : State) {x : Reg} (h1 : x ≠ MEL.STAT) (h2 : x ≠ MEL.STATUS) (h3 : ∀ k, k < 6 → x ≠ MEL.REF_STATUS k)
    (h4 : x / 65536 ≠ 29) : (s.each allPairs (fun s p => s.settlePair p.1 p.2)).regN x = s.regN x :=
  congrArg BitVec.toNat (((RefKept.refl s).settlePairs fun _ hr => List.mem_range.2 hr).reg x h1 h2 (fun k hk => h3 k (List.mem_range.1 hk)) h4)

/-- The second's measurements enter FOFF and TOFF. -/
def State.measured (foff toff : List Int) (s : State) : State :=
  s.each (List.range 6) (fun (s : State) r =>
    let s := s.setRegN (MEL.REF_FOFF r) (ofSigned 32 (clampI (-(2 ^ 31)) (2 ^ 31 - 1) (atD foff r 0)))
    if r < 3 then s.setRegN (MEL.REF_TOFF r) (ofSigned 32 (clampI (-(2 ^ 31)) (2 ^ 31 - 1) (atD toff r 0))) else s)

theorem State.regN_setRegN_ofSigned (s : State) (r : Reg) (i : Int) : (s.setRegN r (ofSigned 32 i)).regN r = ofSigned 32 i :=
  s.regN_setRegN r (ofSigned_lt 32 i)

theorem State.foff_measured (foff toff : List Int) (s : State) {r : Nat} (hr : r < 6) :
    (s.measured foff toff).regN (MEL.REF_FOFF r) = ofSigned 32 (clampI (-(2 ^ 31)) (2 ^ 31 - 1) (atD foff r 0)) := by
  unfold State.measured State.each
  interval_cases r <;> simp (disch := decide) [List.range_succ, State.reads_ne, State.regN_setRegN_ofSigned]

theorem State.toff_measured (foff toff : List Int) (s : State) {r : Nat} (hr : r < 3) :
    (s.measured foff toff).regN (MEL.REF_TOFF r) = ofSigned 32 (clampI (-(2 ^ 31)) (2 ^ 31 - 1) (atD toff r 0)) := by
  unfold State.measured State.each
  interval_cases r <;> simp (disch := decide) [List.range_succ, State.reads_ne, State.regN_setRegN_ofSigned]

theorem State.keys_measured (foff toff : List Int) (s : State) : (s.measured foff toff).mel = s.mel ∧
    (∀ f : Fld, (∀ r, r < 6 → f.reg ≠ MEL.REF_FOFF r) → (∀ r, r < 3 → f.reg ≠ MEL.REF_TOFF r) → (s.measured foff toff).fld f = s.fld f) := by
  constructor
  · unfold State.measured State.each
    exact foldl_proj State.mel (fun t r => by dsimp only; split <;> rfl) _ _
  · intro f hf ht
    unfold State.measured State.each
    have h : ∀ l : List Nat, (∀ r ∈ l, r < 6) → ∀ t : State, (l.foldl (fun (s : State) r =>
        let s := s.setRegN (MEL.REF_FOFF r) (ofSigned 32 (clampI (-(2 ^ 31)) (2 ^ 31 - 1) (atD foff r 0)))
        if r < 3 then s.setRegN (MEL.REF_TOFF r) (ofSigned 32 (clampI (-(2 ^ 31)) (2 ^ 31 - 1) (atD toff r 0))) else s) t).fld f = t.fld f := by
      intro l hl
      induction l with
      | nil => exact fun _ => rfl
      | cons r l ih =>
        intro t
        refine (ih (fun x hx => hl x (List.mem_cons_of_mem _ hx)) _).trans ?_
        have hfoff := (State.fields_ne (s := t) (hf r (hl r List.mem_cons_self))).2.1
        dsimp only
        split
        next h3 => exact ((State.fields_ne (ht r h3)).2.1 _).trans (hfoff _)
        next => exact hfoff _
    exact h _ (fun r hr => List.mem_range.1 hr) s

theorem State.refOn_lt {s : State} {r : Nat} (h : s.refOn r = true) : r < 6 := by
  simp only [State.refOn, Bool.and_eq_true, decide_eq_true_eq] at h
  exact h.1

theorem State.bestRef_lt {s : State} {b : Nat} (h : s.bestRef = some b) : b < 6 := by
  have hall : ∀ (l : List Nat) (o : Option Nat), (∀ r ∈ l, r < 6) → (∀ x, o = some x → x < 6) → ∀ x,
      l.foldl (fun (b : Option Nat) r => match b with
        | some x => if s.refBefore r x then some r else b
        | none => some r) o = some x → x < 6 := by
    intro l
    induction l with
    | nil => exact fun o _ ho x hx => ho x hx
    | cons r l ih =>
      intro o hl ho x hx
      refine ih _ (fun y hy => hl y (List.mem_cons_of_mem _ hy)) ?_ x hx
      intro y hy
      have hr := hl r List.mem_cons_self
      dsimp only at hy
      split at hy
      · split at hy
        · exact Option.some.inj hy ▸ hr
        · exact ho y hy
      · exact Option.some.inj hy ▸ hr
  refine hall _ none (fun r hr => List.mem_range.1 (List.mem_of_mem_filter hr)) (fun x hx => ?_) b h
  contradiction

theorem State.mel_refreshRanks (s : State) : s.refreshRanks.mel.todAt = s.mel.todAt ∧ s.refreshRanks.mel.todSec = s.mel.todSec ∧
    s.refreshRanks.mel.esmcFailed = s.mel.esmcFailed := by
  have h := ((RefKept.refl s).refreshRanks fun _ hr => List.mem_range.2 hr).messages
  simp only [MelEng.told, Prod.mk.injEq] at h
  exact ⟨h.1, h.2.1, h.2.2.2.1⟩

theorem refStatus_ne : ∀ r, r < 6 → MEL.REF_STATUS r ≠ MEL.STAT ∧ MEL.REF_STATUS r ≠ MEL.STATUS ∧ MEL.REF_STATUS r / 65536 ≠ 29 := by decide

/-- A candidate that fails a check shows the cause and is disqualified at once (R298). -/
theorem State.reads_disqualify (s : State) {r : Nat} (hr : r < 6) (hq : s.refQual r ≠ 0) :
    (s.disqualify r 0).refQual r = 0 ∧ ((s.disqualify r 0).fld (MEL.REF_STATUS_CAUSE r)).testBit 0 = true ∧
    (s.disqualify r 0).flag MEL.STAT_REF_LOST = true := by
  obtain ⟨h1, h2, h4⟩ := refStatus_ne r hr
  let c := s.setFld (MEL.REF_STATUS_CAUSE r) (setBit (s.fld (MEL.REF_STATUS_CAUSE r)) 0 true)
  let s1 := ((c.setFld (MEL.REF_STATUS_QUAL r) 0).onceQualified r).raise MEL.STAT_REF_LOST
  have honce (v : State) (f : Fld) : (v.onceQualified r).fld f = v.fld f := by
    unfold State.onceQualified
    split <;> rfl
  have hqual : s1.fld (MEL.REF_STATUS_QUAL r) = 0 := by
    refine (State.fields_past_raise (by decide) h1 h4).1.trans ((honce _ _).trans ?_)
    exact State.fld_setFld _ _ _ (Nat.le_of_ble_eq_true rfl)
  have hcause : (s1.fld (MEL.REF_STATUS_CAUSE r)).testBit 0 = true := by
    have : s1.fld (MEL.REF_STATUS_CAUSE r) = c.fld (MEL.REF_STATUS_CAUSE r) :=
      (State.fields_past_raise (by decide) h1 h4).1.trans ((honce _ _).trans
        ((State.fld_bits_ne (Nat.le_of_ble_eq_true rfl) (.inr (.inr (Nat.le_of_ble_eq_true rfl)))).1 _))
    rw [this, State.fld_setFld _ _ _ (Nat.le_of_ble_eq_true rfl)]
    exact (Nat.testBit_mod_two_pow _ 7 0).trans (by rw [testBit_setBit]; rfl)
  have hlost : s1.flag MEL.STAT_REF_LOST = true := State.flag_raise _ _ (by decide) (by decide) (by decide)
  have hkept : RefKept [] s1 (s.disqualify r 0) := by
    have hstep {w : State} (hw : RefKept [] s1 w) :
        RefKept [] s1 (if (w.melState = 6 && w.melActive = r) = true then w.holdOver.trimPairs else w.trimPairs) := by
      split
      · exact hw.holdOver.trimPairs
      · exact hw.trimPairs
    unfold State.disqualify
    dsimp only
    rw [if_neg hq]
    refine hstep ?_
    split
    · exact (RefKept.refl s1).setMel (by rfl)
    · exact .refl s1
  have hfld (f : Fld) (hf : f.reg = MEL.REF_STATUS r) : (s.disqualify r 0).fld f = s1.fld f :=
    hkept.fld (by rwa [hf]) (by rwa [hf]) (by simp) (by rwa [hf])
  refine ⟨(hfld _ rfl).trans hqual, ?_, hkept.raised _ rfl hlost⟩
  rw [hfld (MEL.REF_STATUS_CAUSE r) rfl]
  exact hcause

theorem State.esmcQl_snd (s : State) (p : Nat) : s.esmcQl p = ((s.esmcQl p).1, s) ∨ s.esmcQl p = s.fresh 4 := by
  unfold State.esmcQl
  dsimp only
  split_ifs
  · exact .inl rfl
  · exact .inl rfl
  · exact .inl rfl
  · exact .inl rfl
  · exact .inl rfl
  · exact .inr rfl

theorem State.svcUp_esmcQl (s : State) (p q : Nat) : (s.esmcQl p).2.svcUp q = s.svcUp q := by
  obtain h | h := s.esmcQl_snd p
  · rw [h]
  · rw [h]
    rfl

/-- A frame of the device's own is the last to leave. -/
theorem State.sent_svcSend {s : State} {p : Nat} (frame : List Byte) (h : s.svcUp p = true) :
    ∃ l, (s.svcSend p frame).sent = .svcFrame p frame :: l := by
  unfold State.svcSend
  rw [if_pos h]
  exact ⟨_, rfl⟩

/-- What the state reads after a reference is followed. -/
theorem State.reads_follow (s : State) {r : Nat} (hr : r < 8) : (s.follow r).melActive = r ∧ (s.follow r).melState = s.melState := by
  refine ⟨?_, ?_⟩
  · refine (State.fld_setFlag_ne _ (by decide) (by decide)).trans ((State.fld_setFld _ _ _ (by decide)).trans (Nat.mod_eq_of_lt hr))
  · exact (State.fld_setFlag_ne _ (by decide) (by decide)).trans (State.fld_setFld_ne _ _ _ _ (by decide) (by decide))

/-- From lock a reference is selected by a switch. -/
theorem State.selectRef_of_locked {s : State} {b : Nat} (h : s.melState = 2) (hb : b < 8) : (s.selectRef b).melState = 6 ∧
    (s.selectRef b).melActive = b ∧ (s.selectRef b).fld MEL.STATUS_TARGET = b ∧ (s.selectRef b).flag MEL.STAT_SWITCH = true := by
  have ha := (s.reads_follow hb).1
  unfold State.selectRef
  rw [if_pos (.inl h)]
  refine ⟨?_, ?_, ?_, State.flag_raise _ _ (by decide) (by decide) (by decide)⟩
  · refine (State.fld_raise_ne _ _ _ (by decide) (by decide) (by decide)).trans (melState_setMelState _ (by decide))
  · refine (State.fld_raise_ne _ _ _ (by decide) (by decide) (by decide)).trans ((State.fld_setFld_ne _ _ _ _ (by decide) (by decide)).trans
      ((State.fld_setFld_ne _ _ _ _ (by decide) (by decide)).trans ha))
  · refine (State.fld_raise_ne _ _ _ (by decide) (by decide) (by decide)).trans ((State.fld_setFld_ne _ _ _ _ (by decide) (by decide)).trans ?_)
    exact (State.fld_setFld _ _ _ (by decide)).trans (Nat.mod_eq_of_lt hb)

/-- Out of lock a reference is acquired. -/
theorem State.selectRef_of_freeRun {s : State} {b : Nat} (h : s.melState = 0) (hb : b < 8) : (s.selectRef b).melState = 1 ∧
    (s.selectRef b).melActive = b ∧ (s.selectRef b).mel.acqSince = some s.up := by
  unfold State.selectRef
  rw [if_neg (by simp [h])]
  refine ⟨melState_setMelState _ (by decide), ?_, rfl⟩
  exact (State.fld_setFld_ne _ _ _ _ (by decide) (by decide)).trans (State.reads_follow _ hb).1

theorem State.refEvaluate_of_best {s : State} {b : Nat} (h2 : s.melState ≠ 6 ∧ s.melState ≠ 7) (hho : s.flag MEL.CTRL_FORCE_HO = false)
    (hb : s.bestRef = some b) (hsel : s.noSelection = true ∨ s.noSelection = false ∧ b ≠ s.melActive ∧ s.selectionDue s.melActive b = true) :
    s.refEvaluate = s.selectRef b := by
  unfold State.refEvaluate
  rw [if_neg (by simp [h2, hho]), hb]
  obtain hn | ⟨hn, hdue⟩ := hsel
  · rw [hn]
  · rw [hn]
    exact if_pos hdue

theorem toSigned_ofSigned {i : Int} (h1 : -(2 ^ 31) ≤ i) (h2 : i < 2 ^ 31) : toSigned 32 (ofSigned 32 (clampI (-(2 ^ 31)) (2 ^ 31 - 1) i)) = i := by
  have hc : clampI (-(2 ^ 31)) (2 ^ 31 - 1) i = i := by
    unfold clampI
    rw [if_neg (by omega), if_neg (by omega)]
  rw [hc]
  unfold toSigned ofSigned
  dsimp only
  split <;> omega

theorem State.keys_trackRef (s : State) : s.trackRef.regKey = s.regKey := by
  unfold State.trackRef
  dsimp only
  split <;> rfl

/-- The state after a second's measurements, before the candidates are compared. -/
def State.tracked (s : State) : State :=
  s.trackRef.raiseIf ((s.melState == 2 || s.melState == 5) && givesTime s.melActive &&
    decide (1000 < (toSigned 32 (s.regN (MEL.REF_TOFF s.melActive))).natAbs)) MEL.STAT_TOFF_BIG

/-- The candidates are compared once the second's values are in. -/
def State.compared (s : State) : State :=
  (s.tracked.setMel { s.tracked.mel with disagBy := s.tracked.mel.disagBy.filter (fun (p : Nat × Nat) => !s.tracked.agree p.1 p.2) }).each allPairs
    (fun s p => s.settlePair p.1 p.2)

theorem exec_disagreeCheck {s : State} (foff toff : List Int) (t : Nat) (h : s.mel.started = true) :
    exec (.disagreeCheck foff toff t) s = .next ((s.at t).measured foff toff).compared := by
  have he : exec (.disagreeCheck foff toff t) s = doneIf (s.at t) s.mel.started (fun s => (s.measured foff toff).compared) := rfl
  rw [he, h]
  rfl

theorem State.regN_tracked (s : State) {x : Reg} (h : x ≠ MEL.STAT) (h29 : x / 65536 ≠ 29) : s.tracked.regN x = s.regN x :=
  ((State.reads_past_raise (by decide) h h29).2.2.2 _).trans ((State.reads_of_regKey s.keys_trackRef).2.1 x)

theorem State.regN_compared (s : State) {x : Reg} (h1 : x ≠ MEL.STAT) (h2 : x ≠ MEL.STATUS) (h3 : ∀ k, k < 6 → x ≠ MEL.REF_STATUS k)
    (h4 : x / 65536 ≠ 29) : s.compared.regN x = s.regN x := by
  unfold State.compared
  rw [State.regs_settlePairs _ h1 h2 h3 h4]
  exact s.regN_tracked h1 h4

theorem measure_regs : (∀ r, r < 6 → MEL.REF_FOFF r ≠ MEL.STAT ∧ MEL.REF_FOFF r ≠ MEL.STATUS ∧ (∀ k, k < 6 → MEL.REF_FOFF r ≠ MEL.REF_STATUS k) ∧
    MEL.REF_FOFF r / 65536 ≠ 29 ∧ MEL.STATUS ≠ MEL.REF_FOFF r ∧ MEL.DPLL ≠ MEL.REF_FOFF r ∧ MEL.REFCFG ≠ MEL.REF_FOFF r ∧
      ∀ k, k < 6 → MEL.REF_STATUS k ≠ MEL.REF_FOFF r) ∧
    ∀ r, r < 3 → MEL.REF_TOFF r ≠ MEL.STAT ∧ MEL.REF_TOFF r ≠ MEL.STATUS ∧ (∀ k, k < 6 → MEL.REF_TOFF r ≠ MEL.REF_STATUS k) ∧
    MEL.REF_TOFF r / 65536 ≠ 29 ∧ MEL.STATUS ≠ MEL.REF_TOFF r ∧ MEL.DPLL ≠ MEL.REF_TOFF r ∧ MEL.REFCFG ≠ MEL.REF_TOFF r ∧
      ∀ k, k < 6 → MEL.REF_STATUS k ≠ MEL.REF_TOFF r := by decide

theorem todMessageRx_follows :
    ∀ r m after t s, r < 3 → todFormat m = true → 10000000 * ns ≤ after → after ≤ 900000000 * ns →
      (s.at t).todBefore r ((s.at t).up - after) = some ((leAt m 4 6 + 2 ^ 48 - 1) % 2 ^ 48) →
      Completes (.todMessageRx r m after t) s (fun u =>
        Store.get? u.mel.todAt r = some (s.at t).up ∧ Store.get? u.mel.todSec r = some (leAt m 4 6) ∧
        u.fld (MEL.REF_QL_CODE r) = leAt m 3 1 % 16) := by
  intro r m after t s hr hm h1 h2 hb
  have hc : (todFormat m && (decide (10000000 * ns ≤ after) && decide (after ≤ 900000000 * ns))) = true := by simp [hm, h1, h2]
  refine ⟨_, congrArg done (if_pos (decide_eq_true hr)), ?_⟩
  generalize s.at t = v at hb ⊢
  dsimp only
  rw [if_pos hc, hb]
  dsimp only
  rw [if_pos rfl]
  refine ⟨?_, ?_, State.ql_refreshRanks _ (by omega) _⟩
  · rw [(State.mel_refreshRanks _).1]
    exact (Store.get?_put ..).trans (if_pos rfl)
  · rw [(State.mel_refreshRanks _).2.1]
    exact (Store.get?_put ..).trans (if_pos rfl)

theorem todMessageRx_first :
    ∀ r m after t s, r < 3 → todFormat m = true → 10000000 * ns ≤ after → after ≤ 900000000 * ns →
      (s.at t).todBefore r ((s.at t).up - after) = none → Completes (.todMessageRx r m after t) s (fun u =>
        Store.get? u.mel.todPred r = some (leAt m 4 6, (s.at t).up - after) ∧ u.mel.todAt = s.mel.todAt ∧ u.flag MEL.STAT_TOD_ERR = true) := by
  intro r m after t s hr hm h1 h2 hb
  have hc : (todFormat m && (decide (10000000 * ns ≤ after) && decide (after ≤ 900000000 * ns))) = true := by simp [hm, h1, h2]
  refine ⟨_, congrArg done (if_pos (decide_eq_true hr)), ?_⟩
  have hat : (s.at t).mel.todAt = s.mel.todAt := rfl
  generalize s.at t = v at hb hat ⊢
  dsimp only
  rw [if_pos hc, hb]
  exact ⟨(Store.get?_put ..).trans (if_pos rfl), hat, State.flag_raise _ _ (by decide) (by decide) (by decide)⟩

theorem todMessageRx_gap :
    ∀ r m after x t s, r < 3 → (s.at t).todBefore r ((s.at t).up - after) = some x → x ≠ (leAt m 4 6 + 2 ^ 48 - 1) % 2 ^ 48 →
      Completes (.todMessageRx r m after t) s (fun u => u.mel = (s.at t).mel ∧ u.flag MEL.STAT_TOD_ERR = true) := by
  intro r m after x t s hr hb hx
  refine ⟨_, congrArg done (if_pos (decide_eq_true hr)), ?_⟩
  generalize s.at t = v at hb ⊢
  dsimp only
  rw [hb]
  dsimp only
  rw [if_neg hx, ite_self]
  exact ⟨rfl, State.flag_raise _ _ (by decide) (by decide) (by decide)⟩

theorem todMessageRx_malformed :
    ∀ r m after t s, r < 3 → todFormat m = false → Completes (.todMessageRx r m after t) s (fun u =>
      u.mel = (s.at t).mel ∧ u.flag MEL.STAT_TOD_ERR = true) := by
  intro r m after t s hr hm
  refine ⟨_, congrArg done (if_pos (decide_eq_true hr)), ?_⟩
  generalize s.at t = v
  dsimp only
  rw [if_neg (by simp [hm])]
  exact ⟨rfl, State.flag_raise _ _ (by decide) (by decide) (by decide)⟩

theorem esmcPduRx_completes :
    ∀ p e ql t s, p < 2 → s.svcUp p = true → Completes (.esmcPduRx p e ql t) s (fun u =>
      p ∉ u.mel.esmcFailed ∧ u.fld (MEL.REF_QL_CODE (3 + p)) = ql % 16) := by
  intro p e ql t s hp hup
  have hc : (decide (p < 2) && s.svcUp p) = true := by simp [hp, hup]
  refine ⟨_, congrArg done (if_pos (by exact hc)), ?_⟩
  generalize s.at t = v
  refine ⟨?_, State.ql_refreshRanks _ (by omega) _⟩
  rw [(State.mel_refreshRanks _).2.2]
  simp

theorem esmcTimeout_completes :
    ∀ p t s, p < 2 → p ∉ s.mel.esmcFailed → Store.getD s.mel.esmcAt p 0 + 5 * second ≤ (s.at t).up → Completes (.esmcTimeout p t) s (fun u =>
      p ∈ u.mel.esmcFailed ∧ u.flag MEL.STAT_ESMC_TO = true) := by
  intro p t s hp hf hto
  have hc : (decide (p < 2) && !s.mel.esmcFailed.contains p && decide (Store.getD s.mel.esmcAt p 0 + 5 * second ≤ (s.at t).up)) = true := by
    simp [hp, hf, hto]
  refine ⟨_, congrArg done (if_pos (by exact hc)), ?_⟩
  generalize s.at t = v
  refine ⟨?_, ((RefKept.refl _).refreshRanks fun _ hr => List.mem_range.2 hr).raised _ rfl (State.flag_raise _ _ (by decide) (by decide) (by decide))⟩
  rw [(State.mel_refreshRanks _).2.2]
  exact List.mem_cons_self

theorem esmcPduTx_completes :
    ∀ p t s, p < 2 → s.svcUp p = true → Completes (.esmcPduTx p t) s (fun u => ∃ f l, u.sent = .svcFrame p f :: l ∧
      beAt f 0 6 = 0x0180C2000002 ∧ beAt f 12 2 = 0x8809) := by
  intro p t s hp hup
  refine ⟨_, congrArg done (if_pos (decide_eq_true hp)), ?_⟩
  have hup' : (s.at t).svcUp p = true := hup
  generalize s.at t = v at hup' ⊢
  obtain ⟨l, hl⟩ := State.sent_svcSend (s := (v.esmcQl p).2) _ ((v.svcUp_esmcQl p p).trans hup')
  exact ⟨_, l, hl, rfl, rfl⟩

theorem refDisqualify_completes :
    ∀ r t s, s.refOn r = true → s.mel.started = true → s.refQual r ≠ 0 → Completes (.refDisqualify r 0 t) s (fun u =>
      u.refQual r = 0 ∧ (u.fld (MEL.REF_STATUS_CAUSE r)).testBit 0 = true ∧ u.flag MEL.STAT_REF_LOST = true) := by
  intro r t s hon hst hq
  have hc : (s.refOn r && s.mel.started && true) = true := by simp [hon, hst]
  refine ⟨_, congrArg done (if_pos (by exact hc)), ?_⟩
  exact (s.at t).reads_disqualify (State.refOn_lt hon) hq

theorem refQualify_completes :
    ∀ r t s, s.refOn r = true → s.mel.started = true → s.refQual r = 0 → (s.at t).checksPass r = true →
      Completes (.refQualify r t) s (fun u => u.refQual r = 1 ∧ u.fld (MEL.REF_STATUS_CAUSE r) = 0 ∧
        Store.get? u.mel.qualSince r = some (s.at t).up) := by
  intro r t s hon hst hq hpass
  have hc : (s.refOn r && s.mel.started && s.refQual r == 0 && (s.at t).checksPass r) = true := by simp [hon, hst, hq, hpass]
  refine ⟨_, congrArg done (if_pos (by exact hc)), ?_, ?_, ?_⟩
  · refine Eq.trans ((State.fld_bits_ne (s := (s.at t).setFld (MEL.REF_STATUS_QUAL r) 1) (f := MEL.REF_STATUS_CAUSE r) (Nat.le_of_ble_eq_true rfl)
      (.inr (.inl (Nat.le_of_ble_eq_true rfl)))).1 0) ?_
    exact State.fld_setFld _ _ _ (Nat.le_of_ble_eq_true rfl)
  · exact State.fld_setFld ((s.at t).setFld (MEL.REF_STATUS_QUAL r) 1) (MEL.REF_STATUS_CAUSE r) 0 (Nat.le_of_ble_eq_true rfl)
  · exact (Store.get?_put ..).trans (if_pos rfl)

theorem refAvailable_completes :
    ∀ r t s, s.refOn r = true → s.refQual r = 1 → (s.at t).waitLeft r = 0 → Completes (.refAvailable r t) s (fun u =>
      u.refQual r = 2 ∧ u.flag MEL.STAT_REF_AVAIL = true) := by
  intro r t s hon hq hw
  obtain ⟨h1, h2, h4⟩ := refStatus_ne r (State.refOn_lt hon)
  have hc : (s.refOn r && s.refQual r == 1 && (s.at t).waitLeft r == 0) = true := by simp [hon, hq, hw]
  refine ⟨_, congrArg done (if_pos (by exact hc)), ?_, State.flag_raise _ _ (by decide) (by decide) (by decide)⟩
  exact (State.fields_past_raise (by decide) h1 h4).1.trans (State.fld_setFld _ _ _ (Nat.le_of_ble_eq_true rfl))

theorem refSelectEval_switches :
    ∀ b t s, s.mel.started = true → t % (100000000 * ns) = 0 → s.flag MEL.CTRL_FORCE_HO = false → s.melState = 2 → s.bestRef = some b →
      s.noSelection = false → b ≠ s.melActive → s.selectionDue s.melActive b = true → Completes (.refSelectEval t) s (fun u =>
        u.melState = 6 ∧ u.melActive = b ∧ u.fld MEL.STATUS_TARGET = b ∧ u.flag MEL.STAT_SWITCH = true) := by
  intro b t s hst ht hho h2 hb hn hne hdue
  have hc : (s.mel.started && t % (100000000 * ns) == 0) = true := by simp [hst, ht]
  have hlt : b < 8 := lt_trans (State.bestRef_lt hb) (by decide)
  have hev : (s.at t).refEvaluate = (s.at t).selectRef b :=
    State.refEvaluate_of_best (s := s.at t) ⟨fun h => absurd (h2.symm.trans h) (by decide), fun h => absurd (h2.symm.trans h) (by decide)⟩ hho hb
      (.inr ⟨hn, hne, hdue⟩)
  refine ⟨_, (congrArg done (if_pos (by exact hc))).trans (congrArg done hev), ?_⟩
  exact State.selectRef_of_locked h2 hlt

theorem refSelectEval_acquires :
    ∀ b t s, s.mel.started = true → t % (100000000 * ns) = 0 → s.flag MEL.CTRL_FORCE_HO = false → s.melState = 0 → s.bestRef = some b →
      s.noSelection = true → Completes (.refSelectEval t) s (fun u => u.melState = 1 ∧ u.melActive = b ∧ u.mel.acqSince = some (s.at t).up) := by
  intro b t s hst ht hho h0 hb hn
  have hc : (s.mel.started && t % (100000000 * ns) == 0) = true := by simp [hst, ht]
  have hlt : b < 8 := lt_trans (State.bestRef_lt hb) (by decide)
  have hev : (s.at t).refEvaluate = (s.at t).selectRef b :=
    State.refEvaluate_of_best (s := s.at t) ⟨fun h => absurd (h0.symm.trans h) (by decide), fun h => absurd (h0.symm.trans h) (by decide)⟩ hho hb
      (.inl hn)
  refine ⟨_, (congrArg done (if_pos (by exact hc))).trans (congrArg done hev), ?_⟩
  exact State.selectRef_of_freeRun h0 hlt

theorem switchSettled_completes :
    ∀ t s, s.melState = 6 → Completes (.switchSettled t) s (fun u => u.melState = 2 ∧ u.flag MEL.STAT_SWITCH_DONE = true ∧
      u.regN MEL.SWITCH_CNT = countUp (s.regN MEL.SWITCH_CNT)) := by
  intro t s h6
  have hc : (s.melState == 6) = true := by simp [h6]
  refine ⟨_, congrArg done (if_pos (by exact hc)), ?_, State.flag_raise _ _ (by decide) (by decide) (by decide), ?_⟩
  · refine (State.fld_raise_ne _ _ _ (by decide) (by decide) (by decide)).trans ?_
    exact ((State.fields_ne (by decide)).2.2.1 1).trans (melState_setMelState _ (by decide))
  · refine (State.reads_past_raise (by decide) (by decide) (by decide)).2.1.trans ((State.regN_bump ..).trans ?_)
    have hcnt : ∀ v : State, v.lockEntered.regN MEL.SWITCH_CNT = v.regN MEL.SWITCH_CNT := fun v =>
      ((State.reads_fld_ne (by decide)).2.2.1 _).trans ((State.reads_fld_ne (by decide)).2.2.2 _)
    rw [hcnt]
    rfl

theorem disagreeCheck_measures :
    ∀ foff toff t s, s.mel.started = true → Completes (.disagreeCheck foff toff t) s (fun u => ∀ r, r < 6 →
      u.regN (MEL.REF_FOFF r) = ofSigned 32 (clampI (-(2 ^ 31)) (2 ^ 31 - 1) (atD foff r 0)) ∧
      (r < 3 → u.regN (MEL.REF_TOFF r) = ofSigned 32 (clampI (-(2 ^ 31)) (2 ^ 31 - 1) (atD toff r 0)))) := by
  intro foff toff t s hst
  have he := exec_disagreeCheck foff toff t hst
  refine ⟨_, he, fun r hr => ⟨?_, fun h3 => ?_⟩⟩
  · obtain ⟨h1, h2, hk, h29, -⟩ := measure_regs.1 r hr
    exact (State.regN_compared _ h1 h2 hk h29).trans (State.foff_measured foff toff _ hr)
  · obtain ⟨h1, h2, hk, h29, -⟩ := measure_regs.2 r h3
    exact (State.regN_compared _ h1 h2 hk h29).trans (State.toff_measured foff toff _ h3)

theorem disagreeCheck_slews :
    ∀ foff toff r t s, s.mel.started = true → s.melState = 2 → s.melActive = r → r < 3 → s.qualified r = true →
      -(2 ^ 31) ≤ atD toff r 0 → atD toff r 0 < 2 ^ 31 → Completes (.disagreeCheck foff toff t) s (fun u =>
        u.mel.offset = -(atD toff r 0 * ns) ∧ u.mel.slew = max 1 (s.fld MEL.DPLL_SLEW) ∧
        (1000 < (atD toff r 0).natAbs → u.flag MEL.STAT_TOFF_BIG = true)) := by
  intro foff toff r t s hst h2 ha h3 hq hlo hhi
  have he := exec_disagreeCheck foff toff t hst
  generalize hv : (s.at t).measured foff toff = v at he
  have hfld := (s.at t).keys_measured foff toff
  rw [hv] at hfld
  have hstate : v.melState = 2 :=
    (hfld.2 _ (fun k hk => (measure_regs.1 k hk).2.2.2.2.1) fun k hk => (measure_regs.2 k hk).2.2.2.2.1).trans h2
  have hact : v.melActive = r :=
    (hfld.2 _ (fun k hk => (measure_regs.1 k hk).2.2.2.2.1) fun k hk => (measure_regs.2 k hk).2.2.2.2.1).trans ha
  have hslew : v.fld MEL.DPLL_SLEW = s.fld MEL.DPLL_SLEW :=
    hfld.2 _ (fun k hk => (measure_regs.1 k hk).2.2.2.2.2.1) fun k hk => (measure_regs.2 k hk).2.2.2.2.2.1
  have hen : v.fld MEL.REFCFG_EN = s.fld MEL.REFCFG_EN :=
    hfld.2 _ (fun k hk => (measure_regs.1 k hk).2.2.2.2.2.2.1) fun k hk => (measure_regs.2 k hk).2.2.2.2.2.2.1
  have hqu : v.fld (MEL.REF_STATUS_QUAL r) = s.fld (MEL.REF_STATUS_QUAL r) :=
    hfld.2 _ (fun k hk => (measure_regs.1 k hk).2.2.2.2.2.2.2 r (by omega)) fun k hk => (measure_regs.2 k hk).2.2.2.2.2.2.2 r (by omega)
  have hqual : v.qualified r = true := by
    rw [← hq]
    unfold State.qualified State.refOn State.refQual
    rw [hen, hqu]
  have htoff : toSigned 32 (v.regN (MEL.REF_TOFF r)) = atD toff r 0 := by
    rw [← hv, State.toff_measured foff toff _ h3]
    exact toSigned_ofSigned hlo hhi
  have hgives : givesTime r = true := by simp [givesTime, h3]
  have htrack : v.trackRef.mel.offset = -(atD toff r 0 * ns) ∧ v.trackRef.mel.slew = max 1 (s.fld MEL.DPLL_SLEW) := by
    have hne : ¬ r = 5 := by omega
    unfold State.trackRef
    dsimp only
    rw [hact, hqual, hstate, hgives, htoff, hslew]
    simp [State.setMel, hne]
  have hslewing : Slewing (-(atD toff r 0 * ns)) (max 1 (s.fld MEL.DPLL_SLEW)) v.tracked := by
    refine ⟨?_, .inl ?_⟩
    · unfold State.tracked State.raiseIf
      split <;> exact htrack
    · exact ((State.fields_past_raise (by decide) (by decide) (by decide)).2.2.1 _).trans
        (((State.reads_of_regKey v.keys_trackRef).2.2.1 _).trans hstate)
  obtain ⟨⟨ho, hw⟩, -⟩ := (hslewing.setMel (m := { v.tracked.mel with
    disagBy := v.tracked.mel.disagBy.filter (fun (p : Nat × Nat) => !v.tracked.agree p.1 p.2) }) ⟨rfl, rfl⟩).settlePairs
  refine ⟨_, he, ho, hw, fun hbig => ?_⟩
  have hflag : v.tracked.flag MEL.STAT_TOFF_BIG = true := by
    unfold State.tracked
    rw [hact, hstate, hgives, htoff, decide_eq_true hbig]
    exact State.flag_raise _ _ (by decide) (by decide) (by decide)
  exact (((RefKept.refl v.tracked).setMel (by rfl)).settlePairs fun _ hr => List.mem_range.2 hr).raised _ rfl hflag

/-- Settles O24, clause by clause. -/
theorem referenceCommandsComplete : Obligations.reference_commands_complete :=
  ⟨todMessageRx_follows, todMessageRx_first, todMessageRx_gap, todMessageRx_malformed,
    esmcPduRx_completes, esmcTimeout_completes, esmcPduTx_completes, refDisqualify_completes,
    refQualify_completes, refAvailable_completes, refSelectEval_switches, refSelectEval_acquires,
    switchSettled_completes, disagreeCheck_measures, disagreeCheck_slews⟩

end Sys2Proof.Machine
end

section
/-! SUPPORT. Lock, holdover and the Melier pair (R305 to R319): what their commands show (O25). -/
namespace Sys2Proof.Machine

/-! ## Holdover -/

theorem State.flag_of_core {s : State} : s.melCore = 0 ∨ s.melCore = 1 := by
  have h : s.melCore < 2 := Nat.mod_lt _ (by decide)
  omega

/-- The fields of the other engines' words that reads of MEL go past. -/
theorem State.melActive_setMelState (s : State) (st : Nat) : (s.setMelState st).melActive = s.melActive :=
  State.fld_setFld_ne _ _ _ _ (by decide) (by decide)

/-- A pair that is in no disagreement keeps its state. -/
theorem State.reads_trimPairs {s : State} (h : s.melState ≠ 5) : (∃ l, s.trimPairs = s.setMel { s.mel with pairs := l }) := by
  refine ⟨_, if_neg ?_⟩
  have h' : ¬ (s.setMel { s.mel with pairs := s.mel.pairs.filter (fun (p : Nat × Nat) => s.qualified p.1 && s.qualified p.2) }).melState = 5 := h
  simp [h']

theorem State.hoFreq_unlock (s : State) : s.unlock.mel.hoFreq = s.holdFreq.1 ∧ s.unlock.regKey = s.regKey := by
  refine ⟨rfl, ?_⟩
  have h : s.holdFreq.2.regKey = s.regKey := by
    unfold State.holdFreq State.meanFreq
    dsimp only
    split
    · split <;> rfl
    · rfl
  exact h

theorem State.holdFreq_of_lockedLong {s : State} (h : s.lockedLong = true) : ∃ f, s.holdFreq.1 = some f := by
  unfold State.holdFreq
  rw [if_pos h]
  exact ⟨_, rfl⟩

theorem State.holdFreq_of_short {s : State} (h : s.lockedLong = false) : s.holdFreq = (s.mel.hoFreq, s) := by
  unfold State.holdFreq
  rw [h]
  rfl

/-- Holdover at the frequency that stands. -/
theorem State.holdOver_of_some {s : State} {f : Int} (hf : s.holdFreq.1 = some f) (h2 : s.melState = 2) :
    s.holdOver.melState = 3 ∧ s.holdOver.melActive = 7 ∧ s.holdOver.flag MEL.STAT_HOLDOVER = true ∧ s.holdOver.mel.steer = f := by
  have hfreq : (s.unlock.follow 7).mel.hoFreq = some f := hf
  have hact := (s.unlock.reads_follow (r := 7) (by decide)).1
  unfold State.holdOver
  dsimp only
  rw [hfreq, h2]
  refine ⟨?_, ?_, State.flag_raise _ _ (by decide) (by decide) (by decide), rfl⟩
  · exact (State.fld_raise_ne _ _ _ (by decide) (by decide) (by decide)).trans (melState_setMelState _ (by decide))
  · exact (State.fld_raise_ne _ _ _ (by decide) (by decide) (by decide)).trans ((State.melActive_setMelState _ _).trans hact)

/-- Free-run where no holdover frequency exists. -/
theorem State.holdOver_of_none {s : State} (hf : s.holdFreq.1 = none) :
    s.holdOver.melState = 0 ∧ s.holdOver.melActive = 7 ∧ s.holdOver.mel.steer = 0 := by
  have hfreq : (s.unlock.follow 7).mel.hoFreq = none := hf
  have hact := (s.unlock.reads_follow (r := 7) (by decide)).1
  unfold State.holdOver
  dsimp only
  rw [hfreq]
  exact ⟨melState_setMelState _ (by decide), (State.melActive_setMelState _ _).trans hact, rfl⟩

/-! ## Writes of MEL.CTRL -/

/-- A write of CTRL whose bits 3 and 4 are 0. -/
theorem ctrl_forceHo (s : State) (v : Nat) : (s.setRegN MEL.CTRL (v % 4)).flag MEL.CTRL_FORCE_HO = v.testBit 1 := by
  show ((s.setRegN MEL.CTRL (v % 4)).regN MEL.CTRL).testBit 1 = _
  rw [State.regN_setRegN _ _ (by omega)]
  exact Nat.testBit_mod_two_pow v 2 1 |>.trans (by simp)

theorem State.melCtrl_of_noForce {s : State} {v : Nat} (h : v.testBit 1 = false) :
    s.melCtrl v = (let s1 := s.setRegN MEL.CTRL (v % 4)
      let s2 := if v.testBit 2 then s1.plannedSwap else s1
      let s3 := if v.testBit 3 then s2.melResync else s2
      if v.testBit 4 then s3.pairReset else s3) := by
  have hf : (s.setRegN MEL.CTRL (v % 4)).forceHold = s.setRegN MEL.CTRL (v % 4) := by
    unfold State.forceHold
    rw [ctrl_forceHo, h]
    rfl
  unfold State.melCtrl
  rw [hf]

/-- Reads of the pair past a write of CTRL. -/
theorem State.reads_ctrl (s : State) (n : Nat) : (∀ f : Fld, f.reg ≠ MEL.CTRL → (s.setRegN MEL.CTRL n).fld f = s.fld f) ∧
    ∀ f : Fld, f.reg ≠ MEL.CTRL → (s.setRegN MEL.CTRL n).flag f = s.flag f :=
  ⟨fun _ hf => (State.fields_ne hf).2.1 n, fun _ hf => (State.fields_ne hf).2.2.2.2.1 n⟩

theorem dpllLock_completes :
    ∀ t s, s.melState = 1 → s.qualified s.melActive = true → s.mel.acqSince.getD 0 + 2 * second ≤ (s.at t).up →
      Completes (.dpllLock t) s (fun u =>
      u.melState = 2 ∧ u.flag MEL.STATUS_OOS = false ∧ u.flag MEL.STAT_LOCKED = true) := by
  intro t s h1 hq ha
  have hc : (s.melState == 1 && s.qualified s.melActive && decide (s.mel.acqSince.getD 0 + 2 * second ≤ (s.at t).up)) = true := by
    simp [h1, hq, ha]
  refine ⟨_, congrArg done (if_pos (by exact hc)), ?_, ?_, State.flag_raise _ _ (by decide) (by decide) (by decide)⟩
  · exact (State.fld_raise_ne _ _ _ (by decide) (by decide) (by decide)).trans (melState_setMelState _ (by decide))
  · refine (State.flag_raise_ne _ _ _ (by decide) (by decide) (by decide)).trans ((State.flag_setFld_ne _ _ _ _ (by decide) (by decide)).trans ?_)
    exact State.flag_setFlag _ _ _ (by decide) (by decide)

/-- FORCE_HO in lock goes to holdover. -/
theorem State.melCtrl_of_force {s : State} {v : Nat} (h1 : v.testBit 1 = true) (h2 : v.testBit 2 = false) (h3 : v.testBit 3 = false)
    (h4 : v.testBit 4 = false) (hst : s.melState = 2) : s.melCtrl v = (s.setRegN MEL.CTRL (v % 4)).holdOver.trimPairs := by
  have hst' : (s.setRegN MEL.CTRL (v % 4)).melState = 2 := ((s.reads_ctrl _).1 _ (by decide)).trans hst
  unfold State.melCtrl State.forceHold
  rw [ctrl_forceHo, h1, h2, h3, h4, hst']
  rfl

theorem State.held_ctrl (s : State) (n : Nat) : (s.setRegN MEL.CTRL n).lockedLong = s.lockedLong := by
  unfold State.lockedLong State.holdWindow
  rw [(s.reads_ctrl n).1 _ (by decide)]
  rfl

theorem forceHoldover_completes :
    ∀ (v : Word) t s, v.toNat.testBit 1 = true → v.toNat.testBit 2 = false → v.toNat.testBit 3 = false → v.toNat.testBit 4 = false →
      s.melState = 2 → (s.at t).hasHoldover = true → Completes (.forceHoldover v t) s (fun u =>
        u.melState = 3 ∧ u.melActive = 7 ∧ u.flag MEL.STAT_HOLDOVER = true ∧
        ((s.at t).lockedLong = false → some u.mel.steer = s.mel.hoFreq)) := by
  intro v t s h1 h2 h3 h4 hst hho
  have hst' : ((s.at t).setRegN MEL.CTRL (v.toNat % 4)).melState = 2 := (((s.at t).reads_ctrl _).1 _ (by decide)).trans hst
  have hll := (s.at t).held_ctrl (v.toNat % 4)
  obtain ⟨f, hf, hs⟩ : ∃ f, ((s.at t).setRegN MEL.CTRL (v.toNat % 4)).holdFreq.1 = some f ∧
      ((s.at t).lockedLong = false → some f = s.mel.hoFreq) := by
    cases hl : (s.at t).lockedLong
    · have hsome : (s.at t).mel.hoFreq.isSome = true := by simpa [State.hasHoldover, hl] using hho
      obtain ⟨f, hf⟩ := Option.isSome_iff_exists.1 hsome
      refine ⟨f, ?_, fun _ => hf.symm⟩
      rw [State.holdFreq_of_short (hll.trans hl)]
      exact hf
    · obtain ⟨f, hf⟩ := State.holdFreq_of_lockedLong (hll.trans hl)
      exact ⟨f, hf, fun h => absurd h (by decide)⟩
  obtain ⟨h3', h7, hflag, hsteer⟩ := State.holdOver_of_some hf hst'
  obtain ⟨l, hl⟩ := State.reads_trimPairs (s := ((s.at t).setRegN MEL.CTRL (v.toNat % 4)).holdOver) (by omega)
  refine ⟨_, (congrArg done (if_pos h1)).trans (congrArg done ((State.melCtrl_of_force (s := s.at t) h1 h2 h3 h4 hst).trans hl)), h3', h7, hflag, ?_⟩
  intro hlong
  exact (congrArg some hsteer).trans (hs hlong)

theorem forceHoldover_completes' :
    ∀ (v : Word) t s, v.toNat.testBit 1 = true → v.toNat.testBit 2 = false → v.toNat.testBit 3 = false → v.toNat.testBit 4 = false →
      s.melState = 2 → (s.at t).hasHoldover = false → Completes (.forceHoldover v t) s (fun u => u.melState = 0 ∧ u.melActive = 7 ∧
        u.mel.steer = 0) := by
  intro v t s h1 h2 h3 h4 hst hho
  have hll := (s.at t).held_ctrl (v.toNat % 4)
  obtain ⟨hnone, hshort⟩ : (s.at t).mel.hoFreq = none ∧ (s.at t).lockedLong = false := by simpa [State.hasHoldover] using hho
  have hf : ((s.at t).setRegN MEL.CTRL (v.toNat % 4)).holdFreq.1 = none := by
    rw [State.holdFreq_of_short (hll.trans hshort)]
    exact hnone
  obtain ⟨h0, h7, hsteer⟩ := State.holdOver_of_none hf
  obtain ⟨l, hl⟩ := State.reads_trimPairs (s := ((s.at t).setRegN MEL.CTRL (v.toNat % 4)).holdOver) (by omega)
  exact ⟨_, (congrArg done (if_pos h1)).trans (congrArg done ((State.melCtrl_of_force (s := s.at t) h1 h2 h3 h4 hst).trans hl)), h0, h7, hsteer⟩

theorem holdoverExpired_completes :
    ∀ t s, s.melState = 3 → s.regN MEL.HO_LIM * (s.at t).holdTe.2 < (s.at t).holdTe.1 → Completes (.holdoverExpired t) s (fun u =>
      u.melState = 4 ∧ u.flag MEL.STATUS_OOS = true ∧ u.flag MEL.STAT_HOLDOVER_OOS = true) := by
  intro t s h3 hlim
  have hc : (s.melState == 3 && decide (s.regN MEL.HO_LIM * (s.at t).holdTe.2 < (s.at t).holdTe.1)) = true := by simp [h3, hlim]
  refine ⟨_, congrArg done (if_pos (by exact hc)), ?_, ?_, State.flag_raise _ _ (by decide) (by decide) (by decide)⟩
  · exact (State.fld_raise_ne _ _ _ (by decide) (by decide) (by decide)).trans
      ((State.fld_setFlag_ne _ (by decide) (by decide)).trans (melState_setMelState _ (by decide)))
  · exact (State.flag_raise_ne _ _ _ (by decide) (by decide) (by decide)).trans (State.flag_setFlag _ _ _ (by decide) (by decide))

/-! ## Loss of OSC_IN (R309, R343) -/

theorem State.ready_setReady (s : State) {b : Nat} (hb : b < 32) (x : Bool) (k : Nat) : (s.setReady b x).ready k = if k = b then x else s.ready k := by
  have hlt : setBit (s.regN CKG.READY) b x < 2 ^ 32 := by
    refine Nat.lt_pow_two_of_testBit _ fun i hi => ?_
    rw [testBit_setBit, if_neg (by omega)]
    exact Nat.testBit_lt_two_pow (lt_of_lt_of_le (s.reg CKG.READY).isLt (Nat.pow_le_pow_right (by decide) hi))
  unfold State.ready State.setReady
  rw [State.regN_setRegN _ _ hlt, testBit_setBit]

/-- The references' READY bits are 0. -/
def RefsOff (s : State) : Prop := s.ready 4 = false ∧ s.ready 5 = false

theorem RefsOff.of_reg {s u : State} (h : RefsOff s) (hu : u.reg CKG.READY = s.reg CKG.READY) : RefsOff u := by
  have hk (k : Nat) : u.ready k = s.ready k := by
    unfold State.ready State.regN
    rw [hu]
  exact ⟨(hk 4).trans h.1, (hk 5).trans h.2⟩

theorem RefsOff.setReady {s : State} (h : RefsOff s) {b : Nat} (hb : b < 4) : RefsOff (s.setReady b false) := by
  refine ⟨?_, ?_⟩
  · rw [State.ready_setReady _ (by omega), h.1, ite_self]
  · rw [State.ready_setReady _ (by omega), h.2, ite_self]

theorem domStatus_ne : ∀ k, k < 4 → CKG.READY ≠ CKG.DOM_STATUS k := by decide

theorem State.ready_setTarget (s : State) {k : Nat} (hk : k < 4) (v : Option Nat) : (s.setTarget k v).reg CKG.READY = s.reg CKG.READY :=
  (State.reads_fld_ne (f := CKG.DOM_STATUS_BUSY k) (domStatus_ne k hk)).2.1 _

theorem State.each_of {α : Type} {P : State → Prop} {s : State} (h : P s) (l : List α) {f : State → α → State} (hf : ∀ t, ∀ x ∈ l, P t → P (f t x)) :
    P (s.each l f) := by
  unfold State.each
  induction l generalizing s with
  | nil => exact h
  | cons x l ih => exact ih (hf s x List.mem_cons_self h) fun t y hy => hf t y (List.mem_cons_of_mem _ hy)

theorem RefsOff.abortSwitches {s : State} (h : RefsOff s) (lost : Nat → Nat → Bool) : RefsOff (s.abortSwitches lost) := by
  refine State.each_of h _ fun t k hk ht => ?_
  have hk : k < 4 := List.mem_range.1 hk
  split
  · split
    · refine ht.of_reg ((State.reads_past_raise (by decide) (by decide) (by decide)).1.trans ?_)
      exact ((State.reads_fld_ne (f := CKG.DOM_STATUS_ABORT k) (domStatus_ne k hk)).2.1 _).trans (t.ready_setTarget hk _)
    · exact ht
  · exact ht

theorem RefsOff.pllOff {s : State} (h : RefsOff s) {k : Nat} (hk : k < 4) : RefsOff (s.pllOff k) := by
  have hab := (h.setReady hk).abortSwitches (fun j t => j == k && t == 0)
  unfold State.pllOff State.fallback
  split
  · exact hab.of_reg (State.ready_setTarget _ hk _)
  · exact hab

theorem refsOff_oscStops (s : State) : RefsOff s.oscStops := by
  have h0 : RefsOff ((((s.setReady 4 false).setReady 5 false).raise CKG.STAT_REF_LOST).setStopped (fun k => s.inUse k < 2) true) := by
    refine RefsOff.of_reg (s := (s.setReady 4 false).setReady 5 false) ⟨?_, ?_⟩ (State.reads_past_raise (by decide) (by decide) (by decide)).1
    · rw [State.ready_setReady _ (by decide), State.ready_setReady _ (by decide)]
      rfl
    · rw [State.ready_setReady _ (by decide)]
      rfl
  refine State.each_of (h0.abortSwitches _) _ fun t k hk ht => ?_
  split
  · exact (ht.of_reg (State.reads_past_raise (by decide) (by decide) (by decide)).1).pllOff (List.mem_range.1 hk)
  · exact ht

theorem State.holdGap_regKey (s : State) : s.holdGap.regKey = s.regKey := rfl

theorem oscLost_completes :
    ∀ t s, s.flag MEL.STATUS_OSC = false → Completes (.oscLost t) s (fun u => u.flag MEL.STATUS_OSC = true ∧
      u.ready 4 = false ∧ u.ready 5 = false ∧ u.flag MEL.STAT_OSC_LOST = true) := by
  intro t s hosc
  refine ⟨_, congrArg done (if_pos (by simpa using hosc)), ?_⟩
  generalize s.at t = v
  dsimp only
  generalize hw : (v.oscStops.setFlag MEL.STATUS_OSC true).holdGap = w
  obtain ⟨hwr, -, -, hwf⟩ := State.reads_of_regKey (State.holdGap_regKey (v.oscStops.setFlag MEL.STATUS_OSC true))
  rw [hw] at hwr hwf
  have hoff : RefsOff w := (refsOff_oscStops v).of_reg ((hwr _).trans ((State.reads_fld_ne (by decide)).2.1 _))
  have hout : w.flag MEL.STATUS_OSC = true := (hwf _).trans (State.flag_setFlag _ _ _ (by decide) (by decide))
  have hspec : (if (w.mel.started && w.melState != 7 && w.melState != 0) = true then (w.unlock.follow 7).startHoldTimer.outOfSpec else w) = w ∨
      (if (w.mel.started && w.melState != 7 && w.melState != 0) = true then (w.unlock.follow 7).startHoldTimer.outOfSpec else w) =
        (w.unlock.follow 7).startHoldTimer.outOfSpec := by
    split
    · exact .inr rfl
    · exact .inl rfl
  have hkept : RefKept (List.range 6) w (if (w.mel.started && w.melState != 7 && w.melState != 0) = true then
      (w.unlock.follow 7).startHoldTimer.outOfSpec else w) := by
    obtain h | h := hspec
    · rw [h]
      exact .refl w
    · rw [h]
      exact (((((RefKept.refl w).unlock.follow 7).setMel (by rfl)).setStatus MEL.STATUS_STATE 4 rfl).setStatus MEL.STATUS_OOS _ rfl).raise
        MEL.STAT_HOLDOVER_OOS rfl (by decide)
  have hall := (hkept.each (List.range 6) (f := fun s r => if s.refOn r then s.disqualify r 1 else s) fun t r hr ht => by
    split
    · exact ht.disqualify 1 (List.mem_range.1 hr) hr
    · exact ht).raise MEL.STAT_OSC_LOST rfl (by decide)
  have hready := hoff.of_reg (hall.reg CKG.READY (by decide) (by decide) (by decide) (by decide))
  exact ⟨hall.osc.trans hout, hready.1, hready.2, State.flag_raise _ _ (by decide) (by decide) (by decide)⟩

/-- OSC_IN is back: its READY bit rises. -/
theorem State.reads_oscBack (s : State) : s.oscBack.flag MEL.STATUS_OSC = false ∧ s.oscBack.ready 5 = true ∧ s.oscBack.mtx.out = s.mtx.out ∧
    (s.flag MEL.STATUS_OSC = true → s.oscBack.flag MEL.STAT_OSC_BACK = true) := by
  let w : State := if s.mel.started then ((s.setFlag MEL.STATUS_OSC false).setReady 5 true).setReady 4 true
    else (s.setFlag MEL.STATUS_OSC false).setReady 5 true
  have h1 : ((s.setFlag MEL.STATUS_OSC false).setReady 5 true).flag MEL.STATUS_OSC = false :=
    ((State.fields_ne (by decide)).2.2.2.2.1 _).trans (State.flag_setFlag _ _ _ (by decide) (by decide))
  have hw : w.flag MEL.STATUS_OSC = false ∧ w.ready 5 = true ∧ w.mtx.out = s.mtx.out := by
    show (if s.mel.started = true then _ else _ : State).flag _ = false ∧ (if s.mel.started = true then _ else _ : State).ready _ = true ∧
      (if s.mel.started = true then _ else _ : State).mtx.out = _
    split
    · refine ⟨((State.fields_ne (by decide)).2.2.2.2.1 _).trans h1, ?_, rfl⟩
      rw [State.ready_setReady _ (by decide), State.ready_setReady _ (by decide)]
      rfl
    · exact ⟨h1, by rw [State.ready_setReady _ (by decide)]; exact if_pos rfl, rfl⟩
  obtain ⟨hf, hr, ho⟩ := hw
  have hback : s.oscBack = (if s.flag MEL.STATUS_OSC then w.holdGap else w).refsRun.raiseIf (s.flag MEL.STATUS_OSC) MEL.STAT_OSC_BACK := rfl
  rw [hback]
  cases s.flag MEL.STATUS_OSC
  · exact ⟨hf, hr, ho, fun h => absurd h (by decide)⟩
  · refine ⟨?_, ?_, ho, fun _ => State.flag_raise _ _ (by decide) (by decide) (by decide)⟩
    · exact (State.flag_raise_ne _ _ _ (by decide) (by decide) (by decide)).trans hf
    · exact (congrArg (·.testBit 5) (State.reads_past_raise (f := MEL.STAT_OSC_BACK) (by decide) (by decide) (by decide)).2.1).trans hr

theorem exec_oscRestored {s : State} (t : Nat) (hn : s.noneWait) (hc : (s.flag MEL.STATUS_OSC || !s.ready 5) = true) :
    exec (.oscRestored t) s = .next (s.at t).oscBack := by
  have hw : (s.at t).oscBack.retryOut = (s.at t).oscBack :=
    State.retryOut_of_noneWait (State.noneWait_of_out hn (s.at t).reads_oscBack.2.2.1)
  exact (congrArg done (if_pos (by exact hc))).trans (congrArg done hw)

theorem oscRestored_completes :
    ∀ t s, s.noneWait → s.flag MEL.STATUS_OSC = true → Completes (.oscRestored t) s (fun u =>
      u.flag MEL.STATUS_OSC = false ∧ u.ready 5 = true ∧ u.flag MEL.STAT_OSC_BACK = true) := by
  intro t s hn hosc
  obtain ⟨hf, hr, -, hb⟩ := (s.at t).reads_oscBack
  exact ⟨_, exec_oscRestored t hn (by rw [hosc]; rfl), hf, hr, hb hosc⟩

theorem oscRestored_completes' :
    ∀ t s, s.noneWait → s.flag MEL.STATUS_OSC = false → s.ready 5 = false → Completes (.oscRestored t) s (fun u => u.ready 5 = true) := by
  intro t s hn hosc h5
  exact ⟨_, exec_oscRestored t hn (by rw [h5]; exact Bool.or_true _), (s.at t).reads_oscBack.2.1⟩

/-! ## The lockstep pair (R312 to R319) -/

/-- The output gap lasts at most 20 cycles. -/
theorem State.holdGap_bounds (s : State) : s.holdGap.mel.gapFrom = s.now ∧ s.holdGap.mel.gapTo ≤ s.now + 20 * 4 * ns / 5 := by
  refine ⟨rfl, ?_⟩
  show s.now + min 20 (s.fresh 5).1 * 4 * ns / 5 ≤ _
  refine Nat.add_le_add_left (Nat.div_le_div_right ?_) _
  exact Nat.mul_le_mul_right _ (Nat.mul_le_mul_right _ (Nat.min_le_left _ _))

theorem okFld_cases (c : Nat) : okFld c = MEL.STATUS_A_OK ∨ okFld c = MEL.STATUS_B_OK := by
  unfold okFld
  split
  · exact .inl rfl
  · exact .inr rfl

theorem latFld_cases (c : Nat) : latFld c = MEL.STATUS_A_LAT ∨ latFld c = MEL.STATUS_B_LAT := by
  unfold latFld
  split
  · exact .inl rfl
  · exact .inr rfl

/-- What a mark of a side leaves alone. -/
theorem okFld_facts (c : Nat) : (okFld c).reg = MEL.STATUS ∧ (okFld c).lo + (okFld c).wid ≤ 32 ∧ 0 < (okFld c).wid ∧ 10 ≤ (okFld c).lo ∧ (okFld c).lo < 12 := by
  obtain h | h := okFld_cases c <;> rw [h] <;> decide

theorem latFld_facts (c : Nat) : (latFld c).reg = MEL.STATUS ∧ (latFld c).lo + (latFld c).wid ≤ 32 ∧ 0 < (latFld c).wid ∧ 12 ≤ (latFld c).lo ∧
    (latFld c).lo < 14 := by
  obtain h | h := latFld_cases c <;> rw [h] <;> decide

/-- Output passes to the other side: its mark, its number, the instant, the count and the gap. -/
theorem State.reads_passOutput (s : State) : s.passOutput.melCore = 1 - s.melCore ∧ s.passOutput.flag (okFld s.melCore) = false ∧
    s.passOutput.regN MEL.TKO_NS = s.freeRun ∧ s.passOutput.regN MEL.TKO_CNT = countUp (s.regN MEL.TKO_CNT) ∧
    s.passOutput.flag MEL.STAT_TAKEOVER = true := by
  obtain ⟨hreg, hw, hpos, hlo, hhi⟩ := okFld_facts s.melCore
  have hne : (okFld s.melCore).reg ≠ MEL.STAT := by rw [hreg]; decide
  have h29 : (okFld s.melCore).reg / 65536 ≠ 29 := by rw [hreg]; decide
  unfold State.passOutput
  dsimp only
  refine ⟨?_, ?_, ?_, ?_, State.flag_raise _ _ (by decide) (by decide) (by decide)⟩
  · refine (State.fld_raise_ne _ _ _ (by decide) (by decide) (by decide)).trans (((State.fields_ne (by decide)).2.2.1 _).trans
      (((State.fields_ne (by decide)).2.1 _).trans ((State.fld_setFld _ _ _ (by decide)).trans (Nat.mod_eq_of_lt ?_))))
    exact lt_of_le_of_lt (Nat.sub_le _ _) (by decide)
  · refine (State.flag_raise_ne _ _ _ (by decide) hne h29).trans (((State.fields_ne (by rw [hreg]; decide)).2.2.2.2.2 _).trans
      (((State.fields_ne (by rw [hreg]; decide)).2.2.2.2.1 _).trans ((State.flag_setFld_ne _ MEL.STATUS_CORE (okFld s.melCore) _ (by decide) (.inr (.inr hlo))).trans ?_)))
    exact State.flag_setFlag _ _ _ hw hpos
  · refine (State.reads_past_raise (by decide) (by decide) (by decide)).2.1.trans (((State.reads_ne (by decide)).2.2.2.2.2 _).trans ?_)
    exact State.regN_setRegN _ _ (Nat.mod_lt _ (by decide))
  · refine (State.reads_past_raise (by decide) (by decide) (by decide)).2.1.trans ((State.regN_bump ..).trans ?_)
    refine congrArg (fun n => min (n + 1) (2 ^ 32 - 1)) (((State.reads_ne (by decide)).2.2.2.2.1 _).trans (((State.reads_fld_ne (by decide)).2.2.1 _).trans ?_))
    exact (State.reads_fld_ne (by rw [hreg]; decide)).2.2.2 _

theorem takeover_completes :
    ∀ t s, s.mel.started = true → s.melState ≠ 7 → s.standbyGood = true → s.mel.resync = false → s.mel.swapAt = none →
      Completes (.takeover t) s (fun u => u.melCore = 1 - s.melCore ∧ u.flag (okFld s.melCore) = false ∧
        u.regN MEL.TKO_NS = (s.at t).freeRun ∧ u.regN MEL.TKO_CNT = countUp (s.regN MEL.TKO_CNT) ∧ u.flag MEL.STAT_TAKEOVER = true ∧
        u.mel.gapFrom = (s.at t).now ∧ u.mel.gapTo ≤ (s.at t).now + 20 * 4 * ns / 5) := by
  intro t s hst h7 hgood hre hswap
  have hc : (s.mel.started && s.melState != 7 && s.standbyGood && !s.mel.resync) = true := by simp [hst, h7, hgood, hre]
  have hsw : ¬ (s.at t).mel.swapAt.isSome = true := by
    rw [show (s.at t).mel.swapAt = none from hswap]
    decide
  obtain ⟨h1, h2, h3, h4, h5⟩ := (s.at t).reads_passOutput
  obtain ⟨hf, ht⟩ := (s.at t).holdGap_bounds
  exact ⟨_, (congrArg done (if_pos (by exact hc))).trans (congrArg done (if_neg hsw)), h1, h2, h3, h4, h5, hf, ht⟩

/-- A planned swap that fails goes back, its side marked. -/
theorem State.reads_swapFails (s : State) : s.swapFails.melCore = 1 - s.melCore ∧ s.swapFails.mel.swapAt = none ∧
    s.swapFails.flag (latFld s.melCore) = true ∧ s.swapFails.flag MEL.STAT_SWAP_FAIL = true := by
  obtain ⟨hreg, hw, hpos, hlo, hhi⟩ := latFld_facts s.melCore
  have hcore := (s.setMel { s.mel with swapAt := none }).reads_passOutput.1
  unfold State.swapFails
  dsimp only
  refine ⟨?_, rfl, ?_, State.flag_raise _ _ (by decide) (by decide) (by decide)⟩
  · refine (State.fld_raise_ne _ _ _ (by decide) (by decide) (by decide)).trans ((State.fld_setFlag_ne _ hw (.inr (.inl ?_))).trans hcore)
    exact le_trans (by decide) hlo
  · refine (State.flag_raise_ne _ _ _ (by decide) (by rw [hreg]; decide) (by rw [hreg]; decide)).trans ?_
    exact State.flag_setFlag _ _ _ hw hpos

theorem takeover_completes' :
    ∀ t a s, s.mel.started = true → s.melState ≠ 7 → s.standbyGood = true → s.mel.resync = false → s.mel.swapAt = some a →
      Completes (.takeover t) s (fun u => u.melCore = 1 - s.melCore ∧ u.mel.swapAt = none ∧ u.flag (latFld s.melCore) = true ∧
        u.flag MEL.STAT_SWAP_FAIL = true) := by
  intro t a s hst h7 hgood hre hswap
  have hc : (s.mel.started && s.melState != 7 && s.standbyGood && !s.mel.resync) = true := by simp [hst, h7, hgood, hre]
  have hsw : (s.at t).mel.swapAt.isSome = true := by
    rw [show (s.at t).mel.swapAt = some a from hswap]
    rfl
  exact ⟨_, (congrArg done (if_pos (by exact hc))).trans (congrArg done (if_pos hsw)), (s.at t).reads_swapFails⟩

theorem melierMismatch_completes :
    ∀ t s, s.mel.started = true → s.melState ≠ 7 → Completes (.melierMismatch t) s (fun u =>
      u.flag (okFld (1 - s.melCore)) = false ∧ u.flag MEL.STAT_MISMATCH = true) := by
  intro t s hst h7
  have hc : (s.mel.started && s.melState != 7) = true := by simp [hst, h7]
  obtain ⟨hreg, hw, hpos, -, -⟩ := okFld_facts (1 - s.melCore)
  refine ⟨_, congrArg done (if_pos (by exact hc)), ?_, State.flag_raise _ _ (by decide) (by decide) (by decide)⟩
  exact (State.flag_raise_ne _ _ _ (by decide) (by rw [hreg]; decide) (by rw [hreg]; decide)).trans (State.flag_setFlag _ _ _ hw hpos)

/-- Time core fault: the outputs hold for 20 cycles. -/
theorem State.reads_coreFault (s : State) : s.coreFault.melState = 7 ∧ s.coreFault.melActive = 7 ∧ s.coreFault.flag MEL.STAT_CORE_FAULT = true ∧
    s.coreFault.mel.swapAt = none := by
  unfold State.coreFault
  dsimp only
  refine ⟨?_, ?_, State.flag_raise _ _ (by decide) (by decide) (by decide), rfl⟩
  · exact (State.fld_raise_ne _ _ _ (by decide) (by decide) (by decide)).trans (melState_setMelState _ (by decide))
  · exact (State.fld_raise_ne _ _ _ (by decide) (by decide) (by decide)).trans ((State.melActive_setMelState _ _).trans (State.reads_follow _ (by decide)).1)

theorem State.now_unlock (s : State) : s.unlock.now = s.now := by
  unfold State.unlock State.holdFreq State.meanFreq
  dsimp only
  split_ifs <;> rfl

theorem State.gapTo_coreFault (s : State) : s.coreFault.mel.gapTo = s.now + 20 * 4 * ns / 5 := by
  have h : s.coreFault.mel.gapTo = s.unlock.now + 20 * 4 * ns / 5 := rfl
  rw [h, s.now_unlock]

theorem timeCoreFault_completes :
    ∀ t s, s.mel.started = true → s.melState ≠ 7 → s.standbyGood = false → Completes (.timeCoreFault t) s (fun u =>
      u.melState = 7 ∧ u.melActive = 7 ∧ u.flag MEL.STAT_CORE_FAULT = true ∧ u.mel.gapTo = (s.at t).now + 20 * 4 * ns / 5) := by
  intro t s hst h7 hgood
  have hc : (s.mel.started && s.melState != 7 && (!s.standbyGood || s.mel.resync)) = true := by simp [hst, h7, hgood]
  obtain ⟨h1, h2, h3, -⟩ := (s.at t).reads_coreFault
  exact ⟨_, congrArg done (if_pos (by exact hc)), h1, h2, h3, (s.at t).gapTo_coreFault⟩

theorem exec_plannedSwap {s : State} {v : Word} (t : Nat) (h1 : v.toNat.testBit 1 = false) (h2 : v.toNat.testBit 2 = true) (h3 : v.toNat.testBit 3 = false)
    (h4 : v.toNat.testBit 4 = false) : exec (.plannedSwap v t) s = .next ((s.at t).setRegN MEL.CTRL (v.toNat % 4)).plannedSwap := by
  refine (congrArg done (if_pos h2)).trans (congrArg done ?_)
  refine (State.melCtrl_of_noForce h1).trans ?_
  rw [h2, h3, h4]
  rfl

theorem State.standbyGood_ctrl (s : State) (n : Nat) : (s.setRegN MEL.CTRL n).standbyGood = s.standbyGood ∧ (s.setRegN MEL.CTRL n).melCore = s.melCore ∧
    (s.setRegN MEL.CTRL n).melState = s.melState := by
  obtain ⟨hfld, hflag⟩ := s.reads_ctrl n
  have hcore : (s.setRegN MEL.CTRL n).melCore = s.melCore := hfld _ (by decide)
  refine ⟨?_, hcore, hfld _ (by decide)⟩
  unfold State.standbyGood
  dsimp only
  rw [hcore, hflag _ (by rw [(okFld_facts _).1]; decide), hflag _ (by rw [(latFld_facts _).1]; decide)]

/-- A planned swap that may begin: output passes, and the monitor runs. -/
theorem State.plannedSwap_of_ready {s : State} (hst : s.mel.started = true) (hgood : s.standbyGood = true) (h6 : s.melState ≠ 6) (h7 : s.melState ≠ 7)
    (hswap : s.mel.swapAt = none) (hre : s.mel.resync = false) :
    s.plannedSwap.melCore = 1 - s.melCore ∧ s.plannedSwap.mel.swapAt = some s.up := by
  have hc : ¬ (!s.mel.started || !s.standbyGood || s.melState == 6 || s.melState == 7 || s.mel.swapAt.isSome || s.mel.resync) = true := by
    simp [hst, hgood, h6, h7, hswap, hre]
  unfold State.plannedSwap
  rw [if_neg hc]
  refine ⟨(State.fld_setFld s MEL.STATUS_CORE (1 - s.melCore) (by decide)).trans (Nat.mod_eq_of_lt ?_), rfl⟩
  exact lt_of_le_of_lt (Nat.sub_le _ _) (by decide)

theorem State.plannedSwap_of_refused {s : State} (hgood : s.standbyGood = false) : s.plannedSwap = s.raise MEL.STAT_SWAP_REJ :=
  if_pos (by simp [hgood])

theorem plannedSwap_completes :
    ∀ (v : Word) t s, v.toNat.testBit 1 = false → v.toNat.testBit 2 = true → v.toNat.testBit 3 = false → v.toNat.testBit 4 = false →
      s.mel.started = true → s.standbyGood = true → s.melState ≠ 6 → s.melState ≠ 7 → s.mel.swapAt = none → s.mel.resync = false →
      Completes (.plannedSwap v t) s (fun u => u.melCore = 1 - s.melCore ∧ u.mel.swapAt = some (s.at t).up) := by
  intro v t s h1 h2 h3 h4 hst hgood h6 h7 hswap hre
  obtain ⟨hg, hcore, hstate⟩ := (s.at t).standbyGood_ctrl (v.toNat % 4)
  obtain ⟨hc, hs⟩ := State.plannedSwap_of_ready (s := (s.at t).setRegN MEL.CTRL (v.toNat % 4)) hst (hg.trans hgood) (fun h => h6 (hstate.symm.trans h))
    (fun h => h7 (hstate.symm.trans h)) hswap hre
  exact ⟨_, exec_plannedSwap t h1 h2 h3 h4, hc.trans (congrArg (1 - ·) hcore), hs⟩

theorem plannedSwap_completes' :
    ∀ (v : Word) t s, v.toNat.testBit 1 = false → v.toNat.testBit 2 = true → v.toNat.testBit 3 = false → v.toNat.testBit 4 = false →
      s.standbyGood = false → Completes (.plannedSwap v t) s (fun u => u.melCore = s.melCore ∧ u.flag MEL.STAT_SWAP_REJ = true) := by
  intro v t s h1 h2 h3 h4 hgood
  obtain ⟨hg, hcore, -⟩ := (s.at t).standbyGood_ctrl (v.toNat % 4)
  refine ⟨_, (exec_plannedSwap t h1 h2 h3 h4).trans (congrArg Host.Outcome.next (State.plannedSwap_of_refused (hg.trans hgood))), ?_,
    State.flag_raise _ _ (by decide) (by decide) (by decide)⟩
  exact (State.fld_raise_ne _ _ _ (by decide) (by decide) (by decide)).trans hcore

theorem exec_swapMonitorEnd {s : State} {a : Nat} (mismatch : Bool) (t : Nat) (hs : s.mel.swapAt = some a)
    (hc : (mismatch || decide (a + 1000000 * ns ≤ (s.at t).up)) = true) :
    exec (.swapMonitorEnd mismatch t) s = .next (if mismatch then (if (s.at t).standbyGood then (s.at t).swapFails else (s.at t).coreFault)
      else ((s.at t).setMel { (s.at t).mel with swapAt := none }).raise MEL.STAT_SWAP_OK) := by
  show execSwapMonitorEnd mismatch t s = _
  unfold execSwapMonitorEnd
  rw [hs]
  exact congrArg done (if_pos hc)

theorem swapMonitorEnd_completes :
    ∀ t a s, s.mel.swapAt = some a → s.standbyGood = false → Completes (.swapMonitorEnd true t) s (fun u =>
      u.melState = 7 ∧ u.mel.swapAt = none ∧ u.flag MEL.STAT_CORE_FAULT = true) := by
  intro t a s hs hgood
  obtain ⟨h1, -, h3, h4⟩ := (s.at t).reads_coreFault
  have hg : ¬ (s.at t).standbyGood = true := by
    rw [show (s.at t).standbyGood = false from hgood]
    decide
  exact ⟨_, (exec_swapMonitorEnd true t hs rfl).trans (congrArg Host.Outcome.next (if_neg hg)), h1, h4, h3⟩

theorem swapMonitorEnd_completes' :
    ∀ t a s, s.mel.swapAt = some a → s.standbyGood = true → Completes (.swapMonitorEnd true t) s (fun u =>
      u.melCore = 1 - s.melCore ∧ u.mel.swapAt = none ∧ u.flag (latFld s.melCore) = true ∧ u.flag MEL.STAT_SWAP_FAIL = true) := by
  intro t a s hs hgood
  have hg : (s.at t).standbyGood = true := hgood
  exact ⟨_, (exec_swapMonitorEnd true t hs rfl).trans (congrArg Host.Outcome.next (if_pos hg)), (s.at t).reads_swapFails⟩

theorem swapMonitorEnd_completes'' :
    ∀ t a s, s.mel.swapAt = some a → a + 1000000 * ns ≤ (s.at t).up → Completes (.swapMonitorEnd false t) s (fun u =>
      u.melCore = s.melCore ∧ u.mel.swapAt = none ∧ u.flag MEL.STAT_SWAP_OK = true) := by
  intro t a s hs hup
  have hc : (false || decide (a + 1000000 * ns ≤ (s.at t).up)) = true := by simp [hup]
  refine ⟨_, exec_swapMonitorEnd false t hs hc, ?_, rfl, State.flag_raise _ _ (by decide) (by decide) (by decide)⟩
  exact State.fld_raise_ne ((s.at t).setMel _) MEL.STAT_SWAP_OK MEL.STATUS_CORE (by decide) (by decide) (by decide)

theorem State.reads_resync {s : State} (hst : s.mel.started = true) (h7 : s.melState ≠ 7) (hswap : s.mel.swapAt = none)
    (hok : s.flag (okFld (1 - s.melCore)) = false) : s.melResync.mel.resync = true := by
  unfold State.melResync
  cases hre : s.mel.resync
  · rw [if_pos (by simp [hst, h7, hswap, hok])]
    rfl
  · rw [if_neg (by simp)]
    exact hre

theorem resync_completes :
    ∀ (v : Word) t s, v.toNat.testBit 1 = false → v.toNat.testBit 2 = false → v.toNat.testBit 3 = true → v.toNat.testBit 4 = false →
      s.mel.started = true → s.melState ≠ 7 → s.mel.swapAt = none → s.flag (okFld (1 - s.melCore)) = false →
      Completes (.resync v t) s (fun u => u.mel.resync = true) := by
  intro v t s h1 h2 h3 h4 hst h7 hswap hok
  obtain ⟨-, hcore, hstate⟩ := (s.at t).standbyGood_ctrl (v.toNat % 4)
  have he : exec (.resync v t) s = .next ((s.at t).setRegN MEL.CTRL (v.toNat % 4)).melResync := by
    refine (congrArg done (if_pos h3)).trans (congrArg done ((State.melCtrl_of_noForce h1).trans ?_))
    rw [h2, h3, h4]
    rfl
  refine ⟨_, he, State.reads_resync (s := (s.at t).setRegN MEL.CTRL (v.toNat % 4)) hst (fun h => h7 (hstate.symm.trans h)) hswap ?_⟩
  rw [hcore, ((s.at t).reads_ctrl _).2 _ (by rw [(okFld_facts _).1]; decide)]
  exact hok

theorem resyncDone_completes :
    ∀ t s, s.mel.resync = true → Completes (.resyncDone t) s (fun u =>
      u.mel.resync = false ∧ u.flag (okFld (1 - s.melCore)) = true ∧ u.flag MEL.STAT_RESYNC_DONE = true) := by
  intro t s hre
  obtain ⟨hreg, hw, hpos, -, -⟩ := okFld_facts (1 - s.melCore)
  refine ⟨_, congrArg done (if_pos (by exact hre)), rfl, ?_, State.flag_raise _ _ (by decide) (by decide) (by decide)⟩
  exact (State.flag_raise_ne _ _ _ (by decide) (by rw [hreg]; decide) (by rw [hreg]; decide)).trans (State.flag_setFlag _ _ _ hw hpos)

theorem exec_pairRst {s : State} {v : Word} (t : Nat) (h1 : v.toNat.testBit 1 = false) (h2 : v.toNat.testBit 2 = false) (h3 : v.toNat.testBit 3 = false)
    (h4 : v.toNat.testBit 4 = true) : exec (.pairRst v t) s = .next ((s.at t).setRegN MEL.CTRL (v.toNat % 4)).pairReset := by
  refine (congrArg done (if_pos h4)).trans (congrArg done ((State.melCtrl_of_noForce h1).trans ?_))
  rw [h2, h3, h4]
  rfl

/-- The engine of a pair that restarts (R319). -/
def MelEng.restarted (m : MelEng) : MelEng :=
  { m with started := true, swapAt := none, resync := false, hoFreq := none, lockSince := none, lostAt := none, pairs := [], freqs := [], steer := 0,
           offset := 0 }

/-- What the pair shows as it restarts, before any source is READY. -/
def PairRestarted (u : State) : Prop := u.mel.started = true ∧ u.melState = 0 ∧ u.melActive = 7 ∧ u.melCore = 0 ∧
  u.flag MEL.STATUS_A_OK = true ∧ u.flag MEL.STATUS_B_OK = true ∧ u.mel.hoFreq = none

theorem State.pairRestarted_pairReset {s : State} (h : s.bellState = stSTOPPED) : PairRestarted s.pairReset := by
  let w : State := ((((s.setMel s.mel.restarted).setFlag MEL.STATUS_A_OK true).setFlag MEL.STATUS_B_OK true).setFlag MEL.STATUS_A_LAT
    false).setFlag MEL.STATUS_B_LAT false
  have hw : w.flag MEL.STATUS_A_OK = true ∧ w.flag MEL.STATUS_B_OK = true := by
    refine ⟨?_, ?_⟩
    · exact (State.flag_setFlag_ne _ (by decide) (by decide)).trans ((State.flag_setFlag_ne _ (by decide) (by decide)).trans
        ((State.flag_setFlag_ne _ (by decide) (by decide)).trans (State.flag_setFlag _ _ _ (by decide) (by decide))))
    · exact (State.flag_setFlag_ne _ (by decide) (by decide)).trans ((State.flag_setFlag_ne _ (by decide) (by decide)).trans
        (State.flag_setFlag _ _ _ (by decide) (by decide)))
  have h3 : PairRestarted (((w.setFld MEL.STATUS_CORE 0).follow 7).setMelState 0) := by
    refine ⟨rfl, melState_setMelState _ (by decide), (State.melActive_setMelState _ _).trans (State.reads_follow _ (by decide)).1, ?_, ?_, ?_, rfl⟩
    · refine (State.fld_setFld_ne _ _ _ _ (by decide) (by decide)).trans ((State.fld_setFlag_ne _ (by decide) (by decide)).trans
        ((State.fld_setFld_ne _ _ _ _ (by decide) (by decide)).trans (State.fld_setFld _ _ _ (by decide))))
    · refine (State.flag_setFld_ne _ _ _ _ (by decide) (by decide)).trans ((State.flag_setFlag_ne _ (by decide) (by decide)).trans
        ((State.flag_setFld_ne _ _ _ _ (by decide) (by decide)).trans ((State.flag_setFld_ne _ _ _ _ (by decide) (by decide)).trans hw.1)))
    · refine (State.flag_setFld_ne _ _ _ _ (by decide) (by decide)).trans ((State.flag_setFlag_ne _ (by decide) (by decide)).trans
        ((State.flag_setFld_ne _ _ _ _ (by decide) (by decide)).trans ((State.flag_setFld_ne _ _ _ _ (by decide) (by decide)).trans hw.2)))
  have hready {u : State} (hu : PairRestarted u) (k : Nat) (b : Bool) : PairRestarted (u.setReady k b) := by
    obtain ⟨a1, a2, a3, a4, a5, a6, a7⟩ := hu
    exact ⟨a1, ((State.fields_ne (by decide)).2.1 _).trans a2, ((State.fields_ne (by decide)).2.1 _).trans a3,
      ((State.fields_ne (by decide)).2.1 _).trans a4, ((State.fields_ne (by decide)).2.2.2.2.1 _).trans a5,
      ((State.fields_ne (by decide)).2.2.2.2.1 _).trans a6, a7⟩
  have he : s.pairReset = if (s.mel.started || (((w.setFld MEL.STATUS_CORE 0).follow 7).setMelState 0).flag MEL.STATUS_OSC) = true then
      ((w.setFld MEL.STATUS_CORE 0).follow 7).setMelState 0
      else ((((w.setFld MEL.STATUS_CORE 0).follow 7).setMelState 0).setReady 4 true |>.setReady 5 true).refsRun := if_pos h
  rw [he]
  split
  · exact h3
  · exact hready (hready h3 4 true) 5 true

theorem pairRst_completes :
    ∀ (v : Word) t s, v.toNat.testBit 1 = false → v.toNat.testBit 2 = false → v.toNat.testBit 3 = false → v.toNat.testBit 4 = true →
      s.bellState = stSTOPPED → Completes (.pairRst v t) s (fun u => u.mel.started = true ∧ u.melState = 0 ∧ u.melActive = 7 ∧ u.melCore = 0 ∧
        u.flag MEL.STATUS_A_OK = true ∧ u.flag MEL.STATUS_B_OK = true ∧ u.mel.hoFreq = none) := by
  intro v t s h1 h2 h3 h4 hb
  exact ⟨_, exec_pairRst t h1 h2 h3 h4, State.pairRestarted_pairReset (((State.fields_ne (by decide)).2.1 _).trans hb)⟩

theorem pairRst_completes' :
    ∀ (v : Word) t s, v.toNat.testBit 1 = false → v.toNat.testBit 2 = false → v.toNat.testBit 3 = false → v.toNat.testBit 4 = true →
      s.bellState ≠ stSTOPPED → Completes (.pairRst v t) s (fun u => u.mel = (s.at t).mel ∧ u.flag MEL.STAT_RST_REJ = true) := by
  intro v t s h1 h2 h3 h4 hb
  have hb' : ((s.at t).setRegN MEL.CTRL (v.toNat % 4)).bellState ≠ stSTOPPED := fun h => hb (((State.fields_ne (by decide)).2.1 _).symm.trans h)
  exact ⟨_, (exec_pairRst t h1 h2 h3 h4).trans (congrArg Host.Outcome.next (if_neg hb')), rfl, State.flag_raise _ _ (by decide) (by decide) (by decide)⟩

theorem melierStartupDone_completes :
    ∀ t s, s.mel.started = false → s.melStopped = false → s.flag MEL.STATUS_OSC = false → Completes (.melierStartupDone t) s (fun u =>
      u.mel.started = true ∧ u.regN MEL.STATUS = 0x0C38 ∧ u.ready 4 = true ∧ u.ready 5 = true) := by
  intro t s hst hstop hosc
  have hc : (!s.mel.started && !s.melStopped) = true := by simp [hst, hstop]
  have hfld : (s.at t).fld MEL.STATUS_OSC = 0 := by
    have h : ((s.at t).reg MEL.STATUS).toNat.testBit 16 = false := hosc
    rw [Nat.testBit_eq_decide_div_mod_eq] at h
    have h' : ((s.at t).reg MEL.STATUS).toNat / 2 ^ 16 % 2 = 0 := by
      obtain h0 | h1 := Nat.mod_two_eq_zero_or_one (((s.at t).reg MEL.STATUS).toNat / 2 ^ 16)
      · exact h0
      · rw [h1] at h
        exact absurd h (by decide)
    exact (congrArg (· % 2) (Nat.shiftRight_eq_div_pow _ _)).trans h'
  let w : State := ((s.at t).setMel { (s.at t).mel with started := true }).setRegN MEL.STATUS (putBits 0x0C38 16 1 ((s.at t).fld MEL.STATUS_OSC))
  have hreg : w.regN MEL.STATUS = 0x0C38 := by
    show State.regN (State.setRegN _ _ _) _ = _
    rw [hfld]
    exact State.regN_setRegN _ _ (by decide)
  have hclear : ¬ w.flag MEL.STATUS_OSC = true := by
    have h : w.flag MEL.STATUS_OSC = (w.regN MEL.STATUS).testBit 16 := rfl
    rw [h, hreg]
    decide
  refine ⟨_, (congrArg done (if_pos (by exact hc))).trans (congrArg done (if_neg hclear)), rfl, ?_, ?_, ?_⟩
  · exact ((State.reads_ne (by decide)).2.2.2.2.1 _).trans (((State.reads_ne (by decide)).2.2.2.2.1 _).trans hreg)
  · refine (State.ready_setReady _ (by decide) true 4).trans ((if_neg (by decide)).trans ((State.ready_setReady _ (by decide) true 4).trans (if_pos rfl)))
  · exact (State.ready_setReady _ (by decide) true 5).trans (if_pos rfl)

/-- Settles O25, clause by clause. -/
theorem melierCommandsComplete : Obligations.melier_commands_complete :=
  ⟨dpllLock_completes, forceHoldover_completes, forceHoldover_completes', holdoverExpired_completes, oscLost_completes, oscRestored_completes,
    oscRestored_completes', takeover_completes, takeover_completes', melierMismatch_completes, timeCoreFault_completes, plannedSwap_completes,
    plannedSwap_completes', swapMonitorEnd_completes, swapMonitorEnd_completes', swapMonitorEnd_completes'', resync_completes, resyncDone_completes,
    pairRst_completes, pairRst_completes', melierStartupDone_completes⟩

end Sys2Proof.Machine
end

section
/-! SUPPORT. Frames of the reference, station-time and clock commands (O47): what their operations leave alone. -/
namespace Sys2Proof.Machine

variable {F : Foot}

/-! ## Clocks -/

theorem ckg_blocks : CKG.READY / 65536 = 23 ∧ CKG.STAT / 65536 = 23 ∧ CKG.GATE_OPEN / 65536 = 23 ∧ CKG.GATE_PEND / 65536 = 23 ∧
    CKG.GATE_RES / 65536 = 23 ∧ CKG.GTO_CNT / 65536 = 23 ∧ CKG.FSW_CNT / 65536 = 23 ∧ CKG.AON / 65536 = 23 := by decide

theorem ckgDomain_blocks : ∀ k, k < 4 → CKG.DOM_STATUS k / 65536 = 23 ∧ CKG.DOM_SRC k / 65536 = 23 ∧ CKG.PLL_CTRL k / 65536 = 23 ∧
    CKG.PLL_CFG k / 65536 = 23 := by decide

section
variable (hclk : F.clk = true) (h23 : 23 ∈ F.blocks)
include h23

@[simp] theorem State.still_gateResult (s : State) (g op result cause : Nat) : (s.gateResult g op result cause).still F = s.still F := by
  simp [State.gateResult, ckg_blocks, h23]

@[simp] theorem State.still_gateRefuse (s : State) (g op cause : Nat) : (s.gateRefuse g op cause).still F = s.still F := by
  simp [State.gateRefuse, ckg_blocks, h23]

@[simp] theorem State.still_gateClose (s : State) (g : Nat) (quiet : Bool) : (s.gateClose g quiet).still F = s.still F := by
  simp [State.gateClose, ckg_blocks, h23]

@[simp] theorem State.still_gateOpen (s : State) (g : Nat) : (s.gateOpen g).still F = s.still F := by
  simp [State.gateOpen, ckg_blocks, h23]

@[simp] theorem State.still_gateClosed (s : State) (g : Nat) : (s.gateClosed g).still F = s.still F := by
  simp [State.gateClosed, ckg_blocks, h23]

@[simp] theorem State.still_gateTimeout (s : State) (g : Nat) : (s.gateTimeout g).still F = s.still F := by
  simp [State.gateTimeout, ckg_blocks, h23]

@[simp] theorem State.still_setReady (s : State) (bit : Nat) (b : Bool) : (s.setReady bit b).still F = s.still F := by
  simp [State.setReady, ckg_blocks, h23]

@[simp] theorem State.still_xtalStart (s : State) : s.xtalStart.still F = s.still F := by
  simp [State.xtalStart, ckg_blocks, h23]

@[simp] theorem State.still_pllCfg (s : State) {k : Nat} (hk : k < 4) (v : Nat) (locked : Bool) : (s.pllCfg k v locked).still F = s.still F := by
  simp [State.pllCfg, ckg_blocks, ckgDomain_blocks k hk, h23]

omit h23 in
include hclk in
@[simp] theorem State.still_setStopped (s : State) (sel : Nat → Bool) (b : Bool) : (s.setStopped sel b).still F = s.still F := by
  simp [State.setStopped, hclk]

omit h23 in
include hclk in
@[simp] theorem State.still_refsRun (s : State) : s.refsRun.still F = s.still F := by
  simp [State.refsRun, hclk]

include hclk

@[simp] theorem State.still_setTarget (s : State) {k : Nat} (hk : k < 4) (v : Option Nat) : (s.setTarget k v).still F = s.still F := by
  simp [State.setTarget, ckgDomain_blocks k hk, hclk, h23]

@[simp] theorem State.still_clockSource (s : State) {k : Nat} (hk : k < 4) (v : Nat) : (s.clockSource k v).still F = s.still F := by
  simp [State.clockSource, ckg_blocks, ckgDomain_blocks k hk, hk, hclk, h23]

@[simp] theorem State.still_switchEnd (s : State) {k : Nat} (hk : k < 4) (t : Nat) (forced : Bool) : (s.switchEnd k t forced).still F = s.still F := by
  simp [State.switchEnd, ckg_blocks, ckgDomain_blocks k hk, hk, hclk, h23]

@[simp] theorem State.still_abortSwitches (s : State) (lost : Nat → Nat → Bool) : (s.abortSwitches lost).still F = s.still F := by
  refine State.still_each_mem s _ fun t k hk => ?_
  have hk : k < 4 := List.mem_range.1 hk
  split
  · simp [ckg_blocks, ckgDomain_blocks k hk, hk, hclk, h23]
  · rfl

@[simp] theorem State.still_pllOff (s : State) {k : Nat} (hk : k < 4) : (s.pllOff k).still F = s.still F := by
  simp [State.pllOff, State.fallback, hk, hclk, h23]

@[simp] theorem State.still_pllCtrl (s : State) {k : Nat} (hk : k < 4) (v : Nat) : (s.pllCtrl k v).still F = s.still F := by
  simp [State.pllCtrl, ckg_blocks, ckgDomain_blocks k hk, hk, hclk, h23]

@[simp] theorem State.still_pllLocks (s : State) (k : Nat) : (s.pllLocks k).still F = s.still F := by
  simp [State.pllLocks, ckg_blocks, hclk, h23]

@[simp] theorem State.still_xtalStable (s : State) : s.xtalStable.still F = s.still F := by
  simp [State.xtalStable, ckg_blocks, hclk, h23]

end

/-- What lets waiting transactions go, lets none go where none waits. -/
theorem still_retryOut {s t : State} (hn : s.noneWait) (hmtx : F.mtx = false) (h : t.still F = s.still F) : t.retryOut.still F = s.still F := by
  have hm := congrArg Still.mtx h
  simp only [State.still, unlessFree, hmtx, Bool.false_eq_true, if_false, Option.some.injEq] at hm
  rw [State.retryOut_of_noneWait (State.noneWait_of_out hn (congrArg Matrix.out hm)), h]

theorem Stays.doneIf_retryOut {s t : State} {c : Bool} {f : State → State} (hn : s.noneWait) (hmtx : F.mtx = false) (ht : t.still F = s.still F)
    (hf : c = true → (f t).still F = t.still F) : Stays F s (Machine.doneIf t c (fun u => (f u).retryOut)) := by
  cases c
  · exact (stays_done s t).2 ht
  · exact (stays_done s _).2 (still_retryOut hn hmtx ((hf rfl).trans ht))

theorem Stays.doneIf_of {s t : State} {c : Bool} {f : State → State} (ht : t.still F = s.still F) (hf : c = true → (f t).still F = t.still F) :
    Stays F s (Machine.doneIf t c f) := by
  cases c
  · exact (stays_done s t).2 ht
  · exact (stays_done s (f t)).2 ((hf rfl).trans ht)

theorem stays_clockCommand (hclk : F.clk = true) (h23 : 23 ∈ F.blocks) (hmtx : F.mtx = false) {c : Instr} (h : clockCommand c = true) {s : State}
    (hn : s.noneWait) : Stays F s (exec c s) := by
  unfold clockCommand at h
  split at h
  next =>
    show Stays F s (execXtalStable s)
    unfold execXtalStable
    exact .doneIf_retryOut hn hmtx rfl fun _ => State.still_xtalStable hclk h23 s
  next =>
    show Stays F s (execXtalFail s)
    simp [execXtalFail, ckg_blocks, h23]
  next =>
    show Stays F s (execXtalLost s)
    refine .doneIf rfl ?_
    simp [ckg_blocks, hclk, h23]
  next v =>
    show Stays F s (execXtalRestart v s)
    simp [execXtalRestart, h23]
  next k v =>
    show Stays F s (execPllEnable k v s)
    unfold execPllEnable
    exact .doneIf_of rfl fun hk => State.still_pllCtrl hclk h23 s (of_decide_eq_true hk) _
  next k ctrl v =>
    show Stays F s (execPllConfigWrite k ctrl v s)
    unfold execPllConfigWrite
    refine .doneIf_of rfl fun hk => ?_
    have hk : k < 4 := of_decide_eq_true hk
    simp [hk, hclk, h23]
  next k =>
    show Stays F s (execPllLock k s)
    unfold execPllLock
    exact .doneIf_retryOut hn hmtx rfl fun _ => State.still_pllLocks hclk h23 s k
  next k =>
    show Stays F s (execPllUnlock k s)
    unfold execPllUnlock
    refine .doneIf_of rfl fun hk => ?_
    have hk : k < 4 := of_decide_eq_true (Bool.and_eq_true_iff.1 hk).1
    simp [ckg_blocks, hk, hclk, h23]
  next k v =>
    show Stays F s (execClockSourceWrite k v s)
    unfold execClockSourceWrite
    exact .doneIf_of rfl fun hk => State.still_clockSource hclk h23 s (of_decide_eq_true hk) _
  next k =>
    show Stays F s (execSwDone k s)
    unfold execSwDone
    split
    · exact .doneIf_retryOut hn hmtx rfl fun hk =>
        State.still_switchEnd hclk h23 s (of_decide_eq_true (Bool.and_eq_true_iff.1 hk).1) _ _
    · exact (stays_done s s).2 rfl
  next k =>
    show Stays F s (execForcedSwitch k s)
    unfold execForcedSwitch
    split
    · exact .doneIf_retryOut hn hmtx rfl fun hk =>
        State.still_switchEnd hclk h23 s (of_decide_eq_true (Bool.and_eq_true_iff.1 hk).1) _ _
    · exact (stays_done s s).2 rfl
  next v q =>
    show Stays F s (execGateClose v q s)
    simp [execGateClose, h23]
  next v =>
    show Stays F s (execGateOpen v s)
    unfold execGateOpen
    exact .doneIf_retryOut hn hmtx rfl fun _ => State.still_gateOpen h23 s _
  next g =>
    show Stays F s (execGateCloseDone g s)
    unfold execGateCloseDone
    exact .doneIf_retryOut hn hmtx rfl fun _ => State.still_gateClosed h23 s g
  next g =>
    show Stays F s (execGateCloseTimeout g s)
    unfold execGateCloseTimeout
    exact .doneIf_retryOut hn hmtx rfl fun _ => State.still_gateTimeout h23 s g
  next => contradiction

/-! ## References and the Melier pair -/

theorem mel_blocks : MEL.STAT / 65536 = 21 ∧ MEL.STATUS / 65536 = 21 ∧ MEL.CTRL / 65536 = 21 ∧ MEL.TKO_NS / 65536 = 21 ∧ MEL.TKO_CNT / 65536 = 21 ∧
    MEL.SWITCH_CNT / 65536 = 21 := by decide

theorem ref_blocks : ∀ r, r < 6 → MEL.REF_STATUS r / 65536 = 21 ∧ MEL.REF_QL r / 65536 = 21 ∧ MEL.REF_FOFF r / 65536 = 21 ∧
    MEL.REF_TOFF r / 65536 = 21 := by decide

theorem side_blocks (c : Nat) : (okFld c).reg / 65536 = 21 ∧ (latFld c).reg / 65536 = 21 := by
  rw [(okFld_facts c).1, (latFld_facts c).1]
  decide

section
variable (hmel : F.mel = true) (h21 : 21 ∈ F.blocks)

@[simp] theorem State.still_setMelState (h21 : 21 ∈ F.blocks) (s : State) (st : Nat) : (s.setMelState st).still F = s.still F := by
  simp [State.setMelState, mel_blocks, h21]

@[simp] theorem State.still_follow (h21 : 21 ∈ F.blocks) (s : State) (r : Nat) : (s.follow r).still F = s.still F := by
  simp [State.follow, mel_blocks, h21]

include hmel

omit hmel in
@[simp] theorem State.still_meanFreq (s : State) : s.meanFreq.2.still F = s.still F := by
  unfold State.meanFreq
  dsimp only
  split <;> rfl

@[simp] theorem State.still_unlock (s : State) : s.unlock.still F = s.still F := by
  have hhold : s.holdFreq.2.still F = s.still F := by
    unfold State.holdFreq
    split
    · exact State.still_meanFreq s
    · rfl
  exact (State.still_setMel hmel _).trans hhold

@[simp] theorem State.still_startHoldTimer (s : State) : s.startHoldTimer.still F = s.still F := State.still_setMel hmel _

@[simp] theorem State.still_onceQualified (s : State) (r : Nat) : (s.onceQualified r).still F = s.still F := by
  simp [State.onceQualified, hmel]

@[simp] theorem State.still_holdFor (s : State) (n : Nat) : (s.holdFor n).still F = s.still F := State.still_setMel hmel _

@[simp] theorem State.still_holdGap (s : State) : s.holdGap.still F = s.still F := by
  simp [State.holdGap, hmel]

include h21

@[simp] theorem State.still_holdOver (s : State) : s.holdOver.still F = s.still F := by
  unfold State.holdOver
  dsimp only
  split <;> simp [mel_blocks, hmel, h21]

@[simp] theorem State.still_lockEntered (s : State) : s.lockEntered.still F = s.still F := by
  simp [State.lockEntered, mel_blocks, hmel, h21]

@[simp] theorem State.still_trimPairs (s : State) : s.trimPairs.still F = s.still F := by
  simp [State.trimPairs, hmel, h21]

@[simp] theorem State.still_disqualify (s : State) {r : Nat} (hr : r < 6) (cause : Nat) : (s.disqualify r cause).still F = s.still F := by
  unfold State.disqualify
  extract_lets c s1 m s2
  have hc : c.still F = s.still F := by simp [c, ref_blocks r hr, h21]
  have h1 : s1.still F = c.still F := by simp [s1, mel_blocks, ref_blocks r hr, hmel, h21]
  have h2 : s2.still F = s1.still F := by
    unfold s2
    split
    · exact State.still_setMel hmel _
    · rfl
  clear_value s2
  clear_value s1
  clear_value c
  split
  · exact hc
  · split
    · simp [hmel, h21, h2, h1, hc]
    · simp [hmel, h21, h2, h1, hc]

@[simp] theorem State.still_refreshRanks (s : State) : s.refreshRanks.still F = s.still F := by
  refine State.still_each_mem s _ fun t r hr => ?_
  have hr : r < 6 := List.mem_range.1 hr
  dsimp only
  split
  · simp [hr, ref_blocks r hr, hmel, h21]
  · simp [ref_blocks r hr, h21]

@[simp] theorem State.still_selectRef (s : State) (r : Nat) : (s.selectRef r).still F = s.still F := by
  simp [State.selectRef, mel_blocks, hmel, h21]

@[simp] theorem State.still_refEvaluate (s : State) : s.refEvaluate.still F = s.still F := by
  unfold State.refEvaluate
  split
  · rfl
  · split
    · simp [hmel, h21]
    · split <;> simp [hmel, h21]
    · rfl
    · split <;> simp [hmel, h21]

theorem State.still_settlePair (s : State) {i j : Nat} (hi : i < 6) (hj : j < 6) : (s.settlePair i j).still F = s.still F := by
  unfold State.settlePair
  split
  · split
    next k hk =>
      cases s.agree i k
      · exact (State.still_disqualify hmel h21 _ hi 6).trans (State.still_setMel hmel _)
      · exact (State.still_disqualify hmel h21 _ hj 6).trans (State.still_setMel hmel _)
    next =>
      dsimp only
      have hpair : (if s.mel.pairs.contains (i, j) then s else s.setMel { s.mel with pairs := (i, j) :: s.mel.pairs }).still F = s.still F := by
        split
        · rfl
        · exact State.still_setMel hmel _
      generalize (if s.mel.pairs.contains (i, j) then s else s.setMel { s.mel with pairs := (i, j) :: s.mel.pairs }) = u at hpair ⊢
      split
      · simp [mel_blocks, h21, hpair]
      · simp [mel_blocks, h21, hpair]
  · exact (State.still_trimPairs hmel h21 _).trans (State.still_setMel hmel _)

omit h21 in
@[simp] theorem State.still_trackRef (s : State) : s.trackRef.still F = s.still F := by
  unfold State.trackRef
  dsimp only
  split
  · rfl
  · exact State.still_setMel hmel _

omit hmel in
@[simp] theorem State.still_measured (s : State) (foff toff : List Int) : (s.measured foff toff).still F = s.still F := by
  refine State.still_each_mem s _ fun t r hr => ?_
  have hr : r < 6 := List.mem_range.1 hr
  dsimp only
  split <;> simp [ref_blocks r hr, h21]

@[simp] theorem State.still_compared (s : State) : s.compared.still F = s.still F := by
  have hlt : ∀ p ∈ allPairs, p.1 < 6 ∧ p.2 < 6 := by decide
  have htracked : s.tracked.still F = s.still F := by simp [State.tracked, mel_blocks, hmel, h21]
  refine (State.still_each_mem _ _ fun t p hp => State.still_settlePair hmel h21 t (hlt p hp).1 (hlt p hp).2).trans ?_
  exact (State.still_setMel hmel _).trans htracked

@[simp] theorem State.still_forceHold (s : State) : s.forceHold.still F = s.still F := by
  simp [State.forceHold, hmel, h21]

omit hmel in
@[simp] theorem State.still_outOfSpec (s : State) : s.outOfSpec.still F = s.still F := by
  simp [State.outOfSpec, mel_blocks, h21]

@[simp] theorem State.still_passOutput (s : State) : s.passOutput.still F = s.still F := by
  simp [State.passOutput, mel_blocks, side_blocks, hmel, h21]

@[simp] theorem State.still_swapFails (s : State) : s.swapFails.still F = s.still F := by
  simp [State.swapFails, mel_blocks, side_blocks, hmel, h21]

@[simp] theorem State.still_coreFault (s : State) : s.coreFault.still F = s.still F := by
  unfold State.coreFault
  extract_lets s1
  have h1 : s1.still F = s.still F := by simp [s1, hmel]
  clear_value s1
  simp [mel_blocks, hmel, h21, h1]

@[simp] theorem State.still_plannedSwap (s : State) : s.plannedSwap.still F = s.still F := by
  simp [State.plannedSwap, mel_blocks, hmel, h21]

omit h21 in
@[simp] theorem State.still_melResync (s : State) : s.melResync.still F = s.still F := by
  simp [State.melResync, hmel]

variable (hclk : F.clk = true) (h23 : 23 ∈ F.blocks)
include hclk h23

omit hmel h21 in
@[simp] theorem State.still_oscStops (s : State) : s.oscStops.still F = s.still F := by
  unfold State.oscStops
  dsimp only
  refine (State.still_each_mem _ _ fun t k hk => ?_).trans (by simp [ckg_blocks, hclk, h23])
  have hk : k < 4 := List.mem_range.1 hk
  split
  · simp [ckg_blocks, hk, hclk, h23]
  · rfl

@[simp] theorem State.still_oscBack (s : State) : s.oscBack.still F = s.still F := by
  simp [State.oscBack, mel_blocks, hmel, h21, hclk, h23]

@[simp] theorem State.still_pairReset (s : State) : s.pairReset.still F = s.still F := by
  simp [State.pairReset, mel_blocks, hmel, h21, hclk, h23]

@[simp] theorem State.still_melCtrl (s : State) (v : Nat) : (s.melCtrl v).still F = s.still F := by
  simp [State.melCtrl, mel_blocks, hmel, h21, hclk, h23]

end

theorem stays_todMessageRx (hmel : F.mel = true) (h21 : 21 ∈ F.blocks) (s : State) (r : Nat) (msg : List Byte) (after : Nat) (t : Nat) (hw : decide (r < 6) = true) :
    Stays F s (execTodMessageRx r msg after t s) := by
  have hr : r < 6 := of_decide_eq_true hw
  unfold execTodMessageRx
  refine .doneIf rfl ?_
  dsimp only
  split
  · split
    · split <;> simp [mel_blocks, ref_blocks r hr, hmel, h21]
    · simp [mel_blocks, hmel, h21]
  · simp [mel_blocks, h21]

theorem stays_esmcPduRx (hmel : F.mel = true) (h21 : 21 ∈ F.blocks) (s : State) (p : Nat) (ev : Bool) (ql : Nat) (t : Nat) (hw : decide (p < 2) = true) :
    Stays F s (execEsmcPduRx p ev ql t s) := by
  have hp : 3 + p < 6 := by have : p < 2 := of_decide_eq_true hw; omega
  unfold execEsmcPduRx
  refine .doneIf rfl ?_
  simp [ref_blocks _ hp, hmel, h21]

theorem stays_disagreeCheck (hmel : F.mel = true) (h21 : 21 ∈ F.blocks) (s : State) (foff : List Int) (toff : List Int) (t : Nat) :
    Stays F s (execDisagreeCheck foff toff t s) := by
  have he : execDisagreeCheck foff toff t s = doneIf (s.at t) s.mel.started (fun s => (s.measured foff toff).compared) := rfl
  rw [he]
  have h2 : ((s.at t).measured foff toff).compared.still F = (s.at t).still F :=
    (State.still_compared hmel h21 _).trans (State.still_measured h21 _ foff toff)
  exact .doneIf rfl h2

theorem stays_oscLost (hmel : F.mel = true) (h21 : 21 ∈ F.blocks) (hclk : F.clk = true) (h23 : 23 ∈ F.blocks) (s : State) (t : Nat) :
    Stays F s (execOscLost t s) := by
  unfold execOscLost
  refine .doneIf rfl ?_
  extract_lets s1 s2
  have h1 : s1.still F = s.still F := by simp [s1, mel_blocks, hmel, h21, hclk, h23]
  clear_value s1
  have h2 : s2.still F = s.still F := by
    unfold s2
    split
    · simp [hmel, h21, h1]
    · exact h1
  have h3 : (s2.each (List.range 6) (fun (s : State) r => if s.refOn r then s.disqualify r 1 else s)).still F = s2.still F := by
    refine State.still_each_mem _ _ fun v r hr => ?_
    split
    · exact State.still_disqualify hmel h21 _ (List.mem_range.1 hr) _
    · rfl
  exact (State.still_raise (by simp [mel_blocks, h21])).trans (h3.trans h2)

theorem stays_swapMonitorEnd (hmel : F.mel = true) (h21 : 21 ∈ F.blocks) (s : State) (mismatch : Bool) (t : Nat) :
    Stays F s (execSwapMonitorEnd mismatch t s) := by
  unfold execSwapMonitorEnd
  split
  · refine .doneIf rfl ?_
    dsimp only
    split
    · split
      · exact State.still_swapFails hmel h21 _
      · exact State.still_coreFault hmel h21 _
    · simp [mel_blocks, hmel, h21]
  · exact (stays_done s _).2 rfl

theorem stays_melierStartupDone (hmel : F.mel = true) (h21 : 21 ∈ F.blocks) (hclk : F.clk = true) (h23 : 23 ∈ F.blocks) (s : State) (t : Nat) :
    Stays F s (execMelierStartupDone t s) := by
  unfold execMelierStartupDone
  refine .doneIf rfl ?_
  dsimp only
  split <;> simp [mel_blocks, hmel, h21, hclk, h23]

theorem stays_melierCommand (hmel : F.mel = true) (h21 : 21 ∈ F.blocks) (hclk : F.clk = true) (h23 : 23 ∈ F.blocks) (hmtx : F.mtx = false)
    {c : Instr} (h : melierCommand c = true) (hw : c.wf = true) {s : State} (hn : s.noneWait) : Stays F s (exec c s) := by
  unfold melierCommand at h
  split at h
  next r msg after t =>
    exact stays_todMessageRx hmel h21 s r msg after t hw
  next p ev ql t =>
    exact stays_esmcPduRx hmel h21 s p ev ql t hw
  next p t =>
    show Stays F s (execEsmcTimeout p t s)
    unfold execEsmcTimeout
    exact .doneIf rfl (by simp [mel_blocks, hmel, h21])
  next r cause t =>
    show Stays F s (execRefDisqualify r cause t s)
    unfold execRefDisqualify
    exact .doneIf rfl (State.still_disqualify hmel h21 _ (of_decide_eq_true hw) _)
  next r t =>
    show Stays F s (execRefAvailable r t s)
    have hr : r < 6 := of_decide_eq_true hw
    unfold execRefAvailable
    exact .doneIf rfl (by simp [mel_blocks, ref_blocks r hr, h21])
  next r t =>
    show Stays F s (execRefQualify r t s)
    have hr : r < 6 := of_decide_eq_true hw
    unfold execRefQualify
    exact .doneIf rfl (by simp [ref_blocks r hr, hmel, h21])
  next t =>
    show Stays F s (execRefSelectEval t s)
    exact .doneIf rfl (State.still_refEvaluate hmel h21 _)
  next t =>
    show Stays F s (execSwitchSettled t s)
    exact .doneIf rfl (by simp [mel_blocks, hmel, h21])
  next foff toff t =>
    exact stays_disagreeCheck hmel h21 s foff toff t
  next t =>
    show Stays F s (execDpllLock t s)
    exact .doneIf rfl (by simp [mel_blocks, hmel, h21])
  next v t =>
    show Stays F s (execForceHoldover v t s)
    exact .doneIf rfl (State.still_melCtrl hmel h21 hclk h23 _ _)
  next t =>
    show Stays F s (execHoldoverExpired t s)
    exact .doneIf rfl (State.still_outOfSpec h21 _)
  next t =>
    exact stays_oscLost hmel h21 hclk h23 s t
  next t =>
    show Stays F s (execOscRestored t s)
    unfold execOscRestored
    exact .doneIf_retryOut hn hmtx rfl fun _ => State.still_oscBack hmel h21 hclk h23 _
  next t =>
    show Stays F s (execTakeover t s)
    unfold execTakeover
    refine .doneIf rfl ?_
    split
    · exact State.still_swapFails hmel h21 _
    · exact State.still_passOutput hmel h21 _
  next t =>
    show Stays F s (execMelierMismatch t s)
    exact .doneIf rfl (by simp [mel_blocks, side_blocks, h21])
  next t =>
    show Stays F s (execTimeCoreFault t s)
    exact .doneIf rfl (State.still_coreFault hmel h21 _)
  next v t =>
    show Stays F s (execPlannedSwap v t s)
    exact .doneIf rfl (State.still_melCtrl hmel h21 hclk h23 _ _)
  next mismatch t =>
    exact stays_swapMonitorEnd hmel h21 s mismatch t
  next v t =>
    show Stays F s (execResync v t s)
    exact .doneIf rfl (State.still_melCtrl hmel h21 hclk h23 _ _)
  next t =>
    show Stays F s (execResyncDone t s)
    exact .doneIf rfl (by simp [mel_blocks, side_blocks, hmel, h21])
  next v t =>
    show Stays F s (execPairRst v t s)
    exact .doneIf rfl (State.still_melCtrl hmel h21 hclk h23 _ _)
  next t =>
    exact stays_melierStartupDone hmel h21 hclk h23 s t
  next => contradiction

/-! ## Service frames and station time -/

theorem ptp_blocks : PTP.STAT / 65536 = 22 ∧ PTP.STATUS / 65536 = 22 ∧ PTP.TSET_CMD / 65536 = 22 ∧ PTP.TSQ_LOST / 65536 = 22 ∧
    PTP.TC_DISC / 65536 = 22 ∧ PTP.TC_UNM / 65536 = 22 ∧ PTP.TSQ_NS / 65536 = 22 ∧ PTP.SLV_STATUS / 65536 = 22 ∧ PTP.SLV_CTRL / 65536 = 22 ∧
    PTP.SLV_GM_LO / 65536 = 22 ∧ PTP.SLV_GM_HI / 65536 = 22 ∧ PTP.SLV_OFFSET / 65536 = 22 ∧ PTP.SLV_MPD / 65536 = 22 ∧
    PTP.CDSTATUS / 65536 = 22 ∧ PTP.NOW_NS / 65536 = 22 ∧ PTP.NOW_SEC_LO / 65536 = 22 ∧ PTP.NOW_SEC_HI / 65536 = 22 ∧ PTP.NOW_FR / 65536 = 22 := by
  decide

theorem ptpStamp_blocks : ∀ k, k < 11 → PTP.TSLAST k / 65536 = 22 := by decide

theorem svcPort_blocks : ∀ p, p < 2 → PTP.SVC_FWD p / 65536 = 22 ∧ PTP.SVC_DROP p / 65536 = 22 ∧ PTP.SVC_MLD p / 65536 = 22 ∧
    PTP.SVC_STATUS p / 65536 = 22 := by decide

theorem otherSvc_lt (p : Nat) : otherSvc p < 2 := by
  unfold otherSvc
  omega

section
variable (hptp : F.ptp = true) (h22 : 22 ∈ F.blocks)

@[simp] theorem State.still_svcDrop (h22 : 22 ∈ F.blocks) (s : State) (p : Nat) : (s.svcDrop p).still F = s.still F := by
  simp [State.svcDrop, ptp_blocks, svcPort_blocks _ (Nat.mod_lt p (by decide : 0 < 2)), h22]

@[simp] theorem State.still_tcDisc (h22 : 22 ∈ F.blocks) (s : State) : s.tcDisc.still F = s.still F := by simp [State.tcDisc, ptp_blocks, h22]

@[simp] theorem State.still_tcUnmatched (h22 : 22 ∈ F.blocks) (s : State) : s.tcUnmatched.still F = s.still F := by
  simp [State.tcUnmatched, ptp_blocks, h22]

include hptp

@[simp] theorem State.still_setPd (s : State) (p : Nat) (x : PdPort) : (s.setPd p x).still F = s.still F := State.still_setPtp hptp _

@[simp] theorem State.still_setSvcOut (s : State) (p : Nat) (x : SvcOut) : (s.setSvcOut p x).still F = s.still F := State.still_setPtp hptp _

@[simp] theorem State.still_svcBegin (s : State) (p u : Nat) (f : List Byte) : (s.svcBegin p u f).still F = s.still F := by
  simp [State.svcBegin, hptp]

include h22

theorem State.still_svcLeave {p : Nat} (hp : p < 2) : ∀ (l : List (List Byte)) (s : State), (s.svcLeave p l).still F = s.still F
  | [], s => State.still_setSvcOut hptp s _ _
  | f :: l, s => by
    unfold State.svcLeave
    dsimp only
    split
    · exact (State.still_svcLeave hp l _).trans (by simp [svcPort_blocks p hp, hptp, h22])
    · exact State.still_setSvcOut hptp s _ _

@[simp] theorem State.still_svcDrain (s : State) {p : Nat} (hp : p < 2) : (s.svcDrain p).still F = s.still F :=
  State.still_svcLeave hptp h22 hp _ s

@[simp] theorem State.still_svcSend (s : State) {p : Nat} (hp : p < 2) (f : List Byte) : (s.svcSend p f).still F = s.still F := by
  simp [State.svcSend, hp, hptp, h22]

@[simp] theorem State.still_svcForward (s : State) (p : Nat) (f : List Byte) : (s.svcForward p f).still F = s.still F := by
  simp [State.svcForward, State.still_svcDrain hptp h22 _ (otherSvc_lt p), hptp, h22]

@[simp] theorem State.still_svcForwardEvent (s : State) (p : Nat) (f : List Byte) (tx : Nat) : (s.svcForwardEvent p f tx).still F = s.still F := by
  simp [State.svcForwardEvent, State.still_svcDrain hptp h22 _ (otherSvc_lt p), svcPort_blocks _ (otherSvc_lt p), hptp, h22]

@[simp] theorem State.still_svcForwardPtp (s : State) (p : Nat) (f : List Byte) (o tx : Nat) : (s.svcForwardPtp p f o tx).still F = s.still F := by
  simp [State.svcForwardPtp, hptp, h22]

@[simp] theorem State.still_sendCorrected (s : State) (p : Nat) (f : List Byte) (l : PtpLoc) (add : Int) (tx : Nat) :
    (s.sendCorrected p f l add tx).still F = s.still F := by
  unfold State.sendCorrected
  split <;> simp [hptp, h22]

@[simp] theorem State.still_tcMessage (s : State) (p : Nat) (f : List Byte) (l : PtpLoc) (tx : Nat) : (s.tcMessage p f l tx).still F = s.still F := by
  unfold State.tcMessage
  dsimp only
  split
  · simp [ptp_blocks, hptp, h22]
  · split <;> simp [hptp, h22]
  · simp [hptp, h22]
  · simp [hptp, h22]
  · simp [hptp, h22]
  · simp [hptp, h22]

@[simp] theorem State.still_ptpMessage (s : State) (p : Nat) (f : List Byte) (tx : Nat) : (s.ptpMessage p f tx).still F = s.still F := by
  unfold State.ptpMessage
  split
  · dsimp only
    have hdrain : ∀ b : Bool, (if b then s.svcDrain (otherSvc p) else s).still F = s.still F := fun b => by
      simp [State.still_svcDrain hptp h22 _ (otherSvc_lt p)]
    generalize hu : (if s.svcOpen p f then s.svcDrain (otherSvc p) else s) = u
    have hu : u.still F = s.still F := hu ▸ hdrain _
    simp [hptp, h22, hu]
  · rfl

@[simp] theorem State.still_queueStamp (s : State) (src : Nat) (fall : Bool) (fr : Nat) : (s.queueStamp src fall fr).still F = s.still F := by
  unfold State.queueStamp
  split <;> split <;> simp [ptp_blocks, hptp, h22]

omit hptp in
@[simp] theorem State.still_nowRead_ptp (s : State) : s.nowRead.2.still F = s.still F := by
  simp [State.nowRead, ptp_blocks, h22]

@[simp] theorem State.still_stampPop_ptp (s : State) : s.stampPop.2.still F = s.still F := by
  unfold State.stampPop
  split <;> simp [ptp_blocks, hptp, h22]

@[simp] theorem State.still_pdValue (s : State) {p : Nat} (hp : p < 2) (twice : Int) : (s.pdValue p twice).still F = s.still F := by
  unfold State.pdValue
  dsimp only
  split
  · simp [hptp]
  · split
    · simp [svcPort_blocks p hp, hptp, h22]
    · simp [svcPort_blocks p hp, hptp, h22]

@[simp] theorem State.still_cdCommit (s : State) (v : Nat) : (s.cdCommit v).still F = s.still F := by
  simp [State.cdCommit, ptp_blocks, hptp, h22]

variable (hmel : F.mel = true) (h21 : 21 ∈ F.blocks)
include hmel

omit hptp in
@[simp] theorem State.still_loadTime (s : State) (v : Nat) : (s.loadTime v).still F = s.still F := by
  have hm : State.still F { s with now := v, mel := { s.mel with offset := 0, gapTo := 0 } } = s.still F := by
    exact State.still_setMel (s := { s with now := v }) hmel _
  exact (by simp [State.loadTime, ptp_blocks, h22] : (s.loadTime v).still F = _).trans hm

@[simp] theorem State.still_timeSet (s : State) (v : Nat) : (s.timeSet v).still F = s.still F := by
  simp [State.timeSet, ptp_blocks, hptp, h22, hmel]

omit hptp in
@[simp] theorem State.still_ppsEdge (s : State) (r : Nat) : (s.ppsEdge r).still F = s.still F := by
  simp [State.ppsEdge, ptp_blocks, h22, hmel]

@[simp] theorem State.still_ptpSecond (s : State) (m : Int) : (s.ptpSecond m).still F = s.still F := by
  unfold State.ptpSecond
  dsimp only
  split
  · simp [ptp_blocks, hptp, h22, hmel]
  · simp [hptp]

include h21

@[simp] theorem State.still_slaveFaulty (s : State) : s.slaveFaulty.still F = s.still F := by
  simp [State.slaveFaulty, ptp_blocks, hptp, h22, hmel, h21]

omit hptp in
@[simp] theorem State.still_slaveTo (s : State) (st : Nat) : (s.slaveTo st).still F = s.still F := by
  simp [State.slaveTo, ptp_blocks, h22, hmel, h21]

@[simp] theorem State.still_slaveListen (s : State) (st : Nat) : (s.slaveListen st).still F = s.still F := by
  simp [State.slaveListen, hptp, h22, hmel, h21]

@[simp] theorem State.still_slaveCtrl (s : State) (v : Nat) : (s.slaveCtrl v).still F = s.still F := by
  simp [State.slaveCtrl, ptp_blocks, hptp, h22, hmel, h21]

@[simp] theorem State.still_slaveOffset (s : State) (seq : Nat) (origin stamp : Int) : (s.slaveOffset seq origin stamp).still F = s.still F := by
  simp [State.slaveOffset, ptp_blocks, ref_blocks, hptp, h22, hmel, h21]

omit hptp in
@[simp] theorem State.still_showMaster (s : State) : s.showMaster.still F = s.still F := by
  unfold State.showMaster
  split <;> simp [ptp_blocks, ref_blocks, h22, hmel, h21]

@[simp] theorem State.still_masterLost (s : State) : s.masterLost.still F = s.still F := by
  simp [State.masterLost, ptp_blocks, hptp, h22, hmel, h21]

@[simp] theorem State.still_selectMaster (s : State) : s.selectMaster.still F = s.still F := by
  unfold State.selectMaster
  extract_lets u
  have hu : u.still F = s.still F := by simp [u, hptp, h22, hmel, h21]
  clear_value u
  split
  · split <;> simp [hptp, h22, hmel, h21, hu]
  · exact hu

@[simp] theorem State.still_svcDown (s : State) {p : Nat} (hp : p < 2) : (s.svcDown p).still F = s.still F := by
  simp [State.svcDown, ptp_blocks, svcPort_blocks p hp, hp, hptp, h22, hmel, h21]

end

theorem stays_stampEdge (hptp : F.ptp = true) (h22 : 22 ∈ F.blocks) (hmel : F.mel = true) (s : State) {src : Nat} (hs : src < 11) (fall : Bool)
    (t : Nat) : Stays F s (execStampEdge src fall t s) := by
  unfold execStampEdge
  refine .doneIf rfl ?_
  generalize s.at t = s
  extract_lets s1 soon fr p v s2
  have h1 : s1.still F = s.still F := by simp [s1]
  clear_value s1
  have h2 : s2.still F = s.still F := by
    unfold s2
    split
    · simp [ptp_blocks, h22, h1]
    · have hv : v.still F = s.still F := by simp [v, ptpStamp_blocks src hs, hptp, h22, h1]
      clear_value v
      split <;> simp [hv]
  clear_value s2
  split
  · exact (State.still_ppsEdge h22 hmel _ _).trans h2
  · exact h2

theorem stays_pdelay (hptp : F.ptp = true) (h22 : 22 ∈ F.blocks) {p : Nat} (hp : p < 2) (s : State) :
    (∀ t, Stays F s (execPdelayReqTx p t s)) ∧ (∀ f tx t, Stays F s (execPdelayReqRx p f tx t s)) ∧ (∀ f t, Stays F s (execPdelayRespRx p f t s)) := by
  refine ⟨fun t => ?_, fun f tx t => ?_, fun f t => ?_⟩
  · unfold execPdelayReqTx
    exact .doneIf rfl (by simp [hp, hptp, h22])
  · unfold execPdelayReqRx
    dsimp only
    split
    · refine .doneIf rfl ?_
      split <;> simp [hp, hptp, h22]
    · exact (stays_done s _).2 rfl
  · unfold execPdelayRespRx
    dsimp only
    split
    · refine .doneIf rfl ?_
      split
      · split <;> simp [hp, hptp, h22]
      · split <;> simp [hp, hptp, h22]
    · exact (stays_done s _).2 rfl

theorem stays_syncRx (hptp : F.ptp = true) (h22 : 22 ∈ F.blocks) (hmel : F.mel = true) (h21 : 21 ∈ F.blocks) (f : List Byte) (t : Nat) (s : State) :
    Stays F s (execSyncRx f t s) := by
  unfold execSyncRx
  dsimp only
  split
  · refine .doneIf rfl ?_
    split
    · split <;> simp [hptp, h22, hmel, h21]
    · split
      · split <;> simp [hptp, h22, hmel, h21]
      · rfl
    · rfl
  · exact (stays_done s _).2 rfl

theorem stays_delayRespRx (hptp : F.ptp = true) (h22 : 22 ∈ F.blocks) (f : List Byte) (t : Nat) (s : State) : Stays F s (execDelayRespRx f t s) := by
  unfold execDelayRespRx
  dsimp only
  split
  · refine .doneIf rfl ?_
    split <;> simp [ptp_blocks, hptp, h22]
  · exact (stays_done s _).2 rfl

theorem stays_ptpCommand (hptp : F.ptp = true) (h22 : 22 ∈ F.blocks) (hmel : F.mel = true) (h21 : 21 ∈ F.blocks) {c : Instr}
    (h : ptpCommand c = true) (hw : c.wf = true) (s : State) : Stays F s (exec c s) := by
  unfold ptpCommand at h
  split at h
  next src fall t => exact stays_stampEdge hptp h22 hmel s (of_decide_eq_true hw) fall t
  next v t => exact (stays_done s _).2 (State.still_timeSet hptp h22 hmel _ _)
  next m t =>
    show Stays F s (done ((s.at t).nowRead.2.emit (.readData m (s.at t).nowRead.1)))
    exact (stays_done s _).2 (by simp [h22])
  next m =>
    show Stays F s (done (s.stampPop.2.emit (.readData m s.stampPop.1)))
    exact (stays_done s _).2 (by simp [hptp, h22])
  next p f room tx t =>
    show Stays F s (execPtpMessageRx p f room tx t s)
    exact .doneIf rfl (State.still_ptpMessage hptp h22 _ _ _ _)
  next t =>
    show Stays F s (execTwoStepEntryTimeout t s)
    unfold execTwoStepEntryTimeout
    dsimp only
    split
    · exact .doneIf rfl (by simp [hptp, h22])
    · exact (stays_done s _).2 rfl
  next p t => exact (stays_pdelay hptp h22 (of_decide_eq_true hw) s).1 t
  next p f tx t => exact (stays_pdelay hptp h22 (of_decide_eq_true hw) s).2.1 f tx t
  next p f t => exact (stays_pdelay hptp h22 (of_decide_eq_true hw) s).2.2 f t
  next p t =>
    show Stays F s (execPdFail p t s)
    unfold execPdFail
    exact .doneIf rfl (by simp [ptp_blocks, hptp, h22])
  next v t => exact (stays_done s _).2 (State.still_slaveCtrl hptp h22 hmel h21 _ _)
  next f t =>
    show Stays F s (execAnnounceRx f t s)
    unfold execAnnounceRx
    dsimp only
    split
    · exact .doneIf rfl (by simp [hptp, h22, hmel, h21])
    · exact (stays_done s _).2 rfl
  next t =>
    show Stays F s (execAnnounceTimeout t s)
    unfold execAnnounceTimeout
    dsimp only
    split
    · exact .doneIf rfl (by simp [hptp, h22, hmel, h21])
    · exact (stays_done s _).2 rfl
  next f t => exact stays_syncRx hptp h22 hmel h21 f t s
  next t =>
    show Stays F s (execDelayReqTx t s)
    unfold execDelayReqTx
    exact .doneIf rfl (by simp [hptp, h22])
  next f t => exact stays_delayRespRx hptp h22 f t s
  next p t =>
    show Stays F s (execSvcLinkUp p t s)
    have hp : p < 2 := of_decide_eq_true hw
    unfold execSvcLinkUp
    exact .doneIf rfl (by simp [ptp_blocks, svcPort_blocks p hp, hptp, h22, hmel, h21])
  next p t =>
    show Stays F s (execSvcLinkDown p t s)
    exact .doneIf rfl (State.still_svcDown hptp h22 hmel h21 _ (of_decide_eq_true hw))
  next t =>
    show Stays F s (execSlaveFaultRecover t s)
    unfold execSlaveFaultRecover
    exact .doneIf rfl (State.still_slaveListen hptp h22 hmel h21 _ _)
  next v t => exact (stays_done s _).2 (State.still_cdCommit hptp h22 _ _)
  next => contradiction

/-- Settles O47: each command is a walk through operations that leave the block's other parts alone. -/
theorem frameOfTimeAndClockCommands : Obligations.frame_of_time_and_clock_commands := by
  refine ⟨fun c s u hn hc hwf he => ?_, fun c s u hc hwf he => ?_, fun c s u hn hc _ he => ?_⟩
  · exact State.framed_of_still (F := { blocks := [21, 23], mel := true, clk := true })
      (stays_melierCommand rfl (by decide) rfl (by decide) rfl hc hwf hn u he)
  · exact State.framed_of_still (F := { blocks := [21, 22], ptp := true, mel := true })
      (stays_ptpCommand rfl (by decide) rfl (by decide) hc hwf s u he)
  · exact State.framed_of_still (F := { blocks := [23], clk := true }) (stays_clockCommand rfl (by decide) rfl hc hn u he)

end Sys2Proof.Machine
end

section
/-! SUPPORT. Frames of service frames, of DRAM, power, ledger, loader and security commands (O48): what their operations leave alone. -/
namespace Sys2Proof.Machine

variable {F : Foot}

/-! ## DRAM -/

theorem dmc_blocks : DMC.STAT / 65536 = 18 ∧ DMC.CTRL / 65536 = 18 ∧ DMC.CE_CNT / 65536 = 18 ∧ DMC.UE_CNT / 65536 = 18 ∧
    DMC.TAG_CE_CNT / 65536 = 18 ∧ DMC.MISDIR_CNT / 65536 = 18 ∧ DMC.UE_ADDR_LO / 65536 = 18 ∧ DMC.UE_ADDR_HI / 65536 = 18 ∧
    DMC.RH_LAST / 65536 = 18 ∧ DMC.RH_CNT / 65536 = 18 ∧ DMC.CAPAR_CNT / 65536 = 18 ∧ DMC.CHSTAT / 65536 = 18 := by decide

/-- Where no request waits, the banks have nothing to serve. -/
theorem State.serveQueue_of_idle {s : State} (h : s.dram.queue = []) : s.serveQueue = s := by
  unfold State.serveQueue
  rw [h]
  split <;> rfl

section
variable (hdram : F.dram = true)
include hdram

@[simp] theorem State.still_bufferCmd (s : State) (c : DramCmd) : (s.bufferCmd c).still F = s.still F := State.still_setDram hdram _

@[simp] theorem State.still_refreshMgmt (s : State) (b : Nat) : (s.refreshMgmt b).still F = s.still F := by
  simp [State.refreshMgmt, hdram]

@[simp] theorem State.still_manageFirst (s : State) (b r : Nat) : (s.manageFirst b r).still F = s.still F := by
  simp [State.manageFirst, hdram]

@[simp] theorem State.still_openRow (s : State) (r b row hint : Nat) : (s.openRow r b row hint).still F = s.still F := State.still_setDram hdram _

@[simp] theorem State.still_touch (s : State) (r a hint : Nat) : (s.touch r a hint).still F = s.still F := by
  simp [State.touch, State.touchRow, hdram]

@[simp] theorem State.still_refreshBanks (s : State) (b : Nat) : (s.refreshBanks b).still F = s.still F := by
  simp [State.refreshBanks, hdram]

@[simp] theorem State.still_replayCmd (s : State) (c : DramCmd) : (s.replayCmd c).still F = s.still F := by
  unfold State.replayCmd
  split <;> simp [hdram]

@[simp] theorem State.still_parityReplay (s : State) (ch sc n : Nat) : (s.parityReplay ch sc n).still F = s.still F := by
  unfold State.parityReplay
  exact (State.still_each _ _ fun t c => State.still_replayCmd hdram t c).trans (State.still_setDram hdram _)

variable (h18 : 18 ∈ F.blocks)
include h18

@[simp] theorem State.still_latchUE (s : State) (a r half : Nat) (m : Bool) : (s.latchUE a r half m).still F = s.still F := by
  simp [State.latchUE, dmc_blocks, hdram, h18]

@[simp] theorem State.still_misdirect (s : State) (a r : Nat) : (s.misdirect a r).still F = s.still F := by
  simp [State.misdirect, dmc_blocks, hdram, h18]

@[simp] theorem State.still_correctTag (s : State) (a : Nat) : (s.correctTag a).still F = s.still F := by
  simp [State.correctTag, State.renewTags, State.setTags, dmc_blocks, hdram, h18]

@[simp] theorem State.still_checkHalf (s : State) (a r half : Nat) : (s.checkHalf a r half).2.still F = s.still F := by
  unfold State.checkHalf
  dsimp only
  split
  · rfl
  · simp [dmc_blocks, hdram, h18]
  · dsimp only
    split <;> simp [State.setErrs, dmc_blocks, hdram, h18]

@[simp] theorem State.still_checkBurst (s : State) (a r : Nat) : (s.checkBurst a r).2.still F = s.still F := by
  unfold State.checkBurst
  split
  · rfl
  · split
    · exact State.still_misdirect hdram h18 _ _ _
    · simp [hdram, h18]

@[simp] theorem State.still_dramReadHint (s : State) (r a n hint : Nat) : (s.dramReadHint r a n hint).2.2.still F = s.still F := by
  refine still_foldl_get (α := Nat) (Prod.snd : List Nat × State → State) (List.range _) ([], s) fun p k _ => ?_
  exact (State.still_checkBurst hdram h18 _ _ _).trans (State.still_touch hdram _ _ _ _)

end

theorem State.still_rhCross (hdram : F.dram = true) (h18 : 18 ∈ F.blocks) (s : State) (b : Nat) : (s.rhCross b).still F = s.still F := by
  unfold State.rhCross
  dsimp only
  split
  · simp [dmc_blocks, hdram, h18]
  · split <;> simp [dmc_blocks, hdram, h18]

theorem State.still_dramEnable (h18 : 18 ∈ F.blocks) {s : State} (hq : s.dram.queue = []) (v : Nat) : (s.dramEnable v).still F = s.still F := by
  have hon : (s.setFlag DMC.CTRL_EN true).serveQueue = s.setFlag DMC.CTRL_EN true := State.serveQueue_of_idle hq
  simp [State.dramEnable, hon, dmc_blocks, h18]

theorem stays_caParityError (hdram : F.dram = true) (h18 : 18 ∈ F.blocks) (s : State) (ch sc n : Nat) (again : Bool) (t : Nat) :
    Stays F s (execCaParityError ch sc n again t s) := by
  unfold execCaParityError
  refine .doneIf rfl ?_
  extract_lets k m d u
  have hu : u.still F = (s.at t).still F := by simp [u, dmc_blocks, hdram, h18]
  clear_value u
  split
  · simp [dmc_blocks, hdram, h18, hu]
  · exact (State.still_parityReplay hdram _ _ _ _).trans hu

theorem stays_dramCommand (hdram : F.dram = true) (h18 : 18 ∈ F.blocks) (hmtx : F.mtx = false) {c : Instr} (h : dramCommand c = true) {s : State}
    (hn : s.noneWait) (hq : s.dram.queue = []) : Stays F s (exec c s) := by
  unfold dramCommand at h
  split at h
  next v => exact (stays_done s _).2 (still_retryOut hn hmtx (State.still_dramEnable h18 hq _))
  next b t =>
    show Stays F s (execDramRefresh b t s)
    unfold execDramRefresh
    exact .doneIf rfl (by simp [hdram])
  next t =>
    show Stays F s (done (s.at t).ageQueue.serveQueue.retryOut)
    have hage : (s.at t).ageQueue.dram.queue = [] := by
      show s.dram.queue.map _ = []
      rw [hq]
      rfl
    rw [State.serveQueue_of_idle hage]
    exact (stays_done s _).2 (still_retryOut hn hmtx (State.still_setDram hdram _))
  next b t =>
    show Stays F s (execRowCloseTimer b t s)
    unfold execRowCloseTimer
    dsimp only
    split
    · exact .doneIf rfl (State.still_setDram hdram _)
    · exact (stays_done s _).2 rfl
  next b =>
    show Stays F s (execRowHammerThreshold b s)
    unfold execRowHammerThreshold
    exact .doneIf rfl (State.still_rhCross hdram h18 _ _)
  next t =>
    have hidle : ((s.at t).setDram { s.dram with acts := [], crossed := [], throttle := [] }).serveQueue = _ := State.serveQueue_of_idle hq
    exact (stays_done s _).2 ((congrArg (State.still F) hidle).trans (State.still_setDram hdram _))
  next t =>
    show Stays F s (execPatrolScrub t s)
    unfold execPatrolScrub
    refine .doneIf rfl ?_
    simp [hdram, h18]
  next ch sc n again t => exact stays_caParityError hdram h18 s ch sc n again t
  next => contradiction

/-! ## Power -/

theorem pwr_blocks : PWR.STAT / 65536 = 24 ∧ PWR.STATUS / 65536 = 24 ∧ PWR.CTRL / 65536 = 24 ∧ PWR.VETO / 65536 = 24 ∧ PWR.RET_BAD / 65536 = 24 := by
  decide

theorem vote_blocks : ∀ d, d < 17 → PWR.VOTE d / 65536 = 24 := by decide

section
variable (h24 : 24 ∈ F.blocks)
include h24

@[simp] theorem State.still_voteWrite (s : State) {d : Nat} (hd : d < 17) (m v : Nat) : (s.voteWrite d m v).still F = s.still F := by
  simp [State.voteWrite, vote_blocks d hd, h24]

@[simp] theorem State.still_pwrCtrl (s : State) (v : Nat) : (s.pwrCtrl v).still F = s.still F := by
  simp [State.pwrCtrl, State.setPowerState, pwr_blocks, h24]

variable (hpwr : F.pwr = true) (h23 : 23 ∈ F.blocks)
include hpwr h23

@[simp] theorem State.still_beginStep (s : State) (k : Nat) : (s.beginStep k).still F = s.still F := by
  unfold State.beginStep
  extract_lets n a p u
  have hu : u.still F = s.still F := by simp [u, pwr_blocks, hpwr, h24]
  clear_value u
  split
  · split <;> simp [h23, hu]
  · refine (State.still_each_mem _ _ fun t j hj => ?_).trans hu
    have hj : j < 4 := List.mem_range.1 hj
    simp [ckgDomain_blocks j hj, h23]
  · split <;> simp [pwr_blocks, h24, hu]
  · exact hu

@[simp] theorem State.still_wakeStart (halert : F.alertDirect = true) (s : State) (cause : Nat) : (s.wakeStart cause).still F = s.still F := by
  have halert' : ∀ v : State, ({ v with alertDirect := false } : State).still F = v.still F := fun v => State.still_alertDirect halert false
  unfold State.wakeStart
  dsimp only
  refine (State.still_beginStep h24 hpwr h23 _ _).trans ?_
  simp only [State.setPowerState]
  refine (State.still_flds (by simp [pwr_blocks, h24])).1 _ |>.trans ((State.still_flds (by simp [pwr_blocks, h24])).1 _ |>.trans ?_)
  exact (halert' _).trans (State.still_setPwr hpwr _)

theorem stays_powerCommand (halert : F.alertDirect = true) {c : Instr} (h : powerCommand c = true) (s : State) : Stays F s (exec c s) := by
  unfold powerCommand at h
  split at h
  next d m v t =>
    show Stays F s (execVoteWrite d m v t s)
    unfold execVoteWrite
    exact .doneIf_of rfl fun hd => State.still_voteWrite h24 _ (of_decide_eq_true hd) _ _
  next v t =>
    show Stays F s (execDeepEntryRequest v t s)
    exact .doneIf rfl (State.still_pwrCtrl h24 _ _)
  next d t =>
    show Stays F s (execThermalVoteRelease d t s)
    unfold execThermalVoteRelease
    dsimp only
    split
    · exact .doneIf rfl (State.still_setPwr hpwr _)
    · exact (stays_done s _).2 rfl
  next t =>
    show Stays F s (execPowerUpRetry t s)
    unfold execPowerUpRetry
    dsimp only
    split
    · exact .doneIf rfl (State.still_beginStep h24 hpwr h23 _ _)
    · exact (stays_done s _).2 rfl
  next v t => exact (stays_done s _).2 ((State.still_regs (by simp [pwr_blocks, h24])).1 _)
  next t =>
    show Stays F s (execWakeEdge t s)
    unfold execWakeEdge
    refine .doneIf rfl ?_
    split <;> simp [hpwr, h23, h24, halert]
  next => contradiction

end

/-! ## Ledger and junction sensors -/

theorem led_blocks : LED.STAT / 65536 = 25 ∧ LED.STATUS / 65536 = 25 ∧ LED.CTRL / 65536 = 25 ∧ LED.DEFICIT_CNT / 65536 = 25 := by decide

theorem rail_blocks : ∀ r, r < 13 → LED.RAIL_CORR r / 65536 = 25 := by decide

theorem thm_blocks : THM.STAT / 65536 = 26 ∧ THM.STEP / 65536 = 26 ∧ THM.MAXT / 65536 = 26 ∧ THM.BROKEN / 65536 = 26 := by decide

theorem sensor_blocks : ∀ k, k < 28 → THM.SENS k / 65536 = 26 := by decide

theorem State.sensorPresent_lt {s : State} {k : Nat} (h : s.sensorPresent k = true) : k < 28 :=
  of_decide_eq_true (Bool.and_eq_true_iff.1 h).1

section
variable (hthm : F.thm = true)
include hthm

@[simp] theorem State.still_setSensor (s : State) (k : Nat) (x : Sensor) : (s.setSensor k x).still F = s.still F := State.still_thm hthm _

@[simp] theorem State.still_noteReading (s : State) (k : Nat) (v : Int) : (s.noteReading k v).still F = s.still F := by
  unfold State.noteReading
  refine (State.still_each _ _ fun t j => ?_).trans (State.still_setSensor hthm _ _ _)
  dsimp only
  split
  · exact State.still_setSensor hthm _ _ _
  · rfl

variable (h26 : 26 ∈ F.blocks)
include h26

omit hthm in
@[simp] theorem State.still_noteMax (s : State) : s.noteMax.still F = s.still F := by
  unfold State.noteMax
  dsimp only
  split
  · rfl
  · simp [thm_blocks, h26]

omit hthm in
@[simp] theorem State.still_setBroken (s : State) {k : Nat} (hk : k < 28) (why : Nat) : (s.setBroken k why).still F = s.still F := by
  simp [State.setBroken, thm_blocks, sensor_blocks k hk, h26]

theorem stays_sensorConversion (n : Nat) (v : Int) (t : Nat) (s : State) : Stays F s (execSensorConversion n v t s) := by
  unfold execSensorConversion
  refine .doneIf_of rfl fun hc => ?_
  have hn : n < 28 := State.sensorPresent_lt (Bool.and_eq_true_iff.1 hc).1
  simp [sensor_blocks n hn, hn, hthm, h26]

theorem stays_sensorSilent (n t : Nat) (s : State) : Stays F s (execSensorSilent n t s) := by
  unfold execSensorSilent
  refine .doneIf_of rfl fun hc => ?_
  have hn : n < 28 := State.sensorPresent_lt (Bool.and_eq_true_iff.1 (Bool.and_eq_true_iff.1 hc).1).1
  simp [hn, hthm, h26]

omit hthm in
theorem stays_thermalTick (h25 : 25 ∈ F.blocks) (t : Nat) (s : State) : Stays F s (execThermalTick t s) := by
  unfold execThermalTick
  exact .doneIf rfl (by simp [thm_blocks, led_blocks, h26, h25])

end

section
variable (hdram : F.dram = true) (h18 : 18 ∈ F.blocks) (hmtx : F.mtx = true) (h27 : 27 ∈ F.blocks) (h30 : 30 ∈ F.blocks) (hled : F.led = true)
  (h25 : 25 ∈ F.blocks)

include hdram h18 hmtx h27 h30 in
@[simp] theorem State.still_ledgerTouch (s : State) (a n : Nat) : (s.ledgerTouch a n).still F = s.still F := by
  have hf : (s.fresh 4).2.still F = s.still F := by simp
  unfold State.ledgerTouch
  dsimp only
  split
  · exact (State.still_dramReadHint hdram h18 _ _ _ _ _).trans hf
  · split
    · exact hf
    · exact (State.still_errorTo hmtx h27 h30 _ _ _ _).trans hf

include hdram h18 hmtx h27 h30 hled h25 in
theorem stays_ledgerPlan (t : Nat) (s : State) : Stays F s (execLedgerPlan t s) := by
  have hread : ∀ v : State, v.readCoefs.still F = v.still F := fun v =>
    State.still_each v _ fun t e => State.still_ledgerTouch hdram h18 hmtx h27 h30 t _ _
  unfold execLedgerPlan
  dsimp only
  split
  · refine .doneIf rfl ?_
    generalize (s.at t).planFor _ _ = p
    split <;> simp [hread, led_blocks, hled, h25]
  · exact (stays_done s _).2 rfl

include hled in
@[simp] theorem State.still_setRail (s : State) (r : Nat) (x : RailMeter) : (s.setRail r x).still F = s.still F := State.still_setLed hled _

include hled h25 in
theorem stays_correctionUpdate (r t : Nat) (s : State) : Stays F s (execCorrectionUpdate r t s) := by
  unfold execCorrectionUpdate
  refine .doneIf_of rfl fun hc => ?_
  have hr : r < 13 := of_decide_eq_true (Bool.and_eq_true_iff.1 hc).1
  have hfac : ∀ x, ((s.at t).factorOf x).2.still F = (s.at t).still F := fun x => by
    unfold State.factorOf
    dsimp only
    split <;> simp
  dsimp only
  split
  · simp [hled]
  · simp [rail_blocks r hr, hfac, hled, h25]

include hled h25 in
@[simp] theorem State.still_ledCtrl (s : State) (v : Nat) : (s.ledCtrl v).still F = s.still F := by
  simp [State.ledCtrl, led_blocks, hled, h25]

include hdram h18 hmtx h27 h30 hled h25 in
theorem stays_ledgerCommand (hthm : F.thm = true) (h26 : 26 ∈ F.blocks) {c : Instr} (h : ledgerCommand c = true) (s : State) :
    Stays F s (exec c s) := by
  unfold ledgerCommand at h
  split at h
  next r raw valid t =>
    show Stays F s (execPmbusRead r raw valid t s)
    unfold execPmbusRead
    refine .doneIf rfl ?_
    dsimp only
    split <;> simp [hled]
  next r t => exact stays_correctionUpdate hled h25 r t s
  next r t =>
    show Stays F s (execPmbLost r t s)
    unfold execPmbLost
    exact .doneIf rfl (by simp [led_blocks, hled, h25])
  next v t =>
    show Stays F s (execMeterRequest v t s)
    exact .doneIf rfl (State.still_ledCtrl hled h25 _ _)
  next t => exact stays_ledgerPlan hdram h18 hmtx h27 h30 hled h25 t s
  next n v t => exact stays_sensorConversion hthm h26 n v t s
  next n t => exact stays_sensorSilent hthm h26 n t s
  next t => exact stays_thermalTick h26 h25 t s
  next => contradiction

end

/-! ## Loader and security -/

theorem cfg_blocks : CFG.STAT / 65536 = 1 ∧ CFG.STATUS / 65536 = 1 ∧ CFG.CAST / 65536 = 1 ∧ CFG.CAST_PROG / 65536 = 1 ∧ CFG.PART / 65536 = 1 := by
  decide

theorem sec_blocks : SEC.STAT / 65536 = 2 ∧ SEC.VIOL / 65536 = 2 ∧ SEC.POLICY / 65536 = 2 := by decide

section
variable (hsec : F.sec = true) (h2 : 2 ∈ F.blocks)
include hsec

@[simp] theorem State.still_alarmPin (s : State) : s.alarmPin.still F = s.still F := by
  simp [State.alarmPin, hsec]

include h2

@[simp] theorem State.still_policyWrite (s : State) (v : Nat) : (s.policyWrite v).still F = s.still F := by
  simp [State.policyWrite, sec_blocks, hsec, h2]

variable (hcfg : F.cfg = true) (h1 : 1 ∈ F.blocks)
include hcfg h1

omit hsec h2 in
@[simp] theorem State.still_castCtrl (s : State) (v : Nat) : (s.castCtrl v).still F = s.still F := by
  simp [State.castCtrl, cfg_blocks, hcfg, h1]

theorem stays_configCommand {c : Instr} (h : configCommand c = true) (s : State) : Stays F s (exec c s) := by
  unfold configCommand at h
  split at h
  next v t =>
    show Stays F s (execBootLockClose v t s)
    unfold execBootLockClose
    exact .doneIf rfl (by simp [State.bootLock, cfg_blocks, h1])
  next t =>
    show Stays F s (execStallReloadFail t s)
    unfold execStallReloadFail
    dsimp only
    split
    · exact .doneIf rfl (by simp [State.showPart, State.setChange, cfg_blocks, hcfg, h1])
    · exact (stays_done s _).2 rfl
  next v t => exact (stays_done s _).2 (State.still_castCtrl hcfg h1 _ _)
  next v t => exact (stays_done s _).2 (State.still_policyWrite hsec h2 _ _)
  next n t =>
    exact (stays_done s _).2 ((State.still_alarmPin hsec _).trans (State.still_foldl _ _ fun v k => by simp [sec_blocks, h2]))
  next => contradiction

end

/-! ## Frames of the device's own -/

theorem ais_blocks : AIS.STAT / 65536 = 14 ∧ AIS.LONG_CNT / 65536 = 14 ∧ AIS.CANC_CNT / 65536 = 14 := by decide

section
variable (haisle : F.aisle = true) (h14 : 14 ∈ F.blocks)
include haisle h14

@[simp] theorem State.still_formGroup (s : State) (b h : Nat) : (s.formGroup b h).still F = s.still F := by
  simp [State.formGroup, ais_blocks, haisle, h14]

@[simp] theorem State.still_formRest (s : State) : s.formRest.still F = s.still F := by
  refine State.still_each _ _ fun t b => ?_
  split
  · refine State.still_foldl _ _ fun v h => ?_
    split
    · rfl
    · exact State.still_formGroup haisle h14 _ _ _
  · rfl

variable (hptp : F.ptp = true) (h22 : 22 ∈ F.blocks)
include hptp h22

omit haisle h14 in
@[simp] theorem State.still_sendPartials (s : State) (f w : Nat) : (s.sendPartials f w).still F = s.still F := by
  refine State.still_each _ _ fun t q => ?_
  simp [hptp, h22]

theorem stays_serviceCommand (hcrown : F.crown = true) (hcfg : F.cfg = true) (h1 : 1 ∈ F.blocks) {c : Instr} (h : serviceCommand c = true)
    (hw : c.wf = true) (s : State) : Stays F s (exec c s) := by
  unfold serviceCommand at h
  split at h
  next t =>
    show Stays F s (execCrownPartialTx t s)
    unfold execCrownPartialTx
    dsimp only
    split
    · exact .doneIf rfl (by simp [haisle, h14, hptp, h22, hcrown])
    · exact (stays_done s _).2 rfl
  next t =>
    show Stays F s (execCastFrameTx t s)
    unfold execCastFrameTx
    dsimp only
    split
    · refine .doneIf rfl ?_
      split <;> simp [cfg_blocks, hptp, h22, hcfg, h1]
    · exact (stays_done s _).2 rfl
  next p t =>
    show Stays F s (execEsmcPduTx p t s)
    have hp : p < 2 := of_decide_eq_true hw
    have hq : ((s.at t).esmcQl p).2.still F = (s.at t).still F := by
      unfold State.esmcQl
      dsimp only
      split
      · rfl
      · split
        · rfl
        · split <;> simp
    unfold execEsmcPduTx
    exact .doneIf rfl (by simp [hp, hq, hptp, h22])
  next => contradiction

end

/-- Settles O48: each command is a walk through operations that leave the block's other parts alone. -/
theorem frameOfControlCommands : Obligations.frame_of_control_commands := by
  refine ⟨fun c s u hc hwf he => ?_, fun c s u hn hq hc he => ?_, fun c s u hc _ he => ?_, fun c s u hc _ he => ?_, fun c s u hc he => ?_,
    fun c s u hc he => ?_⟩
  · exact State.framed_of_still (F := { blocks := [1, 14, 15, 22], cfg := true, aisle := true, crown := true, ptp := true })
      (stays_serviceCommand rfl (by decide) rfl (by decide) rfl rfl (by decide) hc hwf s u he)
  · exact State.framed_of_still (F := { blocks := [18], dram := true }) (stays_dramCommand rfl (by decide) rfl hc hn hq u he)
  · exact State.framed_of_still (F := { blocks := [23, 24], pwr := true, alertDirect := true })
      (stays_powerCommand (by decide) rfl (by decide) rfl hc s u he)
  · exact State.framed_of_still (F := { blocks := [18, 25, 26, 27, 30], led := true, thm := true, dram := true, mtx := true })
      (stays_ledgerCommand rfl (by decide) rfl (by decide) (by decide) rfl (by decide) rfl (by decide) hc s u he)
  · exact State.framed_of_still (F := { blocks := [1, 2], cfg := true, sec := true })
      (stays_configCommand rfl (by decide) rfl (by decide) hc s u he)
  · exact State.framed_of_still (F := { blocks := [27, 30], mtx := true, msixMask := true })
      (stays_matrixCommand rfl (by decide) (by decide) rfl hc s u he)

end Sys2Proof.Machine
end

section
/-! SUPPORT. What the work of a bell and of a stop leaves in place (R25, R26, R132): the registers of the bell engine and PIT.CTRL that
were stored, the park that waits, and what has left the device. -/
namespace Sys2Proof.Machine

/-! ## Stored registers -/

/-- The registers of the bell engine that a bell shows, and PIT.CTRL. -/
def keyRegs : List Nat := [BEL.CTRL, BEL.STATUS, BEL.BELL_LO, BEL.BELL_HI, PIT.CTRL]

theorem not_key {r : Nat} (h : 0x40000 ≤ r) : r ∉ keyRegs := by
  have hall : ∀ x ∈ keyRegs, x < 0x40000 := by decide
  exact fun hr => absurd (hall r hr) (Nat.not_lt.2 h)

theorem not_key_add {b : Nat} (k : Nat) (h : 0x40000 ≤ b) : b + k ∉ keyRegs := not_key (Nat.le_trans h (Nat.le_add_right b k))

theorem Store.get?_put_ne {α : Type} {l : Store α} {k x : Nat} (v : α) (h : x ≠ k) : Store.get? (Store.put l k v) x = Store.get? l x := by
  rw [Store.get?_put, if_neg h]

/-- A filter that drops no entry of key x keeps the entry found for x. -/
theorem Store.get?_filter_some {α : Type} {l : Store α} {p : Nat × α → Bool} {x : Nat} {v : α} (hp : ∀ w, p (x, w) = true)
    (h : Store.get? l x = some v) : Store.get? (l.filter p) x = some v := by
  induction l with
  | nil => exact h
  | cons c l ih =>
    obtain ⟨a, w⟩ := c
    unfold Store.get? at h
    split at h
    · next heq =>
      subst heq
      rw [List.filter_cons_of_pos (hp w), Store.get?, if_pos rfl, h]
    · next hne =>
      split at h
      · contradiction
      · next hlt =>
        by_cases hpa : p (a, w) = true
        · rw [List.filter_cons_of_pos hpa, Store.get?, if_neg hne, if_neg hlt]
          exact ih h
        · rw [List.filter_cons_of_neg hpa]
          exact ih h

theorem get?_pmcBump (part : Part) (serial : Nat) (regs : Store Word) (c k : Nat) {x : Nat} (h : x < 0x40000) :
    Store.get? (pmcBump part serial regs c k) x = Store.get? regs x := by
  unfold pmcBump
  have h1 : x ≠ 0x1D1000 + 4 * c := by omega
  have h2 : x ≠ 0x1D0100 + 4 * (c / 8) := by omega
  dsimp only
  split
  · exact Store.get?_put_ne _ h1
  · exact (Store.get?_put_ne _ h2).trans (Store.get?_put_ne _ h1)

theorem get?_pmcCount (part : Part) (serial : Nat) (regs : Store Word) (b code k : Nat) {x : Nat} (h : x < 0x40000) :
    Store.get? (pmcCount part serial regs b code k) x = Store.get? regs x :=
  foldl_proj (fun l => Store.get? l x) (fun l c => get?_pmcBump part serial l c k h) _ _

theorem key_lt {x : Nat} (h : x ∈ keyRegs) : x < 0x40000 := by
  have hall : ∀ x ∈ keyRegs, x < 0x40000 := by decide
  exact hall x h

/-! ## Folds -/

/-- What holds at the start of a fold and at each of its steps holds at its end. -/
theorem foldl_of {α β : Type} {P : β → Prop} {b : β} (l : List α) {f : β → α → β} (h : P b) (hf : ∀ b a, P b → P (f b a)) : P (l.foldl f b) := by
  induction l generalizing b with
  | nil => exact h
  | cons a l ih => exact ih (hf b a h)

/-! ## The relation -/

/-- What s stored in the registers that count, its waiting park and what had left it are still there in t. -/
structure Calm (s t : State) : Prop where
  reg : ∀ x ∈ keyRegs, ∀ v, Store.get? s.regs x = some v → Store.get? t.regs x = some v
  park : t.can.parkAt = s.can.parkAt
  out : ∀ o ∈ s.sent, o ∈ t.sent

theorem Calm.refl (s : State) : Calm s s := ⟨fun _ _ _ h => h, rfl, fun _ h => h⟩

theorem Calm.trans {s t u : State} (h : Calm s t) (h' : Calm t u) : Calm s u :=
  ⟨fun x hx v hv => h'.reg x hx v (h.reg x hx v hv), h'.park.trans h.park, fun o ho => h'.out o (h.out o ho)⟩

section
variable {s t : State}

/-- An update that leaves registers, the park and what left alone. -/
theorem Calm.step {u : State} (h : Calm s t) (hr : u.regs = t.regs) (hp : u.can.parkAt = t.can.parkAt) (ho : u.sent = t.sent) : Calm s u :=
  ⟨fun x hx v hv => hr ▸ h.reg x hx v hv, hp.trans h.park, fun o hs => ho ▸ h.out o hs⟩

theorem Calm.ite_iff {c : Prop} {_ : Decidable c} {a b : State} : Calm s (if c then a else b) ↔ (c → Calm s a) ∧ (¬c → Calm s b) := by
  by_cases h : c <;> simp [h]

theorem Calm.setReg (h : Calm s t) {r : Reg} (hr : r ∉ keyRegs) (v : Word) : Calm s (t.setReg r v) := by
  refine ⟨fun x hx w hw => ?_, h.park, h.out⟩
  show Store.get? (Store.put t.regs r v) x = some w
  rw [Store.get?_put_ne _ (by rintro rfl; exact hr hx)]
  exact h.reg x hx w hw

theorem Calm.setRegN (h : Calm s t) {r : Reg} (hr : r ∉ keyRegs) (n : Nat) : Calm s (t.setRegN r n) := h.setReg hr _
theorem Calm.bump (h : Calm s t) {r : Reg} (hr : r ∉ keyRegs) (n : Nat) : Calm s (t.bump r n) := h.setReg hr _
theorem Calm.setFld (h : Calm s t) {f : Fld} (hr : f.reg ∉ keyRegs) (n : Nat) : Calm s (t.setFld f n) := h.setReg hr _
theorem Calm.setFlag (h : Calm s t) {f : Fld} (hr : f.reg ∉ keyRegs) (b : Bool) : Calm s (t.setFlag f b) := h.setReg hr _
theorem Calm.setPair (h : Calm s t) {lo hi : Reg} (hlo : lo ∉ keyRegs) (hhi : hi ∉ keyRegs) (n : Nat) : Calm s (t.setPair lo hi n) :=
  (h.setRegN hlo _).setRegN hhi _

theorem sent_edgesOf (regs : Store Word) (src : Nat) {o : Out} (ho : o ∈ t.sent) : o ∈ (t.edgesOf regs src).sent := by
  unfold State.edgesOf
  have hstart : o ∈ t.edges.sent := ho
  generalize t.edges = e at hstart
  induction routesOf regs src generalizing e with
  | nil => exact hstart
  | cons d l ih =>
    refine ih _ ?_
    unfold Edges.deliver
    split
    · split
      · exact hstart
      · exact List.mem_cons_of_mem _ hstart
    · split
      · exact hstart
      · split <;> exact hstart

theorem Calm.pulse (h : Calm s t) (src : Nat) : Calm s (t.pulse src) :=
  ⟨h.reg, h.park, fun o ho => sent_edgesOf _ _ (h.out o ho)⟩

theorem Calm.raise (h : Calm s t) {f : Fld} (hr : f.reg ∉ keyRegs) : Calm s (t.raise f) := by
  refine ⟨fun x hx w hw => ?_, h.park, fun o ho => ?_⟩
  · show Store.get? (pmcCount _ _ (Store.put t.regs f.reg _) _ _ 1) x = some w
    rw [get?_pmcCount _ _ _ _ _ _ (key_lt hx), Store.get?_put_ne _ (by rintro rfl; exact hr hx)]
    exact h.reg x hx w hw
  · unfold State.raise State.withLine
    dsimp only
    split
    · exact sent_edgesOf _ _ (h.out o ho)
    · exact h.out o ho

theorem Calm.raiseIf (h : Calm s t) (c : Bool) {f : Fld} (hr : f.reg ∉ keyRegs) : Calm s (t.raiseIf c f) := by
  cases c
  · exact h
  · exact h.raise hr

theorem Calm.emit (h : Calm s t) (o : Out) : Calm s (t.emit o) := ⟨h.reg, h.park, fun x hx => List.mem_cons_of_mem _ (h.out x hx)⟩

theorem Calm.each {α : Type} (h : Calm s t) (l : List α) {f : State → α → State} (hf : ∀ u, ∀ x ∈ l, Calm s u → Calm s (f u x)) :
    Calm s (t.each l f) := State.each_of h l hf

theorem Calm.when (h : Calm s t) (c : Bool) {f : State → State} (hf : Calm s t → Calm s (f t)) : Calm s (t.when c f) := by
  cases c
  · exact h
  · exact hf h

/-! Updates of one engine's state, of memory and of the free counter. -/

theorem Calm.setBell (h : Calm s t) (x : BellEng) : Calm s (t.setBell x) := h.step rfl rfl rfl
theorem Calm.setDram (h : Calm s t) (x : Dram) : Calm s (t.setDram x) := h.step rfl rfl rfl
theorem Calm.setOuts (h : Calm s t) (x : Outs) : Calm s (t.setOuts x) := h.step rfl rfl rfl
theorem Calm.setCorr (h : Calm s t) (x : Corr) : Calm s (t.setCorr x) := h.step rfl rfl rfl
theorem Calm.setAisle (h : Calm s t) (x : Aisle) : Calm s (t.setAisle x) := h.step rfl rfl rfl
theorem Calm.setCrown (h : Calm s t) (x : Crown) : Calm s (t.setCrown x) := h.step rfl rfl rfl
theorem Calm.setCal (h : Calm s t) (x : CalEng) : Calm s (t.setCal x) := h.step rfl rfl rfl
theorem Calm.setMel (h : Calm s t) (x : MelEng) : Calm s (t.setMel x) := h.step rfl rfl rfl
theorem Calm.setPtp (h : Calm s t) (x : PtpEng) : Calm s (t.setPtp x) := h.step rfl rfl rfl
theorem Calm.setPwr (h : Calm s t) (x : Power) : Calm s (t.setPwr x) := h.step rfl rfl rfl
theorem Calm.setLed (h : Calm s t) (x : Ledger) : Calm s (t.setLed x) := h.step rfl rfl rfl
theorem Calm.setCfg (h : Calm s t) (x : Loader) : Calm s (t.setCfg x) := h.step rfl rfl rfl
theorem Calm.setSec (h : Calm s t) (x : SecEng) : Calm s (t.setSec x) := h.step rfl rfl rfl
theorem Calm.setMtx (h : Calm s t) (x : Matrix) : Calm s (t.setMtx x) := h.step rfl rfl rfl
theorem Calm.setRing (h : Calm s t) (x : Ring) : Calm s (t.setRing x) := h.step rfl rfl rfl
theorem Calm.setDie (h : Calm s t) (d : Nat) (x : StallDie) : Calm s (t.setDie d x) := h.step rfl rfl rfl
theorem Calm.setCore (h : Calm s t) (n : Nat) (x : Core) : Calm s (t.setCore n x) := h.step rfl rfl rfl
theorem Calm.setPort (h : Calm s t) (p : Nat) (x : CanPort) : Calm s (t.setPort p x) := h.step rfl rfl rfl
theorem Calm.setLane (h : Calm s t) (n : Nat) (x : IngLane) : Calm s (t.setLane n x) := h.step rfl rfl rfl
theorem Calm.setChange (h : Calm s t) (c : Option Change) : Calm s (t.setChange c) := h.step rfl rfl rfl
theorem Calm.fresh (h : Calm s t) (w : Nat) : Calm s (t.fresh w).2 := h.step rfl rfl rfl
theorem Calm.write (h : Calm s t) (a : Nat) (l : List Byte) : Calm s (t.write a l) := h.step rfl rfl rfl
theorem Calm.clear (h : Calm s t) (a n : Nat) : Calm s (t.clear a n) := h.step rfl rfl rfl

/-! ## Memory -/

theorem Calm.manageFirst (h : Calm s t) (b row : Nat) : Calm s (t.manageFirst b row) := by
  unfold State.manageFirst
  split
  · exact Calm.emit ((h.setDram { t.dram with raa := Store.del t.dram.raa b }).setDram _) _
  · exact h

theorem Calm.touch (h : Calm s t) (r a hint : Nat) : Calm s (t.touch r a hint) := by
  unfold State.touch
  split
  · exact h
  · exact (h.manageFirst _ _).step rfl rfl rfl

theorem Calm.setTags (h : Calm s t) (a : Nat) (p : Nat × Nat) : Calm s (t.setTags a p) := h.step rfl rfl rfl
theorem Calm.setErrs (h : Calm s t) (e : Store Bool) : Calm s (t.setErrs e) := h.step rfl rfl rfl

theorem Calm.latchUE (h : Calm s t) (a r half : Nat) (m : Bool) : Calm s (t.latchUE a r half m) := by
  unfold State.latchUE
  split
  · exact (h.setPair (by decide) (by decide) _).setDram _
  · exact h

theorem Calm.misdirect (h : Calm s t) (a r : Nat) : Calm s (t.misdirect a r) := ((h.bump (by decide) 1).raise (by decide)).latchUE _ _ _ _

theorem Calm.correctTag (h : Calm s t) (a : Nat) : Calm s (t.correctTag a) := by
  have h1 : Calm s ((t.bump DMC.TAG_CE_CNT 1).raise DMC.STAT_TAG_CE) := (h.bump (by decide) 1).raise (by decide)
  unfold State.correctTag
  dsimp only
  split
  · exact h1
  · exact h1.step rfl rfl rfl

theorem Calm.checkHalf (h : Calm s t) (a r half : Nat) : Calm s (t.checkHalf a r half).2 := by
  unfold State.checkHalf
  dsimp only
  split
  · exact h
  · exact ((h.bump (by decide) 1).raise (by decide)).latchUE _ _ _ _
  · have h1 : Calm s ((t.bump DMC.CE_CNT 1).raise DMC.STAT_CE) := (h.bump (by decide) 1).raise (by decide)
    dsimp only
    split
    · exact h1
    · exact h1.setErrs _

theorem Calm.checkBurst (h : Calm s t) (a r : Nat) : Calm s (t.checkBurst a r).2 := by
  have h1 : Calm s (if t.badTags a = 1 then t.correctTag a else t) := Calm.ite_iff.2 ⟨fun _ => h.correctTag a, fun _ => h⟩
  unfold State.checkBurst
  split
  · exact h
  · split
    · exact h.misdirect a r
    · exact (h1.checkHalf a r 0).checkHalf a r 1

theorem Calm.dramReadHint (h : Calm s t) (r a n hint : Nat) : Calm s (t.dramReadHint r a n hint).2.2 := by
  refine foldl_of (P := fun p : List Nat × State => Calm s p.2) (b := ([], t)) (List.range _) h fun p k hp => ?_
  exact (hp.touch r _ hint).checkBurst _ r

theorem Calm.mergeHalf (h : Calm s t) (k be : Nat) (l : List Byte) : Calm s (t.mergeHalf k be l) :=
  State.each_of h _ fun _ _ _ hu => hu.write _ _

theorem Calm.writeHalf (h : Calm s t) (a r half be : Nat) (mis : Bool) (l : List Byte) : Calm s (t.writeHalf a r half be mis l).2 := by
  unfold State.writeHalf
  dsimp only
  split
  · exact h
  · split
    · exact (h.write _ _).setErrs _
    · split
      · exact (((((h.mergeHalf _ _ _).setErrs _).bump (by decide) 1).raise (by decide)).raise (by decide)).latchUE _ _ _ _
      · exact ((h.checkHalf _ _ _).mergeHalf _ _ _).setErrs _

theorem Calm.writeBurst (h : Calm s t) (a r be : Nat) (l : List Byte) : Calm s (t.writeBurst a r be l).2 := by
  unfold State.writeBurst
  dsimp only
  split
  · exact h
  · refine Calm.setTags ?_ _ _
    refine Calm.writeHalf (Calm.writeHalf ?_ _ _ _ _ _ _) _ _ _ _ _ _
    split
    · exact h.misdirect a r
    · split
      · exact h.correctTag a
      · exact h

theorem Calm.dramWriteBe (h : Calm s t) (r a be : Nat) (l : List Byte) (hint : Nat) : Calm s (t.dramWriteBe r a be l hint).2 := by
  refine foldl_of (P := fun p : Bool × State => Calm s p.2) (b := (false, t)) (List.range _) h fun p k hp => ?_
  exact (hp.touch r _ hint).writeBurst _ r _ _

theorem Calm.sramWrite (h : Calm s t) (a be : Nat) (l : List Byte) : Calm s (t.sramWrite a be l) := by
  unfold State.sramWrite
  refine Calm.setDram (foldl_of (P := Calm s) _ h fun p q hp => ?_) _
  split
  · exact hp.write _ _
  · exact hp

/-! ## The fast matrix -/

theorem Calm.setOut (h : Calm s t) (l : List Txn) : Calm s (t.setOut l) := (h.setMtx _).setRegN (by decide) _

theorem Calm.errorTo (h : Calm s t) (m a : Nat) (write : Bool) : Calm s (t.errorTo m a write) := by
  have h1 : Calm s ((t.latchErr m a write).emit (.errResp m a write)) := by
    refine Calm.emit ?_ _
    unfold State.latchErr
    split
    · exact h
    · exact ((h.setMtx _).setRegN (by decide) _).raise (by decide)
  unfold State.errorTo
  dsimp only
  split
  · refine h1.raise ?_
    cases write <;> decide
  · exact h1

theorem Calm.ledgerStore (h : Calm s t) (a : Nat) (l : List Byte) : Calm s (t.ledgerStore a l) := by
  unfold State.ledgerStore
  dsimp only
  split
  · exact (h.fresh 4).dramWriteBe _ _ _ _ _
  · split
    · exact (h.fresh 4).sramWrite _ _ _
    · exact (h.fresh 4).errorTo _ _ _

/-! ## The ledger and the calibration engine -/

theorem Calm.meterEnd (h : Calm s t) : Calm s t.meterEnd := by
  unfold State.meterEnd
  split
  · exact h.raise (by decide)
  · exact (((h.each _ fun _ _ _ hu => hu.ledgerStore _ _).setRegN (by decide) _).setFlag (by decide) _).raise (by decide)

theorem Calm.ledgerClose (h : Calm s t) : Calm s t.ledgerClose := by
  unfold State.ledgerClose
  split
  · exact h
  · refine Calm.setFlag (Calm.setLed ?_ _) (by decide) _
    split
    · exact h.meterEnd
    · exact h

theorem Calm.calAbandon (h : Calm s t) : Calm s t.calAbandon := by
  unfold State.calAbandon
  split
  · exact ((((h.setCal _).setFld (by decide) _).setFlag (by decide) _).setFlag (by decide) _).raise (by decide)
  · exact h

/-! ## Clerk cores -/

theorem Calm.tryHalt (h : Calm s t) (n : Nat) : Calm s (t.tryHalt n) := by
  unfold State.tryHalt State.stopCore
  dsimp only
  split
  · split
    · exact (h.setCore n _).raise (by decide)
    · exact h.setCore n _
  · exact h

theorem Calm.startCore (h : Calm s t) (n : Nat) : Calm s (t.startCore n) := by
  unfold State.startCore
  dsimp only
  split
  · exact h.setCore n _
  · exact h.setCore n _

theorem Calm.haltCores (h : Calm s t) (c : Change) : Calm s (t.haltCores c) := by
  unfold State.haltCores
  refine Calm.setChange (Calm.raise (Calm.setRegN (h.each _ fun u n _ hu => ?_) (by decide) _) (by decide)) _
  dsimp only
  split
  · exact (hu.setCore n _).tryHalt n
  · exact hu.setCore n _

theorem Calm.restartCores (h : Calm s t) (c : Change) : Calm s (t.restartCores c) := by
  unfold State.restartCores
  exact (((h.each _ fun u n _ hu => (hu.setCore n _).startCore n).setRegN (by decide) _).raise (by decide)).setChange _

/-! ## What a domain loses -/

theorem Calm.dropRegs (h : Calm s t) {d : Nat} (hd : 3 ≤ d) : Calm s (t.dropRegs d) := by
  refine ⟨fun x hx v hv => Store.get?_filter_some (fun w => ?_) (h.reg x hx v hv), h.park, h.out⟩
  have hlow : ∀ x ∈ keyRegs, domainOfReg x ≤ 1 := by decide
  exact bne_iff_ne.2 fun e => absurd (hlow x hx) (by simp only at e; omega)

theorem Calm.wipe (h : Calm s t) (a n : Nat) : Calm s (t.wipe a n) := (h.clear a n).setDram _

theorem Calm.lockLost (h : Calm s t) (n : Nat) : Calm s (t.lockLost n) := by
  unfold State.lockLost
  exact ((h.setLane n _).setFlag (not_key_add _ (by decide)) _).raise (by decide)

theorem Calm.routeDrop (h : Calm s t) : Calm s t.routeDrop := by
  have hq : ∀ drop, Calm s (t.dropQueued drop).1 := fun drop => by
    unfold State.dropQueued
    refine foldl_of (P := fun p : State × Nat => Calm s p.1) (b := (t, 0)) _ h fun p q hp => ?_
    dsimp only
    split
    · exact hp
    · refine foldl_of (P := Calm s) _ (hp.step rfl rfl rfl) fun u g hu => ?_
      unfold State.returnCredit
      split
      · exact hu
      · exact hu.setPort _ _
  unfold State.routeDrop
  dsimp only
  split
  · exact hq _
  · exact ((hq _).bump (by decide) _).raise (by decide)

theorem port_notKeys (p : Nat) : CAN.PORT_STATUS p ∉ keyRegs ∧ CAN.PORT_LOST p ∉ keyRegs :=
  ⟨not_key_add _ (by decide), not_key_add _ (by decide)⟩

theorem Calm.portFail (h : Calm s t) (p : Nat) : Calm s (t.portFail p) := by
  unfold State.portFail State.portTo
  refine Calm.routeDrop (Calm.setFld (Calm.raise (Calm.setPort ?_ _ _) (by decide)) (port_notKeys p).1 _)
  split
  · exact h
  · exact h.bump (port_notKeys p).2 _

theorem Calm.mapLanes (h : Calm s t) (p : Nat) (f : Nat → CanLane → CanLane) : Calm s (t.mapLanes p f) := by
  unfold State.mapLanes State.noteLocked
  refine Calm.setFld (f := CAN.PORT_STATUS_LOCKED p) ?_ (port_notKeys p).1 _
  exact h.step rfl rfl rfl

theorem out_notKeys (p : Nat) : OUT.PORT_STATUS p ∉ keyRegs ∧ OUT.PORT_DROP p ∉ keyRegs :=
  ⟨not_key_add _ (by decide), not_key_add _ (by decide)⟩

theorem Calm.deal (h : Calm s t) (p : ProdPkt) : Calm s (t.deal p) := by
  unfold State.deal
  split
  · exact h.setOuts _
  · exact (h.bump (out_notKeys _).2 1).raise (by decide)

theorem Calm.portMoved (h : Calm s t) (p : Nat) (was : Bool) : Calm s (t.portMoved p was) := by
  unfold State.portMoved State.redeal
  split
  · exact ((h.setOuts _).each _ fun _ _ _ hu => hu.deal _).raise (by decide)
  · exact h.raiseIf _ (by decide)

theorem svc_notKeys (p : Nat) : PTP.SVC_FWD p ∉ keyRegs ∧ PTP.SVC_STATUS p ∉ keyRegs :=
  ⟨not_key_add _ (by decide), not_key_add _ (by decide)⟩

theorem Calm.svcLeave {p : Nat} (l : List (List Byte)) (h : Calm s t) : Calm s (t.svcLeave p l) := by
  induction l generalizing t with
  | nil => exact h.step rfl rfl rfl
  | cons f l ih =>
    unfold State.svcLeave
    dsimp only
    split
    · exact ih ((Calm.emit (h.step rfl rfl rfl : Calm s (t.setSvcOut p _)) _).bump (svc_notKeys p).1 1)
    · exact h.step rfl rfl rfl

theorem mel_notKeys : (∀ r, MEL.REF_STATUS r ∉ keyRegs) ∧ MEL.STAT ∉ keyRegs ∧ MEL.STATUS ∉ keyRegs :=
  ⟨fun _ => not_key_add _ (by decide), by decide, by decide⟩

theorem Calm.holdFreq (h : Calm s t) : Calm s t.holdFreq.2 := by
  unfold State.holdFreq
  split
  · unfold State.meanFreq
    dsimp only
    split
    · exact h.fresh 32
    · exact h
  · exact h

theorem Calm.setMelState (h : Calm s t) (st : Nat) : Calm s (t.setMelState st) := Calm.setFld (f := MEL.STATUS_STATE) h (by decide) _

theorem Calm.follow (h : Calm s t) (r : Nat) : Calm s (t.follow r) := (Calm.setFld (f := MEL.STATUS_ACTIVE) h (by decide) _).setFlag (by decide) _

theorem Calm.unlock (h : Calm s t) : Calm s t.unlock := h.holdFreq.setMel _

theorem Calm.holdOver (h : Calm s t) : Calm s t.holdOver := by
  have h1 : Calm s (t.unlock.follow 7) := h.unlock.follow 7
  unfold State.holdOver
  dsimp only
  split
  · exact (((h1.setMel _).setMel _).setMelState 3).raiseIf _ (by decide)
  · exact (h1.setMel _).setMelState 0

theorem Calm.trimPairs (h : Calm s t) : Calm s t.trimPairs := by
  unfold State.trimPairs
  dsimp only
  split
  · exact (h.setMel _).setMelState 2
  · exact h.setMel _

theorem Calm.disqualify (h : Calm s t) (r cause : Nat) : Calm s (t.disqualify r cause) := by
  have hr : ∀ f : Fld, f.reg = MEL.REF_STATUS r → ∀ u n, Calm s u → Calm s (u.setFld f n) := fun f hf u n hu =>
    hu.setFld (hf ▸ mel_notKeys.1 r) n
  unfold State.disqualify
  extract_lets c s1 m s2
  have hc : Calm s c := hr _ rfl _ _ h
  have h1 : Calm s s1 := by
    refine Calm.raise ?_ (by decide)
    have hq : Calm s (c.setFld (MEL.REF_STATUS_QUAL r) 0) := hr _ rfl _ _ hc
    unfold State.onceQualified
    split
    · exact hq
    · exact hq.setMel _
  have h2 : Calm s s2 := by
    unfold s2
    split
    · exact h1.setMel _
    · exact h1
  split
  · exact hc
  · split
    · exact h2.holdOver.trimPairs
    · exact h2.trimPairs

theorem Calm.svcDown (h : Calm s t) (p : Nat) : Calm s (t.svcDown p) := by
  have hdrop : ∀ r u, Calm s u → Calm s (if u.refQual r = 0 then u else u.disqualify r 0) := fun r u hu =>
    Calm.ite_iff.2 ⟨fun _ => hu, fun _ => hu.disqualify r 0⟩
  unfold State.svcDown
  split
  · extract_lets s0 s1 s2 drop
    have h0 : Calm s s0 := (Calm.svcLeave _ h : Calm s (t.svcDrain p)).step rfl rfl rfl
    have h1 : Calm s s1 := (Calm.setFlag (f := PTP.SVC_STATUS_UP p) h0 (svc_notKeys p).2 false).raise (by decide)
    have h2 : Calm s s2 := by
      unfold s2
      split
      · unfold State.slaveFaulty
        dsimp only
        split
        · exact h1
        · have hf : ∀ x, Calm s (((s1.setPtp x).setFld PTP.SLV_STATUS_STATE 4).raise PTP.STAT_SLV_LOST) := fun x =>
            ((h1.setPtp x).setFld (by decide) _).raise (by decide)
          split
          · exact hf _
          · exact (hf _).disqualify 5 4
      · exact h1
    split
    · exact hdrop 5 _ (hdrop 3 _ h2)
    · exact hdrop 4 _ h2
  · exact h

theorem Calm.tornWrite (l : List Byte) (h : Calm s t) (a be : Nat) : Calm s (t.tornWrite a be l) := by
  induction l generalizing t a be with
  | nil => exact h
  | cons b l ih =>
    unfold State.tornWrite
    refine ih ?_ _ _
    split
    · exact (h.fresh 1).write _ _
    · exact h.fresh 1

theorem Calm.drainStart (h : Calm s t) (m : Nat) : Calm s (t.drainStart m) := by
  unfold State.drainStart
  refine foldl_of (P := Calm s) _ (h.setReg (by decide) _) fun u x hu => ?_
  split
  · split
    · exact hu
    · exact hu
    · exact Calm.tornWrite _ hu _ _
  · exact hu

theorem Calm.pcieDown (h : Calm s t) : Calm s t.pcieDown := by
  unfold State.pcieDown
  split
  · exact ((h.setRegN (by decide) _).raise (by decide)).drainStart 0
  · exact h

theorem Calm.dramLose (h : Calm s t) : Calm s t.dramLose := by
  unfold State.dramLose
  exact (Calm.setFlag (f := DMC.STATUS_READY) (h.step rfl rfl rfl : Calm s (t.dramZero _)) (by decide) false).setDram _

/-- What a domain other than the always-on one, the trunk's and the root's loses. -/
theorem Calm.loseDomain (h : Calm s t) {d : Nat} (hd : 3 ≤ d) : Calm s (t.loseDomain d) := by
  unfold State.loseDomain
  rw [if_neg (by omega), if_neg (by omega)]
  split
  · extract_lets n x s1 y c s2
    have h1 : Calm s s1 := (h.dropRegs hd).wipe _ _
    have h2 : Calm s s2 := h1.step rfl rfl rfl
    split
    · exact Calm.setFld (f := STL.STATUS_STATE n) h2 (not_key_add _ (by decide)) _
    · exact h2
  split
  · refine h.each _ fun u n _ hu => ?_
    dsimp only
    refine Calm.setLane ?_ _ _
    split
    · exact hu.lockLost n
    · exact hu
  split
  · refine h.each _ fun u p _ hu => ?_
    refine Calm.mapLanes ?_ _ _
    split
    · exact hu.portFail p
    · exact hu
  split
  · exact h.each _ fun u p _ hu => (hu.setRegN (out_notKeys p).1 0).portMoved p _
  split
  · exact (h.svcDown 0).svcDown 1
  split
  · exact h.pcieDown
  split
  · exact h.dramLose
  split
  · exact (h.calAbandon.dropRegs (by decide)).wipe _ _
  split
  · exact ((h.dropRegs (by decide : 3 ≤ 16)).wipe 0xFE0030000000 0x200000).step rfl rfl rfl
  · exact h

theorem Calm.powerDown (h : Calm s t) {d : Nat} (hd : 3 ≤ d) : Calm s (t.powerDown d) := by
  unfold State.powerDown
  split
  · have h1 : Calm s ((t.failOut (fun x => t.txnDomain x == d)).loseDomain d) :=
      Calm.loseDomain (Calm.each (h.setOut _) _ fun u x _ hu => hu.errorTo _ _ _) hd
    exact (h1.setRegN (by decide) _).raise (by decide)
  · exact h

theorem Calm.powerUp (h : Calm s t) (d : Nat) : Calm s (t.powerUp d) := by
  have h1 : ∀ n, Calm s ((t.setRegN PWR.DOM_ON n).raise PWR.STAT_DOM_UP) := fun n => (h.setRegN (by decide) n).raise (by decide)
  unfold State.powerUp
  dsimp only
  split
  · exact (h1 _).setPwr _
  · exact h1 _

/-! ## Changes in service -/

theorem stl_notKeys (d : Nat) : STL.CFG d ∉ keyRegs ∧ STL.CHCNT d ∉ keyRegs ∧ STL.STATUS d ∉ keyRegs ∧ STL.STAT d ∉ keyRegs ∧ STL.CTRL d ∉ keyRegs :=
  ⟨not_key_add _ (by decide), not_key_add _ (by decide), not_key_add _ (by decide), not_key_add _ (by decide), not_key_add _ (by decide)⟩

theorem Calm.showPart (h : Calm s t) (st die : Nat) (takeover hold : Bool) : Calm s (t.showPart st die takeover hold) := h.setRegN (by decide) _

theorem Calm.handOver (h : Calm s t) (n : Nat) : Calm s (t.handOver n) := by
  unfold State.handOver
  split
  next d _ =>
    obtain ⟨hcfg, hcnt, hstatus, hstat, -⟩ := stl_notKeys d
    obtain ⟨ncfg, ncnt, -⟩ := stl_notKeys n
    have h1 : Calm s ((t.setReg (STL.CFG d) (t.reg (STL.CFG n))).setReg (STL.CHCNT d) (t.reg (STL.CHCNT n))) := (h.setReg hcfg _).setReg hcnt _
    have h2 := (Calm.setFld (f := STL.CFG_LPOS n) h1 ncfg 7).setRegN ncnt 0
    exact ((Calm.setFld (f := STL.STATUS_STATE d) h2 hstatus 0).raise hstat).raise (by decide)
  · exact h

theorem Calm.keepLayout (h : Calm s t) (o : State) (n : Nat) : Calm s (t.keepLayout o n) := by
  obtain ⟨hcfg, hcnt, -, -, hctrl⟩ := stl_notKeys n
  exact ((h.setReg hctrl _).setReg hcfg _).setReg hcnt _

theorem Calm.reloadDie (h : Calm s t) (c : Change) : Calm s (t.reloadDie c) := by
  unfold State.reloadDie
  split
  · exact (h.setChange _).showPart _ _ _ _
  · extract_lets s3 s4 s5
    have h3 : Calm s s3 := (h.setChange _).showPart _ _ _ _
    have h4 : Calm s s4 := h3.powerDown (by omega)
    split
    · refine Calm.keepLayout ?_ _ _
      unfold s5
      split
      · exact h4.powerUp _
      · exact h4
    · exact h3

theorem Calm.closeDie (h : Calm s t) (c : Change) : Calm s (t.closeDie c) := by
  obtain ⟨-, -, hstatus, hstat, -⟩ := stl_notKeys c.die
  unfold State.closeDie
  extract_lets x s1
  have h1 : Calm s s1 := by
    unfold s1
    split
    · exact h
    · exact ((Calm.setFld (f := STL.STATUS_STATE c.die) (h.setDie _ _) hstatus 2).raise hstat).raise (by decide)
  refine Calm.reloadDie ?_ c
  split
  · exact h1.handOver _
  · exact h1

theorem Calm.reopenDie (h : Calm s t) (n : Nat) : Calm s (t.reopenDie n) := by
  obtain ⟨-, -, hstatus, hstat, -⟩ := stl_notKeys n
  exact ((Calm.setFld (f := STL.STATUS_STATE n) (h.setDie _ _) hstatus _).raise hstat).raise (by decide)

theorem Calm.changeOn (h : Calm s t) : Calm s t.changeOn := by
  unfold State.changeOn
  split
  next c _ =>
    split
    · split
      · exact h.haltCores c
      · exact h.closeDie c
    · split
      · split
        · exact h.restartCores c
        · exact ((h.reopenDie _).setChange _).setRegN (by decide) 0
      · exact h
  · exact h

theorem Calm.changeStep (h : Calm s t) : Calm s t.changeStep := by
  unfold State.changeStep
  split
  · split
    · exact ((h.handOver _).setChange _).changeOn
    · exact h.changeOn
  · exact h

theorem Calm.changeNow (h : Calm s t) : Calm s t.changeNow := by
  unfold State.changeNow
  split
  · exact h.changeStep
  · exact h

theorem Calm.changeBell (h : Calm s t) (b : Nat) : Calm s (t.changeBell b) := by
  unfold State.changeBell
  split
  · split
    · exact h
    · exact h.changeStep
  · exact h

end

/-- What the bell engine's way to STOPPED leaves in place: STOPPED itself is stored first. -/
theorem State.calm_enterStopped (s : State) : Calm ((s.setBell BellEng.reset).setBellState stSTOPPED) s.enterStopped := by
  unfold State.enterStopped
  extract_lets s1 c x s2 s3 s4
  have h1 : Calm ((s.setBell BellEng.reset).setBellState stSTOPPED) s1 := (Calm.refl _).ledgerClose
  have h3 : Calm ((s.setBell BellEng.reset).setBellState stSTOPPED) s3 := h1.step rfl rfl rfl
  refine Calm.changeNow (Calm.calAbandon ?_)
  split
  · exact h3
  · exact h3.step rfl rfl rfl

/-! ## Reads -/

/-- Register x has been stored. -/
def State.stored (s : State) (x : Reg) : Prop := (Store.get? s.regs x).isSome = true

theorem State.stored_setReg (s : State) {r x : Reg} (v : Word) (h : x = r ∨ s.stored x) : (s.setReg r v).stored x := by
  show (Store.get? (Store.put s.regs r v) x).isSome = true
  rw [Store.get?_put]
  split
  · rfl
  · next hne => exact h.resolve_left hne

theorem Calm.stored {s t : State} (h : Calm s t) {x : Reg} (hx : x ∈ keyRegs) (hs : s.stored x) : t.stored x := by
  obtain ⟨v, hv⟩ := Option.isSome_iff_exists.1 hs
  exact Option.isSome_iff_exists.2 ⟨v, h.reg x hx v hv⟩

/-- A stored register that counts reads as it did. -/
theorem Calm.reads {s t : State} (h : Calm s t) {x : Reg} (hx : x ∈ keyRegs) (hs : s.stored x) : t.reg x = s.reg x := by
  obtain ⟨v, hv⟩ := Option.isSome_iff_exists.1 hs
  show (Store.get? t.regs x).getD _ = (Store.get? s.regs x).getD _
  rw [hv, h.reg x hx v hv]
  rfl

theorem Calm.fields {s t : State} (h : Calm s t) {f : Fld} (hx : f.reg ∈ keyRegs) (hs : s.stored f.reg) : t.fld f = s.fld f ∧ t.flag f = s.flag f := by
  have he := h.reads hx hs
  exact ⟨by rw [State.fld, he]; rfl, by rw [State.flag, he]; rfl⟩

/-- The engine is STOPPED after it entered STOPPED, and a register of it that was stored reads as it did. -/
theorem State.reads_enterStopped (s : State) : s.enterStopped.bellState = stSTOPPED ∧ (s.stored BEL.CTRL → s.enterStopped.reg BEL.CTRL = s.reg BEL.CTRL) ∧
    (s.stored PIT.CTRL → s.enterStopped.reg PIT.CTRL = s.reg PIT.CTRL) := by
  have h := s.calm_enterStopped
  refine ⟨(h.fields (f := BEL.STATUS_STATE) (by decide) ?_).1.trans ?_, fun hs => ?_, fun hs => ?_⟩
  · exact State.stored_setReg _ _ (.inl rfl)
  · exact State.fld_setFld _ BEL.STATUS_STATE _ (by decide)
  · exact (h.reads (by decide) (State.stored_setReg _ _ (.inr hs))).trans (State.reg_setReg_ne _ _ (by decide))
  · exact (h.reads (by decide) (State.stored_setReg _ _ (.inr hs))).trans (State.reg_setReg_ne _ _ (by decide))

end Sys2Proof.Machine
end

section
/-! SUPPORT. Sending, replay and parking on the canopy (R120, R121, R128, R129, R132): O10. -/
namespace Sys2Proof.Machine

theorem ackTx_completes :
    ∀ p s, s.portUp (p % 4) = true → ((s.port (p % 4)).ackOwed = true ∨ (s.port (p % 4)).nakOwed = true) →
      s.sendDue (p % 4) = false →
      Completes (.ackTx p) s (fun u => ∃ tr, u.sent =
        .canopy (p % 4) { body := .credit, src := s.myPitch, seq := (s.port (p % 4)).txSeq } tr :: s.sent ∧ tr.cred = []) := by
  intro p s hup how hdue
  have hc : (s.portUp (p % 4) && ((s.port (p % 4)).ackOwed || (s.port (p % 4)).nakOwed) && !s.sendDue (p % 4)) = true := by
    simp [hup, hdue, how]
  exact ⟨_, congrArg done (if_pos hc), _, rfl, rfl⟩

theorem replayTimeout_completes :
    ∀ p t s, BlockInv s → s.portUp (p % 4) = true → (s.port (p % 4)).held ≠ [] → (s.port (p % 4)).rounds < 16 →
      (s.port (p % 4)).progressAt + 4000 * ns ≤ (s.at t).up → Completes (.replayTimeout p t) s (fun u =>
        (u.port (p % 4)).replay = (s.port (p % 4)).held ∧ (u.port (p % 4)).rounds = (s.port (p % 4)).rounds + 1) := by
  intro p t s hinv hup hheld hrounds hdue
  have hc : ((s.at t).portUp (p % 4) && ((s.at t).port (p % 4)).held != [] &&
      decide (((s.at t).port (p % 4)).progressAt + 4000 * ns ≤ (s.at t).up)) = true := by
    have h1 : (s.at t).portUp (p % 4) = true := hup
    have h2 : ((s.at t).port (p % 4)).held ≠ [] := hheld
    have h3 : ((s.at t).port (p % 4)).progressAt + 4000 * ns ≤ (s.at t).up := hdue
    simp [h1, h2, h3]
  have hround : (s.at t).replayRound (p % 4) = (s.at t).setPort (p % 4) { s.port (p % 4) with
      replay := (s.port (p % 4)).held, rounds := (s.port (p % 4)).rounds + 1, progressAt := (s.at t).up } :=
    (if_neg hheld).trans (if_neg (Nat.not_le.2 hrounds))
  refine ⟨_, congrArg done ((if_pos hc).trans hround), ?_⟩
  have hget := hinv.port_setPort (Nat.mod_lt p (by decide : 0 < 4))
  exact ⟨congrArg CanPort.replay (hget _), congrArg CanPort.rounds (hget _)⟩

theorem replayLimit_completes :
    ∀ p s, s.portUp (p % 4) = true → 16 ≤ (s.port (p % 4)).rounds → (s.port (p % 4)).held ≠ [] → (s.port (p % 4)).replay = [] →
      Completes (.replayLimit p) s (fun u => u.portState (p % 4) = 1 ∧ u.flag CAN.STAT_PORT_DOWN = true) := by
  intro p s hup hrounds hheld hreplay
  have hc : (s.portUp (p % 4) && decide (16 ≤ (s.port (p % 4)).rounds) && (s.port (p % 4)).held != [] && (s.port (p % 4)).replay == []) = true := by
    simp [hup, hrounds, hheld, hreplay]
  exact ⟨_, congrArg done (if_pos hc), s.portFail_completes (Nat.mod_lt p (by decide))⟩

/-! ## Sending (R121) -/

theorem exec_portTransmit {p : Nat} {s : State} (t : Nat) (hup : s.portUp (p % 4) = true) (hw : s.works 1 26 = true) :
    exec (.portTransmit p t) s = .next ((s.at t).transmit (p % 4)) := by
  have hc : ((s.at t).portUp (p % 4) && (s.at t).works 1 26) = true := Bool.and_eq_true_iff.2 ⟨hup, hw⟩
  exact congrArg done (if_pos hc)

theorem portTransmit_replays :
    ∀ p t k tr l s, s.portUp (p % 4) = true → s.works 1 26 = true → (s.port (p % 4)).replay = (k, tr) :: l →
      Completes (.portTransmit p t) s (fun u => u.flag CAN.STAT_REPLAY = true ∧ ∃ m, u.sent = .canopy (p % 4) k tr :: m) := by
  intro p t k tr l s hup hw hreplay
  have hr : ((s.at t).port (p % 4)).replay = (k, tr) :: l := hreplay
  refine ⟨_, exec_portTransmit t hup hw, ?_⟩
  unfold State.transmit
  dsimp only
  rw [hr]
  exact ⟨State.flag_raise _ CAN.STAT_REPLAY (by decide) (by decide) (by decide), _, rfl⟩

/-- The place that R121 names is a place of the queue. -/
theorem firstCtl_lt {l : List Packet} {i : Nat} (h : firstCtl l = some i) : i < l.length := by
  unfold firstCtl at h
  obtain ⟨⟨o, j⟩, hb, rfl⟩ := Option.map_eq_some_iff.1 h
  have hplace : ∀ q ∈ l.zipIdx, q.2 < l.length := fun q hq => by
    obtain ⟨-, hlt, -⟩ := List.mem_zipIdx (x := q.1) (i := q.2) hq
    omega
  suffices hfold : ∀ (m : List (Packet × Nat)) (b : Option (Nat × Nat)), (∀ q ∈ m, q.2 < l.length) → (∀ x, b = some x → x.2 < l.length) →
      ∀ x, m.foldl (fun (b : Option (Nat × Nat)) (q : Packet × Nat) =>
        let o := bodyOrder q.1.body
        match b with
        | none => some (o, q.2)
        | some x => if o < x.1 then some (o, q.2) else b) b = some x → x.2 < l.length from
    hfold _ none hplace (fun x hx => absurd hx (by simp)) _ hb
  intro m
  induction m with
  | nil => exact fun b _ hbl x hx => hbl x hx
  | cons q m ih =>
    intro b hm hbl x hx
    refine ih _ (fun q hq => hm q (List.mem_cons_of_mem _ hq)) (fun y hy => ?_) x hx
    have hq := hm q List.mem_cons_self
    dsimp only at hy
    split at hy
    · rw [← Option.some.inj hy]
      exact hq
    · split at hy
      · rw [← Option.some.inj hy]
        exact hq
      · exact hbl y hy

theorem firstCtl_of_ne_nil {l : List Packet} (h : l ≠ []) : ∃ i, firstCtl l = some i := by
  obtain ⟨k, l, rfl⟩ := List.exists_cons_of_ne_nil h
  have hfold : ∀ (m : List (Packet × Nat)) (x : Nat × Nat), ∃ y, m.foldl (fun (b : Option (Nat × Nat)) (q : Packet × Nat) =>
        let o := bodyOrder q.1.body
        match b with
        | none => some (o, q.2)
        | some x => if o < x.1 then some (o, q.2) else b) (some x) = some y := by
    intro m
    induction m with
    | nil => exact fun x => ⟨x, rfl⟩
    | cons q m ih =>
      intro x
      rw [List.foldl_cons]
      dsimp only
      split <;> exact ih _
  obtain ⟨y, hy⟩ := hfold (l.zipIdx 1) (bodyOrder k.body, 0)
  exact ⟨y.2, congrArg (Option.map (fun q : Nat × Nat => q.2)) hy⟩

theorem State.port_setPort_of_ctl {s : State} {p : Nat} (h : (s.port p).ctl ≠ []) (c : CanPort) : (s.setPort p c).port p = c := by
  have hlt : p < s.can.ports.length := by
    refine Nat.lt_of_not_le fun hge => h ?_
    have hport : s.port p = CanPort.reset := by rw [State.port, atD_eq_getElem?, List.getElem?_eq_none hge]; rfl
    rw [hport]
    rfl
  exact (atD_setAt _ p p _ _ hlt).trans (if_pos rfl)

theorem portTransmit_controls :
    ∀ p t s, s.portUp (p % 4) = true → s.works 1 26 = true → (s.port (p % 4)).replay = [] → (s.port (p % 4)).held.length < 128 →
      (s.port (p % 4)).ctl ≠ [] → Completes (.portTransmit p t) s (fun u => ∃ k tr, u.sent = .canopy (p % 4) k tr :: s.sent ∧
        k.seq = (s.port (p % 4)).txSeq) := by
  intro p t s hup hw hreplay hheld hctl
  refine ⟨_, exec_portTransmit t hup hw, ?_⟩
  have hr : ((s.at t).port (p % 4)).replay = [] := hreplay
  have hh : ¬ 128 ≤ ((s.at t).port (p % 4)).held.length := Nat.not_le.2 hheld
  obtain ⟨i, hi⟩ := firstCtl_of_ne_nil hctl
  have hi' : firstCtl ((s.at t).port (p % 4)).ctl = some i := hi
  have hk : ((s.at t).port (p % 4)).ctl[i]? = some ((s.port (p % 4)).ctl[i]'(firstCtl_lt hi)) := List.getElem?_eq_getElem (firstCtl_lt hi)
  have hseq := congrArg CanPort.txSeq (State.port_setPort_of_ctl (s := s.at t) hctl
    { (s.at t).port (p % 4) with replay := [], ctl := ((s.at t).port (p % 4)).ctl.eraseIdx i })
  unfold State.transmit
  dsimp only
  rw [hr]
  dsimp only
  rw [if_neg hh, hi']
  dsimp only
  rw [hk]
  exact ⟨_, _, rfl, hseq⟩

theorem State.body_ownDirs (s : State) (k : Packet) : (s.ownDirs k).body = k.body ∧ (s.ownDirs k).m0 = k.m0 ∧
    (s.ownDirs k).channel = k.channel ∧ (s.ownDirs k).dest = k.dest := by
  unfold State.ownDirs
  dsimp only
  split
  · exact ⟨rfl, rfl, rfl, rfl⟩
  · split
    · exact ⟨rfl, rfl, rfl, rfl⟩
    · split <;> exact ⟨rfl, rfl, rfl, rfl⟩

theorem State.sent_returnCredit (s : State) (v : Nat) (from? : Option Nat) : (s.returnCredit v from?).sent = s.sent := by
  unfold State.returnCredit
  split <;> rfl

theorem portTransmit_data :
    ∀ p t v h l s, s.portUp (p % 4) = true → s.works 1 26 = true → (s.port (p % 4)).replay = [] → (s.port (p % 4)).held.length < 128 →
      (s.port (p % 4)).ctl = [] → pickVoq (s.port (p % 4)).rr (s.readyVoqs (p % 4)) = some v → s.voq v = h :: l →
      Completes (.portTransmit p t) s (fun u => ∃ k tr, u.sent = .canopy (p % 4) k tr :: s.sent ∧ k.body = h.pkt.body ∧
        k.m0 = h.pkt.m0 ∧ k.channel = h.pkt.channel ∧ k.dest = h.pkt.dest) := by
  intro p t v h l s hup hw hreplay hheld hctl hpick hv
  have hr : ((s.at t).port (p % 4)).replay = [] := hreplay
  have hh : ¬ 128 ≤ ((s.at t).port (p % 4)).held.length := Nat.not_le.2 hheld
  have hc : ((s.at t).port (p % 4)).ctl = [] := hctl
  have hp : pickVoq ((s.at t).port (p % 4)).rr ((s.at t).readyVoqs (p % 4)) = some v := hpick
  have hq : (s.at t).voq v = h :: l := hv
  have hsend : (s.at t).transmit (p % 4) = (s.at t).sendData (p % 4) v := by
    unfold State.transmit
    dsimp only
    rw [hr]
    dsimp only
    rw [if_neg hh, hc]
    show (match pickVoq _ _ with | some v => _ | none => _) = _
    rw [hp]
  refine ⟨_, (exec_portTransmit t hup hw).trans (congrArg Host.Outcome.next hsend), ?_⟩
  unfold State.sendData
  rw [hq]
  dsimp only
  have hbody := (s.at t).body_ownDirs h.pkt
  refine ⟨_, _, congrArg (List.cons _) (State.sent_returnCredit _ _ _), ?_⟩
  dsimp only
  split
  · exact hbody
  · exact ⟨rfl, rfl, rfl, rfl⟩

theorem voqStarve_completes :
    ∀ p v t h l s, s.voq v = h :: l → s.portUp (p % 4) = true → s.headFor (p % 4) h = true → s.credits (p % 4) v = 0 → h.starved = false →
      h.since + 1000 * max 1 (s.fld CAN.STARVE_US) * ns < (s.at t).up →
      Completes (.voqStarve p v t) s (fun u => u.flag CAN.STAT_STARVE = true ∧ u.voq v = { h with starved := true } :: l) := by
  intro p v t h l s hv hup hhead hcred hst hdue
  have hv' : (s.at t).voq v = h :: l := hv
  have hc : ((s.at t).portUp (p % 4) && (s.at t).headFor (p % 4) h && (s.at t).credits (p % 4) v == 0 && !h.starved &&
      decide (h.since + 1000 * max 1 ((s.at t).fld CAN.STARVE_US) * ns < (s.at t).up)) = true := by
    have h1 : (s.at t).portUp (p % 4) = true := hup
    have h2 : (s.at t).headFor (p % 4) h = true := hhead
    have h3 : (s.at t).credits (p % 4) v = 0 := hcred
    have h4 : h.since + 1000 * max 1 ((s.at t).fld CAN.STARVE_US) * ns < (s.at t).up := hdue
    rw [h1, h2, h3, hst, decide_eq_true h4]
    rfl
  have he : exec (.voqStarve p v t) s = .next ((((s.at t).setVoq v ({ h with starved := true } :: l)).bump CAN.STARVE_CNT 1).raise CAN.STAT_STARVE) := by
    show execVoqStarve p v t s = _
    unfold execVoqStarve
    dsimp only
    rw [hv']
    exact congrArg done (if_pos hc)
  refine ⟨_, he, State.flag_raise _ CAN.STAT_STARVE (by decide) (by decide) (by decide), ?_⟩
  show Store.getD (Store.put _ v _) v [] = _
  rw [Store.getD_put, if_pos rfl]

theorem probeTx_completes :
    ∀ p t s, BlockInv s → s.portUp (p % 4) = true → Completes (.probeTx p t) s (fun u =>
      ∃ k, (u.port (p % 4)).ctl = (s.port (p % 4)).ctl ++ [k] ∧ k.body = .probe 0) := by
  intro p t s hinv hup
  have hup' : (s.at t).portUp (p % 4) = true := hup
  exact ⟨_, congrArg done (if_pos hup'), _, congrArg CanPort.ctl (hinv.port_setPort (Nat.mod_lt p (by decide : 0 < 4)) _), rfl⟩

/-! ## Parking (R132) -/

theorem exec_parkSet {s : State} (t : Nat) (hwas : s.flag PIT.CTRL_PARK = false) (hpk : s.isParked = false) (hat : s.can.parkAt = none) :
    exec (.parkSet t) s = .next (if s.isRinging then ((s.at t).setFlag PIT.CTRL_PARK true).setCan { s.can with
        parkAt := some (s.dumpN * max 1 (ceilDiv s.bell.nextIdx s.dumpN) + 2), parkSent := false }
      else (((s.at t).setFlag PIT.CTRL_PARK true).parkNow 0).sendCast
        { ckind := 3, origin := 0, cseq := 0, bell := 0, source := 0, pre := 0, post := 0, tag := 0 }) := by
  have hfld : ∀ f : Fld, f.reg ≠ PIT.CTRL → ((s.at t).setFlag PIT.CTRL_PARK true).fld f = s.fld f ∧
      ((s.at t).setFlag PIT.CTRL_PARK true).flag f = s.flag f := fun f hf => ⟨State.fld_setReg_ne _ _ hf, State.flag_setReg_ne _ _ hf⟩
  have hpk' : ((s.at t).setFlag PIT.CTRL_PARK true).isParked = false := (hfld PIT.STATUS_PARKED (by decide)).2.trans hpk
  have hring : ((s.at t).setFlag PIT.CTRL_PARK true).isRinging = s.isRinging := by
    unfold State.isRinging State.bellState
    rw [(hfld BEL.STATUS_STATE (by decide)).1]
  have hn : ((s.at t).setFlag PIT.CTRL_PARK true).dumpN = s.dumpN := congrArg (max 1) (hfld (STL.DUMP_N_N 0) (by decide)).1
  have hset : (s.at t).pitCtrl 1 = ((s.at t).setFlag PIT.CTRL_PARK true).parkSet := if_neg (c := (s.at t).flag PIT.CTRL_PARK = true)
    (fun h => Bool.false_ne_true (hwas.symm.trans h))
  show done ((s.at t).pitCtrl 1) = _
  rw [hset]
  unfold State.parkSet
  have hnone : ((s.at t).setFlag PIT.CTRL_PARK true).can.parkAt = none := hat
  rw [if_neg (by rw [hpk', hnone]; simp), hring, hn]
  rfl

theorem parkSet_ringing :
    ∀ t s, s.flag PIT.CTRL_PARK = false → s.isParked = false → s.can.parkAt = none → s.isRinging = true →
      Completes (.parkSet t) s (fun u => u.flag PIT.CTRL_PARK = true ∧
        u.can.parkAt = some (s.dumpN * max 1 (ceilDiv s.bell.nextIdx s.dumpN) + 2)) := by
  intro t s hwas hpk hat hring
  refine ⟨_, (exec_parkSet t hwas hpk hat).trans (congrArg Host.Outcome.next (if_pos hring)), ?_, rfl⟩
  exact State.flag_setFlag _ PIT.CTRL_PARK true (by decide) (by decide)

theorem State.regKey_notePark (s : State) (pitch p : Nat) : (s.notePark pitch p).regKey = s.regKey := rfl

/-- The park takes effect: PARKED is set and raised, RUN is cleared (R132). -/
theorem State.reads_parkNow {s : State} (hstored : s.stored PIT.CTRL) (h : s.flag PIT.CTRL_PARK = true) (first : Nat) :
    (s.parkNow first).flag PIT.STAT_PARKED = true ∧ (s.parkNow first).flag PIT.STATUS_PARKED = true ∧ (s.parkNow first).flag BEL.CTRL_RUN = false := by
  unfold State.parkNow
  extract_lets lo tail s1 s2 s3 s4
  have hpit1 : s1.flag PIT.CTRL_PARK = true := (State.flag_setReg_ne _ _ (by decide)).trans h
  have hrun1 : s1.flag BEL.CTRL_RUN = false := State.flag_setFlag _ BEL.CTRL_RUN false (by decide) (by decide)
  have h2 : s2.flag PIT.CTRL_PARK = true ∧ s2.flag BEL.CTRL_RUN = false := by
    unfold s2
    split
    · exact ⟨hpit1, hrun1⟩
    · obtain ⟨-, hctrl, hpark⟩ := s1.reads_enterStopped
      have e1 := hpark (State.stored_setReg _ _ (.inr hstored))
      have e2 := hctrl (State.stored_setReg _ _ (.inl rfl))
      refine ⟨Eq.trans ?_ hpit1, Eq.trans ?_ hrun1⟩
      · rw [State.flag, e1]
        rfl
      · rw [State.flag, e2]
        rfl
  have h3 : s3.flag PIT.STAT_PARKED = true ∧ s3.flag PIT.STATUS_PARKED = true ∧ s3.flag BEL.CTRL_RUN = false := by
    refine ⟨State.flag_raise _ PIT.STAT_PARKED (by decide) (by decide) (by decide), ?_, ?_⟩
    · exact (State.flag_raise_ne _ _ _ (by decide) (by decide) (by decide)).trans
        ((State.flag_setFlag _ PIT.STATUS_PARKED _ (by decide) (by decide)).trans h2.1)
    · exact (State.flag_raise_ne _ _ _ (by decide) (by decide) (by decide)).trans ((State.flag_setReg_ne _ _ (by decide)).trans h2.2)
  have h4 : s4.regKey = s3.regKey := by
    unfold s4
    split
    · exact State.regKey_notePark _ _ _
    · rfl
  clear_value s3 s4
  obtain ⟨-, -, -, hflag⟩ := State.reads_of_regKey (u := s4.setCan { s4.can with
    parkAt := none, parkSent := false, rejoin := true, joinAt := none, tail := tail }) (s := s3) h4
  exact ⟨(hflag _).trans h3.1, (hflag _).trans h3.2.1, (hflag _).trans h3.2.2⟩

theorem State.regKey_sendCast (s : State) (c : Cast) : (s.sendCast c).regKey = s.regKey := by
  unfold State.sendCast State.each
  dsimp only
  refine (foldl_proj State.regKey ?_ _ _).trans ?_
  · exact fun _ _ => rfl
  · rfl

theorem parkSet_stopped :
    ∀ t s, s.flag PIT.CTRL_PARK = false → s.isParked = false → s.can.parkAt = none → s.isRinging = false →
      Completes (.parkSet t) s (fun u => u.flag PIT.STAT_PARKED = true ∧ u.flag PIT.STATUS_PARKED = true ∧ u.flag BEL.CTRL_RUN = false) := by
  intro t s hwas hpk hat hring
  refine ⟨_, (exec_parkSet t hwas hpk hat).trans (congrArg Host.Outcome.next (if_neg (by rw [hring]; exact Bool.false_ne_true))), ?_⟩
  obtain ⟨-, -, -, hflag⟩ := State.reads_of_regKey (State.regKey_sendCast (((s.at t).setFlag PIT.CTRL_PARK true).parkNow 0)
    { ckind := 3, origin := 0, cseq := 0, bell := 0, source := 0, pre := 0, post := 0, tag := 0 })
  obtain ⟨h1, h2, h3⟩ := State.reads_parkNow (s := (s.at t).setFlag PIT.CTRL_PARK true) (State.stored_setReg _ _ (.inl rfl))
    (State.flag_setFlag _ PIT.CTRL_PARK true (by decide) (by decide)) 0
  exact ⟨(hflag _).trans h1, (hflag _).trans h2, (hflag _).trans h3⟩

theorem parkClear_completes :
    ∀ t s, s.flag PIT.CTRL_PARK = true → Completes (.parkClear t) s (fun u =>
      u.flag PIT.CTRL_PARK = false ∧ u.flag PIT.STATUS_PARKED = false) := by
  intro t s hwas
  have hset : (s.at t).pitCtrl 0 = ((s.at t).setFlag PIT.CTRL_PARK false).parkClear := if_pos (c := (s.at t).flag PIT.CTRL_PARK = true) hwas
  have hkey : ∀ v : State, v.parkClear.regKey = (v.setFlag PIT.STATUS_PARKED false).regKey := fun v => by
    unfold State.parkClear
    dsimp only
    split <;> rfl
  obtain ⟨-, -, -, hflag⟩ := State.reads_of_regKey (hkey ((s.at t).setFlag PIT.CTRL_PARK false))
  refine ⟨_, congrArg done hset, (hflag _).trans ?_, (hflag _).trans (State.flag_setFlag _ PIT.STATUS_PARKED false (by decide) (by decide))⟩
  exact (State.flag_setReg_ne _ _ (by decide)).trans (State.flag_setFlag _ PIT.CTRL_PARK false (by decide) (by decide))

/-- Settles O10, clause by clause. -/
theorem canopySendingCompletes : Obligations.canopy_sending_completes :=
  ⟨ackTx_completes, replayTimeout_completes, replayLimit_completes, portTransmit_replays, portTransmit_controls, portTransmit_data,
    voqStarve_completes, probeTx_completes, parkSet_ringing, parkSet_stopped, parkClear_completes⟩

end Sys2Proof.Machine
end
